-- ==== Sys2Proof/Word.lean ====
section
/-!
DEFINITION. Sys2Proof/Word.lean: the word types of the device. Registers and memory words are 64 bits; memory is
addressed in bytes, and multi-byte values are little-endian (R10, 00_scope.md).
-/
namespace Sys2Proof

/-- A byte of memory. -/
abbrev Byte := BitVec 8

/-- A 64-bit register or memory word. -/
abbrev Word := BitVec 64

end Sys2Proof
end

