-- ==== Sys2Proof/Machine/Map.lean ====
section
/-!
DEFINITION. Sys2Proof/Machine/Map.lean: plain-data stores with one canonical form. A store is a list of keys and
values with keys strictly rising and no entry that equals what an unlisted key reads as, so that equal stores are
equal data; a set is a strictly rising list of numbers.
-/
namespace Sys2Proof.Machine

/-- A sparse store: keys strictly rising, default values not listed. -/
abbrev SMap (α : Type) := List (Nat × α)

/-- The value at key k, with d as what an unlisted key reads as. -/
def mget {α : Type} (d : α) (m : SMap α) (k : Nat) : α :=
  match m with
  | [] => d
  | (a, v) :: r => if a = k then v else mget d r k

/-- Insert or replace the entry at key k, keeping keys rising. -/
def mins {α : Type} (m : SMap α) (k : Nat) (v : α) : SMap α :=
  match m with
  | [] => [(k, v)]
  | (a, w) :: r => if k < a then (k, v) :: (a, w) :: r else if k = a then (k, v) :: r else (a, w) :: mins r k v

/-- Remove the entry at key k. -/
def mdel {α : Type} (m : SMap α) (k : Nat) : SMap α := m.filter (fun e => decide (e.1 ≠ k))

/-- Write v at key k: the default value is not listed. -/
def mput {α : Type} [DecidableEq α] (d : α) (m : SMap α) (k : Nat) (v : α) : SMap α :=
  if v = d then mdel m k else mins m k v

/-- Update the value at key k. -/
def mupd {α : Type} [DecidableEq α] (d : α) (m : SMap α) (k : Nat) (f : α → α) : SMap α :=
  mput d m k (f (mget d m k))

/-- Keys strictly rise from above b. -/
def keysRise {α : Type} (b : Option Nat) (m : SMap α) : Bool :=
  match m with
  | [] => true
  | (a, _) :: r => (match b with | none => true | some x => decide (x < a)) && keysRise (some a) r

/-- The canonical form of a store whose default is d. -/
def mwf {α : Type} [DecidableEq α] (d : α) (m : SMap α) : Bool :=
  keysRise none m && m.all (fun e => decide (e.2 ≠ d))

/-- A set of numbers: strictly rising. -/
abbrev NSet := List Nat

/-- Membership. -/
def nmem (m : NSet) (k : Nat) : Bool :=
  match m with
  | [] => false
  | a :: r => if a = k then true else nmem r k

/-- Insert k. -/
def nins (m : NSet) (k : Nat) : NSet :=
  match m with
  | [] => [k]
  | a :: r => if k < a then k :: a :: r else if k = a then a :: r else a :: nins r k

/-- Remove k. -/
def ndel (m : NSet) (k : Nat) : NSet := m.filter (fun x => decide (x ≠ k))

/-- Insert or remove k as b says. -/
def nset (m : NSet) (k : Nat) (b : Bool) : NSet := if b then nins m k else ndel m k

/-- Remove every member k with lo ≤ k < lo + n. -/
def ndelRange (m : NSet) (lo n : Nat) : NSet := m.filter (fun k => decide (k < lo) || decide (lo + n ≤ k))

/-- Insert every k with lo ≤ k < lo + n. -/
def ninsRange (m : NSet) (lo n : Nat) : NSet :=
  match n with
  | 0 => m
  | n + 1 => ninsRange (nins m (lo + n)) lo n

/-- The numbers lo, lo + 1, ..., lo + n - 1. -/
def span (lo n : Nat) : List Nat := (List.range n).map (· + lo)

/-- Apply f for each number of a list, in order. -/
def forEach {σ α : Type} (l : List α) (s : σ) (f : σ → α → σ) : σ := l.foldl f s

/-- Replace the first element that a test picks. -/
def updFirst {α : Type} (p : α → Bool) (f : α → α) : List α → List α
  | [] => []
  | a :: r => if p a then f a :: r else a :: updFirst p f r

/-- Bits [hi:lo] of a number. -/
def bits (w hi lo : Nat) : Nat := (w / 2 ^ lo) % 2 ^ (hi + 1 - lo)

/-- Bit i of a number. -/
def bit (w i : Nat) : Bool := w.testBit i

/-- 1 for true. -/
def b2n (b : Bool) : Nat := if b then 1 else 0

/-- w with bits [lo+n-1:lo] replaced by v. -/
def setBits (w lo n v : Nat) : Nat :=
  w - ((w / 2 ^ lo) % 2 ^ n) * 2 ^ lo + (v % 2 ^ n) * 2 ^ lo

/-- The signed value of the low n bits of w. -/
def signed (n w : Nat) : Int :=
  let x := w % 2 ^ n
  if x < 2 ^ (n - 1) then (x : Int) else (x : Int) - (2 ^ n : Nat)

/-- The n-bit two's complement of an integer. -/
def unsigned (n : Nat) (z : Int) : Nat := (z % (2 ^ n : Nat)).toNat

end Sys2Proof.Machine
end

