-- ==== Sys2Proof/Machine/Formats.lean ====
section
/-!
DEFINITION. Sys2Proof/Machine/Formats.lean: the element formats of Table 2.1 and Table 3.5 (02_arithmetic.md,
03_zmi_instruction_set.md), the one conversion procedure to_float of R84 with the rules of R85 to R90, and the FP32
operations of R88 and R89. All arithmetic is exact on integers until the one rounding the spec names.
-/
namespace Sys2Proof.Machine

/-- A decoded element (R53): a finite value (−1)^neg × m × 2^x, an infinity or a NaN. -/
inductive Num where
  | fin (neg : Bool) (m : Nat) (x : Int)
  | inf (neg : Bool)
  | nan
deriving DecidableEq, Repr

/-- What Table 2.1 gives of a format: width, exponent bits, mantissa bits, bias; ebits = 0 marks an integer format. -/
structure FmtInfo where
  w : Nat
  ebits : Nat
  mbits : Nat
  bias : Nat
  /-- exponent of the largest finite value -/
  emax : Int
  /-- its significand, in units of 2^(emax − mbits) -/
  mmax : Nat
deriving DecidableEq, Repr

/-- Table 3.5 codes 0x0 to 0x8 over Table 2.1 (R53, R84, R108); code 8 is FP32. -/
def fmtInfo (f : Nat) : FmtInfo :=
  match f with
  | 0 => ⟨4, 2, 1, 1, 2, 3⟩
  | 1 => ⟨4, 0, 0, 0, 2, 7⟩
  | 2 => ⟨6, 2, 3, 1, 2, 15⟩
  | 3 => ⟨6, 3, 2, 3, 4, 7⟩
  | 4 => ⟨8, 4, 3, 7, 8, 14⟩
  | 5 => ⟨8, 5, 2, 15, 15, 7⟩
  | 6 => ⟨8, 0, 0, 0, 6, 127⟩
  | 7 => ⟨16, 8, 7, 127, 127, 255⟩
  | _ => ⟨32, 8, 23, 127, 127, 16777215⟩

/-- Width in bits of a format code. -/
def fmtW (f : Nat) : Nat := (fmtInfo f).w

/-- Decode an element code (R53, Table 2.1). -/
def decodeElem (f c : Nat) : Num :=
  let i := fmtInfo f
  if i.ebits = 0 then
    let v := signed i.w c
    .fin (decide (v < 0)) v.natAbs 0
  else
    let s := bit c (i.w - 1)
    let e := (c / 2 ^ i.mbits) % 2 ^ i.ebits
    let m := c % 2 ^ i.mbits
    let special := decide (e = 2 ^ i.ebits - 1) && decide (f = 5 ∨ f = 7 ∨ f = 8)
    if f = 4 ∧ c % 128 = 127 then .nan
    else if special then (if m = 0 then .inf s else .nan)
    else if e = 0 then .fin s m (1 - i.bias - i.mbits)
    else .fin s (2 ^ i.mbits + m) ((e : Int) - i.bias - i.mbits)

/-- The canonical NaN of a format that has one (R55). -/
def canonNaN (f : Nat) : Nat :=
  match f with
  | 4 => 0x7F
  | 5 => 0x7F
  | 7 => 0x7FC0
  | _ => 0x7FC00000

/-- The zero of a sign in a floating-point format. -/
def zeroOf (f : Nat) (neg : Bool) : Nat := if neg then 2 ^ (fmtW f - 1) else 0

/-- The infinity of a sign in FP32, BF16 or E5M2. -/
def infOf (f : Nat) (neg : Bool) : Nat :=
  zeroOf f neg + (2 ^ (fmtInfo f).ebits - 1) * 2 ^ (fmtInfo f).mbits

/-- Assemble sign, exponent field and fraction. -/
def encodeFields (f : Nat) (neg : Bool) (e m : Nat) : Nat :=
  zeroOf f neg + e * 2 ^ (fmtInfo f).mbits + m

/-- The code of the largest finite magnitude with a sign (Table 2.1); −8 or 7, −128 or 127 in the integer formats. -/
def maxOf (f : Nat) (neg : Bool) : Nat :=
  let i := fmtInfo f
  if i.ebits = 0 then (if neg then 2 ^ (i.w - 1) else 2 ^ (i.w - 1) - 1)
  else encodeFields f neg (i.emax + i.bias).toNat (i.mmax - 2 ^ i.mbits)

/-- g / 2^k to the nearest integer, ties to even; a negative k is an exact left shift (R84). -/
def rneShift (g : Nat) (k : Int) : Nat :=
  match k with
  | .ofNat 0 => g
  | .ofNat (n + 1) =>
    let q := g / 2 ^ (n + 1)
    let r := g % 2 ^ (n + 1)
    let h := 2 ^ n
    if r < h then q else if h < r then q + 1 else if q % 2 = 0 then q else q + 1
  | .negSucc n => g * 2 ^ (n + 1)

/-- to_float of R84 on the value v × 2^x, for a floating-point format: the code, and whether a finite value overflowed (R85). -/
def toFloat (v x : Int) (f : Nat) : Nat × Bool :=
  if v = 0 then (0, false)
  else
    let i := fmtInfo f
    let s := decide (v < 0)
    let g := v.natAbs
    let emin : Int := 1 - i.bias
    let e0 : Int := (Nat.log2 g : Int) + x
    let e := if e0 < emin then emin else e0
    let q := e - i.mbits
    let m0 := rneShift g (q - x)
    let carry := decide (2 ^ (i.mbits + 1) ≤ m0)
    let m := if carry then m0 / 2 else m0
    let q := if carry then q + 1 else q
    let top := q + i.mbits
    if m = 0 then (zeroOf f s, false)
    else if i.emax < top ∨ (top = i.emax ∧ i.mmax < m) then
      ((if f = 7 ∨ f = 8 then infOf f s else maxOf f s), true)
    else if 2 ^ i.mbits ≤ m then (encodeFields f s (top + i.bias).toNat (m - 2 ^ i.mbits), false)
    else (encodeFields f s 0 m, false)

/-- Conversion of v × 2^x to INT4 or INT8: nearest, ties to even, then saturation with its flag (R84). -/
def toInt (v x : Int) (f : Nat) : Nat × Bool :=
  let w := fmtW f
  let r : Int := rneShift v.natAbs (-x)
  let z := if v < 0 then -r else r
  let hi : Int := 2 ^ (w - 1) - 1
  let lo : Int := -(2 ^ (w - 1) : Nat)
  if hi < z then (maxOf f false, true) else if z < lo then (maxOf f true, true) else (unsigned w z, false)

/-- Conversion of a finite value to any element format (R84, R85); the flag is CNV_OVF. -/
def convFin (v x : Int) (f : Nat) : Nat × Bool :=
  if (fmtInfo f).ebits = 0 then toInt v x f else toFloat v x f

/-- The flags a vector operation may set: CNV_OVF and VEC_INV of CSW (Table 3.3). -/
structure VFlags where
  cnv : Bool := false
  inv : Bool := false
deriving DecidableEq, Repr

/-- Both operations' flags (R571: sticky, in any order). -/
def VFlags.or (a b : VFlags) : VFlags := ⟨a.cnv || b.cnv, a.inv || b.inv⟩

/-- Conversion of a decoded element to a format within a vector instruction (R84, R85, R90). -/
def convNum (n : Num) (f : Nat) : Nat × VFlags :=
  match n with
  | .nan =>
    if f = 4 ∨ f = 5 ∨ f = 7 ∨ f = 8 then (canonNaN f, ⟨false, true⟩) else (0, ⟨true, false⟩)
  | .inf s =>
    if f = 5 ∨ f = 7 ∨ f = 8 then (infOf f s, {}) else (maxOf f s, ⟨true, false⟩)
  | .fin s m x =>
    if m = 0 then ((if (fmtInfo f).ebits = 0 then 0 else zeroOf f s), {})
    else
      let r := convFin (if s then -(m : Int) else m) x f
      (r.1, ⟨r.2, false⟩)

/-- The signed integer significand of a finite value. -/
def sgnInt (neg : Bool) (m : Nat) : Int := if neg then -(m : Int) else m

/-- The exact sum of v1 × 2^x1 and v2 × 2^x2 as an integer and its exponent. -/
def addExact (v1 x1 v2 x2 : Int) : Int × Int :=
  if x1 ≤ x2 then (v1 + v2 * 2 ^ (x2 - x1).toNat, x1) else (v1 * 2 ^ (x1 - x2).toNat + v2, x2)

/-- FP32 NaN result: canonical, VEC_INV (R88). -/
def f32NaN : Nat × VFlags := (0x7FC00000, ⟨false, true⟩)

/-- Round an exact value to FP32 (R88): overflow to infinity sets CNV_OVF. -/
def roundF32 (v x : Int) : Nat × VFlags :=
  let r := toFloat v x 8
  (r.1, ⟨r.2, false⟩)

/-- The exact sum of two decoded values rounded once to FP32 (R88); a zero of two zeros keeps a common sign, any other
exact zero is +0. -/
def addNum (a b : Num) : Nat × VFlags :=
  match a, b with
  | .nan, _ => f32NaN
  | _, .nan => f32NaN
  | .inf s, .inf t => if s = t then (infOf 8 s, {}) else f32NaN
  | .inf s, _ => (infOf 8 s, {})
  | _, .inf t => (infOf 8 t, {})
  | .fin s m x, .fin t n y =>
    if m = 0 ∧ n = 0 then (zeroOf 8 (s && t), {})
    else
      let r := addExact (sgnInt s m) x (sgnInt t n) y
      roundF32 r.1 r.2

/-- The exact product of two decoded values; a zero by an infinity is a NaN (R88). -/
def mulNum (a b : Num) : Num :=
  match a, b with
  | .nan, _ => .nan
  | _, .nan => .nan
  | .inf s, .inf t => .inf (s != t)
  | .inf s, .fin t n _ => if n = 0 then .nan else .inf (s != t)
  | .fin s m _, .inf t => if m = 0 then .nan else .inf (s != t)
  | .fin s m x, .fin t n y => .fin (s != t) (m * n) (x + y)

/-- A decoded exact value as FP32, one rounding. -/
def numF32 (n : Num) : Nat × VFlags :=
  match n with
  | .nan => f32NaN
  | .inf s => (infOf 8 s, {})
  | .fin s m x => if m = 0 then (zeroOf 8 s, {}) else roundF32 (sgnInt s m) x

/-- Decode FP32. -/
def d32 (c : Nat) : Num := decodeElem 8 (c % 2 ^ 32)

/-- Flip the sign of a decoded value. -/
def negNum (n : Num) : Num :=
  match n with
  | .nan => .nan
  | .inf s => .inf (!s)
  | .fin s m x => .fin (!s) m x

/-- FP32 a + b (R88). -/
def f32Add (a b : Nat) : Nat × VFlags := addNum (d32 a) (d32 b)
/-- FP32 a − b (R88). -/
def f32Sub (a b : Nat) : Nat × VFlags := addNum (d32 a) (negNum (d32 b))
/-- FP32 a × b (R88). -/
def f32Mul (a b : Nat) : Nat × VFlags := numF32 (mulNum (d32 a) (d32 b))
/-- FP32 a × b + c, one rounding (R88). -/
def f32Fma (a b c : Nat) : Nat × VFlags := addNum (mulNum (d32 a) (d32 b)) (d32 c)

/-- FP32 division, one rounding to nearest, ties to even, for quotients of finite values: the quotient is taken with
enough bits that the remainder decides every tie. -/
def divFin (s : Bool) (m : Nat) (x : Int) (n : Nat) (y : Int) : Nat × VFlags :=
  let k := 64 + Nat.log2 n
  let q := m * 2 ^ k / n
  let sticky := if m * 2 ^ k % n = 0 then 0 else 1
  roundF32 (sgnInt s (2 * q + sticky)) (x - y - k - 1)

/-- FP32 is a NaN code. -/
def isNaN32 (a : Nat) : Bool := match d32 a with | .nan => true | _ => false

/-- The rank of a non-NaN FP32 code in the order of R89: −∞ lowest, −0 below +0, +∞ highest. -/
def rank32 (a : Nat) : Int :=
  let c := a % 2 ^ 32
  if bit c 31 then -((c % 2 ^ 31 : Nat) : Int) - 1 else ((c % 2 ^ 31 : Nat) : Int)

/-- Vector minimum (R89). -/
def f32Min (a b : Nat) : Nat × VFlags :=
  if isNaN32 a || isNaN32 b then f32NaN
  else if rank32 a ≤ rank32 b then (a % 2 ^ 32, {}) else (b % 2 ^ 32, {})

/-- Vector maximum (R89). -/
def f32Max (a b : Nat) : Nat × VFlags :=
  if isNaN32 a || isNaN32 b then f32NaN
  else if rank32 a ≤ rank32 b then (b % 2 ^ 32, {}) else (a % 2 ^ 32, {})

end Sys2Proof.Machine
end

