-- ==== Sys2Proof/Machine/Accum.lean ====
section
/-!
DEFINITION. Sys2Proof/Machine/Accum.lean: tile registers and exact accumulators as data, and the arithmetic of R58 to
R87 and Table 2.12 on them (02_arithmetic.md).
-/
namespace Sys2Proof.Machine

/-- A tile register: 64 B of data, the scale word of R59, and the poison marks of R94; pending under R120. -/
structure Tile where
  data : BitVec 512 := 0
  scale : BitVec 64 := 0x7F7F7F7F7F7F7F7F
  pLo : Bool := false
  pHi : Bool := false
  pSc : Bool := false
  pending : Bool := false
deriving DecidableEq, Repr

/-- One accumulator element (Table 2.6). -/
structure AccElem where
  v : BitVec 144 := 0
  poison : Bool := false
  inv : Bool := false
  ovf : Bool := false
deriving DecidableEq, Repr

/-- One accumulator (Table 2.6). Element n = 4i + j is at key n; an unlisted element is a clear one. -/
structure Acc where
  isOpen : Bool := false
  anchor : BitVec 10 := 0
  elems : SMap AccElem := []
deriving DecidableEq, Repr

/-- Element n of an accumulator. -/
def Acc.el (a : Acc) (n : Nat) : AccElem := mget {} a.elems n

/-- Replace element n. -/
def Acc.setEl (a : Acc) (n : Nat) (e : AccElem) : Acc := { a with elems := mput {} a.elems n e }

/-- The anchor as a signed number. -/
def Acc.A (a : Acc) : Int := a.anchor.toInt

/-- Bits [lo+w-1:lo] of tile data. -/
def Tile.field (t : Tile) (lo w : Nat) : Nat := bits t.data.toNat (lo + w - 1) lo

/-- A half of the tile is poisoned: half 0 is bytes 0 to 31. -/
def Tile.pHalf (t : Tile) (h : Nat) : Bool := if h = 0 then t.pLo else t.pHi

/-- An element at bits [lo+w-1:lo] is poisoned when any half that holds one of its bits is (R94). -/
def Tile.pField (t : Tile) (lo w : Nat) : Bool := t.pHalf (lo / 256) || t.pHalf ((lo + w - 1) / 256)

/-- 2^127 − 1. -/
def lim127 : Int := 2 ^ 127 - 1

/-- One term t is added to an element (R71, R72). -/
def AccElem.addTerm (e : AccElem) (t : Int) : AccElem :=
  if lim127 < t then { e with v := e.v + BitVec.ofInt 144 lim127, ovf := true }
  else if t < -lim127 then { e with v := e.v + BitVec.ofInt 144 (-lim127), ovf := true }
  else { e with v := e.v + BitVec.ofInt 144 t }

/-- floor(v × 2^x × 2^(96 − A)) (R70). -/
def termOf (v x A : Int) : Int :=
  let k := x + 96 - A
  if k < 0 then v / 2 ^ (-k).toNat else v * 2 ^ k.toNat

/-- A product or addend of value n is added: zero contributes nothing, an infinity or NaN sets INV (R62, R63, R75). -/
def AccElem.addNum (e : AccElem) (A : Int) (n : Num) : AccElem :=
  match n with
  | .nan => { e with inv := true }
  | .inf _ => { e with inv := true }
  | .fin s m x => if m = 0 then e else e.addTerm (termOf (sgnInt s m) x A)

/-- The product of two operand values under R62 and R63: a zero operand gives an exact 0 whatever the other holds. -/
def prodNum (a b : Num) : Num :=
  match a, b with
  | .fin _ 0 _, _ => .fin false 0 0
  | _, .fin _ 0 _ => .fin false 0 0
  | .fin s m x, .fin t n y => .fin (s != t) (m * n) (x + y)
  | _, _ => .nan

/-- An element value under its E8M0 scale code: 0xFF makes a NaN operand of any element (R56). -/
def scaled (n : Num) (code : Nat) : Num :=
  if code = 255 then .nan
  else
    match n with
    | .fin s m x => .fin s m (x + (code : Int) - 127)
    | other => other

/-- Byte k of a scale word. -/
def scaleByte (w : BitVec 64) (k : Nat) : Nat := bits w.toNat (8 * k + 7) (8 * k)

/-- K of a dense operand in a format (Table 2.3). -/
def tileK (f : Nat) : Nat :=
  match f with
  | 0 => 32
  | 1 => 32
  | 7 => 8
  | _ => 16

/-- Element n of a tile in format f. -/
def Tile.elem (t : Tile) (f n : Nat) : Num := decodeElem f (t.field (fmtW f * n) (fmtW f))

/-- The operands of a TMAC: T[ra], T[rb], T[rb + 1] and T[rc], the two formats and whether A is 2:4 sparse. -/
structure TmacIn where
  a : Tile
  b0 : Tile
  b1 : Tile
  md : Tile
  fa : Nat
  fb : Nat
  sparse : Bool

/-- The metadata nibble of row i and group g (R64). -/
def TmacIn.nibble (q : TmacIn) (i g : Nat) : Nat := q.md.field (4 * (i * (tileK q.fa / 2) + g)) 4

/-- The valid nibbles of Table 2.5. -/
def validNibble (n : Nat) : Bool := n = 4 || n = 8 || n = 12 || n = 9 || n = 13 || n = 14

/-- The stored position of logical position k in row i of a sparse A, none where the position is not stored (R64). -/
def TmacIn.stored (q : TmacIn) (i k : Nat) : Option Nat :=
  let g := k / 4
  let n := q.nibble i g
  if k % 4 = n % 4 then some (2 * g) else if k % 4 = n / 4 then some (2 * g + 1) else none

/-- Logical K of the multiply. -/
def TmacIn.K (q : TmacIn) : Nat := if q.sparse then 2 * tileK q.fa else tileK q.fa

/-- The value of A[i][k] with its block scale; a position that is not stored is an exact zero (R56, R59, R64). -/
def TmacIn.aVal (q : TmacIn) (i k : Nat) : Num :=
  let K := tileK q.fa
  let go := fun n =>
    let v := q.a.elem q.fa n
    if q.fa = 7 then v else scaled v (scaleByte q.a.scale (2 * i + k / 32))
  if q.sparse then
    match q.stored i k with
    | none => .fin false 0 0
    | some st => go (i * K + st)
  else go (i * K + k)

/-- The value of B[k][j] with its block scale (R58, R59). -/
def TmacIn.bVal (q : TmacIn) (k j : Nat) : Num :=
  let K := tileK q.fa
  let v := if k < K then q.b0.elem q.fb (j * K + k) else q.b1.elem q.fb (j * K + (k - K))
  if q.fb = 7 then v else scaled v (scaleByte q.b0.scale (2 * j + k / 32))

/-- Any stored element of row i of A is poisoned. -/
def TmacIn.aPoison (q : TmacIn) (i : Nat) : Bool :=
  let K := tileK q.fa
  (List.range K).any (fun k => q.a.pField (fmtW q.fa * (i * K + k)) (fmtW q.fa))

/-- Any element of column j of B is poisoned, in T[rb + 1] too for a sparse A. -/
def TmacIn.bPoison (q : TmacIn) (j : Nat) : Bool :=
  let K := tileK q.fa
  (List.range K).any (fun k => q.b0.pField (fmtW q.fb * (j * K + k)) (fmtW q.fb) ||
    (q.sparse && q.b1.pField (fmtW q.fb * (j * K + k)) (fmtW q.fb)))

/-- A scale word that the operation uses is poisoned: none is used for BF16 (R59). -/
def TmacIn.scPoison (q : TmacIn) : Bool := decide (q.fa ≠ 7) && (q.a.pSc || q.b0.pSc)

/-- The metadata half that holds row i's nibbles is poisoned. -/
def TmacIn.mdPoison (q : TmacIn) (i : Nat) : Bool :=
  let G := tileK q.fa / 2
  q.sparse && q.md.pField (4 * (i * G)) (4 * G)

/-- C[i][j] after the multiply-accumulate (R58, Table 2.12). -/
def TmacIn.elemOut (q : TmacIn) (A : Int) (i j : Nat) (e : AccElem) : AccElem :=
  let r := (List.range q.K).foldl (fun e k => e.addNum A (prodNum (q.aVal i k) (q.bVal k j))) e
  { r with poison := e.poison || q.aPoison i || q.bPoison j || q.scPoison || q.mdPoison i }

/-- The first row and group whose nibble is outside Table 2.5 (R65). -/
def TmacIn.badNibble (q : TmacIn) : Option (Nat × Nat) :=
  let G := tileK q.fa / 2
  if q.sparse then
    ((List.range (4 * G)).find? (fun n => !(validNibble (q.nibble (n / G) (n % G))))).map (fun n => (n / G, n % G))
  else none

/-- Apply f to every element that the mask enables (R78, R109). -/
def Acc.mapEnabled (a : Acc) (mask : Nat) (f : Nat → AccElem → AccElem) : Acc :=
  (List.range 16).foldl (fun a n => if bit mask n then a.setEl n (f n (a.el n)) else a) a

/-- TMAC on an accumulator under a mask. -/
def Acc.tmac (a : Acc) (q : TmacIn) (mask : Nat) : Acc :=
  a.mapEnabled mask (fun n e => q.elemOut a.A (n / 4) (n % 4) e)

/-- Combine of R76. -/
def Acc.comb (a b : Acc) (mask : Nat) : Acc :=
  a.mapEnabled mask (fun n e =>
    let o := b.el n
    ⟨e.v + o.v, e.poison || o.poison, e.inv || o.inv, e.ovf || o.ovf⟩)

/-- An element whose accumulator's anchor falls by k (R77). -/
def AccElem.reanchor (e : AccElem) (k : Int) : AccElem :=
  if k < 0 then { e with v := BitVec.ofInt 144 (e.v.toInt / 2 ^ (-k).toNat) }
  else
    let z := e.v.toInt * 2 ^ k.toNat
    let hi : Int := 2 ^ 143 - 1
    if hi < z then { e with v := BitVec.ofInt 144 hi, ovf := true }
    else if z < -(2 ^ 143 : Nat) then { e with v := BitVec.ofInt 144 (-hi), ovf := true }
    else { e with v := BitVec.ofInt 144 z }

/-- Re-anchor of R77. -/
def Acc.reanchor (a : Acc) (anchor : BitVec 10) : Acc :=
  { (a.mapEnabled 0xFFFF (fun _ e => e.reanchor (a.A - anchor.toInt))) with anchor := anchor }

/-- Opening (R69). -/
def Acc.opened (anchor : BitVec 10) : Acc := { isOpen := true, anchor := anchor, elems := [] }

/-- X of R73. -/
def AccElem.X (e : AccElem) : Int :=
  let v := e.v.toInt
  if lim127 < v then lim127 else if v < -lim127 then -lim127 else v

/-- ACC_OVF at readout (R73). -/
def AccElem.rdOvf (e : AccElem) : Bool :=
  let v := e.v.toInt
  decide (lim127 < v) || decide (v < -lim127) || e.ovf

/-- Flags that a readout sets in CSW. -/
structure AFlags where
  accOvf : Bool := false
  accInv : Bool := false
  cnv : Bool := false
deriving DecidableEq, Repr

/-- Conversion of a read-out element to a format (R84, R85, Table 2.8). -/
def AccElem.convert (e : AccElem) (A : Int) (f : Nat) : Nat × AFlags :=
  if e.inv then
    ((if f = 4 ∨ f = 5 ∨ f = 7 ∨ f = 8 then canonNaN f else 0), ⟨e.rdOvf, true, false⟩)
  else
    let r := convFin e.X (A - 96) f
    (r.1, ⟨e.rdOvf, false, r.2⟩)

/-- emax_f of R87. -/
def mxEmax (f : Nat) : Int := (fmtInfo f).emax

/-- The shared exponent of a block whose largest |X| is mx at anchor A, none when mx = 0 (R87). -/
def mxScale (mx : Nat) (A : Int) (f : Nat) : Option Int :=
  if mx = 0 then none
  else
    let es := (Nat.log2 mx : Int) + A - 96 - mxEmax f
    some (if es < -127 then -127 else if 127 < es then 127 else es)

/-- The largest |X| of a list of elements that are not INV. -/
def mxMax (l : List AccElem) : Nat := l.foldl (fun m e => if e.inv then m else max m e.X.natAbs) 0

/-- Conversion of one element of a Microscaling block with shared exponent es: the clamp sets no flag (R85, R87). -/
def AccElem.convertMx (e : AccElem) (A : Int) (f : Nat) (es : Option Int) : Nat × AFlags :=
  if e.inv then ((if f = 4 ∨ f = 5 then canonNaN f else 0), ⟨e.rdOvf, true, false⟩)
  else
    match es with
    | none => (0, ⟨e.rdOvf, false, false⟩)
    | some s => ((convFin e.X (A - 96 - s) f).1, ⟨e.rdOvf, false, false⟩)

/-- The INV marker of LA128 (R79). -/
def invMarker : Nat := 2 ^ 127

/-- The LA128 form of an element (R80). -/
def AccElem.la128 (e : AccElem) : Nat := if e.inv then invMarker else unsigned 128 e.X

/-- An LA128 value of memory is added as one term (R81). -/
def AccElem.addLa128 (e : AccElem) (w : Nat) (poison : Bool) : AccElem :=
  let e := { e with poison := e.poison || poison }
  if w % 2 ^ 128 = invMarker then { e with inv := true } else e.addTerm (signed 128 w)

/-- OR of b × 2^i over n bits. -/
def bitField (n : Nat) (f : Nat → Bool) : Nat :=
  (List.range n).foldl (fun acc i => acc + b2n (f i) * 2 ^ i) 0

/-- The 320 B image of Table 2.7 as one little-endian number (R83). -/
def Acc.image (a : Acc) : Nat :=
  let lowv := (List.range 16).foldl (fun acc n => acc + ((a.el n).v.toNat % 2 ^ 128) * 2 ^ (128 * n)) 0
  let guard := (List.range 16).foldl (fun acc n => acc + ((a.el n).v.toNat / 2 ^ 128) * 2 ^ (16 * n)) 0
  lowv + guard * 2 ^ 2048 + unsigned 16 a.A * 2 ^ 2304
    + bitField 16 (fun n => (a.el n).poison) * 2 ^ 2320
    + bitField 16 (fun n => (a.el n).inv) * 2 ^ 2336
    + bitField 16 (fun n => (a.el n).ovf) * 2 ^ 2352
    + b2n a.isOpen * 2 ^ 2368

/-- Restore of an image: w its 320 B, and g whether granule k of it is poisoned (R83). -/
def accOfImage (w : Nat) (g : Nat → Bool) : Acc :=
  let tail := g 8 || g 9
  let el := fun n : Nat =>
    ({ v := BitVec.ofNat 144 (bits w (128 * n + 127) (128 * n) + bits w (2048 + 16 * n + 15) (2048 + 16 * n) * 2 ^ 128)
       poison := bit w (2320 + n) || tail || g (n / 2)
       inv := bit w (2336 + n)
       ovf := bit w (2352 + n) } : AccElem)
  (List.range 16).foldl (fun a n => a.setEl n (el n))
    { isOpen := bit w 2368, anchor := BitVec.ofNat 10 (bits w 2313 2304), elems := [] }

end Sys2Proof.Machine
end

