-- ==== Sys2Proof/Machine/EventNames.lean ====
section
/-!
DEFINITION. Sys2Proof/Machine/EventNames.lean: the event names of Table 16.2 and of R530 and R552, each with its
category and its CODE, the position within the category counting from 0 (R490).
-/
namespace Sys2Proof.Machine

/-- A category and a CODE (R490). -/
abbrev EvName := Nat × Nat

-- category 0x02
def Ev.STEP_CONFIG_INVALID : EvName := (2, 0)
def Ev.PREFETCH_FAULT : EvName := (2, 1)
def Ev.LATE_PREFETCH : EvName := (2, 2)
def Ev.STEP_DEADLINE_MISSED : EvName := (2, 3)
def Ev.STEP_WATCHDOG : EvName := (2, 4)
def Ev.TEMPO_BELOW_FLOOR : EvName := (2, 5)
def Ev.TEMPO_CALIB_FORCED : EvName := (2, 6)
def Ev.CALIB_MISMATCH : EvName := (2, 7)
def Ev.REFCLK_LOST : EvName := (2, 8)
def Ev.XFER_LOST : EvName := (2, 9)
-- category 0x03
def Ev.ROUTER_DIR_BUSY : EvName := (3, 0)
def Ev.EXPERT_STREAM : EvName := (3, 1)
def Ev.ROUTER_EXPERT_UNMAPPED : EvName := (3, 2)
def Ev.ROUTER_DISABLED : EvName := (3, 3)
def Ev.ROUTER_INBOX_INVALID : EvName := (3, 4)
def Ev.ROUTER_ACT_MISMATCH : EvName := (3, 5)
def Ev.ROUTER_TARGET_REFUSED : EvName := (3, 6)
def Ev.ROUTER_RECORD_LOST : EvName := (3, 7)
-- category 0x04
def Ev.KV_TABLE_BUSY : EvName := (4, 0)
def Ev.KV_STAGE_BUSY : EvName := (4, 1)
def Ev.KV_STAGE_INVALID : EvName := (4, 2)
def Ev.KV_HANDOFF_CLOSED : EvName := (4, 3)
def Ev.KV_FORCE_FREE : EvName := (4, 4)
def Ev.KV_ARRIVAL_STRAY : EvName := (4, 5)
def Ev.KV_POISON : EvName := (4, 6)
def Ev.PREFIX_TREE_BUSY : EvName := (4, 7)
def Ev.PREFIX_POISON : EvName := (4, 8)
-- category 0x05
def Ev.ADMIT_BAD_STORE : EvName := (5, 0)
def Ev.ADMIT_UNREPLIABLE : EvName := (5, 1)
def Ev.SLOT_POISON : EvName := (5, 2)
def Ev.NOTICE_STRAY : EvName := (5, 3)
def Ev.STEP_SUBMIT_OVERRUN : EvName := (5, 4)
def Ev.EMIT_SUBMIT_OVERRUN : EvName := (5, 5)
def Ev.EMIT_POISON : EvName := (5, 6)
def Ev.TALLY_FULL : EvName := (5, 7)
def Ev.TALLY_POISON : EvName := (5, 8)
def Ev.STEP_SUBMIT_INVALID : EvName := (5, 9)
-- category 0x06
def Ev.MEM_RESERVED_ACCESS : EvName := (6, 0)
def Ev.EXPORT_REFUSED : EvName := (6, 1)
def Ev.MEM_UE : EvName := (6, 2)
def Ev.MEM_WPB_UE : EvName := (6, 3)
def Ev.MEM_SPAN_REVOKED : EvName := (6, 4)
def Ev.MERGE_UE : EvName := (6, 5)
def Ev.MEM_CE_RATE : EvName := (6, 6)
def Ev.CC_POISON : EvName := (6, 7)
def Ev.HOST_POISON : EvName := (6, 8)
-- category 0x07
def Ev.FLS_UNCORRECTABLE : EvName := (7, 0)
def Ev.FLS_READ_RETRY : EvName := (7, 1)
def Ev.FLS_WRITE_LOCK : EvName := (7, 2)
def Ev.FLS_BLOCK_RETIRED : EvName := (7, 3)
def Ev.FLS_RD_FORCED : EvName := (7, 4)
def Ev.FLS_MAP_UE : EvName := (7, 5)
-- category 0x08
def Ev.TRN_SUBMIT_OVERRUN : EvName := (8, 0)
def Ev.TRN_PARCEL_INCOMPLETE : EvName := (8, 1)
def Ev.TRN_CMPL_LOST : EvName := (8, 2)
def Ev.CDC_DAMAGE : EvName := (8, 3)
def Ev.CDC_REF_POISON : EvName := (8, 4)
-- category 0x09
def Ev.FAB_TARGET_DEAD : EvName := (9, 0)
def Ev.FAB_NO_ROUTE : EvName := (9, 1)
def Ev.ROUTE_DUAL : EvName := (9, 2)
def Ev.FAB_PEAL_INVALID : EvName := (9, 3)
def Ev.FAB_REQ_ABANDONED : EvName := (9, 4)
def Ev.FAB_REMOTE_REFUSED : EvName := (9, 5)
def Ev.FAB_POSTED_REFUSED : EvName := (9, 6)
def Ev.FAB_GONG_REFUSED : EvName := (9, 7)
def Ev.GONG_PHASE_ERROR : EvName := (9, 8)
def Ev.GONG_UNKNOWN : EvName := (9, 9)
def Ev.FAB_GONG_LOST : EvName := (9, 10)
def Ev.TAINT_RECEIVED : EvName := (9, 11)
def Ev.TAINT_REFUSED : EvName := (9, 12)
-- category 0x0A
def Ev.SRC_INDEX_BUSY : EvName := (10, 0)
def Ev.SRC_POISON : EvName := (10, 1)
def Ev.SRC_INDEX_LOST : EvName := (10, 2)
-- category 0x0B
def Ev.PAR_KIT_REMOVED : EvName := (11, 0)
def Ev.REG_SHORT : EvName := (11, 1)
def Ev.PREEMPT_OVERRUN : EvName := (11, 2)
def Ev.PREEMPT_NOSPACE : EvName := (11, 3)
def Ev.PREEMPT_SAVED : EvName := (11, 4)
def Ev.PREEMPT_RESET_LOST : EvName := (11, 5)
-- category 0x0C
def Ev.REG_PARITY : EvName := (12, 0)
def Ev.XBAR_PARITY : EvName := (12, 1)
def Ev.SRAM_FILL_FAIL : EvName := (12, 2)
def Ev.SCRUB_LAP_SAT : EvName := (12, 3)
def Ev.SCRUB_OVERDUE : EvName := (12, 4)
def Ev.SCHECK_FORCED : EvName := (12, 5)
def Ev.SCHECK_OVERRUN : EvName := (12, 6)
def Ev.SCHECK_RESULT : EvName := (12, 7)
def Ev.OBS_ADDED : EvName := (12, 8)
def Ev.OBS_LIST_FULL : EvName := (12, 9)
def Ev.OBS_CLEARED : EvName := (12, 10)
def Ev.UNIT_CONFIRMED : EvName := (12, 11)
def Ev.DRUM_RETIRED : EvName := (12, 12)
def Ev.KIT_RETIRED : EvName := (12, 13)
def Ev.SEGMENT_SWITCHED : EvName := (12, 14)
def Ev.CODEC_RETIRED : EvName := (12, 15)
def Ev.BRIDGE_DEGRADED : EvName := (12, 16)
def Ev.JOURNAL_SHORT : EvName := (12, 17)
def Ev.TAINT_HORIZON : EvName := (12, 18)
def Ev.TAINT_SUMMARY : EvName := (12, 19)
-- category 0x0D
def Ev.PAIR_DIVERGENCE : EvName := (13, 0)
def Ev.PAIR_PARTNER_LOST : EvName := (13, 1)
def Ev.PAIR_SPLIT : EvName := (13, 2)
def Ev.CYMBAL_DEGRADED : EvName := (13, 3)
def Ev.REPLAY_DIVERGED : EvName := (13, 4)
def Ev.CC_HANG : EvName := (13, 5)
def Ev.CC_RESTARTED : EvName := (13, 6)
def Ev.SERVICE_LOST : EvName := (13, 7)
def Ev.PAIR_JOIN_REFUSED : EvName := (13, 8)
-- category 0x0E
def Ev.LOG_MIRROR_LOST : EvName := (14, 0)
def Ev.LOG_SPILL_LOST : EvName := (14, 1)
def Ev.LOG_RESET : EvName := (14, 2)
-- category 0x0F
def Ev.BOOT_DONE : EvName := (15, 0)
def Ev.BOOT_SLOT_FALLBACK : EvName := (15, 1)
def Ev.BOOT_LINK_LATE : EvName := (15, 2)
def Ev.CFG_DEFAULT : EvName := (15, 3)
def Ev.CFG_WRITE_REFUSED : EvName := (15, 4)
def Ev.CFG_VALIDATE_FAIL : EvName := (15, 5)
def Ev.CFG_SWITCHED : EvName := (15, 6)
def Ev.CFG_ROLLED_BACK : EvName := (15, 7)
def Ev.CFG_TIMEOUT : EvName := (15, 8)
def Ev.CFG_NOR_FAIL : EvName := (15, 9)
def Ev.CFG_SLOT_BAD : EvName := (15, 10)
def Ev.CFG_REVERTED : EvName := (15, 11)
def Ev.CFG_IMAGE_BAD : EvName := (15, 12)
def Ev.CFG_CORE_UPDATED : EvName := (15, 13)
def Ev.CFG_RETIRE_EDIT : EvName := (15, 14)
-- category 0x10
def Ev.RING_OVERRUN : EvName := (16, 0)
def Ev.RING_BUSY : EvName := (16, 1)
def Ev.RING_INVALID : EvName := (16, 2)
def Ev.RING_POISON : EvName := (16, 3)
def Ev.HOST_CQ_FULL : EvName := (16, 4)
def Ev.HOST_DMA_ERROR : EvName := (16, 5)
def Ev.HOST_PERST : EvName := (16, 6)
def Ev.HOST_LINK_DOWN : EvName := (16, 7)
def Ev.HOST_INSTALL : EvName := (16, 8)
def Ev.HOST_BOOT_WRITE : EvName := (16, 9)
def Ev.HOST_RECOVER : EvName := (16, 10)
def Ev.MGMT_REFUSED : EvName := (16, 11)

end Sys2Proof.Machine
end

