-- ==== Sys2Proof/Machine/ServeTypes.lean ====
section
/-!
DEFINITION. Sys2Proof/Machine/ServeTypes.lean: the parts of the state of KV regions and of the serving engine (06, 07 of the spec)
that no register and no table in hub SRAM holds.
-/
namespace Sys2Proof.Machine

-- ===== KV regions (06_attention_and_kv.md) =====

/-- A staging page (R202): its slot, layer and window of 64 positions, its 128 valid bits (bit 64k + p mod 64 for kind k), and
whether its flush has started (R204). -/
structure KvPage where
  slot : Nat := 0
  layer : Nat := 0
  window : Nat := 0
  valid : Nat := 0
  flush : Bool := false
  live : Bool := false
deriving DecidableEq, Repr

/-- A KV command that waits (R212, R213): the control core that wrote it (8: the serving engine), its word, and for an armed HANDOFF
the soundings of its line when it was written. -/
structure KvWait where
  core : Nat := 0
  word : Nat := 0
  part : Nat := 0
  slot : Nat := 0
  sounds : Nat := 0
deriving DecidableEq, Repr

/-- A layer's handoff under way (R215): how many of its descriptors have been submitted, whether all have been, how many have not completed,
and whether one failed. -/
structure KvHand where
  slot : Nat := 0
  layer : Nat := 0
  sent : Nat := 0
  submitted : Bool := false
  left : Nat := 0
  failed : Bool := false
deriving DecidableEq, Repr

/-- The close that a sender may owe after its RELEASE (R215): its slot, the global address of word 5 at the receiver, its partition, and how many
layers have not been counted. -/
structure KvClose where
  slot : Nat := 0
  addr : Nat := 0
  part : Nat := 0
  left : Nat := 0
deriving DecidableEq, Repr

/-- KV state beyond the tables in hub SRAM: waiting commands, armed HANDOFFs, handoffs, layers whose
fetch-add has been issued, closes owed, and the slots that drain as receivers (R216). -/
structure Kv where
  held : List KvWait := []
  armed : List KvWait := []
  hands : List KvHand := []
  counted : SMap Nat := []
  closes : List KvClose := []
  receivers : NSet := []
deriving DecidableEq, Repr

-- ===== Serving (07_serving_engine.md) =====

/-- Where an answer to a request record goes: a global fabric address, or the completion numbered num of a host queue (R234, R539). -/
inductive ReqSrc where
  | fabric
  | host (q : Nat) (num : Nat)
deriving DecidableEq, Repr

/-- A request record as it arrived (Table 7.2): its 1,024 bits, its poisoned granules, the partition of its window and its sender. -/
structure ReqRec where
  v : Nat := 0
  p : Nat := 0
  part : Nat := 0
  src : ReqSrc := .fabric
deriving DecidableEq, Repr

/-- A response record that waits in its request's queue (R244). -/
structure Resp where
  kind : Nat := 0
  code : Nat := 0
  index : Nat := 0
  token : Nat := 0
  generated : Nat := 0
deriving DecidableEq, Repr

/-- Engine state of a request slot (R241 to R244): records waiting, the kind of the record in flight (0: none), the kind of its terminal record once
one is queued or known, whether that record is done with, where the result word of the accepted CANCEL goes, whether a forwarded
CANCEL is not yet answered, whether it came forwarded from a home, the host queue of a host request (queue + 1), the address and bytes of the record last issued, and TALLY_FULL logged. -/
structure SlotX where
  queue : List Resp := []
  flight : Nat := 0
  term : Nat := 0
  termDone : Bool := false
  result : Option (ReqSrc × Nat) := none
  awaiting : Bool := false
  fromHome : Bool := false
  hostQ : Nat := 0
  sent : Nat × Nat := (0, 0)
  tallyFull : Bool := false
deriving DecidableEq, Repr

/-- A store that the engine owes outside any slot's queue: a REFUSED or ACK record, a result word, a NOTICE, a forwarded CANCEL (kind 1), the
fetch-add of a device unit's completion (kind 2), a response record issued again after a warm reset (kind 3), or the record (kind 4) or count (kind 5) of a transit completion. A nonzero mask makes it a
STOREM of those bytes; a stamp says that v is a response record, whose TIME is put in at issue (R244), and which part of it the store carries. -/
structure Owed where
  part : Nat := 0
  addr : Nat := 0
  v : Nat := 0
  len : Nat := 0
  slot : Nat := 0
  kind : Nat := 0
  mask : Nat := 0
  stamp : Option Nat := none
deriving DecidableEq, Repr

/-- An emit list being applied (R250): its offset, its entries and the next of them. -/
structure EmitJob where
  list : Nat := 0
  count : Nat := 0
  next : Nat := 0
deriving DecidableEq, Repr

/-- The serving engine: the two admission queues (R236), bucket levels of each subscriber (R237: requests in units of 2^-16, tokens
in units of 2^-8), slots, stores owed, emit lists, and slots whose cancel bits are to be cleared (R255). -/
structure Serve where
  reqQ : List ReqRec := []
  canQ : List ReqRec := []
  reqLevel : SMap Nat := []
  tokLevel : SMap Nat := []
  slots : SMap SlotX := []
  owed : List Owed := []
  emits : SMap EmitJob := []
  freed : NSet := []
deriving DecidableEq, Repr

end Sys2Proof.Machine
end

