-- ==== Sys2Proof/Machine/TransitTypes.lean ====
section
/-!
DEFINITION. Sys2Proof/Machine/TransitTypes.lean: the parts of the state of the transit engines and the codec (09, 10 of the spec) that no
register and no queue ring in hub SRAM holds.
-/
namespace Sys2Proof.Machine

/-- A queue entry that is not retired (R300, Table 9.6): its identity, state (0 QUEUED, 1 ACTIVE, 2 DRAINING, 3 SUSPENDED, 4 DONE), descriptor,
latched code with the offset it came from, next unit to form, PROGRESS, parcels acknowledged above it (offset and length
in units of 64 B), bytes sent on the fabric, the TRIG's context key and arrival flag, the slot and layer of a handoff, and the issuer's key
with its descriptor count (Table 15.6). -/
structure TrnEntry where
  part : Nat := 0
  queue : Nat := 0
  seq : Nat := 0
  st : Nat := 0
  desc : Nat := 0
  code : Nat := 0
  codeOff : Nat := 0
  next : Nat := 0
  progress : Nat := 0
  ahead : List (Nat × Nat) := []
  sent : Nat := 0
  flag : Option (Nat × Nat) := none
  hand : Option (Nat × Nat) := none
  issuer : Nat := 0
  count : Nat := 0
deriving DecidableEq, Repr

/-- Where a parcel stands: on the timing wheel, on the far list, waiting for a codec unit, being coded, at its output, in flight. -/
inductive ParcelStage where
  | wheel | far | codecWait | coding | atOutput | flight
deriving DecidableEq, Repr

/-- A parcel (R305 to R319): its entry, offset in units of 64 B and raw length in bytes, release time, rank in its wheel slot or output list,
whether it is coded, its codec unit + 1 and the settings read at its start (R326), its source bytes or coded stream with their marks once
in hand (ready), the bytes to send and those started, raw bytes drawn (R319), coded and raw blocks of the stream, node and tag, the outcome (0: acknowledged; a
code of Table 9.5; 256: refused at a full open-parcel table) and when it came, whether it was deferred in the window, whether its flash
unit has been programmed, its comparison with the partner (0 not begun, 1 awaited, 2 released), the hash of its raw bytes, and that it was issued
under span entries that an epoch switch has changed since (R297). -/
structure Parcel where
  live : Bool := false
  part : Nat := 0
  queue : Nat := 0
  seq : Nat := 0
  off : Nat := 0
  len : Nat := 0
  stage : ParcelStage := .atOutput
  release : Nat := 0
  rank : Nat := 0
  coded : Bool := false
  unit : Nat := 0
  cfg : BitVec 64 := 0
  ready : Bool := false
  v : Nat := 0
  p : Nat := 0
  wire : Nat := 0
  started : Nat := 0
  drawn : Nat := 0
  codedBlocks : Nat := 0
  blocks : Nat := 0
  node : Nat := 0
  tag : Nat := 0
  outcome : Option Nat := none
  outcomeAt : Nat := 0
  deferred : Bool := false
  programmed : Bool := false
  compared : Nat := 0
  hash : Nat := 0
  old : Bool := false
deriving DecidableEq, Repr

/-- A completion write on its way to another node (R312): its number, the queue and sequence number it completes, its address, and whether an
entry waits for it. -/
structure CmplOut where
  num : Nat := 0
  part : Nat := 0
  queue : Nat := 0
  seq : Nat := 0
  addr : Nat := 0
  entry : Bool := false
deriving DecidableEq, Repr

/-- The transit units: entries of all queues oldest first, parcels by number, ranks given, policer levels in bytes and shaper next times per
subscriber (R315, R316), outputs that a split parcel holds (+ 1), deficits per output, class and service and the service at turn per output
and class (+ 1) (R317), codec units that encode (parcel + 1), descriptors accepted per issuer, and completion writes on their way with the number of the next. -/
structure Transit where
  entries : List TrnEntry := []
  parcels : SMap Parcel := []
  nextParcel : Nat := 1
  nextRank : Nat := 1
  level : SMap Nat := []
  nextTime : SMap Nat := []
  held : SMap Nat := []
  deficit : SMap Nat := []
  turn : SMap Nat := []
  encoders : SMap Nat := []
  counts : SMap Nat := []
  cmpls : List CmplOut := []
  nextCmpl : Nat := 0
deriving DecidableEq, Repr

end Sys2Proof.Machine
end

