-- ==== Sys2Proof/Machine/Types.lean ====
section
/-!
DEFINITION. Sys2Proof/Machine/Types.lean: the parts of the state as plain data. Each structure's docstring names the rules
that give it; default values are the values at cold reset. Control-space registers are not here: they are words of the
register store (Registers.lean).
-/
namespace Sys2Proof.Machine

-- ===== Memory (08_memory_spans_and_tiers.md, 14_data_integrity.md) =====

/-- Local memory by local physical address, drum slots at their physical alias (R261, R262). An unlisted byte reads 0: SRAM
is filled with zeros (R438) and an unwritten HBM page reads zeros (R278). Marks are held per 32 B granule (address div 32,
R432), error syndromes per 64-bit word (address div 8, R433), written pages per 4 KiB (address div 4096, R278). [log 4: DEDUCED] -/
structure Mem where
  cells : List Host.Cell := []
  poison : NSet := []
  ue : NSet := []
  ce : NSet := []
  written : NSet := []
  wpbUe : NSet := []
deriving DecidableEq, Repr

/-- A programmed location of flash: the unit it holds, the write sequence of its header (R288) and its block. -/
structure FlashLoc where
  unit : Nat := 0
  seq : Nat := 0
  block : Nat := 0
  live : Bool := false
deriving DecidableEq, Repr

/-- A flash block: erases, reads since the last erase, and its retirement (R290 to R292). -/
structure FlashBlock where
  erases : Nat := 0
  reads : Nat := 0
  retired : Bool := false
  eraseDue : Bool := false
deriving DecidableEq, Repr

/-- Where a relocation stands (R293). -/
inductive RelocPhase where
  | begun | copied | done
deriving DecidableEq, Repr

/-- One journaled relocation (R293): source and destination blocks, and the copies made. -/
structure Reloc where
  src : Nat := 0
  dst : Nat := 0
  phase : RelocPhase := .done
  copies : List (Nat × Nat) := []
deriving DecidableEq, Repr

/-- The flash (R285 to R293). Block b lies in channel b / 2^20; forced holds the channels whose reclamation is forced. map gives a unit its location + 1 (0: never written); the bytes of location l stand at
l × 65536, its poison mask at granule l × 2048; badMap holds units whose map word is poisoned (Table 14.3). -/
structure Flash where
  map : SMap Nat := []
  cells : List Host.Cell := []
  poison : NSet := []
  badCodewords : NSet := []
  locs : SMap FlashLoc := []
  blocks : SMap FlashBlock := []
  nextLoc : Nat := 0
  seq : Nat := 0
  queue : List Nat := []
  reloc : List Reloc := []
  forced : NSet := []
  badMap : NSet := []
  checkpoint : SMap Nat := []
  checkpointSeq : Nat := 0
deriving DecidableEq, Repr

-- ===== Mallets (03_zmi_instruction_set.md) =====

/-- A scalar register with its mark (R98). -/
structure SReg where
  v : BitVec 64 := 0
  p : Bool := false
deriving DecidableEq, Repr

/-- An address register (Table 3.2) with its mark. -/
structure XReg where
  span : BitVec 6 := 0
  off : BitVec 40 := 0
  p : Bool := false
deriving DecidableEq, Repr

/-- What a context waits for (R104). A load waits for its transfer; an arrival for its fence, stay telling that the context then
waits for the sounding; a GONG wait ends when the line's soundings exceed the number it holds, joined telling that the context's own arrival
has counted in that phase. -/
inductive Wait where
  | none
  | load (x : Nat)
  | credit
  | tag
  | arrive (line : Nat) (stay : Bool)
  | gong (line : Nat) (sounds : Nat) (joined : Bool)
  | fence
  | flag
  | drumFlag (df : Nat)
  | tile
  | inbox
  | queue
  | router
deriving DecidableEq, Repr

/-- Per-context state (Table 3.1, Table 3.3). -/
structure Ctx where
  s : SMap SReg := []
  x : SMap XReg := []
  m : SMap (BitVec 64) := []
  af : SMap Nat := []
  bind : SMap Nat := []
  pc : BitVec 32 := 0
  fault : Nat := 0
  rot : Nat := 3
  stopped : Bool := true
  accOvf : Bool := false
  accInv : Bool := false
  cnvOvf : Bool := false
  vecInv : Bool := false
  halted : Bool := false
  wait : Wait := .none
  lateTurns : Nat := 0
  posted : Nat := 0
deriving DecidableEq, Repr

/-- What an instruction that waits for data has read in its first turn (R105, R111): its effective mask, a tile register and an accumulator. -/
structure FirstTurn where
  mask : Nat := 0
  tile : Tile := {}
  acc : Acc := {}
deriving DecidableEq, Repr

/-- One mallet: shared tile registers and accumulators, and its contexts (Table 3.1). -/
structure Mallet where
  t : SMap Tile := []
  a : SMap Acc := []
  c : SMap Ctx := []
deriving DecidableEq, Repr

-- ===== Drums (04_execution_and_timing.md, 05_conditional_computation.md, 14_data_integrity.md) =====

/-- An entry of the drum merge buffer (R435): one 64 B line of HBM, its bytes, their valid bits, two poison bits, the partition of
its first write, and a mask of its words that hold an uncorrectable syndrome (R437). -/
structure MergeEntry where
  line : Nat := 0
  data : Nat := 0
  valid : Nat := 0
  pLo : Bool := false
  pHi : Bool := false
  part : Nat := 0
  since : Nat := 0
  ue : Nat := 0
deriving DecidableEq, Repr

/-- The prefetch sequencer's condition (R161 to R163). -/
inductive SeqState where
  | ended | running | faulted
deriving DecidableEq, Repr

/-- The prefetch sequencer: list position in bytes of the skin, a held new list (base + 1), transfers in
flight, and the transfer + 1 that reads the word of a WAITW from remote memory or flash. -/
structure Prefetch where
  st : SeqState := .ended
  pos : Nat := 0
  held : Nat := 0
  inFlight : Nat := 0
  poll : Nat := 0
deriving DecidableEq, Repr

/-- A record in a drum's inbox ring, delivered and not taken (R190): its skin offset, rank, expert, flag, layer table and token word. -/
structure InboxRec where
  off : Nat := 0
  rank : Nat := 0
  expert : Nat := 0
  df : Nat := 0
  layer : Nat := 0
  word : Nat := 0
deriving DecidableEq, Repr

/-- One drum: DRM_STEP_CONFIG as latched; kicked (a step start has been sent and not latched), in its step, idle for the step;
drum flags (R159); its prefetch sequencer, merge buffer (R435) and cancel set (R255); late waits (R164); calibration and tempo (R47,
R173 to R177), skewed telling that a calibration has found RATIO out of its band; integrity; its inbox (R189); the drum + 1 that it takes over from while its state is being copied (R453); and each mallet's
instruction buffer (R102): the 256 B lines it holds, oldest first, with the marks of their granules. [log 138: DESIGN CHOICE] -/
structure Drum where
  cfg : BitVec 64 := 0xC0000
  inStep : Bool := false
  idleStep : Bool := false
  flagSet : NSet := []
  flagCnt : SMap Nat := []
  pf : Prefetch := {}
  merge : List MergeEntry := []
  cancel : NSet := []
  lateLogged : Bool := false
  calibrating : Bool := false
  forcedCalib : Bool := false
  calibAt : Nat := 0
  skewed : Bool := false
  tempo : Nat := 0
  belowRun : Nat := 0
  belowInStep : Bool := false
  lateTurns : Nat := 0
  ceCount : Nat := 0
  retired : Bool := false
  inboxCfg : BitVec 64 := 0
  inboxEn : Bool := false
  inboxHead : Nat := 0
  inbox : List InboxRec := []
  rebindFrom : Nat := 0
  kicked : Bool := false
  ibuf : SMap (List (Nat × Nat)) := []
deriving DecidableEq, Repr

-- ===== Requests of rings (06, 12) =====

/-- The request that a walker or a beam manager works on (R226, R394): whether there is one, its 64 B, whether it has passed its checks, the
snapshot (+ 1) that it uses and whether that is registered for it, and whether it has done its work and only its result and DONE are still on their way. -/
structure RingJob where
  live : Bool := false
  req : Nat := 0
  begun : Bool := false
  snap : Nat := 0
  own : Bool := false
  out : Bool := false
deriving DecidableEq, Repr

-- ===== Transfers and fabric requests (03, 04, 06, 11) =====

/-- One piece of a transfer's source or destination: local at addr, or remote at the global fabric address addr. -/
structure Piece where
  rem : Bool := false
  addr : Nat := 0
  len : Nat := 0
deriving DecidableEq, Repr

/-- What a transfer does when its data is in hand: complete the waiting load whose instruction word is given, load tiles,
copy between spans, serve the prefetch list or the KV and router instructions, or write the result of a request of a ring's unit and then add 1
at the address that done names; the answers of an abandoned transfer are discarded (R424); u and d are mallet-context and drum keys. -/
inductive XKind where
  | load (u : Nat) (word : Nat)
  | aldt (u : Nat) (rd : Nat) (n : Nat) (flag : Nat)
  | copy (u : Nat) (flag : Nat)
  | prefetch (d : Nat) (df : Nat)
  | kvrd (u : Nat) (flag : Nat)
  | kvapp (u : Nat) (flag : Nat) (slot : Nat) (sel : Nat) (pos : Nat)
  | append (kit : Nat)
  | rdisp
  | unitOut (unit : Nat) (done : Nat) (ring : Nat)
  | abandoned
  | none
deriving DecidableEq, Repr

/-- A transfer in flight: what its source and destination are (pieces in order, with the offset of each within the transfer),
the remote pieces not yet requested and not yet stored, what has arrived (by offset within the transfer, poison by 32 B granule
of the transfer), and the answers it still waits for. span and off name the destination for XFER_LOST (R121); sub is
the subscriber + 1 that its payload is charged to when it is not the owner of the span, and srcSub that of what it loads when that is another;
noDraw says that its requests draw nothing on fabric egress (R318); stream is the issuing stream whose
requests its local HBM and flash accesses are (R407), 0 for those that other rules charge; and asked says that the write of a
direct append has been presented; nand holds the codeword reads still under way (codeword, location, place and length in the transfer) once they
have been asked for (R287); first is what a waiting instruction has read in its first turn (R105). -/
structure Xfer where
  kind : XKind := .none
  part : Nat := 0
  unit : Nat := 0
  src : List (Nat × Piece) := []
  dst : List (Nat × Piece) := []
  len : Nat := 0
  toLoad : List (Nat × Piece) := []
  toStore : List (Nat × Piece) := []
  span : Nat := 0
  off : Nat := 0
  buf : List Host.Cell := []
  bufP : NSet := []
  waiting : Nat := 0
  stored : Bool := false
  live : Bool := false
  sub : Nat := 0
  srcSub : Nat := 0
  noDraw : Bool := false
  stream : Nat := 0
  asked : Bool := false
  nand : Option (List (Nat × Nat × Nat × Nat)) := none
  first : FirstTurn := {}
deriving DecidableEq, Repr

/-- Who issued a fabric request, and what its answer is for (R366, R368). proxy is a request that this device passes on for another, whose
export here names a COMPOSED span (R272). -/
inductive Issuer where
  | xfer (x : Nat) (off : Nat)
  | xferStore (x : Nat)
  | posted (u : Nat)
  | routerRec (kit : Nat) (drum : Nat) (row : Nat) (num : Nat)
  | fenceFor (node : Nat) (port : Nat)
  | fenceCtx (u : Nat)
  | gong (p : Nat) (l : Nat)
  | taint
  | parcel (id : Nat)
  | resp (slot : Nat)
  | handoff (slot : Nat) (layer : Nat)
  | closed (slot : Nat)
  | notice (slot : Nat)
  | cmpl (num : Nat)
  | proxy (src : Nat) (tag : Nat)
  | ringDone (ring : Nat)
  | probe
deriving DecidableEq, Repr

/-- A tag's life (R366, R367). -/
inductive TagState where
  | free | out | quarantined
deriving DecidableEq, Repr

/-- A requester tag for one target node: the request it stands for, when it was issued or last answered PENDING, the answers
still expected (a PEAL has one per member), the port it left on, that this port has gone down since
(R121), and that it is a SOUND. -/
structure Tag where
  st : TagState := .free
  op : Nat := 0
  addr : Nat := 0
  size : Nat := 0
  issuer : Issuer := .taint
  time : Nat := 0
  left : Nat := 0
  port : Nat := 0
  part : Nat := 0
  cut : Bool := false
  sound : Bool := false
deriving DecidableEq, Repr

/-- A fabric packet (R353, Table 11.3, Table 11.4); payload and masks as little-endian numbers. rawLen is the parcel's raw length, which the
packets of a parcel carry (R340) in a place that the spec does not give. [log 123: DESIGN CHOICE] -/
structure Pkt where
  op : Nat := 0
  size : Nat := 0
  tag : Nat := 0
  src : Nat := 0
  addr : Nat := 0
  mask : Nat := 0
  payload : Nat := 0
  poison : Nat := 0
  red : Nat := 0
  dst : Nat := 0
  status : Nat := 0
  reason : Nat := 0
  block : Nat := 0
  port : Nat := 0
  rawLen : Nat := 0
deriving DecidableEq, Repr

/-- What an answer says: its status, size and data with marks, and the reason and block of a damage. -/
structure Reply where
  status : Nat := 0
  size : Nat := 0
  v : Nat := 0
  p : Nat := 0
  reason : Nat := 0
  block : Nat := 0
deriving DecidableEq, Repr

/-- What an export check finds (R272): the status, and where the request proceeds. -/
structure ExpHit where
  status : Nat := 0
  kind : Nat := 0
  part : Nat := 0
  span : Nat := 0
  off : Nat := 0
deriving DecidableEq, Repr

/-- An order record of the LEAD (R472): requester, tag, ingress port, number, and the old value of an ATOMIC. [log 123: DESIGN CHOICE] -/
structure OrderRec where
  node : Nat := 0
  tag : Nat := 0
  port : Nat := 0
  num : Nat := 0
  old : Option Nat := none
deriving DecidableEq, Repr

/-- A request accepted at this device as a target and not yet answered (R365): its number, when it was accepted, when PENDING was last sent;
the export check that it has passed with its place (R298) and that it waits for credit; the pieces of a COMPOSED export still to be sent
onward, the answers due for those sent and what they said; and the order record that it is performed for (R472). [log 63: DEDUCED] -/
structure Inbound where
  id : Nat := 0
  pkt : Pkt := {}
  time : Nat := 0
  pendingAt : Nat := 0
  hit : Option (ExpHit × Piece) := none
  late : Bool := false
  todo : List Piece := []
  outs : Nat := 0
  begun : Bool := false
  reply : Option Reply := none
  order : Option OrderRec := none
deriving DecidableEq, Repr

/-- An inbound parcel at this receiver (R309, R361): whether it holds an entry of the open-parcel table, its sender, tag, first address, the raw
length its packets carry, the partition of its export and the port it comes on; whether it is coded and its last packet has come; bytes
received, the coded stream or the bytes kept for a COMPOSED destination with their marks; the status of a refusal, or 255 when what still
comes is discarded; when its last packet came; the decoding unit + 1 of each block that has taken a lane and the blocks decoded; CDC_REF
entries as its first packet found them, and that an epoch switch has changed span or export entries since (R297); the transfer + 1 that stores
it onward; and its answer, once known. -/
structure OpenParcel where
  isOpen : Bool := false
  src : Nat := 0
  tag : Nat := 0
  addr : Nat := 0
  rawLen : Nat := 0
  part : Nat := 0
  port : Nat := 0
  coded : Bool := false
  closed : Bool := false
  n : Nat := 0
  v : Nat := 0
  p : Nat := 0
  refused : Nat := 0
  lastPkt : Nat := 0
  units : SMap Nat := []
  decoded : NSet := []
  refs : SMap (BitVec 64) := []
  old : Bool := false
  store : Nat := 0
  reply : Option Reply := none
deriving DecidableEq, Repr

/-- Link retry and credit state of one link (R350 to R352): the next frame number expected, bytes put on the link since it trained, the bad
frame whose resend has been requested; the resends asked of this end, each as the first frame named and the frames then sent; credits of
the channels REQ, RSP and CTL that packets sent here have in use, and credits of packets received that are still to be returned. [log 128: DESIGN CHOICE] -/
structure Link where
  expected : Nat := 0
  sent : Nat := 0
  badFrom : Option Nat := none
  resends : List (Nat × Nat) := []
  useReq : Nat := 0
  useRsp : Nat := 0
  useCtl : Nat := 0
  retReq : Nat := 0
  retRsp : Nat := 0
  retCtl : Nat := 0
deriving DecidableEq, Repr

/-- A control frame that this device puts on a link (R350): the last frame accepted, the credits returned, a retry request. -/
structure CtlOut where
  link : Nat := 0
  accepted : Nat := 0
  req : Nat := 0
  rsp : Nat := 0
  ctl : Nat := 0
  retry : Option Nat := none
deriving DecidableEq, Repr

/-- Hold-off and pending changes of an egress entry (R370): the end of the hold-off (0: none), a pending link-down, a pending
write, the FENCEs of port changes not yet answered (old port, and whether it has been sent), and the lowest other port on which an answer
has come in the present hold-off. -/
structure Egress where
  holdEnd : Nat := 0
  downPending : Bool := false
  writePending : Bool := false
  fences : List (Nat × Bool) := []
  heldAlt : Option Nat := none
deriving DecidableEq, Repr

/-- The fabric's state beyond its registers (11_fefen_fabric.md). out holds the packets and ctl the control frames that this device has emitted
and no reader has taken, oldest first; loop the packets on their way from this device to itself (R375); gongLocal the arrivals of a line not yet
reported, gongOut the lines with an ARRIVE unanswered, sounds the SOUNDs (partition, line, phase) that wait for a tag; dead the requests declared
dead at their issue (R369) whose issuers have not been told. [log 6, 14: DESIGN CHOICE] -/
structure Fabric where
  tags : SMap Tag := []
  inb : List Inbound := []
  nextIn : Nat := 0
  parcels : SMap OpenParcel := []
  links : SMap Link := []
  egress : SMap Egress := []
  out : List Pkt := []
  ctl : List CtlOut := []
  loop : List Pkt := []
  gongLocal : SMap Nat := []
  gongOut : SMap Bool := []
  sounds : List (Nat × Nat × Nat) := []
  dead : List (Nat × Tag) := []
deriving DecidableEq, Repr

-- ===== Events (16_events_and_counters.md) =====

/-- An event waiting in its source's queue (R488, R491, R492). -/
structure EvRec where
  cat : Nat := 0
  code : Nat := 0
  part : Option Nat := none
  ctx : Nat := 0
  unit : Option Nat := none
  step : Nat := 0
  items : List Nat := []
  attn : Bool := false
deriving DecidableEq, Repr

/-- The log beyond its registers and banks: source queues (R492), sources that lost an event, slots found uncorrectable in
each bank within the lap (R499), HUB_TIME + 1 of the last record of each limited kind, the log accepting records (R511), the events that a
warm reset has lost, as LOG_RESET will report them (R503), the source taken last (+ 1), and when the log's input is next free (R492). -/
structure EvLog where
  queues : SMap (List EvRec) := []
  drops : NSet := []
  bad0 : NSet := []
  bad1 : NSet := []
  limits : SMap Nat := []
  running : Bool := false
  resetLost : Option Nat := none
  last : Nat := 0
  free : Nat := 0
deriving DecidableEq, Repr

-- ===== Pair mode (15_pair_mode_and_fault_tolerance.md) =====

/-- Outputs that await a comparison (Table 15.5): the kind of Table 15.6, the message's number and key, the hash formed so far,
and the packets, the response record (slot + 1) or the transit parcel (+ 1) that are released together, when the item was formed, and the unit
that the send journal names when it leaves unmatched (0: none). -/
structure Held where
  kind : Nat := 0
  part : Nat := 0
  num : Nat := 0
  key : Nat := 0
  hash : Nat := 0
  closed : Bool := false
  pkts : List Pkt := []
  record : Nat := 0
  step : Nat := 0
  parcel : Nat := 0
  time : Nat := 0
  unit : Nat := 0
deriving DecidableEq, Repr

/-- A comparison message (Table 15.6) in fields. [log 123: DESIGN CHOICE] -/
structure CompareMsg where
  kind : Nat := 3
  part : Nat := 0
  num : Nat := 0
  key : Nat := 0
  step : Nat := 0
  hash : Nat := 0
deriving DecidableEq, Repr

/-- Pair mode beyond its registers: open segments by context, segments closed per context in the step, outputs that await
their comparison (the pair hold buffer), partner messages that await the device's own item with their arrival, messages sent, step hashes, order
records (received and not yet performed by the SHADOW, with HUB_TIME + 1 of their arrival; sent by the LEAD), the next number of each, replicated packets that await their record,
the release log, partitions in diagnosis and those with a unit of this device confirmed in it, replays after a divergence without an outcome,
heartbeats received and sent (HUB_TIME + 1 by link), the partner being a SHADOW_FULL, a device that no longer answers to PAIR_NODE, packets
to be sent again by partition,
the dirty bitmap of a join and the partitions whose step start it holds, the writes that the LEAD has forwarded (initiator, offset, word; R473),
and that the SHADOW is applying one. -/
structure Pair where
  segs : SMap Held := []
  segCount : SMap Nat := []
  waiting : List Held := []
  theirs : List (CompareMsg × Nat) := []
  sent : List CompareMsg := []
  stepHash : SMap Nat := []
  orders : List OrderRec := []
  orderAt : SMap Nat := []
  nextOrder : Nat := 0
  expected : Nat := 0
  packets : List Pkt := []
  ordersOut : List OrderRec := []
  released : List Held := []
  diverged : NSet := []
  ownBad : NSet := []
  runs : NSet := []
  beats : SMap Nat := []
  sentBeats : SMap Nat := []
  partnerFull : Bool := false
  silent : Bool := false
  resend : List (Nat × Pkt) := []
  dirty : NSet := []
  joinHold : NSet := []
  forwards : List (Nat × Nat × BitVec 64) := []
  applying : Bool := false
deriving DecidableEq, Repr

-- ===== Integrity (14_data_integrity.md) =====

/-- A sound check in progress or waiting (R447 to R449): units A and B (auto: B is chosen when the check
starts), its seed, the referee once one runs, whether it is running, since when it waits, and whether it is forced. -/
structure SCheck where
  live : Bool := false
  a : Nat := 0
  b : Nat := 0
  seed : Nat := 0
  auto : Bool := false
  running : Bool := false
  refereeing : Bool := false
  referee : Nat := 0
  since : Nat := 0
  forced : Bool := false
deriving DecidableEq, Repr

/-- An entry of the send journal (Table 14.10), with the extent of its destination span or export and its slot of the ring.
[log 151: DESIGN CHOICE] -/
structure JournalEntry where
  base : Nat := 0
  size : Nat := 0
  slot : Nat := 0
  addr : Nat := 0
  global : Bool := false
  part : Nat := 0
  writer : Nat := 0
  level : Nat := 0
  len : Nat := 0
  first : Nat := 0
  last : Nat := 0
  seqFirst : Nat := 0
  seqLast : Nat := 0
deriving DecidableEq, Repr

/-- A TAINT notice not yet sent (R363, R458): its range, number, and the requests sent to its target before, by tag key. -/
structure Taint where
  addr : Nat := 0
  len : Nat := 0
  seq : Nat := 0
  after : NSet := []
deriving DecidableEq, Repr

/-- Integrity beyond its registers: HUB_TIME + 1 of each unit's last passing check or entry into service, corrections per HBM
pseudo-channel in the lap, scrubber laps (start of the lap in HUB_TIME and overdue logged), sound checks by control core (0 to 7)
by observation entry (8 + e) and by unlisted unit (264 + unit), HUB_TIME + 1 at which an entry's last check was queued, where each scrubber stands
in its lap, retired units, the send journal and the notice
sequence, and notices that wait (R363). -/
structure Integ where
  lastPass : SMap Nat := []
  pcCe : SMap Nat := []
  lapStart : SMap Nat := []
  checks : SMap SCheck := []
  retests : SMap Nat := []
  scrubPos : SMap Nat := []
  scrubUse : SMap (Nat × Nat) := []
  retired : NSet := []
  journal : List JournalEntry := []
  noticeSeq : Nat := 0
  taints : List Taint := []
deriving DecidableEq, Repr

-- ===== Regulators (13_partitions_and_preemption.md) =====

/-- A request that waits for a later window (R412): its issuing stream, the transfer that it belongs to (0: none), its partition, resource,
kit and charge. -/
structure Due where
  stream : Nat := 0
  xfer : Nat := 0
  part : Nat := 0
  res : Nat := 0
  kit : Nat := 0
  bytes : Nat := 0
deriving DecidableEq, Repr

-- ===== Kits and partitions (01, 04, 13) =====

/-- A token that an RDISP has presented to its kit's router (R187): its number at the kit, its word, k, E, layer table, the transfers of its
scores and activation, the originating drum (physical), the issuing context and its arrival flag. -/
structure RouteTok where
  num : Nat := 0
  word : Nat := 0
  k : Nat := 1
  e : Nat := 1
  layer : Nat := 0
  scores : Nat := 0
  act : Nat := 0
  drum : Nat := 0
  u : Nat := 0
  flag : Nat := 0
deriving DecidableEq, Repr

/-- A token that the router has taken (R185): the experts and gates by rank, whether a score granule is poisoned, its activation
and the originating step. -/
structure RouteTaken where
  tok : RouteTok := {}
  sel : List (Nat × Nat) := []
  hdrPoison : Bool := false
  actV : Nat := 0
  actP : Nat := 0
  step : Nat := 0
deriving DecidableEq, Repr

/-- A record on its way from a router to an inbox of this package (R189): the drum it goes to, its bytes and marks, and what its
RRECV result names. -/
structure RouteRec where
  kit : Nat := 0
  drum : Nat := 0
  v : Nat := 0
  p : Nat := 0
  len : Nat := 0
  entry : InboxRec := {}
  tok : RouteTok := {}
deriving DecidableEq, Repr

/-- One kit beyond its registers: its router (configuration in force, presented and taken tokens, records on their way, per-expert
counts, EXPERT_STREAM logged, the number of the next token and the tokens whose return row has been poisoned), the staging pages allocated (R202), retirement, the drum map (logical index to physical + 1; 0 is the identity of R18), free
confirmed drums and segments that wait for a step start (R452) with their SUSPECT_FROM + 1 (a segment at 256 + s), segment
switches, failed bridges (R31). [log 6: DESIGN CHOICE] -/
structure Kit where
  retired : Bool := false
  map : SMap Nat := []
  dueDrums : List Nat := []
  dueSegs : List Nat := []
  segFaults : SMap Nat := []
  bridgeDown : NSet := []
  lentTo : Nat := 0
  lastFloor : Nat := 0
  dueFrom : SMap Nat := []
  routerCfg : BitVec 64 := 0
  presented : List RouteTok := []
  taken : List RouteTaken := []
  records : List RouteRec := []
  expertCount : SMap Nat := []
  streamLogged : Bool := false
  nextTok : Nat := 0
  rowsBad : NSet := []
  forcedCalib : Bool := false
  trimmed : Bool := false
  pages : SMap KvPage := []
deriving DecidableEq, Repr

end Sys2Proof.Machine
end

