-- ==== Sys2Proof/Syntax.lean ====
section
/-!
DEFINITION. Sys2Proof/Syntax.lean: the commands of the block, one constructor per row of spec/opcode_table.json, in the
table's order, with the operands that each takes from outside. An instruction's operands are the fields of its word
(Table 3.4) and the context that issues it; an event's operands name the unit or record it befalls and what the outside
world brings (readings, packets, host memory).
-/


namespace Sys2Proof

open Sys2Proof.Machine

/-- A thread context: kit, physical drum, mallet and context (R16, R19). -/
structure CtxId where
  kit : Nat
  drum : Nat
  mallet : Nat
  ctx : Nat
deriving DecidableEq, Repr

/-- The fields of an instruction word below OP (Table 3.4); OP is the constructor. -/
structure Fields where
  fmt : BitVec 4 := 0
  mod : BitVec 4 := 0
  men : BitVec 1 := 0
  msel : BitVec 3 := 0
  aux : BitVec 4 := 0
  rd : BitVec 5 := 0
  ra : BitVec 5 := 0
  rb : BitVec 5 := 0
  rc : BitVec 5 := 0
  imm : BitVec 20 := 0
deriving DecidableEq, Repr

/-- Memory errors that have struck before an access finds them: 64-bit words (address div 8) with an uncorrectable syndrome and
the data bits that the upset left stored (R433), words with a correctable syndrome, written-page bitmap words (address div 262144)
that are uncorrectable (R283), the crossbar segment on which the access's transfer meets a parity error (R434), and words of drum merge
buffers with an uncorrectable syndrome, by drum (kit × 256 + physical drum), line and word, with the data bits left stored (R437). -/
structure Upsets where
  ue : List (Nat × Nat) := []
  ce : List Nat := []
  wpb : List Nat := []
  segment : Option Nat := none
  merge : List (Nat × Nat × Nat × Nat) := []
deriving DecidableEq, Repr

/-- Register parity errors that an instruction's reads meet (R434): tile register n's lower half, upper half or scale word as
3n, 3n + 1 or 3n + 2, and accumulator a's element e as 96 + 16a + e. -/
structure ParityErrs where
  regs : List Nat := []
deriving DecidableEq, Repr

/-- What the ROM stage finds (R511, Table 17.9). -/
structure RomReport where
  selfOk : Bool := true
  refclk : Bool := true
  norOk : Bool := true
deriving DecidableEq, Repr

/-- The read-back of the FILL stage (R438): drums (kit, physical) and pool granules that fail, the two log banks, the rest of
hub SRAM, and whether the always-on domain's retention check shows that its power was lost. -/
structure FillReport where
  drums : List (Nat × Nat) := []
  granules : List Nat := []
  bank0 : Bool := false
  bank1 : Bool := false
  other : Bool := false
  aonLost : Bool := false
deriving DecidableEq, Repr

/-- One kit's readings at a window close (R41, R42): lowest sense point in mV, hottest sensor in tenths of a degree, VDD_CORE
power in W, and the tempo counters of its active drums (physical drum, count). -/
structure KitReading where
  kit : Nat
  mv : Nat
  temp10 : Int
  watts : Nat
  counts : List (Nat × Nat) := []
deriving DecidableEq, Repr

/-- The device's readings at a window close: kits, package power in W, hottest junction in °C and the energy of the window in mJ. -/
structure WindowReading where
  kits : List KitReading := []
  watts : Nat := 0
  tj : Int := 25
  mj : Nat := 0
deriving DecidableEq, Repr

/-- A NAND read's outcome (R287): the codeword (unit × 16 + index), the retries used, at most 7, and whether the soft decode that followed them, if
one did, succeeded. -/
structure FlashRead where
  codeword : Nat
  retries : Nat := 0
  soft : Option Bool := none
deriving DecidableEq, Repr

/-- A unit program's outcome (R289): the parcel it belongs to, the block programmed, and whether the program failed. -/
structure FlashProg where
  parcel : Nat
  block : Nat
  ok : Bool := true
deriving DecidableEq, Repr

/-- A turn of reclamation (R290): the channel, and the block whose superseded space it takes back. -/
structure FlashSpace where
  channel : Nat
  victim : Nat
deriving DecidableEq, Repr

/-- A control frame (R350), and the codewords that the RS decoder corrected on the way to it (R377). -/
structure ControlFrame where
  accepted : Nat := 0
  req : Nat := 0
  rsp : Nat := 0
  ctl : Nat := 0
  retry : Option Nat := none
  corrected : Nat := 0
deriving DecidableEq, Repr

/-- A sound check's comparison (R447, R448): whether A and B agree, and with which of them a referee agrees. -/
structure CheckResult where
  agree : Bool := true
  refA : Bool := false
  refB : Bool := false
deriving DecidableEq, Repr

/-- An SQ entry as the device reads it from host memory (Table 18.6): its eight words; ok is false when the read failed. -/
structure HostEntry where
  words : List Nat := []
  ok : Bool := true
deriving DecidableEq, Repr

/-- Host memory as a command reads it: bytes from DATA on, poisoned 32 B granules, and whether the read failed (Table 18.7);
norOk tells whether a NOR write read back. -/
structure HostData where
  bytes : List Nat := []
  poison : List Nat := []
  dmaError : Bool := false
  norOk : Bool := true
deriving DecidableEq, Repr

/-- A BAR2 access (R535): write or read of size bytes at an offset, its data and its EP bit. -/
structure HostAccess where
  write : Bool := false
  off : Nat := 0
  size : Nat := 8
  data : Nat := 0
  ep : Bool := false
deriving DecidableEq, Repr

/-- The kinds of a control core's access (R441). -/
inductive CoreOp where
  | load | store | amo | fetch
deriving DecidableEq, Repr

/-- A control core's access to local memory (R261, R441); for an AMO the data is the value its function writes. -/
structure CoreAccess where
  core : Nat
  op : CoreOp
  addr : Nat
  size : Nat := 8
  data : Nat := 0
deriving DecidableEq, Repr

/-- A management transfer (R549): offset, data for a write, whether its PEC is valid, and whether it comes over SMBus. -/
structure MgmtXfer where
  write : Bool := false
  off : Nat := 0
  data : Nat := 0
  pecOk : Bool := true
  smbus : Bool := false
deriving DecidableEq, Repr

/-- An SPDM or DOE request (R550): version requested, certificate offset and length, slot, measurement index, the nonce and
whether a signature is asked for. -/
structure SpdmReq where
  version : Nat := 0x13
  param1 : Nat := 0
  param2 : Nat := 0
  offset : Nat := 0
  length : Nat := 0
  nonce : Nat := 0
deriving DecidableEq, Repr
/-- The commands: one constructor per row of the opcode table. -/
inductive Instr where
  | coldReset (aonLost : Bool)
  | hubResetCold (i : Nat) (w : Word)
  | hubResetWarm (i : Nat) (w : Word)
  | warmResetRequest
  | refclkLost
  | refclkReturn
  | powerLoss
  | railFault (k : Nat)
  | fixedRailOutOfTolerance
  | thermalTrip
  | bootRom (r : RomReport)
  | bootVerify
  | bootFill (r : FillReport)
  | bootHbm (failed : List Nat)
  | bootLink (trained : List (Nat × Nat))
  | bootTempo (w : WindowReading)
  | bootConfig
  | tempoWindowClose (w : WindowReading)
  | regulatorWindow
  | bridgeLinkFail (k b : Nat)
  | nop (u : CtxId) (f : Fields)
  | br (u : CtxId) (f : Fields)
  | brc (u : CtxId) (f : Fields)
  | loop (u : CtxId) (f : Fields)
  | stop (u : CtxId) (f : Fields)
  | cswrd (u : CtxId) (f : Fields)
  | cswclr (u : CtxId) (f : Fields)
  | sbind (u : CtxId) (f : Fields)
  | sadd (u : CtxId) (f : Fields)
  | ssub (u : CtxId) (f : Fields)
  | smul (u : CtxId) (f : Fields)
  | sand (u : CtxId) (f : Fields)
  | sor (u : CtxId) (f : Fields)
  | sxor (u : CtxId) (f : Fields)
  | sshl (u : CtxId) (f : Fields)
  | sshr (u : CtxId) (f : Fields)
  | ssar (u : CtxId) (f : Fields)
  | smin (u : CtxId) (f : Fields)
  | smax (u : CtxId) (f : Fields)
  | scmp (u : CtxId) (f : Fields)
  | smovi (u : CtxId) (f : Fields)
  | xset (u : CtxId) (f : Fields)
  | xadd (u : CtxId) (f : Fields)
  | xmov (u : CtxId) (f : Fields)
  | tld (u : CtxId) (f : Fields) (e : Upsets)
  | tst (u : CtxId) (f : Fields)
  | scld (u : CtxId) (f : Fields)
  | scst (u : CtxId) (f : Fields)
  | sld (u : CtxId) (f : Fields)
  | sst (u : CtxId) (f : Fields)
  | ald (u : CtxId) (f : Fields)
  | ast (u : CtxId) (f : Fields)
  | aldt (u : CtxId) (f : Fields)
  | acpy (u : CtxId) (f : Fields)
  | waitf (u : CtxId) (f : Fields)
  | waitd (u : CtxId) (f : Fields)
  | loadDataReturn (u : CtxId)
  | asyncComplete (x : Nat)
  | aopen (u : CtxId) (f : Fields)
  | tmac (u : CtxId) (f : Fields) (e : ParityErrs)
  | acomb (u : CtxId) (f : Fields)
  | areanc (u : CtxId) (f : Fields)
  | aadd (u : CtxId) (f : Fields)
  | acvt (u : CtxId) (f : Fields)
  | acvtmx (u : CtxId) (f : Fields)
  | vadd (u : CtxId) (f : Fields)
  | vsub (u : CtxId) (f : Fields)
  | vmul (u : CtxId) (f : Fields)
  | vfma (u : CtxId) (f : Fields)
  | vmin (u : CtxId) (f : Fields)
  | vmax (u : CtxId) (f : Fields)
  | vfn (u : CtxId) (f : Fields)
  | vsmx (u : CtxId) (f : Fields)
  | vcvt (u : CtxId) (f : Fields)
  | vred (u : CtxId) (f : Fields)
  | vbc (u : CtxId) (f : Fields)
  | vsel (u : CtxId) (f : Fields)
  | mset (u : CtxId) (f : Fields)
  | mop (u : CtxId) (f : Fields)
  | mcmp (u : CtxId) (f : Fields)
  | causal (u : CtxId) (f : Fields)
  | causalb (u : CtxId) (f : Fields)
  | mpop (u : CtxId) (f : Fields)
  | spchk (u : CtxId) (f : Fields)
  | rdisp (u : CtxId) (f : Fields)
  | rrecv (u : CtxId) (f : Fields)
  | kvrd (u : CtxId) (f : Fields)
  | kvapp (u : CtxId) (f : Fields)
  | tpen (u : CtxId) (f : Fields)
  | topk (u : CtxId) (f : Fields)
  | draw (u : CtxId) (f : Fields)
  | tinc (u : CtxId) (f : Fields)
  | tga (u : CtxId) (f : Fields)
  | gong (u : CtxId) (f : Fields)
  | gongArrivalCounted (u : CtxId)
  | peal (u : CtxId) (f : Fields)
  | atom (u : CtxId) (f : Fields)
  | red (u : CtxId) (f : Fields)
  | trig (u : CtxId) (f : Fields)
  | ptest (u : CtxId) (f : Fields)
  | pmark (u : CtxId) (f : Fields)
  | fence (u : CtxId) (f : Fields)
  | retry (k n : Nat) (w : Word)
  | skip (k n : Nat) (w : Word)
  | resumeAt (k n : Nat) (w : Word)
  | halt (k n : Nat) (w : Word)
  | stepSubmit (p : Nat) (w : Word)
  | stepStart (p : Nat)
  | drumStepStart (k d : Nat)
  | drumRebindDone (k n : Nat)
  | drumDone (k d : Nat)
  | stepDone (p : Nat)
  | stepDeadlineMissed (p : Nat)
  | stepWatchdog (p : Nat)
  | prefetchCopy (k d : Nat)
  | prefetchScatter (k d : Nat)
  | prefetchClear (k d : Nat)
  | prefetchWaitw (k d : Nat)
  | prefetchEnd (k d : Nat)
  | prefetchTransferDone (x : Nat)
  | prefetchListStart (k d : Nat)
  | latePrefetch (u : CtxId) (turns : Nat)
  | calibStart (k d : Nat)
  | calibComplete (k d ratio : Nat)
  | tempoCalibForced (k d : Nat)
  | routerTakeToken (k : Nat)
  | routerDispatch (k : Nat)
  | inboxRecordWritten (k d : Nat)
  | routerDirWrite (i k e : Nat) (w : Word)
  | kvTableWrite (i slot word : Nat) (w : Word)
  | kvStageWrite (i k : Nat) (w : Word)
  | kvReserve (c : Nat) (w : Word)
  | kvAdmit (c : Nat) (w : Word)
  | kvCommit (c : Nat) (w : Word)
  | kvHandoff (c : Nat) (w : Word)
  | kvFlush (c : Nat) (w : Word)
  | kvRelease (c : Nat) (w : Word)
  | kvForceFree (c : Nat) (w : Word)
  | kvHeldApply (p : Nat)
  | kvArmedHandoffApply (p l : Nat)
  | kvPageFlushDone (k page : Nat)
  | kvHandoffSubmit (slot layer : Nat)
  | kvHandoffLayerDone (slot layer : Nat)
  | kvHandoffClose (slot : Nat)
  | kvDrainDone (slot : Nat)
  | treeConfigWrite (i off : Nat) (w : Word)
  | ringDoorbell (i off : Nat) (w : Word)
  | ringConfigWrite (i off : Nat) (w : Word)
  | pwLookup (w : Nat)
  | pwInsert (w : Nat)
  | pwDelete (w : Nat)
  | pwCommit (w : Nat)
  | pwUnlink (w : Nat)
  | pwRelease (w : Nat)
  | submit (p : Nat)
  | attach (p : Nat)
  | cancel (p : Nat)
  | notice (p : Nat)
  | query (p : Nat)
  | subPoliceWrite (i sub : Nat) (w : Word)
  | slotRemote (c : Nat) (w : Word)
  | slotPark (c : Nat) (w : Word)
  | slotUnpark (c : Nat) (w : Word)
  | slotSetTally (c : Nat) (w : Word)
  | slotSetTally2 (c : Nat) (w : Word)
  | emitSubmit (p : Nat) (w : Word)
  | emitEntryApply (p : Nat)
  | responseIssue (slot : Nat)
  | slotFree (slot : Nat)
  | discard (c : Nat) (w : Word)
  | discardDone (c : Nat)
  | acctLatch (c : Nat) (w : Word)
  | flashReadDone (r : FlashRead)
  | flashProgramDone (r : FlashProg)
  | flashEraseDone (block : Nat) (ok : Bool)
  | flashReclaim (r : FlashSpace)
  | flashRelocateStart (src dst : Nat)
  | flashRelocateCopied (src : Nat)
  | flashMapCheckpoint
  | flashMapLoad
  | trnSubmit (c : Nat) (w : Word)
  | trnAbort (c : Nat) (w : Word)
  | trnEntryActive (p q : Nat)
  | trnWheelRelease (x : Nat)
  | trnFarScan
  | trnParcelStart (x : Nat)
  | trnParcelAck (x : Nat)
  | trnParcelFail (x code : Nat)
  | trnParcelIncomplete (src tag : Nat)
  | trnParcelReissue (x : Nat)
  | codecEncodeStart (x : Nat)
  | codecEncodeDone (x : Nat)
  | codecDecodeStart (src tag : Nat)
  | codecDecodeDone (src tag : Nat)
  | frameReceive (link f corrected : Nat) (bad : Bool)
  | frameControl (link : Nat) (c : ControlFrame)
  | linkDown (link cause : Nat)
  | linkTrained (link width : Nat)
  | fabLoad (p : Pkt)
  | fabStore (p : Pkt)
  | fabStorem (p : Pkt)
  | fabPeal (p : Pkt)
  | fabAtomic (p : Pkt)
  | fabRed (p : Pkt)
  | fabFence (p : Pkt)
  | fabGongArrive (p : Pkt)
  | fabGongSound (p : Pkt)
  | fabTaint (p : Pkt)
  | fabParcel (p : Pkt)
  | fabParcelEnd (p : Pkt)
  | fabCparcel (p : Pkt)
  | fabCparcelEnd (p : Pkt)
  | fabRsp (p : Pkt)
  | fabPending (p : Pkt)
  | fabPendingSend (src tag : Nat)
  | fabReqAbandoned (src tag : Nat)
  | fabTargetDead (node tag : Nat)
  | fabTagRelease (node tag : Nat)
  | egressHoldoffEnd (n : Nat)
  | srcIndexWrite (i off : Nat) (w : Word)
  | srcSearch (i : Nat)
  | srcInsert (i : Nat)
  | srcSetlist (i : Nat)
  | srcDelete (i : Nat)
  | srcCommit (i : Nat)
  | srcRelease (i : Nat)
  | srcSettle (i : Nat)
  | preemptSave (c : Nat) (w : Word)
  | preemptRestore (c : Nat) (w : Word)
  | preemptAbandon (c : Nat) (w : Word)
  | preemptWithdraw (c : Nat) (w : Word)
  | preemptDrainDone (p : Nat)
  | preemptSaveDone (p : Nat)
  | preemptReturnDone (p : Nat)
  | preemptRestoreDone (p : Nat)
  | scrubAccess (u : Nat) (e : Upsets)
  | scrubOverdue (u : Nat)
  | mergeAgeFlush (k d line : Nat)
  | scheckRequest (c : Nat) (w : Word)
  | scheckRun (c : Nat)
  | scheckEnd (c : Nat) (r : CheckResult)
  | scheckForced (c : Nat)
  | obsRetest (e : Nat)
  | obsAdd (c : Nat) (w : Word)
  | kitRetire (k : Nat)
  | replay (c : Nat) (w : Word)
  | orderRecord (r : OrderRec)
  | orderPacketFetch (p : Pkt)
  | forwardedWrite (i off : Nat) (w : Word)
  | compareMessage (m : CompareMsg)
  | pairDiagnosisDone (p outcome : Nat)
  | heartbeatSend
  | heartbeat (link : Nat)
  | pairPartnerLost
  | pairJoinPassDone (p left kits : Nat)
  | ccWatchdogKick (i c : Nat) (w : Word)
  | ccHang (c : Nat)
  | ccRestart (i : Nat) (w : Word)
  | eventAccept (src : Nat)
  | eventSpill
  | evtWindowLatch (i : Nat)
  | logBankLost (bank cause : Nat)
  | cfgOpen (i : Nat) (w : Word)
  | cfgStagedWrite (i off : Nat) (w : Word)
  | cfgValidate (i : Nat) (w : Word)
  | cfgCommit (i : Nat) (w : Word)
  | cfgAbandon (i : Nat) (w : Word)
  | cfgRollback (i : Nat) (w : Word)
  | cfgCancel (i : Nat) (w : Word)
  | cfgPersistDone (ok : Bool)
  | cfgHoldComplete
  | cfgTimeout
  | cfgSwitchDone
  | cfgNorSwitchWritten
  | hqCfgWrite (i q : Nat) (w : Word)
  | hqSqDoorbell (i q : Nat) (w : Word) (es : List HostEntry)
  | hqCqDoorbell (i q : Nat) (w : Word)
  | serve (q : Nat) (d : HostData)
  | hqCopy (q : Nat) (d : HostData)
  | install (q : Nat) (d : HostData)
  | bootWrite (q : Nat) (d : HostData)
  | recover (q : Nat) (d : HostData)
  | hqCommandComplete (q : Nat)
  | hostWindowAccess (a : HostAccess)
  | hostPerst
  | hostLinkDown
  | attnRaise (i : Nat) (w : Word)
  | attnPulseStart
  | attnPulseRelease
  | attnRenotify
  | mgmtTransfer (m : MgmtXfer)
  | entdaa (a : Nat)
  | setdasa (static a : Nat)
  | rstdaa
  | getpid
  | getbcr
  | getdcr
  | getstatus
  | doeDiscovery (r : SpdmReq)
  | getVersion (r : SpdmReq)
  | getCapabilities (r : SpdmReq)
  | negotiateAlgorithms (r : SpdmReq)
  | getDigests (r : SpdmReq)
  | getCertificate (r : SpdmReq)
  | challenge (r : SpdmReq)
  | getMeasurements (r : SpdmReq)
  | rcRead (i off : Nat) (wide : Bool)
  | halfReadLatch (i off : Nat)
  | registerWrite (i off : Nat) (w : Word)
  | resetRelease (node : BitVec 16) (defaultN : Bool)
  | ccRestarted (c : Nat)
  | hostPortTrained
  | controlCoreAccess (a : CoreAccess)
deriving DecidableEq, Repr

end Sys2Proof
end

