-- ==== Sys2Proof/Decode.lean ====
section
/-!
DEFINITION. Sys2Proof/Decode.lean: commands as the opcode table's bits spell them. No row of the table gives bits: a command reaches the block
with its operands, not as a word.
-/
namespace Sys2Proof

/-- The command that a word of the table spells: none, since no row gives bits. [log 3: DESIGN CHOICE] -/
def decodeTableWord (_nbits _w : Nat) : Option Instr := none

end Sys2Proof
end

