-- ==== Sys2Proof/Config.lean ====
section
/-!
DEFINITION. Sys2Proof/Config.lean: what an implementation fixes and the values the spec leaves open. Every constant here is
opaque: it has no body, so no proof can rest on its value.
-/
namespace Sys2Proof.Config

/-- The n-th value that the spec leaves open, as a number; its user cuts it to width. [log 7: DESIGN CHOICE] -/
opaque freeValue : Nat → Nat

/-- Bytes of an epoch's image, and its SHA-384: the format of the image is internal (R518). [log 93: DESIGN CHOICE] -/
opaque imageLength : List (Nat × BitVec 64) → Nat
opaque imageDigest : List (Nat × BitVec 64) → BitVec 384

/-- Logical units that the good flash blocks hold when so many blocks have been retired (R285). [log 66: DESIGN CHOICE] -/
opaque flashUnits : Nat → Nat

/-- Blocks of a flash channel, and the 64 KiB units that a block holds: the parts' own geometry, which the spec leaves to their parameter pages
(R285, R290). [log 66: DESIGN CHOICE] -/
opaque flashBlocks : Nat
opaque flashBlockUnits : Nat

/-- The signing key that a KEY_INDEX names, as the bytes of which the fuses hold the digest, and ECDSA P-384 verification (FIPS 186-5) of a
signature (r then s) over a message of n bytes (R509, R510). [log 20: DESIGN CHOICE] -/
opaque publicKey : Nat → Nat
opaque publicKeyBytes : Nat
opaque ecdsaVerify : Nat → Nat → Nat → Nat → Bool

/-- What is fixed when the part is made: HUB_IDENTITY.STEPPING (R546); the largest array read time of the flash parts
fitted (Table 8.14); the I3C provisional ID, bus and device characteristics and status word
(R549); the certificate chain of slot 0, its length, and the device's signature over a transcript (R550); and the digest of the ROM (Table 18.11). [log 20: DESIGN CHOICE] -/
opaque stepping : BitVec 8
opaque flashReadUs : BitVec 16
opaque provisionalId : BitVec 48
opaque busCharacteristics : BitVec 8
opaque deviceCharacteristics : BitVec 8
opaque targetStatus : Nat → BitVec 16
opaque certificateChain : Nat
opaque certificateBytes : Nat
opaque attestSign : Nat → BitVec 768
opaque romDigest : BitVec 384

/-- The raw bytes of measurements 3 and 4 (Table 18.11) for the values they carry, of which the spec gives no layout. [log 114: DEDUCED] -/
opaque rawMeasurement : List Nat → Nat

end Sys2Proof.Config
end

