-- ==== Sys2Proof/Machine/DeviceTypes.lean ====
section
/-!
DEFINITION. Sys2Proof/Machine/DeviceTypes.lean: the parts of the state of bring-up, configuration, the host port, management
and power (17, 18 and 19 of the spec), and the outputs of the block.
-/
namespace Sys2Proof.Machine

/-- Reset and bring-up (R504 to R513). A cold or a warm reset is held until its release; aonLost tells that the always-on domain has lost its
power since the last bring-up; fillDone that SRAM has been filled since the last cold reset. The straps as latched (R507); the NOR part's bytes
and size (Table 17.5); the security block's fuses (R510), one key digest per key; slots still to be tried by VERIFY (0 A, 1 B), a pending
BOOT_SLOT_FALLBACK; the image that RECOVER has put into hub SRAM (its header, the number of its body's bytes and the body); what the retirement fuses and
the NOR retirement record hold (R455), pool granules that failed the fill; when reset was released and when the device became ready; the control
cores that execute (a mask), those in a restart, HUB_TIME + 1 of each watchdog's last kick, the port that
Table 17.11 seeds routes with, and the last tempo window (ms of HUB_TIME) and regulator window (µs) that have closed (R39). [log 6: DESIGN CHOICE] -/
structure Boot where
  resetHeld : Bool := true
  warmHeld : Bool := false
  aonLost : Bool := true
  fillDone : Bool := false
  refclkLost : Bool := false
  releasedAt : Nat := 0
  readyAt : Nat := 0
  nodeStrap : BitVec 16 := 0
  defaultN : Bool := true
  nor : List Host.Cell := []
  norSize : Nat := 0x4000000
  keyDigests : SMap (BitVec 384) := []
  revoked : Nat := 0
  fuseCounter : Nat := 0
  lockFused : Bool := false
  tries : List Nat := []
  image : Nat × Nat × Nat := (0, 0, 0)
  fusedDrums : List (Nat × Nat) := []
  fusedSegs : List (Nat × Nat) := []
  norKits : NSet := []
  badGranules : NSet := []
  coresRun : Nat := 0
  restarting : NSet := []
  kicks : SMap Nat := []
  seedPort : Nat := 0
  tempoWindow : Nat := 0
  regWindow : Nat := 0
deriving DecidableEq, Repr

/-- A journal record of an epoch (Table 17.16). -/
structure CfgRecord where
  jseq : Nat := 0
  kind : Nat := 0
  slot : Nat := 0
  epoch : Nat := 0
  time : Nat := 0
deriving DecidableEq, Repr

/-- An epoch image in a slot: its number and its registers; ok is false while a write to the slot is unfinished (R518, R524). -/
structure EpochImage where
  num : Nat := 0
  regs : SMap (BitVec 64) := []
  ok : Bool := false
deriving DecidableEq, Repr

/-- The configuration session and the stored epochs (R517 to R527): the registers and the number of the commit or rollback in progress, what
kind it is, its hold limit in ns and when it ends; partitions affected; the registers before the last switch; the always-on and NOR image
slots and journals, the slot of the current epoch, NOR records still owed, the next record number; and cores that a switch restarts, the one in
restart first. [log 6: DESIGN CHOICE] -/
structure Cfg where
  target : SMap (BitVec 64) := []
  targetNum : Nat := 0
  isRollback : Bool := false
  persist : Bool := false
  limit : Nat := 0
  limitAt : Nat := 0
  affected : NSet := []
  old : SMap (BitVec 64) := []
  slot0 : EpochImage := {}
  slot1 : EpochImage := {}
  nor0 : EpochImage := {}
  nor1 : EpochImage := {}
  curSlot : Nat := 0
  journal : List CfgRecord := []
  norJournal : List CfgRecord := []
  norOwed : List CfgRecord := []
  jseq : Nat := 1
  restartCores : List Nat := []
deriving DecidableEq, Repr

/-- A host command taken from an SQ (R537): SQ_HEAD after it, a nonzero reserved field or a reserved CID, and that its completion is to be
dropped because its queue has been disabled since. -/
structure HostCmd where
  cid : Nat := 0
  opc : Nat := 0
  dir : Nat := 0
  data : Nat := 0
  arg0 : Nat := 0
  arg1 : Nat := 0
  head : Nat := 0
  bad : Bool := false
  drop : Bool := false
deriving DecidableEq, Repr

/-- A completion waiting for its CQ (R538): serve marks the completion of a SERVE command in the order taken, num its number, ready that its
outcome is known, slot + 1 the request slot whose unsolicited record it carries (R539), nor that it ends an INSTALL, BOOT_WRITE or RECOVER. -/
structure HostCompl where
  num : Nat := 0
  nor : Bool := false
  cid : Nat := 0
  status : Nat := 0
  head : Nat := 0
  payload : List Nat := []
  serve : Bool := false
  ready : Bool := true
  slot : Nat := 0
deriving DecidableEq, Repr

/-- A write that the device makes to host memory: address, 64-bit words, EP bit. -/
structure HostWrite where
  addr : Nat := 0
  words : List Nat := []
  ep : Bool := false
deriving DecidableEq, Repr

/-- The host port (R531 to R545): the link trained, commands taken, completions that wait, the number of the next, an INSTALL, BOOT_WRITE or
RECOVER in progress, and entries consumed in each CQ. -/
structure HostPort where
  trained : Bool := false
  taken : SMap (List HostCmd) := []
  waiting : SMap (List HostCompl) := []
  nextNum : Nat := 0
  norBusy : Bool := false
deriving DecidableEq, Repr

/-- Attention and management (R546 to R549): RB_N driven low, an attention pulse in progress, HUB_TIME of the last pulse start and HUB_TIME + 1 of
the last release, a pulse that is due and waits for its spacing, the I3C dynamic address, and the state of the SPDM responder (R550). -/
structure Mgmt where
  rbLow : Bool := true
  inPulse : Bool := false
  pulseStart : Nat := 0
  released : Nat := 0
  pulseDue : Bool := false
  dynAddr : Option Nat := none
  spdmVersion : Nat := 0
  spdmCaps : Bool := false
  spdmAlgs : Bool := false
deriving DecidableEq, Repr

/-- Power and thermal state beyond the PWR_ registers (R559, R566): THERMTRIP_N driven low, the trip in force, the supply gone. -/
structure Power where
  thermTripLow : Bool := false
  tripped : Bool := false
  gone : Bool := false
deriving DecidableEq, Repr

/-- An answer of the attestation responder (R550). -/
inductive DoeResp where
  | none
  | protocols (vendor : Nat) (types : List Nat)
  | versions (vs : List Nat)
  | capabilities (ctExponent : Nat) (cert chal meas sig : Bool)
  | algorithms (asym hash spec : Nat)
  | digests (slots : Nat) (digest : BitVec 384)
  | certificate (slot : Nat) (bytes : Nat) (length : Nat)
  | challenge (digest : BitVec 384) (summary : BitVec 384) (signature : BitVec 768)
  | measurements (values : List (Nat × Nat)) (signature : Option (BitVec 768))
  | error (code : Nat)
deriving DecidableEq, Repr

/-- What the block puts out: the data of the last register or window read, its EP bit, the last management answer (none: not
acknowledged), the last DOE answer, host memory writes, and the trap of the last control-core access. [log 121, 123: DESIGN CHOICE] -/
structure Out where
  rdata : Nat := 0
  ep : Bool := false
  mgmt : Option Nat := none
  doe : DoeResp := .none
  host : List HostWrite := []
  trap : Option (Nat × Nat) := none
deriving DecidableEq, Repr

/-- The step that a partition runs or has run last: HUB_TIME at its start, entries applied and skipped, lowest drum tempo seen, the
slowest drum (kit, physical drum, ns after the start), contexts stopped by a fault, and its own marks (R170 to R172, R249). -/
structure StepRun where
  startAt : Nat := 0
  applied : Nat := 0
  skips : Nat := 0
  lowTempo : Nat := 0xFFFF
  slowKit : Nat := 0
  slowDrum : Nat := 0
  slowNs : Nat := 0
  faulted : Nat := 0
  missed : Bool := false
  fired : Bool := false
  calibForced : Bool := false
  belowSeen : Bool := false
  extraNs : Nat := 0
  replay : Bool := false
  s15 : Nat := 0
deriving DecidableEq, Repr

/-- The image of one kit (Table 13.9) as it was saved: its size, the live list as evaluated, the kind of save, the step, the number of
the first free value that stands for bytes whose layout the spec does not give, and what those bytes hold: the kit, KIT_KV_STAGE,
LAYER, the drums by logical index with DRM_INBOX and DRM_LATE_STALL, and the mallets by logical drum × 256 + mallet. [log 74: DESIGN CHOICE] -/
structure KitImage where
  live : Bool := false
  bytes : Nat := 0
  list : List (Nat × Nat) := []
  mid : Bool := false
  step : Nat := 0
  free : Nat := 0
  kit : Kit := {}
  stage : BitVec 64 := 0
  layer : Nat := 0
  drums : SMap Drum := []
  inbox : SMap (BitVec 64) := []
  late : SMap (BitVec 64) := []
  mallets : SMap Mallet := []
deriving DecidableEq, Repr

/-- A partition's pre-emption beyond PAR_PREEMPT_STATUS (R423, R424): the kind of save, whether the kits are lent after it, when
SAVING was entered, whether the images are written, whether the return or restore is of an ABANDON, and that a step start in WAITING has its
drums latch before the save at its boundary is evaluated. -/
structure Preempt where
  mid : Bool := false
  lend : Bool := false
  since : Nat := 0
  imaged : Bool := false
  abandon : Bool := false
  boundary : Bool := false
deriving DecidableEq, Repr

/-- Per-partition execution state beyond its registers (04, 13): the budgets of the running step, resident time, the lowest FLOOR,
the step submitted and not yet started (its list's offset and count), the step itself; gong lines as latched at the step start,
soundings of each line, the contexts that have arrived at it in its phase, and arrivals that count in its next phase (R165, R166). -/
structure Part where
  budget : BitVec 64 := 0
  watchdog : BitVec 64 := 0x64000000000003
  residentNs : Nat := 0
  floor : Nat := 0
  submitted : Option (Nat × Nat) := none
  run : StepRun := {}
  journaled : NSet := []
  gongCfg : SMap (BitVec 64) := []
  sounds : SMap Nat := []
  arrivedBy : SMap NSet := []
  nextArrived : SMap Nat := []
  pre : Preempt := {}
deriving DecidableEq, Repr

end Sys2Proof.Machine
end

