-- ==== Sys2Proof/Machine/Registers.lean ====
section
/-!
DEFINITION. Sys2Proof/Machine/Registers.lean: the control-space registers. Names, fields, access codes and reset
values are those of the spec's register tables; offsets follow the map and the packing rule of R534 (18_host_port_and_control_map.md),
where a register array lies at base + i * s0 + j * s1. Registers of physical drums are held once, at the physical page.
Whether a register belongs to the configuration epoch is as R517 and the defining tables say.
-/
namespace Sys2Proof.Machine

/-- Every control-space register or window of Table 18.2 and Table 18.3, under the spec's name. -/
inductive RegName where
  | HUB_IDENTITY
  | HUB_STATUS
  | HUB_ATTN_CFG
  | HUB_BOOT
  | HUB_TIME
  | HUB_RESET
  | HUB_HOST_WINDOW
  | HUB_PAIR_CFG
  | HUB_PAIR_STATUS
  | HUB_CC_RESTART
  | HUB_CC_WATCHDOG
  | HUB_CC_IMAGE
  | HUB_CFG_CMD
  | HUB_CFG_RESULT
  | HUB_CFG_STATUS
  | HUB_CFG_PREVIOUS
  | HUB_CFG_VIEW
  | HUB_FLOOR_TABLE
  | HUB_HQ_CFG
  | HUB_HQ_SQ_BASE
  | HUB_HQ_CQ_BASE
  | HUB_HQ_STATUS
  | HUB_HQ_SQ_TAIL
  | HUB_HQ_CQ_HEAD
  | EVT_HEAD
  | EVT_READ
  | EVT_WINDOW
  | EVT_WINDOW_SRC
  | EVT_OVERWRITES
  | EVT_LOST
  | EVT_STATUS
  | EVT_ATTN_MASK
  | EVT_SPILL_CFG
  | EVT_SPILL_PTR
  | SEC_DEFAULT_LOCK
  | PWR_CAP
  | PWR_STATUS
  | PWR_KIT
  | PWR_ENERGY
  | FAB_CONFIG
  | FAB_PORT_CFG
  | FAB_PORT_STATUS
  | FAB_EXPORT_RED
  | FAB_PEAL
  | FAB_GONG_CFG
  | FAB_FEC_CORRECTED
  | FAB_FRAME_RESENT
  | FAB_LINK_DOWN_COUNT
  | FAB_TARGET_DEAD_COUNT
  | FAB_LATE_ANSWER
  | FAB_REFUSED_OUT
  | FAB_REFUSED_IN
  | FAB_EGRESS_DROP
  | FAB_ROUTE_CHANGE
  | FAB_TAINT_IN
  | FAB_EGRESS
  | MEM_SPAN_CTL
  | MEM_SPAN_BASE
  | MEM_HUB_RANGE
  | MEM_EXTENT_TGT
  | MEM_EXTENT_LEN
  | MEM_EXPORT_CTL
  | MEM_EXPORT_RANGE
  | MEM_QUOTA
  | MEM_PART_QUOTA
  | MEM_PART_CHARGE
  | MEM_ACCT
  | MEM_ACCT_SAT
  | MEM_ACCT_LATCH
  | MEM_ACCT_SNAP
  | MEM_DISCARD
  | MEM_DISCARD_RESULT
  | FLS_CONFIG
  | FLS_MAP_BASE
  | FLS_MAINT
  | FLS_STATUS
  | FLS_APERTURE
  | INT_SCRUB_CFG
  | INT_SCRUB_LAP
  | INT_SCRUB_STATUS
  | INT_SCHECK
  | INT_SCHECK_SEED
  | INT_SCHECK_RESULT
  | INT_OBS_CFG
  | INT_OBS
  | INT_OBS_FROM
  | INT_OBS_ADD
  | INT_JOURNAL
  | INT_ECC
  | INT_PARITY
  | INT_CHECKS
  | INT_CONFIRMED
  | INT_TAINT_SENT
  | INT_TAINT_LOCAL
  | INT_HUB_BAD
  | PAR_CONFIG
  | PAR_LEND
  | PAR_REG
  | PAR_REG_STATUS
  | PAR_REG_STAT
  | PAR_LIVESET
  | PAR_SAVE
  | PAR_PREEMPT
  | PAR_PREEMPT_RESULT
  | PAR_PREEMPT_STATUS
  | PAR_STEP_BUDGET
  | PAR_STEP_WATCHDOG
  | PAR_STEP_DEADLINE
  | PAR_STEP_STATUS
  | PAR_STEP_SEQ
  | PAR_GONG_LINE
  | PAR_SIJ_CFG
  | PAR_SIJ_IN
  | PAR_SIJ_LEN
  | PAR_REPLAY
  | PAR_REPLAY_RESULT
  | PAR_PAIR_HOLD
  | TRN_QUEUE_CFG
  | TRN_QUEUE_PTR
  | TRN_PART_DEFAULT
  | TRN_SUBMIT
  | TRN_SUBMIT_RESULT
  | TRN_ABORT
  | TRN_ABORT_RESULT
  | TRN_SUB_CFG
  | TRN_SUB_POLICE
  | TRN_SUB_SHAPE
  | TRN_SERVICE_DRR
  | TRN_PARCELS
  | TRN_BYTES_RAW
  | TRN_BYTES_WIRE
  | TRN_DEFERRED
  | TRN_SPLIT
  | TRN_POLICED_PARCELS
  | TRN_WHEEL_FAR
  | TRN_RX_FULL
  | TRN_RX_INCOMPLETE
  | CDC_PART_CFG
  | CDC_REF
  | CDC_BLOCKS_CODED
  | CDC_BLOCKS_RAW
  | CDC_RAW_BYTES
  | CDC_STREAM_BYTES
  | CDC_BYPASS
  | CDC_DAMAGE
  | CDC_REF_POISON
  | SRV_SUB_POLICE
  | SRV_SUB_CFG
  | SRV_SERVICE
  | SRV_PART_SERVE
  | SRV_KV_CMD
  | SRV_KV_RESULT
  | SRV_SLOT_CMD
  | SRV_SLOT_ARG
  | SRV_SLOT_RESULT
  | SRV_STEP_SUBMIT
  | SRV_STEP_RING
  | SRV_EMIT_SUBMIT
  | SRV_TREE_CFG
  | SRV_TREE_BUCKET_BASE
  | SRV_TREE_NODE_BASE
  | SRV_TREE_SALT
  | SRV_TREE_GEN
  | SRV_TREE_OLDEST
  | SRV_TREE_QCOUNT
  | SRV_PW_RING
  | SRV_PW_DOORBELL
  | SRV_ADMITTED
  | SRV_REFUSED
  | SRV_POLICED
  | SRV_CANCELLED
  | SRV_DONE_BEFORE_ABORT
  | SRV_STALE_HANDLE
  | SRV_EMIT_REFUSED
  | SRV_TOKENS_OUT
  | SRV_TALLY_LOST
  | SRC_INDEX_CFG
  | SRC_INDEX_SIZE
  | SRC_INDEX_ARITH
  | SRC_INDEX_BASE
  | SRC_INDEX_GEN
  | SRC_INDEX_OLDEST
  | SRC_INDEX_QCOUNT
  | SRC_RING
  | SRC_DOORBELL
  | SRC_QUERIES
  | SRC_EVALUATIONS
  | SRC_EXPANSIONS
  | SRC_BAD_EDGE
  | SRV_KV_TABLE
  | SRV_SLOT_TABLE
  | KIT_OPPOINT
  | KIT_ROUTER_CONFIG
  | KIT_KV_STAGE
  | KIT_ROUTER_DISPATCHED
  | KIT_ROUTER_OVERFLOW
  | KIT_ROUTER_STREAM
  | KIT_ROUTER_CANCELLED
  | KIT_ROUTER_POISONED
  | KIT_ROUTER_GATE_NAN
  | KIT_KV_APPEND_STAGED
  | KIT_KV_APPEND_DIRECT
  | KIT_KV_POOL_EMPTY
  | KIT_KV_FLUSH_FULL
  | KIT_KV_FLUSH_OTHER
  | KIT_KV_DROPPED
  | KIT_KV_HANDOFF_BYTES
  | KIT_ROUTER_DIR
  | DRM_STEP_CONFIG
  | DRM_INBOX
  | DRM_LATE_STALL
  | DRM_LATE_THRESH
  | DRM_TEMPO
  | DRM_CALIB
  | DRM_CTX_CONTROL
  | DRM_TMAC_DENSE
  | DRM_TMAC_SPARSE
  | DRM_TMAC_SKIPPED
  | DRM_CAUSALB_MASKED
  | DRM_CAUSALB_PARTIAL
  | DRM_CAUSALB_VISIBLE
deriving DecidableEq, Repr

/-- The access codes of Table 0.3 (R12). -/
inductive Access where
  | ro | rw | w1c | w1s | rc | wo
deriving DecidableEq, Repr

/-- One field of a register table: its register, lowest bit, width, access code and reset value. -/
structure Fld where
  reg : RegName
  lo : Nat
  width : Nat
  acc : Access
  reset : Nat
deriving DecidableEq, Repr

/-- Where a register lies (R534) and whether it belongs to the configuration epoch (R517). -/
structure RegInfo where
  base : Nat
  n0 : Nat
  s0 : Nat
  n1 : Nat
  s1 : Nat
  epoch : Bool
deriving DecidableEq, Repr

-- HUB_IDENTITY: Table 18.4
def F.HUB_IDENTITY_PART : Fld := ⟨.HUB_IDENTITY, 48, 16, .ro, 0x7200⟩
def F.HUB_IDENTITY_STEPPING : Fld := ⟨.HUB_IDENTITY, 40, 8, .ro, 0x0⟩
def F.HUB_IDENTITY_KITS : Fld := ⟨.HUB_IDENTITY, 32, 8, .ro, 0x0⟩
def F.HUB_IDENTITY_NODE : Fld := ⟨.HUB_IDENTITY, 16, 16, .ro, 0x0⟩
def F.HUB_IDENTITY_FORMAT : Fld := ⟨.HUB_IDENTITY, 8, 8, .ro, 0x1⟩
-- HUB_STATUS: Table 18.4
def F.HUB_STATUS_READY : Fld := ⟨.HUB_STATUS, 63, 1, .ro, 0x0⟩
def F.HUB_STATUS_ATTN : Fld := ⟨.HUB_STATUS, 62, 1, .ro, 0x0⟩
def F.HUB_STATUS_RB_RELEASED : Fld := ⟨.HUB_STATUS, 61, 1, .ro, 0x0⟩
def F.HUB_STATUS_CAUSE_EVENT : Fld := ⟨.HUB_STATUS, 59, 1, .w1c, 0x0⟩
def F.HUB_STATUS_CAUSE_LOG_LOST : Fld := ⟨.HUB_STATUS, 58, 1, .w1c, 0x0⟩
def F.HUB_STATUS_CAUSE_BOOT : Fld := ⟨.HUB_STATUS, 57, 1, .w1c, 0x0⟩
def F.HUB_STATUS_CAUSE_CQ : Fld := ⟨.HUB_STATUS, 56, 1, .w1c, 0x0⟩
def F.HUB_STATUS_CAUSE_RAISE : Fld := ⟨.HUB_STATUS, 55, 1, .w1c, 0x0⟩
def F.HUB_STATUS_STAGE : Fld := ⟨.HUB_STATUS, 48, 4, .ro, 0x0⟩
def F.HUB_STATUS_EVENT_SEQ : Fld := ⟨.HUB_STATUS, 0, 32, .ro, 0x0⟩
-- HUB_ATTN_CFG: Table 18.4
def F.HUB_ATTN_CFG_RAISE : Fld := ⟨.HUB_ATTN_CFG, 63, 1, .wo, 0x0⟩
def F.HUB_ATTN_CFG_RENOTIFY_MS : Fld := ⟨.HUB_ATTN_CFG, 0, 16, .rw, 0x64⟩
-- HUB_BOOT: Table 17.8
def F.HUB_BOOT_STAGE : Fld := ⟨.HUB_BOOT, 60, 4, .ro, 0x0⟩
def F.HUB_BOOT_FAIL : Fld := ⟨.HUB_BOOT, 52, 8, .ro, 0x0⟩
def F.HUB_BOOT_WARM : Fld := ⟨.HUB_BOOT, 51, 1, .ro, 0x0⟩
def F.HUB_BOOT_SLOT : Fld := ⟨.HUB_BOOT, 50, 1, .ro, 0x0⟩
def F.HUB_BOOT_EPOCH_SRC : Fld := ⟨.HUB_BOOT, 48, 2, .ro, 0x0⟩
def F.HUB_BOOT_ELAPSED_MS : Fld := ⟨.HUB_BOOT, 32, 16, .ro, 0x0⟩
def F.HUB_BOOT_IMAGE_VERSION : Fld := ⟨.HUB_BOOT, 0, 32, .ro, 0x0⟩
-- HUB_TIME: R39
def F.HUB_TIME_NS : Fld := ⟨.HUB_TIME, 0, 64, .ro, 0x0⟩
-- HUB_RESET: Table 17.2
def F.HUB_RESET_KEY : Fld := ⟨.HUB_RESET, 48, 16, .wo, 0x0⟩
def F.HUB_RESET_KIND : Fld := ⟨.HUB_RESET, 0, 2, .wo, 0x0⟩
-- HUB_HOST_WINDOW: Table 18.5
def F.HUB_HOST_WINDOW_ENABLE : Fld := ⟨.HUB_HOST_WINDOW, 63, 1, .rw, 0x0⟩
def F.HUB_HOST_WINDOW_BASE : Fld := ⟨.HUB_HOST_WINDOW, 32, 16, .rw, 0x0⟩
-- HUB_PAIR_CFG: Table 15.4
def F.HUB_PAIR_CFG_ENABLE : Fld := ⟨.HUB_PAIR_CFG, 63, 1, .rw, 0x0⟩
def F.HUB_PAIR_CFG_START : Fld := ⟨.HUB_PAIR_CFG, 62, 1, .rw, 0x0⟩
def F.HUB_PAIR_CFG_PAIR_NODE : Fld := ⟨.HUB_PAIR_CFG, 46, 16, .rw, 0x0⟩
def F.HUB_PAIR_CFG_PARTNER_NODE : Fld := ⟨.HUB_PAIR_CFG, 30, 16, .rw, 0x0⟩
def F.HUB_PAIR_CFG_PROMOTE_STEPS : Fld := ⟨.HUB_PAIR_CFG, 14, 16, .rw, 0x3E8⟩
-- HUB_PAIR_STATUS: Table 15.4
def F.HUB_PAIR_STATUS_ROLE : Fld := ⟨.HUB_PAIR_STATUS, 61, 3, .ro, 0x0⟩
def F.HUB_PAIR_STATUS_RESYNC : Fld := ⟨.HUB_PAIR_STATUS, 53, 8, .ro, 0x0⟩
def F.HUB_PAIR_STATUS_PARTNER_UP : Fld := ⟨.HUB_PAIR_STATUS, 52, 1, .ro, 0x0⟩
def F.HUB_PAIR_STATUS_LINKS : Fld := ⟨.HUB_PAIR_STATUS, 50, 2, .ro, 0x0⟩
def F.HUB_PAIR_STATUS_CLEAN_STEPS : Fld := ⟨.HUB_PAIR_STATUS, 34, 16, .ro, 0x0⟩
def F.HUB_PAIR_STATUS_LAG_US : Fld := ⟨.HUB_PAIR_STATUS, 18, 16, .ro, 0x0⟩
def F.HUB_PAIR_STATUS_DIVERGENCES : Fld := ⟨.HUB_PAIR_STATUS, 2, 16, .ro, 0x0⟩
-- HUB_CC_RESTART: Table 15.9
def F.HUB_CC_RESTART_CORES : Fld := ⟨.HUB_CC_RESTART, 0, 8, .wo, 0x0⟩
-- HUB_CC_WATCHDOG: Table 15.9
def F.HUB_CC_WATCHDOG_ENABLE : Fld := ⟨.HUB_CC_WATCHDOG, 63, 1, .rw, 0x0⟩
def F.HUB_CC_WATCHDOG_RESTART : Fld := ⟨.HUB_CC_WATCHDOG, 62, 1, .rw, 0x1⟩
def F.HUB_CC_WATCHDOG_KICK : Fld := ⟨.HUB_CC_WATCHDOG, 61, 1, .wo, 0x0⟩
def F.HUB_CC_WATCHDOG_TIMEOUT_MS : Fld := ⟨.HUB_CC_WATCHDOG, 0, 16, .rw, 0x64⟩
-- HUB_CC_IMAGE: Table 17.16
def F.HUB_CC_IMAGE_VALID : Fld := ⟨.HUB_CC_IMAGE, 63, 1, .rw, 0x0⟩
def F.HUB_CC_IMAGE_INDEX : Fld := ⟨.HUB_CC_IMAGE, 48, 8, .rw, 0x0⟩
def F.HUB_CC_IMAGE_DIGEST : Fld := ⟨.HUB_CC_IMAGE, 0, 48, .rw, 0x0⟩
-- HUB_CFG_CMD: Table 17.14
def F.HUB_CFG_CMD_OP : Fld := ⟨.HUB_CFG_CMD, 60, 4, .wo, 0x0⟩
def F.HUB_CFG_CMD_PERSIST : Fld := ⟨.HUB_CFG_CMD, 59, 1, .wo, 0x0⟩
def F.HUB_CFG_CMD_HOLD_LIMIT_US : Fld := ⟨.HUB_CFG_CMD, 0, 32, .wo, 0x0⟩
-- HUB_CFG_RESULT: Table 17.14
def F.HUB_CFG_RESULT_DONE : Fld := ⟨.HUB_CFG_RESULT, 63, 1, .ro, 0x1⟩
def F.HUB_CFG_RESULT_CODE : Fld := ⟨.HUB_CFG_RESULT, 48, 8, .ro, 0x0⟩
def F.HUB_CFG_RESULT_FIRST_BAD : Fld := ⟨.HUB_CFG_RESULT, 0, 48, .ro, 0x0⟩
-- HUB_CFG_STATUS: Table 17.14
def F.HUB_CFG_STATUS_PHASE : Fld := ⟨.HUB_CFG_STATUS, 60, 4, .ro, 0x0⟩
def F.HUB_CFG_STATUS_OWNER : Fld := ⟨.HUB_CFG_STATUS, 56, 4, .ro, 0x0⟩
def F.HUB_CFG_STATUS_DURABLE : Fld := ⟨.HUB_CFG_STATUS, 55, 1, .ro, 0x0⟩
def F.HUB_CFG_STATUS_PREV_VALID : Fld := ⟨.HUB_CFG_STATUS, 54, 1, .ro, 0x0⟩
def F.HUB_CFG_STATUS_CURRENT : Fld := ⟨.HUB_CFG_STATUS, 0, 32, .ro, 0x0⟩
-- HUB_CFG_PREVIOUS: Table 17.14
def F.HUB_CFG_PREVIOUS_NUMBER : Fld := ⟨.HUB_CFG_PREVIOUS, 0, 32, .ro, 0x0⟩
-- HUB_CFG_VIEW: Table 17.14
def F.HUB_CFG_VIEW_STAGED : Fld := ⟨.HUB_CFG_VIEW, 0, 1, .rw, 0x0⟩
-- HUB_FLOOR_TABLE: Table 1.3
def F.HUB_FLOOR_TABLE_STEP : Fld := ⟨.HUB_FLOOR_TABLE, 24, 8, .ro, 0x0⟩
def F.HUB_FLOOR_TABLE_BAND : Fld := ⟨.HUB_FLOOR_TABLE, 20, 4, .ro, 0x0⟩
def F.HUB_FLOOR_TABLE_FLOOR : Fld := ⟨.HUB_FLOOR_TABLE, 0, 16, .ro, 0x0⟩
-- HUB_HQ_CFG: Table 18.5
def F.HUB_HQ_CFG_ENABLE : Fld := ⟨.HUB_HQ_CFG, 63, 1, .rw, 0x0⟩
def F.HUB_HQ_CFG_ATTN_EN : Fld := ⟨.HUB_HQ_CFG, 62, 1, .rw, 0x0⟩
def F.HUB_HQ_CFG_PARTITION : Fld := ⟨.HUB_HQ_CFG, 59, 3, .rw, 0x0⟩
def F.HUB_HQ_CFG_SQ_LOG2 : Fld := ⟨.HUB_HQ_CFG, 55, 4, .rw, 0x4⟩
def F.HUB_HQ_CFG_CQ_LOG2 : Fld := ⟨.HUB_HQ_CFG, 51, 4, .rw, 0x4⟩
-- HUB_HQ_SQ_BASE: Table 18.5
def F.HUB_HQ_SQ_BASE_ADDR : Fld := ⟨.HUB_HQ_SQ_BASE, 0, 64, .rw, 0x0⟩
-- HUB_HQ_CQ_BASE: Table 18.5
def F.HUB_HQ_CQ_BASE_ADDR : Fld := ⟨.HUB_HQ_CQ_BASE, 0, 64, .rw, 0x0⟩
-- HUB_HQ_STATUS: Table 18.5
def F.HUB_HQ_STATUS_SQ_HEAD : Fld := ⟨.HUB_HQ_STATUS, 48, 16, .ro, 0x0⟩
def F.HUB_HQ_STATUS_CQ_TAIL : Fld := ⟨.HUB_HQ_STATUS, 32, 16, .ro, 0x0⟩
def F.HUB_HQ_STATUS_PHASE : Fld := ⟨.HUB_HQ_STATUS, 31, 1, .ro, 0x1⟩
-- HUB_HQ_SQ_TAIL: Table 18.5
def F.HUB_HQ_SQ_TAIL_TAIL : Fld := ⟨.HUB_HQ_SQ_TAIL, 0, 16, .wo, 0x0⟩
-- HUB_HQ_CQ_HEAD: Table 18.5
def F.HUB_HQ_CQ_HEAD_HEAD : Fld := ⟨.HUB_HQ_CQ_HEAD, 0, 16, .wo, 0x0⟩
-- EVT_HEAD: Table 16.3
def F.EVT_HEAD_SEQ : Fld := ⟨.EVT_HEAD, 0, 64, .ro, 0x1⟩
-- EVT_READ: Table 16.3
def F.EVT_READ_SEQ : Fld := ⟨.EVT_READ, 0, 64, .rw, 0x1⟩
-- EVT_WINDOW: Table 16.3
def F.EVT_WINDOW_WORD : Fld := ⟨.EVT_WINDOW, 0, 64, .ro, 0x0⟩
-- EVT_WINDOW_SRC: Table 16.3
def F.EVT_WINDOW_SRC_SOURCE : Fld := ⟨.EVT_WINDOW_SRC, 1, 2, .ro, 0x0⟩
def F.EVT_WINDOW_SRC_OLDER : Fld := ⟨.EVT_WINDOW_SRC, 0, 1, .ro, 0x0⟩
-- EVT_OVERWRITES: Table 16.3
def F.EVT_OVERWRITES_COUNT : Fld := ⟨.EVT_OVERWRITES, 0, 64, .ro, 0x0⟩
-- EVT_LOST: Table 16.3
def F.EVT_LOST_COUNT : Fld := ⟨.EVT_LOST, 0, 64, .ro, 0x0⟩
-- EVT_STATUS: Table 16.3
def F.EVT_STATUS_BANK0_LOST : Fld := ⟨.EVT_STATUS, 63, 1, .ro, 0x0⟩
def F.EVT_STATUS_BANK1_LOST : Fld := ⟨.EVT_STATUS, 62, 1, .ro, 0x0⟩
def F.EVT_STATUS_SPILL_ACTIVE : Fld := ⟨.EVT_STATUS, 61, 1, .ro, 0x0⟩
def F.EVT_STATUS_SPILL_LOST : Fld := ⟨.EVT_STATUS, 60, 1, .ro, 0x0⟩
-- EVT_ATTN_MASK: Table 16.3
def F.EVT_ATTN_MASK_CATEGORIES : Fld := ⟨.EVT_ATTN_MASK, 0, 17, .rw, 0x0⟩
-- EVT_SPILL_CFG: Table 16.3
def F.EVT_SPILL_CFG_ENABLE : Fld := ⟨.EVT_SPILL_CFG, 63, 1, .rw, 0x0⟩
def F.EVT_SPILL_CFG_BASE : Fld := ⟨.EVT_SPILL_CFG, 16, 32, .rw, 0x0⟩
def F.EVT_SPILL_CFG_SIZE : Fld := ⟨.EVT_SPILL_CFG, 0, 16, .rw, 0x0⟩
-- EVT_SPILL_PTR: Table 16.3
def F.EVT_SPILL_PTR_SEQ : Fld := ⟨.EVT_SPILL_PTR, 0, 64, .ro, 0x1⟩
-- SEC_DEFAULT_LOCK: Table 17.12
def F.SEC_DEFAULT_LOCK_FUSED : Fld := ⟨.SEC_DEFAULT_LOCK, 1, 1, .ro, 0x0⟩
def F.SEC_DEFAULT_LOCK_LOCKED : Fld := ⟨.SEC_DEFAULT_LOCK, 0, 1, .w1s, 0x0⟩
-- PWR_CAP: Table 19.5
def F.PWR_CAP_ENABLE : Fld := ⟨.PWR_CAP, 63, 1, .rw, 0x1⟩
def F.PWR_CAP_CAP_W : Fld := ⟨.PWR_CAP, 32, 16, .rw, 0x514⟩
def F.PWR_CAP_HYST_W : Fld := ⟨.PWR_CAP, 16, 16, .rw, 0x32⟩
-- PWR_STATUS: Table 19.5
def F.PWR_STATUS_POWER_W : Fld := ⟨.PWR_STATUS, 48, 16, .ro, 0x0⟩
def F.PWR_STATUS_TJ_MAX : Fld := ⟨.PWR_STATUS, 40, 8, .ro, 0x0⟩
def F.PWR_STATUS_THERMAL_KITS : Fld := ⟨.PWR_STATUS, 32, 8, .ro, 0x0⟩
def F.PWR_STATUS_CAP_UNMET : Fld := ⟨.PWR_STATUS, 27, 1, .w1c, 0x0⟩
def F.PWR_STATUS_FLOOR_OVER_CAP : Fld := ⟨.PWR_STATUS, 26, 1, .w1c, 0x0⟩
def F.PWR_STATUS_THERMAL_SEEN : Fld := ⟨.PWR_STATUS, 25, 1, .w1c, 0x0⟩
def F.PWR_STATUS_RAIL_FAULT : Fld := ⟨.PWR_STATUS, 24, 1, .w1c, 0x0⟩
-- PWR_KIT: Table 19.5
def F.PWR_KIT_STEP : Fld := ⟨.PWR_KIT, 59, 5, .ro, 0xF⟩
def F.PWR_KIT_TARGET : Fld := ⟨.PWR_KIT, 54, 5, .rw, 0xF⟩
def F.PWR_KIT_MIN_STEP : Fld := ⟨.PWR_KIT, 49, 5, .ro, 0x3⟩
def F.PWR_KIT_POWER_W : Fld := ⟨.PWR_KIT, 16, 16, .ro, 0x0⟩
-- PWR_ENERGY: Table 19.5
def F.PWR_ENERGY_MJ : Fld := ⟨.PWR_ENERGY, 0, 64, .ro, 0x0⟩
-- FAB_CONFIG: Table 11.2
def F.FAB_CONFIG_NODE : Fld := ⟨.FAB_CONFIG, 48, 16, .rw, 0x0⟩
def F.FAB_CONFIG_DEAD_BOUND_US : Fld := ⟨.FAB_CONFIG, 32, 8, .rw, 0x14⟩
-- FAB_PORT_CFG: Table 11.2
def F.FAB_PORT_CFG_ENABLE : Fld := ⟨.FAB_PORT_CFG, 63, 1, .rw, 0x1⟩
def F.FAB_PORT_CFG_MAX_WIDTH : Fld := ⟨.FAB_PORT_CFG, 61, 2, .rw, 0x0⟩
def F.FAB_PORT_CFG_GROUP : Fld := ⟨.FAB_PORT_CFG, 59, 2, .rw, 0x0⟩
-- FAB_PORT_STATUS: Table 11.2
def F.FAB_PORT_STATUS_UP : Fld := ⟨.FAB_PORT_STATUS, 63, 1, .ro, 0x0⟩
def F.FAB_PORT_STATUS_WIDTH : Fld := ⟨.FAB_PORT_STATUS, 61, 2, .ro, 0x0⟩
def F.FAB_PORT_STATUS_RETRAINS : Fld := ⟨.FAB_PORT_STATUS, 16, 16, .ro, 0x0⟩
def F.FAB_PORT_STATUS_LAST_DOWN : Fld := ⟨.FAB_PORT_STATUS, 0, 16, .ro, 0x0⟩
-- FAB_EXPORT_RED: Table 11.8
def F.FAB_EXPORT_RED_CHECK : Fld := ⟨.FAB_EXPORT_RED, 63, 1, .rw, 0x0⟩
def F.FAB_EXPORT_RED_ANCHOR : Fld := ⟨.FAB_EXPORT_RED, 0, 10, .rw, 0x0⟩
-- FAB_PEAL: Table 11.9
def F.FAB_PEAL_VALID : Fld := ⟨.FAB_PEAL, 63, 1, .rw, 0x0⟩
def F.FAB_PEAL_FGROUP : Fld := ⟨.FAB_PEAL, 47, 16, .rw, 0x0⟩
def F.FAB_PEAL_EXPORT : Fld := ⟨.FAB_PEAL, 39, 8, .rw, 0x0⟩
def F.FAB_PEAL_MEMBERS : Fld := ⟨.FAB_PEAL, 32, 7, .rw, 0x1⟩
-- FAB_GONG_CFG: Table 11.12
def F.FAB_GONG_CFG_LINE_ID : Fld := ⟨.FAB_GONG_CFG, 48, 16, .rw, 0x0⟩
def F.FAB_GONG_CFG_COUNTER : Fld := ⟨.FAB_GONG_CFG, 32, 16, .rw, 0x0⟩
def F.FAB_GONG_CFG_SOUND_GROUP : Fld := ⟨.FAB_GONG_CFG, 24, 8, .rw, 0x0⟩
-- FAB_FEC_CORRECTED: Table 11.14
def F.FAB_FEC_CORRECTED_COUNT : Fld := ⟨.FAB_FEC_CORRECTED, 0, 64, .rc, 0x0⟩
-- FAB_FRAME_RESENT: Table 11.14
def F.FAB_FRAME_RESENT_COUNT : Fld := ⟨.FAB_FRAME_RESENT, 0, 64, .rc, 0x0⟩
-- FAB_LINK_DOWN_COUNT: Table 11.14
def F.FAB_LINK_DOWN_COUNT_COUNT : Fld := ⟨.FAB_LINK_DOWN_COUNT, 0, 64, .rc, 0x0⟩
-- FAB_TARGET_DEAD_COUNT: Table 11.14
def F.FAB_TARGET_DEAD_COUNT_COUNT : Fld := ⟨.FAB_TARGET_DEAD_COUNT, 0, 64, .rc, 0x0⟩
-- FAB_LATE_ANSWER: Table 11.14
def F.FAB_LATE_ANSWER_COUNT : Fld := ⟨.FAB_LATE_ANSWER, 0, 64, .rc, 0x0⟩
-- FAB_REFUSED_OUT: Table 11.14
def F.FAB_REFUSED_OUT_COUNT : Fld := ⟨.FAB_REFUSED_OUT, 0, 64, .rc, 0x0⟩
-- FAB_REFUSED_IN: Table 11.14
def F.FAB_REFUSED_IN_COUNT : Fld := ⟨.FAB_REFUSED_IN, 0, 64, .rc, 0x0⟩
-- FAB_EGRESS_DROP: Table 11.14
def F.FAB_EGRESS_DROP_COUNT : Fld := ⟨.FAB_EGRESS_DROP, 0, 64, .rc, 0x0⟩
-- FAB_ROUTE_CHANGE: Table 11.14
def F.FAB_ROUTE_CHANGE_COUNT : Fld := ⟨.FAB_ROUTE_CHANGE, 0, 64, .rc, 0x0⟩
-- FAB_TAINT_IN: Table 11.14
def F.FAB_TAINT_IN_COUNT : Fld := ⟨.FAB_TAINT_IN, 0, 64, .rc, 0x0⟩
-- FAB_EGRESS: Table 11.10
def F.FAB_EGRESS_VALID : Fld := ⟨.FAB_EGRESS, 63, 1, .rw, 0x0⟩
def F.FAB_EGRESS_ADAPTIVE : Fld := ⟨.FAB_EGRESS, 62, 1, .rw, 0x0⟩
def F.FAB_EGRESS_SEED_PORT : Fld := ⟨.FAB_EGRESS, 57, 5, .rw, 0x0⟩
def F.FAB_EGRESS_ALT_PORT : Fld := ⟨.FAB_EGRESS, 52, 5, .rw, 0x0⟩
def F.FAB_EGRESS_ALT_VALID : Fld := ⟨.FAB_EGRESS, 51, 1, .rw, 0x0⟩
def F.FAB_EGRESS_PORT : Fld := ⟨.FAB_EGRESS, 43, 5, .ro, 0x0⟩
def F.FAB_EGRESS_LEARNED_ALT : Fld := ⟨.FAB_EGRESS, 38, 5, .ro, 0x0⟩
def F.FAB_EGRESS_LEARNED_ALT_VALID : Fld := ⟨.FAB_EGRESS, 37, 1, .ro, 0x0⟩
def F.FAB_EGRESS_STATE : Fld := ⟨.FAB_EGRESS, 34, 3, .ro, 0x0⟩
-- MEM_SPAN_CTL: Table 8.4
def F.MEM_SPAN_CTL_VALID : Fld := ⟨.MEM_SPAN_CTL, 63, 1, .rw, 0x0⟩
def F.MEM_SPAN_CTL_KIND : Fld := ⟨.MEM_SPAN_CTL, 60, 3, .rw, 0x0⟩
def F.MEM_SPAN_CTL_RIGHTS : Fld := ⟨.MEM_SPAN_CTL, 56, 4, .rw, 0x0⟩
def F.MEM_SPAN_CTL_DISCARD_ON_REMOVE : Fld := ⟨.MEM_SPAN_CTL, 55, 1, .rw, 0x0⟩
def F.MEM_SPAN_CTL_OWNER : Fld := ⟨.MEM_SPAN_CTL, 40, 12, .rw, 0x0⟩
def F.MEM_SPAN_CTL_LENGTH_M1 : Fld := ⟨.MEM_SPAN_CTL, 0, 40, .rw, 0x0⟩
-- MEM_SPAN_BASE: Table 8.4
def F.MEM_SPAN_BASE_BASE : Fld := ⟨.MEM_SPAN_BASE, 0, 48, .rw, 0x0⟩
-- MEM_HUB_RANGE: Table 8.4
def F.MEM_HUB_RANGE_VALID : Fld := ⟨.MEM_HUB_RANGE, 63, 1, .rw, 0x0⟩
def F.MEM_HUB_RANGE_FIRST : Fld := ⟨.MEM_HUB_RANGE, 16, 10, .rw, 0x0⟩
def F.MEM_HUB_RANGE_COUNT : Fld := ⟨.MEM_HUB_RANGE, 0, 10, .rw, 0x0⟩
-- MEM_EXTENT_TGT: Table 8.5
def F.MEM_EXTENT_TGT_NODE : Fld := ⟨.MEM_EXTENT_TGT, 48, 16, .rw, 0x0⟩
def F.MEM_EXTENT_TGT_EXPORT : Fld := ⟨.MEM_EXTENT_TGT, 40, 8, .rw, 0x0⟩
def F.MEM_EXTENT_TGT_OFFSET : Fld := ⟨.MEM_EXTENT_TGT, 0, 40, .rw, 0x0⟩
-- MEM_EXTENT_LEN: Table 8.5
def F.MEM_EXTENT_LEN_LEN_M1 : Fld := ⟨.MEM_EXTENT_LEN, 0, 28, .rw, 0x0⟩
-- MEM_EXPORT_CTL: Table 8.8
def F.MEM_EXPORT_CTL_VALID : Fld := ⟨.MEM_EXPORT_CTL, 63, 1, .rw, 0x0⟩
def F.MEM_EXPORT_CTL_KIND : Fld := ⟨.MEM_EXPORT_CTL, 61, 2, .rw, 0x0⟩
def F.MEM_EXPORT_CTL_RIGHTS : Fld := ⟨.MEM_EXPORT_CTL, 57, 4, .rw, 0x0⟩
def F.MEM_EXPORT_CTL_PARTITION : Fld := ⟨.MEM_EXPORT_CTL, 54, 3, .rw, 0x0⟩
def F.MEM_EXPORT_CTL_SPAN : Fld := ⟨.MEM_EXPORT_CTL, 48, 6, .rw, 0x0⟩
def F.MEM_EXPORT_CTL_PEER_MATCH : Fld := ⟨.MEM_EXPORT_CTL, 32, 16, .rw, 0x0⟩
def F.MEM_EXPORT_CTL_PEER_MASK : Fld := ⟨.MEM_EXPORT_CTL, 16, 16, .rw, 0x0⟩
def F.MEM_EXPORT_CTL_CHARGE : Fld := ⟨.MEM_EXPORT_CTL, 4, 12, .rw, 0x0⟩
-- MEM_EXPORT_RANGE: Table 8.8
def F.MEM_EXPORT_RANGE_LEN_M1 : Fld := ⟨.MEM_EXPORT_RANGE, 40, 24, .rw, 0x0⟩
def F.MEM_EXPORT_RANGE_BASE : Fld := ⟨.MEM_EXPORT_RANGE, 16, 24, .rw, 0x0⟩
-- MEM_QUOTA: Table 8.10
def F.MEM_QUOTA_LIMIT : Fld := ⟨.MEM_QUOTA, 32, 32, .rw, 0xFFFFFFFF⟩
def F.MEM_QUOTA_USED : Fld := ⟨.MEM_QUOTA, 0, 32, .ro, 0x0⟩
-- MEM_PART_QUOTA: Table 8.10
def F.MEM_PART_QUOTA_LIMIT : Fld := ⟨.MEM_PART_QUOTA, 32, 32, .rw, 0xFFFFFFFF⟩
def F.MEM_PART_QUOTA_USED : Fld := ⟨.MEM_PART_QUOTA, 0, 32, .ro, 0x0⟩
-- MEM_PART_CHARGE: Table 8.10
def F.MEM_PART_CHARGE_SUBSCRIBER : Fld := ⟨.MEM_PART_CHARGE, 0, 12, .rw, 0x0⟩
-- MEM_ACCT: R276
def F.MEM_ACCT_COUNT : Fld := ⟨.MEM_ACCT, 0, 64, .ro, 0x0⟩
-- MEM_ACCT_SAT: R276
def F.MEM_ACCT_SAT_SAT : Fld := ⟨.MEM_ACCT_SAT, 0, 16, .w1c, 0x0⟩
-- MEM_ACCT_LATCH: R277
def F.MEM_ACCT_LATCH_SUBSCRIBER : Fld := ⟨.MEM_ACCT_LATCH, 0, 12, .wo, 0x0⟩
-- MEM_ACCT_SNAP: R276
def F.MEM_ACCT_SNAP_COUNT : Fld := ⟨.MEM_ACCT_SNAP, 0, 64, .ro, 0x0⟩
-- MEM_DISCARD: Table 8.12
def F.MEM_DISCARD_COUNT_M1 : Fld := ⟨.MEM_DISCARD, 40, 24, .wo, 0x0⟩
def F.MEM_DISCARD_PAGE : Fld := ⟨.MEM_DISCARD, 12, 28, .wo, 0x0⟩
-- MEM_DISCARD_RESULT: Table 8.12
def F.MEM_DISCARD_RESULT_DONE : Fld := ⟨.MEM_DISCARD_RESULT, 63, 1, .ro, 0x1⟩
def F.MEM_DISCARD_RESULT_OVERRUN : Fld := ⟨.MEM_DISCARD_RESULT, 62, 1, .w1c, 0x0⟩
def F.MEM_DISCARD_RESULT_CODE : Fld := ⟨.MEM_DISCARD_RESULT, 0, 8, .ro, 0x0⟩
-- FLS_CONFIG: Table 8.14
def F.FLS_CONFIG_ENABLE : Fld := ⟨.FLS_CONFIG, 63, 1, .rw, 0x0⟩
def F.FLS_CONFIG_LOGICAL_UNITS : Fld := ⟨.FLS_CONFIG, 33, 30, .rw, 0x0⟩
-- FLS_MAP_BASE: Table 8.14
def F.FLS_MAP_BASE_BASE : Fld := ⟨.FLS_MAP_BASE, 0, 48, .rw, 0x0⟩
-- FLS_MAINT: Table 8.14
def F.FLS_MAINT_RD_THRESH : Fld := ⟨.FLS_MAINT, 40, 24, .rw, 0x60⟩
def F.FLS_MAINT_RD_GRACE : Fld := ⟨.FLS_MAINT, 24, 16, .rw, 0xA⟩
def F.FLS_MAINT_WEAR_SPREAD : Fld := ⟨.FLS_MAINT, 12, 12, .rw, 0xC8⟩
def F.FLS_MAINT_FREE_LOW : Fld := ⟨.FLS_MAINT, 0, 12, .rw, 0x40⟩
-- FLS_STATUS: Table 8.14
def F.FLS_STATUS_READY : Fld := ⟨.FLS_STATUS, 63, 1, .ro, 0x0⟩
def F.FLS_STATUS_WRITE_LOCK : Fld := ⟨.FLS_STATUS, 62, 1, .ro, 0x0⟩
def F.FLS_STATUS_TR_US : Fld := ⟨.FLS_STATUS, 32, 16, .ro, 0x0⟩
def F.FLS_STATUS_RETIRED_BLOCKS : Fld := ⟨.FLS_STATUS, 16, 16, .ro, 0x0⟩
def F.FLS_STATUS_RELOC_PENDING : Fld := ⟨.FLS_STATUS, 0, 16, .ro, 0x0⟩
-- FLS_APERTURE: Table 8.14
def F.FLS_APERTURE_VALID : Fld := ⟨.FLS_APERTURE, 63, 1, .rw, 0x0⟩
def F.FLS_APERTURE_PARTITION : Fld := ⟨.FLS_APERTURE, 60, 3, .rw, 0x0⟩
def F.FLS_APERTURE_LBASE : Fld := ⟨.FLS_APERTURE, 0, 14, .rw, 0x0⟩
-- INT_SCRUB_CFG: Table 14.4
def F.INT_SCRUB_CFG_ENABLE : Fld := ⟨.INT_SCRUB_CFG, 63, 1, .rw, 0x1⟩
def F.INT_SCRUB_CFG_RATE : Fld := ⟨.INT_SCRUB_CFG, 32, 16, .rw, 0x20⟩
def F.INT_SCRUB_CFG_OVERDUE_H : Fld := ⟨.INT_SCRUB_CFG, 16, 16, .rw, 0x18⟩
def F.INT_SCRUB_CFG_CE_LIMIT : Fld := ⟨.INT_SCRUB_CFG, 8, 8, .rw, 0x40⟩
-- INT_SCRUB_LAP: Table 14.4
def F.INT_SCRUB_LAP_LAP_MS : Fld := ⟨.INT_SCRUB_LAP, 32, 32, .ro, 0x0⟩
def F.INT_SCRUB_LAP_LAP_COUNT : Fld := ⟨.INT_SCRUB_LAP, 0, 32, .ro, 0x0⟩
-- INT_SCRUB_STATUS: Table 14.4
def F.INT_SCRUB_STATUS_ELAPSED_MS : Fld := ⟨.INT_SCRUB_STATUS, 32, 32, .ro, 0x0⟩
def F.INT_SCRUB_STATUS_LAP_SAT : Fld := ⟨.INT_SCRUB_STATUS, 2, 1, .w1c, 0x0⟩
def F.INT_SCRUB_STATUS_OVERDUE : Fld := ⟨.INT_SCRUB_STATUS, 1, 1, .ro, 0x0⟩
def F.INT_SCRUB_STATUS_RUNNING : Fld := ⟨.INT_SCRUB_STATUS, 0, 1, .ro, 0x0⟩
-- INT_SCHECK: Table 14.7
def F.INT_SCHECK_KIND : Fld := ⟨.INT_SCHECK, 61, 3, .wo, 0x0⟩
def F.INT_SCHECK_UNIT : Fld := ⟨.INT_SCHECK, 37, 24, .wo, 0x0⟩
def F.INT_SCHECK_PARTNER : Fld := ⟨.INT_SCHECK, 13, 24, .wo, 0x0⟩
-- INT_SCHECK_SEED: Table 14.7
def F.INT_SCHECK_SEED_SEED : Fld := ⟨.INT_SCHECK_SEED, 0, 64, .rw, 0x0⟩
-- INT_SCHECK_RESULT: Table 14.7
def F.INT_SCHECK_RESULT_DONE : Fld := ⟨.INT_SCHECK_RESULT, 63, 1, .ro, 0x1⟩
def F.INT_SCHECK_RESULT_REFEREE : Fld := ⟨.INT_SCHECK_RESULT, 24, 24, .ro, 0x0⟩
def F.INT_SCHECK_RESULT_CODE : Fld := ⟨.INT_SCHECK_RESULT, 0, 8, .ro, 0x0⟩
-- INT_OBS_CFG: Table 14.8
def F.INT_OBS_CFG_PERIOD_S : Fld := ⟨.INT_OBS_CFG, 38, 10, .rw, 0xA⟩
def F.INT_OBS_CFG_CLEAR_PASSES : Fld := ⟨.INT_OBS_CFG, 30, 8, .rw, 0x10⟩
def F.INT_OBS_CFG_FORCE_S : Fld := ⟨.INT_OBS_CFG, 20, 10, .rw, 0x3C⟩
-- INT_OBS: Table 14.8
def F.INT_OBS_VALID : Fld := ⟨.INT_OBS, 63, 1, .ro, 0x0⟩
def F.INT_OBS_REASON : Fld := ⟨.INT_OBS, 48, 8, .ro, 0x0⟩
def F.INT_OBS_PASSES : Fld := ⟨.INT_OBS, 40, 8, .ro, 0x0⟩
def F.INT_OBS_UNRESOLVED : Fld := ⟨.INT_OBS, 32, 8, .ro, 0x0⟩
def F.INT_OBS_UNIT : Fld := ⟨.INT_OBS, 0, 24, .ro, 0x0⟩
-- INT_OBS_FROM: Table 14.8
def F.INT_OBS_FROM_SUSPECT_FROM : Fld := ⟨.INT_OBS_FROM, 0, 64, .ro, 0x0⟩
-- INT_OBS_ADD: Table 14.8
def F.INT_OBS_ADD_REASON : Fld := ⟨.INT_OBS_ADD, 56, 8, .wo, 0x0⟩
def F.INT_OBS_ADD_UNIT : Fld := ⟨.INT_OBS_ADD, 0, 24, .wo, 0x0⟩
-- INT_JOURNAL: Table 14.11
def F.INT_JOURNAL_ENABLE : Fld := ⟨.INT_JOURNAL, 63, 1, .rw, 0x0⟩
def F.INT_JOURNAL_BASE : Fld := ⟨.INT_JOURNAL, 16, 32, .rw, 0x0⟩
def F.INT_JOURNAL_SIZE : Fld := ⟨.INT_JOURNAL, 0, 16, .rw, 0x0⟩
-- INT_ECC: Table 14.12
def F.INT_ECC_CE : Fld := ⟨.INT_ECC, 32, 32, .rc, 0x0⟩
def F.INT_ECC_UE : Fld := ⟨.INT_ECC, 0, 32, .rc, 0x0⟩
-- INT_PARITY: Table 14.12
def F.INT_PARITY_COUNT : Fld := ⟨.INT_PARITY, 0, 64, .rc, 0x0⟩
-- INT_CHECKS: Table 14.12
def F.INT_CHECKS_COUNT : Fld := ⟨.INT_CHECKS, 0, 64, .rc, 0x0⟩
-- INT_CONFIRMED: Table 14.12
def F.INT_CONFIRMED_COUNT : Fld := ⟨.INT_CONFIRMED, 0, 64, .rc, 0x0⟩
-- INT_TAINT_SENT: Table 14.12
def F.INT_TAINT_SENT_COUNT : Fld := ⟨.INT_TAINT_SENT, 0, 64, .rc, 0x0⟩
-- INT_TAINT_LOCAL: Table 14.12
def F.INT_TAINT_LOCAL_COUNT : Fld := ⟨.INT_TAINT_LOCAL, 0, 64, .rc, 0x0⟩
-- INT_HUB_BAD: Table 14.12
def F.INT_HUB_BAD_GRANULES : Fld := ⟨.INT_HUB_BAD, 0, 64, .ro, 0x0⟩
-- PAR_CONFIG: Table 13.1
def F.PAR_CONFIG_ENABLE : Fld := ⟨.PAR_CONFIG, 63, 1, .rw, 0x0⟩
def F.PAR_CONFIG_MODE : Fld := ⟨.PAR_CONFIG, 62, 1, .rw, 0x0⟩
def F.PAR_CONFIG_GUEST : Fld := ⟨.PAR_CONFIG, 61, 1, .rw, 0x0⟩
def F.PAR_CONFIG_HOST : Fld := ⟨.PAR_CONFIG, 58, 3, .rw, 0x0⟩
def F.PAR_CONFIG_KIT_MASK : Fld := ⟨.PAR_CONFIG, 50, 8, .rw, 0x0⟩
def F.PAR_CONFIG_ROLES : Fld := ⟨.PAR_CONFIG, 32, 16, .rw, 0x0⟩
-- PAR_LEND: Table 13.2
def F.PAR_LEND_VALID : Fld := ⟨.PAR_LEND, 63, 1, .rw, 0x0⟩
def F.PAR_LEND_BASE : Fld := ⟨.PAR_LEND, 20, 20, .rw, 0x0⟩
def F.PAR_LEND_COUNT : Fld := ⟨.PAR_LEND, 0, 20, .rw, 0x0⟩
-- PAR_REG: Table 13.4
def F.PAR_REG_GUARANTEE : Fld := ⟨.PAR_REG, 32, 32, .rw, 0x0⟩
def F.PAR_REG_CAP : Fld := ⟨.PAR_REG, 0, 32, .rw, 0xFFFFFFFF⟩
-- PAR_REG_STATUS: Table 13.5
def F.PAR_REG_STATUS_SHORT : Fld := ⟨.PAR_REG_STATUS, 57, 7, .w1c, 0x0⟩
-- PAR_REG_STAT: Table 13.5
def F.PAR_REG_STAT_LAST : Fld := ⟨.PAR_REG_STAT, 32, 32, .ro, 0x0⟩
def F.PAR_REG_STAT_DEFERRED : Fld := ⟨.PAR_REG_STAT, 0, 32, .rc, 0x0⟩
-- PAR_LIVESET: Table 13.6
def F.PAR_LIVESET_VALID : Fld := ⟨.PAR_LIVESET, 63, 1, .rw, 0x0⟩
def F.PAR_LIVESET_COUNT : Fld := ⟨.PAR_LIVESET, 32, 12, .rw, 0x0⟩
def F.PAR_LIVESET_BASE : Fld := ⟨.PAR_LIVESET, 0, 20, .rw, 0x0⟩
-- PAR_SAVE: Table 13.8
def F.PAR_SAVE_VALID : Fld := ⟨.PAR_SAVE, 63, 1, .rw, 0x0⟩
def F.PAR_SAVE_SPAN : Fld := ⟨.PAR_SAVE, 48, 6, .rw, 0x0⟩
def F.PAR_SAVE_OFFSET : Fld := ⟨.PAR_SAVE, 24, 24, .rw, 0x0⟩
def F.PAR_SAVE_LENGTH : Fld := ⟨.PAR_SAVE, 0, 24, .rw, 0x0⟩
-- PAR_PREEMPT: Table 13.10
def F.PAR_PREEMPT_OP : Fld := ⟨.PAR_PREEMPT, 60, 4, .wo, 0x0⟩
def F.PAR_PREEMPT_PARTITION : Fld := ⟨.PAR_PREEMPT, 57, 3, .wo, 0x0⟩
def F.PAR_PREEMPT_GUEST : Fld := ⟨.PAR_PREEMPT, 54, 3, .wo, 0x0⟩
def F.PAR_PREEMPT_LEND : Fld := ⟨.PAR_PREEMPT, 53, 1, .wo, 0x0⟩
def F.PAR_PREEMPT_WAIT : Fld := ⟨.PAR_PREEMPT, 52, 1, .wo, 0x0⟩
-- PAR_PREEMPT_RESULT: Table 13.10
def F.PAR_PREEMPT_RESULT_DONE : Fld := ⟨.PAR_PREEMPT_RESULT, 63, 1, .ro, 0x1⟩
def F.PAR_PREEMPT_RESULT_IMAGE_BYTES : Fld := ⟨.PAR_PREEMPT_RESULT, 8, 40, .ro, 0x0⟩
def F.PAR_PREEMPT_RESULT_CODE : Fld := ⟨.PAR_PREEMPT_RESULT, 0, 8, .ro, 0x0⟩
-- PAR_PREEMPT_STATUS: Table 13.13
def F.PAR_PREEMPT_STATUS_PHASE : Fld := ⟨.PAR_PREEMPT_STATUS, 61, 3, .ro, 0x0⟩
def F.PAR_PREEMPT_STATUS_GUEST : Fld := ⟨.PAR_PREEMPT_STATUS, 58, 3, .ro, 0x0⟩
def F.PAR_PREEMPT_STATUS_KIT_LOST : Fld := ⟨.PAR_PREEMPT_STATUS, 57, 1, .ro, 0x0⟩
def F.PAR_PREEMPT_STATUS_SAVE_US : Fld := ⟨.PAR_PREEMPT_STATUS, 40, 17, .ro, 0x0⟩
def F.PAR_PREEMPT_STATUS_IMAGE_BYTES : Fld := ⟨.PAR_PREEMPT_STATUS, 0, 40, .ro, 0x0⟩
-- PAR_STEP_BUDGET: Table 4.9
def F.PAR_STEP_BUDGET_HS_BOUND : Fld := ⟨.PAR_STEP_BUDGET, 32, 32, .rw, 0x0⟩
def F.PAR_STEP_BUDGET_STALL_NS : Fld := ⟨.PAR_STEP_BUDGET, 0, 32, .rw, 0x0⟩
-- PAR_STEP_WATCHDOG: Table 4.9
def F.PAR_STEP_WATCHDOG_GRACE_US : Fld := ⟨.PAR_STEP_WATCHDOG, 48, 16, .rw, 0x64⟩
def F.PAR_STEP_WATCHDOG_JOB_LIMIT_MS : Fld := ⟨.PAR_STEP_WATCHDOG, 16, 32, .rw, 0x0⟩
def F.PAR_STEP_WATCHDOG_DEADLINE_EN : Fld := ⟨.PAR_STEP_WATCHDOG, 1, 1, .rw, 0x1⟩
def F.PAR_STEP_WATCHDOG_WATCHDOG_EN : Fld := ⟨.PAR_STEP_WATCHDOG, 0, 1, .rw, 0x1⟩
-- PAR_STEP_DEADLINE: Table 4.9
def F.PAR_STEP_DEADLINE_D_NS : Fld := ⟨.PAR_STEP_DEADLINE, 0, 64, .ro, 0x0⟩
-- PAR_STEP_STATUS: Table 4.11
def F.PAR_STEP_STATUS_RESIDENT_US : Fld := ⟨.PAR_STEP_STATUS, 32, 32, .ro, 0x0⟩
def F.PAR_STEP_STATUS_STATE : Fld := ⟨.PAR_STEP_STATUS, 4, 2, .ro, 0x0⟩
def F.PAR_STEP_STATUS_BELOW_FLOOR_SEEN : Fld := ⟨.PAR_STEP_STATUS, 3, 1, .w1c, 0x0⟩
def F.PAR_STEP_STATUS_CALIB_FORCED : Fld := ⟨.PAR_STEP_STATUS, 2, 1, .w1c, 0x0⟩
def F.PAR_STEP_STATUS_DEADLINE_MISSED : Fld := ⟨.PAR_STEP_STATUS, 1, 1, .w1c, 0x0⟩
def F.PAR_STEP_STATUS_WATCHDOG_FIRED : Fld := ⟨.PAR_STEP_STATUS, 0, 1, .w1c, 0x0⟩
-- PAR_STEP_SEQ: R406
def F.PAR_STEP_SEQ_SEQ : Fld := ⟨.PAR_STEP_SEQ, 0, 64, .ro, 0x0⟩
-- PAR_GONG_LINE: Table 4.7
def F.PAR_GONG_LINE_ENABLE : Fld := ⟨.PAR_GONG_LINE, 63, 1, .rw, 0x0⟩
def F.PAR_GONG_LINE_KIND : Fld := ⟨.PAR_GONG_LINE, 62, 1, .rw, 0x0⟩
def F.PAR_GONG_LINE_SCOPE : Fld := ⟨.PAR_GONG_LINE, 61, 1, .rw, 0x0⟩
def F.PAR_GONG_LINE_ARRIVED : Fld := ⟨.PAR_GONG_LINE, 32, 24, .ro, 0x0⟩
def F.PAR_GONG_LINE_EXPECTED : Fld := ⟨.PAR_GONG_LINE, 8, 24, .rw, 0x1⟩
def F.PAR_GONG_LINE_PHASE : Fld := ⟨.PAR_GONG_LINE, 0, 1, .ro, 0x0⟩
-- PAR_SIJ_CFG: Table 15.1
def F.PAR_SIJ_CFG_ENABLE : Fld := ⟨.PAR_SIJ_CFG, 63, 1, .rw, 0x0⟩
def F.PAR_SIJ_CFG_REPLAYABLE : Fld := ⟨.PAR_SIJ_CFG, 62, 1, .rw, 0x0⟩
def F.PAR_SIJ_CFG_JKIT : Fld := ⟨.PAR_SIJ_CFG, 59, 3, .rw, 0x0⟩
def F.PAR_SIJ_CFG_BASE : Fld := ⟨.PAR_SIJ_CFG, 30, 20, .rw, 0x0⟩
def F.PAR_SIJ_CFG_STRIDE : Fld := ⟨.PAR_SIJ_CFG, 14, 16, .rw, 0x9⟩
-- PAR_SIJ_IN: Table 15.1
def F.PAR_SIJ_IN_VALID : Fld := ⟨.PAR_SIJ_IN, 63, 1, .rw, 0x0⟩
def F.PAR_SIJ_IN_ADDR : Fld := ⟨.PAR_SIJ_IN, 0, 46, .rw, 0x0⟩
-- PAR_SIJ_LEN: Table 15.1
def F.PAR_SIJ_LEN_LEN64 : Fld := ⟨.PAR_SIJ_LEN, 0, 15, .rw, 0x0⟩
-- PAR_REPLAY: Table 15.3
def F.PAR_REPLAY_PARTITION : Fld := ⟨.PAR_REPLAY, 61, 3, .wo, 0x0⟩
def F.PAR_REPLAY_SEQ : Fld := ⟨.PAR_REPLAY, 0, 32, .wo, 0x0⟩
-- PAR_REPLAY_RESULT: Table 15.3
def F.PAR_REPLAY_RESULT_DONE : Fld := ⟨.PAR_REPLAY_RESULT, 63, 1, .ro, 0x1⟩
def F.PAR_REPLAY_RESULT_CODE : Fld := ⟨.PAR_REPLAY_RESULT, 0, 8, .ro, 0x0⟩
-- PAR_PAIR_HOLD: Table 15.11
def F.PAR_PAIR_HOLD_VALID : Fld := ⟨.PAR_PAIR_HOLD, 63, 1, .rw, 0x0⟩
def F.PAR_PAIR_HOLD_HKIT : Fld := ⟨.PAR_PAIR_HOLD, 60, 3, .rw, 0x0⟩
def F.PAR_PAIR_HOLD_BASE : Fld := ⟨.PAR_PAIR_HOLD, 24, 20, .rw, 0x0⟩
def F.PAR_PAIR_HOLD_SIZE : Fld := ⟨.PAR_PAIR_HOLD, 0, 16, .rw, 0x0⟩
-- TRN_QUEUE_CFG: Table 9.1
def F.TRN_QUEUE_CFG_ENABLE : Fld := ⟨.TRN_QUEUE_CFG, 63, 1, .rw, 0x0⟩
def F.TRN_QUEUE_CFG_MALLET : Fld := ⟨.TRN_QUEUE_CFG, 62, 1, .rw, 0x0⟩
def F.TRN_QUEUE_CFG_CLASS_MIN : Fld := ⟨.TRN_QUEUE_CFG, 60, 2, .rw, 0x0⟩
def F.TRN_QUEUE_CFG_LOG2_DEPTH : Fld := ⟨.TRN_QUEUE_CFG, 56, 4, .rw, 0x4⟩
def F.TRN_QUEUE_CFG_BASE : Fld := ⟨.TRN_QUEUE_CFG, 36, 20, .rw, 0x0⟩
-- TRN_QUEUE_PTR: Table 9.1
def F.TRN_QUEUE_PTR_HEAD : Fld := ⟨.TRN_QUEUE_PTR, 32, 32, .ro, 0x0⟩
def F.TRN_QUEUE_PTR_TAIL : Fld := ⟨.TRN_QUEUE_PTR, 0, 32, .ro, 0x0⟩
-- TRN_PART_DEFAULT: Table 9.1
def F.TRN_PART_DEFAULT_SUBSCRIBER : Fld := ⟨.TRN_PART_DEFAULT, 52, 12, .rw, 0x0⟩
def F.TRN_PART_DEFAULT_SERVICE : Fld := ⟨.TRN_PART_DEFAULT, 44, 8, .rw, 0x0⟩
def F.TRN_PART_DEFAULT_CLASS : Fld := ⟨.TRN_PART_DEFAULT, 42, 2, .rw, 0x0⟩
-- TRN_SUBMIT: Table 9.2
def F.TRN_SUBMIT_PARTITION : Fld := ⟨.TRN_SUBMIT, 61, 3, .wo, 0x0⟩
def F.TRN_SUBMIT_QUEUE : Fld := ⟨.TRN_SUBMIT, 58, 3, .wo, 0x0⟩
def F.TRN_SUBMIT_ADDR : Fld := ⟨.TRN_SUBMIT, 0, 48, .wo, 0x0⟩
-- TRN_SUBMIT_RESULT: Table 9.2
def F.TRN_SUBMIT_RESULT_DONE : Fld := ⟨.TRN_SUBMIT_RESULT, 63, 1, .ro, 0x1⟩
def F.TRN_SUBMIT_RESULT_CODE : Fld := ⟨.TRN_SUBMIT_RESULT, 32, 8, .ro, 0x0⟩
def F.TRN_SUBMIT_RESULT_SEQ : Fld := ⟨.TRN_SUBMIT_RESULT, 0, 32, .ro, 0x0⟩
-- TRN_ABORT: Table 9.8
def F.TRN_ABORT_PARTITION : Fld := ⟨.TRN_ABORT, 61, 3, .wo, 0x0⟩
def F.TRN_ABORT_QUEUE : Fld := ⟨.TRN_ABORT, 58, 3, .wo, 0x0⟩
def F.TRN_ABORT_SEQ : Fld := ⟨.TRN_ABORT, 0, 32, .wo, 0x0⟩
-- TRN_ABORT_RESULT: Table 9.8
def F.TRN_ABORT_RESULT_DONE : Fld := ⟨.TRN_ABORT_RESULT, 63, 1, .ro, 0x1⟩
def F.TRN_ABORT_RESULT_CODE : Fld := ⟨.TRN_ABORT_RESULT, 0, 8, .ro, 0x0⟩
-- TRN_SUB_CFG: Table 9.9
def F.TRN_SUB_CFG_PART_MASK : Fld := ⟨.TRN_SUB_CFG, 56, 8, .rw, 0x0⟩
-- TRN_SUB_POLICE: Table 9.9
def F.TRN_SUB_POLICE_RATE : Fld := ⟨.TRN_SUB_POLICE, 40, 24, .rw, 0x0⟩
def F.TRN_SUB_POLICE_BURST : Fld := ⟨.TRN_SUB_POLICE, 24, 16, .rw, 0x0⟩
-- TRN_SUB_SHAPE: Table 9.9
def F.TRN_SUB_SHAPE_RATE : Fld := ⟨.TRN_SUB_SHAPE, 48, 16, .rw, 0x0⟩
-- TRN_SERVICE_DRR: Table 9.9
def F.TRN_SERVICE_DRR_QUANTUM : Fld := ⟨.TRN_SERVICE_DRR, 52, 12, .rw, 0x10⟩
-- TRN_PARCELS: Table 9.11
def F.TRN_PARCELS_COUNT : Fld := ⟨.TRN_PARCELS, 0, 64, .rc, 0x0⟩
-- TRN_BYTES_RAW: Table 9.11
def F.TRN_BYTES_RAW_COUNT : Fld := ⟨.TRN_BYTES_RAW, 0, 64, .rc, 0x0⟩
-- TRN_BYTES_WIRE: Table 9.11
def F.TRN_BYTES_WIRE_COUNT : Fld := ⟨.TRN_BYTES_WIRE, 0, 64, .rc, 0x0⟩
-- TRN_DEFERRED: Table 9.11
def F.TRN_DEFERRED_COUNT : Fld := ⟨.TRN_DEFERRED, 0, 64, .rc, 0x0⟩
-- TRN_SPLIT: Table 9.11
def F.TRN_SPLIT_COUNT : Fld := ⟨.TRN_SPLIT, 0, 64, .rc, 0x0⟩
-- TRN_POLICED_PARCELS: Table 9.11
def F.TRN_POLICED_PARCELS_COUNT : Fld := ⟨.TRN_POLICED_PARCELS, 0, 64, .rc, 0x0⟩
-- TRN_WHEEL_FAR: Table 9.11
def F.TRN_WHEEL_FAR_COUNT : Fld := ⟨.TRN_WHEEL_FAR, 0, 64, .rc, 0x0⟩
-- TRN_RX_FULL: Table 9.11
def F.TRN_RX_FULL_COUNT : Fld := ⟨.TRN_RX_FULL, 0, 64, .rc, 0x0⟩
-- TRN_RX_INCOMPLETE: Table 9.11
def F.TRN_RX_INCOMPLETE_COUNT : Fld := ⟨.TRN_RX_INCOMPLETE, 0, 64, .rc, 0x0⟩
-- CDC_PART_CFG: Table 10.1
def F.CDC_PART_CFG_UNIT_MASK : Fld := ⟨.CDC_PART_CFG, 56, 8, .rw, 0xFF⟩
def F.CDC_PART_CFG_WEIGHT_DFMT : Fld := ⟨.CDC_PART_CFG, 52, 4, .rw, 0x0⟩
def F.CDC_PART_CFG_KV_DFMT : Fld := ⟨.CDC_PART_CFG, 48, 4, .rw, 0x0⟩
def F.CDC_PART_CFG_KV_STRIDE : Fld := ⟨.CDC_PART_CFG, 42, 6, .rw, 0x0⟩
def F.CDC_PART_CFG_REF_ID : Fld := ⟨.CDC_PART_CFG, 38, 4, .rw, 0x0⟩
def F.CDC_PART_CFG_FORCE_CHECKED : Fld := ⟨.CDC_PART_CFG, 37, 1, .rw, 0x0⟩
-- CDC_REF: Table 10.2
def F.CDC_REF_VALID : Fld := ⟨.CDC_REF, 63, 1, .rw, 0x0⟩
def F.CDC_REF_PARTITION : Fld := ⟨.CDC_REF, 60, 3, .rw, 0x0⟩
def F.CDC_REF_SPAN : Fld := ⟨.CDC_REF, 54, 6, .rw, 0x0⟩
-- CDC_BLOCKS_CODED: Table 10.8
def F.CDC_BLOCKS_CODED_COUNT : Fld := ⟨.CDC_BLOCKS_CODED, 0, 64, .rc, 0x0⟩
-- CDC_BLOCKS_RAW: Table 10.8
def F.CDC_BLOCKS_RAW_COUNT : Fld := ⟨.CDC_BLOCKS_RAW, 0, 64, .rc, 0x0⟩
-- CDC_RAW_BYTES: Table 10.8
def F.CDC_RAW_BYTES_COUNT : Fld := ⟨.CDC_RAW_BYTES, 0, 64, .rc, 0x0⟩
-- CDC_STREAM_BYTES: Table 10.8
def F.CDC_STREAM_BYTES_COUNT : Fld := ⟨.CDC_STREAM_BYTES, 0, 64, .rc, 0x0⟩
-- CDC_BYPASS: Table 10.8
def F.CDC_BYPASS_COUNT : Fld := ⟨.CDC_BYPASS, 0, 64, .rc, 0x0⟩
-- CDC_DAMAGE: Table 10.8
def F.CDC_DAMAGE_COUNT : Fld := ⟨.CDC_DAMAGE, 0, 64, .rc, 0x0⟩
-- CDC_REF_POISON: Table 10.8
def F.CDC_REF_POISON_COUNT : Fld := ⟨.CDC_REF_POISON, 0, 64, .rc, 0x0⟩
-- SRV_SUB_POLICE: Table 7.4
def F.SRV_SUB_POLICE_TOK_RATE : Fld := ⟨.SRV_SUB_POLICE, 44, 20, .rw, 0x0⟩
def F.SRV_SUB_POLICE_TOK_BURST : Fld := ⟨.SRV_SUB_POLICE, 24, 20, .rw, 0x0⟩
def F.SRV_SUB_POLICE_REQ_RATE : Fld := ⟨.SRV_SUB_POLICE, 8, 16, .rw, 0x0⟩
def F.SRV_SUB_POLICE_REQ_BURST : Fld := ⟨.SRV_SUB_POLICE, 0, 8, .rw, 0x0⟩
-- SRV_SUB_CFG: Table 7.4
def F.SRV_SUB_CFG_ENABLE : Fld := ⟨.SRV_SUB_CFG, 63, 1, .rw, 0x0⟩
def F.SRV_SUB_CFG_MAX_SLOTS : Fld := ⟨.SRV_SUB_CFG, 49, 14, .rw, 0x0⟩
def F.SRV_SUB_CFG_SLOTS : Fld := ⟨.SRV_SUB_CFG, 34, 15, .ro, 0x0⟩
-- SRV_SERVICE: Table 7.5
def F.SRV_SERVICE_ENABLE : Fld := ⟨.SRV_SERVICE, 63, 1, .rw, 0x0⟩
def F.SRV_SERVICE_PARTITION : Fld := ⟨.SRV_SERVICE, 60, 3, .rw, 0x0⟩
def F.SRV_SERVICE_MAX_CLASS : Fld := ⟨.SRV_SERVICE, 58, 2, .rw, 0x0⟩
def F.SRV_SERVICE_TREE : Fld := ⟨.SRV_SERVICE, 54, 4, .rw, 0x0⟩
def F.SRV_SERVICE_TREE_EN : Fld := ⟨.SRV_SERVICE, 53, 1, .rw, 0x0⟩
-- SRV_PART_SERVE: Table 7.5
def F.SRV_PART_SERVE_SLOT_BASE : Fld := ⟨.SRV_PART_SERVE, 50, 14, .rw, 0x0⟩
def F.SRV_PART_SERVE_SLOT_COUNT : Fld := ⟨.SRV_PART_SERVE, 35, 15, .rw, 0x0⟩
def F.SRV_PART_SERVE_ADMIT_EXPORT : Fld := ⟨.SRV_PART_SERVE, 27, 8, .rw, 0x0⟩
def F.SRV_PART_SERVE_ADMIT_EN : Fld := ⟨.SRV_PART_SERVE, 26, 1, .rw, 0x0⟩
-- SRV_KV_CMD: Table 6.5
def F.SRV_KV_CMD_OP : Fld := ⟨.SRV_KV_CMD, 60, 4, .wo, 0x0⟩
def F.SRV_KV_CMD_SLOT : Fld := ⟨.SRV_KV_CMD, 46, 14, .wo, 0x0⟩
def F.SRV_KV_CMD_PARTITION : Fld := ⟨.SRV_KV_CMD, 43, 3, .wo, 0x0⟩
def F.SRV_KV_CMD_LINE_EN : Fld := ⟨.SRV_KV_CMD, 42, 1, .wo, 0x0⟩
def F.SRV_KV_CMD_LINE : Fld := ⟨.SRV_KV_CMD, 38, 4, .wo, 0x0⟩
def F.SRV_KV_CMD_RECEIVE : Fld := ⟨.SRV_KV_CMD, 37, 1, .wo, 0x0⟩
def F.SRV_KV_CMD_ARG : Fld := ⟨.SRV_KV_CMD, 0, 32, .wo, 0x0⟩
-- SRV_KV_RESULT: Table 6.6
def F.SRV_KV_RESULT_DONE : Fld := ⟨.SRV_KV_RESULT, 63, 1, .ro, 0x1⟩
def F.SRV_KV_RESULT_HELD : Fld := ⟨.SRV_KV_RESULT, 62, 1, .ro, 0x0⟩
def F.SRV_KV_RESULT_OVERRUN : Fld := ⟨.SRV_KV_RESULT, 61, 1, .w1c, 0x0⟩
def F.SRV_KV_RESULT_CODE : Fld := ⟨.SRV_KV_RESULT, 0, 8, .ro, 0x0⟩
-- SRV_SLOT_CMD: Table 7.7
def F.SRV_SLOT_CMD_OP : Fld := ⟨.SRV_SLOT_CMD, 60, 4, .wo, 0x0⟩
def F.SRV_SLOT_CMD_SLOT : Fld := ⟨.SRV_SLOT_CMD, 46, 14, .wo, 0x0⟩
def F.SRV_SLOT_CMD_GENERATION : Fld := ⟨.SRV_SLOT_CMD, 15, 31, .wo, 0x0⟩
def F.SRV_SLOT_CMD_LOG2 : Fld := ⟨.SRV_SLOT_CMD, 10, 5, .wo, 0x0⟩
-- SRV_SLOT_ARG: Table 7.7
def F.SRV_SLOT_ARG_ARG : Fld := ⟨.SRV_SLOT_ARG, 0, 64, .rw, 0x0⟩
-- SRV_SLOT_RESULT: Table 7.7
def F.SRV_SLOT_RESULT_DONE : Fld := ⟨.SRV_SLOT_RESULT, 63, 1, .ro, 0x1⟩
def F.SRV_SLOT_RESULT_CODE : Fld := ⟨.SRV_SLOT_RESULT, 0, 8, .ro, 0x0⟩
-- SRV_STEP_SUBMIT: Table 7.10
def F.SRV_STEP_SUBMIT_LIST : Fld := ⟨.SRV_STEP_SUBMIT, 44, 20, .wo, 0x0⟩
def F.SRV_STEP_SUBMIT_COUNT : Fld := ⟨.SRV_STEP_SUBMIT, 31, 13, .wo, 0x0⟩
def F.SRV_STEP_SUBMIT_PENDING : Fld := ⟨.SRV_STEP_SUBMIT, 0, 1, .ro, 0x0⟩
-- SRV_STEP_RING: Table 7.10
def F.SRV_STEP_RING_BASE : Fld := ⟨.SRV_STEP_RING, 44, 20, .rw, 0x0⟩
def F.SRV_STEP_RING_LOG2 : Fld := ⟨.SRV_STEP_RING, 40, 4, .rw, 0x4⟩
-- SRV_EMIT_SUBMIT: Table 7.10
def F.SRV_EMIT_SUBMIT_LIST : Fld := ⟨.SRV_EMIT_SUBMIT, 44, 20, .wo, 0x0⟩
def F.SRV_EMIT_SUBMIT_COUNT_M1 : Fld := ⟨.SRV_EMIT_SUBMIT, 28, 16, .wo, 0x0⟩
def F.SRV_EMIT_SUBMIT_PENDING : Fld := ⟨.SRV_EMIT_SUBMIT, 0, 1, .ro, 0x0⟩
-- SRV_TREE_CFG: Table 6.11
def F.SRV_TREE_CFG_ENABLE : Fld := ⟨.SRV_TREE_CFG, 63, 1, .rw, 0x0⟩
def F.SRV_TREE_CFG_WALKER : Fld := ⟨.SRV_TREE_CFG, 61, 2, .rw, 0x0⟩
def F.SRV_TREE_CFG_LOG2_BUCKETS : Fld := ⟨.SRV_TREE_CFG, 56, 5, .rw, 0xA⟩
def F.SRV_TREE_CFG_NODES : Fld := ⟨.SRV_TREE_CFG, 0, 32, .rw, 0x0⟩
-- SRV_TREE_BUCKET_BASE: Table 6.11
def F.SRV_TREE_BUCKET_BASE_BASE : Fld := ⟨.SRV_TREE_BUCKET_BASE, 0, 48, .rw, 0x0⟩
-- SRV_TREE_NODE_BASE: Table 6.11
def F.SRV_TREE_NODE_BASE_BASE : Fld := ⟨.SRV_TREE_NODE_BASE, 0, 48, .rw, 0x0⟩
-- SRV_TREE_SALT: Table 6.11
def F.SRV_TREE_SALT_SALT : Fld := ⟨.SRV_TREE_SALT, 0, 64, .rw, 0x0⟩
-- SRV_TREE_GEN: Table 6.11
def F.SRV_TREE_GEN_CURRENT : Fld := ⟨.SRV_TREE_GEN, 0, 64, .ro, 0x1⟩
-- SRV_TREE_OLDEST: Table 6.11
def F.SRV_TREE_OLDEST_OLDEST : Fld := ⟨.SRV_TREE_OLDEST, 0, 64, .ro, 0x2⟩
-- SRV_TREE_QCOUNT: Table 6.11
def F.SRV_TREE_QCOUNT_COUNT : Fld := ⟨.SRV_TREE_QCOUNT, 0, 32, .ro, 0x0⟩
-- SRV_PW_RING: Table 18.9
def F.SRV_PW_RING_ENABLE : Fld := ⟨.SRV_PW_RING, 63, 1, .rw, 0x0⟩
def F.SRV_PW_RING_LOG2 : Fld := ⟨.SRV_PW_RING, 59, 4, .rw, 0x4⟩
def F.SRV_PW_RING_BASE : Fld := ⟨.SRV_PW_RING, 0, 48, .rw, 0x0⟩
-- SRV_PW_DOORBELL: Table 18.9
def F.SRV_PW_DOORBELL_HEAD : Fld := ⟨.SRV_PW_DOORBELL, 32, 32, .ro, 0x0⟩
def F.SRV_PW_DOORBELL_TAIL : Fld := ⟨.SRV_PW_DOORBELL, 0, 32, .rw, 0x0⟩
-- SRV_ADMITTED: Table 7.14
def F.SRV_ADMITTED_COUNT : Fld := ⟨.SRV_ADMITTED, 0, 64, .rc, 0x0⟩
-- SRV_REFUSED: Table 7.14
def F.SRV_REFUSED_COUNT : Fld := ⟨.SRV_REFUSED, 0, 64, .rc, 0x0⟩
-- SRV_POLICED: Table 7.14
def F.SRV_POLICED_COUNT : Fld := ⟨.SRV_POLICED, 0, 64, .rc, 0x0⟩
-- SRV_CANCELLED: Table 7.14
def F.SRV_CANCELLED_COUNT : Fld := ⟨.SRV_CANCELLED, 0, 64, .rc, 0x0⟩
-- SRV_DONE_BEFORE_ABORT: Table 7.14
def F.SRV_DONE_BEFORE_ABORT_COUNT : Fld := ⟨.SRV_DONE_BEFORE_ABORT, 0, 64, .rc, 0x0⟩
-- SRV_STALE_HANDLE: Table 7.14
def F.SRV_STALE_HANDLE_COUNT : Fld := ⟨.SRV_STALE_HANDLE, 0, 64, .rc, 0x0⟩
-- SRV_EMIT_REFUSED: Table 7.14
def F.SRV_EMIT_REFUSED_COUNT : Fld := ⟨.SRV_EMIT_REFUSED, 0, 64, .rc, 0x0⟩
-- SRV_TOKENS_OUT: Table 7.14
def F.SRV_TOKENS_OUT_COUNT : Fld := ⟨.SRV_TOKENS_OUT, 0, 64, .rc, 0x0⟩
-- SRV_TALLY_LOST: Table 7.14
def F.SRV_TALLY_LOST_COUNT : Fld := ⟨.SRV_TALLY_LOST, 0, 64, .rc, 0x0⟩
-- SRC_INDEX_CFG: Table 12.1
def F.SRC_INDEX_CFG_ENABLE : Fld := ⟨.SRC_INDEX_CFG, 63, 1, .rw, 0x0⟩
def F.SRC_INDEX_CFG_CORE : Fld := ⟨.SRC_INDEX_CFG, 60, 3, .rw, 0x0⟩
def F.SRC_INDEX_CFG_PARTITION : Fld := ⟨.SRC_INDEX_CFG, 57, 3, .rw, 0x0⟩
def F.SRC_INDEX_CFG_METRIC : Fld := ⟨.SRC_INDEX_CFG, 56, 1, .rw, 0x0⟩
def F.SRC_INDEX_CFG_DEGREE : Fld := ⟨.SRC_INDEX_CFG, 55, 1, .rw, 0x0⟩
def F.SRC_INDEX_CFG_M : Fld := ⟨.SRC_INDEX_CFG, 48, 7, .rw, 0x8⟩
def F.SRC_INDEX_CFG_TFMT : Fld := ⟨.SRC_INDEX_CFG, 46, 2, .rw, 0x0⟩
def F.SRC_INDEX_CFG_DSUB : Fld := ⟨.SRC_INDEX_CFG, 32, 12, .rw, 0x1⟩
def F.SRC_INDEX_CFG_ENTRY : Fld := ⟨.SRC_INDEX_CFG, 0, 32, .rw, 0x0⟩
-- SRC_INDEX_SIZE: Table 12.1
def F.SRC_INDEX_SIZE_NODES : Fld := ⟨.SRC_INDEX_SIZE, 32, 32, .rw, 0x0⟩
def F.SRC_INDEX_SIZE_LISTS : Fld := ⟨.SRC_INDEX_SIZE, 0, 32, .rw, 0x0⟩
-- SRC_INDEX_ARITH: Table 12.1
def F.SRC_INDEX_ARITH_TABLE_ANCHOR : Fld := ⟨.SRC_INDEX_ARITH, 20, 10, .rw, 0x0⟩
def F.SRC_INDEX_ARITH_DIST_ANCHOR : Fld := ⟨.SRC_INDEX_ARITH, 10, 10, .rw, 0x0⟩
def F.SRC_INDEX_ARITH_RERANK_ANCHOR : Fld := ⟨.SRC_INDEX_ARITH, 0, 10, .rw, 0x0⟩
-- SRC_INDEX_BASE: Table 12.1
def F.SRC_INDEX_BASE_BASE : Fld := ⟨.SRC_INDEX_BASE, 0, 48, .rw, 0x0⟩
-- SRC_INDEX_GEN: Table 12.1
def F.SRC_INDEX_GEN_CURRENT : Fld := ⟨.SRC_INDEX_GEN, 0, 32, .ro, 0x1⟩
-- SRC_INDEX_OLDEST: Table 12.1
def F.SRC_INDEX_OLDEST_OLDEST : Fld := ⟨.SRC_INDEX_OLDEST, 0, 32, .ro, 0x2⟩
-- SRC_INDEX_QCOUNT: Table 12.1
def F.SRC_INDEX_QCOUNT_COUNT : Fld := ⟨.SRC_INDEX_QCOUNT, 0, 32, .ro, 0x0⟩
-- SRC_RING: Table 18.9
def F.SRC_RING_ENABLE : Fld := ⟨.SRC_RING, 63, 1, .rw, 0x0⟩
def F.SRC_RING_LOG2 : Fld := ⟨.SRC_RING, 59, 4, .rw, 0x4⟩
def F.SRC_RING_BASE : Fld := ⟨.SRC_RING, 0, 48, .rw, 0x0⟩
-- SRC_DOORBELL: Table 18.9
def F.SRC_DOORBELL_HEAD : Fld := ⟨.SRC_DOORBELL, 32, 32, .ro, 0x0⟩
def F.SRC_DOORBELL_TAIL : Fld := ⟨.SRC_DOORBELL, 0, 32, .rw, 0x0⟩
-- SRC_QUERIES: R399
def F.SRC_QUERIES_COUNT : Fld := ⟨.SRC_QUERIES, 0, 64, .rc, 0x0⟩
-- SRC_EVALUATIONS: R399
def F.SRC_EVALUATIONS_COUNT : Fld := ⟨.SRC_EVALUATIONS, 0, 64, .rc, 0x0⟩
-- SRC_EXPANSIONS: R399
def F.SRC_EXPANSIONS_COUNT : Fld := ⟨.SRC_EXPANSIONS, 0, 64, .rc, 0x0⟩
-- SRC_BAD_EDGE: R399
def F.SRC_BAD_EDGE_COUNT : Fld := ⟨.SRC_BAD_EDGE, 0, 64, .rc, 0x0⟩
-- SRV_KV_TABLE: Table 6.2
def F.SRV_KV_TABLE_WORD : Fld := ⟨.SRV_KV_TABLE, 0, 64, .rw, 0x0⟩
-- SRV_SLOT_TABLE: Table 7.2
def F.SRV_SLOT_TABLE_WORD : Fld := ⟨.SRV_SLOT_TABLE, 0, 64, .ro, 0x0⟩
-- KIT_OPPOINT: Table 1.4
def F.KIT_OPPOINT_MIN_TEMPO : Fld := ⟨.KIT_OPPOINT, 48, 16, .ro, 0x0⟩
def F.KIT_OPPOINT_FLOOR : Fld := ⟨.KIT_OPPOINT, 32, 16, .ro, 0x0⟩
def F.KIT_OPPOINT_MIN_DRUM : Fld := ⟨.KIT_OPPOINT, 24, 8, .ro, 0x0⟩
def F.KIT_OPPOINT_TJ_MAX : Fld := ⟨.KIT_OPPOINT, 16, 8, .ro, 0x0⟩
def F.KIT_OPPOINT_STEP : Fld := ⟨.KIT_OPPOINT, 11, 5, .ro, 0x0⟩
def F.KIT_OPPOINT_BAND : Fld := ⟨.KIT_OPPOINT, 7, 4, .ro, 0x0⟩
def F.KIT_OPPOINT_BELOW_FLOOR : Fld := ⟨.KIT_OPPOINT, 1, 1, .w1c, 0x0⟩
def F.KIT_OPPOINT_VALID : Fld := ⟨.KIT_OPPOINT, 0, 1, .ro, 0x0⟩
-- KIT_ROUTER_CONFIG: Table 5.3
def F.KIT_ROUTER_CONFIG_LAYER_START : Fld := ⟨.KIT_ROUTER_CONFIG, 58, 6, .rw, 0x0⟩
def F.KIT_ROUTER_CONFIG_LAYER : Fld := ⟨.KIT_ROUTER_CONFIG, 52, 6, .ro, 0x0⟩
def F.KIT_ROUTER_CONFIG_LINE : Fld := ⟨.KIT_ROUTER_CONFIG, 48, 4, .rw, 0x0⟩
def F.KIT_ROUTER_CONFIG_LINE_EN : Fld := ⟨.KIT_ROUTER_CONFIG, 47, 1, .rw, 0x0⟩
def F.KIT_ROUTER_CONFIG_GATE : Fld := ⟨.KIT_ROUTER_CONFIG, 46, 1, .rw, 0x0⟩
def F.KIT_ROUTER_CONFIG_RET_SPAN : Fld := ⟨.KIT_ROUTER_CONFIG, 40, 6, .rw, 0x0⟩
def F.KIT_ROUTER_CONFIG_RET_EXPORT : Fld := ⟨.KIT_ROUTER_CONFIG, 32, 8, .rw, 0x0⟩
def F.KIT_ROUTER_CONFIG_ACT_UNITS : Fld := ⟨.KIT_ROUTER_CONFIG, 23, 9, .rw, 0x1⟩
def F.KIT_ROUTER_CONFIG_RET_UNITS : Fld := ⟨.KIT_ROUTER_CONFIG, 12, 11, .rw, 0x1⟩
def F.KIT_ROUTER_CONFIG_ENABLE : Fld := ⟨.KIT_ROUTER_CONFIG, 0, 1, .rw, 0x0⟩
-- KIT_KV_STAGE: Table 6.4
def F.KIT_KV_STAGE_BASE : Fld := ⟨.KIT_KV_STAGE, 48, 16, .rw, 0x0⟩
def F.KIT_KV_STAGE_FIRST_DRUM : Fld := ⟨.KIT_KV_STAGE, 40, 8, .rw, 0x0⟩
def F.KIT_KV_STAGE_DRUMS : Fld := ⟨.KIT_KV_STAGE, 32, 8, .rw, 0x0⟩
def F.KIT_KV_STAGE_PAGES : Fld := ⟨.KIT_KV_STAGE, 20, 12, .rw, 0x0⟩
def F.KIT_KV_STAGE_STAGE_UNITS : Fld := ⟨.KIT_KV_STAGE, 12, 8, .rw, 0x4⟩
-- KIT_ROUTER_DISPATCHED: Table 5.10
def F.KIT_ROUTER_DISPATCHED_COUNT : Fld := ⟨.KIT_ROUTER_DISPATCHED, 0, 64, .rc, 0x0⟩
-- KIT_ROUTER_OVERFLOW: Table 5.10
def F.KIT_ROUTER_OVERFLOW_COUNT : Fld := ⟨.KIT_ROUTER_OVERFLOW, 0, 64, .rc, 0x0⟩
-- KIT_ROUTER_STREAM: Table 5.10
def F.KIT_ROUTER_STREAM_COUNT : Fld := ⟨.KIT_ROUTER_STREAM, 0, 64, .rc, 0x0⟩
-- KIT_ROUTER_CANCELLED: Table 5.10
def F.KIT_ROUTER_CANCELLED_COUNT : Fld := ⟨.KIT_ROUTER_CANCELLED, 0, 64, .rc, 0x0⟩
-- KIT_ROUTER_POISONED: Table 5.10
def F.KIT_ROUTER_POISONED_COUNT : Fld := ⟨.KIT_ROUTER_POISONED, 0, 64, .rc, 0x0⟩
-- KIT_ROUTER_GATE_NAN: Table 5.10
def F.KIT_ROUTER_GATE_NAN_COUNT : Fld := ⟨.KIT_ROUTER_GATE_NAN, 0, 64, .rc, 0x0⟩
-- KIT_KV_APPEND_STAGED: Table 6.16
def F.KIT_KV_APPEND_STAGED_COUNT : Fld := ⟨.KIT_KV_APPEND_STAGED, 0, 64, .rc, 0x0⟩
-- KIT_KV_APPEND_DIRECT: Table 6.16
def F.KIT_KV_APPEND_DIRECT_COUNT : Fld := ⟨.KIT_KV_APPEND_DIRECT, 0, 64, .rc, 0x0⟩
-- KIT_KV_POOL_EMPTY: Table 6.16
def F.KIT_KV_POOL_EMPTY_COUNT : Fld := ⟨.KIT_KV_POOL_EMPTY, 0, 64, .rc, 0x0⟩
-- KIT_KV_FLUSH_FULL: Table 6.16
def F.KIT_KV_FLUSH_FULL_COUNT : Fld := ⟨.KIT_KV_FLUSH_FULL, 0, 64, .rc, 0x0⟩
-- KIT_KV_FLUSH_OTHER: Table 6.16
def F.KIT_KV_FLUSH_OTHER_COUNT : Fld := ⟨.KIT_KV_FLUSH_OTHER, 0, 64, .rc, 0x0⟩
-- KIT_KV_DROPPED: Table 6.16
def F.KIT_KV_DROPPED_COUNT : Fld := ⟨.KIT_KV_DROPPED, 0, 64, .rc, 0x0⟩
-- KIT_KV_HANDOFF_BYTES: Table 6.16
def F.KIT_KV_HANDOFF_BYTES_COUNT : Fld := ⟨.KIT_KV_HANDOFF_BYTES, 0, 64, .rc, 0x0⟩
-- KIT_ROUTER_DIR: R184
def F.KIT_ROUTER_DIR_WORD : Fld := ⟨.KIT_ROUTER_DIR, 0, 64, .rw, 0x0⟩
-- DRM_STEP_CONFIG: Table 4.1
def F.DRM_STEP_CONFIG_PLIST_BASE : Fld := ⟨.DRM_STEP_CONFIG, 48, 16, .rw, 0x0⟩
def F.DRM_STEP_CONFIG_PROG_BASE : Fld := ⟨.DRM_STEP_CONFIG, 32, 16, .rw, 0x0⟩
def F.DRM_STEP_CONFIG_PROG_SIZE : Fld := ⟨.DRM_STEP_CONFIG, 20, 12, .rw, 0x0⟩
def F.DRM_STEP_CONFIG_ROT : Fld := ⟨.DRM_STEP_CONFIG, 18, 2, .rw, 0x3⟩
def F.DRM_STEP_CONFIG_PLIST_EN : Fld := ⟨.DRM_STEP_CONFIG, 17, 1, .rw, 0x0⟩
-- DRM_INBOX: Table 5.7
def F.DRM_INBOX_BASE : Fld := ⟨.DRM_INBOX, 48, 16, .rw, 0x0⟩
def F.DRM_INBOX_LOG2_RECORDS : Fld := ⟨.DRM_INBOX, 44, 4, .rw, 0x4⟩
def F.DRM_INBOX_PENDING : Fld := ⟨.DRM_INBOX, 16, 16, .ro, 0x0⟩
-- DRM_LATE_STALL: Table 4.6
def F.DRM_LATE_STALL_LIST_HOLD : Fld := ⟨.DRM_LATE_STALL, 56, 8, .rc, 0x0⟩
def F.DRM_LATE_STALL_STALL_TURNS : Fld := ⟨.DRM_LATE_STALL, 0, 56, .rc, 0x0⟩
-- DRM_LATE_THRESH: Table 4.6
def F.DRM_LATE_THRESH_THRESH : Fld := ⟨.DRM_LATE_THRESH, 0, 32, .rw, 0x1000⟩
-- DRM_TEMPO: Table 4.12
def F.DRM_TEMPO_COUNT : Fld := ⟨.DRM_TEMPO, 0, 48, .ro, 0x0⟩
-- DRM_CALIB: Table 4.12
def F.DRM_CALIB_RATIO : Fld := ⟨.DRM_CALIB, 48, 16, .ro, 0x8000⟩
def F.DRM_CALIB_AGE_MS : Fld := ⟨.DRM_CALIB, 16, 32, .ro, 0x0⟩
def F.DRM_CALIB_FORCED : Fld := ⟨.DRM_CALIB, 8, 8, .rc, 0x0⟩
def F.DRM_CALIB_MISMATCH : Fld := ⟨.DRM_CALIB, 1, 1, .w1c, 0x0⟩
def F.DRM_CALIB_DONE : Fld := ⟨.DRM_CALIB, 0, 1, .ro, 0x0⟩
-- DRM_CTX_CONTROL: Table 3.16
def F.DRM_CTX_CONTROL_PC : Fld := ⟨.DRM_CTX_CONTROL, 32, 32, .wo, 0x0⟩
def F.DRM_CTX_CONTROL_MALLET : Fld := ⟨.DRM_CTX_CONTROL, 16, 8, .wo, 0x0⟩
def F.DRM_CTX_CONTROL_CTX : Fld := ⟨.DRM_CTX_CONTROL, 8, 3, .wo, 0x0⟩
def F.DRM_CTX_CONTROL_ACTION : Fld := ⟨.DRM_CTX_CONTROL, 0, 3, .wo, 0x0⟩
-- DRM_TMAC_DENSE: Table 5.2
def F.DRM_TMAC_DENSE_TURNS : Fld := ⟨.DRM_TMAC_DENSE, 0, 64, .rc, 0x0⟩
-- DRM_TMAC_SPARSE: Table 5.2
def F.DRM_TMAC_SPARSE_TURNS : Fld := ⟨.DRM_TMAC_SPARSE, 0, 64, .rc, 0x0⟩
-- DRM_TMAC_SKIPPED: Table 5.2
def F.DRM_TMAC_SKIPPED_HS : Fld := ⟨.DRM_TMAC_SKIPPED, 0, 64, .rc, 0x0⟩
-- DRM_CAUSALB_MASKED: Table 5.2
def F.DRM_CAUSALB_MASKED_COUNT : Fld := ⟨.DRM_CAUSALB_MASKED, 0, 64, .rc, 0x0⟩
-- DRM_CAUSALB_PARTIAL: Table 5.2
def F.DRM_CAUSALB_PARTIAL_COUNT : Fld := ⟨.DRM_CAUSALB_PARTIAL, 0, 64, .rc, 0x0⟩
-- DRM_CAUSALB_VISIBLE: Table 5.2
def F.DRM_CAUSALB_VISIBLE_COUNT : Fld := ⟨.DRM_CAUSALB_VISIBLE, 0, 64, .rc, 0x0⟩

/-- The offsets of R534 and the epoch mark of R517. -/
def RegName.info : RegName → RegInfo
  | .HUB_IDENTITY => ⟨0x0000000, 1, 0x8, 1, 0x8, false⟩
  | .HUB_STATUS => ⟨0x0000008, 1, 0x8, 1, 0x8, false⟩
  | .HUB_ATTN_CFG => ⟨0x0000010, 1, 0x8, 1, 0x8, false⟩
  | .HUB_BOOT => ⟨0x0000018, 1, 0x8, 1, 0x8, false⟩
  | .HUB_TIME => ⟨0x0000020, 1, 0x8, 1, 0x8, false⟩
  | .HUB_RESET => ⟨0x0000028, 1, 0x8, 1, 0x8, false⟩
  | .HUB_HOST_WINDOW => ⟨0x0000030, 1, 0x8, 1, 0x8, false⟩
  | .HUB_PAIR_CFG => ⟨0x0000038, 1, 0x8, 1, 0x8, true⟩
  | .HUB_PAIR_STATUS => ⟨0x0000040, 1, 0x8, 1, 0x8, false⟩
  | .HUB_CC_RESTART => ⟨0x0000048, 1, 0x8, 1, 0x8, false⟩
  | .HUB_CC_WATCHDOG => ⟨0x0000080, 8, 0x8, 1, 0x8, false⟩
  | .HUB_CC_IMAGE => ⟨0x00000C0, 8, 0x8, 1, 0x8, true⟩
  | .HUB_CFG_CMD => ⟨0x0000100, 1, 0x8, 1, 0x8, false⟩
  | .HUB_CFG_RESULT => ⟨0x0000108, 1, 0x8, 1, 0x8, false⟩
  | .HUB_CFG_STATUS => ⟨0x0000110, 1, 0x8, 1, 0x8, false⟩
  | .HUB_CFG_PREVIOUS => ⟨0x0000118, 1, 0x8, 1, 0x8, false⟩
  | .HUB_CFG_VIEW => ⟨0x0000140, 9, 0x8, 1, 0x8, false⟩
  | .HUB_FLOOR_TABLE => ⟨0x0001000, 341, 0x8, 1, 0x8, false⟩
  | .HUB_HQ_CFG => ⟨0x0002000, 16, 0x20, 1, 0x8, false⟩
  | .HUB_HQ_SQ_BASE => ⟨0x0002008, 16, 0x20, 1, 0x8, false⟩
  | .HUB_HQ_CQ_BASE => ⟨0x0002010, 16, 0x20, 1, 0x8, false⟩
  | .HUB_HQ_STATUS => ⟨0x0002018, 16, 0x20, 1, 0x8, false⟩
  | .HUB_HQ_SQ_TAIL => ⟨0x0003000, 16, 0x10, 1, 0x8, false⟩
  | .HUB_HQ_CQ_HEAD => ⟨0x0003008, 16, 0x10, 1, 0x8, false⟩
  | .EVT_HEAD => ⟨0x0010000, 1, 0x8, 1, 0x8, false⟩
  | .EVT_READ => ⟨0x0010008, 1, 0x8, 1, 0x8, false⟩
  | .EVT_WINDOW => ⟨0x0010040, 8, 0x8, 1, 0x8, false⟩
  | .EVT_WINDOW_SRC => ⟨0x0010080, 1, 0x8, 1, 0x8, false⟩
  | .EVT_OVERWRITES => ⟨0x0010088, 1, 0x8, 1, 0x8, false⟩
  | .EVT_LOST => ⟨0x0010090, 1, 0x8, 1, 0x8, false⟩
  | .EVT_STATUS => ⟨0x0010098, 1, 0x8, 1, 0x8, false⟩
  | .EVT_ATTN_MASK => ⟨0x00100A0, 1, 0x8, 1, 0x8, false⟩
  | .EVT_SPILL_CFG => ⟨0x00100A8, 1, 0x8, 1, 0x8, true⟩
  | .EVT_SPILL_PTR => ⟨0x00100B0, 1, 0x8, 1, 0x8, false⟩
  | .SEC_DEFAULT_LOCK => ⟨0x0020000, 1, 0x8, 1, 0x8, false⟩
  | .PWR_CAP => ⟨0x0030000, 1, 0x8, 1, 0x8, false⟩
  | .PWR_STATUS => ⟨0x0030008, 1, 0x8, 1, 0x8, false⟩
  | .PWR_KIT => ⟨0x0030040, 8, 0x8, 1, 0x8, false⟩
  | .PWR_ENERGY => ⟨0x0030080, 1, 0x8, 1, 0x8, false⟩
  | .FAB_CONFIG => ⟨0x0100000, 1, 0x8, 1, 0x8, true⟩
  | .FAB_PORT_CFG => ⟨0x0100100, 18, 0x8, 1, 0x8, true⟩
  | .FAB_PORT_STATUS => ⟨0x0100200, 18, 0x8, 1, 0x8, false⟩
  | .FAB_EXPORT_RED => ⟨0x0100800, 256, 0x8, 1, 0x8, true⟩
  | .FAB_PEAL => ⟨0x0101000, 256, 0x8, 1, 0x8, true⟩
  | .FAB_GONG_CFG => ⟨0x0101800, 8, 0x80, 16, 0x8, true⟩
  | .FAB_FEC_CORRECTED => ⟨0x0101C00, 18, 0x8, 1, 0x8, false⟩
  | .FAB_FRAME_RESENT => ⟨0x0101D00, 18, 0x8, 1, 0x8, false⟩
  | .FAB_LINK_DOWN_COUNT => ⟨0x0101E00, 18, 0x8, 1, 0x8, false⟩
  | .FAB_TARGET_DEAD_COUNT => ⟨0x0101E90, 1, 0x8, 1, 0x8, false⟩
  | .FAB_LATE_ANSWER => ⟨0x0101E98, 1, 0x8, 1, 0x8, false⟩
  | .FAB_REFUSED_OUT => ⟨0x0101EA0, 1, 0x8, 1, 0x8, false⟩
  | .FAB_REFUSED_IN => ⟨0x0101EA8, 1, 0x8, 1, 0x8, false⟩
  | .FAB_EGRESS_DROP => ⟨0x0101EB0, 1, 0x8, 1, 0x8, false⟩
  | .FAB_ROUTE_CHANGE => ⟨0x0101EB8, 1, 0x8, 1, 0x8, false⟩
  | .FAB_TAINT_IN => ⟨0x0101EC0, 1, 0x8, 1, 0x8, false⟩
  | .FAB_EGRESS => ⟨0x0180000, 65536, 0x8, 1, 0x8, true⟩
  | .MEM_SPAN_CTL => ⟨0x0200000, 8, 0x200, 64, 0x8, true⟩
  | .MEM_SPAN_BASE => ⟨0x0201000, 8, 0x200, 64, 0x8, true⟩
  | .MEM_HUB_RANGE => ⟨0x0202000, 8, 0x8, 1, 0x8, true⟩
  | .MEM_EXTENT_TGT => ⟨0x0208000, 4096, 0x8, 1, 0x8, true⟩
  | .MEM_EXTENT_LEN => ⟨0x0210000, 4096, 0x8, 1, 0x8, true⟩
  | .MEM_EXPORT_CTL => ⟨0x0218000, 256, 0x8, 1, 0x8, true⟩
  | .MEM_EXPORT_RANGE => ⟨0x0218800, 256, 0x8, 1, 0x8, true⟩
  | .MEM_QUOTA => ⟨0x0240000, 4096, 0x40, 8, 0x8, true⟩
  | .MEM_PART_QUOTA => ⟨0x0280000, 8, 0x40, 8, 0x8, true⟩
  | .MEM_PART_CHARGE => ⟨0x0280200, 8, 0x8, 1, 0x8, true⟩
  | .MEM_ACCT => ⟨0x0300000, 4096, 0x80, 16, 0x8, false⟩
  | .MEM_ACCT_SAT => ⟨0x0380000, 4096, 0x8, 1, 0x8, false⟩
  | .MEM_ACCT_LATCH => ⟨0x0388000, 8, 0x8, 1, 0x8, false⟩
  | .MEM_ACCT_SNAP => ⟨0x0388400, 8, 0x80, 16, 0x8, false⟩
  | .MEM_DISCARD => ⟨0x0388800, 8, 0x8, 1, 0x8, false⟩
  | .MEM_DISCARD_RESULT => ⟨0x0388840, 8, 0x8, 1, 0x8, false⟩
  | .FLS_CONFIG => ⟨0x0400000, 1, 0x8, 1, 0x8, true⟩
  | .FLS_MAP_BASE => ⟨0x0400008, 1, 0x8, 1, 0x8, true⟩
  | .FLS_MAINT => ⟨0x0400010, 1, 0x8, 1, 0x8, false⟩
  | .FLS_STATUS => ⟨0x0400018, 1, 0x8, 1, 0x8, false⟩
  | .FLS_APERTURE => ⟨0x0402000, 1024, 0x8, 1, 0x8, true⟩
  | .INT_SCRUB_CFG => ⟨0x0410000, 9, 0x8, 1, 0x8, false⟩
  | .INT_SCRUB_LAP => ⟨0x0410080, 9, 0x8, 1, 0x8, false⟩
  | .INT_SCRUB_STATUS => ⟨0x0410100, 9, 0x8, 1, 0x8, false⟩
  | .INT_SCHECK => ⟨0x0410180, 8, 0x8, 1, 0x8, false⟩
  | .INT_SCHECK_SEED => ⟨0x04101C0, 8, 0x8, 1, 0x8, false⟩
  | .INT_SCHECK_RESULT => ⟨0x0410200, 8, 0x8, 1, 0x8, false⟩
  | .INT_OBS_CFG => ⟨0x0410240, 1, 0x8, 1, 0x8, false⟩
  | .INT_OBS => ⟨0x0410800, 256, 0x8, 1, 0x8, false⟩
  | .INT_OBS_FROM => ⟨0x0411000, 256, 0x8, 1, 0x8, false⟩
  | .INT_OBS_ADD => ⟨0x0411800, 8, 0x8, 1, 0x8, false⟩
  | .INT_JOURNAL => ⟨0x0411840, 1, 0x8, 1, 0x8, true⟩
  | .INT_ECC => ⟨0x0411880, 9, 0x8, 1, 0x8, false⟩
  | .INT_PARITY => ⟨0x0411900, 9, 0x8, 1, 0x8, false⟩
  | .INT_CHECKS => ⟨0x0411948, 1, 0x8, 1, 0x8, false⟩
  | .INT_CONFIRMED => ⟨0x0411950, 1, 0x8, 1, 0x8, false⟩
  | .INT_TAINT_SENT => ⟨0x0411958, 1, 0x8, 1, 0x8, false⟩
  | .INT_TAINT_LOCAL => ⟨0x0411960, 1, 0x8, 1, 0x8, false⟩
  | .INT_HUB_BAD => ⟨0x0411968, 1, 0x8, 1, 0x8, false⟩
  | .PAR_CONFIG => ⟨0x0420000, 8, 0x8, 1, 0x8, true⟩
  | .PAR_LEND => ⟨0x0420200, 8, 0x40, 8, 0x8, true⟩
  | .PAR_REG => ⟨0x0420400, 8, 0x40, 8, 0x8, true⟩
  | .PAR_REG_STATUS => ⟨0x0420600, 8, 0x8, 1, 0x8, false⟩
  | .PAR_REG_STAT => ⟨0x0420800, 8, 0x40, 8, 0x8, false⟩
  | .PAR_LIVESET => ⟨0x0420A00, 8, 0x8, 1, 0x8, false⟩
  | .PAR_SAVE => ⟨0x0420C00, 8, 0x40, 8, 0x8, true⟩
  | .PAR_PREEMPT => ⟨0x0420E00, 8, 0x8, 1, 0x8, false⟩
  | .PAR_PREEMPT_RESULT => ⟨0x0420E40, 8, 0x8, 1, 0x8, false⟩
  | .PAR_PREEMPT_STATUS => ⟨0x0420E80, 8, 0x8, 1, 0x8, false⟩
  | .PAR_STEP_BUDGET => ⟨0x0420EC0, 8, 0x8, 1, 0x8, false⟩
  | .PAR_STEP_WATCHDOG => ⟨0x0420F00, 8, 0x8, 1, 0x8, false⟩
  | .PAR_STEP_DEADLINE => ⟨0x0420F40, 8, 0x8, 1, 0x8, false⟩
  | .PAR_STEP_STATUS => ⟨0x0420F80, 8, 0x8, 1, 0x8, false⟩
  | .PAR_STEP_SEQ => ⟨0x0420FC0, 8, 0x8, 1, 0x8, false⟩
  | .PAR_GONG_LINE => ⟨0x0421000, 8, 0x80, 16, 0x8, false⟩
  | .PAR_SIJ_CFG => ⟨0x0421400, 8, 0x8, 1, 0x8, true⟩
  | .PAR_SIJ_IN => ⟨0x0421600, 8, 0x40, 8, 0x8, true⟩
  | .PAR_SIJ_LEN => ⟨0x0421800, 8, 0x40, 8, 0x8, true⟩
  | .PAR_REPLAY => ⟨0x0421A00, 8, 0x8, 1, 0x8, false⟩
  | .PAR_REPLAY_RESULT => ⟨0x0421A40, 8, 0x8, 1, 0x8, false⟩
  | .PAR_PAIR_HOLD => ⟨0x0421A80, 8, 0x8, 1, 0x8, true⟩
  | .TRN_QUEUE_CFG => ⟨0x0500000, 8, 0x40, 8, 0x8, true⟩
  | .TRN_QUEUE_PTR => ⟨0x0500200, 8, 0x40, 8, 0x8, false⟩
  | .TRN_PART_DEFAULT => ⟨0x0500400, 8, 0x8, 1, 0x8, true⟩
  | .TRN_SUBMIT => ⟨0x0500440, 8, 0x8, 1, 0x8, false⟩
  | .TRN_SUBMIT_RESULT => ⟨0x0500480, 8, 0x8, 1, 0x8, false⟩
  | .TRN_ABORT => ⟨0x05004C0, 8, 0x8, 1, 0x8, false⟩
  | .TRN_ABORT_RESULT => ⟨0x0500500, 8, 0x8, 1, 0x8, false⟩
  | .TRN_SUB_CFG => ⟨0x0508000, 4096, 0x8, 1, 0x8, true⟩
  | .TRN_SUB_POLICE => ⟨0x0510000, 4096, 0x8, 1, 0x8, true⟩
  | .TRN_SUB_SHAPE => ⟨0x0518000, 4096, 0x8, 1, 0x8, true⟩
  | .TRN_SERVICE_DRR => ⟨0x0520000, 256, 0x8, 1, 0x8, true⟩
  | .TRN_PARCELS => ⟨0x0520800, 1, 0x8, 1, 0x8, false⟩
  | .TRN_BYTES_RAW => ⟨0x0520808, 1, 0x8, 1, 0x8, false⟩
  | .TRN_BYTES_WIRE => ⟨0x0520810, 1, 0x8, 1, 0x8, false⟩
  | .TRN_DEFERRED => ⟨0x0520818, 1, 0x8, 1, 0x8, false⟩
  | .TRN_SPLIT => ⟨0x0520820, 1, 0x8, 1, 0x8, false⟩
  | .TRN_POLICED_PARCELS => ⟨0x0520828, 1, 0x8, 1, 0x8, false⟩
  | .TRN_WHEEL_FAR => ⟨0x0520830, 1, 0x8, 1, 0x8, false⟩
  | .TRN_RX_FULL => ⟨0x0520838, 1, 0x8, 1, 0x8, false⟩
  | .TRN_RX_INCOMPLETE => ⟨0x0520840, 1, 0x8, 1, 0x8, false⟩
  | .CDC_PART_CFG => ⟨0x0540000, 8, 0x8, 1, 0x8, true⟩
  | .CDC_REF => ⟨0x0540080, 16, 0x8, 1, 0x8, true⟩
  | .CDC_BLOCKS_CODED => ⟨0x0540100, 1, 0x8, 1, 0x8, false⟩
  | .CDC_BLOCKS_RAW => ⟨0x0540108, 1, 0x8, 1, 0x8, false⟩
  | .CDC_RAW_BYTES => ⟨0x0540110, 1, 0x8, 1, 0x8, false⟩
  | .CDC_STREAM_BYTES => ⟨0x0540118, 1, 0x8, 1, 0x8, false⟩
  | .CDC_BYPASS => ⟨0x0540120, 1, 0x8, 1, 0x8, false⟩
  | .CDC_DAMAGE => ⟨0x0540128, 1, 0x8, 1, 0x8, false⟩
  | .CDC_REF_POISON => ⟨0x0540130, 1, 0x8, 1, 0x8, false⟩
  | .SRV_SUB_POLICE => ⟨0x0800000, 4096, 0x8, 1, 0x8, false⟩
  | .SRV_SUB_CFG => ⟨0x0808000, 4096, 0x8, 1, 0x8, false⟩
  | .SRV_SERVICE => ⟨0x0810000, 256, 0x8, 1, 0x8, true⟩
  | .SRV_PART_SERVE => ⟨0x0810800, 8, 0x8, 1, 0x8, true⟩
  | .SRV_KV_CMD => ⟨0x0810840, 8, 0x8, 1, 0x8, false⟩
  | .SRV_KV_RESULT => ⟨0x0810880, 8, 0x8, 1, 0x8, false⟩
  | .SRV_SLOT_CMD => ⟨0x08108C0, 8, 0x8, 1, 0x8, false⟩
  | .SRV_SLOT_ARG => ⟨0x0810900, 8, 0x8, 1, 0x8, false⟩
  | .SRV_SLOT_RESULT => ⟨0x0810940, 8, 0x8, 1, 0x8, false⟩
  | .SRV_STEP_SUBMIT => ⟨0x0810980, 8, 0x8, 1, 0x8, false⟩
  | .SRV_STEP_RING => ⟨0x08109C0, 8, 0x8, 1, 0x8, false⟩
  | .SRV_EMIT_SUBMIT => ⟨0x0810A00, 8, 0x8, 1, 0x8, false⟩
  | .SRV_TREE_CFG => ⟨0x0810A80, 16, 0x8, 1, 0x8, false⟩
  | .SRV_TREE_BUCKET_BASE => ⟨0x0810B00, 16, 0x8, 1, 0x8, false⟩
  | .SRV_TREE_NODE_BASE => ⟨0x0810B80, 16, 0x8, 1, 0x8, false⟩
  | .SRV_TREE_SALT => ⟨0x0810C00, 16, 0x8, 1, 0x8, false⟩
  | .SRV_TREE_GEN => ⟨0x0810C80, 16, 0x8, 1, 0x8, false⟩
  | .SRV_TREE_OLDEST => ⟨0x0810D00, 16, 0x8, 1, 0x8, false⟩
  | .SRV_TREE_QCOUNT => ⟨0x0812000, 16, 0x200, 64, 0x8, false⟩
  | .SRV_PW_RING => ⟨0x0814000, 4, 0x8, 1, 0x8, false⟩
  | .SRV_PW_DOORBELL => ⟨0x0814020, 4, 0x8, 1, 0x8, false⟩
  | .SRV_ADMITTED => ⟨0x0814040, 1, 0x8, 1, 0x8, false⟩
  | .SRV_REFUSED => ⟨0x0814048, 1, 0x8, 1, 0x8, false⟩
  | .SRV_POLICED => ⟨0x0814050, 1, 0x8, 1, 0x8, false⟩
  | .SRV_CANCELLED => ⟨0x0814058, 1, 0x8, 1, 0x8, false⟩
  | .SRV_DONE_BEFORE_ABORT => ⟨0x0814060, 1, 0x8, 1, 0x8, false⟩
  | .SRV_STALE_HANDLE => ⟨0x0814068, 1, 0x8, 1, 0x8, false⟩
  | .SRV_EMIT_REFUSED => ⟨0x0814070, 1, 0x8, 1, 0x8, false⟩
  | .SRV_TOKENS_OUT => ⟨0x0814078, 1, 0x8, 1, 0x8, false⟩
  | .SRV_TALLY_LOST => ⟨0x0814080, 1, 0x8, 1, 0x8, false⟩
  | .SRC_INDEX_CFG => ⟨0x0C00000, 16, 0x8, 1, 0x8, false⟩
  | .SRC_INDEX_SIZE => ⟨0x0C00080, 16, 0x8, 1, 0x8, false⟩
  | .SRC_INDEX_ARITH => ⟨0x0C00100, 16, 0x8, 1, 0x8, false⟩
  | .SRC_INDEX_BASE => ⟨0x0C00400, 16, 0x40, 8, 0x8, false⟩
  | .SRC_INDEX_GEN => ⟨0x0C00800, 16, 0x8, 1, 0x8, false⟩
  | .SRC_INDEX_OLDEST => ⟨0x0C00880, 16, 0x8, 1, 0x8, false⟩
  | .SRC_INDEX_QCOUNT => ⟨0x0C02000, 16, 0x200, 64, 0x8, false⟩
  | .SRC_RING => ⟨0x0C04000, 16, 0x8, 1, 0x8, false⟩
  | .SRC_DOORBELL => ⟨0x0C04080, 16, 0x8, 1, 0x8, false⟩
  | .SRC_QUERIES => ⟨0x0C04100, 16, 0x8, 1, 0x8, false⟩
  | .SRC_EVALUATIONS => ⟨0x0C04180, 16, 0x8, 1, 0x8, false⟩
  | .SRC_EXPANSIONS => ⟨0x0C04200, 16, 0x8, 1, 0x8, false⟩
  | .SRC_BAD_EDGE => ⟨0x0C04280, 16, 0x8, 1, 0x8, false⟩
  | .SRV_KV_TABLE => ⟨0x0900000, 16384, 0x40, 8, 0x8, false⟩
  | .SRV_SLOT_TABLE => ⟨0x0A00000, 16384, 0x80, 16, 0x8, false⟩
  | .KIT_OPPOINT => ⟨0x1000000, 8, 0x100000, 1, 0x8, false⟩
  | .KIT_ROUTER_CONFIG => ⟨0x1000008, 8, 0x100000, 1, 0x8, false⟩
  | .KIT_KV_STAGE => ⟨0x1000010, 8, 0x100000, 1, 0x8, false⟩
  | .KIT_ROUTER_DISPATCHED => ⟨0x1000018, 8, 0x100000, 1, 0x8, false⟩
  | .KIT_ROUTER_OVERFLOW => ⟨0x1000020, 8, 0x100000, 1, 0x8, false⟩
  | .KIT_ROUTER_STREAM => ⟨0x1000028, 8, 0x100000, 1, 0x8, false⟩
  | .KIT_ROUTER_CANCELLED => ⟨0x1000030, 8, 0x100000, 1, 0x8, false⟩
  | .KIT_ROUTER_POISONED => ⟨0x1000038, 8, 0x100000, 1, 0x8, false⟩
  | .KIT_ROUTER_GATE_NAN => ⟨0x1000040, 8, 0x100000, 1, 0x8, false⟩
  | .KIT_KV_APPEND_STAGED => ⟨0x1000048, 8, 0x100000, 1, 0x8, false⟩
  | .KIT_KV_APPEND_DIRECT => ⟨0x1000050, 8, 0x100000, 1, 0x8, false⟩
  | .KIT_KV_POOL_EMPTY => ⟨0x1000058, 8, 0x100000, 1, 0x8, false⟩
  | .KIT_KV_FLUSH_FULL => ⟨0x1000060, 8, 0x100000, 1, 0x8, false⟩
  | .KIT_KV_FLUSH_OTHER => ⟨0x1000068, 8, 0x100000, 1, 0x8, false⟩
  | .KIT_KV_DROPPED => ⟨0x1000070, 8, 0x100000, 1, 0x8, false⟩
  | .KIT_KV_HANDOFF_BYTES => ⟨0x1000078, 8, 0x100000, 1, 0x8, false⟩
  | .KIT_ROUTER_DIR => ⟨0x1080000, 8, 0x100000, 65536, 0x8, false⟩
  | .DRM_STEP_CONFIG => ⟨0x3000000, 8, 0x100000, 156, 0x1000, false⟩
  | .DRM_INBOX => ⟨0x3000008, 8, 0x100000, 156, 0x1000, false⟩
  | .DRM_LATE_STALL => ⟨0x3000010, 8, 0x100000, 156, 0x1000, false⟩
  | .DRM_LATE_THRESH => ⟨0x3000018, 8, 0x100000, 156, 0x1000, false⟩
  | .DRM_TEMPO => ⟨0x3000020, 8, 0x100000, 156, 0x1000, false⟩
  | .DRM_CALIB => ⟨0x3000028, 8, 0x100000, 156, 0x1000, false⟩
  | .DRM_CTX_CONTROL => ⟨0x3000030, 8, 0x100000, 156, 0x1000, false⟩
  | .DRM_TMAC_DENSE => ⟨0x3000038, 8, 0x100000, 156, 0x1000, false⟩
  | .DRM_TMAC_SPARSE => ⟨0x3000040, 8, 0x100000, 156, 0x1000, false⟩
  | .DRM_TMAC_SKIPPED => ⟨0x3000048, 8, 0x100000, 156, 0x1000, false⟩
  | .DRM_CAUSALB_MASKED => ⟨0x3000050, 8, 0x100000, 156, 0x1000, false⟩
  | .DRM_CAUSALB_PARTIAL => ⟨0x3000058, 8, 0x100000, 156, 0x1000, false⟩
  | .DRM_CAUSALB_VISIBLE => ⟨0x3000060, 8, 0x100000, 156, 0x1000, false⟩

/-- The fields of each register, from its table; bits in no field are RSV. [log 5: DESIGN CHOICE] -/
def RegName.fields : RegName → List Fld
  | .HUB_IDENTITY => [F.HUB_IDENTITY_PART, F.HUB_IDENTITY_STEPPING, F.HUB_IDENTITY_KITS, F.HUB_IDENTITY_NODE, F.HUB_IDENTITY_FORMAT]
  | .HUB_STATUS => [F.HUB_STATUS_READY, F.HUB_STATUS_ATTN, F.HUB_STATUS_RB_RELEASED, F.HUB_STATUS_CAUSE_EVENT, F.HUB_STATUS_CAUSE_LOG_LOST, F.HUB_STATUS_CAUSE_BOOT, F.HUB_STATUS_CAUSE_CQ, F.HUB_STATUS_CAUSE_RAISE, F.HUB_STATUS_STAGE, F.HUB_STATUS_EVENT_SEQ]
  | .HUB_ATTN_CFG => [F.HUB_ATTN_CFG_RAISE, F.HUB_ATTN_CFG_RENOTIFY_MS]
  | .HUB_BOOT => [F.HUB_BOOT_STAGE, F.HUB_BOOT_FAIL, F.HUB_BOOT_WARM, F.HUB_BOOT_SLOT, F.HUB_BOOT_EPOCH_SRC, F.HUB_BOOT_ELAPSED_MS, F.HUB_BOOT_IMAGE_VERSION]
  | .HUB_TIME => [F.HUB_TIME_NS]
  | .HUB_RESET => [F.HUB_RESET_KEY, F.HUB_RESET_KIND]
  | .HUB_HOST_WINDOW => [F.HUB_HOST_WINDOW_ENABLE, F.HUB_HOST_WINDOW_BASE]
  | .HUB_PAIR_CFG => [F.HUB_PAIR_CFG_ENABLE, F.HUB_PAIR_CFG_START, F.HUB_PAIR_CFG_PAIR_NODE, F.HUB_PAIR_CFG_PARTNER_NODE, F.HUB_PAIR_CFG_PROMOTE_STEPS]
  | .HUB_PAIR_STATUS => [F.HUB_PAIR_STATUS_ROLE, F.HUB_PAIR_STATUS_RESYNC, F.HUB_PAIR_STATUS_PARTNER_UP, F.HUB_PAIR_STATUS_LINKS, F.HUB_PAIR_STATUS_CLEAN_STEPS, F.HUB_PAIR_STATUS_LAG_US, F.HUB_PAIR_STATUS_DIVERGENCES]
  | .HUB_CC_RESTART => [F.HUB_CC_RESTART_CORES]
  | .HUB_CC_WATCHDOG => [F.HUB_CC_WATCHDOG_ENABLE, F.HUB_CC_WATCHDOG_RESTART, F.HUB_CC_WATCHDOG_KICK, F.HUB_CC_WATCHDOG_TIMEOUT_MS]
  | .HUB_CC_IMAGE => [F.HUB_CC_IMAGE_VALID, F.HUB_CC_IMAGE_INDEX, F.HUB_CC_IMAGE_DIGEST]
  | .HUB_CFG_CMD => [F.HUB_CFG_CMD_OP, F.HUB_CFG_CMD_PERSIST, F.HUB_CFG_CMD_HOLD_LIMIT_US]
  | .HUB_CFG_RESULT => [F.HUB_CFG_RESULT_DONE, F.HUB_CFG_RESULT_CODE, F.HUB_CFG_RESULT_FIRST_BAD]
  | .HUB_CFG_STATUS => [F.HUB_CFG_STATUS_PHASE, F.HUB_CFG_STATUS_OWNER, F.HUB_CFG_STATUS_DURABLE, F.HUB_CFG_STATUS_PREV_VALID, F.HUB_CFG_STATUS_CURRENT]
  | .HUB_CFG_PREVIOUS => [F.HUB_CFG_PREVIOUS_NUMBER]
  | .HUB_CFG_VIEW => [F.HUB_CFG_VIEW_STAGED]
  | .HUB_FLOOR_TABLE => [F.HUB_FLOOR_TABLE_STEP, F.HUB_FLOOR_TABLE_BAND, F.HUB_FLOOR_TABLE_FLOOR]
  | .HUB_HQ_CFG => [F.HUB_HQ_CFG_ENABLE, F.HUB_HQ_CFG_ATTN_EN, F.HUB_HQ_CFG_PARTITION, F.HUB_HQ_CFG_SQ_LOG2, F.HUB_HQ_CFG_CQ_LOG2]
  | .HUB_HQ_SQ_BASE => [F.HUB_HQ_SQ_BASE_ADDR]
  | .HUB_HQ_CQ_BASE => [F.HUB_HQ_CQ_BASE_ADDR]
  | .HUB_HQ_STATUS => [F.HUB_HQ_STATUS_SQ_HEAD, F.HUB_HQ_STATUS_CQ_TAIL, F.HUB_HQ_STATUS_PHASE]
  | .HUB_HQ_SQ_TAIL => [F.HUB_HQ_SQ_TAIL_TAIL]
  | .HUB_HQ_CQ_HEAD => [F.HUB_HQ_CQ_HEAD_HEAD]
  | .EVT_HEAD => [F.EVT_HEAD_SEQ]
  | .EVT_READ => [F.EVT_READ_SEQ]
  | .EVT_WINDOW => [F.EVT_WINDOW_WORD]
  | .EVT_WINDOW_SRC => [F.EVT_WINDOW_SRC_SOURCE, F.EVT_WINDOW_SRC_OLDER]
  | .EVT_OVERWRITES => [F.EVT_OVERWRITES_COUNT]
  | .EVT_LOST => [F.EVT_LOST_COUNT]
  | .EVT_STATUS => [F.EVT_STATUS_BANK0_LOST, F.EVT_STATUS_BANK1_LOST, F.EVT_STATUS_SPILL_ACTIVE, F.EVT_STATUS_SPILL_LOST]
  | .EVT_ATTN_MASK => [F.EVT_ATTN_MASK_CATEGORIES]
  | .EVT_SPILL_CFG => [F.EVT_SPILL_CFG_ENABLE, F.EVT_SPILL_CFG_BASE, F.EVT_SPILL_CFG_SIZE]
  | .EVT_SPILL_PTR => [F.EVT_SPILL_PTR_SEQ]
  | .SEC_DEFAULT_LOCK => [F.SEC_DEFAULT_LOCK_FUSED, F.SEC_DEFAULT_LOCK_LOCKED]
  | .PWR_CAP => [F.PWR_CAP_ENABLE, F.PWR_CAP_CAP_W, F.PWR_CAP_HYST_W]
  | .PWR_STATUS => [F.PWR_STATUS_POWER_W, F.PWR_STATUS_TJ_MAX, F.PWR_STATUS_THERMAL_KITS, F.PWR_STATUS_CAP_UNMET, F.PWR_STATUS_FLOOR_OVER_CAP, F.PWR_STATUS_THERMAL_SEEN, F.PWR_STATUS_RAIL_FAULT]
  | .PWR_KIT => [F.PWR_KIT_STEP, F.PWR_KIT_TARGET, F.PWR_KIT_MIN_STEP, F.PWR_KIT_POWER_W]
  | .PWR_ENERGY => [F.PWR_ENERGY_MJ]
  | .FAB_CONFIG => [F.FAB_CONFIG_NODE, F.FAB_CONFIG_DEAD_BOUND_US]
  | .FAB_PORT_CFG => [F.FAB_PORT_CFG_ENABLE, F.FAB_PORT_CFG_MAX_WIDTH, F.FAB_PORT_CFG_GROUP]
  | .FAB_PORT_STATUS => [F.FAB_PORT_STATUS_UP, F.FAB_PORT_STATUS_WIDTH, F.FAB_PORT_STATUS_RETRAINS, F.FAB_PORT_STATUS_LAST_DOWN]
  | .FAB_EXPORT_RED => [F.FAB_EXPORT_RED_CHECK, F.FAB_EXPORT_RED_ANCHOR]
  | .FAB_PEAL => [F.FAB_PEAL_VALID, F.FAB_PEAL_FGROUP, F.FAB_PEAL_EXPORT, F.FAB_PEAL_MEMBERS]
  | .FAB_GONG_CFG => [F.FAB_GONG_CFG_LINE_ID, F.FAB_GONG_CFG_COUNTER, F.FAB_GONG_CFG_SOUND_GROUP]
  | .FAB_FEC_CORRECTED => [F.FAB_FEC_CORRECTED_COUNT]
  | .FAB_FRAME_RESENT => [F.FAB_FRAME_RESENT_COUNT]
  | .FAB_LINK_DOWN_COUNT => [F.FAB_LINK_DOWN_COUNT_COUNT]
  | .FAB_TARGET_DEAD_COUNT => [F.FAB_TARGET_DEAD_COUNT_COUNT]
  | .FAB_LATE_ANSWER => [F.FAB_LATE_ANSWER_COUNT]
  | .FAB_REFUSED_OUT => [F.FAB_REFUSED_OUT_COUNT]
  | .FAB_REFUSED_IN => [F.FAB_REFUSED_IN_COUNT]
  | .FAB_EGRESS_DROP => [F.FAB_EGRESS_DROP_COUNT]
  | .FAB_ROUTE_CHANGE => [F.FAB_ROUTE_CHANGE_COUNT]
  | .FAB_TAINT_IN => [F.FAB_TAINT_IN_COUNT]
  | .FAB_EGRESS => [F.FAB_EGRESS_VALID, F.FAB_EGRESS_ADAPTIVE, F.FAB_EGRESS_SEED_PORT, F.FAB_EGRESS_ALT_PORT, F.FAB_EGRESS_ALT_VALID, F.FAB_EGRESS_PORT, F.FAB_EGRESS_LEARNED_ALT, F.FAB_EGRESS_LEARNED_ALT_VALID, F.FAB_EGRESS_STATE]
  | .MEM_SPAN_CTL => [F.MEM_SPAN_CTL_VALID, F.MEM_SPAN_CTL_KIND, F.MEM_SPAN_CTL_RIGHTS, F.MEM_SPAN_CTL_DISCARD_ON_REMOVE, F.MEM_SPAN_CTL_OWNER, F.MEM_SPAN_CTL_LENGTH_M1]
  | .MEM_SPAN_BASE => [F.MEM_SPAN_BASE_BASE]
  | .MEM_HUB_RANGE => [F.MEM_HUB_RANGE_VALID, F.MEM_HUB_RANGE_FIRST, F.MEM_HUB_RANGE_COUNT]
  | .MEM_EXTENT_TGT => [F.MEM_EXTENT_TGT_NODE, F.MEM_EXTENT_TGT_EXPORT, F.MEM_EXTENT_TGT_OFFSET]
  | .MEM_EXTENT_LEN => [F.MEM_EXTENT_LEN_LEN_M1]
  | .MEM_EXPORT_CTL => [F.MEM_EXPORT_CTL_VALID, F.MEM_EXPORT_CTL_KIND, F.MEM_EXPORT_CTL_RIGHTS, F.MEM_EXPORT_CTL_PARTITION, F.MEM_EXPORT_CTL_SPAN, F.MEM_EXPORT_CTL_PEER_MATCH, F.MEM_EXPORT_CTL_PEER_MASK, F.MEM_EXPORT_CTL_CHARGE]
  | .MEM_EXPORT_RANGE => [F.MEM_EXPORT_RANGE_LEN_M1, F.MEM_EXPORT_RANGE_BASE]
  | .MEM_QUOTA => [F.MEM_QUOTA_LIMIT, F.MEM_QUOTA_USED]
  | .MEM_PART_QUOTA => [F.MEM_PART_QUOTA_LIMIT, F.MEM_PART_QUOTA_USED]
  | .MEM_PART_CHARGE => [F.MEM_PART_CHARGE_SUBSCRIBER]
  | .MEM_ACCT => [F.MEM_ACCT_COUNT]
  | .MEM_ACCT_SAT => [F.MEM_ACCT_SAT_SAT]
  | .MEM_ACCT_LATCH => [F.MEM_ACCT_LATCH_SUBSCRIBER]
  | .MEM_ACCT_SNAP => [F.MEM_ACCT_SNAP_COUNT]
  | .MEM_DISCARD => [F.MEM_DISCARD_COUNT_M1, F.MEM_DISCARD_PAGE]
  | .MEM_DISCARD_RESULT => [F.MEM_DISCARD_RESULT_DONE, F.MEM_DISCARD_RESULT_OVERRUN, F.MEM_DISCARD_RESULT_CODE]
  | .FLS_CONFIG => [F.FLS_CONFIG_ENABLE, F.FLS_CONFIG_LOGICAL_UNITS]
  | .FLS_MAP_BASE => [F.FLS_MAP_BASE_BASE]
  | .FLS_MAINT => [F.FLS_MAINT_RD_THRESH, F.FLS_MAINT_RD_GRACE, F.FLS_MAINT_WEAR_SPREAD, F.FLS_MAINT_FREE_LOW]
  | .FLS_STATUS => [F.FLS_STATUS_READY, F.FLS_STATUS_WRITE_LOCK, F.FLS_STATUS_TR_US, F.FLS_STATUS_RETIRED_BLOCKS, F.FLS_STATUS_RELOC_PENDING]
  | .FLS_APERTURE => [F.FLS_APERTURE_VALID, F.FLS_APERTURE_PARTITION, F.FLS_APERTURE_LBASE]
  | .INT_SCRUB_CFG => [F.INT_SCRUB_CFG_ENABLE, F.INT_SCRUB_CFG_RATE, F.INT_SCRUB_CFG_OVERDUE_H, F.INT_SCRUB_CFG_CE_LIMIT]
  | .INT_SCRUB_LAP => [F.INT_SCRUB_LAP_LAP_MS, F.INT_SCRUB_LAP_LAP_COUNT]
  | .INT_SCRUB_STATUS => [F.INT_SCRUB_STATUS_ELAPSED_MS, F.INT_SCRUB_STATUS_LAP_SAT, F.INT_SCRUB_STATUS_OVERDUE, F.INT_SCRUB_STATUS_RUNNING]
  | .INT_SCHECK => [F.INT_SCHECK_KIND, F.INT_SCHECK_UNIT, F.INT_SCHECK_PARTNER]
  | .INT_SCHECK_SEED => [F.INT_SCHECK_SEED_SEED]
  | .INT_SCHECK_RESULT => [F.INT_SCHECK_RESULT_DONE, F.INT_SCHECK_RESULT_REFEREE, F.INT_SCHECK_RESULT_CODE]
  | .INT_OBS_CFG => [F.INT_OBS_CFG_PERIOD_S, F.INT_OBS_CFG_CLEAR_PASSES, F.INT_OBS_CFG_FORCE_S]
  | .INT_OBS => [F.INT_OBS_VALID, F.INT_OBS_REASON, F.INT_OBS_PASSES, F.INT_OBS_UNRESOLVED, F.INT_OBS_UNIT]
  | .INT_OBS_FROM => [F.INT_OBS_FROM_SUSPECT_FROM]
  | .INT_OBS_ADD => [F.INT_OBS_ADD_REASON, F.INT_OBS_ADD_UNIT]
  | .INT_JOURNAL => [F.INT_JOURNAL_ENABLE, F.INT_JOURNAL_BASE, F.INT_JOURNAL_SIZE]
  | .INT_ECC => [F.INT_ECC_CE, F.INT_ECC_UE]
  | .INT_PARITY => [F.INT_PARITY_COUNT]
  | .INT_CHECKS => [F.INT_CHECKS_COUNT]
  | .INT_CONFIRMED => [F.INT_CONFIRMED_COUNT]
  | .INT_TAINT_SENT => [F.INT_TAINT_SENT_COUNT]
  | .INT_TAINT_LOCAL => [F.INT_TAINT_LOCAL_COUNT]
  | .INT_HUB_BAD => [F.INT_HUB_BAD_GRANULES]
  | .PAR_CONFIG => [F.PAR_CONFIG_ENABLE, F.PAR_CONFIG_MODE, F.PAR_CONFIG_GUEST, F.PAR_CONFIG_HOST, F.PAR_CONFIG_KIT_MASK, F.PAR_CONFIG_ROLES]
  | .PAR_LEND => [F.PAR_LEND_VALID, F.PAR_LEND_BASE, F.PAR_LEND_COUNT]
  | .PAR_REG => [F.PAR_REG_GUARANTEE, F.PAR_REG_CAP]
  | .PAR_REG_STATUS => [F.PAR_REG_STATUS_SHORT]
  | .PAR_REG_STAT => [F.PAR_REG_STAT_LAST, F.PAR_REG_STAT_DEFERRED]
  | .PAR_LIVESET => [F.PAR_LIVESET_VALID, F.PAR_LIVESET_COUNT, F.PAR_LIVESET_BASE]
  | .PAR_SAVE => [F.PAR_SAVE_VALID, F.PAR_SAVE_SPAN, F.PAR_SAVE_OFFSET, F.PAR_SAVE_LENGTH]
  | .PAR_PREEMPT => [F.PAR_PREEMPT_OP, F.PAR_PREEMPT_PARTITION, F.PAR_PREEMPT_GUEST, F.PAR_PREEMPT_LEND, F.PAR_PREEMPT_WAIT]
  | .PAR_PREEMPT_RESULT => [F.PAR_PREEMPT_RESULT_DONE, F.PAR_PREEMPT_RESULT_IMAGE_BYTES, F.PAR_PREEMPT_RESULT_CODE]
  | .PAR_PREEMPT_STATUS => [F.PAR_PREEMPT_STATUS_PHASE, F.PAR_PREEMPT_STATUS_GUEST, F.PAR_PREEMPT_STATUS_KIT_LOST, F.PAR_PREEMPT_STATUS_SAVE_US, F.PAR_PREEMPT_STATUS_IMAGE_BYTES]
  | .PAR_STEP_BUDGET => [F.PAR_STEP_BUDGET_HS_BOUND, F.PAR_STEP_BUDGET_STALL_NS]
  | .PAR_STEP_WATCHDOG => [F.PAR_STEP_WATCHDOG_GRACE_US, F.PAR_STEP_WATCHDOG_JOB_LIMIT_MS, F.PAR_STEP_WATCHDOG_DEADLINE_EN, F.PAR_STEP_WATCHDOG_WATCHDOG_EN]
  | .PAR_STEP_DEADLINE => [F.PAR_STEP_DEADLINE_D_NS]
  | .PAR_STEP_STATUS => [F.PAR_STEP_STATUS_RESIDENT_US, F.PAR_STEP_STATUS_STATE, F.PAR_STEP_STATUS_BELOW_FLOOR_SEEN, F.PAR_STEP_STATUS_CALIB_FORCED, F.PAR_STEP_STATUS_DEADLINE_MISSED, F.PAR_STEP_STATUS_WATCHDOG_FIRED]
  | .PAR_STEP_SEQ => [F.PAR_STEP_SEQ_SEQ]
  | .PAR_GONG_LINE => [F.PAR_GONG_LINE_ENABLE, F.PAR_GONG_LINE_KIND, F.PAR_GONG_LINE_SCOPE, F.PAR_GONG_LINE_ARRIVED, F.PAR_GONG_LINE_EXPECTED, F.PAR_GONG_LINE_PHASE]
  | .PAR_SIJ_CFG => [F.PAR_SIJ_CFG_ENABLE, F.PAR_SIJ_CFG_REPLAYABLE, F.PAR_SIJ_CFG_JKIT, F.PAR_SIJ_CFG_BASE, F.PAR_SIJ_CFG_STRIDE]
  | .PAR_SIJ_IN => [F.PAR_SIJ_IN_VALID, F.PAR_SIJ_IN_ADDR]
  | .PAR_SIJ_LEN => [F.PAR_SIJ_LEN_LEN64]
  | .PAR_REPLAY => [F.PAR_REPLAY_PARTITION, F.PAR_REPLAY_SEQ]
  | .PAR_REPLAY_RESULT => [F.PAR_REPLAY_RESULT_DONE, F.PAR_REPLAY_RESULT_CODE]
  | .PAR_PAIR_HOLD => [F.PAR_PAIR_HOLD_VALID, F.PAR_PAIR_HOLD_HKIT, F.PAR_PAIR_HOLD_BASE, F.PAR_PAIR_HOLD_SIZE]
  | .TRN_QUEUE_CFG => [F.TRN_QUEUE_CFG_ENABLE, F.TRN_QUEUE_CFG_MALLET, F.TRN_QUEUE_CFG_CLASS_MIN, F.TRN_QUEUE_CFG_LOG2_DEPTH, F.TRN_QUEUE_CFG_BASE]
  | .TRN_QUEUE_PTR => [F.TRN_QUEUE_PTR_HEAD, F.TRN_QUEUE_PTR_TAIL]
  | .TRN_PART_DEFAULT => [F.TRN_PART_DEFAULT_SUBSCRIBER, F.TRN_PART_DEFAULT_SERVICE, F.TRN_PART_DEFAULT_CLASS]
  | .TRN_SUBMIT => [F.TRN_SUBMIT_PARTITION, F.TRN_SUBMIT_QUEUE, F.TRN_SUBMIT_ADDR]
  | .TRN_SUBMIT_RESULT => [F.TRN_SUBMIT_RESULT_DONE, F.TRN_SUBMIT_RESULT_CODE, F.TRN_SUBMIT_RESULT_SEQ]
  | .TRN_ABORT => [F.TRN_ABORT_PARTITION, F.TRN_ABORT_QUEUE, F.TRN_ABORT_SEQ]
  | .TRN_ABORT_RESULT => [F.TRN_ABORT_RESULT_DONE, F.TRN_ABORT_RESULT_CODE]
  | .TRN_SUB_CFG => [F.TRN_SUB_CFG_PART_MASK]
  | .TRN_SUB_POLICE => [F.TRN_SUB_POLICE_RATE, F.TRN_SUB_POLICE_BURST]
  | .TRN_SUB_SHAPE => [F.TRN_SUB_SHAPE_RATE]
  | .TRN_SERVICE_DRR => [F.TRN_SERVICE_DRR_QUANTUM]
  | .TRN_PARCELS => [F.TRN_PARCELS_COUNT]
  | .TRN_BYTES_RAW => [F.TRN_BYTES_RAW_COUNT]
  | .TRN_BYTES_WIRE => [F.TRN_BYTES_WIRE_COUNT]
  | .TRN_DEFERRED => [F.TRN_DEFERRED_COUNT]
  | .TRN_SPLIT => [F.TRN_SPLIT_COUNT]
  | .TRN_POLICED_PARCELS => [F.TRN_POLICED_PARCELS_COUNT]
  | .TRN_WHEEL_FAR => [F.TRN_WHEEL_FAR_COUNT]
  | .TRN_RX_FULL => [F.TRN_RX_FULL_COUNT]
  | .TRN_RX_INCOMPLETE => [F.TRN_RX_INCOMPLETE_COUNT]
  | .CDC_PART_CFG => [F.CDC_PART_CFG_UNIT_MASK, F.CDC_PART_CFG_WEIGHT_DFMT, F.CDC_PART_CFG_KV_DFMT, F.CDC_PART_CFG_KV_STRIDE, F.CDC_PART_CFG_REF_ID, F.CDC_PART_CFG_FORCE_CHECKED]
  | .CDC_REF => [F.CDC_REF_VALID, F.CDC_REF_PARTITION, F.CDC_REF_SPAN]
  | .CDC_BLOCKS_CODED => [F.CDC_BLOCKS_CODED_COUNT]
  | .CDC_BLOCKS_RAW => [F.CDC_BLOCKS_RAW_COUNT]
  | .CDC_RAW_BYTES => [F.CDC_RAW_BYTES_COUNT]
  | .CDC_STREAM_BYTES => [F.CDC_STREAM_BYTES_COUNT]
  | .CDC_BYPASS => [F.CDC_BYPASS_COUNT]
  | .CDC_DAMAGE => [F.CDC_DAMAGE_COUNT]
  | .CDC_REF_POISON => [F.CDC_REF_POISON_COUNT]
  | .SRV_SUB_POLICE => [F.SRV_SUB_POLICE_TOK_RATE, F.SRV_SUB_POLICE_TOK_BURST, F.SRV_SUB_POLICE_REQ_RATE, F.SRV_SUB_POLICE_REQ_BURST]
  | .SRV_SUB_CFG => [F.SRV_SUB_CFG_ENABLE, F.SRV_SUB_CFG_MAX_SLOTS, F.SRV_SUB_CFG_SLOTS]
  | .SRV_SERVICE => [F.SRV_SERVICE_ENABLE, F.SRV_SERVICE_PARTITION, F.SRV_SERVICE_MAX_CLASS, F.SRV_SERVICE_TREE, F.SRV_SERVICE_TREE_EN]
  | .SRV_PART_SERVE => [F.SRV_PART_SERVE_SLOT_BASE, F.SRV_PART_SERVE_SLOT_COUNT, F.SRV_PART_SERVE_ADMIT_EXPORT, F.SRV_PART_SERVE_ADMIT_EN]
  | .SRV_KV_CMD => [F.SRV_KV_CMD_OP, F.SRV_KV_CMD_SLOT, F.SRV_KV_CMD_PARTITION, F.SRV_KV_CMD_LINE_EN, F.SRV_KV_CMD_LINE, F.SRV_KV_CMD_RECEIVE, F.SRV_KV_CMD_ARG]
  | .SRV_KV_RESULT => [F.SRV_KV_RESULT_DONE, F.SRV_KV_RESULT_HELD, F.SRV_KV_RESULT_OVERRUN, F.SRV_KV_RESULT_CODE]
  | .SRV_SLOT_CMD => [F.SRV_SLOT_CMD_OP, F.SRV_SLOT_CMD_SLOT, F.SRV_SLOT_CMD_GENERATION, F.SRV_SLOT_CMD_LOG2]
  | .SRV_SLOT_ARG => [F.SRV_SLOT_ARG_ARG]
  | .SRV_SLOT_RESULT => [F.SRV_SLOT_RESULT_DONE, F.SRV_SLOT_RESULT_CODE]
  | .SRV_STEP_SUBMIT => [F.SRV_STEP_SUBMIT_LIST, F.SRV_STEP_SUBMIT_COUNT, F.SRV_STEP_SUBMIT_PENDING]
  | .SRV_STEP_RING => [F.SRV_STEP_RING_BASE, F.SRV_STEP_RING_LOG2]
  | .SRV_EMIT_SUBMIT => [F.SRV_EMIT_SUBMIT_LIST, F.SRV_EMIT_SUBMIT_COUNT_M1, F.SRV_EMIT_SUBMIT_PENDING]
  | .SRV_TREE_CFG => [F.SRV_TREE_CFG_ENABLE, F.SRV_TREE_CFG_WALKER, F.SRV_TREE_CFG_LOG2_BUCKETS, F.SRV_TREE_CFG_NODES]
  | .SRV_TREE_BUCKET_BASE => [F.SRV_TREE_BUCKET_BASE_BASE]
  | .SRV_TREE_NODE_BASE => [F.SRV_TREE_NODE_BASE_BASE]
  | .SRV_TREE_SALT => [F.SRV_TREE_SALT_SALT]
  | .SRV_TREE_GEN => [F.SRV_TREE_GEN_CURRENT]
  | .SRV_TREE_OLDEST => [F.SRV_TREE_OLDEST_OLDEST]
  | .SRV_TREE_QCOUNT => [F.SRV_TREE_QCOUNT_COUNT]
  | .SRV_PW_RING => [F.SRV_PW_RING_ENABLE, F.SRV_PW_RING_LOG2, F.SRV_PW_RING_BASE]
  | .SRV_PW_DOORBELL => [F.SRV_PW_DOORBELL_HEAD, F.SRV_PW_DOORBELL_TAIL]
  | .SRV_ADMITTED => [F.SRV_ADMITTED_COUNT]
  | .SRV_REFUSED => [F.SRV_REFUSED_COUNT]
  | .SRV_POLICED => [F.SRV_POLICED_COUNT]
  | .SRV_CANCELLED => [F.SRV_CANCELLED_COUNT]
  | .SRV_DONE_BEFORE_ABORT => [F.SRV_DONE_BEFORE_ABORT_COUNT]
  | .SRV_STALE_HANDLE => [F.SRV_STALE_HANDLE_COUNT]
  | .SRV_EMIT_REFUSED => [F.SRV_EMIT_REFUSED_COUNT]
  | .SRV_TOKENS_OUT => [F.SRV_TOKENS_OUT_COUNT]
  | .SRV_TALLY_LOST => [F.SRV_TALLY_LOST_COUNT]
  | .SRC_INDEX_CFG => [F.SRC_INDEX_CFG_ENABLE, F.SRC_INDEX_CFG_CORE, F.SRC_INDEX_CFG_PARTITION, F.SRC_INDEX_CFG_METRIC, F.SRC_INDEX_CFG_DEGREE, F.SRC_INDEX_CFG_M, F.SRC_INDEX_CFG_TFMT, F.SRC_INDEX_CFG_DSUB, F.SRC_INDEX_CFG_ENTRY]
  | .SRC_INDEX_SIZE => [F.SRC_INDEX_SIZE_NODES, F.SRC_INDEX_SIZE_LISTS]
  | .SRC_INDEX_ARITH => [F.SRC_INDEX_ARITH_TABLE_ANCHOR, F.SRC_INDEX_ARITH_DIST_ANCHOR, F.SRC_INDEX_ARITH_RERANK_ANCHOR]
  | .SRC_INDEX_BASE => [F.SRC_INDEX_BASE_BASE]
  | .SRC_INDEX_GEN => [F.SRC_INDEX_GEN_CURRENT]
  | .SRC_INDEX_OLDEST => [F.SRC_INDEX_OLDEST_OLDEST]
  | .SRC_INDEX_QCOUNT => [F.SRC_INDEX_QCOUNT_COUNT]
  | .SRC_RING => [F.SRC_RING_ENABLE, F.SRC_RING_LOG2, F.SRC_RING_BASE]
  | .SRC_DOORBELL => [F.SRC_DOORBELL_HEAD, F.SRC_DOORBELL_TAIL]
  | .SRC_QUERIES => [F.SRC_QUERIES_COUNT]
  | .SRC_EVALUATIONS => [F.SRC_EVALUATIONS_COUNT]
  | .SRC_EXPANSIONS => [F.SRC_EXPANSIONS_COUNT]
  | .SRC_BAD_EDGE => [F.SRC_BAD_EDGE_COUNT]
  | .SRV_KV_TABLE => [F.SRV_KV_TABLE_WORD]
  | .SRV_SLOT_TABLE => [F.SRV_SLOT_TABLE_WORD]
  | .KIT_OPPOINT => [F.KIT_OPPOINT_MIN_TEMPO, F.KIT_OPPOINT_FLOOR, F.KIT_OPPOINT_MIN_DRUM, F.KIT_OPPOINT_TJ_MAX, F.KIT_OPPOINT_STEP, F.KIT_OPPOINT_BAND, F.KIT_OPPOINT_BELOW_FLOOR, F.KIT_OPPOINT_VALID]
  | .KIT_ROUTER_CONFIG => [F.KIT_ROUTER_CONFIG_LAYER_START, F.KIT_ROUTER_CONFIG_LAYER, F.KIT_ROUTER_CONFIG_LINE, F.KIT_ROUTER_CONFIG_LINE_EN, F.KIT_ROUTER_CONFIG_GATE, F.KIT_ROUTER_CONFIG_RET_SPAN, F.KIT_ROUTER_CONFIG_RET_EXPORT, F.KIT_ROUTER_CONFIG_ACT_UNITS, F.KIT_ROUTER_CONFIG_RET_UNITS, F.KIT_ROUTER_CONFIG_ENABLE]
  | .KIT_KV_STAGE => [F.KIT_KV_STAGE_BASE, F.KIT_KV_STAGE_FIRST_DRUM, F.KIT_KV_STAGE_DRUMS, F.KIT_KV_STAGE_PAGES, F.KIT_KV_STAGE_STAGE_UNITS]
  | .KIT_ROUTER_DISPATCHED => [F.KIT_ROUTER_DISPATCHED_COUNT]
  | .KIT_ROUTER_OVERFLOW => [F.KIT_ROUTER_OVERFLOW_COUNT]
  | .KIT_ROUTER_STREAM => [F.KIT_ROUTER_STREAM_COUNT]
  | .KIT_ROUTER_CANCELLED => [F.KIT_ROUTER_CANCELLED_COUNT]
  | .KIT_ROUTER_POISONED => [F.KIT_ROUTER_POISONED_COUNT]
  | .KIT_ROUTER_GATE_NAN => [F.KIT_ROUTER_GATE_NAN_COUNT]
  | .KIT_KV_APPEND_STAGED => [F.KIT_KV_APPEND_STAGED_COUNT]
  | .KIT_KV_APPEND_DIRECT => [F.KIT_KV_APPEND_DIRECT_COUNT]
  | .KIT_KV_POOL_EMPTY => [F.KIT_KV_POOL_EMPTY_COUNT]
  | .KIT_KV_FLUSH_FULL => [F.KIT_KV_FLUSH_FULL_COUNT]
  | .KIT_KV_FLUSH_OTHER => [F.KIT_KV_FLUSH_OTHER_COUNT]
  | .KIT_KV_DROPPED => [F.KIT_KV_DROPPED_COUNT]
  | .KIT_KV_HANDOFF_BYTES => [F.KIT_KV_HANDOFF_BYTES_COUNT]
  | .KIT_ROUTER_DIR => [F.KIT_ROUTER_DIR_WORD]
  | .DRM_STEP_CONFIG => [F.DRM_STEP_CONFIG_PLIST_BASE, F.DRM_STEP_CONFIG_PROG_BASE, F.DRM_STEP_CONFIG_PROG_SIZE, F.DRM_STEP_CONFIG_ROT, F.DRM_STEP_CONFIG_PLIST_EN]
  | .DRM_INBOX => [F.DRM_INBOX_BASE, F.DRM_INBOX_LOG2_RECORDS, F.DRM_INBOX_PENDING]
  | .DRM_LATE_STALL => [F.DRM_LATE_STALL_LIST_HOLD, F.DRM_LATE_STALL_STALL_TURNS]
  | .DRM_LATE_THRESH => [F.DRM_LATE_THRESH_THRESH]
  | .DRM_TEMPO => [F.DRM_TEMPO_COUNT]
  | .DRM_CALIB => [F.DRM_CALIB_RATIO, F.DRM_CALIB_AGE_MS, F.DRM_CALIB_FORCED, F.DRM_CALIB_MISMATCH, F.DRM_CALIB_DONE]
  | .DRM_CTX_CONTROL => [F.DRM_CTX_CONTROL_PC, F.DRM_CTX_CONTROL_MALLET, F.DRM_CTX_CONTROL_CTX, F.DRM_CTX_CONTROL_ACTION]
  | .DRM_TMAC_DENSE => [F.DRM_TMAC_DENSE_TURNS]
  | .DRM_TMAC_SPARSE => [F.DRM_TMAC_SPARSE_TURNS]
  | .DRM_TMAC_SKIPPED => [F.DRM_TMAC_SKIPPED_HS]
  | .DRM_CAUSALB_MASKED => [F.DRM_CAUSALB_MASKED_COUNT]
  | .DRM_CAUSALB_PARTIAL => [F.DRM_CAUSALB_PARTIAL_COUNT]
  | .DRM_CAUSALB_VISIBLE => [F.DRM_CAUSALB_VISIBLE_COUNT]

/-- Part 0 of the register names, in the order of the map. -/
def regNames0 : List RegName := [.HUB_IDENTITY, .HUB_STATUS, .HUB_ATTN_CFG, .HUB_BOOT, .HUB_TIME, .HUB_RESET, .HUB_HOST_WINDOW, .HUB_PAIR_CFG, .HUB_PAIR_STATUS, .HUB_CC_RESTART, .HUB_CC_WATCHDOG, .HUB_CC_IMAGE, .HUB_CFG_CMD, .HUB_CFG_RESULT, .HUB_CFG_STATUS, .HUB_CFG_PREVIOUS]
/-- Part 1 of the register names, in the order of the map. -/
def regNames1 : List RegName := [.HUB_CFG_VIEW, .HUB_FLOOR_TABLE, .HUB_HQ_CFG, .HUB_HQ_SQ_BASE, .HUB_HQ_CQ_BASE, .HUB_HQ_STATUS, .HUB_HQ_SQ_TAIL, .HUB_HQ_CQ_HEAD, .EVT_HEAD, .EVT_READ, .EVT_WINDOW, .EVT_WINDOW_SRC, .EVT_OVERWRITES, .EVT_LOST, .EVT_STATUS, .EVT_ATTN_MASK]
/-- Part 2 of the register names, in the order of the map. -/
def regNames2 : List RegName := [.EVT_SPILL_CFG, .EVT_SPILL_PTR, .SEC_DEFAULT_LOCK, .PWR_CAP, .PWR_STATUS, .PWR_KIT, .PWR_ENERGY, .FAB_CONFIG, .FAB_PORT_CFG, .FAB_PORT_STATUS, .FAB_EXPORT_RED, .FAB_PEAL, .FAB_GONG_CFG, .FAB_FEC_CORRECTED, .FAB_FRAME_RESENT, .FAB_LINK_DOWN_COUNT]
/-- Part 3 of the register names, in the order of the map. -/
def regNames3 : List RegName := [.FAB_TARGET_DEAD_COUNT, .FAB_LATE_ANSWER, .FAB_REFUSED_OUT, .FAB_REFUSED_IN, .FAB_EGRESS_DROP, .FAB_ROUTE_CHANGE, .FAB_TAINT_IN, .FAB_EGRESS, .MEM_SPAN_CTL, .MEM_SPAN_BASE, .MEM_HUB_RANGE, .MEM_EXTENT_TGT, .MEM_EXTENT_LEN, .MEM_EXPORT_CTL, .MEM_EXPORT_RANGE, .MEM_QUOTA]
/-- Part 4 of the register names, in the order of the map. -/
def regNames4 : List RegName := [.MEM_PART_QUOTA, .MEM_PART_CHARGE, .MEM_ACCT, .MEM_ACCT_SAT, .MEM_ACCT_LATCH, .MEM_ACCT_SNAP, .MEM_DISCARD, .MEM_DISCARD_RESULT, .FLS_CONFIG, .FLS_MAP_BASE, .FLS_MAINT, .FLS_STATUS, .FLS_APERTURE, .INT_SCRUB_CFG, .INT_SCRUB_LAP, .INT_SCRUB_STATUS]
/-- Part 5 of the register names, in the order of the map. -/
def regNames5 : List RegName := [.INT_SCHECK, .INT_SCHECK_SEED, .INT_SCHECK_RESULT, .INT_OBS_CFG, .INT_OBS, .INT_OBS_FROM, .INT_OBS_ADD, .INT_JOURNAL, .INT_ECC, .INT_PARITY, .INT_CHECKS, .INT_CONFIRMED, .INT_TAINT_SENT, .INT_TAINT_LOCAL, .INT_HUB_BAD, .PAR_CONFIG]
/-- Part 6 of the register names, in the order of the map. -/
def regNames6 : List RegName := [.PAR_LEND, .PAR_REG, .PAR_REG_STATUS, .PAR_REG_STAT, .PAR_LIVESET, .PAR_SAVE, .PAR_PREEMPT, .PAR_PREEMPT_RESULT, .PAR_PREEMPT_STATUS, .PAR_STEP_BUDGET, .PAR_STEP_WATCHDOG, .PAR_STEP_DEADLINE, .PAR_STEP_STATUS, .PAR_STEP_SEQ, .PAR_GONG_LINE, .PAR_SIJ_CFG]
/-- Part 7 of the register names, in the order of the map. -/
def regNames7 : List RegName := [.PAR_SIJ_IN, .PAR_SIJ_LEN, .PAR_REPLAY, .PAR_REPLAY_RESULT, .PAR_PAIR_HOLD, .TRN_QUEUE_CFG, .TRN_QUEUE_PTR, .TRN_PART_DEFAULT, .TRN_SUBMIT, .TRN_SUBMIT_RESULT, .TRN_ABORT, .TRN_ABORT_RESULT, .TRN_SUB_CFG, .TRN_SUB_POLICE, .TRN_SUB_SHAPE, .TRN_SERVICE_DRR]
/-- Part 8 of the register names, in the order of the map. -/
def regNames8 : List RegName := [.TRN_PARCELS, .TRN_BYTES_RAW, .TRN_BYTES_WIRE, .TRN_DEFERRED, .TRN_SPLIT, .TRN_POLICED_PARCELS, .TRN_WHEEL_FAR, .TRN_RX_FULL, .TRN_RX_INCOMPLETE, .CDC_PART_CFG, .CDC_REF, .CDC_BLOCKS_CODED, .CDC_BLOCKS_RAW, .CDC_RAW_BYTES, .CDC_STREAM_BYTES, .CDC_BYPASS]
/-- Part 9 of the register names, in the order of the map. -/
def regNames9 : List RegName := [.CDC_DAMAGE, .CDC_REF_POISON, .SRV_SUB_POLICE, .SRV_SUB_CFG, .SRV_SERVICE, .SRV_PART_SERVE, .SRV_KV_CMD, .SRV_KV_RESULT, .SRV_SLOT_CMD, .SRV_SLOT_ARG, .SRV_SLOT_RESULT, .SRV_STEP_SUBMIT, .SRV_STEP_RING, .SRV_EMIT_SUBMIT, .SRV_TREE_CFG, .SRV_TREE_BUCKET_BASE]
/-- Part 10 of the register names, in the order of the map. -/
def regNames10 : List RegName := [.SRV_TREE_NODE_BASE, .SRV_TREE_SALT, .SRV_TREE_GEN, .SRV_TREE_OLDEST, .SRV_TREE_QCOUNT, .SRV_PW_RING, .SRV_PW_DOORBELL, .SRV_ADMITTED, .SRV_REFUSED, .SRV_POLICED, .SRV_CANCELLED, .SRV_DONE_BEFORE_ABORT, .SRV_STALE_HANDLE, .SRV_EMIT_REFUSED, .SRV_TOKENS_OUT, .SRV_TALLY_LOST]
/-- Part 11 of the register names, in the order of the map. -/
def regNames11 : List RegName := [.SRC_INDEX_CFG, .SRC_INDEX_SIZE, .SRC_INDEX_ARITH, .SRC_INDEX_BASE, .SRC_INDEX_GEN, .SRC_INDEX_OLDEST, .SRC_INDEX_QCOUNT, .SRC_RING, .SRC_DOORBELL, .SRC_QUERIES, .SRC_EVALUATIONS, .SRC_EXPANSIONS, .SRC_BAD_EDGE, .SRV_KV_TABLE, .SRV_SLOT_TABLE, .KIT_OPPOINT]
/-- Part 12 of the register names, in the order of the map. -/
def regNames12 : List RegName := [.KIT_ROUTER_CONFIG, .KIT_KV_STAGE, .KIT_ROUTER_DISPATCHED, .KIT_ROUTER_OVERFLOW, .KIT_ROUTER_STREAM, .KIT_ROUTER_CANCELLED, .KIT_ROUTER_POISONED, .KIT_ROUTER_GATE_NAN, .KIT_KV_APPEND_STAGED, .KIT_KV_APPEND_DIRECT, .KIT_KV_POOL_EMPTY, .KIT_KV_FLUSH_FULL, .KIT_KV_FLUSH_OTHER, .KIT_KV_DROPPED, .KIT_KV_HANDOFF_BYTES, .KIT_ROUTER_DIR]
/-- Part 13 of the register names, in the order of the map. -/
def regNames13 : List RegName := [.DRM_STEP_CONFIG, .DRM_INBOX, .DRM_LATE_STALL, .DRM_LATE_THRESH, .DRM_TEMPO, .DRM_CALIB, .DRM_CTX_CONTROL, .DRM_TMAC_DENSE, .DRM_TMAC_SPARSE, .DRM_TMAC_SKIPPED, .DRM_CAUSALB_MASKED, .DRM_CAUSALB_PARTIAL, .DRM_CAUSALB_VISIBLE]
/-- Every register name. -/
def regNames : List RegName := regNames0 ++ regNames1 ++ regNames2 ++ regNames3 ++ regNames4 ++ regNames5 ++ regNames6 ++ regNames7 ++ regNames8 ++ regNames9 ++ regNames10 ++ regNames11 ++ regNames12 ++ regNames13

/-- The control-space offset of instance (i, j) of a register (R534). -/
def RegName.off (r : RegName) (i j : Nat) : Nat := r.info.base + i * r.info.s0 + j * r.info.s1

/-- Instance (i, j) of a register exists. -/
def RegName.has (r : RegName) (i j : Nat) : Bool := decide (i < r.info.n0) && decide (j < r.info.n1)

/-- The instance of register r that lies at an offset, if one does. -/
def RegName.indexAt (r : RegName) (o : Nat) : Option (Nat × Nat) :=
  let d := r.info
  if o < d.base then none
  else
    let x := o - d.base
    let i := x / d.s0
    let y := x % d.s0
    let j := y / d.s1
    if y % d.s1 = 0 ∧ i < d.n0 ∧ j < d.n1 then some (i, j) else none

/-- The first register of a list that lies at an offset. -/
def regAtIn : List RegName → Nat → Option (RegName × Nat × Nat)
  | [], _ => none
  | r :: rs, o =>
    match r.indexAt o with
    | some (i, j) => some (r, i, j)
    | none => regAtIn rs o

/-- The register at a control-space offset (R534); none at an offset that the map assigns to no register (R533). -/
def regAt (o : Nat) : Option (RegName × Nat × Nat) := regAtIn regNames o

/-- The word that a list of fields gives at reset. -/
def fieldsReset : List Fld → Nat
  | [] => 0
  | f :: fs => f.reset * 2 ^ f.lo + fieldsReset fs

/-- FLOOR of a cell of the floor tempo table (R560), in units of 0.1 M hs/s. -/
def floorEntry (step band : Nat) : Nat :=
  if band = 10 then 0
  else
    let t3 := if step ≤ 15 then 4500 + 200 * step else 7500 + 160 * (step - 15)
    let f := if band ≤ 5 then 1000 else 1055 - 10 * band
    t3 * f * 13 / 42000

/-- The reset word of instance (i, j) of a register: its fields' reset values (R12), and for HUB_FLOOR_TABLE the entry of R43 and R560. [log 5, 6: DESIGN CHOICE] -/
def RegName.resetWord (r : RegName) (i _j : Nat) : BitVec 64 :=
  if r = .HUB_FLOOR_TABLE then
    BitVec.ofNat 64 ((i / 11) * 2 ^ 24 + (i % 11) * 2 ^ 20 + floorEntry (i / 11) (i % 11))
  else BitVec.ofNat 64 (fieldsReset r.fields)

end Sys2Proof.Machine
end

