-- ==== Sys2Proof/Machine/State.lean ====
section
/-!
DEFINITION. Sys2Proof/Machine/State.lean: the state of the block, what can stop a step, and the state at cold reset.
-/
namespace Sys2Proof.Machine

/-- Why a step can fault. -/
inductive Fault where
  /-- Raised by no command of this model: the spec gives every command an effect or an answer. Safe. -/
  | unreachable
deriving DecidableEq, Repr

/-- Why a command is refused. -/
inductive Refusal where
  /-- Raised by the dispatch of a command that the model gives no meaning. Safe. -/
  | notModelled (mnemonic : String)
deriving DecidableEq, Repr

/-- The state of the device. regs holds the control-space registers of the current epoch and every other register by offset;
staged and previous hold the epoch registers of the staged and previous epochs. Drums are keyed kit × 256 + physical drum,
mallets drum key × 256 + mallet. jobs holds the requests in progress by ring, polls the transfers (+ 1) that fetch what device units
read from remote memory or flash; discards holds the pages (first, count) that a control core's discard has still to
clear (R280); saves holds kit images by partition × 8 + kit. used holds charges of the window, due the
requests that wait for a later one, streamEnd where each issuing stream's last HBM request ended (+ 1), shortCap the capacity + 1 at which a
resource was last reported short (R413). freeCtr numbers the values the spec leaves open (the model's own field). [log 7, 125: DESIGN CHOICE] -/
structure State where
  pending : List Instr := []
  regs : SMap (BitVec 64) := []
  staged : SMap (BitVec 64) := []
  previous : SMap (BitVec 64) := []
  mem : Mem := {}
  flash : Flash := {}
  ev : EvLog := {}
  boot : Boot := {}
  cfg : Cfg := {}
  host : HostPort := {}
  mgmt : Mgmt := {}
  power : Power := {}
  kits : SMap Kit := []
  drums : SMap Drum := []
  mallets : SMap Mallet := []
  parts : SMap Part := []
  xfers : SMap Xfer := []
  nextXfer : Nat := 1
  fab : Fabric := {}
  out : Out := {}
  freeCtr : Nat := 0
  integ : Integ := {}
  pair : Pair := {}
  used : SMap Nat := []
  due : List Due := []
  streamEnd : SMap Nat := []
  shortCap : SMap Nat := []
  latchHi : SMap Nat := []
  acctRem : SMap Nat := []
  polls : SMap Nat := []
  jobs : SMap RingJob := []
  kv : Kv := {}
  serve : Serve := {}
  trn : Transit := {}
  discards : SMap (Nat × Nat) := []
  saves : SMap KitImage := []
deriving DecidableEq, Repr

/-- The state at cold reset (R504, R506): every register at its reset value, memory zero, nothing waiting. [log 5, 6: DESIGN CHOICE] -/
def State.reset : State := {}

end Sys2Proof.Machine
end

