-- ==== Sys2Proof/Machine/Ops.lean ====
section
/-!
DEFINITION. Sys2Proof/Machine/Ops.lean: the named operations on registers, events and units that every family uses.
-/
namespace Sys2Proof.Machine

-- ===== Registers =====

/-- What an unlisted offset of the register store reads as: the register's reset word. -/
def regDefault (o : Nat) : BitVec 64 :=
  match regAt o with
  | some (r, i, j) => r.resetWord i j
  | none => 0

/-- The word at an offset in a register store. -/
def storeGet (m : SMap (BitVec 64)) (r : RegName) (i j : Nat) : BitVec 64 := mget (r.resetWord i j) m (r.off i j)

/-- Write the word of an instance in a register store; the reset word is not listed. -/
def storePut (m : SMap (BitVec 64)) (r : RegName) (i j : Nat) (w : BitVec 64) : SMap (BitVec 64) :=
  mput (r.resetWord i j) m (r.off i j) w

/-- The word of instance (i, j) of a register in force. -/
def State.rg (s : State) (r : RegName) (i j : Nat) : BitVec 64 := storeGet s.regs r i j

/-- Write a register's word. -/
def State.setRg (s : State) (r : RegName) (i j : Nat) (w : BitVec 64) : State :=
  { s with regs := storePut s.regs r i j w }

/-- A field of a word. -/
def Fld.of (f : Fld) (w : BitVec 64) : Nat := w.toNat / 2 ^ f.lo % 2 ^ f.width

/-- A word with a field replaced. -/
def Fld.put (f : Fld) (w : BitVec 64) (v : Nat) : BitVec 64 := BitVec.ofNat 64 (setBits w.toNat f.lo f.width v)

/-- A field of a register in force. -/
def State.f (s : State) (f : Fld) (i j : Nat) : Nat := f.of (s.rg f.reg i j)

/-- A one-bit field is 1. -/
def State.fb (s : State) (f : Fld) (i j : Nat) : Bool := decide (s.f f i j = 1)

/-- Write one field of a register. -/
def State.setF (s : State) (f : Fld) (i j v : Nat) : State := s.setRg f.reg i j (f.put (s.rg f.reg i j) v)

/-- Write a one-bit field. -/
def State.setB (s : State) (f : Fld) (i j : Nat) (b : Bool) : State := s.setF f i j (b2n b)

/-- Add to a counter field, saturating at all ones (R501). -/
def State.count (s : State) (f : Fld) (i j n : Nat) : State :=
  s.setF f i j (min (s.f f i j + n) (2 ^ f.width - 1))

/-- HUB_TIME (R39). -/
def State.time (s : State) : Nat := s.f F.HUB_TIME_NS 0 0

/-- The word after a software write: fields change by their access codes (R12), RSV bits stay 0. -/
def writeFields (fs : List Fld) (old w : BitVec 64) : BitVec 64 :=
  match fs with
  | [] => old
  | f :: r =>
    let rest := writeFields r old w
    match f.acc with
    | .rw => f.put rest (f.of w)
    | .w1c => f.put rest (f.of old &&& (2 ^ f.width - 1 - f.of w))
    | .w1s => f.put rest (f.of old ||| f.of w)
    | _ => rest

/-- What a read of a word returns: WO fields and RSV bits read 0 (R12). -/
def readFields (fs : List Fld) (w : BitVec 64) : BitVec 64 :=
  match fs with
  | [] => 0
  | f :: r => match f.acc with
    | .wo => readFields r w
    | _ => f.put (readFields r w) (f.of w)

/-- The word after an RC read: its RC fields are cleared (R12, R14). -/
def clearRc (fs : List Fld) (w : BitVec 64) : BitVec 64 :=
  match fs with
  | [] => w
  | f :: r => match f.acc with
    | .rc => f.put (clearRc r w) 0
    | _ => clearRc r w

/-- A nonzero bit outside every field: a nonzero RSV bit. -/
def rsvSet (fs : List Fld) (w : BitVec 64) : Bool :=
  decide ((fs.foldl (fun x f => f.put x 0) w) ≠ 0)

/-- Initiator i may write registers outside the log window: a control core or the host, from ready on (R514, R516). [log 8, 120: DEDUCED] -/
def State.canWrite (s : State) (i : Nat) : Bool := decide (i ≤ 8) && s.fb F.HUB_STATUS_READY 0 0

/-- No drum starts or issues: the thermal trip is in force (R566), or REFCLK_156 is lost and HBM is in self-refresh (R40). [log 91: DEDUCED] -/
def State.halted (s : State) : Bool := s.power.tripped || s.boot.refclkLost

/-- HBM is in self-refresh: REFCLK_156 is lost, and only a warm reset resumes service (R40). [log 91: DEDUCED] -/
def State.asleep (s : State) (a : Nat) : Bool := s.boot.refclkLost && decide (a < 0x6000000000)

/-- Control core c executes. -/
def State.coreRuns (s : State) (c : Nat) : Bool := decide (c < 8) && bit s.boot.coresRun c

-- ===== Units (R16, R18, R446, R489) =====

/-- Key of a drum: kit and physical drum. -/
def drumKey (k d : Nat) : Nat := k * 256 + d
/-- Key of a mallet. -/
def malletKey (k d m : Nat) : Nat := drumKey k d * 256 + m
/-- Key of a context. -/
def ctxKey (u : CtxId) : Nat := malletKey u.kit u.drum u.mallet * 8 + u.ctx
/-- The context of a key. -/
def ctxOfKey (n : Nat) : CtxId := ⟨n / 8 / 256 / 256, n / 8 / 256 % 256, n / 8 % 256, n % 8⟩

/-- Unit identifiers of Table 14.6 and R489. -/
def unitMallet (k d m : Nat) : Nat := 2 ^ 18 * k + d * 2 ^ 10 + m * 4
def unitDrum (k d : Nat) : Nat := 2 ^ 21 + 2 ^ 18 * k + d * 2 ^ 10
def unitSeg (k g : Nat) : Nat := 2 * 2 ^ 21 + 2 ^ 18 * k + g * 2 ^ 10
def unitCodec (c : Nat) : Nat := 3 * 2 ^ 21 + 2 ^ 18 * c
def unitBridge (k b : Nat) : Nat := 4 * 2 ^ 21 + 2 ^ 18 * k + b * 2 ^ 10
def unitCore (c : Nat) : Nat := 5 * 2 ^ 21 + c * 2 ^ 10
def unitLink (i : Nat) : Nat := 6 * 2 ^ 21 + i * 2 ^ 10
def unitHub (n : Nat) : Nat := 7 * 2 ^ 21 + n * 2 ^ 10
/-- An access by a part of the device that no unit identifier names. -/
def noUnit : Nat := 2 ^ 24

def State.kit (s : State) (k : Nat) : Kit := mget {} s.kits k
def State.setKit (s : State) (k : Nat) (f : Kit → Kit) : State := { s with kits := mupd {} s.kits k f }
def State.drum (s : State) (k d : Nat) : Drum := mget {} s.drums (drumKey k d)
def State.setDrum (s : State) (k d : Nat) (f : Drum → Drum) : State := { s with drums := mupd {} s.drums (drumKey k d) f }
def State.mallet (s : State) (k d m : Nat) : Mallet := mget {} s.mallets (malletKey k d m)
def State.setMallet (s : State) (k d m : Nat) (f : Mallet → Mallet) : State :=
  { s with mallets := mupd {} s.mallets (malletKey k d m) f }
def State.part (s : State) (p : Nat) : Part := mget {} s.parts p
def State.setPart (s : State) (p : Nat) (f : Part → Part) : State := { s with parts := mupd {} s.parts p f }
def State.ctx (s : State) (u : CtxId) : Ctx := mget {} (s.mallet u.kit u.drum u.mallet).c u.ctx
def State.setCtx (s : State) (u : CtxId) (f : Ctx → Ctx) : State :=
  s.setMallet u.kit u.drum u.mallet (fun m => { m with c := mupd {} m.c u.ctx f })
def State.tile (s : State) (u : CtxId) (n : Nat) : Tile := mget {} (s.mallet u.kit u.drum u.mallet).t n
def State.setTile (s : State) (u : CtxId) (n : Nat) (t : Tile) : State :=
  s.setMallet u.kit u.drum u.mallet (fun m => { m with t := mput {} m.t n t })
def State.acc (s : State) (u : CtxId) (n : Nat) : Acc := mget {} (s.mallet u.kit u.drum u.mallet).a n
def State.setAcc (s : State) (u : CtxId) (n : Nat) (a : Acc) : State :=
  s.setMallet u.kit u.drum u.mallet (fun m => { m with a := mput {} m.a n a })
def Ctx.S (c : Ctx) (n : Nat) : SReg := mget {} c.s n
def Ctx.X (c : Ctx) (n : Nat) : XReg := mget {} c.x n
def Ctx.M (c : Ctx) (n : Nat) : BitVec 64 := mget (BitVec.allOnes 64) c.m n
def Ctx.AF (c : Ctx) (n : Nat) : Nat := mget 0 c.af n
def Ctx.setS (c : Ctx) (n : Nat) (r : SReg) : Ctx := { c with s := mput {} c.s n r }
def Ctx.setX (c : Ctx) (n : Nat) (r : XReg) : Ctx := { c with x := mput {} c.x n r }
def Ctx.setM (c : Ctx) (n : Nat) (m : BitVec 64) : Ctx := { c with m := mput (BitVec.allOnes 64) c.m n m }
def Ctx.setAF (c : Ctx) (n v : Nat) : Ctx := { c with af := mput 0 c.af n v }
/-- Column j's bound slot, if any (R110). -/
def Ctx.slotOf (c : Ctx) (j : Nat) : Option Nat :=
  match mget 0 c.bind j with
  | 0 => none
  | n + 1 => some n

/-- The kit is not retired. -/
def State.kitLive (s : State) (k : Nat) : Bool := decide (k < 8) && !(s.kit k).retired

/-- The physical drum bound to logical index n of kit k (R18). -/
def State.phys (s : State) (k n : Nat) : Nat :=
  match mget 0 (s.kit k).map n with
  | 0 => n
  | d + 1 => d

/-- The logical index bound to physical drum d of kit k, if one is. -/
def State.logical (s : State) (k d : Nat) : Option Nat := (List.range 150).find? (fun n => decide (s.phys k n = d))

/-- Kit k belongs to partition p's KIT_MASK (R400). -/
def State.ownsKit (s : State) (p k : Nat) : Bool :=
  s.fb F.PAR_CONFIG_ENABLE p 0 && bit (s.f F.PAR_CONFIG_KIT_MASK p 0) k

/-- The partition whose step runs on kit k: the guest while the kit is lent to it, else its owner (R400, R402). -/
def State.partOfKit (s : State) (k : Nat) : Option Nat :=
  match (s.kit k).lentTo with
  | 0 => (List.range 8).find? (fun p => s.ownsKit p k)
  | g + 1 => some g

/-- The live kits on which partition p's step runs. -/
def State.kitsOf (s : State) (p : Nat) : List Nat :=
  (List.range 8).filter (fun k => s.kitLive k && decide (s.partOfKit k = some p))

/-- The logical drums of a kit as physical drums that are in service. -/
def State.activeDrums (s : State) (k : Nat) : List Nat :=
  ((List.range 150).map (fun n => s.phys k n)).filter (fun d => !(s.drum k d).retired)

/-- Step states of Table 4.11. -/
def stIdle : Nat := 0
def stRunning : Nat := 1
def stStopping : Nat := 2
def stSaved : Nat := 3
def State.stepState (s : State) (p : Nat) : Nat := s.f F.PAR_STEP_STATUS_STATE p 0
def State.setStep (s : State) (p v : Nat) : State := s.setF F.PAR_STEP_STATUS_STATE p 0 v

/-- An epoch switch holds partition p (R521): it is affected, its step state is IDLE and its pre-emption phase NONE, from HOLDING until the
switch is complete. -/
def State.isHeld (s : State) (p : Nat) : Bool :=
  let ph := s.f F.HUB_CFG_STATUS_PHASE 0 0
  (decide (ph = 4) || decide (ph = 5)) && nmem s.cfg.affected p && decide (s.stepState p = stIdle) &&
    decide (s.f F.PAR_PREEMPT_STATUS_PHASE p 0 = 0)

/-- The node ID in force (R23). -/
def State.node (s : State) : Nat := s.f F.FAB_CONFIG_NODE 0 0

-- ===== Events (R488 to R497) =====

/-- Event sources: kits 0 to 7, hub units from 8, control cores from 24, links from 32. -/
def srcKit (k : Nat) : Nat := k
def srcHub (n : Nat) : Nat := 8 + n
def srcCore (c : Nat) : Nat := 24 + c
def srcLink (i : Nat) : Nat := 32 + i

/-- Records an event takes: four items each, at least one, at most 64 (R491). [log 72: DEDUCED] -/
def EvRec.records (r : EvRec) : Nat := min 64 (max 1 ((r.items.length + 3) / 4))

/-- Records waiting in a source queue. -/
def queueLen (q : List EvRec) : Nat := q.foldl (fun n r => n + r.records) 0

/-- Hand a record to the log's queue of its source; a full queue loses it (R492). -/
def State.pushEv (s : State) (src : Nat) (r : EvRec) : State :=
  let q := mget [] s.ev.queues src
  if 16 ≤ queueLen q then
    { (s.count F.EVT_LOST_COUNT 0 0 1) with ev := { s.ev with drops := nins s.ev.drops src } }
  else { s with ev := { s.ev with queues := mput [] s.ev.queues src (q ++ [r]) } }

/-- Raise an event with its items (R491); the step sequence number is that of the partition when it arose. -/
def State.log (s : State) (src : Nat) (e : EvName) (items : List Nat := []) (part : Option Nat := none)
    (unit : Option Nat := none) (attn : Bool := false) : State :=
  s.pushEv src { cat := e.1, code := e.2, part := part, unit := unit, items := items, attn := attn,
                 step := match part with | some p => (s.rg .PAR_STEP_SEQ p 0).toNat | none => 0 }

/-- Raise an event at most once per interval (ns) for a key; a suppressed event leaves the state unchanged. -/
def State.logLimited (s : State) (key interval : Nat) (src : Nat) (e : EvName) (items : List Nat := [])
    (part : Option Nat := none) (unit : Option Nat := none) : State :=
  let last := mget 0 s.ev.limits key
  if last ≠ 0 ∧ s.time < last - 1 + interval then s
  else { (s.log src e items part unit) with ev :=
          { (s.log src e items part unit).ev with limits := mput 0 s.ev.limits key (s.time + 1) } }

/-- Limiter keys. -/
def limExport (e : Nat) : Nat := e
def limNodeDead (n : Nat) : Nat := 0x1000000 + n
def limRemote (n e : Nat) : Nat := 0x2000000 + n * 256 + e
def limCq (q : Nat) : Nat := 0x4000000 + q
def limMgmt : Nat := 0x5000000

/-- Set a cause bit of HUB_STATUS and ATTN (R546). When ATTN rises while RB_N is released, an attention pulse is due (R548). -/
def State.cause (s : State) (f : Fld) : State :=
  let rises := !s.fb F.HUB_STATUS_ATTN 0 0 && !s.mgmt.rbLow && !s.mgmt.inPulse
  let s : State := { s with mgmt := { s.mgmt with pulseDue := s.mgmt.pulseDue || rises } }
  (s.setF f 0 0 1).setF F.HUB_STATUS_ATTN 0 0 1

/-- ATTN after cause bits changed: the OR of [59:55] (R546). A pulse that has not started is made only while ATTN stays 1. -/
def State.fixAttn (s : State) : State :=
  let attn := decide (bits (s.rg .HUB_STATUS 0 0).toNat 59 55 ≠ 0)
  let s : State := { s with mgmt := { s.mgmt with pulseDue := s.mgmt.pulseDue && attn } }
  s.setB F.HUB_STATUS_ATTN 0 0 attn

/-- Take a fresh number for a value the spec leaves open. [log 7: DESIGN CHOICE] -/
def State.fresh (s : State) : State := { s with freeCtr := s.freeCtr + 1 }

/-- The lowest observation entry that a test picks. -/
def State.obsFind (_s : State) (p : Nat → Bool) : Option Nat := (List.range 256).find? p

/-- A unit's entry on the observation list. -/
def State.obsOf (s : State) (unit : Nat) : Option Nat :=
  s.obsFind (fun e => s.fb F.INT_OBS_VALID e 0 && decide (s.f F.INT_OBS_UNIT e 0 = unit))

/-- HUB_TIME of a unit's last passing check, or of its entry into service (R450). -/
def State.lastPassOf (s : State) (unit : Nat) : Nat :=
  match mget 0 s.integ.lastPass unit with
  | 0 => s.boot.readyAt
  | t + 1 => t

/-- Queue the sound check of a unit with an automatic partner (R450, R451): entry e's is keyed 8 + e, that of an unlisted unit 264 + unit. Its
seed is a value the spec leaves open. [log 82: DEDUCED] -/
def State.queueCheck (s : State) (key unit : Nat) : State :=
  let k : SCheck := { live := true, a := unit, auto := true, seed := Config.freeValue s.freeCtr % 2 ^ 64, since := s.time }
  { s.fresh with integ := { s.integ with checks := mput {} s.integ.checks key k,
                                         retests := if key < 264 then mput 0 s.integ.retests (key - 8) (s.time + 1) else s.integ.retests } }

/-- Put a unit on the observation list for a reason (R450). [log 83: DEDUCED] -/
def State.observe (s : State) (unit reason : Nat) : State :=
  match s.obsOf unit with
  | some _ => s.log (srcHub 8) Ev.OBS_ADDED [reason] none (some unit)
  | none =>
    match s.obsFind (fun e => !s.fb F.INT_OBS_VALID e 0) with
    | some e =>
      let s := s.setRg .INT_OBS e 0 0
      let s := s.setF F.INT_OBS_VALID e 0 1
      let s := s.setF F.INT_OBS_REASON e 0 reason
      let s := s.setF F.INT_OBS_UNIT e 0 unit
      let s := s.setRg .INT_OBS_FROM e 0 (BitVec.ofNat 64 (s.lastPassOf unit))
      (s.log (srcHub 8) Ev.OBS_ADDED [reason] none (some unit)).queueCheck (8 + e) unit
    | none => (s.log (srcHub 8) Ev.OBS_LIST_FULL [reason] none (some unit)).queueCheck (264 + unit) unit

/-- Accounting: add an amount in sub-units to counter i of subscriber sub, the remainder kept exactly, saturating with its
MEM_ACCT_SAT bit (R276). -/
def State.acct (s : State) (sub i amount unit : Nat) : State :=
  let key := sub * 16 + i
  let tot := mget 0 s.acctRem key + amount
  let s := { s with acctRem := mput 0 s.acctRem key (tot % unit) }
  let v := (s.rg .MEM_ACCT sub i).toNat + tot / unit
  if v < 2 ^ 64 then s.setRg .MEM_ACCT sub i (BitVec.ofNat 64 v)
  else (s.setRg .MEM_ACCT sub i (BitVec.allOnes 64)).setF F.MEM_ACCT_SAT_SAT sub 0
        (s.f F.MEM_ACCT_SAT_SAT sub 0 ||| 2 ^ i)

end Sys2Proof.Machine
end

