-- ==== Sys2Proof/Machine/Memory.lean ====
section
/-!
DEFINITION. Sys2Proof/Machine/Memory.lean: local memory: the map of Tables 8.1 to 8.3, reads and writes with poison, upsets and
the written-page bitmap, the drum merge buffer, and flash reads (08_memory_spans_and_tiers.md, 14_data_integrity.md). Data moves
as one little-endian number with a mask of poisoned 32 B granules, bit g for granule (address div 32) + g.
-/
namespace Sys2Proof.Machine

/-- Data of a range: little-endian bytes and granule marks. -/
structure Data where
  v : Nat := 0
  p : Nat := 0
deriving DecidableEq, Repr

/-- Number of granules that [a, a + n) touches. -/
def granules (a n : Nat) : Nat := if n = 0 then 0 else (a + n - 1) / 32 - a / 32 + 1

/-- The bytes [a, a + n) of a cell list, little-endian. [log 4: DEDUCED] -/
def cellsRead (l : List Host.Cell) (a n : Nat) : Nat :=
  (l.filter (fun c => decide (a ≤ c.1) && decide (c.1 < a + n))).foldl
    (fun v c => v + c.2.toNat * 256 ^ (c.1 - a)) 0

/-- The cells of bytes i, ..., of a value at address a: k bytes from byte i on, zero bytes left out. -/
def cellsOf (a v : Nat) : Nat → List Host.Cell
  | 0 => []
  | k + 1 =>
    if v % 256 = 0 then cellsOf (a + 1) (v / 256) k
    else (a, BitVec.ofNat 8 v) :: cellsOf (a + 1) (v / 256) k

/-- Replace the bytes [a, a + n). [log 4: DEDUCED] -/
def cellsWrite (l : List Host.Cell) (a n v : Nat) : List Host.Cell :=
  l.filter (fun c => decide (c.1 < a)) ++ (cellsOf a v n ++ l.filter (fun c => decide (a + n ≤ c.1)))

/-- Mask of the members of m in [lo, lo + n), bit 0 for lo. -/
def nmask (m : NSet) (lo n : Nat) : Nat :=
  (m.filter (fun k => decide (lo ≤ k) && decide (k < lo + n))).foldl (fun w k => w + 2 ^ (k - lo)) 0

/-- Insert lo + i for each set bit i of a mask. -/
def ninsMask (m : NSet) (lo mask n : Nat) : NSet :=
  (List.range n).foldl (fun m i => if mask.testBit i then nins m (lo + i) else m) m

/-- All ones in n bits. -/
def ones (n : Nat) : Nat := 2 ^ n - 1

-- ===== The local physical map (Tables 8.1 to 8.3) =====

def hbmKit : Nat := 0xC00000000
def hbmEnd : Nat := 0x6000000000
def hubBase : Nat := 0x0E0000000000
def poolBase : Nat := 0x0E0001000000
def hubEnd : Nat := 0x0E0004000000
def logBase : Nat := 0x0F0000000000
def physBase : Nat := 0x0F8000000000
def slotsSize : Nat := 0x800000000
def flashBase : Nat := 0x100000000000
def flashEnd : Nat := 0x140000000000

/-- The regions of the local physical map. -/
inductive Region where
  | hbm | hub | skin | scratch | flash | reserved
deriving DecidableEq, Repr

/-- The region of an offset in a drum slot (Table 8.2). -/
def slotRegion (o : Nat) : Region :=
  if o < 0x600000 then .skin else if 0x800000 ≤ o ∧ o < 0xC00000 then .scratch else .reserved

/-- The physical alias of a drum slot offset. -/
def slotAddr (k d o : Nat) : Nat := physBase + 0x100000000 * k + 0x1000000 * d + o

/-- The canonical address of a local physical address: a logical drum slot is named by its physical alias (R262). -/
def State.canon (s : State) (a : Nat) : Nat :=
  if logBase ≤ a ∧ a < logBase + slotsSize then
    let k := (a - logBase) / 0x100000000
    let n := (a - logBase) / 0x1000000 % 256
    if n < 150 then slotAddr k (s.phys k n) (a % 0x1000000) else a
  else a

/-- The region of a canonical address: reserved slots, retired kits' slots and holes are reserved (R261, R262). [log 23: DESIGN CHOICE] -/
def State.region (s : State) (a : Nat) : Region :=
  if a < hbmEnd then (if (s.kit (a / hbmKit)).retired then .reserved else .hbm)
  else if hubBase ≤ a ∧ a < hubEnd then .hub
  else if physBase ≤ a ∧ a < physBase + slotsSize then
    if (s.kit ((a - physBase) / 0x100000000)).retired ∨ 156 ≤ (a - physBase) / 0x1000000 % 256 then .reserved
    else slotRegion (a % 0x1000000)
  else if flashBase ≤ a ∧ a < flashEnd then .flash
  else .reserved

/-- The memory's owner as an index of INT_ECC: the kit, or 8 for the hub. [log 4: DEDUCED] -/
def memOf (a : Nat) : Nat :=
  if a < hbmEnd then a / hbmKit
  else if physBase ≤ a ∧ a < physBase + slotsSize then (a - physBase) / 0x100000000
  else 8

/-- The event source of a memory. -/
def memSrc (a : Nat) : Nat := if memOf a < 8 then srcKit (memOf a) else srcHub 0

-- ===== Marks and upsets (R432, R433, R283) =====

/-- Mark granule g and drop its upsets: the granule is written back with the mark. -/
def Mem.mark (m : Mem) (g : Nat) : Mem :=
  { m with poison := nins m.poison g, ue := ndelRange m.ue (4 * g) 4, ce := ndelRange m.ce (4 * g) 4 }

/-- Clear granule g's mark and upsets: a clean write of the whole granule. -/
def Mem.clean (m : Mem) (g : Nat) : Mem :=
  { m with poison := ndel m.poison g, ue := ndelRange m.ue (4 * g) 4, ce := ndelRange m.ce (4 * g) 4 }

/-- Mark the granules lo, ..., lo + n - 1. -/
def Mem.markRange (m : Mem) (lo n : Nat) : Mem :=
  { m with poison := ninsRange m.poison lo n, ue := ndelRange m.ue (4 * lo) (4 * n), ce := ndelRange m.ce (4 * lo) (4 * n) }

/-- A word of a merge buffer entry takes the data that an upset left, with an uncorrectable syndrome (R437). -/
def MergeEntry.strike (e : MergeEntry) (w v : Nat) : MergeEntry :=
  { e with data := setBits e.data (64 * w) 64 v, ue := e.ue ||| 2 ^ w }

/-- Upsets strike (R433, R437): words take the data that the upset left, with their syndromes; bitmap words become uncorrectable.
[log 16: DEDUCED] -/
def State.strike (s : State) (e : Sys2Proof.Upsets) : State :=
  let s := e.merge.foldl (fun s q => s.setDrum (q.1 / 256) (q.1 % 256) (fun r => { r with
    merge := r.merge.map (fun x => if x.line = q.2.1 ∧ q.2.2.1 < 8 then x.strike q.2.2.1 q.2.2.2 else x) })) s
  let m := e.ue.foldl (fun (m : Mem) q => { m with cells := cellsWrite m.cells (8 * q.1) 8 q.2, ue := nins m.ue q.1 }) s.mem
  { s with mem := { m with ce := e.ce.foldl nins m.ce, wpbUe := e.wpb.foldl nins m.wpbUe } }

/-- The drum whose skin or scratch holds a canonical address, as (kit, drum). -/
def drumOfAddr (a : Nat) : Option (Nat × Nat) :=
  if physBase ≤ a ∧ a < physBase + slotsSize then some ((a - physBase) / 0x100000000, (a - physBase) / 0x1000000 % 256)
  else none

/-- Corrections of a drum's skin or scratch, or of an HBM pseudo-channel, are counted against CE_LIMIT of the lap (R444). A stack
interleaves consecutive 256 B across its 64 pseudo-channels. -/
def State.countCe (s : State) (a n : Nat) : State :=
  let s := s.count F.INT_ECC_CE (memOf a) 0 n
  let lim := s.f F.INT_SCRUB_CFG_CE_LIMIT (memOf a) 0
  match drumOfAddr a with
  | some (k, d) =>
    let c := (s.drum k d).ceCount
    let s := s.setDrum k d (fun r => { r with ceCount := r.ceCount + n })
    if c ≤ lim ∧ lim < c + n then s.observe (unitDrum k d) 6 else s
  | none =>
    if a < hbmEnd then
      let pc := a / hbmKit * 64 + a % hbmKit / 256 % 64
      let c := mget 0 s.integ.pcCe pc
      let s := { s with integ := { s.integ with pcCe := mput 0 s.integ.pcCe pc (c + n) } }
      if c ≤ lim ∧ lim < c + n then s.log (memSrc a) Ev.MEM_CE_RATE [pc % 64] none none else s
    else s

/-- An uncorrectable granule of an event log bank counts against the bank's slots (R499). -/
def State.badSlot (s : State) (a : Nat) : State :=
  let o := a - 0x0E0000800000
  if 0x0E0000800000 ≤ a ∧ o < 0x80000 then { s with ev := { s.ev with bad0 := nins s.ev.bad0 (o / 64) } }
  else if 0x0E0000880000 ≤ a ∧ o < 0x100000 then { s with ev := { s.ev with bad1 := nins s.ev.bad1 ((o - 0x80000) / 64) } }
  else s

/-- A granule is read by a unit: an uncorrectable word marks it and is logged once, correctable words are counted and written
back corrected (R433, R443, R460). -/
def State.touchGranule (s : State) (unit g : Nat) : State :=
  let a := 32 * g
  let ues := s.mem.ue.any (fun w => decide (w / 4 = g))
  let ces := (s.mem.ce.filter (fun w => decide (w / 4 = g))).length
  let s := if ces = 0 then s else
    { (s.countCe a ces) with mem := { s.mem with ce := ndelRange s.mem.ce (4 * g) 4 } }
  if ues then
    let s := { s with mem := s.mem.mark g }
    ((s.count F.INT_ECC_UE (memOf a) 0 1).badSlot a).log (memSrc a) Ev.MEM_UE [a, memOf a] none (if unit < noUnit then some unit else none)
  else s

/-- The granules of [a, a + n) that hold an upset, once each. [log 16: DEDUCED] -/
def Mem.upsetGranules (m : Mem) (a n : Nat) : List Nat :=
  (((m.ue ++ m.ce).map (· / 4)).filter (fun g => decide (a / 32 ≤ g) && decide (g < a / 32 + granules a n))).eraseDups

/-- A read finds the upsets of its granules. -/
def State.touch (s : State) (unit a n : Nat) : State :=
  (s.mem.upsetGranules a n).foldl (fun s g => s.touchGranule unit g) s

/-- An access to HBM finds its bitmap word (R283): an uncorrectable one makes its 64 pages written and poisoned. Their data is a
value the spec leaves open. -/
def State.touchBitmap (s : State) (a : Nat) : State :=
  let w := a / 262144
  if a < hbmEnd ∧ nmem s.mem.wpbUe w = true then
    let m := s.mem
    let m := { m with cells := cellsWrite m.cells (262144 * w) 262144 (Config.freeValue s.freeCtr),
                      written := ninsRange m.written (w * 64) 64, wpbUe := ndel m.wpbUe w }
    let s := { s with mem := m.markRange (8192 * w) 8192, freeCtr := s.freeCtr + 1 }
    s.log (srcKit (a / hbmKit)) Ev.MEM_WPB_UE [a / hbmKit, w * 262144]
  else s

/-- Page a's bit of the written-page bitmap (R278). -/
def Mem.isWritten (m : Mem) (a : Nat) : Bool := nmem m.written (a / 4096)

-- ===== Flash reads (R285 to R287) =====

/-- The logical flash byte of a window address, when its aperture is valid. [log 69: DEDUCED] -/
def State.flashByte (s : State) (a : Nat) : Option Nat :=
  let i := (a - flashBase) / 0x100000000
  if s.fb F.FLS_APERTURE_VALID i 0 then some (0x100000000 * s.f F.FLS_APERTURE_LBASE i 0 + a % 0x100000000) else none

/-- Blocks retired, all channels (R294). -/
def Flash.retiredBlocks (f : Flash) : Nat := (f.blocks.filter (fun q => q.2.retired)).length

/-- A unit's location, if it has one. [log 69: DEDUCED] -/
def Flash.locOf (f : Flash) (u : Nat) : Option Nat :=
  match mget 0 f.map u with
  | 0 => none
  | l + 1 => some l

/-- The bytes [b, b + n) of the logical flash space within one 4 KiB codeword: zeros of an unwritten unit; a bad codeword or a
poisoned map word is delivered poisoned (R287, Table 14.3). -/
def Flash.read (f : Flash) (b n : Nat) : Data :=
  let u := b / 65536
  let all := ones (granules b n)
  if nmem f.badMap u then { v := 0, p := all } else
  match f.locOf u with
  | none => {}
  | some l =>
    let a := 65536 * l + b % 65536
    { v := cellsRead f.cells a n,
      p := if nmem f.badCodewords (a / 4096) then all else nmask f.poison (a / 32) (granules a n) }

-- ===== Local reads and writes =====

/-- Cut [a, a + n) at 4 KiB boundaries. -/
def chunks : Nat → Nat → Nat → List (Nat × Nat)
  | 0, _, _ => []
  | fuel + 1, a, n =>
    if n = 0 then [] else
      let l := min n (4096 - a % 4096)
      (a, l) :: chunks fuel (a + l) (n - l)

-- ===== Regulators (R407 to R412) =====

/-- The width code's share of a link's payload per µs in bytes (Table 11.1). -/
def linkPayload (i w : Nat) : Nat := (if i < 16 then 190000 else 380000) / 2 ^ w

/-- Peak of resource r in bytes per window (Table 13.3). -/
def State.regPeak (s : State) (r : Nat) : Nat :=
  if r < 2 then 1228800 else if r = 2 then 57600
  else (List.range 18).foldl (fun n i =>
    if s.f F.FAB_PORT_CFG_GROUP i 0 = r - 3 ∧ s.fb F.FAB_PORT_STATUS_UP i 0 = true then
      n + linkPayload i (s.f F.FAB_PORT_STATUS_WIDTH i 0) else n) 0

/-- Full-window credit of partition p (R408). -/
def State.regFull (s : State) (p r : Nat) : Nat :=
  let cap := s.f F.PAR_REG_CAP p r
  if cap = 0xFFFFFFFF then s.regPeak r else min cap (s.regPeak r)

/-- Key of a partition's use of a resource in the window; an HBM resource is kept per kit. -/
def regKey (p r k : Nat) : Nat := (p * 8 + r) * 8 + k

/-- Bytes charged to a partition in the open window. -/
def State.regUsed (s : State) (p r k : Nat) : Nat := mget 0 s.used (regKey p r k)

/-- The enabled partitions with a guarantee on resource r, and the sum of their guarantees. -/
def State.guaranteed (s : State) (r : Nat) : List Nat :=
  (List.range 8).filter (fun p => s.fb F.PAR_CONFIG_ENABLE p 0 && decide (s.f F.PAR_REG_GUARANTEE p r ≠ 0))
def State.guaranteeSum (s : State) (r : Nat) : Nat := (s.guaranteed r).foldl (fun n p => n + s.f F.PAR_REG_GUARANTEE p r) 0

/-- The guarantee in effect in this window: while resource r is short, each partition's share of the capacity, down to 64 B (R413). -/
def State.effGuarantee (s : State) (p r : Nat) : Nat :=
  match mget 0 s.shortCap r with
  | 0 => s.f F.PAR_REG_GUARANTEE p r
  | c + 1 => s.f F.PAR_REG_GUARANTEE p r * c / s.guaranteeSum r / 64 * 64

/-- A charge fits: the partition's credit covers it (R412), and the resource has capacity or the partition is below its guarantee (R411).
[log 77: DESIGN CHOICE] -/
def State.regFits (s : State) (p r k n : Nat) : Bool :=
  decide (s.regUsed p r k + n ≤ s.regFull p r) && (decide (s.regUsed p r k < s.effGuarantee p r) ||
    decide ((List.range 8).foldl (fun m q => m + s.regUsed q r k) n ≤ s.regPeak r))

/-- Charge bytes. -/
def State.regCharge (s : State) (p r k n : Nat) : State :=
  { s with used := mupd 0 s.used (regKey p r k) (· + n) }

/-- A request or parcel is deferred to a later window (R415). -/
def State.regDefer (s : State) (p r : Nat) : State := s.count F.PAR_REG_STAT_DEFERRED p r 1

/-- A request of an issuing stream waits for credit. -/
def State.owes (s : State) (stream : Nat) : Bool := s.due.any (fun q => decide (q.stream = stream))

/-- The requests of HBM that ranges of local memory make: pieces of at most 4 KiB in address order (R412). -/
def requests (l : List (Nat × Nat)) : List (Nat × Nat) :=
  l.flatMap (fun q => if hbmEnd ≤ q.1 then [] else chunks (q.2 / 4096 + 2) q.1 q.2)

/-- What each request is charged (R407): its bytes, 192 B more when it does not continue its stream at next - 1, and 4 KiB for the fill of a
page's first write (R279). A read of an unwritten page reaches no HBM (R278). [log 77: DESIGN CHOICE] -/
def Mem.costs (m : Mem) (wr : Bool) : Nat → List (Nat × Nat) → List (Nat × Nat)
  | _, [] => []
  | next, (a, n) :: r =>
    if !wr && !m.isWritten a then m.costs wr next r
    else (a, n + (if next = a + 1 then 0 else 192) + (if m.isWritten a then 0 else 4096)) ::
      Mem.costs (if wr then { m with written := nins m.written (a / 4096) } else m) wr (a + n + 1) r

/-- Key of a stream's reads or writes. -/
def followKey (stream : Nat) (wr : Bool) : Nat := 2 * stream + b2n wr

/-- What ranges of HBM cost a stream that accesses them next. Stream 0 continues nothing. -/
def State.costsOf (s : State) (stream : Nat) (wr : Bool) (l : List (Nat × Nat)) : List (Nat × Nat) :=
  s.mem.costs wr (mget 0 s.streamEnd (followKey stream wr)) (requests l)

/-- The credit left covers an access to ranges of HBM, and no earlier request of its stream waits (R412). -/
def State.hbmFits (s : State) (stream part : Nat) (wr : Bool) (l : List (Nat × Nat)) : Bool :=
  match s.costsOf stream wr l with
  | [] => true
  | q :: r => !s.owes stream && s.regFits part (b2n wr) (q.1 / hbmKit) (r.foldl (fun n x => n + x.2) q.2)

/-- Present one request: it is charged when its credit is there and no earlier request of its stream waits, and else is deferred
to a later window (R412, R415). -/
def State.present (s : State) (q : Due) : State :=
  if !s.owes q.stream && s.regFits q.part q.res q.kit q.bytes then s.regCharge q.part q.res q.kit q.bytes
  else ({ s with due := s.due ++ [q] } : State).regDefer q.part q.res

/-- A deferred request can be granted: no earlier request of its stream waits, and its charge fits. -/
def State.grantable (s : State) (q : Due) : Bool :=
  decide (s.due.find? (fun x => decide (x.stream = q.stream)) = some q) && s.regFits q.part q.res q.kit q.bytes

/-- Grant a deferred request. -/
def State.grant (s : State) (q : Due) : State := ({ s with due := s.due.erase q } : State).regCharge q.part q.res q.kit q.bytes

/-- Requests of partitions below their guarantee are granted first, oldest first (R411). -/
def State.grantGuaranteed (s : State) : State :=
  s.due.foldl (fun s q =>
    if s.grantable q && decide (s.regUsed q.part q.res q.kit < s.effGuarantee q.part q.res) then s.grant q else s) s

/-- A turn of a partition at a resource: its oldest request that can be granted. -/
def State.grantTurn (s : State) (r k p : Nat) : State :=
  match s.due.find? (fun q => decide (q.part = p) && decide (q.res = r) && decide (q.kit = k) && s.grantable q) with
  | some q => s.grant q
  | none => s

/-- The remaining requests are granted in round robin between partitions, one request a turn (R411). -/
def State.grantRounds : Nat → State → State
  | 0, s => s
  | n + 1, s =>
    let at_ := (s.due.map (fun q => (q.res, q.kit))).eraseDups
    State.grantRounds n (at_.foldl (fun s x => (List.range 8).foldl (fun s p => s.grantTurn x.1 x.2 p) s) s)

/-- Grant the deferred requests that a new window's credit covers, each stream in order (R411). [log 77: DESIGN CHOICE] -/
def State.grantDue (s : State) : State := State.grantRounds s.due.length s.grantGuaranteed

/-- Present the HBM requests that ranges of local memory make, and note where their stream continues. -/
def State.presentHbm (s : State) (stream xfer part : Nat) (wr : Bool) (l : List (Nat × Nat)) : State :=
  let s := (s.costsOf stream wr l).foldl (fun s c =>
    s.present { stream := stream, xfer := xfer, part := part, res := b2n wr, kit := c.1 / hbmKit, bytes := c.2 }) s
  match stream, (requests l).getLast? with
  | _ + 1, some q => { s with streamEnd := mput 0 s.streamEnd (followKey stream wr) (q.1 + q.2 + 1) }
  | _, _ => s

/-- Some byte of [a, a + n) lies in the flash window. -/
def touchesFlash (a n : Nat) : Bool := decide (a < flashEnd) && decide (flashBase < a + n)

/-- Codewords that the NAND reads for [a, a + n) of the flash window: those of units that have a location (R287). -/
def State.flashReads (s : State) (a n : Nat) : Nat :=
  if a < flashBase ∨ flashEnd ≤ a then 0
  else ((chunks (n / 4096 + 2) a n).filter (fun c =>
    match s.flashByte c.1 with
    | some b => (s.flash.locOf (b / 65536)).isSome
    | none => false)).length

/-- Present the flash reads of ranges of local memory, a codeword a request (R407). -/
def State.presentFlash (s : State) (stream xfer part : Nat) (l : List (Nat × Nat)) : State :=
  l.foldl (fun s q => (List.range (s.flashReads q.1 q.2)).foldl (fun s _ =>
    s.present { stream := stream, xfer := xfer, part := part, res := 2, bytes := 4096 }) s) s

-- ===== Reading =====

/-- The flash unit reads the map entry of logical unit u from the map's HBM copy (R288): when its granule is poisoned the unit reads
poisoned, and FLS_MAP_UE is logged once (Table 14.3). [log 69: DEDUCED] -/
def State.touchMap (s : State) (u : Nat) : State :=
  let a := s.f F.FLS_MAP_BASE_BASE 0 0 + 8 * u
  let s := s.touch (unitHub 4) a 8
  if nmem s.mem.poison (a / 32) && !nmem s.flash.badMap u then
    ({ s with flash := { s.flash with badMap := nins s.flash.badMap u } } : State).log (srcHub 4) Ev.FLS_MAP_UE [u] none (some (unitHub 4))
  else s

/-- Reading one piece within a 4 KiB page at a canonical address. A reserved address reads zero. [log 23: DESIGN CHOICE] -/
def State.readPage (s : State) (unit a n : Nat) : State × Data :=
  match s.region a with
  | .reserved => (s, {})
  | .flash =>
    match s.flashByte a with
    | some b =>
      let s := s.touchMap (b / 65536)
      (s, s.flash.read b n)
    | none => (s, {})
  | r =>
    let s := if r = .hbm then s.touchBitmap a else s
    if r = .hbm ∧ s.mem.isWritten a = false then (s, {}) else
      let s := s.touch unit a n
      (s, { v := cellsRead s.mem.cells a n, p := nmask s.mem.poison (a / 32) (granules a n) })

/-- Put the data of a piece at offset o of a range that starts at a. -/
def Data.join (d : Data) (a o : Nat) (x : Data) : Data :=
  { v := d.v + x.v * 256 ^ o, p := d.p ||| (x.p * 2 ^ ((a + o) / 32 - a / 32)) }

/-- Read [a, a + n) of local memory by a unit. -/
def State.readMem (s : State) (unit a n : Nat) : State × Data :=
  let a := s.canon a
  (chunks (n / 4096 + 2) a n).foldl
    (fun (q : State × Data) c =>
      let r := q.1.readPage unit c.1 c.2
      (r.1, q.2.join a (c.1 - a) r.2)) (s, {})

/-- The enabled bytes of granule g (absolute number) in a write of n bytes at a with enable mask en: their number. -/
def enabledIn (a n en g : Nat) : Nat :=
  ((List.range 32).filter (fun i => decide (a ≤ 32 * g + i) && decide (32 * g + i < a + n) && en.testBit (32 * g + i - a))).length

/-- A 64-bit word is covered in part by the enabled bytes. -/
def partWord (a n en w : Nat) : Bool :=
  let c := ((List.range 8).filter (fun i => decide (a ≤ 8 * w + i) && decide (8 * w + i < a + n) && en.testBit (8 * w + i - a))).length
  decide (0 < c) && decide (c < 8)

/-- Some 64-bit word is covered only in part (R435). -/
def narrow (a n en : Nat) : Bool :=
  (List.range ((a + n + 7) / 8 - a / 8)).any (fun i => partWord a n en (a / 8 + i))

/-- The bytes of v where the byte mask en is set, the bytes of old elsewhere; n bytes. [log 22: DEDUCED] -/
def blend (n en v old : Nat) : Nat :=
  (List.range n).foldr (fun i w =>
    w * 256 + (if en.testBit i then v / 256 ^ i % 256 else old / 256 ^ i % 256)) 0

/-- The marks of granule g after a write (R355, R432, R437). [log 22: DEDUCED] -/
def State.writeGranule (s : State) (unit a n en p g : Nat) : State :=
  let k := enabledIn a n en g
  if k = 0 then s
  else if p.testBit (g - a / 32) then { s with mem := s.mem.mark g }
  else if k = 32 then { s with mem := s.mem.clean g }
  else
    let s := if (List.range 4).any (fun i => partWord a n en (4 * g + i)) then s.touchGranule unit g else s
    { s with mem := (List.range 4).foldl (fun (m : Mem) i =>
        let w := 4 * g + i
        let full := (List.range 8).all (fun j => decide (a ≤ 8 * w + j) && decide (8 * w + j < a + n) && en.testBit (8 * w + j - a))
        if full then { m with ue := ndel m.ue w, ce := ndel m.ce w } else m) s.mem }

/-- While a partner is in RESYNC, the LEAD's pair dirty bitmap records the pages that change (R480). -/
def State.dirtied (s : State) (a n : Nat) : State :=
  if decide (s.f F.HUB_PAIR_STATUS_ROLE 0 0 = 4) && decide (s.f F.HUB_PAIR_STATUS_RESYNC 0 0 ≠ 0) then
    { s with pair := { s.pair with dirty := ninsRange s.pair.dirty (a / 4096) ((a + 4095 + n) / 4096 - a / 4096) } }
  else s

/-- Write one piece within a 4 KiB page: enabled bytes, granule marks, and the fill of an unwritten page (R279). Writes to
reserved addresses and to the flash window are ignored: only transit writes flash (R273). [log 23: DESIGN CHOICE] -/
def State.writePage (s : State) (unit a n v en p : Nat) : State :=
  match s.region a with
  | .reserved => s
  | .flash => s
  | r =>
    if en % 2 ^ n = 0 then s else
    let s := if r = .hbm then s.touchBitmap a else s
    let s := if r = .hbm ∧ s.mem.isWritten a = false then
        let b := a / 4096 * 4096
        { s with mem := { s.mem with cells := cellsWrite s.mem.cells b 4096 0, poison := ndelRange s.mem.poison (b / 32) 128,
                                     ue := ndelRange s.mem.ue (b / 8) 512, ce := ndelRange s.mem.ce (b / 8) 512,
                                     written := nins s.mem.written (a / 4096) } }
      else s
    let s := (List.range (granules a n)).foldl (fun s i => s.writeGranule unit a n en p (a / 32 + i)) s
    let cs := cellsWrite s.mem.cells a n (blend n en v (cellsRead s.mem.cells a n))
    ({ s with mem := { s.mem with cells := cs } } : State).dirtied a n

/-- Write [a, a + n) of local memory: bytes of v where en is set, granules poisoned as p says. -/
def State.writeMem (s : State) (unit a n v en p : Nat) : State :=
  let a := s.canon a
  (chunks (n / 4096 + 2) a n).foldl
    (fun s c =>
      let o := c.1 - a
      s.writePage unit c.1 c.2 (v / 256 ^ o) (en / 2 ^ o) (p / 2 ^ (c.1 / 32 - a / 32))) s

/-- Write a whole range. -/
def State.writeAll (s : State) (unit a n : Nat) (d : Data) : State := s.writeMem unit a n d.v (ones n) d.p

/-- Mark every granule of a local range poisoned, as device work: pages of HBM that were unwritten take the fill. -/
def State.poisonRange (s : State) (a n : Nat) : State :=
  let a := s.canon a
  (chunks (n / 4096 + 2) a n).foldl (fun s c =>
    match s.region c.1 with
    | .reserved => s
    | .flash =>
      match s.flashByte c.1 with
      | none => s
      | some b => match s.flash.locOf (b / 65536) with
        | none => s
        | some l => { s with flash := { s.flash with
            poison := ninsRange s.flash.poison ((65536 * l + b % 65536) / 32) (granules c.1 c.2) } }
    | r =>
      let s := if r = .hbm then s.touchBitmap c.1 else s
      let m := if r = .hbm then { s.mem with written := nins s.mem.written (c.1 / 4096) } else s.mem
      ({ s with mem := m.markRange (c.1 / 32) (granules c.1 c.2) } : State).dirtied c.1 c.2) s

/-- The bitmap words of n pages from page p on that are uncorrectable are resolved (R283). -/
def State.touchWords (s : State) (p n : Nat) : State :=
  (s.mem.wpbUe.filter (fun w => decide (p / 64 ≤ w) && decide (64 * w < p + n))).foldl (fun s w => s.touchBitmap (262144 * w)) s

/-- Clear the written-page bits of n pages from page p on: their bytes, marks and upsets are gone (R280), and each is ordered at its bitmap word,
which is resolved first (R283, R298). -/
def State.discardPages (s : State) (p n : Nat) : State :=
  let s := s.touchWords p n
  let m := s.mem
  ({ s with mem := { m with
      cells := m.cells.filter (fun c => decide (c.1 < 4096 * p) || decide ((p + n) * 4096 ≤ c.1)),
      poison := ndelRange m.poison (p * 128) (n * 128), ue := ndelRange m.ue (p * 512) (n * 512),
      ce := ndelRange m.ce (p * 512) (n * 512), written := ndelRange m.written p n } } : State).dirtied (4096 * p) (4096 * n)

/-- Write zeros with valid check bits (fills and wipes; R425, R438). [log 4: DEDUCED] -/
def State.zeroRange (s : State) (a n : Nat) : State :=
  let m := s.mem
  { s with mem := { m with
      cells := m.cells.filter (fun c => decide (c.1 < a) || decide (a + n ≤ c.1)),
      poison := ndelRange m.poison (a / 32) (n / 32), ue := ndelRange m.ue (a / 8) (n / 8),
      ce := ndelRange m.ce (a / 8) (n / 8) } }

/-- The 64-bit word at a local address, with its granule's mark. -/
def State.word (s : State) (a : Nat) : Nat × Bool :=
  let r := s.readMem noUnit a 8
  (r.2.v, decide (r.2.p ≠ 0))

/-- Write a clean 64-bit word. -/
def State.putWord (s : State) (a w : Nat) : State := s.writeMem noUnit a 8 (w % 2 ^ 64) 255 0

-- ===== The drum merge buffer (R435 to R437) =====

/-- An entry's lower or upper granule is poisoned: by what was merged, or by an uncorrectable word of the entry (R437). -/
def MergeEntry.lo (e : MergeEntry) : Bool := e.pLo || decide (e.ue % 16 ≠ 0)
def MergeEntry.hi (e : MergeEntry) : Bool := e.pHi || decide (e.ue / 16 ≠ 0)

/-- Key of the stream in which a drum's merge buffer is flushed (R436). [log 77: DESIGN CHOICE] -/
def mergeStream (unit : Nat) : Nat := 2 ^ 42 + unit

/-- Overlay an entry's valid bytes and poison on data of [a, a + n). -/
def MergeEntry.over (e : MergeEntry) (a n : Nat) (d : Data) : Data :=
  let l := 64 * e.line
  if a < l + 64 ∧ l < a + n then
    let en := (List.range n).foldr (fun i w =>
      2 * w + b2n (decide (l ≤ a + i) && decide (a + i < l + 64) && e.valid.testBit (a + i - l))) 0
    let v := if l ≤ a then e.data / 256 ^ (a - l) else e.data * 256 ^ (l - a)
    let p0 := if e.lo then (if l / 32 ≥ a / 32 then 2 ^ (l / 32 - a / 32) else 0) else 0
    let p1 := if e.hi then (if l / 32 + 1 ≥ a / 32 then 2 ^ (l / 32 + 1 - a / 32) else 0) else 0
    { v := blend n en v d.v, p := d.p ||| ((p0 ||| p1) % 2 ^ granules a n) }
  else d

/-- A read by a context or KVRD of drum (k, d): HBM lines with an entry take its bytes and poison (R435). -/
def State.readDrum (s : State) (k d unit a n : Nat) : State × Data :=
  let r := s.readMem unit a n
  if a < hbmEnd then (r.1, (s.drum k d).merge.foldl (fun x e => e.over a n x) r.2) else r

/-- Write one entry to memory, charged to the partition of its first write (R436, R437). A partial line is read first. -/
def State.flushEntry (s : State) (unit : Nat) (e : MergeEntry) : State :=
  let a := 64 * e.line
  let s := if e.ue = 0 then s else s.log (memSrc a) Ev.MERGE_UE [a] (some e.part) (some unit)
  let s := if e.valid = ones 64 ∨ s.mem.isWritten a = false then s
    else (s.presentHbm (mergeStream unit) 0 e.part false [(a, 64)]).touch unit a 64
  (s.presentHbm (mergeStream unit) 0 e.part true [(a, 64)]).writeMem unit a 64 e.data e.valid (b2n e.lo + 2 * b2n e.hi)

/-- Flush the entries that a test picks, oldest first. -/
def State.flushMerge (s : State) (k d : Nat) (pick : MergeEntry → Bool) : State :=
  let es := (s.drum k d).merge
  let s := (es.filter pick).foldl (fun s e => s.flushEntry (unitDrum k d) e) s
  s.setDrum k d (fun r => { r with merge := r.merge.filter (fun e => !pick e) })

/-- Merge a write of n bytes at a, within one line, into an entry. -/
def MergeEntry.merge (e : MergeEntry) (a n v en p : Nat) : MergeEntry :=
  let o := a % 64
  let en := en % 2 ^ n * 2 ^ o
  let lo := en % 2 ^ 32
  let hi := en / 2 ^ 32 % 2 ^ 32
  let p := p * 2 ^ (o / 32)
  { e with
    data := blend 64 en (v * 256 ^ o) e.data, valid := e.valid ||| en,
    ue := bitField 8 (fun w => e.ue.testBit w && decide (en / 256 ^ w % 256 ≠ 255)),
    pLo := if lo = 0 then e.pLo else p.testBit 0 || (e.pLo && decide (lo ≠ ones 32)),
    pHi := if hi = 0 then e.pHi else p.testBit 1 || (e.pHi && decide (hi ≠ ones 32)) }

/-- A write of n bytes at a within one line passes through the merge buffer of drum (k, d): a narrow one to HBM, or one to a line that holds
an entry (R435). -/
def State.merges (s : State) (k d a n en : Nat) : Bool :=
  decide (a < hbmEnd) && decide (en % 2 ^ n ≠ 0) && (narrow a n en || (s.drum k d).merge.any (fun e => decide (e.line = a / 64)))

/-- A store of drum (k, d), n ≤ 64 bytes within one line: a narrow write to HBM, or one to a line that holds an entry, passes
through the merge buffer; a full line is flushed at once, and a 17th line flushes the oldest entry (R435, R436). -/
def State.writeLine (s : State) (k d part unit a n v en p : Nat) : State :=
  let line := a / 64
  let has := (s.drum k d).merge.any (fun e => decide (e.line = line))
  if s.merges k d a n en then
    let s := if has then s else
      let s := if 16 ≤ (s.drum k d).merge.length then
          match (s.drum k d).merge with
          | e :: _ => s.flushMerge k d (fun x => decide (x.line = e.line))
          | [] => s
        else s
      s.setDrum k d (fun r => { r with merge := r.merge ++ [{ line := line, part := part, since := s.time }] })
    let up := fun (e : MergeEntry) => if e.line = line then e.merge a n v en p else e
    let s := s.setDrum k d (fun r => { r with merge := r.merge.map up })
    s.flushMerge k d (fun e => decide (e.line = line) && decide (e.valid = ones 64))
  else s.writeMem unit a n v en p

/-- The lines of a store of drum (k, d) that reach HBM at once, past the merge buffer. -/
def State.directLines (s : State) (k d a n en : Nat) : List (Nat × Nat) :=
  ((List.range ((a + n + 63) / 64 - a / 64)).map (fun i =>
    let lo := max a ((a / 64 + i) * 64)
    (lo, min (a + n) ((a / 64 + i + 1) * 64) - lo))).filter (fun q =>
      decide (en / 2 ^ (q.1 - a) % 2 ^ q.2 ≠ 0) && !s.merges k d q.1 q.2 (en / 2 ^ (q.1 - a)))

/-- A store of drum (k, d) to local memory, line by line. -/
def State.writeDrum (s : State) (k d part unit a n v en p : Nat) : State :=
  let a := s.canon a
  if a < hbmEnd then
    (List.range ((a + n + 63) / 64 - a / 64)).foldl (fun s i =>
      let lo := max a ((a / 64 + i) * 64)
      let hi := min (a + n) ((a / 64 + i + 1) * 64)
      s.writeLine k d part unit lo (hi - lo) (v / 256 ^ (lo - a)) (en / 2 ^ (lo - a)) (p / 2 ^ (lo / 32 - a / 32))) s
  else s.writeMem unit a n v en p

end Sys2Proof.Machine
end

