-- ==== Sys2Proof/Machine/Journal.lean ====
section
/-!
DEFINITION. Sys2Proof/Machine/Journal.lean: the send journal (14_data_integrity.md, R456 and R457).
-/
namespace Sys2Proof.Machine

/-- Entries that the ring holds: SIZE × 64 MiB of 32 B entries. -/
def State.journalCap (s : State) : Nat := s.f F.INT_JOURNAL_SIZE 0 0 * 0x4000000 / 32

/-- Block size of LEVEL 1 to 4 in bytes. -/
def levelBytes (l : Nat) : Nat := 256 * 16 ^ l

/-- Two entries have one writer and one destination: a span or drum slot of the device, or an export of a node. -/
def JournalEntry.samePair (a b : JournalEntry) : Bool :=
  decide (a.writer = b.writer) && decide (a.part = b.part) && (a.global == b.global) && decide (a.base = b.base) && decide (a.size = b.size)

/-- The end of an entry's range. -/
def JournalEntry.stop (e : JournalEntry) : Nat := e.addr + 256 * e.len

/-- The ranges are adjacent or overlap. -/
def JournalEntry.touches (a b : JournalEntry) : Bool := decide (a.addr ≤ b.stop) && decide (b.addr ≤ a.stop)

/-- One entry that covers both. -/
def JournalEntry.cover (a b : JournalEntry) : JournalEntry :=
  let lo := min a.addr b.addr
  { a with addr := lo, len := (max a.stop b.stop - lo) / 256, level := max a.level b.level, first := min a.first b.first,
           last := max a.last b.last, seqFirst := min a.seqFirst b.seqFirst, seqLast := max a.seqLast b.seqLast }

/-- Add an entry, coalescing it with those of its writer and destination that it touches; it stays in the first one's slot. -/
def journalAdd (l : List JournalEntry) (e : JournalEntry) : List JournalEntry :=
  let hit := l.filter (fun x => x.samePair e && x.touches e)
  l.filter (fun x => !(x.samePair e && x.touches e)) ++ [hit.foldl JournalEntry.cover { e with slot := (hit.head?.getD e).slot }]

/-- An entry widened to the aligned blocks of the next level, and at level 5 to its whole span or export. -/
def JournalEntry.coarser (e : JournalEntry) : JournalEntry :=
  let b := levelBytes (e.level + 1)
  let r := if e.level < 4 then (e.addr / b * b, (e.stop + b - 1) / b * b)
    else (min e.addr (e.base / 256 * 256), max e.stop ((e.base + e.size + 255) / 256 * 256))
  { e with level := min 5 (e.level + 1), addr := r.1, len := (r.2 - r.1) / 256 }

/-- Coarsen the entries of the oldest entry's pair and merge what then touches (R457). -/
def journalCoarsen (l : List JournalEntry) : List JournalEntry :=
  match l.find? (fun e => decide (e.level < 5)) with
  | none => l
  | some o => l.foldl (fun r e => if e.samePair o then journalAdd r e.coarser else r ++ [e]) []

/-- Make room: drop the oldest entry when it is older than 64 ms, else coarsen; when nothing can be coarsened the oldest entry is
overwritten and JOURNAL_SHORT is logged. -/
def State.journalRoom : Nat → State → State
  | 0, s => s
  | fuel + 1, s =>
    if s.integ.journal.length < s.journalCap then s else
    match s.integ.journal with
    | [] => s
    | o :: r =>
      if o.last + 64000000 ≤ s.time then { s with integ := { s.integ with journal := r } }
      else
        let c := journalCoarsen s.integ.journal
        if c.length < s.integ.journal.length then State.journalRoom fuel { s with integ := { s.integ with journal := c } }
        else if s.integ.journal.any (fun e => decide (e.level < 5)) then State.journalRoom fuel { s with integ := { s.integ with journal := c } }
        else { (s.log (srcHub 8) Ev.JOURNAL_SHORT [(r.head?.getD o).first]) with
                 integ := { s.integ with journal := r } }

/-- The extent of the destination of a write to [lo, hi): the export, the partition's lowest local span that holds it, the drum slot or the
kit's HBM. [log 151: DESIGN CHOICE] -/
def State.journalDest (s : State) (p : Nat) (global : Bool) (lo hi : Nat) : Nat × Nat :=
  if global then (lo / 2 ^ 40 * 2 ^ 40, 2 ^ 40)
  else
    let at_ := fun (n : Nat) => s.canon (s.f F.MEM_SPAN_BASE_BASE p n)
    match (List.range 64).find? (fun n => s.fb F.MEM_SPAN_CTL_VALID p n && decide (s.f F.MEM_SPAN_CTL_KIND p n = 0) && decide (at_ n ≤ lo) &&
        decide (hi ≤ at_ n + s.f F.MEM_SPAN_CTL_LENGTH_M1 p n + 1)) with
    | some n => (at_ n, s.f F.MEM_SPAN_CTL_LENGTH_M1 p n + 1)
    | none => if lo < hbmEnd then (lo / hbmKit * hbmKit, hbmKit) else (lo / 0x1000000 * 0x1000000, 0x1000000)

/-- The lowest free slot of the ring. [log 151: DESIGN CHOICE] -/
def State.journalSlot (s : State) : Nat :=
  ((List.range (s.integ.journal.length + 1)).find? (fun i => s.integ.journal.all (fun e => decide (e.slot ≠ i)))).getD 0

/-- Where an entry of the ring stands in HBM. -/
def State.journalAt (s : State) (e : JournalEntry) : Nat := s.f F.INT_JOURNAL_BASE 0 0 * 0x10000 + 32 * e.slot

/-- Journal a write of n bytes at addr by a unit of partition p (R456). -/
def State.journal (s : State) (p writer : Nat) (global : Bool) (addr n : Nat) : State :=
  if s.fb F.INT_JOURNAL_ENABLE 0 0 = false ∨ n = 0 then s else
    let s := s.journalRoom (6 * s.integ.journal.length + 6)
    let lo := addr / 256 * 256
    let q := (s.rg .PAR_STEP_SEQ p 0).toNat
    let d := s.journalDest p global addr (addr + n)
    let e : JournalEntry := { addr := lo, global := global, part := p, writer := writer, len := (addr + n + 255) / 256 - lo / 256,
                              first := s.time, last := s.time, seqFirst := q, seqLast := q, base := d.1, size := d.2, slot := s.journalSlot }
    { s with integ := { s.integ with journal := journalAdd s.integ.journal e } }

/-- Journal a local write of a drum, unless it goes to the drum's own skin or scratch. -/
def State.journalDrum (s : State) (p k d addr n : Nat) : State :=
  if slotAddr k d 0 ≤ addr ∧ addr < slotAddr k (d + 1) 0 then s else s.journal p (unitDrum k d) false addr n

end Sys2Proof.Machine
end

