-- ==== Sys2Proof/Machine/Span.lean ====
section
/-!
DEFINITION. Sys2Proof/Machine/Span.lean: issuing streams, spans, the span check, and the addresses that a span reaches
(08_memory_spans_and_tiers.md, R265 to R273; 13_partitions_and_preemption.md, R407).
-/
namespace Sys2Proof.Machine

-- ===== Issuing streams (R407) =====

/-- The number of a mallet context's stream. [log 126: DESIGN CHOICE] -/
def ctxStream (u : Sys2Proof.CtxId) : Nat := ctxKey u + 1
/-- A transfer that is a stream of its own: an entry of a prefetch list, or a codec's reference read. -/
def ownStream : Nat := 2 ^ 40
def entryStream (x : Nat) : Nat := ownStream + x
/-- The KV append unit of a kit. -/
def kvStream (k : Nat) : Nat := 2 ^ 41 + k
/-- The router of a kit. -/
def routerStream (k : Nat) : Nat := 2 ^ 41 + 8 + k
/-- A prefix walker. -/
def walkerStream (w : Nat) : Nat := 2 ^ 41 + 16 + w
/-- The search of an index, which the spec names no stream for. [log 126: DESIGN CHOICE] -/
def searchStream (i : Nat) : Nat := 2 ^ 41 + 32 + i

/-- The unit that presents an access: its partition, and the drum and mallet it acts as, if any (R265). unit names it in records; stream is
its issuing stream, 0 where no regulator rule charges it here. -/
structure Actor where
  part : Nat := 0
  drum : Option (Nat × Nat) := none
  mallet : Option Nat := none
  transit : Bool := false
  unit : Nat := 0
  stream : Nat := 0
deriving DecidableEq, Repr

/-- A mallet context as an actor. -/
def malletActor (p : Nat) (u : Sys2Proof.CtxId) : Actor :=
  { part := p, drum := some (u.kit, u.drum), mallet := some u.mallet, unit := unitMallet u.kit u.drum u.mallet,
    stream := ctxStream u }

/-- The prefetch sequencer of a drum as an actor. -/
def drumActor (p k d : Nat) : Actor := { part := p, drum := some (k, d), unit := unitDrum k d, stream := ownStream }

/-- A device unit as an actor. -/
def deviceActor (p unit : Nat) : Actor := { part := p, unit := unit }

/-- Rights of Table 8.4: bits of RIGHTS. -/
def rRead : Nat := 8
def rWrite : Nat := 4
def rAtomic : Nat := 2
def rReduce : Nat := 1

def State.spanKind (s : State) (p n : Nat) : Nat := s.f F.MEM_SPAN_CTL_KIND p n
def State.spanLen (s : State) (p n : Nat) : Nat := s.f F.MEM_SPAN_CTL_LENGTH_M1 p n + 1
def State.spanBase (s : State) (p n : Nat) : Nat := s.f F.MEM_SPAN_BASE_BASE p n
def State.spanOwner (s : State) (p n : Nat) : Nat := s.f F.MEM_SPAN_CTL_OWNER p n
def State.spanRights (s : State) (p n : Nat) : Nat := s.f F.MEM_SPAN_CTL_RIGHTS p n

/-- Tiers of Table 8.7. -/
inductive Tier where
  | scratch | skin | hub | hbm | flash | remote
deriving DecidableEq, Repr

/-- The tier of a span (R270). -/
def State.spanTier (s : State) (p n : Nat) : Tier :=
  let b := s.spanBase p n
  match s.spanKind p n with
  | 0 =>
    if b < hbmEnd then .hbm
    else if hubBase ≤ b ∧ b < hubEnd then .hub
    else if flashBase ≤ b ∧ b < flashEnd then .flash
    else if b % 0x1000000 < 0x600000 then .skin else .scratch
  | 1 => if b % 0x1000000 < 0x600000 then .skin else .scratch
  | 2 => .scratch
  | _ => .remote

/-- Tier index of Table 8.7. -/
def Tier.index : Tier → Nat
  | .scratch => 0 | .skin => 1 | .hub => 2 | .hbm => 3 | .flash => 4 | .remote => 5

/-- A guest reaches the drum slots of its host's kits only while they are lent to it (R402). -/
def State.guestBarred (s : State) (p n : Nat) : Bool :=
  let b := s.spanBase p n
  s.fb F.PAR_CONFIG_GUEST p 0 && decide (s.spanKind p n = 0) && decide (logBase ≤ b) && decide (b < logBase + slotsSize) &&
    decide (s.partOfKit ((b - logBase) / 0x100000000) ≠ some p)

/-- The span check (R268): the fault code of Table 3.15, or none. o is the signed span offset. -/
def State.spanCheck (s : State) (a : Actor) (n : Nat) (o : Int) (size need : Nat) : Option Nat :=
  let p := a.part
  if !s.fb F.MEM_SPAN_CTL_VALID p n || s.guestBarred p n then some 5
  else if s.spanKind p n = 1 ∧ a.drum = none then some 5
  else if s.spanKind p n = 2 ∧ a.mallet = none then some 5
  else if 4 ≤ s.spanKind p n then some 5
  else if s.spanRights p n &&& need ≠ need then some 6
  else if s.spanTier p n = .flash ∧ need &&& 7 ≠ 0 ∧ a.transit = false then some 6
  else if o < 0 ∨ (s.spanLen p n : Int) < o + size then some 7
  else none

/-- The address whose alignment R115 tests: the slot or scratch offset of a relative span, else the span offset. -/
def State.alignPoint (s : State) (p n : Nat) (o : Int) : Int :=
  match s.spanKind p n with
  | 1 => (s.spanBase p n : Int) + o
  | 2 => (s.spanBase p n : Int) + o
  | _ => o

/-- First offending offset, in the layout of Table 3.2 (R145, R491). [log 72: DEDUCED] -/
def spanItem (n : Nat) (o : Int) : Nat := 2 ^ 40 * n + unsigned 40 o

/-- Alignment and span check of an access: code and record item, lowest code first (R115, R144, R268). -/
def State.accessFault (s : State) (a : Actor) (n : Nat) (o : Int) (size align need : Nat) : Option (Nat × Nat) :=
  if s.alignPoint a.part n o % (align : Int) ≠ 0 then some (4, spanItem n o)
  else match s.spanCheck a n o size need with
    | none => none
    | some 7 => some (7, spanItem n (if o < 0 then o else max o (s.spanLen a.part n)))
    | some c => some (c, spanItem n o)

/-- The local physical address of a span offset (R265); the span is not COMPOSED. -/
def State.spanAddr (s : State) (a : Actor) (n o : Nat) : Nat :=
  let b := s.spanBase a.part n
  match s.spanKind a.part n with
  | 1 => match a.drum with
    | some (k, d) => slotAddr k d (b % 0x1000000 + o)
    | none => b + o
  | 2 => match a.drum, a.mallet with
    | some (k, d), some m => slotAddr k d (0x800000 + 0x4000 * m + (b % 0x4000 + o))
    | _, _ => b + o
  | _ => s.canon (b + o)

/-- The remote pieces of [o, o + size) over extents x, x + 1, ... that start at cumulative offset c (R267). r is the offset of the
next piece within the access. -/
def State.extentPieces (s : State) : Nat → Nat → Nat → Nat → Nat → Nat → List (Nat × Piece)
  | 0, _, _, _, _, _ => []
  | k + 1, x, c, o, size, r =>
    let l := (s.f F.MEM_EXTENT_LEN_LEN_M1 x 0 + 1) * 4096
    if size = 0 then []
    else if c + l ≤ o then s.extentPieces k (x + 1) (c + l) o size r
    else
      let n := min size (c + l - o)
      let g := 2 ^ 48 * s.f F.MEM_EXTENT_TGT_NODE x 0 + 2 ^ 40 * s.f F.MEM_EXTENT_TGT_EXPORT x 0 +
        (s.f F.MEM_EXTENT_TGT_OFFSET x 0 + (o - c)) % 2 ^ 40
      (r, { rem := true, addr := g, len := n }) :: s.extentPieces k (x + 1) (c + l) (o + n) (size - n) (r + n)

/-- An access of an actor to n bytes of local memory at ad is presented in its stream (R407, R412). -/
def State.presentFor (s : State) (a : Actor) (wr : Bool) (ad n : Nat) : State :=
  if a.stream = 0 then s else s.presentHbm a.stream 0 a.part wr [(ad, n)]

/-- The pieces of [o, o + size) of a span, each with its offset within the access. -/
def State.spanPieces (s : State) (a : Actor) (n o size : Nat) : List (Nat × Piece) :=
  if s.spanKind a.part n = 3 then
    let b := s.spanBase a.part n
    s.extentPieces (b % 512) (b / 2 ^ 32 % 4096) 0 o size 0
  else [(0, { rem := false, addr := s.spanAddr a n o, len := size })]

/-- The local ranges of pieces. -/
def localOf (ps : List (Nat × Piece)) : List (Nat × Nat) := (ps.filter (fun q => !q.2.rem)).map (fun q => (q.2.addr, q.2.len))

/-- Every piece is local memory that answers within the step: neither remote nor flash. -/
def localNow (ps : List (Nat × Piece)) : Bool :=
  ps.all (fun q => !q.2.rem && !(decide (flashBase ≤ q.2.addr) && decide (q.2.addr < flashEnd)))

end Sys2Proof.Machine
end

