-- ==== Sys2Proof/Machine/Charges.lean ====
section
/-!
DEFINITION. Sys2Proof/Machine/Charges.lean: what the valid spans of an epoch charge to owners and partitions (08_memory_spans_and_tiers.md, R274 and
R275).
-/
namespace Sys2Proof.Machine

/-- Field of a register store. -/
def storeF (m : SMap (BitVec 64)) (f : Fld) (i j : Nat) : Nat := f.of (storeGet m f.reg i j)
def storeSetF (m : SMap (BitVec 64)) (f : Fld) (i j v : Nat) : SMap (BitVec 64) := storePut m f.reg i j (f.put (storeGet m f.reg i j) v)

/-- A span's charge in its tier; drums is the number of the partition's logical drums in service. -/
def storeCharge (m : SMap (BitVec 64)) (drums p n : Nat) : Nat :=
  let l := storeF m F.MEM_SPAN_CTL_LENGTH_M1 p n + 1
  match storeF m F.MEM_SPAN_CTL_KIND p n with
  | 1 => l * drums
  | 2 => l * 256 * drums
  | _ => l

/-- Valid spans of a register store, as partition and number. -/
def storeSpans (m : SMap (BitVec 64)) : List (Nat × Nat) :=
  m.filterMap (fun q => match regAt q.1 with
    | some (.MEM_SPAN_CTL, p, n) => if F.MEM_SPAN_CTL_VALID.of q.2 = 1 then some (p, n) else none
    | _ => none)

/-- Logical drums in service of partition p under a register store: 150 of each unretired kit of KIT_MASK, or of its host's. -/
def State.storeDrums (s : State) (m : SMap (BitVec 64)) (p : Nat) : Nat :=
  let h := if storeF m F.PAR_CONFIG_GUEST p 0 = 1 then storeF m F.PAR_CONFIG_HOST p 0 else p
  150 * ((List.range 8).filter (fun k => s.kitLive k && bit (storeF m F.PAR_CONFIG_KIT_MASK h 0) k)).length

/-- Valid spans of the epoch. -/
def State.spansOf (s : State) : List (Nat × Nat) := storeSpans s.regs

/-- The charges of the epoch: owner, partition, tier index and bytes of each valid span. -/
def State.charges (s : State) : List (Nat × Nat × Nat × Nat) :=
  s.spansOf.map (fun q => (s.spanOwner q.1 q.2, q.1, (s.spanTier q.1 q.2).index, storeCharge s.regs (s.storeDrums s.regs q.1) q.1 q.2))

/-- Bytes charged to an owner, and to a partition, in a tier. -/
def ownerCharge (cs : List (Nat × Nat × Nat × Nat)) (u t : Nat) : Nat :=
  cs.foldl (fun n c => if c.1 = u ∧ c.2.2.1 = t then n + c.2.2.2 else n) 0
def partCharge (cs : List (Nat × Nat × Nat × Nat)) (p t : Nat) : Nat :=
  cs.foldl (fun n c => if c.2.1 = p ∧ c.2.2.1 = t then n + c.2.2.2 else n) 0

/-- USED of every quota (R275). -/
def State.setUsed (s : State) : State :=
  let cs := s.charges
  let units := fun n => min (2 ^ 32 - 1) ((65535 + n) / 65536)
  let clear := fun (s : State) (q : Nat × BitVec 64) => match regAt q.1 with
    | some (.MEM_QUOTA, u, t) => s.setF F.MEM_QUOTA_USED u t 0
    | some (.MEM_PART_QUOTA, p, t) => s.setF F.MEM_PART_QUOTA_USED p t 0
    | _ => s
  cs.foldl (fun s c => (s.setF F.MEM_QUOTA_USED c.1 c.2.2.1 (units (ownerCharge cs c.1 c.2.2.1))).setF F.MEM_PART_QUOTA_USED c.2.1 c.2.2.1
    (units (partCharge cs c.2.1 c.2.2.1))) (s.regs.foldl clear s)

end Sys2Proof.Machine
end

