-- ==== Sys2Proof/Machine/Codec.lean ====
section
/-!
DEFINITION. Sys2Proof/Machine/Codec.lean: the delta codec as functions on bytes: differences, range coding, streams and their checks
(10_delta_codec.md, R325 to R342).
-/
namespace Sys2Proof.Machine

-- ===== Difference formats (Table 10.3, R330) =====

/-- Element width and whether the mapping is sign-magnitude; none for a reserved code. -/
def dfmt (f : Nat) : Option (Nat × Bool) :=
  match f with
  | 0 => some (8, false) | 1 => some (4, true) | 2 => some (4, false) | 3 => some (8, true) | 4 => some (8, false)
  | 5 => some (16, true) | 6 => some (32, true) | _ => none

/-- map of R330. -/
def deltaMap (w : Nat) (sm : Bool) (c : Nat) : Nat :=
  if sm = false then c
  else
    let h := 2 ^ (w - 1)
    if h ≤ c then (h - 1) - (c - h) else h + c

/-- The inverse mapping. -/
def deltaUnmap (w : Nat) (sm : Bool) (m : Nat) : Nat :=
  if sm = false then m
  else
    let h := 2 ^ (w - 1)
    if h ≤ m then m - h else h + (h - 1 - m)

/-- symbol of R330. -/
def deltaSymbol (w : Nat) (sm : Bool) (x r : Nat) : Nat :=
  let d := (deltaMap w sm x + 2 ^ w - deltaMap w sm r) % 2 ^ w
  if 2 ^ (w - 1) ≤ d then 2 * (2 ^ w - d) - 1 else 2 * d

/-- The element that gave symbol z against reference r. -/
def deltaElem (w : Nat) (sm : Bool) (z r : Nat) : Nat :=
  let d := if z % 2 = 0 then z / 2 else 2 ^ w - (z + 1) / 2
  deltaUnmap w sm ((deltaMap w sm r + d) % 2 ^ w)

/-- Bit length. -/
def bitLen (z : Nat) : Nat := if z = 0 then 0 else Nat.log2 z + 1

-- ===== Class probabilities (R331) =====

/-- f(k) for k at least 1. -/
def classFreq1 (k : Nat) : Nat := max 4 (2 ^ 11 / 2 ^ k)
/-- f(0). -/
def classFreq0 (w : Nat) : Nat := 4096 - (List.range w).foldl (fun n i => n + classFreq1 (i + 1)) 0
def classFreq (w k : Nat) : Nat := if k = 0 then classFreq0 w else classFreq1 k
/-- cum(k). -/
def classCum (w k : Nat) : Nat := (List.range k).foldl (fun n i => n + classFreq w i) 0

-- ===== The encoder (R332) =====

/-- Encoder registers; out is the bytes written, last first. -/
structure RangeEnc where
  low : Nat := 0
  range : Nat := 0xFFFFFFFF
  cache : Nat := 0
  pend : Nat := 1
  out : List Nat := []
deriving DecidableEq, Repr

/-- shift_low. -/
def RangeEnc.shiftLow (e : RangeEnc) : RangeEnc :=
  let e := if e.low < 0xFF000000 ∨ 2 ^ 32 ≤ e.low then
      let c := e.low / 2 ^ 32
      { e with out := List.replicate (e.pend - 1) ((0xFF + c) % 256) ++ ((e.cache + c) % 256) :: e.out, pend := 0,
               cache := e.low / 2 ^ 24 % 256 }
    else e
  { e with pend := e.pend + 1, low := e.low % 2 ^ 24 * 256 }

/-- norm. -/
def RangeEnc.norm : Nat → RangeEnc → RangeEnc
  | 0, e => e
  | fuel + 1, e => if e.range < 2 ^ 24 then RangeEnc.norm fuel ({ e with range := e.range * 256 % 2 ^ 32 } : RangeEnc).shiftLow else e

/-- put_class. -/
def RangeEnc.putClass (e : RangeEnc) (w k : Nat) : RangeEnc :=
  let r := e.range / 4096
  RangeEnc.norm 4 { e with low := e.low + r * classCum w k, range := r * classFreq w k }

/-- put_bit. -/
def RangeEnc.putBit (e : RangeEnc) (b : Bool) : RangeEnc :=
  let r := e.range / 2
  RangeEnc.norm 4 { e with low := if b then e.low + r else e.low, range := r }

/-- The k low bits of z, highest first. -/
def RangeEnc.putBits (e : RangeEnc) (z : Nat) : Nat → RangeEnc
  | 0 => e
  | k + 1 => RangeEnc.putBits (e.putBit (z.testBit k)) z k

/-- Element n of a block. -/
def blockElem (w v n : Nat) : Nat := v / 2 ^ (w * n) % 2 ^ w

/-- The reference of element n in KV mode: stride units of 64 B back in the same block (R325). -/
def kvRefElem (w stride v n : Nat) : Nat :=
  let d := stride * 512 / w
  if stride = 0 ∨ n < d then 0 else blockElem w v (n - d)

/-- The coded bytes of a 4 KiB block x whose element n has reference ref n. -/
def codeBlock (w : Nat) (sm : Bool) (x : Nat) (ref : Nat → Nat) : List Nat :=
  let e := (List.range (32768 / w)).foldl (fun (e : RangeEnc) n =>
    let z := deltaSymbol w sm (blockElem w x n) (ref n)
    let k := bitLen z
    (e.putClass w k).putBits z (k - 1)) {}
  ((((e.shiftLow).shiftLow.shiftLow).shiftLow.shiftLow).out).reverse

-- ===== The decoder (R333) =====

/-- Reasons of Table 10.6. -/
def dmgHeader : Nat := 1
def dmgLength : Nat := 2
def dmgCode : Nat := 3
def dmgCrc : Nat := 4
def dmgReference : Nat := 5

/-- Decoder registers: the reason once damage is found (0: none). -/
structure RangeDec where
  code : Nat := 0
  range : Nat := 0xFFFFFFFF
  pos : Nat := 5
  bad : Nat := 0
deriving DecidableEq, Repr

def RangeDec.norm (inp : Nat → Nat) (len : Nat) : Nat → RangeDec → RangeDec
  | 0, d => d
  | fuel + 1, d =>
    if d.bad ≠ 0 ∨ 2 ^ 24 ≤ d.range then d
    else if len ≤ d.pos then { d with bad := dmgLength }
    else RangeDec.norm inp len fuel { d with code := d.code * 256 + inp d.pos, pos := d.pos + 1, range := d.range * 256 }

/-- One class. -/
def RangeDec.getClass (d : RangeDec) (inp : Nat → Nat) (len w : Nat) : RangeDec × Nat :=
  let r := d.range / 4096
  if d.bad ≠ 0 then (d, 0)
  else if r * 4096 ≤ d.code then ({ d with bad := dmgCode }, 0)
  else
    let v := d.code / r
    let k := ((List.range (w + 1)).find? (fun k => decide (classCum w k ≤ v) && decide (v < classCum w k + classFreq w k))).getD 0
    (RangeDec.norm inp len 4 { d with code := d.code - r * classCum w k, range := r * classFreq w k }, k)

/-- k bypass bits, highest first. -/
def RangeDec.getBits (inp : Nat → Nat) (len : Nat) : Nat → RangeDec → Nat → RangeDec × Nat
  | 0, d, z => (d, z)
  | k + 1, d, z =>
    let r := d.range / 2
    let b := decide (r ≤ d.code)
    RangeDec.getBits inp len k
      (RangeDec.norm inp len 4 { d with code := if b then d.code - r else d.code, range := r }) (2 * z + b2n b)

/-- Decode a block of len bytes: the reason of damage, or the block. ref gives the reference of element n from the elements decoded
before it. -/
def decodeBlock (w : Nat) (sm : Bool) (inp : Nat → Nat) (len : Nat) (ref : Nat → Nat → Nat) : Except Nat Nat :=
  if inp 0 ≠ 0 then .error dmgCode
  else
    let c := 2 ^ 24 * inp 1 + 2 ^ 16 * inp 2 + inp 3 * 2 ^ 8 + inp 4
    if 0xFFFFFFFF ≤ c then .error dmgCode
    else
      let r := (List.range (32768 / w)).foldl (fun (q : RangeDec × Nat) n =>
        if q.1.bad ≠ 0 then q
        else
          let k := q.1.getClass inp len w
          let z := if k.2 = 0 then (k.1, 0) else RangeDec.getBits inp len (k.2 - 1) k.1 1
          (z.1, q.2 + deltaElem w sm z.2 (ref q.2 n) * 2 ^ (w * n))) (({ code := c } : RangeDec), 0)
      if r.1.bad ≠ 0 then .error r.1.bad
      else if r.1.pos ≠ len then .error dmgLength
      else .ok r.2

-- ===== CRC-32C (R338) =====

/-- One bit of the reflected CRC. -/
def crcBit (c : Nat) : Nat := if c % 2 = 1 then (c / 2) ^^^ 0x82F63B78 else c / 2
/-- One byte. -/
def crcByte (c b : Nat) : Nat := (List.range 8).foldl (fun c _ => crcBit c) (c ^^^ b)
/-- The CRC-32C of n bytes of a little-endian value. -/
def crc32c (v n : Nat) : Nat := ((List.range n).foldl (fun c i => crcByte c (v / 256 ^ i % 256)) 0xFFFFFFFF) ^^^ 0xFFFFFFFF

-- ===== Streams (R334 to R337) =====

/-- The little-endian value of bytes. -/
def leBytes : List Nat → Nat
  | [] => 0
  | b :: r => b % 256 + 256 * leBytes r

/-- What a sender codes a parcel with: CHECKED format, mode 1 WEIGHT or 2 KV, difference format, REF_ID, stride, REF_OFFSET. -/
structure StreamCfg where
  checked : Bool := false
  mode : Nat := 2
  fmt : Nat := 0
  refId : Nat := 0
  stride : Nat := 0
  refOff : Nat := 0
deriving DecidableEq, Repr

/-- Bytes being assembled: a value and its length. -/
structure Bytes where
  v : Nat := 0
  n : Nat := 0
deriving DecidableEq, Repr

def Bytes.app (b : Bytes) (v n : Nat) : Bytes := { v := b.v + v % 256 ^ n * 256 ^ b.n, n := b.n + n }

/-- One record: block b of the parcel with its granule marks and reference. The second result tells whether it is coded. -/
def putRecord (c : StreamCfg) (out : Bytes) (x len mask ref refMask : Nat) : Bytes × Bool :=
  let wf := (dfmt c.fmt).getD (8, false)
  let rawOnly := decide (len < 4096) || decide (mask ≠ 0) || (decide (c.mode = 1) && decide (refMask ≠ 0))
  let cb := if rawOnly then [] else
    codeBlock wf.1 wf.2 x (fun n => if c.mode = 1 then blockElem wf.1 ref n else kvRefElem wf.1 c.stride x n)
  let coded := !rawOnly && decide (cb.length < 4096)
  let l := if coded then cb.length else len
  let out := out.app (b2n (!coded) * 2 ^ 31 + b2n (decide (mask ≠ 0)) * 2 ^ 30 + l) 4
  let out := if mask = 0 then out else out.app mask 16
  let out := if c.checked then out.app (crc32c x len) 4 else out
  (out.app (if coded then leBytes cb else x) l, coded)

/-- Records of a parcel of len bytes. -/
def streamRecords (c : StreamCfg) (v p len ref refP : Nat) : Bytes × Nat :=
  (List.range ((4095 + len) / 4096)).foldl (fun (q : Bytes × Nat) b =>
    let l := min 4096 (len - 4096 * b)
    let r := putRecord c q.1 (v / 256 ^ (4096 * b) % 256 ^ l) l (p / 2 ^ (128 * b) % 2 ^ 128) (ref / 256 ^ (4096 * b) % 256 ^ l)
      (refP / 2 ^ (128 * b) % 2 ^ 128)
    (r.1, q.2 + b2n r.2)) ({}, 0)

/-- The stream of a parcel: its value, its padded length, and how many of its blocks are coded (R334). -/
def buildStream (c : StreamCfg) (v p len ref refP : Nat) : Bytes × Nat :=
  let r := streamRecords c v p len ref refP
  let sl := 16 + r.1.n
  let w0 := (if c.checked then 2 else 1) * 2 ^ 56 + 2 ^ 52 * c.mode + 2 ^ 48 * c.fmt + 2 ^ 44 * c.refId +
    (4095 + len) / 4096 * 2 ^ 39 + 2 ^ 22 * sl + 2 ^ 17 * c.stride + len
  ({ v := w0 + 2 ^ 64 * c.refOff + 2 ^ 128 * r.1.v, n := (sl + 63) / 64 * 64 }, r.2)

/-- A decoded parcel: its bytes and marks, the reason and block of damage (reason 0: none), and the blocks whose reference was poisoned. -/
structure Decoded where
  v : Nat := 0
  p : Nat := 0
  len : Nat := 0
  reason : Nat := 0
  block : Nat := 0
  badRef : List Nat := []
deriving DecidableEq, Repr

/-- Byte i of a value. -/
def byteAt (v i : Nat) : Nat := v / 256 ^ i % 256

/-- The fields of a header. -/
def hdrFormat (v : Nat) : Nat := bits v 63 56
def hdrMode (v : Nat) : Nat := bits v 55 52
def hdrFmt (v : Nat) : Nat := bits v 51 48
def hdrRefId (v : Nat) : Nat := bits v 47 44
def hdrBlocks (v : Nat) : Nat := bits v 43 39
def hdrStreamLen (v : Nat) : Nat := bits v 38 22
def hdrStride (v : Nat) : Nat := bits v 21 17
def hdrRawLen (v : Nat) : Nat := bits v 16 0
def hdrRefOff (v : Nat) : Nat := v / 2 ^ 64 % 2 ^ 40

/-- Check 1 of Table 10.6. -/
def hdrBad (v : Nat) : Bool :=
  decide (hdrFormat v = 0) || decide (2 < hdrFormat v) || decide (hdrMode v = 0) || decide (2 < hdrMode v) ||
  decide (dfmt (hdrFmt v) = none) || decide (bits v 127 104 ≠ 0) ||
  (decide (hdrMode v = 2) && (decide (hdrRefId v ≠ 0) || decide (hdrRefOff v ≠ 0))) || (decide (hdrMode v = 1) && decide (hdrStride v ≠ 0))

/-- A record as parsed: its position, raw, its payload's position and length, its mask and CRC. -/
structure StreamRec where
  hd : Nat := 0
  raw : Bool := false
  poisoned : Bool := false
  pos : Nat := 0
  len : Nat := 0
  mask : Nat := 0
  crc : Nat := 0
  badBits : Bool := false
deriving DecidableEq, Repr

/-- The records of a stream in order, and where they end. -/
def parseRecords (v : Nat) (checked : Bool) : Nat → Nat → List StreamRec × Nat
  | 0, pos => ([], pos)
  | n + 1, pos =>
    let h := v / 256 ^ pos % 2 ^ 32
    let po := bit h 30
    let a := pos + 4
    let b := if po then a + 16 else a
    let c := if checked then b + 4 else b
    let l := h % 2 ^ 13
    let r : StreamRec := { hd := pos, raw := bit h 31, poisoned := po, pos := c, len := l, mask := if po then v / 256 ^ a % 2 ^ 128 else 0,
                           crc := v / 256 ^ b % 2 ^ 32, badBits := decide (bits h 29 13 ≠ 0) }
    let q := parseRecords v checked n (c + l)
    (r :: q.1, q.2)

/-- The length that a raw record of block b has. -/
def rawLenOf (rawLen b : Nat) : Nat := min 4096 (rawLen - 4096 * b)

/-- Length checks of one record (Table 10.6, order 2). -/
def recLenBad (rawLen b : Nat) (r : StreamRec) : Bool :=
  if r.raw then decide (r.len ≠ rawLenOf rawLen b)
  else decide (r.len < 5) || decide (4095 < r.len) || decide (rawLenOf rawLen b < 4096)

/-- Decode one record's block. ref is the reference block in WEIGHT mode. -/
def recBlock (v : Nat) (c : StreamCfg) (rawLen b : Nat) (r : StreamRec) (ref : Nat) : Except Nat Nat :=
  if r.raw then .ok (v / 256 ^ r.pos % 256 ^ rawLenOf rawLen b)
  else
    let wf := (dfmt c.fmt).getD (8, false)
    decodeBlock wf.1 wf.2 (fun i => byteAt v (r.pos + i)) r.len
      (fun acc n => if c.mode = 1 then blockElem wf.1 ref n else kvRefElem wf.1 c.stride acc n)

/-- The first damaged block of a check over records. -/
def firstBad (l : List StreamRec) (bad : Nat → StreamRec → Bool) : Option Nat :=
  (List.range l.length).find? (fun b => bad b (l.getD b {}))

/-- Decode a stream of n received bytes of a parcel whose packets carry rawLen, against the checks of Table 10.6 in their order. refOk tells
whether block b's reference may be read; refs gives its bytes and marks. A raw length outside 64 to 65,536 fails with LENGTH. [log 133: DEDUCED] -/
def decodeStream (v n rawLen : Nat) (refOk : Nat → Bool) (refs : Nat → Nat × Nat) : Decoded :=
  let len := hdrRawLen v
  let c : StreamCfg := { checked := decide (hdrFormat v = 2), mode := hdrMode v, fmt := hdrFmt v, refId := hdrRefId v,
                         stride := hdrStride v, refOff := hdrRefOff v }
  let q := parseRecords v c.checked (hdrBlocks v) 16
  let recs := q.1
  if hdrBad v then { reason := dmgHeader }
  else match firstBad recs (fun _ r => decide (r.hd + 4 ≤ n) && r.badBits) with
  | some b => { reason := dmgHeader, block := b }
  | none =>
    if len < 64 ∨ 65536 < len ∨ len ≠ rawLen ∨ hdrBlocks v ≠ (4095 + len) / 4096 ∨ n ≠ (hdrStreamLen v + 63) / 64 * 64 ∨ q.2 ≠ hdrStreamLen v then
      { reason := dmgLength }
    else
      let blocks := (List.range recs.length).map (fun b => recBlock v c len b (recs.getD b {}) (refs b).1)
      let isErr := fun (b : Nat) (k : Nat) => match blocks.getD b (.ok 0) with | .error e => decide (e = k) | .ok _ => false
      match firstBad recs (fun b r => recLenBad len b r || isErr b dmgLength) with
      | some b => { reason := dmgLength, block := b }
      | none =>
        match firstBad recs (fun b r => (r.poisoned && !r.raw) || isErr b dmgCode) with
        | some b => { reason := dmgCode, block := b }
        | none =>
          match firstBad recs (fun b r => decide (c.mode = 1) && !r.raw && !refOk b) with
          | some b => { reason := dmgReference, block := b }
          | none =>
            let refBad := fun (b : Nat) => decide (c.mode = 1) && !(recs.getD b {}).raw && decide ((refs b).2 ≠ 0)
            let val := fun (b : Nat) => match blocks.getD b (.ok 0) with | .ok x => x | .error _ => 0
            match firstBad recs (fun b r => c.checked && !refBad b && decide (crc32c (val b) (rawLenOf len b) ≠ r.crc)) with
            | some b => { reason := dmgCrc, block := b }
            | none =>
              let bad := (List.range recs.length).filter refBad
              { v := (List.range recs.length).foldl (fun x b => x + val b * 256 ^ (4096 * b)) 0,
                p := (List.range recs.length).foldl (fun x b =>
                  x + (if refBad b then 2 ^ 128 - 1 else (recs.getD b {}).mask) * 2 ^ (128 * b)) 0,
                len := len, badRef := bad }

end Sys2Proof.Machine
end

