-- ==== Sys2Proof/Machine/FabricOps.lean ====
section
/-!
DEFINITION. Sys2Proof/Machine/FabricOps.lean: sending on the fabric: tags, egress, the pair's hold buffer, and transfers that load
from and store to remote pieces (11_fefen_fabric.md, R353 to R371; 15_pair_mode_and_fault_tolerance.md, R471 and R474).
-/
namespace Sys2Proof.Machine

-- ===== Packets (R353, Table 11.5) =====

def opLoad : Nat := 1
def opStore : Nat := 2
def opStorem : Nat := 3
def opPeal : Nat := 4
def opAtomic : Nat := 5
def opRed : Nat := 6
def opFence : Nat := 7
def opGong : Nat := 8
def opTaint : Nat := 9
def opParcel : Nat := 10
def opParcelEnd : Nat := 11
def opCparcel : Nat := 12
def opCparcelEnd : Nat := 13
def opRsp : Nat := 14
def opPending : Nat := 15

/-- Bytes of a SIZE code. -/
def sizeBytes (c : Nat) : Nat := if c = 0 then 0 else 4 * 2 ^ c

/-- SIZE code of a data size. -/
def sizeCode (n : Nat) : Nat :=
  if n ≤ 0 then 0 else if n ≤ 8 then 1 else if n ≤ 16 then 2 else if n ≤ 32 then 3 else if n ≤ 64 then 4 else if n ≤ 128 then 5 else 6

/-- The model's own mark of a router record to another device, whose wire form the spec does not give (R189): mask holds its length. [log 15: DESIGN CHOICE] -/
def opRecord : Nat := 16

/-- Payload bytes that a request carries. -/
def Pkt.payloadBytes (p : Pkt) : Nat :=
  if p.op = opRecord then p.mask
  else if p.op = opLoad ∨ p.op = opFence ∨ p.op = opPending then 0 else sizeBytes p.size

/-- The largest naturally aligned packet at the start of a remote piece (R354). -/
def cutLen (addr len : Nat) : Nat :=
  if addr % 256 = 0 ∧ 256 ≤ len then 256
  else if addr % 128 = 0 ∧ 128 ≤ len then 128
  else if addr % 64 = 0 ∧ 64 ≤ len then 64
  else if addr % 32 = 0 ∧ 32 ≤ len then 32
  else if addr % 16 = 0 ∧ 16 ≤ len then 16
  else 8

-- ===== The pair's outputs (R471, R474) =====

/-- One round of the pair hash. -/
def hashStep (h x : Nat) : Nat :=
  let h := (h ^^^ x) * 0x100000001B3 % 2 ^ 64
  h ^^^ (h / 2 ^ 29)

/-- The pair hash of n bytes of a value and of nm mask words (R471). -/
def pairHash (key v n mask nm : Nat) : Nat :=
  let h := (List.range ((n + 7) / 8)).foldl (fun h i => hashStep h (v / 2 ^ (64 * i) % 2 ^ 64)) (key ^^^ 0x9E3779B97F4A7C15)
  (List.range nm).foldl (fun h j => hashStep h (mask / 2 ^ (64 * j) % 2 ^ 64)) h

/-- The hash of a packet: key its global address, its payload, its poison mask. -/
def Pkt.hash (p : Pkt) : Nat := pairHash p.addr p.payload p.payloadBytes p.poison 1

def roleAlone : Nat := 0
def roleJoining : Nat := 1
def roleProbation : Nat := 2
def roleFull : Nat := 3
def roleLead : Nat := 4
def State.role (s : State) : Nat := s.f F.HUB_PAIR_STATUS_ROLE 0 0

/-- The device sends outputs: it is ALONE or LEAD. [log 84: DEDUCED] -/
def State.sends (s : State) : Bool := decide (s.role = roleAlone) || decide (s.role = roleLead)

/-- The LEAD forwards a command write to the SHADOW in the order it applies it (R473). [log 120: DEDUCED] -/
def State.forward (s : State) (i : Nat) (r : RegName) (j k : Nat) (w : BitVec 64) : State :=
  if s.role = roleLead then { s with pair := { s.pair with forwards := s.pair.forwards ++ [(i, r.off j k, w)] } } else s

/-- Partition p's outputs are compared with the partner's before release. -/
def State.compares (s : State) (p : Nat) : Bool :=
  s.fb F.HUB_PAIR_CFG_ENABLE 0 0 && decide (2 ≤ s.role) && !bit (s.f F.HUB_PAIR_STATUS_RESYNC 0 0) p

/-- Key of a context in comparison messages: kit, logical drum, mallet and context (Table 15.6). [log 15: DESIGN CHOICE] -/
def State.pairKey (s : State) (u : Sys2Proof.CtxId) : Nat :=
  2 ^ 56 * u.kit + (s.logical u.kit u.drum).getD u.drum * 2 ^ 48 + 2 ^ 40 * u.mallet + 2 ^ 37 * u.ctx

/-- A SOUND (R374). -/
def Pkt.isSound (p : Pkt) : Bool := decide (p.op = opGong) && p.payload.testBit 47

/-- The virtual channel of a packet (R352): 0 REQ, 1 RSP, 2 CTL. -/
def Pkt.chan (p : Pkt) : Nat :=
  if p.op = opRsp ∨ p.op = opPending then 1 else if p.op = opGong ∨ p.op = opTaint ∨ p.op = opFence then 2 else 0

/-- Bytes of a packet (R353). -/
def Pkt.bytes (p : Pkt) : Nat := 12 + (if p.op = opStorem then sizeBytes p.size / 8 else if p.op = opRed then 4 else 0) + p.payloadBytes + b2n (decide (p.poison ≠ 0))

/-- A KVAPP entry or a TINC enters the step hash of partition p (R474). -/
def State.stepItem (s : State) (p h : Nat) : State :=
  if s.compares p then { s with pair := { s.pair with stepHash := mupd 0 s.pair.stepHash p (fun x => (x + h) % 2 ^ 64) } } else s

/-- The loopback port (R375): no link. [log 12: DESIGN CHOICE] -/
def portLoop : Nat := 31

/-- Data frames of 256 B put on a link since it trained. [log 65: DEDUCED] -/
def Link.frames (l : Link) : Nat := (l.sent + 255) / 256

/-- A packet takes its place on a link and a credit of its channel. [log 128: DESIGN CHOICE] -/
def Link.carry (l : Link) (p : Pkt) : Link :=
  { l with sent := l.sent + p.bytes, useReq := l.useReq + b2n (decide (p.chan = 0)), useRsp := l.useRsp + b2n (decide (p.chan = 1)),
           useCtl := l.useCtl + b2n (decide (p.chan = 2)) }

/-- The device puts a control frame on a link: it returns the credits that are due, and may ask for a resend (R350). -/
def State.sendCtl (s : State) (i : Nat) (retry : Option Nat) : State :=
  let l := mget {} s.fab.links i
  let c : CtlOut := { link := i, accepted := (l.expected + 2 ^ 24 - 1) % 2 ^ 24, req := l.retReq, rsp := l.retRsp, ctl := l.retCtl, retry := retry }
  { s with fab := { s.fab with ctl := s.fab.ctl ++ [c],
                               links := mput {} s.fab.links i { l with retReq := 0, retRsp := 0, retCtl := 0 } } }

/-- Put a packet on its link, after the control frame that every 256th frame is (R350), or on its way back to this device (R375). [log 12, 128: DESIGN CHOICE] -/
def State.putOut (s : State) (p : Pkt) : State :=
  if p.port = portLoop then { s with fab := { s.fab with loop := s.fab.loop ++ [p] } }
  else
    let l := mget {} s.fab.links p.port
    let s : State := { s with fab := { s.fab with out := s.fab.out ++ [p],
                                                  links := if p.port < 18 then mput {} s.fab.links p.port (l.carry p) else s.fab.links } }
    if p.port < 18 ∧ l.frames / 255 ≠ (l.carry p).frames / 255 then s.sendCtl p.port none else s

/-- Bytes held for a partition: packet headers and payloads (R475). -/
def State.heldBytes (s : State) (p : Nat) : Nat :=
  let of := fun (h : Held) => if h.part = p then h.pkts.foldl (fun n k => n + 13 + k.payloadBytes) 0 + (if h.record = 0 then 0 else 64) +
    (if h.parcel = 0 then 0 else (mget {} s.trn.parcels (h.parcel - 1)).len) else 0
  (s.pair.waiting.foldl (fun n h => n + of h) 0) + (s.pair.segs.foldl (fun n h => n + of h.2) 0)

/-- The pair hold buffer of p takes n more bytes. -/
def State.holdFits (s : State) (p n : Nat) : Bool :=
  decide (s.heldBytes p + n ≤ 65536 * s.f F.PAR_PAIR_HOLD_SIZE p 0)

-- ===== Tags and routes (R366, R369, R370) =====

/-- The target of a packet: a node, or a group ID for PEAL and SOUND. -/
def nodeOf (addr : Nat) : Nat := addr / 2 ^ 48

def tagKey (n t : Nat) : Nat := 2048 * n + t
def State.tag (s : State) (n t : Nat) : Tag := mget {} s.fab.tags (tagKey n t)
def State.setTag (s : State) (n t : Nat) (x : Tag) : State :=
  { s with fab := { s.fab with tags := mput {} s.fab.tags (tagKey n t) x } }

/-- The tag is of a request to a group, whose members answer under their own node IDs (R360, R372). -/
def Tag.ofGroup (g : Tag) : Bool := decide (g.op = opPeal) || g.sound

/-- A free tag for a target: the lowest whose number no request has, so that the answers of a group's members are not taken for others; else the
lowest whose number no group's request has; else the lowest. [log 13: DESIGN CHOICE] -/
def State.freeTag (s : State) (n : Nat) : Option Nat :=
  let free := fun (t : Nat) => decide ((s.tag n t).st = .free)
  let used := fun (p : Tag → Bool) (t : Nat) => s.fab.tags.any (fun q => decide (q.1 % 2048 = t) && decide (q.2.st ≠ .free) && p q.2)
  ((List.range 2048).find? (fun t => free t && !used (fun _ => true) t)).or
    (((List.range 2048).find? (fun t => free t && !used Tag.ofGroup t)).or ((List.range 2048).find? free))

/-- States of an egress entry. -/
def egUnlearned : Nat := 0
def egHold : Nat := 1
def egFixed : Nat := 2
def egNoroute : Nat := 3

/-- The port of a request to target n: loopback to the own node, the entry's port, or none (R369). [log 12: DESIGN CHOICE] -/
def State.route (s : State) (n : Nat) : Option Nat :=
  if n = s.node then some portLoop
  else if s.fb F.FAB_EGRESS_VALID n 0 && decide (s.f F.FAB_EGRESS_STATE n 0 ≠ egNoroute) then some (s.f F.FAB_EGRESS_PORT n 0)
  else none

/-- A request to target n at addr waits for the FENCE that follows a port change (R370). -/
def State.fenced (s : State) (n addr : Nat) : Bool :=
  (mget {} s.fab.egress n).fences.any (fun f =>
    s.fab.tags.any (fun t => decide (t.1 / 2048 = n) && decide (t.2.st = .out) && decide (t.2.port = f.1) && decide (t.2.op ≠ opFence) &&
      decide (t.2.addr / 4096 = addr / 4096)))

/-- The resource of a port's group (Table 13.3). -/
def State.portRes (s : State) (port : Nat) : Nat := 3 + s.f F.FAB_PORT_CFG_GROUP port 0

/-- The number that stands for no partition: device work, which no credit covers (R407). -/
def noPart : Nat := 8

/-- The partition of a record, if there is one. -/
def partOpt (p : Nat) : Option Nat := if p < 8 then some p else none

/-- Egress credit for n payload bytes of a partition on a port (R412). [log 58: DEDUCED] -/
def State.egressFits (s : State) (part port n : Nat) : Bool :=
  port = portLoop || part = noPart || s.regFits part (s.portRes port) 0 (n + 16)

/-- A request can be sent now: a tag is free, no route change holds its block, and its partition has credit. -/
def State.canIssue (s : State) (part addr bytes : Nat) : Bool :=
  let n := nodeOf addr
  (s.freeTag n).isSome && !s.fenced n addr &&
    (match s.route n with | some port => n = 0xFFFF || s.egressFits part port bytes | none => true)

/-- Payload leaves on a port: FAB_OUT of a subscriber and the partition's egress (R276, R407). Loopback is charged nothing. [log 58: DEDUCED] -/
def State.chargeOut (s : State) (part : Nat) (sub : Option Nat) (port bytes : Nat) : State :=
  if port = portLoop then s else
    let s := if part = noPart then s else s.regCharge part (s.portRes port) 0 (bytes + 16)
    match sub with
    | some x => s.acct x 7 bytes 1024
    | none => s

/-- Payload arrives for a subscriber: FAB_IN (R276). -/
def State.chargeIn (s : State) (sub : Option Nat) (port bytes : Nat) : State :=
  if port = portLoop then s else
    match sub with
    | some x => s.acct x 8 bytes 1024
    | none => s

/-- An output enters the release log (R468). [log 84: DEDUCED] -/
def State.noteRelease (s : State) (h : Held) : State := { s with pair := { s.pair with released := s.pair.released ++ [h] } }

/-- A packet of partition p leaves and enters the release log. -/
def State.sendOut (s : State) (part : Nat) (p : Pkt) : State :=
  (s.putOut p).noteRelease { kind := 3, part := part, key := p.addr, hash := p.hash, pkts := [p], step := (s.rg .PAR_STEP_SEQ part 0).toNat }

/-- An LA128 RED or an ATOMIC, which a replay does not send twice (R468). -/
def Pkt.once (p : Pkt) : Bool := decide (p.op = opAtomic) || (decide (p.op = opRed) && decide (bits p.red 31 29 = 0))

/-- A request that a device which sends no outputs keeps back ends as answered OK: its answers take the way of loopback. The old value that an
ATOMIC brings is a value the spec leaves open. [log 12: DESIGN CHOICE] -/
def State.selfAnswer (s : State) (p : Pkt) : State :=
  let n := nodeOf p.addr
  let at_ := decide (p.op = opAtomic)
  let a : Pkt := { op := opRsp, size := if at_ then sizeCode 8 else 0, tag := p.tag, src := n, dst := s.node, port := portLoop,
                   payload := if at_ then Config.freeValue s.freeCtr % 2 ^ 64 else 0 }
  let s := if at_ then s.fresh else s
  { s with fab := { s.fab with loop := s.fab.loop ++ List.replicate (s.tag n p.tag).left a } }

/-- What the release log says of a packet of the step that partition p replays: nothing, or that its key is there, with an equal hash or not. -/
def State.logged (s : State) (part : Nat) (p : Pkt) : Option Bool :=
  let r := (s.part part).run
  if r.replay = false ∨ p.once = false then none
  else
    match (s.pair.released.filter (fun h => decide (h.part = part) && decide (h.step = r.s15))).flatMap
        (fun h => h.pkts.filter (fun q => decide (q.op = p.op) && decide (q.addr = p.addr))) with
    | [] => none
    | qs => some (qs.any (fun q => decide (q.hash = p.hash)))

/-- An output packet of partition p leaves, or is held for its comparison: seg names the context whose segment it belongs to. A packet to the
own node never leaves the device and is no output (R375). A device that sends no output ends it as answered; a replay does not send an LA128 RED
or an ATOMIC again (R468, R474). [log 12, 14: DESIGN CHOICE] -/
def State.emit (s : State) (part : Nat) (seg : Option Sys2Proof.CtxId) (p : Pkt) : State :=
  if p.port = portLoop then s.putOut p
  else match seg with
  | none => if s.sends || decide (p.op = opLoad) then s.putOut p else s.selfAnswer p
  | some u =>
    match s.logged part p with
    | some same =>
      (if same then s else s.log (srcHub 0) Ev.REPLAY_DIVERGED [p.addr] (some part)).selfAnswer p
    | none =>
      if s.compares part then
        let k := ctxKey u
        let h := mget {} s.pair.segs k
        let h := { h with kind := 3, part := part, key := s.pairKey u, num := mget 0 s.pair.segCount k,
                          hash := (h.hash + p.hash) % 2 ^ 64, pkts := h.pkts ++ [p], step := (s.rg .PAR_STEP_SEQ part 0).toNat,
                          unit := unitDrum u.kit u.drum }
        { s with pair := { s.pair with segs := mput {} s.pair.segs k h } }
      else if s.sends then s.sendOut part p
      else s.selfAnswer p

/-- A request is declared dead (R367, R373): its tag is quarantined, and the declaration is logged and counted. -/
def State.killTag (s : State) (n t : Nat) : State :=
  let g := s.tag n t
  let s := s.setTag n t { g with st := .quarantined, time := s.time }
  let s := (s.logLimited (limNodeDead n) 1000000 (srcHub 0) Ev.FAB_TARGET_DEAD [n, g.addr] (partOpt g.part)).count F.FAB_TARGET_DEAD_COUNT_COUNT 0 0 1
  match g.issuer with
  | .gong p l => s.log (srcHub 0) Ev.FAB_GONG_LOST [p * 16 + l, n] (some p)
  | _ => s

/-- A request without a route is declared dead at once (R369); its issuer learns of it with the next nanosecond. [log 14: DESIGN CHOICE] -/
def State.noRoute (s : State) (n t : Nat) : State :=
  let g := s.tag n t
  let s := (s.log (srcHub 0) Ev.FAB_NO_ROUTE [n]).killTag n t
  { s with fab := { s.fab with dead := s.fab.dead ++ [(n, g)] } }

/-- Send a request (R366, R369): it takes a free tag of its target and leaves on its port, charged unless it draws nothing. A request to node
0xFFFF is dropped and counted; one without a route is declared dead at once. -/
def State.issue (s : State) (part : Nat) (sub : Option Nat) (iss : Issuer) (seg : Option Sys2Proof.CtxId) (answers : Nat)
    (q : Pkt) (draws : Bool := true) : State :=
  let n := nodeOf q.addr
  match s.freeTag n with
  | none => s
  | some t =>
    let route := s.route n
    let port := route.getD 0
    let s := s.setTag n t { st := .out, op := q.op, addr := q.addr, size := q.size, issuer := iss, time := s.time,
                            left := answers, port := port, part := part, sound := q.isSound }
    if n = 0xFFFF then s.count F.FAB_EGRESS_DROP_COUNT 0 0 1
    else match route with
      | none => s.noRoute n t
      | some port =>
        let p := { q with tag := t, src := s.node, port := port }
        (s.chargeOut (if draws then part else noPart) sub port p.payloadBytes).emit part seg p

-- ===== Taint notices (R363, R458) =====

def State.setInteg (s : State) (f : Integ → Integ) : State := { s with integ := f s.integ }

/-- Send the notices whose earlier requests to their target have ended. Notices are device work: no partition's credit is drawn. [log 78: DEDUCED] -/
def State.pumpTaint (s : State) : State :=
  s.integ.taints.foldl (fun s t =>
    let n := nodeOf t.addr
    if t.after.any (fun q => decide ((mget {} s.fab.tags q).st = .out)) || (s.freeTag n).isNone || s.fenced n t.addr then s
    else
      let w := (t.len / 32 - 1) * 2 ^ 43 + t.seq
      let s := s.setInteg (fun x => { x with taints := x.taints.erase t })
      (s.count F.INT_TAINT_SENT_COUNT 0 0 1).issue noPart none .taint none 1
        { op := opTaint, size := sizeCode 16, addr := t.addr, payload := t.addr + w * 2 ^ 64 }) s

/-- Queue the notices of a global range, at most 64 MiB each; their numbers count from 1 and wrap to 1. -/
def State.taintRange : Nat → State → Nat → Nat → State
  | 0, s, _, _ => s
  | fuel + 1, s, a, n =>
    if n = 0 then s
    else
      let l := min n 0x4000000
      let q := if s.integ.noticeSeq = 2 ^ 32 - 1 then 1 else s.integ.noticeSeq + 1
      let t : Taint := { addr := a, len := l, seq := q,
                         after := (s.fab.tags.filter (fun x => decide (x.1 / 2048 = nodeOf a) && decide (x.2.st = .out))).map Prod.fst }
      State.taintRange fuel (s.setInteg (fun x => { x with noticeSeq := q, taints := x.taints ++ [t] })) (a + l) (n - l)

/-- Poison pieces: local memory is marked, and the far node of a remote piece gets a notice. [log 129: DESIGN CHOICE] -/
def State.poisonPieces (s : State) (ps : List (Nat × Piece)) : State :=
  ps.foldl (fun s q => if q.2.rem then (State.taintRange (q.2.len / 0x4000000 + 2) s q.2.addr q.2.len).pumpTaint else s.poisonRange q.2.addr q.2.len) s

-- ===== Transfers =====

def State.xfer (s : State) (x : Nat) : Xfer := mget {} s.xfers x
def State.setXfer (s : State) (x : Nat) (t : Xfer) : State := { s with xfers := mput {} s.xfers x t }

/-- Remote pieces only. -/
def remoteOf (ps : List (Nat × Piece)) : List (Nat × Piece) := ps.filter (fun q => q.2.rem)

/-- The HBM and flash accesses of transfer x's local pieces are presented to the regulators in its stream (R412). [log 126: DESIGN CHOICE] -/
def State.presentXfer (s : State) (x : Nat) (t : Xfer) : State :=
  if t.stream = 0 then s
  else
    let n := if t.stream = ownStream then entryStream x else t.stream
    let s := (s.presentHbm n (x + 1) t.part false (localOf t.src)).presentFlash n (x + 1) t.part (localOf t.src)
    s.presentHbm n (x + 1) t.part true (localOf t.dst)

/-- A new transfer; its remote source pieces are still to be requested. -/
def State.newXfer (s : State) (t : Xfer) : State × Nat :=
  let x := s.nextXfer
  (({ (s.setXfer x { t with live := true, toLoad := remoteOf t.src, toStore := remoteOf t.dst }) with nextXfer := x + 1 } : State).presentXfer x t, x)

/-- The subscriber that a transfer's payload is charged to (R276). -/
def State.xferSub (s : State) (t : Xfer) : Nat :=
  match t.sub with
  | 0 => s.spanOwner t.part t.span
  | n + 1 => n

/-- The subscriber that what a transfer loads is charged to: the owner of the span that it loads from (R276). -/
def State.loadSub (s : State) (t : Xfer) : Nat :=
  match t.srcSub with
  | 0 => s.xferSub t
  | n + 1 => n

/-- Request the remote source pieces of a transfer, packet by packet, while requests can be sent. -/
def pumpLoads : Nat → State → Nat → State
  | 0, s, _ => s
  | fuel + 1, s, x =>
    let t := s.xfer x
    match t.toLoad with
    | [] => s
    | (o, pc) :: rest =>
      if s.canIssue (if t.noDraw then noPart else t.part) pc.addr 0 then
        let l := cutLen pc.addr pc.len
        let s := s.issue t.part (some (s.loadSub t)) (.xfer x o) none 1
          { op := opLoad, size := sizeCode l, addr := pc.addr } (!t.noDraw)
        let rest := if pc.len ≤ l then rest else (o + l, { pc with addr := pc.addr + l, len := pc.len - l }) :: rest
        pumpLoads fuel (s.setXfer x { (s.xfer x) with toLoad := rest, waiting := t.waiting + 1 }) x
      else s

/-- The source data of a transfer is in hand. -/
def Xfer.loaded (t : Xfer) : Bool := t.toLoad.isEmpty && (t.stored || decide (t.waiting = 0))

/-- Store the remote destination pieces of a transfer from its buffer, packet by packet, while requests can be sent. -/
def pumpStores : Nat → State → Nat → State
  | 0, s, _ => s
  | fuel + 1, s, x =>
    let t := s.xfer x
    match t.toStore with
    | [] => s
    | (o, pc) :: rest =>
      let l := cutLen pc.addr pc.len
      if s.canIssue t.part pc.addr l then
        let s := s.issue t.part (some (s.xferSub t)) (.xferStore x) none 1
          { op := opStore, size := sizeCode l, addr := pc.addr, payload := cellsRead t.buf o l,
            poison := nmask t.bufP (o / 32) (granules o l) }
        let rest := if pc.len ≤ l then rest else (o + l, { pc with addr := pc.addr + l, len := pc.len - l }) :: rest
        pumpStores fuel (s.setXfer x { (s.xfer x) with toStore := rest, waiting := t.waiting + 1 }) x
      else s

/-- A local piece in the flash window. -/
def Piece.inFlash (q : Piece) : Bool := !q.rem && decide (flashBase ≤ q.addr) && decide (q.addr < flashEnd)

/-- A piece of local memory other than flash. -/
def Piece.inMem (q : Piece) : Bool := !q.rem && !q.inFlash

/-- Read the local source pieces that a test picks into a transfer's buffer, through the merge buffer of drum (k, d) when the
transfer is a drum's own. -/
def State.gather (s : State) (x : Nat) (drum : Option (Nat × Nat)) (pick : Piece → Bool) : State :=
  (s.xfer x).src.foldl (fun s q =>
    if !pick q.2 then s else
      let t := s.xfer x
      let r := match drum with
        | some (k, d) => s.readDrum k d t.unit q.2.addr q.2.len
        | none => s.readMem t.unit q.2.addr q.2.len
      r.1.setXfer x { t with buf := cellsWrite t.buf q.1 q.2.len r.2.v,
                             bufP := ninsMask (ndelRange t.bufP (q.1 / 32) (granules q.1 q.2.len)) (q.1 / 32) r.2.p (granules q.1 q.2.len) }) s

/-- The flash pieces of a transfer's source by codeword: place in the transfer, address and length. -/
def Xfer.flashParts (t : Xfer) : List (Nat × Nat × Nat) :=
  (t.src.filter (fun q => q.2.inFlash)).flatMap (fun q =>
    (chunks (q.2.len / 4096 + 2) q.2.addr q.2.len).map (fun c => (q.1 + (c.1 - q.2.addr), c.1, c.2)))

/-- Ask for the flash source of a transfer, once FLS_STATUS.READY is 1 (R288): every read of a unit takes the version, and the mapping, of this
instant (R286, R289); units without a location read zeros and those whose map word is poisoned read poisoned, with no NAND access, and the other
codewords are read by the NAND (R287). [log 147: DESIGN CHOICE] -/
def State.askFlash (s : State) (x : Nat) : State :=
  if (s.xfer x).nand.isSome ∨ (s.xfer x).flashParts.isEmpty = true ∨ s.fb F.FLS_STATUS_READY 0 0 = false then s
  else
    (s.xfer x).flashParts.foldl (fun s c =>
      match s.flashByte c.2.1 with
      | none => s
      | some b =>
        let s := s.touchMap (b / 65536)
        let t := s.xfer x
        let d := ({ s.flash with badCodewords := [] } : Flash).read b c.2.2
        let more := match s.flash.locOf (b / 65536) with
          | some l => if nmem s.flash.badMap (b / 65536) then [] else [(b / 4096, l, c.1, c.2.2)]
          | none => []
        s.setXfer x { t with buf := cellsWrite t.buf c.1 c.2.2 d.v,
                             bufP := ninsMask (ndelRange t.bufP (c.1 / 32) (granules c.1 c.2.2)) (c.1 / 32) d.p (granules c.1 c.2.2),
                             nand := some (t.nand.getD [] ++ more) }) (s.setXfer x { (s.xfer x) with nand := some [] })

/-- The flash source of a transfer is in hand. -/
def State.flashReady (s : State) (x : Nat) : Bool :=
  !(s.xfer x).src.any (fun q => q.2.inFlash) || decide ((s.xfer x).nand = some [])

/-- Move a transfer on: request what is still to be requested; once the source is in hand, store to remote destinations. -/
def State.advance (s : State) (x : Nat) : State :=
  let s := pumpLoads 2048 (s.askFlash x) x
  let t := s.xfer x
  if t.loaded && !t.toStore.isEmpty && s.flashReady x then
    pumpStores 2048 (s.setXfer x { (s.xfer x) with stored := true }) x
  else s

/-- Begin a transfer: local sources other than flash are read at issue (R117), remote ones and flash requested. -/
def State.launch (s : State) (x : Nat) (drum : Option (Nat × Nat)) : State :=
  (s.gather x drum Piece.inMem).advance x

/-- A request of transfer x waits for credit. -/
def State.xferOwes (s : State) (x : Nat) : Bool := s.due.any (fun q => decide (q.xfer = x + 1))

/-- Local pieces of a transfer lie in HBM that is in self-refresh (R40). -/
def State.xferSleeps (s : State) (t : Xfer) : Bool := (localOf t.src ++ localOf t.dst).any (fun q => s.asleep q.1)

/-- A transfer can finish: its source is in hand, its remote stores are answered, and its requests have had their credit. -/
def State.finishable (s : State) (x : Nat) : Bool :=
  let t := s.xfer x
  t.live && !s.xferSleeps t && t.loaded && t.toStore.isEmpty && decide (t.waiting = 0) && s.flashReady x && !s.xferOwes x

/-- Data of an answer lands in a transfer's buffer at offset o. -/
def State.landed (s : State) (x o n : Nat) (d : Data) : State :=
  let t := s.xfer x
  s.setXfer x { t with
    buf := cellsWrite t.buf o n d.v,
    bufP := ninsMask (ndelRange t.bufP (o / 32) (granules o n)) (o / 32) d.p (granules o n),
    waiting := t.waiting - 1 }

/-- What a transfer's buffer holds. -/
def Xfer.data (t : Xfer) : Data := { v := cellsRead t.buf 0 t.len, p := nmask t.bufP 0 (granules 0 t.len) }

/-- A finished transfer leaves the table, with what it still had presented. -/
def State.endXfer (s : State) (x : Nat) : State :=
  { s with xfers := mdel s.xfers x, due := s.due.filter (fun q => decide (q.xfer ≠ x + 1)),
           streamEnd := mdel (mdel s.streamEnd (followKey (entryStream x) false)) (followKey (entryStream x) true) }

/-- A transfer waits for no answer and for no codeword. -/
def Xfer.quiet (t : Xfer) : Bool := decide (t.waiting = 0) && (t.nand.getD []).isEmpty

/-- A load or poll whose answer or flash data is still due is abandoned: what comes is discarded, and nothing more is requested (R147, R298). -/
def State.abandonXfer (s : State) (x : Nat) : State :=
  let t := s.xfer x
  if t.quiet then s.endXfer x else s.setXfer x { t with kind := .abandoned, toLoad := [] }

/-- A transfer moves on when something of it has come; one that nothing waits for any more ends with its last answer. -/
def State.onward (s : State) (x : Nat) : State :=
  match (s.xfer x).kind with
  | .load u _ => if (s.ctx (ctxOfKey u)).wait = .load x then s.advance x else if (s.xfer x).quiet then s.endXfer x else s
  | .abandoned => if (s.xfer x).quiet then s.endXfer x else s
  | _ => s.advance x

/-- All-ones poisoned data of n bytes (R118, R121). -/
def lostData (n : Nat) : Data := { v := ones (8 * n), p := ones (granules 0 n) }

/-- Write data to the local destination pieces of a transfer. -/
def State.spread (s : State) (x : Nat) (d : Data) : State :=
  let t := s.xfer x
  t.dst.foldl (fun s q =>
    if q.2.rem then s
    else s.writeMem t.unit q.2.addr q.2.len (d.v / 256 ^ q.1) (ones q.2.len) (d.p / 2 ^ (q.1 / 32))) s

end Sys2Proof.Machine
end

