-- ==== Sys2Proof/Machine/VecFn.lean ====
section
/-!
DEFINITION. Sys2Proof/Machine/VecFn.lean: the vector functions of R91, R92 and Table 2.11, the softmax helper of R93
and the counter-based draw of R135. Table entries are RNE of the real values of Table 2.10, computed in fixed point
with 256 fraction bits, whose error is far below the distance of every entry from a rounding boundary.
-/
namespace Sys2Proof.Machine

/-- Fixed-point fraction bits of the table computation. -/
def fpBits : Nat := 256
/-- One in fixed point. -/
def fpOne : Int := 2 ^ fpBits
/-- Fixed-point product. -/
def fpMul (a b : Int) : Int := a * b / fpOne
/-- Fixed-point quotient. -/
def fpDiv (a b : Int) : Int := a * fpOne / b

/-- Taylor terms of exp: n more terms, the last being t = x^k / k!. -/
def expTerms (n : Nat) (k : Int) (t x acc : Int) : Int :=
  match n with
  | 0 => acc
  | n + 1 =>
    let t' := fpMul t x / (k + 1)
    expTerms n (k + 1) t' x (acc + t')

/-- Square n times. -/
def fpSquares (n : Nat) (a : Int) : Int :=
  match n with
  | 0 => a
  | n + 1 => fpSquares n (fpMul a a)

/-- exp in fixed point: argument halved 8 times, series, then squared 8 times. -/
def fpExp (x : Int) : Int := fpSquares 8 (expTerms 50 0 fpOne (x / 256) fpOne)

/-- Terms of atanh: sum of z^(2k+1) / (2k+1). -/
def atanhTerms (n : Nat) (k : Int) (p z2 acc : Int) : Int :=
  match n with
  | 0 => acc
  | n + 1 => atanhTerms n (k + 2) (fpMul p z2) z2 (acc + p / k)

/-- ln of (1 + y) in fixed point, y in [0, 1): 2 atanh(y / (2 + y)). -/
def fpLn1p (y : Int) : Int :=
  let z := fpDiv y (2 * fpOne + y)
  2 * atanhTerms 90 1 z (fpMul z z) 0

/-- ln 2 in fixed point. -/
def fpLn2 : Int := fpLn1p fpOne

/-- Fixed point to the nearest multiple of 2^−30, ties to even (R91). -/
def fpRne30 (v : Int) : Int :=
  let r : Int := rneShift v.natAbs (fpBits - 30)
  if v < 0 then -r else r

/-- y_j = j / 256 in fixed point. -/
def fpNode (j : Nat) : Int := (j : Int) * fpOne / 256

/-- The fixed-point square root. -/
def fpSqrt (a : Int) : Int := (Nat.sqrt (a.toNat * 2 ^ fpBits) : Int)

/-- g, g′ and g″/2 of EXP2: 2^y. -/
def gExp2 (j : Nat) : Int × Int × Int :=
  let l := fpLn2
  let g := fpExp (fpMul (fpNode j) l)
  (g, fpMul g l, fpMul (fpMul g l) l / 2)

/-- g, g′ and g″/2 of LOG2: log2(1 + y). -/
def gLog2 (j : Nat) : Int × Int × Int :=
  let y := fpNode j
  let d := fpDiv fpOne (fpMul (fpOne + y) fpLn2)
  (fpDiv (fpLn1p y) fpLn2, d, -(fpDiv d (fpOne + y)) / 2)

/-- g, g′ and g″/2 of RECIP: 1 / (1 + y). -/
def gRecip (j : Nat) : Int × Int × Int :=
  let g := fpDiv fpOne (fpOne + fpNode j)
  (g, -(fpMul g g), fpMul (fpMul g g) g)

/-- g, g′ and g″/2 of RSQ0: (1 + y)^(−1/2). -/
def gRsq0 (j : Nat) : Int × Int × Int :=
  let i := fpDiv fpOne (fpOne + fpNode j)
  let g := fpSqrt i
  (g, -(fpMul g i) / 2, 3 * fpMul (fpMul g i) i / 8)

/-- g, g′ and g″/2 of RSQ1: (2 + 2y)^(−1/2). -/
def gRsq1 (j : Nat) : Int × Int × Int :=
  let i := fpDiv fpOne (fpOne + fpNode j)
  let g := fpSqrt (i / 2)
  (g, -(fpMul g i) / 2, 3 * fpMul (fpMul g i) i / 8)

/-- g, g′ and g″/2 of TANHn: tanh(2^k (1 + y)) / 2^k with k = n − 12. -/
def gTanh (n j : Nat) : Int × Int × Int :=
  let a := 2 * (fpOne + fpNode j) * 2 ^ n / 2 ^ 12
  let e := fpExp a
  let t := fpDiv (e - fpOne) (e + fpOne)
  let s := fpOne - fpMul t t
  (t * 2 ^ 12 / 2 ^ n, s, -(fpMul t s * 2 ^ n / 2 ^ 12))

/-- The function tables of Table 2.10. -/
inductive FnTable where
  | exp2 | log2 | recip | rsq0 | rsq1
  | tanh (n : Nat)
deriving DecidableEq, Repr

/-- c0[j], c1[j] and c2[j] of a table (R91). -/
def tableEntry (t : FnTable) (j : Nat) : Int × Int × Int :=
  let g := match t with
    | .exp2 => gExp2 j
    | .log2 => gLog2 j
    | .recip => gRecip j
    | .rsq0 => gRsq0 j
    | .rsq1 => gRsq1 j
    | .tanh n => gTanh n j
  (fpRne30 g.1, fpRne30 g.2.1, fpRne30 g.2.2)

/-- eval of R91: the table-driven quadratic, with floor shifts. -/
def evalTable (t : FnTable) (u : Nat) : Int :=
  let j := u / 2 ^ 24
  let r : Int := ((u % 2 ^ 24 : Nat) : Int)
  let c := tableEntry t j
  let s := c.1 + (c.2.1 * r) / 2 ^ 32
  s + ((c.2.2 * r) / 2 ^ 32 * r) / 2 ^ 32

/-- e and f of a finite nonzero magnitude m × 2^x: m × 2^x = 2^e × (1 + f / 2^23), subnormals normalised (R92). -/
def normEF (m : Nat) (x : Int) : Int × Nat :=
  let k := Nat.log2 m
  ((k : Int) + x, m * 2 ^ (23 - k) - 2 ^ 23)

/-- Result of to_float to FP32 with its CNV_OVF (R85). -/
def fnOut (v x : Int) : Nat × VFlags := roundF32 v x

/-- exp2 (R92, Table 2.11). -/
def vexp2 (a : Nat) : Nat × VFlags :=
  match d32 a with
  | .nan => f32NaN
  | .inf s => if s then (0, {}) else (infOf 8 false, ⟨true, false⟩)
  | .fin s m x =>
    let v := sgnInt s m
    let q := if x + 32 < 0 then v / 2 ^ (-(x + 32)).toNat else v * 2 ^ (x + 32).toNat
    if (128 : Int) * 2 ^ 32 ≤ q then (infOf 8 false, ⟨true, false⟩)
    else if s ∧ ((150 : Int) * 2 ^ 149 ≤ (m : Int) * 2 ^ (x + 149).toNat) then (0, {})
    else fnOut (evalTable .exp2 (unsigned 32 q)) (q / 2 ^ 32 - 30)

/-- log2 (R92, Table 2.11). -/
def vlog2 (a : Nat) : Nat × VFlags :=
  match d32 a with
  | .nan => f32NaN
  | .inf s => if s then f32NaN else (infOf 8 false, {})
  | .fin s m x =>
    if m = 0 then (infOf 8 true, {})
    else if s then f32NaN
    else
      let ef := normEF m x
      fnOut (2 ^ 30 * ef.1 + evalTable .log2 (ef.2 * 2 ^ 9)) (-30)

/-- reciprocal (R92, Table 2.11). -/
def vrecip (a : Nat) : Nat × VFlags :=
  match d32 a with
  | .nan => f32NaN
  | .inf s => (zeroOf 8 s, {})
  | .fin s m x =>
    if m = 0 then (infOf 8 s, {})
    else
      let ef := normEF m x
      let r := evalTable .recip (ef.2 * 2 ^ 9)
      fnOut (if s then -r else r) (-ef.1 - 30)

/-- rsqrt (R92, Table 2.11). -/
def vrsqrt (a : Nat) : Nat × VFlags :=
  match d32 a with
  | .nan => f32NaN
  | .inf s => if s then f32NaN else (0, {})
  | .fin s m x =>
    if m = 0 then (infOf 8 s, {})
    else if s then f32NaN
    else
      let ef := normEF m x
      if ef.1 % 2 = 0 then fnOut (evalTable .rsq0 (ef.2 * 2 ^ 9)) (-(ef.1 / 2) - 30)
      else fnOut (evalTable .rsq1 (ef.2 * 2 ^ 9)) (-((ef.1 - 1) / 2) - 30)

/-- tanh (R92, Table 2.11). -/
def vtanh (a : Nat) : Nat × VFlags :=
  match d32 a with
  | .nan => f32NaN
  | .inf s => (encodeFields 8 s 127 0, {})
  | .fin s m x =>
    if m = 0 then (a % 2 ^ 32, {})
    else
      let ef := normEF m x
      if ef.1 < -12 then (a % 2 ^ 32, {})
      else if (10 : Int) * 2 ^ 149 ≤ (m : Int) * 2 ^ (x + 149).toNat then (encodeFields 8 s 127 0, {})
      else
        let r := evalTable (.tanh (ef.1 + 12).toNat) (ef.2 * 2 ^ 9)
        fnOut (if s then -r else r) (ef.1 - 30)

/-- VFN by MOD[2:0] (Table 3.10). -/
def vfn (k a : Nat) : Nat × VFlags :=
  match k with
  | 0 => vexp2 a
  | 1 => vlog2 a
  | 2 => vrecip a
  | 3 => vrsqrt a
  | _ => vtanh a

/-- The softmax helper (R93), with the flags of its component operations (R571). -/
def softmaxHelper (x m : Nat) : Nat × VFlags :=
  if x % 2 ^ 32 = 0xFF800000 then (0, {})
  else
    let d := f32Sub x m
    let p := f32Mul d.1 0x3FB8AA3B
    let e := vexp2 p.1
    (e.1, (d.2.or p.2).or e.2)

/-- One round of the draw of R135 on (c0, c1, c2, c3, k0, k1). -/
def drawRound (c0 c1 c2 c3 k0 k1 : Nat) : Nat × Nat × Nat × Nat × Nat × Nat :=
  let p0 := 0xD2511F53 * c0
  let p1 := 0xCD9E8D57 * c2
  let n0 := ((p1 / 2 ^ 32) ^^^ c1) ^^^ k0
  let n2 := ((p0 / 2 ^ 32) ^^^ c3) ^^^ k1
  (n0, p1 % 2 ^ 32, n2, p0 % 2 ^ 32, (0x9E3779B9 + k0) % 2 ^ 32, (0xBB67AE85 + k1) % 2 ^ 32)

/-- n rounds. -/
def drawRounds (n c0 c1 c2 c3 k0 k1 : Nat) : Nat × Nat :=
  match n with
  | 0 => (c0, c1)
  | n + 1 =>
    match drawRound c0 c1 c2 c3 k0 k1 with
    | (a0, a1, a2, a3, b0, b1) => drawRounds n a0 a1 a2 a3 b0 b1

/-- draw of R135. -/
def draw (seed ctr stream : Nat) : Nat :=
  let r := drawRounds 10 (ctr % 2 ^ 32) (ctr / 2 ^ 32 % 2 ^ 32) (stream % 2 ^ 20) 0 (seed % 2 ^ 32) (seed / 2 ^ 32 % 2 ^ 32)
  2 ^ 32 * r.2 + r.1

end Sys2Proof.Machine
end

