-- ==== Sys2Proof/Machine/ZmiOps.lean ====
section
/-!
DEFINITION. Sys2Proof/Machine/ZmiOps.lean: what every Zarop mallet instruction shares: the word, reserved encodings, issue, fetch
checks, precise faults, masks and addresses (03_zmi_instruction_set.md, R98 to R115 and R142 to R145).
-/
namespace Sys2Proof

-- ===== The word (Table 3.4) =====

/-- The instruction word of an opcode and its fields. -/
def Fields.word (f : Fields) (op : Nat) : Nat :=
  2 ^ 56 * op + 2 ^ 52 * f.fmt.toNat + 2 ^ 48 * f.mod.toNat + 2 ^ 47 * f.men.toNat + 2 ^ 44 * f.msel.toNat + 2 ^ 40 * f.aux.toNat +
  2 ^ 35 * f.rd.toNat + 2 ^ 30 * f.ra.toNat + 2 ^ 25 * f.rb.toNat + 2 ^ 20 * f.rc.toNat + f.imm.toNat

/-- The fields of a word. -/
def fieldsOf (w : Nat) : Fields :=
  { fmt := BitVec.ofNat 4 (w / 2 ^ 52), mod := BitVec.ofNat 4 (w / 2 ^ 48), men := BitVec.ofNat 1 (w / 2 ^ 47),
    msel := BitVec.ofNat 3 (w / 2 ^ 44), aux := BitVec.ofNat 4 (w / 2 ^ 40), rd := BitVec.ofNat 5 (w / 2 ^ 35),
    ra := BitVec.ofNat 5 (w / 2 ^ 30), rb := BitVec.ofNat 5 (w / 2 ^ 25), rc := BitVec.ofNat 5 (w / 2 ^ 20),
    imm := BitVec.ofNat 20 w }

def Fields.fmtN (f : Fields) : Nat := f.fmt.toNat
def Fields.modN (f : Fields) : Nat := f.mod.toNat
def Fields.auxN (f : Fields) : Nat := f.aux.toNat
def Fields.D (f : Fields) : Nat := f.rd.toNat
def Fields.A (f : Fields) : Nat := f.ra.toNat
def Fields.B (f : Fields) : Nat := f.rb.toNat
def Fields.C (f : Fields) : Nat := f.rc.toNat
def Fields.immN (f : Fields) : Nat := f.imm.toNat
/-- sext(IMM). -/
def Fields.simm (f : Fields) : Int := f.imm.toInt
/-- Bit i of MOD. -/
def Fields.modBit (f : Fields) (i : Nat) : Bool := f.mod.toNat.testBit i

/-- The fields an instruction does not use are zero (R106, R107). -/
def Fields.zeroBut (f : Fields) (fmt mod mask aux rd ra rb rc imm : Bool) : Bool :=
  (fmt || decide (f.fmt = 0)) && (mod || decide (f.mod = 0)) && (mask || decide (f.men = 0)) &&
  (decide (f.men = 1) || decide (f.msel = 0)) && (aux || decide (f.aux = 0)) && (rd || decide (f.rd = 0)) &&
  (ra || decide (f.ra = 0)) && (rb || decide (f.rb = 0)) && (rc || decide (f.rc = 0)) && (imm || decide (f.imm = 0))

/-- Scalar, address and accumulator or mask register numbers in range (R107). -/
def Fields.d16 (f : Fields) : Bool := decide (f.rd.toNat < 16)
def Fields.a16 (f : Fields) : Bool := decide (f.ra.toNat < 16)
def Fields.b16 (f : Fields) : Bool := decide (f.rb.toNat < 16)
def Fields.c16 (f : Fields) : Bool := decide (f.rc.toNat < 16)
def Fields.d8 (f : Fields) : Bool := decide (f.rd.toNat < 8)
def Fields.a8 (f : Fields) : Bool := decide (f.ra.toNat < 8)
def Fields.b8 (f : Fields) : Bool := decide (f.rb.toNat < 8)

end Sys2Proof

namespace Sys2Proof.Machine

open Sys2Proof (CtxId Fields)

-- ===== Issue (R98, R101, R148 to R150) =====

/-- Contexts enabled by a rotation code. -/
def rotCount (rot : Nat) : Nat := 2 ^ rot

/-- The rotation in force on a drum. -/
def Drum.rot (d : Drum) : Nat := bits d.cfg.toNat 19 18

/-- The program area in force: offset in the skin and size in bytes (Table 4.1). -/
def Drum.progBase (d : Drum) : Nat := bits d.cfg.toNat 47 32 * 256
def Drum.progSize (d : Drum) : Nat := bits d.cfg.toNat 31 20 * 256

/-- The partition whose step runs on a context's kit. -/
def State.partOf (s : State) (u : CtxId) : Nat := (s.partOfKit u.kit).getD 0

/-- A wait that leaves the instruction to be issued again whole. -/
def Wait.reissues : Wait → Bool
  | .load _ => false
  | .gong _ _ _ => false
  | .arrive _ _ => false
  | _ => true

/-- The context can issue an instruction: its partition's step is RUNNING, its drum runs it, and the context is enabled, neither
stopped nor halted, and not waiting for a load or a sounding (R148, R150, R104). -/
def State.issuing (s : State) (u : CtxId) : Bool :=
  let c := s.ctx u
  let d := s.drum u.kit u.drum
  s.kitLive u.kit && !s.halted && (s.partOfKit u.kit).isSome && decide (s.stepState (s.partOf u) = stRunning) && !(s.part (s.partOf u)).pre.boundary && d.inStep && !d.idleStep &&
  decide (u.mallet < 256) && decide (u.ctx < rotCount d.rot) && !c.stopped && !c.halted && c.wait.reissues

/-- The context status word (Table 3.3). -/
def State.csw (s : State) (u : CtxId) : Nat :=
  let c := s.ctx u
  2 ^ 56 * c.fault + bitField 16 (fun n => decide (c.AF n = 0)) * 2 ^ 40 + (s.drum u.kit u.drum).rot * 2 ^ 30 + 2 ^ 27 * u.ctx +
  b2n c.stopped * 2 ^ 26 + b2n c.accOvf * 8 + b2n c.accInv * 4 + b2n c.cnvOvf * 2 + b2n c.vecInv

/-- The instruction completes: PC advances and no wait remains. -/
def State.done (s : State) (u : CtxId) : State := s.setCtx u (fun c => { c with pc := c.pc + 8, wait := .none })

/-- The instruction waits: PC stays (R104). -/
def State.waits (s : State) (u : CtxId) (w : Wait) : State := s.setCtx u (fun c => { c with wait := w })

/-- The MALLET_FAULT record of a context (R145, R491). [log 21: DESIGN CHOICE] -/
def State.faultRecord (s : State) (u : CtxId) (code pc word : Nat) (extra : List Nat) : State :=
  let p := s.partOfKit u.kit
  s.pushEv (srcKit u.kit)
    { cat := 1, code := code, part := p, ctx := u.ctx, unit := some (unitMallet u.kit u.drum u.mallet),
      step := match p with | some p => (s.rg .PAR_STEP_SEQ p 0).toNat | none => 0, items := [pc, word] ++ extra }

/-- A precise fault (R144): FAULT and STOPPED are set, PC stays, and one record is sent. -/
def State.faults (s : State) (u : CtxId) (word : Nat) (q : Nat × Nat) : State :=
  let c := s.ctx u
  let extra := if (4 ≤ q.1 ∧ q.1 ≤ 10) ∨ q.1 = 14 then [q.2] else []
  (s.setCtx u (fun c => { c with fault := q.1, stopped := true, wait := .none })).faultRecord u q.1 c.pc.toNat word extra

/-- The lowest code of the conditions that hold (R144). -/
def lowest : List (Option (Nat × Nat)) → Option (Nat × Nat)
  | [] => none
  | none :: r => lowest r
  | some a :: r => match lowest r with
    | none => some a
    | some b => if b.1 < a.1 then some b else some a

/-- A fault condition. -/
def when (b : Bool) (code : Nat) (item : Nat := 0) : Option (Nat × Nat) := if b then some (code, item) else none

/-- The fetch lies outside the program area, or at a PC that is not a multiple of 8 (R102). [log 21: DESIGN CHOICE] -/
def State.fetchBad (s : State) (u : CtxId) : Bool :=
  let pc := (s.ctx u).pc.toNat
  decide (pc % 8 ≠ 0) || decide ((s.drum u.kit u.drum).progSize < pc + 8)

/-- The address of the instruction at PC: in the skin of the context's drum. -/
def State.fetchAddr (s : State) (u : CtxId) : Nat :=
  slotAddr u.kit u.drum ((s.drum u.kit u.drum).progBase + (s.ctx u).pc.toNat)

/-- Fetch the instruction word at PC through the mallet's instruction buffer of eight 256 B lines (R102); answers whether it is poisoned. A
miss reads the line from the skin, and the oldest line makes room. [log 138: DESIGN CHOICE] -/
def State.fetch (s : State) (u : CtxId) : State × Bool :=
  let a := s.fetchAddr u
  let b := mget [] (s.drum u.kit u.drum).ibuf u.mallet
  match b.find? (fun q => decide (q.1 = a / 256)) with
  | some q => (s, q.2.testBit (a % 256 / 32))
  | none =>
    let r := s.readMem (unitMallet u.kit u.drum u.mallet) (a / 256 * 256) 256
    (r.1.setDrum u.kit u.drum (fun d => { d with ibuf := mput [] d.ibuf u.mallet ((if b.length < 8 then b else b.tail) ++ [(a / 256, r.2.p)]) }),
     r.2.p.testBit (a % 256 / 32))

/-- Issue one instruction: fetch checks, encoding, then its own conditions; the lowest code is recorded, or the effect happens. -/
def State.run (s : State) (u : CtxId) (f : Fields) (op : Nat) (legal : Bool) (conds : State → List (Option (Nat × Nat)))
    (effect : State → State) : State :=
  if s.issuing u = false then s
  else if s.fetchBad u = true then s.faults u (Fields.word f op) (1, 0)
  else
    let r := s.fetch u
    if legal = false then r.1.faults u (Fields.word f op) (2, 0)
    else if r.2 = true then r.1.faults u (Fields.word f op) (3, 0)
    else match lowest (conds r.1) with
      | some q => r.1.faults u (Fields.word f op) q
      | none => effect r.1

/-- An instruction whose effect always completes. -/
def State.run1 (s : State) (u : CtxId) (f : Fields) (op : Nat) (legal : Bool) (conds : State → List (Option (Nat × Nat)))
    (effect : State → State) : State :=
  s.run u f op legal conds (fun s => (effect s).done u)

-- ===== Registers =====

def State.S (s : State) (u : CtxId) (n : Nat) : SReg := (s.ctx u).S n
def State.X (s : State) (u : CtxId) (n : Nat) : XReg := (s.ctx u).X n
def State.putS (s : State) (u : CtxId) (n : Nat) (v : BitVec 64) (p : Bool) : State :=
  s.setCtx u (fun c => c.setS n { v := v, p := p })
def State.putX (s : State) (u : CtxId) (n : Nat) (x : XReg) : State := s.setCtx u (fun c => c.setX n x)

/-- S[n] as a number. -/
def State.sv (s : State) (u : CtxId) (n : Nat) : Nat := (s.S u n).v.toNat
/-- The mark of S[n]. -/
def State.sp (s : State) (u : CtxId) (n : Nat) : Bool := (s.S u n).p

/-- Replace tile data, keeping the scale word and pending state: halves written take the marks given (R99). -/
def State.putTile (s : State) (u : CtxId) (n : Nat) (data : Nat) (pLo pHi : Bool) : State :=
  s.setTile u n { s.tile u n with data := BitVec.ofNat 512 data, pLo := pLo, pHi := pHi }

/-- Sticky CSW flags set by a result (R101). -/
def State.setFlags (s : State) (u : CtxId) (accOvf accInv cnv vec : Bool) : State :=
  s.setCtx u (fun c => { c with accOvf := c.accOvf || accOvf, accInv := c.accInv || accInv, cnvOvf := c.cnvOvf || cnv,
                                vecInv := c.vecInv || vec })

-- ===== Masks (R109 to R111) =====

/-- Column j of the context is bound to a cancelled slot. -/
def State.colCancelled (s : State) (u : CtxId) (j : Nat) : Bool :=
  match (s.ctx u).slotOf j with
  | some slot => nmem (s.drum u.kit u.drum).cancel slot
  | none => false

/-- Mask register value of an instruction: M[MSEL], or all ones. -/
def State.baseMask (s : State) (u : CtxId) (f : Fields) : Nat :=
  if f.men = 1 then ((s.ctx u).M f.msel.toNat).toNat else ones 64

/-- The effective mask E when bit n lies in column col n. -/
def State.maskBy (s : State) (u : CtxId) (f : Fields) (col : Nat → Nat) : Nat :=
  let e := s.baseMask u f
  bitField 64 (fun n => e.testBit n && !s.colCancelled u (col n))

/-- E for elements and word-masked stores: bit n in column n mod 4. -/
def State.maskE (s : State) (u : CtxId) (f : Fields) : Nat := s.maskBy u f (fun n => n % 4)

/-- E for byte-masked stores: bit n in column (n div 4) mod 4. -/
def State.maskBytes (s : State) (u : CtxId) (f : Fields) : Nat := s.maskBy u f (fun n => n / 4 % 4)

/-- Byte enables of a 64 B word-masked store: bit n of E enables bytes 4n to 4n + 3. -/
def wordToBytes (e : Nat) : Nat := bitField 64 (fun i => e.testBit (i / 4))

-- ===== Addresses (R114) =====

/-- The signed span offset of a memory instruction. -/
def State.memOff (s : State) (u : CtxId) (f : Fields) : Int :=
  ((s.X u f.A).off.toNat : Int) + f.simm + (if f.modBit 3 then (s.S u f.B).v.toInt else 0)

/-- The span of X[n]. -/
def State.xSpan (s : State) (u : CtxId) (n : Nat) : Nat := (s.X u n).span.toNat

/-- The offset of X[n]. -/
def State.xOff (s : State) (u : CtxId) (n : Nat) : Nat := (s.X u n).off.toNat

/-- X[ra], or S[rb] under MOD[3], is poisoned (R143). -/
def State.addrPoison (s : State) (u : CtxId) (f : Fields) : Bool :=
  (s.X u f.A).p || (f.modBit 3 && s.sp u f.B)

/-- The actor of a context. -/
def State.actor (s : State) (u : CtxId) : Actor := malletActor (s.partOf u) u

/-- The fault conditions of a memory instruction of a size and alignment that needs rights (R116). [log 26: DEDUCED] -/
def State.memConds (s : State) (u : CtxId) (f : Fields) (size align need : Nat) : List (Option (Nat × Nat)) :=
  [when (s.addrPoison u f) 3, s.accessFault (s.actor u) (s.xSpan u f.A) (s.memOff u f) size align need]

/-- The pieces of a memory instruction's access. -/
def State.memPieces (s : State) (u : CtxId) (f : Fields) (size : Nat) : List (Nat × Piece) :=
  s.spanPieces (s.actor u) (s.xSpan u f.A) (s.memOff u f).toNat size

-- ===== Loads and stores of a context =====

/-- Registers RB and the immediate are used as R114 says. -/
def Fields.addrLegal (f : Fields) : Bool := f.a16 && (if f.modBit 3 then f.b16 else decide (f.rb = 0))

/-- What a store to local pieces presents to HBM: its lines that do not pass through the merge buffer (R435, R436). -/
def State.storeRanges (s : State) (u : CtxId) (ps : List (Nat × Piece)) (en : Nat) : List (Nat × Nat) :=
  (ps.filter (fun q => !q.2.rem && decide (q.2.addr < hbmEnd))).flatMap (fun q => s.directLines u.kit u.drum q.2.addr q.2.len (en / 2 ^ q.1))

/-- A context has the credit for an HBM access to ranges of local memory (R412). -/
def State.ctxCredit (s : State) (u : CtxId) (wr : Bool) (l : List (Nat × Nat)) : Bool := s.hbmFits (ctxStream u) (s.partOf u) wr l

/-- A context's HBM access is presented. -/
def State.ctxCharge (s : State) (u : CtxId) (wr : Bool) (l : List (Nat × Nat)) : State := s.presentHbm (ctxStream u) 0 (s.partOf u) wr l

/-- Wait for the next window: a request is deferred (R412). -/
def State.deferCtx (s : State) (u : CtxId) (wr : Bool) : State :=
  (if (s.ctx u).wait = .credit then s else s.regDefer (s.partOf u) (b2n wr)).waits u .credit

/-- Read local pieces now for a context. -/
def State.readPieces (s : State) (u : CtxId) (ps : List (Nat × Piece)) : State × Data :=
  ps.foldl (fun (q : State × Data) pc =>
    let r := q.1.readDrum u.kit u.drum (unitMallet u.kit u.drum u.mallet) pc.2.addr pc.2.len
    (r.1, { v := q.2.v + r.2.v * 256 ^ pc.1, p := q.2.p ||| (r.2.p * 2 ^ (pc.1 / 32)) })) (s, {})

/-- The piece that a remote load of a few bytes requests: the enclosing aligned 8 B word (Table 11.5). -/
def widen (q : Nat × Piece) : Nat × Piece :=
  if q.2.rem ∧ q.2.len < 8 then (q.1, { q.2 with addr := q.2.addr / 8 * 8, len := 8 }) else q

/-- What an instruction with a mask reads of the shared registers in its first turn (R105): E, T[t] and A[a]. -/
def State.firstTurn (s : State) (u : CtxId) (f : Fields) (t a : Nat) : FirstTurn :=
  { mask := s.maskE u f, tile := s.tile u t, acc := s.acc u a }

/-- Load a context's access: local memory answers at once and fin completes the instruction with the data; remote and flash
pieces make it wait for its transfer (R104, R117). -/
def State.load (s : State) (u : CtxId) (word span : Nat) (ps : List (Nat × Piece)) (len : Nat)
    (fin : State → Data → State) (first : FirstTurn := {}) : State :=
  if localNow ps then
    if s.ctxCredit u false (localOf ps) then
      let s := s.ctxCharge u false (localOf ps)
      let r := s.readPieces u ps
      fin r.1 r.2
    else s.deferCtx u false
  else
    let shift := match ps with
      | [(_, pc)] => if pc.rem ∧ pc.len < 8 then pc.addr % 8 else 0
      | _ => 0
    let ps := ps.map widen
    let r := s.newXfer { kind := .load (ctxKey u) word, part := s.partOf u, unit := unitMallet u.kit u.drum u.mallet,
                         src := ps, len := max len 8, span := span, off := shift, stream := ctxStream u,
                         first := first }
    ((r.1.launch r.2 (some (u.kit, u.drum))).waits u (.load r.2))

/-- The merge-buffer lines of [a, a + n) of the drum are flushed first (R436). -/
def State.flushLines (s : State) (u : CtxId) (a n : Nat) : State :=
  s.flushMerge u.kit u.drum (fun e => decide (a / 64 ≤ e.line) && decide (e.line < (a + n + 63) / 64))

/-- What the drum's merge buffer holds of local pieces is flushed before an asynchronous transfer reads or writes them, so that the transfer
takes effect after the context's earlier stores (R117). [log 139: DESIGN CHOICE] -/
def State.flushPieces (s : State) (u : CtxId) (ps : List (Nat × Piece)) : State :=
  ps.foldl (fun s q => if q.2.rem then s else s.flushLines u q.2.addr q.2.len) s

/-- Target n has m free tags (R366). -/
def State.tagsFree (s : State) (n m : Nat) : Bool := decide ((s.fab.tags.filter (fun t => decide (t.1 / 2048 = n))).length + m ≤ 2048)

/-- A store to remote pieces can be sent now. -/
def State.canStore (s : State) (part : Nat) (ps : List (Nat × Piece)) : Bool :=
  let n := (remoteOf ps).length
  ps.all (fun q => !q.2.rem || (s.canIssue part q.2.addr q.2.len && s.tagsFree (nodeOf q.2.addr) n))

/-- One posted request of a context, counted until its answer (R137). -/
def State.post (s : State) (u : CtxId) (span answers : Nat) (q : Pkt) : State :=
  let p := s.partOf u
  let s := s.setCtx u (fun c => { c with posted := c.posted + 1 })
  s.issue p (some (s.spanOwner p span)) (.posted (ctxKey u)) (some u) answers q

/-- Send one remote piece of a store as STORE, or as STOREM where bytes are left out (Table 11.5). -/
def State.postPiece (s : State) (u : CtxId) (span : Nat) (pc : Piece) (v en p : Nat) : State :=
  if pc.len < 8 then
    let o := pc.addr % 8
    s.post u span 1 { op := opStorem, size := 1, addr := pc.addr - o, mask := en % 2 ^ pc.len * 2 ^ o,
                      payload := v % 256 ^ pc.len * 256 ^ o, poison := p % 2 }
  else if en % 2 ^ pc.len = ones pc.len then
    s.post u span 1 { op := opStore, size := sizeCode pc.len, addr := pc.addr, payload := v % 256 ^ pc.len,
                      poison := p % 2 ^ granules pc.addr pc.len }
  else
    s.post u span 1 { op := opStorem, size := sizeCode pc.len, addr := pc.addr, mask := en % 2 ^ pc.len,
                      payload := v % 256 ^ pc.len, poison := p % 2 ^ granules pc.addr pc.len }

/-- Cut the remote pieces of a list into packets. -/
def cutPieces : Nat → List (Nat × Piece) → List (Nat × Piece)
  | 0, _ => []
  | _, [] => []
  | fuel + 1, (o, pc) :: r =>
    if !pc.rem || decide (pc.len < 8) then (o, pc) :: cutPieces fuel r
    else
      let l := cutLen pc.addr pc.len
      if pc.len ≤ l then (o, pc) :: cutPieces fuel r
      else (o, { pc with len := l }) :: cutPieces fuel ((o + l, { pc with addr := pc.addr + l, len := pc.len - l }) :: r)

/-- A drum's remote write is journaled, unless its release waits for the partner's hash (R456, R474). -/
def State.journalRemote (s : State) (u : CtxId) (addr n : Nat) : State :=
  if s.compares (s.partOf u) then s else s.journal (s.partOf u) (unitDrum u.kit u.drum) true addr n

/-- Write the pieces of a store: local ones at once, remote ones posted, and each journaled (R456). en enables bytes and p poisons
granules of the access. -/
def State.storePieces (s : State) (u : CtxId) (span : Nat) (ps : List (Nat × Piece)) (v en p : Nat) : State :=
  ps.foldl (fun s q =>
    let v := v / 256 ^ q.1
    let en := en / 2 ^ q.1
    let p := p / 2 ^ (q.1 / 32)
    if en % 2 ^ q.2.len = 0 then s
    else if q.2.rem then (s.postPiece u span q.2 v en p).journalRemote u q.2.addr q.2.len
    else (s.writeDrum u.kit u.drum (s.partOf u) (unitMallet u.kit u.drum u.mallet) q.2.addr q.2.len v en p).journalDrum
           (s.partOf u) u.kit u.drum q.2.addr q.2.len) s

/-- Store a context's access and complete the instruction, when its tags and credit are there; else it waits. -/
def State.store (s : State) (u : CtxId) (span : Nat) (ps : List (Nat × Piece)) (v en p : Nat) (fin : State → State) : State :=
  let qs := cutPieces 8 ps
  let p' := s.partOf u
  let held := qs.any (fun q => q.2.rem) && s.compares p' && !s.holdFits p' 512
  if !s.canStore p' qs || held then s.waits u .tag
  else if s.ctxCredit u true (s.storeRanges u ps en) then
    fin ((s.ctxCharge u true (s.storeRanges u ps en)).storePieces u span qs v en p)
  else s.deferCtx u true

-- ===== Slots (R132, R238) =====

/-- Slot n lies in partition p's range (R238). -/
def State.ownsSlot (s : State) (p n : Nat) : Bool :=
  decide (s.f F.SRV_PART_SERVE_SLOT_BASE p 0 ≤ n) &&
  decide (n < s.f F.SRV_PART_SERVE_SLOT_BASE p 0 + s.f F.SRV_PART_SERVE_SLOT_COUNT p 0)

/-- The partition whose slot range covers slot n. -/
def State.slotPart (s : State) (n : Nat) : Option Nat := (List.range 8).find? (fun p => s.ownsSlot p n)

/-- The three outcomes of a command, as every meaning here answers. -/
abbrev Answer := Host.Outcome State Fault Refusal

end Sys2Proof.Machine
end

