-- ==== Sys2Proof/Machine/Control.lean ====
section
/-!
DEFINITION. Sys2Proof/Machine/Control.lean: the control and scalar instructions of Table 3.6 (R112, R113).
-/
namespace Sys2Proof.Machine

open Sys2Proof (CtxId Fields)

/-- NOP. -/
def execNop (u : CtxId) (f : Fields) (s : State) : Answer :=
  .next (s.run1 u f 0x00 (f.zeroBut false false false false false false false false false) (fun _ => []) id)

/-- PC ← PC + 8 × sext(IMM); the target is checked at its fetch (R102). -/
def State.branch (s : State) (u : CtxId) (f : Fields) : State :=
  s.setCtx u (fun c => { c with pc := c.pc + BitVec.ofInt 32 (8 * f.simm), wait := .none })

/-- BR. -/
def execBr (u : CtxId) (f : Fields) (s : State) : Answer :=
  .next (s.run u f 0x01 (f.zeroBut false false false false false false false false true) (fun _ => []) (fun s => s.branch u f))

/-- The condition of BRC. -/
def brcHolds (m : Nat) (v : BitVec 64) : Bool :=
  match m with
  | 0 => decide (v = 0)
  | 1 => decide (v ≠ 0)
  | 2 => v.msb
  | _ => !v.msb

/-- BRC. -/
def execBrc (u : CtxId) (f : Fields) (s : State) : Answer :=
  .next (s.run u f 0x02 (f.zeroBut false true false false false true false false true && f.a16 && decide (f.modN < 4))
    (fun s => [when (s.sp u f.A) 3])
    (fun s => if brcHolds f.modN (s.S u f.A).v then s.branch u f else s.done u))

/-- LOOP. -/
def execLoop (u : CtxId) (f : Fields) (s : State) : Answer :=
  .next (s.run u f 0x03 (f.zeroBut false false false false false true false false true && f.a16)
    (fun s => [when (s.sp u f.A) 3])
    (fun s =>
      let v := (s.S u f.A).v - 1
      let s := s.putS u f.A v false
      if v ≠ 0 then s.branch u f else s.done u))

/-- An open segment of a context closes: it awaits its comparison (R474). -/
def State.closeSegment (s : State) (u : CtxId) : State :=
  let k := ctxKey u
  let p := s.partOf u
  let n := mget 0 s.pair.segCount k
  let h := mget {} s.pair.segs k
  if s.compares p && decide (h ≠ {}) then
    { s with pair := { s.pair with
        segs := mdel s.pair.segs k, segCount := mput 0 s.pair.segCount k (n + 1),
        waiting := s.pair.waiting ++ [{ h with closed := true }],
        sent := s.pair.sent ++ [{ kind := 3, part := p, num := h.num, key := h.key, step := h.step, hash := h.hash }],
        stepHash := mupd 0 s.pair.stepHash p (fun x => (x + h.hash) % 2 ^ 64) } }
  else s

/-- STOP: the context's part of the step is done; PC moves on to the next instruction. [log 140: DESIGN CHOICE] -/
def execStop (u : CtxId) (f : Fields) (s : State) : Answer :=
  .next (s.run1 u f 0x04 (f.zeroBut false false false false false false false false false) (fun _ => [])
    (fun s => (s.closeSegment u).setCtx u (fun c => { c with stopped := true })))

/-- CSWRD. -/
def execCswrd (u : CtxId) (f : Fields) (s : State) : Answer :=
  .next (s.run1 u f 0x05 (f.zeroBut false false false false true false false false false && f.d16) (fun _ => [])
    (fun s => s.putS u f.D (BitVec.ofNat 64 (s.csw u)) false))

/-- CSWCLR. -/
def execCswclr (u : CtxId) (f : Fields) (s : State) : Answer :=
  .next (s.run1 u f 0x06 (f.zeroBut false false false false false false false false true && decide (f.immN < 16)) (fun _ => [])
    (fun s => s.setCtx u (fun c =>
      { c with accOvf := c.accOvf && !f.imm.getLsbD 3, accInv := c.accInv && !f.imm.getLsbD 2,
               cnvOvf := c.cnvOvf && !f.imm.getLsbD 1, vecInv := c.vecInv && !f.imm.getLsbD 0 })))

/-- SBIND (R110). [log 24: DEDUCED] -/
def execSbind (u : CtxId) (f : Fields) (s : State) : Answer :=
  .next (s.run1 u f 0x07 (f.zeroBut false false false false false true false false true && f.a16 && decide (f.immN < 4))
    (fun s =>
      let v := s.sv u f.A
      let binds := !v.testBit 63
      [when (s.sp u f.A) 3, when (binds && decide (v / 2 ^ 14 ≠ 0)) 8 v,
       when (binds && !s.ownsSlot (s.partOf u) (v % 2 ^ 14)) 9 v])
    (fun s =>
      let v := s.sv u f.A
      s.setCtx u (fun c => { c with bind := mput 0 c.bind f.immN (if v.testBit 63 then 0 else v % 2 ^ 14 + 1) })))

/-- The second operand of opcodes 0x10 to 0x1B (R112). -/
def State.opB (s : State) (u : CtxId) (f : Fields) : SReg :=
  if f.modBit 0 then { v := BitVec.ofInt 64 f.simm, p := false } else s.S u f.B

/-- The encoding of opcodes 0x10 to 0x1B: n conditions in MOD[3:1]. -/
def Fields.scalarLegal (f : Fields) (n : Nat) : Bool :=
  f.zeroBut false true false false true true (!f.modBit 0) false (f.modBit 0) && f.d16 && f.a16 && f.b16 && decide (f.modN / 2 < n)

/-- A scalar instruction S[rd] ← g a b (R99, R112). -/
def State.scalar (s : State) (u : CtxId) (f : Fields) (op n : Nat) (g : BitVec 64 → BitVec 64 → BitVec 64) : State :=
  s.run1 u f op (Fields.scalarLegal f n) (fun _ => [])
    (fun s => s.putS u f.D (g (s.S u f.A).v (s.opB u f).v) (s.sp u f.A || (s.opB u f).p))

/-- SADD. -/
def execSadd (u : CtxId) (f : Fields) (s : State) : Answer := .next (s.scalar u f 0x10 1 (· + ·))
/-- SSUB. -/
def execSsub (u : CtxId) (f : Fields) (s : State) : Answer := .next (s.scalar u f 0x11 1 (· - ·))
/-- SMUL. -/
def execSmul (u : CtxId) (f : Fields) (s : State) : Answer := .next (s.scalar u f 0x12 1 (· * ·))
/-- SAND. -/
def execSand (u : CtxId) (f : Fields) (s : State) : Answer := .next (s.scalar u f 0x13 1 (· &&& ·))
/-- SOR. -/
def execSor (u : CtxId) (f : Fields) (s : State) : Answer := .next (s.scalar u f 0x14 1 (· ||| ·))
/-- SXOR. -/
def execSxor (u : CtxId) (f : Fields) (s : State) : Answer := .next (s.scalar u f 0x15 1 (· ^^^ ·))
/-- SSHL. -/
def execSshl (u : CtxId) (f : Fields) (s : State) : Answer :=
  .next (s.scalar u f 0x16 1 (fun a b => a <<< (b.toNat % 64)))
/-- SSHR. -/
def execSshr (u : CtxId) (f : Fields) (s : State) : Answer :=
  .next (s.scalar u f 0x17 1 (fun a b => a >>> (b.toNat % 64)))
/-- SSAR. -/
def execSsar (u : CtxId) (f : Fields) (s : State) : Answer :=
  .next (s.scalar u f 0x18 1 (fun a b => a.sshiftRight (b.toNat % 64)))
/-- SMIN. -/
def execSmin (u : CtxId) (f : Fields) (s : State) : Answer := .next (s.scalar u f 0x19 1 (fun a b => if a.slt b then a else b))
/-- SMAX. -/
def execSmax (u : CtxId) (f : Fields) (s : State) : Answer := .next (s.scalar u f 0x1A 1 (fun a b => if a.slt b then b else a))

/-- The condition of SCMP. -/
def scmpHolds (m : Nat) (a b : BitVec 64) : Bool :=
  match m with
  | 0 => decide (a = b)
  | 1 => decide (a ≠ b)
  | 2 => a.slt b
  | 3 => !a.slt b
  | 4 => a.ult b
  | _ => !a.ult b

/-- SCMP. -/
def execScmp (u : CtxId) (f : Fields) (s : State) : Answer :=
  .next (s.scalar u f 0x1B 6 (fun a b => if scmpHolds (f.modN / 2) a b then 1 else 0))

/-- The value SMOVI writes (Table 3.6). -/
def smoviVal (f : Fields) (old : BitVec 64) : BitVec 64 :=
  match f.modN with
  | 0 => BitVec.ofInt 64 f.simm
  | 1 => BitVec.ofNat 64 (setBits old.toNat 20 20 f.immN)
  | 2 => BitVec.ofNat 64 (setBits old.toNat 40 20 f.immN)
  | _ => BitVec.ofNat 64 (setBits old.toNat 60 4 f.immN)

/-- SMOVI: MOD 1 to 3 keep the register's mark (R99). -/
def execSmovi (u : CtxId) (f : Fields) (s : State) : Answer :=
  .next (s.run1 u f 0x1C (f.zeroBut false true false false true false false false true && f.d16 && decide (f.modN < 4) &&
      (decide (f.modN < 3) || decide (f.immN < 16))) (fun _ => [])
    (fun s => s.putS u f.D (smoviVal f (s.S u f.D).v) (decide (f.modN ≠ 0) && s.sp u f.D)))

/-- XSET. -/
def execXset (u : CtxId) (f : Fields) (s : State) : Answer :=
  .next (s.run1 u f 0x1D (f.zeroBut false false false false true true false false true && f.d16 && f.a16 && decide (f.immN < 64))
    (fun s => [when (decide (s.sv u f.A / 2 ^ 40 ≠ 0)) 8 (s.sv u f.A)])
    (fun s => s.putX u f.D { span := BitVec.ofNat 6 f.immN, off := BitVec.ofNat 40 (s.sv u f.A), p := s.sp u f.A }))

/-- XADD. -/
def execXadd (u : CtxId) (f : Fields) (s : State) : Answer :=
  .next (s.run1 u f 0x1E (f.zeroBut false false false false true true true false true && f.d16 && f.a16 && f.b16) (fun _ => [])
    (fun s =>
      let x := s.X u f.A
      s.putX u f.D { span := x.span, off := BitVec.ofInt 40 ((x.off.toNat : Int) + (s.sv u f.B : Int) + f.simm),
                     p := x.p || s.sp u f.B }))

/-- An address register as 64 bits (Table 3.2). -/
def XReg.bits (x : XReg) : BitVec 64 := BitVec.ofNat 64 (2 ^ 40 * x.span.toNat + x.off.toNat)

/-- XMOV: MOD 0 reads X[ra] into S[rd], MOD 1 writes X[rd] from S[ra]. -/
def execXmov (u : CtxId) (f : Fields) (s : State) : Answer :=
  .next (s.run1 u f 0x1F (f.zeroBut false true false false true true false false false && f.d16 && f.a16 && decide (f.modN < 2))
    (fun s => [when (decide (f.modN = 1) && decide (s.sv u f.A / 2 ^ 46 ≠ 0)) 8 (s.sv u f.A)])
    (fun s =>
      if f.modN = 0 then s.putS u f.D (s.X u f.A).bits (s.X u f.A).p
      else s.putX u f.D { span := BitVec.ofNat 6 (s.sv u f.A / 2 ^ 40), off := BitVec.ofNat 40 (s.sv u f.A), p := s.sp u f.A }))

end Sys2Proof.Machine
end

