-- ==== Sys2Proof/Machine/GongOps.lean ====
section
/-!
DEFINITION. Sys2Proof/Machine/GongOps.lean: gong lines: counting an arrival, sounding a line, and the messages of fabric-scope
lines (04_execution_and_timing.md, R165 and R166; 11_fefen_fabric.md, R371 to R374).
-/
namespace Sys2Proof.Machine

open Sys2Proof (CtxId)

/-- Line l of partition p as latched at the step start (R165). -/
def State.gongCfg (s : State) (p l : Nat) : BitVec 64 := mget (RegName.PAR_GONG_LINE.resetWord p l) (s.part p).gongCfg l

def gongEnabled (w : BitVec 64) : Bool := decide (F.PAR_GONG_LINE_ENABLE.of w = 1)
def gongEvent (w : BitVec 64) : Bool := decide (F.PAR_GONG_LINE_KIND.of w = 1)
def gongFabric (w : BitVec 64) : Bool := decide (F.PAR_GONG_LINE_SCOPE.of w = 1)
/-- EXPECTED; 0 is taken as 1. -/
def gongExpected (w : BitVec 64) : Nat := max 1 (F.PAR_GONG_LINE_EXPECTED.of w)

/-- Soundings of a line so far. -/
def State.sounds (s : State) (p l : Nat) : Nat := mget 0 (s.part p).sounds l

/-- Update every context of a kit that a test picks. -/
def State.mapCtx (s : State) (k : Nat) (g : CtxId → Ctx → Ctx) : State :=
  (s.mallets.map Prod.fst).foldl (fun s m =>
    if m / 65536 = k then
      { s with mallets := mupd {} s.mallets m (fun x =>
          (x.c.map Prod.fst).foldl (fun x c => { x with c := mupd {} x.c c (g ⟨m / 65536, m / 256 % 256, m % 256, c⟩) }) x) }
    else s) s

/-- Release the contexts of partition p whose wait at line l has been sounded (R138). -/
def State.releaseGong (s : State) (p l : Nat) : State :=
  let n := s.sounds p l
  (s.kitsOf p).foldl (fun s k => s.mapCtx k (fun _ c =>
    match c.wait with
    | .gong l' j _ => if l' = l ∧ j < n then { c with pc := c.pc + 8, wait := .none } else c
    | _ => c)) s

/-- LAYER of the routers that line l advances (R183). -/
def State.advanceLayers (s : State) (p l : Nat) : State :=
  (s.kitsOf p).foldl (fun s k =>
    let w := (s.kit k).routerCfg
    if F.KIT_ROUTER_CONFIG_LINE_EN.of w = 1 ∧ F.KIT_ROUTER_CONFIG_LINE.of w = l then
      s.setF F.KIT_ROUTER_CONFIG_LAYER k 0 ((s.f F.KIT_ROUTER_CONFIG_LAYER k 0 + 1) % 64)
    else s) s

/-- Line l of partition p sounds at this device: its waiters are released and LAYER advances. [log 36: DEDUCED] -/
def State.soundLocal (s : State) (p l : Nat) : State :=
  ((s.setPart p (fun x => { x with sounds := mupd 0 x.sounds l (· + 1), arrivedBy := mput [] x.arrivedBy l [],
                                   nextArrived := mput 0 x.nextArrived l 0 })).releaseGong p l).advanceLayers p l

/-- The payload of a GONG packet (R374). -/
def gongPayload (line kind phase cnt : Nat) : Nat := 2 ^ 48 * line + 2 ^ 47 * kind + 2 ^ 46 * phase + cnt

/-- This device counts line l: it is a package line, or its COUNTER is this node. -/
def State.countsLine (s : State) (p l : Nat) : Bool :=
  !gongFabric (s.gongCfg p l) || decide (s.f F.FAB_GONG_CFG_COUNTER p l = s.node)

/-- Key of a line across partitions. -/
def lineKey (p l : Nat) : Nat := p * 16 + l

/-- Send the arrivals counted here and not yet reported, unless an ARRIVE of the line is unanswered (R372). -/
def State.pumpArrive (s : State) (p l : Nat) : State :=
  let n := mget 0 s.fab.gongLocal (lineKey p l)
  let a := 2 ^ 48 * s.f F.FAB_GONG_CFG_COUNTER p l
  if n = 0 ∨ mget false s.fab.gongOut (lineKey p l) = true ∨ s.canIssue p a 8 = false then s
  else
    let s := { s with fab := { s.fab with gongLocal := mput 0 s.fab.gongLocal (lineKey p l) 0,
                                          gongOut := mput false s.fab.gongOut (lineKey p l) true } }
    s.issue p none (.gong p l) none 1
      { op := opGong, size := 1, addr := a,
        payload := gongPayload (s.f F.FAB_GONG_CFG_LINE_ID p l) 0 (s.f F.PAR_GONG_LINE_PHASE p l) (n % 2 ^ 24) }

/-- Send the SOUNDs that can be sent, each with its phase to its line's group (R366, R372). -/
def State.pumpSounds (s : State) : State :=
  s.fab.sounds.foldl (fun s q =>
    let g := s.f F.FAB_GONG_CFG_SOUND_GROUP q.1 q.2.1
    let a := 2 ^ 48 * s.f F.FAB_PEAL_FGROUP g 0
    let gone : State := { s with fab := { s.fab with sounds := s.fab.sounds.erase q } }
    if s.fb F.FAB_PEAL_VALID g 0 = false then gone.log (srcHub 0) Ev.FAB_PEAL_INVALID [g] (some q.1)
    else if s.canIssue q.1 a 8 then
      gone.issue q.1 none (.gong q.1 q.2.1) none (s.f F.FAB_PEAL_MEMBERS g 0)
        { op := opGong, size := 1, addr := a, payload := gongPayload (s.f F.FAB_GONG_CFG_LINE_ID q.1 q.2.1) 1 q.2.2 0 }
    else s) s

/-- Send SOUND with a phase to the line's group (R372); it waits for a tag and credit. -/
def State.sendSound (s : State) (p l phase : Nat) : State :=
  ({ s with fab := { s.fab with sounds := s.fab.sounds ++ [(p, l, phase)] } } : State).pumpSounds

/-- A barrier line whose count is kept here takes n arrivals; each sounding follows exactly EXPECTED of them (R165, R166). -/
def State.countArrivals : Nat → State → Nat → Nat → Nat → State
  | 0, s, _, _, _ => s
  | fuel + 1, s, p, l, n =>
    let w := s.gongCfg p l
    let a := s.f F.PAR_GONG_LINE_ARRIVED p l + n
    if a < gongExpected w then s.setF F.PAR_GONG_LINE_ARRIVED p l a
    else
      let ph := 1 - s.f F.PAR_GONG_LINE_PHASE p l
      let more := mget 0 (s.part p).nextArrived l
      let s := (s.setF F.PAR_GONG_LINE_ARRIVED p l 0).setF F.PAR_GONG_LINE_PHASE p l ph
      let s := if gongFabric w then s.sendSound p l ph else s
      State.countArrivals fuel (s.soundLocal p l) p l (a - gongExpected w + more)

/-- One local arrival counts (R166, R372). -/
def State.arriveAt (s : State) (p l : Nat) : State :=
  if s.countsLine p l then s.countArrivals 64 p l 1
  else ({ s with fab := { s.fab with gongLocal := mupd 0 s.fab.gongLocal (lineKey p l) (· + 1) } }).pumpArrive p l

/-- A SOUND of another device sounds the line here; arrivals held for the next phase are now to be reported (R372). [log 36: DEDUCED] -/
def State.soundRemote (s : State) (p l phase : Nat) : State :=
  let more := mget 0 (s.part p).nextArrived l
  let s := (s.setF F.PAR_GONG_LINE_PHASE p l phase).soundLocal p l
  ({ s with fab := { s.fab with gongLocal := mupd 0 s.fab.gongLocal (lineKey p l) (· + more) } }).pumpArrive p l

/-- A context's arrival at a line counts. A second arrival in one phase joins that phase or the next: which is not defined (R166), so
a free value decides. The answer names the number of soundings that its context waits to exceed. -/
def State.contextArrives (s : State) (u : CtxId) (p l : Nat) : State × Nat :=
  let n := s.sounds p l
  let by_ := mget [] (s.part p).arrivedBy l
  if nmem by_ (ctxKey u) && decide (Config.freeValue s.freeCtr % 2 = 1) then
    (s.fresh.setPart p (fun x => { x with nextArrived := mupd 0 x.nextArrived l (· + 1) }), n + 1)
  else
    let s := if nmem by_ (ctxKey u) then s.fresh else s
    ((s.setPart p (fun x => { x with arrivedBy := mput [] x.arrivedBy l (nins by_ (ctxKey u)) })), n)

end Sys2Proof.Machine
end

