-- ==== Sys2Proof/Machine/MemInstr.lean ====
section
/-!
DEFINITION. Sys2Proof/Machine/MemInstr.lean: the memory instructions of Table 3.7 and the asynchronous and wait instructions of
Table 3.8 (R114 to R122). A load's own effect stands in a finish… operation, because a load from remote memory or flash completes
with LOAD_DATA_RETURN.
-/
namespace Sys2Proof.Machine

open Sys2Proof (CtxId Fields Upsets)

-- ===== Loads =====

/-- TLD's data reaches its register (R94, R116). -/
def State.finishTld (s : State) (u : CtxId) (f : Fields) (d : Data) : State :=
  (s.putTile u f.D d.v (d.p.testBit 0) (d.p.testBit 1)).done u

/-- A parity error on the crossbar poisons every granule of the transfer and lists the segment (R434). [log 16: DEDUCED] -/
def State.xbarParity (s : State) (u : CtxId) (seg : Option Nat) (d : Data) (n : Nat) : State × Data :=
  match seg with
  | none => (s, d)
  | some g =>
    let unit := unitSeg u.kit g
    (((s.count F.INT_PARITY_COUNT u.kit 0 1).log (srcKit u.kit) Ev.XBAR_PARITY [g] none (some unit)).observe unit 7,
     { d with p := ones (granules 0 n) })

/-- The tile is pending: an outstanding ALDT targets it (R120). -/
def State.tilePending (s : State) (u : CtxId) (n : Nat) : Bool := (s.tile u n).pending

/-- The effect waits while a tile that it reads or writes is pending (R120). -/
def State.onTiles (s : State) (u : CtxId) (ts : List Nat) (k : State → State) : State :=
  if ts.any (fun n => s.tilePending u n) then s.waits u .tile else k s

/-- The encoding of a memory instruction: MOD bits in m besides bit 3, and whether it takes a mask. -/
def Fields.memLegal (f : Fields) (m : Nat) (mask : Bool) : Bool :=
  f.zeroBut false true mask false true true (f.modBit 3) false true && Fields.addrLegal f && decide (f.modN % 8 &&& m = f.modN % 8)

/-- TLD. The errors of e have struck when it issues. -/
def execTld (u : CtxId) (f : Fields) (e : Upsets) (s : State) : Answer :=
  .next ((s.strike e).run u f 0x20 (Fields.memLegal f 0 false) (fun s => s.memConds u f 64 64 rRead)
    (fun s => s.onTiles u [f.D] (fun s =>
      s.load u (Fields.word f 0x20) (s.xSpan u f.A) (s.memPieces u f 64) 64 (fun s d =>
        let r := s.xbarParity u e.segment d 64
        r.1.finishTld u f r.2))))

/-- SCLD's data reaches the scale word. -/
def State.finishScld (s : State) (u : CtxId) (f : Fields) (d : Data) : State :=
  (s.setTile u f.D { s.tile u f.D with scale := BitVec.ofNat 64 d.v, pSc := decide (d.p ≠ 0) }).done u

/-- SCLD. -/
def execScld (u : CtxId) (f : Fields) (s : State) : Answer :=
  .next (s.run u f 0x22 (Fields.memLegal f 0 false) (fun s => s.memConds u f 8 8 rRead)
    (fun s => s.onTiles u [f.D] (fun s =>
      s.load u (Fields.word f 0x22) (s.xSpan u f.A) (s.memPieces u f 8) 8 (fun s d => s.finishScld u f d))))

/-- The size of SLD and SST. -/
def Fields.scalarSize (f : Fields) : Nat := 2 ^ (f.modN % 4)

/-- SLD's data reaches S[rd], zero- or sign-extended. -/
def State.finishSld (s : State) (u : CtxId) (f : Fields) (d : Data) : State :=
  let n := 8 * Fields.scalarSize f
  let v := if f.modBit 2 then BitVec.ofInt 64 (signed n d.v) else BitVec.ofNat 64 (d.v % 2 ^ n)
  (s.putS u f.D v (decide (d.p ≠ 0))).done u

/-- SLD. -/
def execSld (u : CtxId) (f : Fields) (s : State) : Answer :=
  .next (s.run u f 0x24 (Fields.memLegal f 7 false && f.d16)
    (fun s => s.memConds u f (Fields.scalarSize f) (Fields.scalarSize f) rRead)
    (fun s => s.load u (Fields.word f 0x24) (s.xSpan u f.A) (s.memPieces u f (Fields.scalarSize f)) (Fields.scalarSize f)
      (fun s d => s.finishSld u f d)))

/-- ALD's size. -/
def aldSize (f : Fields) : Nat := if f.modBit 0 then 256 else 320

/-- ALD's data reaches A[rd]: MOD 0 restores an image (R83), MOD 1 adds enabled LA128 elements to those of the first turn (R81, R105). -/
def State.finishAld (s : State) (u : CtxId) (f : Fields) (t : FirstTurn) (d : Data) : State :=
  let a := if f.modBit 0 then
      (s.acc u f.D).mapEnabled t.mask (fun n _ => (t.acc.el n).addLa128 (bits d.v (128 * n + 127) (128 * n)) (d.p.testBit (n / 2)))
    else accOfImage d.v (fun g => d.p.testBit g)
  (s.setAcc u f.D a).done u

/-- ALD. -/
def execAld (u : CtxId) (f : Fields) (s : State) : Answer :=
  .next (s.run u f 0x26 (Fields.memLegal f 1 (f.modBit 0) && f.d8)
    (fun s => s.memConds u f (aldSize f) 64 rRead ++ [when (f.modBit 0 && !(s.acc u f.D).isOpen) 0xC])
    (fun s =>
      let t := s.firstTurn u f 0 f.D
      s.load u (Fields.word f 0x26) (s.xSpan u f.A) (s.memPieces u f (aldSize f)) (aldSize f) (fun s d => s.finishAld u f t d) t))

-- ===== Stores =====

/-- TST's byte enables: word mask or byte mask (R109, R116). -/
def State.tstBytes (s : State) (u : CtxId) (f : Fields) : Nat :=
  if f.modBit 0 then s.maskBytes u f else wordToBytes (s.maskE u f)

/-- Granule marks of a 64 B write from a tile: a poisoned half marks its granule when a byte of it is written. [log 22: DEDUCED] -/
def tilePoison (t : Tile) (en : Nat) : Nat :=
  b2n (t.pLo && decide (en % 2 ^ 32 ≠ 0)) + 2 * b2n (t.pHi && decide (en / 2 ^ 32 % 2 ^ 32 ≠ 0))

/-- TST. -/
def execTst (u : CtxId) (f : Fields) (s : State) : Answer :=
  .next (s.run u f 0x21 (Fields.memLegal f 1 true) (fun s => s.memConds u f 64 64 rWrite)
    (fun s => s.onTiles u [f.D] (fun s =>
      let t := s.tile u f.D
      let en := s.tstBytes u f
      s.store u (s.xSpan u f.A) (s.memPieces u f 64) t.data.toNat en (tilePoison t en) (fun s => s.done u))))

/-- SCST. -/
def execScst (u : CtxId) (f : Fields) (s : State) : Answer :=
  .next (s.run u f 0x23 (Fields.memLegal f 0 false) (fun s => s.memConds u f 8 8 rWrite)
    (fun s => s.onTiles u [f.D] (fun s =>
      let t := s.tile u f.D
      s.store u (s.xSpan u f.A) (s.memPieces u f 8) t.scale.toNat 255 (b2n t.pSc) (fun s => s.done u))))

/-- SST. -/
def execSst (u : CtxId) (f : Fields) (s : State) : Answer :=
  .next (s.run u f 0x25 (Fields.memLegal f 3 false && f.d16)
    (fun s => s.memConds u f (Fields.scalarSize f) (Fields.scalarSize f) rWrite)
    (fun s =>
      s.store u (s.xSpan u f.A) (s.memPieces u f (Fields.scalarSize f)) (s.sv u f.D % 256 ^ Fields.scalarSize f)
        (ones (Fields.scalarSize f)) (b2n (s.sp u f.D)) (fun s => s.done u)))

/-- AST's size. -/
def astSize (f : Fields) : Nat := if f.modBit 0 then 320 else 256

/-- The 16 LA128 elements of an accumulator, 16 B each (R80). -/
def Acc.la128Bytes (a : Acc) : Nat := (List.range 16).foldl (fun w n => w + (a.el n).la128 * 2 ^ (128 * n)) 0

/-- Byte enables of elements of 16 B. -/
def elemBytes16 (e : Nat) : Nat := bitField 256 (fun i => e.testBit (i / 16))

/-- Granule marks of enabled LA128 elements. -/
def Acc.la128Poison (a : Acc) (e : Nat) : Nat :=
  bitField 8 (fun g => (e.testBit (2 * g) && (a.el (2 * g)).poison) || (e.testBit (2 * g + 1) && (a.el (2 * g + 1)).poison))

/-- Readout flags of the enabled elements (R73). -/
def State.readoutFlags (s : State) (u : CtxId) (a : Acc) (e : Nat) : State :=
  let on := (List.range 16).filter (fun n => e.testBit n)
  s.setFlags u (on.any (fun n => (a.el n).rdOvf)) (on.any (fun n => (a.el n).inv)) false false

/-- AST. -/
def execAst (u : CtxId) (f : Fields) (s : State) : Answer :=
  .next (s.run u f 0x27 (Fields.memLegal f 1 (!f.modBit 0) && f.d8)
    (fun s => s.memConds u f (astSize f) 64 rWrite ++ [when (!f.modBit 0 && !(s.acc u f.D).isOpen) 0xC])
    (fun s =>
      let a := s.acc u f.D
      if f.modBit 0 then
        s.store u (s.xSpan u f.A) (s.memPieces u f 320) a.image (ones 320)
          (bitField 8 (fun g => (a.el (2 * g)).poison || (a.el (2 * g + 1)).poison)) (fun s => s.done u)
      else
        let e := s.maskE u f % 2 ^ 16
        s.store u (s.xSpan u f.A) (s.memPieces u f 256) a.la128Bytes (elemBytes16 e) (a.la128Poison e)
          (fun s => (s.readoutFlags u a e).done u)))

-- ===== Asynchronous instructions =====

/-- An arrival flag's count would exceed 15 (R119). -/
def State.flagFull (s : State) (u : CtxId) (n : Nat) : Bool := decide (15 ≤ (s.ctx u).AF n)

/-- Count one more outstanding operation on an arrival flag. -/
def State.flagUp (s : State) (u : CtxId) (n : Nat) : State := s.setCtx u (fun c => c.setAF n (c.AF n + 1))

/-- An operation counted on an arrival flag has completed. -/
def State.flagDown (s : State) (u : CtxId) (n : Nat) : State := s.setCtx u (fun c => c.setAF n (c.AF n - 1))

/-- ALDT: RC + 1 tiles become pending. -/
def execAldt (u : CtxId) (f : Fields) (s : State) : Answer :=
  .next (s.run u f 0x30
    (f.zeroBut false true false true true true (f.modBit 3) true true && Fields.addrLegal f && decide (f.modN % 8 = 0) && decide (f.C ≤ 7) &&
      decide (f.D + f.C + 1 ≤ 32))
    (fun s => s.memConds u f (64 * (f.C + 1)) 64 rRead)
    (fun s => s.onTiles u (span f.D (f.C + 1)) (fun s =>
      if s.flagFull u f.auxN then s.waits u .flag else
        let n := f.C + 1
        let r := s.newXfer { kind := .aldt (ctxKey u) f.D n f.auxN, part := s.partOf u, unit := unitMallet u.kit u.drum u.mallet,
                             src := s.memPieces u f (64 * n), len := 64 * n, span := s.xSpan u f.A,
                             off := (s.memOff u f).toNat, stream := ctxStream u }
        let s := (span f.D n).foldl (fun s i => s.setTile u i { s.tile u i with pending := true }) (r.1.flagUp u f.auxN)
        (s.launch r.2 (some (u.kit, u.drum))).done u)))

/-- ACPY: S[rb] bytes from X[ra] to X[rd]. -/
def execAcpy (u : CtxId) (f : Fields) (s : State) : Answer :=
  .next (s.run u f 0x31 (f.zeroBut false false false true true true true false false && f.d16 && f.a16 && f.b16)
    (fun s =>
      let n := s.sv u f.B
      let bad := decide (n < 64) || decide (0x100000 < n) || decide (n % 64 ≠ 0)
      [when ((s.X u f.A).p || (s.X u f.D).p || s.sp u f.B) 3,
       s.accessFault (s.actor u) (s.xSpan u f.A) (s.xOff u f.A : Int) n 64 rRead,
       s.accessFault (s.actor u) (s.xSpan u f.D) (s.xOff u f.D : Int) n 64 rWrite,
       when bad 8 n])
    (fun s =>
      if s.flagFull u f.auxN then s.waits u .flag else
        let n := s.sv u f.B
        let src := s.spanPieces (s.actor u) (s.xSpan u f.A) (s.xOff u f.A) n
        let dst := s.spanPieces (s.actor u) (s.xSpan u f.D) (s.xOff u f.D) n
        let r := (s.flushPieces u (src ++ dst)).newXfer
          { kind := .copy (ctxKey u) f.auxN, part := s.partOf u, unit := unitMallet u.kit u.drum u.mallet, src := src, dst := dst, len := n,
            span := s.xSpan u f.D, off := s.xOff u f.D, srcSub := s.spanOwner (s.partOf u) (s.xSpan u f.A) + 1, stream := ctxStream u }
        ((r.1.flagUp u f.auxN).launch r.2 (some (u.kit, u.drum))).done u))

/-- WAITF. -/
def execWaitf (u : CtxId) (f : Fields) (s : State) : Answer :=
  .next (s.run u f 0x32 (f.zeroBut false false false false false false false false true && decide (f.immN < 2 ^ 16)) (fun _ => [])
    (fun s =>
      if (List.range 16).all (fun n => !f.immN.testBit n || decide ((s.ctx u).AF n = 0)) then s.done u else s.waits u .flag))

/-- WAITD. -/
def execWaitd (u : CtxId) (f : Fields) (s : State) : Answer :=
  .next (s.run u f 0x33 (f.zeroBut false false false false false false false false true && decide (f.immN < 64)) (fun _ => [])
    (fun s =>
      if nmem (s.drum u.kit u.drum).flagSet f.immN then s.done u
      else if (s.ctx u).wait = .drumFlag f.immN then s
      else (s.setCtx u (fun c => { c with lateTurns := 0 })).waits u (.drumFlag f.immN)))

/-- Tiles of an ALDT take data of its transfer, 64 B each, and are no longer pending. -/
def State.landTiles (s : State) (u : CtxId) (rd n : Nat) (d : Data) : State :=
  (List.range n).foldl (fun s i =>
    s.setTile u (rd + i) { s.tile u (rd + i) with
      data := BitVec.ofNat 512 (d.v / 256 ^ (64 * i)), pLo := d.p.testBit (2 * i), pHi := d.p.testBit (2 * i + 1), pending := false }) s

/-- A mallet's asynchronous transfer completes with data: the destination is written and the flag counted down. -/
def State.finishAsync (s : State) (x : Nat) (d : Data) : State :=
  let t := s.xfer x
  match t.kind with
  | .aldt k rd n flag => (((s.landTiles (ctxOfKey k) rd n d).flagDown (ctxOfKey k) flag)).endXfer x
  | .copy k flag => ((s.spread x d).flagDown (ctxOfKey k) flag).endXfer x
  | .kvrd k flag => ((s.spread x d).flagDown (ctxOfKey k) flag).endXfer x
  | _ => s

end Sys2Proof.Machine
end

