-- ==== Sys2Proof/Machine/FabInstr.lean ====
section
/-!
DEFINITION. Sys2Proof/Machine/FabInstr.lean: gongs, peals, atomics, reductions and fences (Tables 3.13 and 3.14, R137 to R141), and
the atomic and reduction at a memory that mallets and the fabric share (R82, R89, R358, R359).
-/
namespace Sys2Proof.Machine

open Sys2Proof (CtxId Fields)

-- ===== Atomics and reductions at local memory =====

/-- An atomic on the 8 B word at a: fetch-add of v, or swap in v where the word equals c. A poisoned word is not changed. The old
value and its mark are answered (R139, R358). -/
def State.atomicMem (s : State) (unit a : Nat) (cas : Bool) (v c : Nat) : State × Data :=
  let r := s.readMem unit a 8
  let old := r.2
  if old.p ≠ 0 then (r.1, old)
  else if cas then (if old.v = c % 2 ^ 64 then (r.1.writeMem unit a 8 (v % 2 ^ 64) 255 0, old) else (r.1, old))
  else (r.1.writeMem unit a 8 ((old.v + v) % 2 ^ 64) 255 0, old)

/-- Width in bits of the elements of a reduction form (Table 11.6). -/
def redWidth (form : Nat) : Nat := if form = 0 then 128 else if form < 3 then 32 else 16

/-- Bytes of a reduction. -/
def redBytes (form : Nat) : Nat := if form = 0 then 256 else 64

/-- One element: LA128 addition modulo 2^128, or the greater or lesser under the order of R89. -/
def redElem (form a b : Nat) : Nat :=
  match form with
  | 0 => (a + b) % 2 ^ 128
  | 1 => (f32Max a b).1
  | 2 => (f32Min a b).1
  | 3 => (f32Max (65536 * a) (65536 * b)).1 / 65536
  | _ => (f32Min (65536 * a) (65536 * b)).1 / 65536

/-- The bit of ENABLE that governs element n. -/
def redBit (form en n : Nat) : Bool := en.testBit (if form < 3 then n else n / 2)

/-- Byte enables of a reduction. -/
def redByteMask (form en : Nat) : Nat :=
  bitField 256 (fun i => redBit form en (8 * i / redWidth form))

/-- A reduction of n bytes at a: enabled elements are combined; a poisoned contribution or target granule leaves its granule poisoned (R97). -/
def State.redMem (s : State) (unit a n form en : Nat) (d : Data) : State :=
  let w := redWidth form
  let r := s.readMem unit a n
  let v := (List.range (8 * n / w)).foldl (fun x i =>
    x + redElem form (r.2.v / 2 ^ (w * i) % 2 ^ w) (d.v / 2 ^ (w * i) % 2 ^ w) * 2 ^ (w * i)) 0
  r.1.writeMem unit a n v (redByteMask form en % 2 ^ n) (r.2.p ||| d.p)

-- ===== Posted requests =====

/-- A context can post one request now: tag, route order, credit, and room in the pair's hold buffer. -/
def State.canPost (s : State) (u : CtxId) (addr bytes : Nat) : Bool :=
  s.canIssue (s.partOf u) addr bytes && (!s.compares (s.partOf u) || s.holdFits (s.partOf u) (13 + bytes))

/-- The 64 B that a PEAL carries: its packet has no byte mask (R353, R354), and what it holds in place of words that the mask disables is a value
the spec leaves open. [log 135: DESIGN CHOICE] -/
def pealBytes (t : Tile) (en n : Nat) : Nat := if en = ones 64 then t.data.toNat else blend 64 en t.data.toNat (Config.freeValue n)

/-- PEAL (R137, R360). A group that is not VALID discards it and logs. OPERAND_RANGE is never raised: every value of its operands is in
range. [log 35: DEDUCED; 135: DESIGN CHOICE] -/
def execPeal (u : CtxId) (f : Fields) (s : State) : Answer :=
  .next (s.run u f 0xC1 (f.zeroBut false false true false true true false false true && f.a16 && decide (f.immN < 256))
    (fun s => [when (s.X u f.A).p 3, when (decide (s.xOff u f.A % 64 ≠ 0)) 4 (spanItem (s.xSpan u f.A) (s.xOff u f.A))])
    (fun s => s.onTiles u [f.D] (fun s =>
      let t := s.tile u f.D
      let en := wordToBytes (s.maskE u f)
      let a := s.f F.FAB_PEAL_FGROUP f.immN 0 * 2 ^ 48 + s.f F.FAB_PEAL_EXPORT f.immN 0 * 2 ^ 40 + s.xOff u f.A
      if s.fb F.FAB_PEAL_VALID f.immN 0 = false then (s.log (srcHub 0) Ev.FAB_PEAL_INVALID [f.immN] (some (s.partOf u))).done u
      else if en = 0 then s.done u
      else if s.canPost u a 64 then
        let n := s.freeCtr
        let s := if en = ones 64 then s else s.fresh
        (((s.post u (s.xSpan u f.A) (s.f F.FAB_PEAL_MEMBERS f.immN 0)
          { op := opPeal, size := 4, addr := a, payload := pealBytes t en n, poison := tilePoison t en }).journalRemote u a 64).done u)
      else s.waits u .tag)))

/-- An old value reaches S[rd]. -/
def State.finishAtom (s : State) (u : CtxId) (f : Fields) (d : Data) : State :=
  (s.putS u f.D (BitVec.ofNat 64 d.v) (decide (d.p ≠ 0))).done u

/-- A context has the credit for an ATOM or RED at local memory: it reads and writes n bytes (R279, R412). -/
def State.rmwCredit (s : State) (u : CtxId) (a n : Nat) : Bool := s.ctxCredit u false [(a, n)] && s.ctxCredit u true [(a, n)]

/-- An ATOM or RED at local memory is charged its read and its write. -/
def State.rmwCharge (s : State) (u : CtxId) (a n : Nat) : State := (s.ctxCharge u false [(a, n)]).ctxCharge u true [(a, n)]

/-- The flushes of the drum's merge buffer have not had their credit yet. -/
def State.flushOwes (s : State) (u : CtxId) : Bool := s.owes (mergeStream (unitDrum u.kit u.drum))

/-- ATOM (R139). S[rc] is an operand of MOD 1 only: MOD 0 takes RC = 0 and consumes S[rb]. [log 142: DESIGN CHOICE] -/
def execAtom (u : CtxId) (f : Fields) (s : State) : Answer :=
  .next (s.run u f 0xC2
    (f.zeroBut false true false false true true true (decide (f.modN = 1)) false && f.d16 && f.a16 && f.b16 && f.c16 && decide (f.modN ≤ 1))
    (fun s => [when ((s.X u f.A).p || s.sp u f.B || (decide (f.modN = 1) && s.sp u f.C)) 3,
               s.accessFault (s.actor u) (s.xSpan u f.A) (s.xOff u f.A : Int) 8 8 rAtomic])
    (fun s =>
      let cas := decide (f.modN = 1)
      match s.spanPieces (s.actor u) (s.xSpan u f.A) (s.xOff u f.A) 8 with
      | [(_, pc)] =>
        if pc.rem then
          if s.canPost u pc.addr 16 then
            let p := s.partOf u
            let r := s.newXfer { kind := .load (ctxKey u) (Fields.word f 0xC2), part := p, unit := unitMallet u.kit u.drum u.mallet,
                                 len := 8, waiting := 1, span := s.xSpan u f.A, off := s.xOff u f.A }
            let q : Pkt := if cas then
                { op := opAtomic, size := 2, addr := pc.addr, payload := s.sv u f.B + s.sv u f.C * 2 ^ 64 }
              else { op := opAtomic, size := 1, addr := pc.addr, payload := s.sv u f.B }
            let s := r.1.issue p (some (s.spanOwner p (s.xSpan u f.A))) (.xfer r.2 0) (some u) 1 q
            ((s.journalRemote u pc.addr 8).closeSegment u).waits u (.load r.2)
          else s.waits u .tag
        else if s.rmwCredit u pc.addr 8 = false then s.deferCtx u true
        else
          let r := ((s.flushLines u pc.addr 8).rmwCharge u pc.addr 8).atomicMem (unitMallet u.kit u.drum u.mallet) pc.addr cas (s.sv u f.B) (s.sv u f.C)
          ((r.1.journalDrum (s.partOf u) u.kit u.drum pc.addr 8).finishAtom u f r.2)
      | _ => s))

/-- The contribution of a RED: its data, marks and enabled elements. -/
def State.redData (s : State) (u : CtxId) (f : Fields) : Data :=
  let e := s.maskE u f % 2 ^ 16
  if f.modN = 0 then { v := (s.acc u f.D).la128Bytes, p := (s.acc u f.D).la128Poison e }
  else { v := (s.tile u f.D).data.toNat, p := tilePoison (s.tile u f.D) (wordToBytes e) }

/-- The packets of a RED to remote pieces: one for each naturally aligned block of the form's size that the pieces touch, with the elements of
the contribution that fall in it (R267, R354). [log 60: DESIGN CHOICE] -/
def redPackets (form anchor e : Nat) (d : Data) (ps : List (Nat × Piece)) : List Pkt :=
  let n := redBytes form
  ps.flatMap (fun q =>
    let start : Int := (q.2.addr : Int) - q.1
    let b0 := q.2.addr / n
    ((List.range ((q.2.addr + q.2.len + n - 1) / n - b0)).map (fun i =>
      let b := (b0 + i) * n
      let sh : Int := (b : Int) - start
      let at_ := fun (unit v : Nat) => if 0 ≤ sh then v / 2 ^ (unit * sh.toNat) else v * 2 ^ (unit * (-sh).toNat)
      let inPiece := fun (a : Nat) => decide (q.2.addr ≤ a) && decide (a < q.2.addr + q.2.len)
      let en := if form = 0 then bitField 16 (fun j => inPiece (b + 16 * j) && e.testBit (((16 * j : Nat) + sh).toNat / 16)) else e
      let mk := bitField (n / 32) (fun g => inPiece (b + 32 * g) && d.p.testBit (((32 * g : Nat) + sh).toNat / 32))
      ({ op := opRed, size := sizeCode n, addr := b, red := 2 ^ 29 * form + 2 ^ 16 * anchor + en, payload := at_ 8 d.v % 256 ^ n, poison := mk } : Pkt))).filter
        (fun k => decide (k.red % 2 ^ 16 ≠ 0)))

/-- RED (R82, R89). -/
def execRed (u : CtxId) (f : Fields) (s : State) : Answer :=
  .next (s.run u f 0xC3
    (f.zeroBut false true true false true true false false false && f.a16 && decide (f.modN ≤ 4) && (decide (f.modN ≠ 0) || f.d8))
    (fun s =>
      let e := s.maskE u f % 2 ^ 16
      [when (s.X u f.A).p 3,
       s.accessFault (s.actor u) (s.xSpan u f.A) (s.xOff u f.A : Int) (redBytes f.modN) 64 rReduce,
       when (decide (f.modN = 0) && !(s.acc u f.D).isOpen) 0xC,
       when (decide (f.modN = 0) && (List.range 16).any (fun n => e.testBit n && ((s.acc u f.D).el n).inv)) 0xF])
    (fun s => s.onTiles u (if f.modN = 0 then [] else [f.D]) (fun s =>
      let e := s.maskE u f % 2 ^ 16
      let d := s.redData u f
      let n := redBytes f.modN
      let anchor := if f.modN = 0 then (s.acc u f.D).anchor.toNat else 0
      let fin := fun (s : State) => (if f.modN = 0 then s.readoutFlags u (s.acc u f.D) e else s).done u
      let ps := s.spanPieces (s.actor u) (s.xSpan u f.A) (s.xOff u f.A) n
      if e = 0 then s.done u
      else if (remoteOf ps).isEmpty then
        match ps with
        | [(_, pc)] =>
          if s.rmwCredit u pc.addr n = false then s.deferCtx u true
          else
            fin ((((s.flushLines u pc.addr n).rmwCharge u pc.addr n).redMem (unitMallet u.kit u.drum u.mallet) pc.addr n f.modN e d).journalDrum
              (s.partOf u) u.kit u.drum pc.addr n)
        | _ => s
      else
        let ks := redPackets f.modN anchor e d ps
        if ks.all (fun k => s.canPost u k.addr (ks.length * n) && s.tagsFree (nodeOf k.addr) ks.length) then
          fin (ks.foldl (fun s k => (s.post u (s.xSpan u f.A) 1 k).journalRemote u k.addr n) s)
        else s.waits u .tag)))

/-- FENCE (R140). Local accesses are performed when they issue; scope 1 and wider flushes the drum's merge buffer (R436), and fabric
scope waits for the answers to the context's posted requests. -/
def execFence (u : CtxId) (f : Fields) (s : State) : Answer :=
  .next (s.run u f 0xD2 (f.zeroBut false true false false false false false false false && decide (f.modN ≤ 3)) (fun _ => [])
    (fun s =>
      let s := if f.modN = 0 then s else s.flushMerge u.kit u.drum (fun _ => true)
      let s := if f.modN = 3 then s.closeSegment u else s
      if (f.modN ≠ 0 ∧ s.flushOwes u = true) ∨ (f.modN = 3 ∧ (s.ctx u).posted ≠ 0) then s.waits u .fence else s.done u))

/-- GONG (R138). -/
def execGong (u : CtxId) (f : Fields) (s : State) : Answer :=
  .next (s.run u f 0xC0 (f.zeroBut false true false true false false false false false && decide (f.modN ≤ 3))
    (fun s =>
      let w := s.gongCfg (s.partOf u) f.auxN
      [when (!gongEnabled w || (decide (f.modN = 3) && !gongEvent w) || (decide (f.modN ≤ 1) && gongEvent w)) 0xB])
    (fun s =>
      let p := s.partOf u
      if f.modN = 3 then (s.soundLocal p f.auxN).done u
      else if f.modN = 2 then s.waits u (.gong f.auxN (s.sounds p f.auxN) false)
      else
        let s := s.flushMerge u.kit u.drum (fun _ => true)
        let s := if gongFabric (s.gongCfg p f.auxN) then s.closeSegment u else s
        s.waits u (.arrive f.auxN (decide (f.modN = 0)))))

/-- GONG_ARRIVAL_COUNTED: the fence of the context's arrival has completed, and the arrival counts (R166, R372). -/
def execGongArrivalCounted (u : CtxId) (s : State) : Answer :=
  let p := s.partOf u
  match (s.ctx u).wait with
  | .arrive l stay =>
    if (gongFabric (s.gongCfg p l) && decide ((s.ctx u).posted ≠ 0)) || s.flushOwes u || decide (s.stepState p ≠ stRunning) then .next s
    else
      let r := s.contextArrives u p l
      let deferred := decide (r.2 ≠ s.sounds p l)
      let s := if stay then r.1.waits u (.gong l r.2 true) else r.1.done u
      .next (if deferred then s else s.arriveAt p l)
  | _ => .next s

end Sys2Proof.Machine
end

