-- ==== Sys2Proof/Machine/Owed.lean ====
section
/-!
DEFINITION. Sys2Proof/Machine/Owed.lean: stores that device units owe, and reading and writing through a partition's spans as a device
unit (R226, R234, R312, R394).
-/
namespace Sys2Proof.Machine

def State.setServe (s : State) (f : Serve → Serve) : State := { s with serve := f s.serve }

/-- The part of a 64 B record that falls in a 64 B line which starts b bytes after the record's start less 64 B. -/
def linePart (v b : Nat) : Nat := v * 256 ^ 64 / 256 ^ b % 256 ^ 64

/-- What an owed store carries: a response record takes HUB_TIME at issue as its TIME (Table 7.8). -/
def Owed.payload (o : Owed) (time : Nat) : Nat :=
  match o.stamp with
  | none => o.v
  | some b => linePart (o.v + 2 ^ 320 * (time % 2 ^ 64)) b

/-- Send the stores owed outside slot queues that can be sent. The stores of a forwarded CANCEL (kind 1) name their
slot, those of a DONE (kind 2) their ring; kinds 2 and 5 are fetch-adds; 4 and 5 complete transit descriptors (R312). -/
def State.pumpOwed (s : State) : State :=
  s.serve.owed.foldl (fun s o =>
    if s.canIssue o.part o.addr o.len then
      let s := s.setServe (fun v => { v with owed := v.owed.erase o })
      s.issue o.part (some (s.f F.MEM_PART_CHARGE_SUBSCRIBER o.part 0)) (if o.kind = 3 then .resp o.slot else if o.kind = 2 then .ringDone o.slot else if o.kind = 4 ∨ o.kind = 5 then .cmpl o.slot else .notice (if o.kind = 1 then o.slot else 2 ^ 14)) none 1
        { op := if o.kind = 2 ∨ o.kind = 5 then opAtomic else if o.mask ≠ 0 then opStorem else opStore, size := sizeCode o.len, addr := o.addr, mask := o.mask,
          payload := o.payload s.time }
    else s) s

/-- Owe a store and try to send it. -/
def State.owePiece (s : State) (o : Owed) : State := (s.setServe (fun q => { q with owed := q.owed ++ [o] })).pumpOwed

/-- Owe a store of a whole range. -/
def State.owe (s : State) (part addr v len : Nat) (slot : Nat := 0) (kind : Nat := 0) : State :=
  s.owePiece { part := part, addr := addr, v := v, len := len, slot := slot, kind := kind }

/-- Owe a response record (v has TIME 0) outside a slot's queue. One whose address is not 64 B aligned leaves as a STOREM to each line that it
touches. [log 127: DESIGN CHOICE] -/
def State.oweRecord (s : State) (part addr v : Nat) : State :=
  let o := addr % 64
  let q : Owed := { part := part, addr := addr - o, v := v, len := 64, stamp := some (64 - o) }
  if o = 0 then s.owePiece q
  else (s.owePiece { q with mask := ones (64 - o) * 2 ^ o }).owePiece { q with addr := addr - o + 64, mask := ones o, stamp := some (128 - o) }

-- ===== Reading and writing through a partition's spans =====

/-- The span number of an address-register word. -/
def xwSpan (x : Nat) : Nat := x / 2 ^ 40 % 64
/-- The offset of an address-register word. -/
def xwOff (x : Nat) : Nat := x % 2 ^ 40

/-- The span check of n bytes at an address-register word. -/
def State.xwBad (s : State) (a : Actor) (x n align need : Nat) : Bool :=
  (s.accessFault a (xwSpan x) (xwOff x : Int) n align need).isSome

/-- A device unit reads pieces at once: they are local, and no regulator rule charges them here. -/
def Actor.readsNow (a : Actor) (ps : List (Nat × Piece)) : Bool :=
  localNow ps && (decide (a.stream = 0) || ps.all (fun q => decide (hbmEnd ≤ q.2.addr)))

/-- Begin a fetch by a transfer. -/
def State.fetchLaunch (s : State) (key : Nat) (a : Actor) (ps : List (Nat × Piece)) (n span off sub : Nat) : State × Nat :=
  let r := s.newXfer { part := a.part, unit := a.unit, src := ps, len := n, span := span, off := off, sub := sub, stream := a.stream,
                         noDraw := a.transit && decide (a.stream = 0) }
  ({ (r.1.launch r.2 none) with polls := mput 0 r.1.polls key (r.2 + 1) }, r.2)

/-- Take the data of a fetch when its transfer can finish. -/
def State.fetchMore (s : State) (key t : Nat) : State × Option Data :=
  if s.finishable t then
    ({ (s.endXfer t) with polls := mput 0 s.polls key 0 }, some (s.xfer t).data)
  else (s, none)

/-- Read the n bytes of pieces as a device unit: at once where it can, else by a transfer that key names and that later calls
complete. span, off and sub are those of the transfer. -/
def State.fetchPieces (s : State) (key : Nat) (a : Actor) (ps : List (Nat × Piece)) (n span off sub : Nat) : State × Option Data :=
  if (localOf ps).any (fun q => s.asleep q.1) then (s, none)
  else if a.readsNow ps then
    let r := ps.foldl (fun (q : State × Data) pc =>
      let r := q.1.readMem a.unit pc.2.addr pc.2.len
      (r.1, { v := q.2.v + r.2.v * 256 ^ pc.1, p := q.2.p ||| (r.2.p * 2 ^ (pc.1 / 32)) })) (s, ({} : Data))
    (r.1, some r.2)
  else
    match mget 0 s.polls key with
    | 0 =>
      let r := s.fetchLaunch key a ps n span off sub
      r.1.fetchMore key r.2
    | t + 1 => (s.advance t).fetchMore key t

/-- A fetch is not wanted any more: its answers are discarded. -/
def State.dropFetch (s : State) (key : Nat) : State :=
  match mget 0 s.polls key with
  | 0 => s
  | t + 1 => { (s.abandonXfer t) with polls := mput 0 s.polls key 0 }

/-- An access of n bytes at a that a command makes at once: the codewords of flash that it reads are read first, under a key that later calls
complete; tells whether they have been. chargee is the subscriber + 1 that they are charged to, and 4097 is none. [log 147: DESIGN CHOICE] -/
def State.flashGate (s : State) (key chargee a n : Nat) : State × Bool :=
  if touchesFlash a n = false then (s, true)
  else
    let r := match mget 0 s.polls key with
      | 0 =>
        let r := s.newXfer { part := noPart, unit := noUnit, src := [(0, { addr := a, len := n })], len := n, srcSub := chargee }
        ({ (r.1.advance r.2) with polls := mput 0 r.1.polls key (r.2 + 1) }, r.2)
      | t + 1 => (s.advance t, t)
    if r.1.finishable r.2 then ({ (r.1.endXfer r.2) with polls := mput 0 r.1.polls key 0 }, true) else (r.1, false)

/-- Read n bytes at an address-register word. -/
def State.fetchVia (s : State) (key : Nat) (a : Actor) (x n : Nat) : State × Option Data :=
  s.fetchPieces key a (s.spanPieces a (xwSpan x) (xwOff x) n) n (xwSpan x) (xwOff x) 0

/-- Start a fetch that is not made at once, or move it on. -/
def State.fetchStart (s : State) (key : Nat) (a : Actor) (x n : Nat) : State :=
  let ps := s.spanPieces a (xwSpan x) (xwOff x) n
  if a.readsNow ps then s
  else match mget 0 s.polls key with
    | 0 => (s.fetchLaunch key a ps n (xwSpan x) (xwOff x) 0).1
    | t + 1 => s.advance t

/-- A fetch can be completed. -/
def State.fetchReady (s : State) (key : Nat) (a : Actor) (x n : Nat) : Bool :=
  a.readsNow (s.spanPieces a (xwSpan x) (xwOff x) n) ||
    (match mget 0 s.polls key with | 0 => false | t + 1 => s.finishable t)

/-- Add 1 at an address-register word for the request of a ring (R226, R394): a remote one by an ATOMIC. [log 47: DEDUCED] -/
def State.addDone (s : State) (a : Actor) (ring x : Nat) : State :=
  match s.spanPieces a (xwSpan x) (xwOff x) 8 with
  | [(_, pc)] =>
    if pc.rem then s.owe a.part pc.addr 1 8 ring 2
    else (((s.presentFor a false pc.addr 8).presentFor a true pc.addr 8).atomicMem a.unit pc.addr false 1 0).1
  | _ => s

/-- Write parts (offset, length) of the result of a ring's request at an address-register word, then add 1 at DONE. A result that goes to remote memory is
stored first, and DONE follows its answers. resOk and doneOk tell whether the addresses passed their span checks. [log 47: DEDUCED] -/
def State.unitResult (s : State) (a : Actor) (ring x done : Nat) (resOk doneOk : Bool) (v : Nat) (parts : List (Nat × Nat)) : State :=
  let fin := fun (s : State) => if doneOk then s.addDone a ring done else s
  if resOk = false then fin s
  else
    let ps := parts.flatMap (fun q => (s.spanPieces a (xwSpan x) (xwOff x + q.1) q.2).map (fun r => (q.1 + r.1, r.2)))
    let s := ps.foldl (fun s q => if q.2.rem then s else (s.presentFor a true q.2.addr q.2.len).writeMem a.unit q.2.addr q.2.len (v / 256 ^ q.1) (ones q.2.len) 0) s
    if ps.all (fun q => !q.2.rem) then fin s
    else
      let n := parts.foldl (fun n q => max n (q.1 + q.2)) 0
      let r := s.newXfer { kind := .unitOut a.unit (if doneOk then done else 2 ^ 64) ring, part := a.part, unit := a.unit, dst := remoteOf ps, len := n, buf := cellsOf 0 v n,
                           stored := true, span := xwSpan x, off := xwOff x }
      r.1.advance r.2

/-- A remote result is stored and answered: DONE follows, unless its address failed its check (2^64). -/
def State.unitOutDone (s : State) (x : Nat) : State :=
  let t := s.xfer x
  match t.kind with
  | .unitOut unit done ring =>
    if s.finishable x = false then s
    else if done < 2 ^ 64 then (s.endXfer x).addDone (deviceActor t.part unit) ring done
    else s.endXfer x
  | _ => s


end Sys2Proof.Machine
end

