-- ==== Sys2Proof/Machine/Slots.lean ====
section
/-!
DEFINITION. Sys2Proof/Machine/Slots.lean: the slot table, the KV slot table and the shadow tallies in hub SRAM, committed tallies,
and the sampling instructions TPEN, TOPK and TINC (07_serving_engine.md, R240, R251 to R253; 06_attention_and_kv.md, R197 and R210).
-/
namespace Sys2Proof.Machine

open Sys2Proof (CtxId Fields)

/-- Record of request slot n (R240, Table 8.3). [log 11: DEDUCED] -/
def reqSlotAddr (n : Nat) : Nat := hubBase + 128 * n
/-- KV descriptor of slot n. [log 11: DEDUCED] -/
def kvAddr (n : Nat) : Nat := hubBase + 0x200000 + 64 * n
/-- Shadow tally of slot n: 64 entries of 4 B. -/
def shadowAddr (n : Nat) : Nat := hubBase + 0x400000 + 256 * n

/-- 64-bit word i of a record held as one number. -/
def wordOf (r i : Nat) : Nat := r / 2 ^ (64 * i) % 2 ^ 64

/-- A record in hub SRAM as a device unit reads it: its value and its poisoned granules. -/
def State.hubRead (s : State) (unit a n : Nat) : State × Data := s.readMem (unitHub unit) a n

/-- Word i of slot n's record, as it stands. [log 11: DEDUCED] -/
def State.slotW (s : State) (n i : Nat) : Nat := cellsRead s.mem.cells (reqSlotAddr n + 8 * i) 8
/-- Word i of slot n's KV descriptor, as it stands. [log 11: DEDUCED] -/
def State.kvW (s : State) (n i : Nat) : Nat := cellsRead s.mem.cells (kvAddr n + 8 * i) 8
def State.putSlotW (s : State) (n i w : Nat) : State := s.putWord (reqSlotAddr n + 8 * i) w
def State.putKvW (s : State) (n i w : Nat) : State := s.putWord (kvAddr n + 8 * i) w

-- ===== Fields of a slot record (Table 7.2) =====

/-- Slot states (Table 7.6). -/
def slFree : Nat := 0
def slQueued : Nat := 1
def slPrefill : Nat := 2
def slDecode : Nat := 3
def slParked : Nat := 4
def slRemote : Nat := 5
def slClosing : Nat := 6
def slCancelling : Nat := 7

def State.slState (s : State) (n : Nat) : Nat := bits (s.slotW n 0) 63 60
def State.setSlState (s : State) (n st : Nat) : State := s.putSlotW n 0 (setBits (s.slotW n 0) 60 4 st)
def State.slLast (s : State) (n : Nat) : Nat := bits (s.slotW n 0) 23 20
def State.slWork (s : State) (n : Nat) : Bool := bit (s.slotW n 0) 35
def State.slGen (s : State) (n : Nat) : Nat := s.slotW n 1 % 2 ^ 31
def State.slSeq (s : State) (n : Nat) : Nat := s.slotW n 1 / 2 ^ 32
def State.slGenerated (s : State) (n : Nat) : Nat := s.slotW n 6 % 2 ^ 32
def State.setGenerated (s : State) (n g : Nat) : State := s.putSlotW n 6 (setBits (s.slotW n 6) 0 32 g)
def State.slSub (s : State) (n : Nat) : Nat := bits (s.slotW n 0) 47 36
def State.slPartField (s : State) (n : Nat) : Nat := bits (s.slotW n 0) 26 24

-- ===== Fields of a KV descriptor (Table 6.1) =====

def kvFree : Nat := 0
def kvReceiving : Nat := 1
def kvActive : Nat := 2
def kvDraining : Nat := 3

def State.kvState (s : State) (n : Nat) : Nat := bits (s.kvW n 0) 63 62
def State.setKvState (s : State) (n st : Nat) : State := s.putKvW n 0 (setBits (s.kvW n 0) 62 2 st)
def State.kvOwner (s : State) (n : Nat) : Nat := bits (s.kvW n 0) 58 56
def State.kvPart (s : State) (n : Nat) : Nat := bits (s.kvW n 0) 39 37
def State.kvLayers (s : State) (n : Nat) : Nat := bits (s.kvW n 0) 55 48 + 1
def State.kvEB (s : State) (n : Nat) : Nat := 64 * (bits (s.kvW n 0) 47 40 + 1)
def State.kvCommitted (s : State) (n : Nat) : Nat := s.kvW n 0 % 2 ^ 32
def State.kvAdmitted (s : State) (n : Nat) : Nat := s.kvW n 1 / 2 ^ 32
/-- The readable limit L (R199). -/
def State.kvL (s : State) (n : Nat) : Nat := s.kvCommitted n + s.kvAdmitted n
def State.kvShadow (s : State) (n : Nat) : Nat := bits (s.kvW n 1) 31 24
def State.kvHanded (s : State) (n : Nat) : Nat := s.kvW n 1 % 2 ^ 9
def State.kvLayersIn (s : State) (n : Nat) : Nat := s.kvW n 5 % 2 ^ 32
def State.kvClosed (s : State) (n : Nat) : Nat := s.kvW n 5 / 2 ^ 32

/-- CT of a length class (Table 6.2). -/
def classCT (c : Nat) : Nat := if c = 0 then 8192 else if c = 1 then 32768 else if c = 2 then 131072 else 1048576
def State.kvCT (s : State) (n : Nat) : Nat := classCT (bits (s.kvW n 0) 61 60)

/-- Append a token to the shadow tally of a slot (R210). -/
def State.shadowPush (s : State) (n v : Nat) : State :=
  let k := s.kvShadow n
  (s.writeMem (unitHub 1) (shadowAddr n + 4 * k) 4 v 15 0).putKvW n 1 (setBits (s.kvW n 1) 24 8 (k + 1))

-- ===== Committed tallies (R251) =====

/-- The home index of token v in a level of 2^k entries. -/
def tallyHome (v k : Nat) : Nat := v * 0x9E3779B1 % 2 ^ 32 / 2 ^ (32 - k)

/-- Where entry i of a tally whose address register is x lies, when the partition has the rights there and the memory is local. [log 25: DEDUCED] -/
def State.tallyAddr (s : State) (a : Actor) (need x i : Nat) : Option Nat :=
  let n := x / 2 ^ 40 % 64
  let o : Nat := x % 2 ^ 40 + 8 * i
  if (s.spanCheck a n (o : Int) 8 need).isSome ∨ s.spanKind a.part n = 3 then none else some (s.spanAddr a n o)

/-- What a search of the probed entries finds, each entry taken on its bits as delivered (R96): the entry, the first unused one, and whether a
probed entry was poisoned. -/
structure TallyHit where
  found : Option (Nat × Nat) := none
  unused : Option Nat := none
  poison : Bool := false
deriving DecidableEq, Repr

/-- Search n entries from index h of a level of 2^k entries. -/
def State.tallyProbe (s : State) (a : Actor) (need x v k h : Nat) (q : TallyHit) : Nat → Nat → State × TallyHit
  | 0, _ => (s, q)
  | n + 1, i =>
    match s.tallyAddr a need x ((h + i) % 2 ^ k) with
    | none => (s, q)
    | some ad =>
      let r := (s.presentFor a false ad 8).readMem a.unit ad 8
      let w := r.2.v
      let q := { q with poison := q.poison || decide (r.2.p ≠ 0) }
      if w.testBit 63 && decide (bits w 55 32 = v) then (r.1, { q with found := some (ad, w) })
      else
        let q := if w.testBit 63 || q.unused.isSome then q else { q with unused := some ad }
        State.tallyProbe r.1 a need x v k h q n (i + 1)

/-- Search both levels of a slot's tally for token v: level 1, then level 2 when it has one (TALLY2_LOG2 at least 12). [log 25: DEDUCED] -/
def State.tallyFind (s : State) (a : Actor) (need slot v : Nat) : State × TallyHit :=
  let r := s.tallyProbe a need (s.slotW slot 12) v 12 (tallyHome v 12) {} 16 0
  if r.2.found.isSome then r
  else
    let k := bits (s.slotW slot 9) 19 15
    if k < 12 ∨ 24 < k then r else r.1.tallyProbe a need (s.slotW slot 13) v k (tallyHome v k) r.2 64 0

/-- Add 1 to a slot's committed count of token v (R251). An increment without an entry, or that meets a poisoned entry, is lost. -/
def State.tallyInc (s : State) (a : Actor) (slot v : Nat) : State :=
  let r := s.tallyFind a (rRead + rWrite) slot v
  if r.2.poison then (r.1.count F.SRV_TALLY_LOST_COUNT 0 0 1).log (srcHub 1) Ev.TALLY_POISON [] (some a.part) (some (unitHub 1))
  else match r.2.found, r.2.unused with
    | some (ad, w), _ => (r.1.presentFor a true ad 8).writeMem a.unit ad 8 (if w % 2 ^ 16 = 0xFFFF then w else w + 1) 255 0
    | none, some ad => (r.1.presentFor a true ad 8).writeMem a.unit ad 8 (2 ^ 63 + 2 ^ 32 * v + 1) 255 0
    | none, none =>
      let s := r.1.count F.SRV_TALLY_LOST_COUNT 0 0 1
      if (mget {} s.serve.slots slot).tallyFull then s
      else { (s.log (srcHub 1) Ev.TALLY_FULL [slot] (some a.part) (some (unitHub 1))) with
               serve := { s.serve with slots := mupd {} s.serve.slots slot (fun x => { x with tallyFull := true }) } }

-- ===== TINC, TPEN and TOPK (Table 3.12) =====

/-- A slot operand names bits [13:0]. [log 24: DEDUCED] -/
def State.slotArg (s : State) (u : CtxId) (r : Nat) : Nat := s.sv u r % 2 ^ 14

/-- TINC (R132, R210, R251). [log 24: DEDUCED; 30: DESIGN CHOICE] -/
def execTinc (u : CtxId) (f : Fields) (s : State) : Answer :=
  .next (s.run u f 0xA3 (f.zeroBut false true false false false true true false false && f.a16 && f.b16 && decide (f.modN < 2))
    (fun s =>
      let v := s.sv u f.B
      [when (s.sp u f.A || s.sp u f.B) 3,
       when (decide (2 ^ 24 ≤ v) || (decide (f.modN = 1) && decide (64 ≤ s.kvShadow (s.slotArg u f.A)))) 8 v,
       when (!s.ownsSlot (s.partOf u) (s.slotArg u f.A)) 9 (s.sv u f.A)])
    (fun s =>
      let n := s.slotArg u f.A
      if f.modN = 0 ∧ s.owes (ctxStream u) = true then s.waits u .credit
      else
        let s := s.stepItem (s.partOf u) (pairHash (2 ^ 32 * n + s.sv u f.B) 0 0 0 0)
        (if f.modN = 1 then s.shadowPush n (s.sv u f.B) else s.tallyInc (s.actor u) n (s.sv u f.B)).done u))

/-- The penalised logit of R252 and its flags. -/
def penalise (x c rep freq pres : Nat) : Nat × VFlags :=
  if c = 0 then (x, {}) else
    let ge := match d32 x with
      | .nan => false
      | _ => decide (rank32 0 ≤ rank32 x)
    let q := vrecip rep
    let y := if ge then f32Mul x q.1 else f32Mul x rep
    let y := if ge then (y.1, q.2.or y.2) else y
    let g := f32Mul freq (roundF32 (c : Int) 0).1
    let z := f32Sub y.1 g.1
    let w := f32Sub z.1 pres
    (w.1, ((y.2.or g.2).or z.2).or w.2)

/-- TPEN (R252). [log 24: DEDUCED; 30: DESIGN CHOICE] -/
def execTpen (u : CtxId) (f : Fields) (s : State) : Answer :=
  .next (s.run u f 0xA0 (f.zeroBut false false false false true true true false false && f.a16 && f.b16)
    (fun s =>
      let v := s.sv u f.A
      [when (s.sp u f.A || s.sp u f.B) 3, when (decide (2 ^ 24 < v + 16)) 8 v,
       when (!s.ownsSlot (s.partOf u) (s.slotArg u f.B)) 9 (s.sv u f.B)])
    (fun s => s.onTiles u [f.D] (fun s =>
      if s.owes (ctxStream u) = true then s.waits u .credit else
      let n := s.slotArg u f.B
      let v := s.sv u f.A
      let a := s.actor u
      let t := s.tile u f.D
      let q := (List.range 16).foldl (fun (q : State × List (Nat × VFlags × Bool)) i =>
        let r := q.1.tallyFind a rRead n (v + i)
        let c := r.2.found.elim 0 (fun q => q.2 % 2 ^ 16)
        let x := penalise (t.field (32 * i) 32) c (s.slotW n 8 / 2 ^ 32) (s.slotW n 8 % 2 ^ 32) (s.slotW n 9 / 2 ^ 32)
        (r.1, q.2 ++ [(x.1, x.2, r.2.poison)])) (s, [])
      let out := (List.range 16).foldl (fun d i => d + (q.2.getD i (0, {}, false)).1 * 2 ^ (32 * i)) 0
      let bad := fun (h : Nat) => (List.range 8).any (fun i => (q.2.getD (8 * h + i) (0, {}, false)).2.2)
      let fl := q.2.foldl (fun x y => x.or y.2.1) ({} : VFlags)
      ((q.1.putTile u f.D out (t.pLo || bad 0) (t.pHi || bad 1)).setFlags u false false fl.cnv fl.inv).done u)))

/-- An entry of a TOPK list: logit, token and whether a poisoned half or granule gave it. -/
structure TopEntry where
  logit : Nat := 0
  token : Nat := 0
  poison : Bool := false
deriving DecidableEq, Repr

/-- The order of R134: logit descending, NaN below −∞, ties by the lower token. -/
def TopEntry.before (a b : TopEntry) : Bool :=
  let key := fun c => if isNaN32 c then -(2 ^ 40 : Int) else rank32 c
  decide (key b.logit < key a.logit) || (decide (key a.logit = key b.logit) && decide (a.token < b.token))

/-- Insert an entry in order. -/
def topInsert (l : List TopEntry) (e : TopEntry) : List TopEntry :=
  match l with
  | [] => [e]
  | x :: r => if e.before x then e :: x :: r else x :: topInsert r e

/-- The pieces of a TOPK list. -/
def State.topkPieces (s : State) (u : CtxId) (f : Fields) : List (Nat × Piece) :=
  s.spanPieces (s.actor u) (s.xSpan u f.D) (s.xOff u f.D) (8 * f.immN)

/-- TOPK's list is in hand: the enabled candidates are merged and the k best written back (R134). Poison stays with the candidate:
the granules of the entries that a poisoned candidate occupies are marked. -/
def State.finishTopk (s : State) (u : CtxId) (f : Fields) (ft : FirstTurn) (d : Data) : State :=
  let k := f.immN
  let t := ft.tile
  let e := ft.mask
  let sh := if localNow (s.topkPieces u f) then s.xOff u f.D % 32 else 0
  let old := (List.range k).map (fun i =>
    ({ logit := d.v / 2 ^ (64 * i + 32) % 2 ^ 32, token := d.v / 2 ^ (64 * i) % 2 ^ 24, poison := d.p.testBit ((sh + 8 * i) / 32) } : TopEntry))
  let new := ((List.range 16).filter (fun i => e.testBit i)).map (fun i =>
    ({ logit := t.field (32 * i) 32, token := (s.sv u f.B + i) % 2 ^ 24, poison := t.pField (32 * i) 32 } : TopEntry))
  let l := ((new.foldl topInsert (old.foldl topInsert []))).take k
  let v := (List.range k).foldl (fun w i =>
    let x := l.getD i {}
    w + (2 ^ 32 * x.logit + x.token) * 2 ^ (64 * i)) 0
  let p := bitField ((sh + 8 * k + 31) / 32) (fun g =>
    (List.range k).any (fun i => decide ((sh + 8 * i) / 32 = g) && (l.getD i {}).poison))
  let nan := new.any (fun x => isNaN32 x.logit)
  s.store u (s.xSpan u f.D) (s.topkPieces u f) v (ones (8 * k)) p (fun s => (s.setFlags u false false false nan).done u)

/-- TOPK. The list is read and written; remote lists complete with LOAD_DATA_RETURN. [log 26: DEDUCED] -/
def execTopk (u : CtxId) (f : Fields) (s : State) : Answer :=
  .next (s.run u f 0xA1 (f.zeroBut false false true false true true true false true && f.d16 && f.b16 && decide (1 ≤ f.immN) &&
      decide (f.immN ≤ 64))
    (fun s => [when ((s.X u f.D).p || s.sp u f.B) 3,
               s.accessFault (s.actor u) (s.xSpan u f.D) (s.xOff u f.D : Int) (8 * f.immN) 8 rWrite])
    (fun s => s.onTiles u [f.A] (fun s =>
      if s.maskE u f % 2 ^ 16 = 0 then s.done u else
      let t := s.firstTurn u f f.A 0
      s.load u (Fields.word f 0xA1) (s.xSpan u f.D) (s.topkPieces u f) (8 * f.immN) (fun s d => s.finishTopk u f t d) t)))

end Sys2Proof.Machine
end

