-- ==== Sys2Proof/Machine/TransitOps.lean ====
section
/-!
DEFINITION. Sys2Proof/Machine/TransitOps.lean: transit descriptors, queues and the state word of an entry (09_transit_and_scheduling.md, R299
to R313).
-/
namespace Sys2Proof.Machine

-- ===== Descriptors (Table 9.3) =====

def tdKind (d : Nat) : Nat := bits d 63 60
def tdCodec (d : Nat) : Nat := bits d 59 58
def tdClass (d : Nat) : Nat := bits d 57 56
def tdOrder (d : Nat) : Bool := bit d 55
def tdMode (d : Nat) : Nat := bits d 54 53
def tdSrcG (d : Nat) : Bool := bit d 52
def tdDstG (d : Nat) : Bool := bit d 51
def tdService (d : Nat) : Nat := bits d 50 43
def tdSub (d : Nat) : Nat := bits d 42 31
def tdLen (d : Nat) : Nat := bits d 20 0
def tdSrc (d : Nat) : Nat := wordOf d 1
def tdDst (d : Nat) : Nat := wordOf d 2
def tdRef (d : Nat) : Nat := wordOf d 3
def tdCmpl (d : Nat) : Nat := wordOf d 4
def tdStart (d : Nat) : Nat := bits (wordOf d 6) 20 0

def trnOk : Nat := 0x00
def trnBadDesc : Nat := 0x01
def trnBadOwner : Nat := 0x02
def trnQueueInvalid : Nat := 0x03
def trnQueueFull : Nat := 0x04
def trnFlashAlign : Nat := 0x08
def trnPoliced : Nat := 0x10
def trnAborted : Nat := 0x11
def trnRemoteRefused : Nat := 0x20
def trnTargetDead : Nat := 0x21
def trnIncomplete : Nat := 0x22
def trnFlashFull : Nat := 0x23
def trnCodecDamage : Nat := 0x24

/-- The unit that transit work acts as. -/
def trnUnit : Nat := unitHub 0
/-- The transit engine of a partition as an actor. -/
def trnActor (p : Nat) : Actor := { part := p, transit := true, unit := trnUnit }

/-- Reserved codes, nonzero reserved fields, lengths and alignments of a descriptor (Table 9.4, order 3). [log 53: DEDUCED] -/
def tdBad (d : Nat) : Bool :=
  let n := tdLen d
  let offS := tdSrc d % 2 ^ 40
  let offD := tdDst d % 2 ^ 40
  decide (tdKind d ≠ 1) || decide (tdCodec d = 3) || decide (tdMode d = 3) || decide (bits d 30 21 ≠ 0) ||
  (!tdSrcG d && decide (tdSrc d / 2 ^ 46 ≠ 0)) || (!tdDstG d && decide (tdDst d / 2 ^ 46 ≠ 0)) || decide (tdRef d / 2 ^ 46 ≠ 0) ||
  decide (tdCmpl d / 2 ^ 46 ≠ 0) || decide (wordOf d 6 / 2 ^ 21 ≠ 0) || decide (wordOf d 7 ≠ 0) || decide (n = 0) || decide (1048576 < n) || decide (n ≤ tdStart d) ||
  (tdSrcG d && tdDstG d) || (decide (tdCodec d ≠ 0) && (tdSrcG d || !tdDstG d)) ||
  (decide (tdCodec d ≠ 0) && (decide (offS % 4096 ≠ 0) || decide (offD % 4096 ≠ 0) || decide (tdStart d % 64 ≠ 0))) ||
  (decide (tdCodec d = 1) && decide (tdRef d = 0)) || (decide (tdCodec d ≠ 1) && decide (tdRef d ≠ 0)) ||
  (decide (tdMode d = 0) && decide (tdCmpl d ≠ 0)) || decide (offS % 64 ≠ 0) || decide (offD % 64 ≠ 0) ||
  (decide (tdCodec d = 1) && decide (tdRef d % 64 ≠ 0)) || (decide (tdMode d = 1) && decide (tdCmpl d % 32 ≠ 0)) ||
  (decide (tdMode d = 2) && decide (tdCmpl d % 8 ≠ 0))

/-- The span check of the bytes [o, o + n) at a local address of a descriptor: the code when it fails. -/
def State.tdSpan (s : State) (p x o n need : Nat) (transit : Bool) : Option Nat :=
  s.spanCheck { trnActor p with transit := transit } (x / 2 ^ 40 % 64) ((x % 2 ^ 40 + o : Nat) : Int) n need

/-- The first span code of a descriptor over the units [a, b) (R304, R306). -/
def State.tdSpans (s : State) (p d a b : Nat) : Option Nat :=
  let o := 64 * a
  let n := 64 * (b - a)
  let src := if tdSrcG d then none else s.tdSpan p (tdSrc d) o n rRead true
  let dst := if tdDstG d then none else s.tdSpan p (tdDst d) o n rWrite true
  let ref := if tdCodec d = 1 then s.tdSpan p (tdRef d) o n rRead true else none
  src.or (dst.or ref)

/-- The completion target passes its check (R301, R312). -/
def State.cmplCode (s : State) (p d : Nat) : Option Nat :=
  match tdMode d with
  | 1 => s.tdSpan p (tdCmpl d) 0 32 rWrite false
  | 2 => s.tdSpan p (tdCmpl d) 0 8 rAtomic false
  | _ => none

/-- The destination lies in the flash tier. -/
def State.tdToFlash (s : State) (p d : Nat) : Bool := !tdDstG d && decide (s.spanTier p (tdDst d / 2 ^ 40 % 64) = .flash)

/-- Submission checks 3 to 6 of Table 9.4. [log 53: DEDUCED] -/
def State.tdCheck (s : State) (p d : Nat) : Nat :=
  if tdBad d then trnBadDesc
  else if bit (s.f F.TRN_SUB_CFG_PART_MASK (tdSub d) 0) p = false ∨ s.f F.SRV_SERVICE_PARTITION (tdService d) 0 ≠ p then trnBadOwner
  else match s.tdSpans p d (tdStart d) (tdLen d) with
    | some c => c
    | none => match s.cmplCode p d with
      | some c => c
      | none =>
        if s.tdToFlash p d && (decide (tdDst d % 65536 ≠ 0) || decide (tdStart d % 1024 ≠ 0) || decide (tdLen d % 1024 ≠ 0)) then trnFlashAlign
        else 0

-- ===== Queues (R299, R300) =====

def State.qLog (s : State) (p q : Nat) : Nat := s.f F.TRN_QUEUE_CFG_LOG2_DEPTH p q
/-- The queue is enabled. -/
def State.qOn (s : State) (p q : Nat) : Bool :=
  s.fb F.TRN_QUEUE_CFG_ENABLE p q && decide (4 ≤ s.qLog p q) && decide (s.qLog p q ≤ 12)
def State.qHead (s : State) (p q : Nat) : Nat := s.f F.TRN_QUEUE_PTR_HEAD p q
def State.qTail (s : State) (p q : Nat) : Nat := s.f F.TRN_QUEUE_PTR_TAIL p q
/-- The queue is full. -/
def State.qFull (s : State) (p q : Nat) : Bool := decide ((s.qTail p q + 2 ^ 32 - s.qHead p q) % 2 ^ 32 = 2 ^ s.qLog p q)

/-- Address of the ring entry of a sequence number. -/
def State.qEntry (s : State) (p q seq : Nat) : Nat :=
  poolBase + 65536 * s.f F.MEM_HUB_RANGE_FIRST p 0 + s.f F.TRN_QUEUE_CFG_BASE p q * 64 + 64 * (seq % 2 ^ s.qLog p q)

def State.setTrn (s : State) (f : Transit → Transit) : State := { s with trn := f s.trn }

def TrnEntry.is (e : TrnEntry) (p q seq : Nat) : Bool := decide (e.part = p) && decide (e.queue = q) && decide (e.seq = seq)

/-- The entry of a triple. -/
def State.entry (s : State) (p q seq : Nat) : Option TrnEntry := s.trn.entries.find? (fun e => e.is p q seq)

/-- Replace an entry, and keep STATE and PROGRESS of its ring copy current (R311). -/
def State.setEntry (s : State) (e : TrnEntry) : State :=
  let s := s.setTrn (fun t => { t with entries := t.entries.map (fun x => if x.is e.part e.queue e.seq then e else x) })
  s.putWord (s.qEntry e.part e.queue e.seq + 56) (2 ^ 61 * e.st + e.progress)

/-- The completion write of an entry is on its way (R312). -/
def State.cmplWaits (s : State) (e : TrnEntry) : Bool :=
  s.trn.cmpls.any (fun c => c.entry && decide (c.part = e.part) && decide (c.queue = e.queue) && decide (c.seq = e.seq))

/-- Retire DONE entries from the head of a queue on (R300), once their completion has been served (R312). -/
def State.retire : Nat → State → Nat → Nat → State
  | 0, s, _, _ => s
  | fuel + 1, s, p, q =>
    match s.entry p q (s.qHead p q) with
    | none => s
    | some e =>
      if e.st = 4 ∧ s.cmplWaits e = false then
        let s := s.setTrn (fun t => { t with entries := t.entries.filter (fun x => !x.is p q e.seq) })
        State.retire fuel (s.setF F.TRN_QUEUE_PTR_HEAD p q ((e.seq + 1) % 2 ^ 32)) p q
      else s

/-- The completion record of Table 9.7. -/
def cmplRecord (p q seq code tag sent progress time : Nat) : Nat :=
  2 ^ 56 * code + 2 ^ 53 * q + 2 ^ 50 * p + seq + 2 ^ 64 * tag + (min sent (2 ^ 32 - 1) * 2 ^ 32 + progress) * 2 ^ 128 + 2 ^ 192 * time

/-- A completion target fails its write (R312). -/
def State.cmplLost (s : State) (p q seq addr : Nat) : State := s.log (srcHub 0) Ev.TRN_CMPL_LOST [q, seq, addr] (some p) (some trnUnit)

/-- A completion record or count goes to another node: it is lost when it is refused, dead, or meets a poisoned count. -/
def State.oweCmpl (s : State) (p q seq addr v len : Nat) (entry : Bool) (gaddr : Nat) : State :=
  let n := s.trn.nextCmpl
  (s.setTrn (fun t => { t with cmpls := t.cmpls ++ [{ num := n, part := p, queue := q, seq := seq, addr := addr, entry := entry }],
                               nextCmpl := n + 1 })).owe p gaddr v len n (if len = 32 then 4 else 5)

/-- Write a record or add to a count word at CMPL; a target that fails its check or its write is dropped (R312). entry tells whether the
completion is an entry's. -/
def State.cmplWrite (s : State) (p q seq d code sent progress : Nat) (entry : Bool) : State :=
  if tdMode d = 0 ∨ tdMode d = 3 then s
  else if (s.cmplCode p d).isSome then s.cmplLost p q seq (tdCmpl d)
  else
    let a := trnActor p
    let n := if tdMode d = 1 then 32 else 8
    let v := if tdMode d = 1 then cmplRecord p q seq code (wordOf d 5) sent progress s.time else if code = 0 then 1 else 2 ^ 32
    match s.spanPieces a (tdCmpl d / 2 ^ 40 % 64) (tdCmpl d % 2 ^ 40) n with
    | [(_, pc)] =>
      if pc.rem then s.oweCmpl p q seq (tdCmpl d) v n entry pc.addr
      else if tdMode d = 1 then s.writeAll trnUnit pc.addr 32 { v := v, p := 0 }
      else
        let r := s.atomicMem trnUnit pc.addr false v 0
        if r.2.p = 0 then r.1 else r.1.cmplLost p q seq (tdCmpl d)
    | _ => s

/-- The TRIG's arrival flag counts down. -/
def State.trnFlag (s : State) (flag : Option (Nat × Nat)) : State :=
  match flag with
  | none => s
  | some (u, n) => s.setCtx (ctxOfKey u) (fun c => c.setAF n (c.AF n - 1))

/-- A handoff's descriptor has completed (R215): the last one of a layer in which one failed ends the layer's handoff. -/
def State.handDone (s : State) (hand : Option (Nat × Nat)) (ok : Bool) : State :=
  match hand with
  | none => s
  | some (slot, layer) =>
    let up := fun (h : KvHand) => if h.slot = slot ∧ h.layer = layer then { h with left := h.left - 1, failed := h.failed || !ok } else h
    let hands := (s.kv.hands.map up).filter (fun h => !(h.submitted && h.failed && decide (h.left = 0)))
    { s with kv := { s.kv with hands := hands } }

/-- What follows the record or count of a completion (R312): the arrival flag, and retirement. -/
def State.cmplTail (s : State) (e : TrnEntry) : State :=
  ((s.trnFlag e.flag).handDone e.hand (decide (e.code = 0))).retire 4096 e.part e.queue

/-- Completion on entry to DONE (R312), in order: a record or count that goes to another node is answered before the rest is served. -/
def State.complete (s : State) (e : TrnEntry) (code : Nat) : State :=
  let e := { e with st := 4, code := code }
  let s := s.setEntry e
  let s := if e.hand.isSome then s else s.cmplWrite e.part e.queue e.seq e.desc code e.sent e.progress true
  if s.cmplWaits e then s else s.cmplTail e

/-- The write of completion num at another node has ended. -/
def State.cmplDone (s : State) (num : Nat) (ok : Bool) : State :=
  match s.trn.cmpls.find? (fun c => decide (c.num = num)) with
  | none => s
  | some c =>
    let s := s.setTrn (fun t => { t with cmpls := t.cmpls.filter (fun x => decide (x.num ≠ num)) })
    let s := if ok then s else s.cmplLost c.part c.queue c.seq c.addr
    match c.entry, s.entry c.part c.queue c.seq with
    | true, some e => s.cmplTail e
    | _, _ => s

/-- Accept an issuer's descriptor into a queue; a nonzero code completes its entry at once (R300, R304). -/
def State.enqueue (s : State) (p q d code issuer : Nat) (flag hand : Option (Nat × Nat)) : State :=
  let n := s.qTail p q
  let c := mget 0 s.trn.counts issuer + 1
  let e : TrnEntry := { part := p, queue := q, seq := n, desc := d, next := tdStart d, progress := tdStart d, flag := flag, hand := hand,
                        issuer := issuer, count := c % 2 ^ 32 }
  let s := s.setTrn (fun t => { t with entries := t.entries ++ [e], counts := mput 0 t.counts issuer c })
  let s := s.setF F.TRN_QUEUE_PTR_TAIL p q ((n + 1) % 2 ^ 32)
  let s := s.writeAll trnUnit (s.qEntry p q n) 64 { v := d % 2 ^ 448, p := 0 }
  if code = 0 then s.setEntry e else s.complete e code

/-- Issuers of descriptors (Table 15.6): a context under its logical drum, a control core, the device itself. -/
def State.issuerCtx (s : State) (u : Sys2Proof.CtxId) : Nat :=
  2 ^ 19 * u.kit + (s.logical u.kit u.drum).getD u.drum * 2 ^ 11 + u.mallet * 2 ^ 3 + u.ctx
def issuerCore (c : Nat) : Nat := 2 ^ 22 + c
def issuerDevice : Nat := 2 ^ 22 + 8

-- ===== The state word (Tables 9.5 and 9.6) =====

def State.parcel (s : State) (x : Nat) : Parcel := mget {} s.trn.parcels x
def State.setParcel (s : State) (x : Nat) (k : Parcel) : State := s.setTrn (fun t => { t with parcels := mput {} t.parcels x k })

def Parcel.of (k : Parcel) (e : TrnEntry) : Bool :=
  k.live && decide (k.part = e.part) && decide (k.queue = e.queue) && decide (k.seq = e.seq)

/-- A piece of the parcel has been issued (R319). -/
def Parcel.begun (k : Parcel) : Bool := decide (k.started ≠ 0) || decide (k.drawn ≠ 0)

/-- The parcel has been issued, wholly or in part, and is not answered. -/
def Parcel.inFlight (k : Parcel) : Bool := decide (k.stage = .flight) || k.begun

-- ===== Where a parcel comes from and goes to (R305, R307, R317) =====

/-- Pieces of n bytes at offset o of a descriptor's address. -/
def State.tdPieces (s : State) (p x : Nat) (g : Bool) (o n : Nat) : List (Nat × Piece) :=
  if g then [(0, { rem := true, addr := x / 2 ^ 40 * 2 ^ 40 + (x % 2 ^ 40 + o) % 2 ^ 40, len := n })]
  else s.spanPieces (trnActor p) (xwSpan x) (xwOff x + o) n

/-- The state whose span entries a parcel goes by: one issued before an epoch switch completes under the old entry (R297). -/
def State.spansFor (s : State) (k : Parcel) : State := if k.old then { s with regs := s.cfg.old } else s

/-- Pieces of the bytes [o, o + n) of a parcel's source, and of its destination. -/
def State.srcRange (s : State) (d : Nat) (k : Parcel) (o n : Nat) : List (Nat × Piece) :=
  (s.spansFor k).tdPieces k.part (tdSrc d) (tdSrcG d) (64 * k.off + o) n
def State.dstRange (s : State) (d : Nat) (k : Parcel) (o n : Nat) : List (Nat × Piece) :=
  (s.spansFor k).tdPieces k.part (tdDst d) (tdDstG d) (64 * k.off + o) n
def State.srcPieces (s : State) (d : Nat) (k : Parcel) : List (Nat × Piece) := s.srcRange d k 0 k.len
def State.dstPieces (s : State) (d : Nat) (k : Parcel) : List (Nat × Piece) := s.dstRange d k 0 k.len

/-- Outputs: ports 0 to 17, kits from 18, the flash group, the hub. -/
def outKit (k : Nat) : Nat := 18 + k
def outFlash : Nat := 26
def outHub : Nat := 27

/-- The output of a parcel, by its first destination byte. Loopback and a target without a route take the hub's. [log 57: DESIGN CHOICE] -/
def State.outputOf (s : State) (d : Nat) (k : Parcel) : Nat :=
  match s.dstPieces d k with
  | (_, pc) :: _ =>
    if pc.rem then (match s.route (nodeOf pc.addr) with | some port => if port = portLoop then outHub else port | none => outHub)
    else if pc.inFlash then outFlash
    else if memOf pc.addr < 8 then outKit (memOf pc.addr)
    else outHub
  | [] => outHub

/-- Codec units of a partition's mask that are in service. -/
def State.codecUnits (s : State) (p : Nat) : List Nat :=
  (List.range 8).filter (fun u => bit (s.f F.CDC_PART_CFG_UNIT_MASK p 0) u && !nmem s.integ.retired (unitCodec u))

/-- A parcel at the output, or one to be coded whose partition has no unit in service (R328). -/
def State.atOutput (s : State) (k : Parcel) : Bool :=
  k.live && (decide (k.stage = .atOutput) || (decide (k.stage = .codecWait) && (s.codecUnits k.part).isEmpty))

/-- The class in force. -/
def State.classOf (s : State) (e : TrnEntry) : Nat := max (tdClass e.desc) (s.f F.TRN_QUEUE_CFG_CLASS_MIN e.part e.queue)

def drrKey (o c v : Nat) : Nat := (o * 4 + c) * 256 + v

/-- The list at an output that a waiting parcel stands in (R317). -/
def State.listOf (s : State) (k : Parcel) : Option Nat :=
  if s.atOutput k = false ∨ k.begun = true then none
  else (s.entry k.part k.queue k.seq).map (fun e => drrKey (s.outputOf e.desc k) (s.classOf e) (tdService e.desc))

/-- A service whose list has emptied loses its deficit (R317). -/
def State.settleDeficit (s : State) (key : Nat) : State :=
  if s.trn.parcels.any (fun q => decide (s.listOf q.2 = some key)) then s else s.setTrn (fun t => { t with deficit := mput 0 t.deficit key 0 })

/-- Keys of the fetches and stores that a parcel needs: 0 its source, 1 its reference, 2 its composed destination. -/
def parcelKey (x i : Nat) : Nat := 2 ^ 20 + 4 * x + i

/-- Forget a parcel: its codec unit, its output, its comparison and what it fetches are free. -/
def State.dropParcel (s : State) (x : Nat) : State :=
  let l := s.listOf (s.parcel x)
  let s := s.setTrn (fun t => { t with parcels := mdel t.parcels x, held := t.held.filter (fun h => decide (h.2 ≠ x + 1)),
                                       encoders := t.encoders.filter (fun h => decide (h.2 ≠ x + 1)) })
  let s := { s with pair := { s.pair with waiting := s.pair.waiting.filter (fun h => decide (h.parcel ≠ x + 1)) } }
  let s := [0, 1, 2].foldl (fun s i =>
    match mget 0 s.polls (parcelKey x i) with
    | 0 => s
    | f + 1 => { (if i = 2 then s.endXfer f else s.abandonXfer f) with polls := mput 0 s.polls (parcelKey x i) 0 }) s
  match l with
  | some key => s.settleDeficit key
  | none => s

/-- Issue of an entry stops: parcels not issued are discarded and formed again from the lowest of them. -/
def State.stopIssue (s : State) (e : TrnEntry) : State × TrnEntry :=
  let xs := (s.trn.parcels.filter (fun k => k.2.of e && !k.2.inFlight))
  (xs.foldl (fun s k => s.dropParcel k.1) s, { e with next := xs.foldl (fun n k => min n k.2.off) e.next })

/-- A DRAINING entry without a parcel in flight is DONE when it has a code, else SUSPENDED (Table 9.6). -/
def State.settleEntry (s : State) (e : TrnEntry) : State :=
  let s := s.setEntry e
  if e.st ≠ 2 ∨ s.trn.parcels.any (fun k => k.2.of e && k.2.inFlight) = true then s
  else if e.code ≠ 0 then s.complete e e.code
  else s.setEntry { e with st := 3 }

/-- A parcel of an entry fails with a code: the entry stops and keeps the code of the lowest offset (R310). -/
def State.failEntry (s : State) (e : TrnEntry) (off code : Nat) : State :=
  let latch := decide (e.code = 0) || decide (off < e.codeOff)
  let e := { e with st := 2, code := if latch then code else e.code, codeOff := if latch then off else e.codeOff }
  let r := s.stopIssue e
  r.1.settleEntry r.2

/-- Results of an abort (Table 9.8). -/
def abortOk : Nat := 0
def abortDone : Nat := 1
def abortAlready : Nat := 2
def abortUnknown : Nat := 3

/-- An ABORT reaches an entry's state word (R313, Table 9.6). -/
def State.abortEntry (s : State) (e : TrnEntry) : State × Nat :=
  match e.st with
  | 0 => (s.complete e trnAborted, abortOk)
  | 1 =>
    let r := s.stopIssue { e with st := 2, code := trnAborted, codeOff := 0 }
    (r.1.settleEntry r.2, abortOk)
  | 2 =>
    if e.code = 0 then (s.settleEntry { e with code := trnAborted, codeOff := 0 }, abortOk)
    else (s, if e.code = trnAborted then abortAlready else abortDone)
  | 3 => (s.complete e trnAborted, abortOk)
  | _ => (s, abortDone)

/-- The handoff entries of a slot are aborted: those that have not started, and what has not started of the others (Table 6.8, R313). -/
def State.abortHands (s : State) (slot : Nat) : State :=
  (s.trn.entries.filter (fun e => decide (e.st ≠ 4) && (match e.hand with | some h => decide (h.1 = slot) | none => false))).foldl
    (fun s e => match s.entry e.part e.queue e.seq with | some e => (s.abortEntry e).1 | none => s) s

/-- The entry, or one behind it in its queue, is to count down an arrival flag and is not done. -/
def State.flagBehind (s : State) (e : TrnEntry) : Bool :=
  (s.trn.entries.dropWhile (fun x => !x.is e.part e.queue e.seq)).any (fun x => decide (x.part = e.part) && decide (x.queue = e.queue) &&
    x.flag.isSome && decide (x.st ≠ 4))

/-- The ACTIVE entries of a pre-empted partition are suspended, but for those with an arrival flag and those ahead of them in their queue (R321).
[log 134: DESIGN CHOICE] -/
def State.suspendEntries (s : State) (p : Nat) : State :=
  (s.trn.entries.filter (fun e => decide (e.part = p) && decide (e.st = 1) && !s.flagBehind e)).foldl (fun s e =>
    let r := s.stopIssue { e with st := 2 }
    r.1.settleEntry r.2) s

/-- SUSPENDED entries of a restored partition are ACTIVE again; one whose every parcel has been acknowledged is complete. [log 134: DESIGN CHOICE] -/
def State.resumeEntries (s : State) (p : Nat) : State :=
  (s.trn.entries.filter (fun e => decide (e.part = p) && decide (e.st = 3))).foldl (fun s e =>
    if e.progress = tdLen e.desc then s.complete e 0 else s.setEntry { e with st := 1 }) s

end Sys2Proof.Machine
end

