-- ==== Sys2Proof/Machine/Kv.lean ====
section
/-!
DEFINITION. Sys2Proof/Machine/Kv.lean: KV regions, staging pages, KVRD and KVAPP, the KV commands and handoffs
(06_attention_and_kv.md, R197 to R217, R230 and R231).
-/
namespace Sys2Proof.Machine

open Sys2Proof (CtxId Fields Word)

-- ===== The selector and the region (R199, R200) =====

def selLayer (v : Nat) : Nat := bits v 39 32
def selKind (v : Nat) : Nat := bits v 31 31
def selOff (v : Nat) : Nat := 64 * bits v 23 12
/-- Bytes of a chunk of an entry of eb bytes. -/
def selLen (v eb : Nat) : Nat := if bits v 11 0 = 0 then eb - selOff v else 64 * bits v 11 0

/-- The selector is in range for a descriptor of slot n; whole asks for the whole entry (R200). -/
def State.selOk (s : State) (n v : Nat) (whole : Bool) : Bool :=
  let eb := s.kvEB n
  decide (v / 2 ^ 40 = 0) && decide (bits v 30 24 = 0) && decide (selLayer v < s.kvLayers n) && decide (selOff v < eb) &&
    decide (selOff v + selLen v eb ≤ eb) && (!whole || (decide (selOff v = 0) && decide (selLen v eb = eb)))

/-- Offset of the entry of layer l, kind k and position p past the region's base (R199). -/
def State.kvOff (s : State) (n l k p : Nat) : Nat := ((2 * l + k) * s.kvCT n + p) * s.kvEB n

/-- The region's span and offset. -/
def State.kvSpan (s : State) (n : Nat) : Nat := s.kvW n 2 / 2 ^ 40 % 64
def State.kvBase (s : State) (n : Nat) : Nat := s.kvW n 2 % 2 ^ 40

/-- Where a range of the region lies in local memory, when its span admits the access. -/
def State.kvAddr? (s : State) (n o size need : Nat) : Option Nat :=
  let a := deviceActor (s.kvPart n) (unitHub 1)
  let off := s.kvBase n + o
  if (s.spanCheck a (s.kvSpan n) (off : Int) size need).isSome ∨ s.spanKind (s.kvPart n) (s.kvSpan n) = 3 then none
  else some (s.spanAddr a (s.kvSpan n) off)

/-- The descriptor of slot n holds poison: KV_POISON is logged where it is consumed (Table 14.3). -/
def State.kvPoisoned (s : State) (n : Nat) : Bool :=
  nmem s.mem.poison (kvAddr n / 32) || nmem s.mem.poison (kvAddr n / 32 + 1)

-- ===== The staging pool (R202) =====

/-- Bytes of a page entry and of a page. -/
def State.stageEntry (s : State) (k : Nat) : Nat :=
  let u := s.f F.KIT_KV_STAGE_STAGE_UNITS k 0
  64 * (if u = 0 then 256 else u)
def State.pageBytes (s : State) (k : Nat) : Nat := 128 * s.stageEntry k

/-- A pool word is one that R202 disables as invalid. -/
def stageInvalid (w : BitVec 64) : Bool :=
  let u := F.KIT_KV_STAGE_STAGE_UNITS.of w
  let d := F.KIT_KV_STAGE_DRUMS.of w
  let n := F.KIT_KV_STAGE_PAGES.of w
  (decide (d ≠ 0) && decide (n = 0)) || decide (150 < F.KIT_KV_STAGE_FIRST_DRUM.of w + d) ||
    decide (0x600000 < F.KIT_KV_STAGE_BASE.of w * 256 + n * (8192 * (if u = 0 then 256 else u)))

/-- The pool allocates pages. -/
def State.stageOn (s : State) (k : Nat) : Bool :=
  decide (s.f F.KIT_KV_STAGE_DRUMS k 0 ≠ 0) && !stageInvalid (s.rg .KIT_KV_STAGE k 0)

def State.pagesTotal (s : State) (k : Nat) : Nat :=
  if s.stageOn k then s.f F.KIT_KV_STAGE_DRUMS k 0 * s.f F.KIT_KV_STAGE_PAGES k 0 else 0

def State.page (s : State) (k g : Nat) : KvPage := mget {} (s.kit k).pages g
def State.setPage (s : State) (k g : Nat) (p : KvPage) : State := s.setKit k (fun x => { x with pages := mput {} x.pages g p })

/-- Address of entry e (64k + p mod 64) of page g, each eb bytes: page g lies on drum FIRST_DRUM + g mod DRUMS. [log 41: DESIGN CHOICE] -/
def State.pageAddr (s : State) (k g e eb : Nat) : Nat :=
  let n := s.f F.KIT_KV_STAGE_DRUMS k 0
  let d := s.phys k (s.f F.KIT_KV_STAGE_FIRST_DRUM k 0 + g % n)
  slotAddr k d (s.f F.KIT_KV_STAGE_BASE k 0 * 256 + g / n * s.pageBytes k + e * eb)

/-- The page of a slot, layer and window. -/
def State.findPage (s : State) (k slot layer w : Nat) : Option Nat :=
  ((s.kit k).pages.find? (fun q => q.2.live && decide (q.2.slot = slot) && decide (q.2.layer = layer) && decide (q.2.window = w))).map Prod.fst

/-- The lowest free page. [log 41: DESIGN CHOICE] -/
def State.freePage (s : State) (k : Nat) : Option Nat := (List.range (s.pagesTotal k)).find? (fun g => !(s.page k g).live)

/-- A page's index of position p and kind k. -/
def pageIdx (k p : Nat) : Nat := 64 * k + p % 64

/-- Where the valid entries of a page go in its slot's region: entry, address. -/
def State.pageRanges (s : State) (q : KvPage) : List (Nat × Nat) :=
  (List.range 128).filterMap (fun e =>
    if q.valid.testBit e = false then none
    else (s.kvAddr? q.slot (s.kvOff q.slot q.layer (e / 64) (64 * q.window + e % 64)) (s.kvEB q.slot) rWrite).map (fun a => (e, a)))

/-- Start the flush of the pages of kit k that a test picks, and present its HBM writes in the append unit's stream: pages with no valid
entry are freed without a write; counter counts the others. -/
def State.flushPages (s : State) (k : Nat) (counter : Fld) (pick : KvPage → Bool) : State :=
  (s.kit k).pages.foldl (fun s q =>
    if !pick q.2 || q.2.flush then s
    else if q.2.valid = 0 then s.setPage k q.1 {}
    else ((s.presentHbm (kvStream k) 0 (s.kvPart q.2.slot) true ((s.pageRanges q.2).map (fun r => (r.2, s.kvEB q.2.slot)))).setPage k q.1
      { q.2 with flush := true }).count counter k 0 1) s

/-- Drop the staged entries of a slot at positions from limit on (R208, R209). -/
def State.dropStaged (s : State) (k slot limit : Nat) : State :=
  (s.kit k).pages.foldl (fun s q =>
    if !(q.2.live && decide (q.2.slot = slot)) then s else
      let keep := bitField 128 (fun e => decide (64 * q.2.window + e % 64 < limit))
      let v := q.2.valid &&& keep
      let gone := (List.range 128).foldl (fun n e => n + b2n (q.2.valid.testBit e && !v.testBit e)) 0
      let s := s.count F.KIT_KV_DROPPED_COUNT k 0 gone
      if v = 0 then s.setPage k q.1 {} else s.setPage k q.1 { q.2 with valid := v }) s

/-- Free the pages of a slot without writing them; a RELEASE waits for those whose flush is under way (R216). -/
def State.freePages (s : State) (k slot : Nat) (flushing : Bool) : State :=
  s.setKit k (fun x => { x with pages := x.pages.filter (fun q => !decide (q.2.slot = slot) || (flushing && q.2.flush)) })

/-- KV_PAGE_FLUSH_DONE: the valid entries of a flushing page are written to the region and the page is freed (R204), once the append unit's
requests have had their credit (R412). -/
def execKvPageFlushDone (k page : Nat) (s : State) : Answer :=
  let q := s.page k page
  if q.live = false ∨ q.flush = false ∨ s.owes (kvStream k) = true ∨ s.boot.refclkLost = true then .next s
  else
    let eb := s.kvEB q.slot
    let s := (s.pageRanges q).foldl (fun s x =>
      let r := s.readMem (unitHub 1) (s.pageAddr k page x.1 eb) eb
      r.1.writeAll (unitHub 1) x.2 eb r.2) s
    .next (s.setPage k page {})

-- ===== KVAPP and KVRD (R200 to R206) =====

/-- What KVAPP and KVRD check of their slot, whose operand is S[ra]: ownership and descriptor (R132, R145, R201). -/
def State.kvConds (s : State) (u : CtxId) (ra : Nat) (app : Bool) (layer : Nat) : List (Option (Nat × Nat)) :=
  let p := s.partOf u
  let n := s.slotArg u ra
  [when (!s.ownsSlot p n || (!s.kvPoisoned n && decide (s.kvPart n ≠ p))) 9 (s.sv u ra),
   when (s.kvPoisoned n || decide (s.kvState n ≠ kvActive) || decide (s.kvOwner n ≠ u.kit) ||
     (app && decide (layer < s.kvHanded n))) 0xA (s.sv u ra)]

/-- KVAPP. Its source is checked for 64 B alignment. [log 24, 40: DEDUCED; 141: DESIGN CHOICE] -/
def execKvapp (u : CtxId) (f : Fields) (s : State) : Answer :=
  .next (s.run u f 0x91 (f.zeroBut false false false true true true true true false && f.d16 && f.a16 && f.b16 && f.c16)
    (fun s =>
      let n := s.slotArg u f.A
      let pos := s.sv u f.B
      let sel := s.sv u f.C
      let poi := (s.X u f.D).p || s.sp u f.A || s.sp u f.B || s.sp u f.C
      [when poi 3, s.accessFault (s.actor u) (s.xSpan u f.D) (s.xOff u f.D : Int) (s.kvEB n) 64 rRead,
       when (!s.selOk n sel true) 8 sel,
       when (decide (pos < s.kvCommitted n) || decide (s.kvL n ≤ pos)) 8 pos] ++ s.kvConds u f.A true (selLayer sel))
    (fun s =>
      let n := s.slotArg u f.A
      if s.flagFull u f.auxN then s.waits u .flag else
        let src := s.spanPieces (s.actor u) (s.xSpan u f.D) (s.xOff u f.D) (s.kvEB n)
        let r := (s.flushPieces u src).newXfer
          { kind := .kvapp (ctxKey u) f.auxN n (s.sv u f.C) (s.sv u f.B), part := s.partOf u, unit := unitMallet u.kit u.drum u.mallet,
            src := src, len := s.kvEB n, span := s.xSpan u f.D, off := s.xOff u f.D, stream := ctxStream u }
        ((r.1.flagUp u f.auxN).launch r.2 (some (u.kit, u.drum))).done u))

/-- The page that takes a staged append: the one of its slot, layer and window, or a free one; none for a slot or size that is not
staged (R202, R203). -/
def State.stagePage (s : State) (k slot sel pos : Nat) : Option Nat :=
  if !bit (s.kvW slot 0) 59 && decide (s.kvEB slot ≤ s.stageEntry k) && s.stageOn k then
    match s.findPage k slot (selLayer sel) (pos / 64) with
    | some g => some g
    | none => s.freePage k
  else none

/-- The kit's append unit presents the HBM write of a direct append whose source is in hand, once (R203, R407). -/
def State.askAppend (s : State) (x k slot sel pos : Nat) : State :=
  let t := s.xfer x
  if t.asked ∨ (s.stagePage k slot sel pos).isSome then s
  else match s.kvAddr? slot (s.kvOff slot (selLayer sel) (selKind sel) pos) (s.kvEB slot) rWrite with
    | some a => (s.setXfer x { t with asked := true }).presentHbm (kvStream k) (x + 1) t.part true [(a, s.kvEB slot)]
    | none => s

/-- The append of one entry lands, staged or direct (R203), and is journaled at its region address (R456). [log 30: DESIGN CHOICE] -/
def State.kvAppend (s : State) (u : CtxId) (slot sel pos : Nat) (d : Data) : State :=
  let k := u.kit
  let eb := s.kvEB slot
  let l := selLayer sel
  let kd := selKind sel
  let s := s.stepItem (s.partOf u) (pairHash (2 ^ 46 * slot + 2 ^ 38 * l + 2 ^ 37 * kd + pos) d.v eb d.p ((granules 0 eb + 63) / 64))
  let reg := s.kvAddr? slot (s.kvOff slot l kd pos) eb rWrite
  let s := match reg with
    | some a => s.journal (s.partOf u) (unitDrum k u.drum) false a eb
    | none => s
  let stageable := !bit (s.kvW slot 0) 59 && decide (eb ≤ s.stageEntry k) && s.stageOn k
  let g := match s.findPage k slot l (pos / 64) with
    | some g => some g
    | none => s.freePage k
  let unit := unitMallet k u.drum u.mallet
  match stageable, g with
  | true, some g =>
    let q := s.page k g
    let q : KvPage := if q.live then q else { slot := slot, layer := l, window := pos / 64, live := true }
    let e := pageIdx kd pos
    let s := (s.writeAll unit (s.pageAddr k g e eb) eb d).count F.KIT_KV_APPEND_STAGED_COUNT k 0 1
    let q := { q with valid := q.valid ||| 2 ^ e }
    let s := s.setPage k g q
    if q.valid = ones 128 then s.flushPages k F.KIT_KV_FLUSH_FULL_COUNT (fun x => decide (x = q)) else s
  | st, g =>
    let s := s.count F.KIT_KV_APPEND_DIRECT_COUNT k 0 1
    let s := if st && g.isNone then s.count F.KIT_KV_POOL_EMPTY_COUNT k 0 1 else s
    match reg with
    | some a => s.writeAll unit a eb d
    | none => s

/-- One entry's chunk as the merged view reads it (R206): zeros at or beyond L, the page where it holds a valid entry, else the region. -/
def State.kvRead (s : State) (u : CtxId) (slot sel pos : Nat) : State × Data :=
  let k := u.kit
  let eb := s.kvEB slot
  let len := selLen sel eb
  if s.kvL slot ≤ pos then (s, {}) else
    match s.findPage k slot (selLayer sel) (pos / 64) with
    | some g =>
      let e := pageIdx (selKind sel) pos
      if (s.page k g).valid.testBit e then s.readMem (unitHub 1) (s.pageAddr k g e eb + selOff sel) len
      else match s.kvAddr? slot (s.kvOff slot (selLayer sel) (selKind sel) pos + selOff sel) len rRead with
        | some a => s.readDrum k u.drum (unitHub 1) a len
        | none => (s, {})
    | none => match s.kvAddr? slot (s.kvOff slot (selLayer sel) (selKind sel) pos + selOff sel) len rRead with
      | some a => s.readDrum k u.drum (unitHub 1) a len
      | none => (s, {})

/-- What a KVRD of n positions reads from HBM: entries below L that no page holds. -/
def State.kvRanges (s : State) (u : CtxId) (slot sel pos n : Nat) : List (Nat × Nat) :=
  let len := selLen sel (s.kvEB slot)
  (List.range n).filterMap (fun i =>
    let p := pos + i
    let staged := match s.findPage u.kit slot (selLayer sel) (p / 64) with
      | some g => (s.page u.kit g).valid.testBit (pageIdx (selKind sel) p)
      | none => false
    if s.kvL slot ≤ p ∨ staged = true then none
    else (s.kvAddr? slot (s.kvOff slot (selLayer sel) (selKind sel) p + selOff sel) len rRead).map (fun a => (a, len)))

/-- KVRD. Its destination is checked for 64 B alignment. [log 141: DESIGN CHOICE] -/
def execKvrd (u : CtxId) (f : Fields) (s : State) : Answer :=
  .next (s.run u f 0x90 (f.zeroBut false false false true true true true true true && f.d16 && f.a16 && f.b16 && f.c16 &&
      decide (1 ≤ f.immN) && decide (f.immN ≤ 64))
    (fun s =>
      let n := s.slotArg u f.A
      let pos := s.sv u f.B
      let sel := s.sv u f.C
      let poi := (s.X u f.D).p || s.sp u f.A || s.sp u f.B || s.sp u f.C
      [when poi 3, s.accessFault (s.actor u) (s.xSpan u f.D) (s.xOff u f.D : Int) (f.immN * selLen sel (s.kvEB n)) 64 rWrite,
       when (!s.selOk n sel false) 8 sel, when (decide (s.kvCT n < pos + f.immN)) 8 pos] ++ s.kvConds u f.A false 0)
    (fun s =>
      let n := s.slotArg u f.A
      if s.flagFull u f.auxN then s.waits u .flag else
        let sel := s.sv u f.C
        let len := selLen sel (s.kvEB n)
        let q := (List.range f.immN).foldl (fun (q : State × List Host.Cell × NSet) i =>
          let r := q.1.kvRead u n sel (s.sv u f.B + i)
          (r.1, cellsWrite q.2.1 (i * len) len r.2.v, ninsMask q.2.2 (i * len / 32) r.2.p (granules 0 len))) (s, [], [])
        let dst := s.spanPieces (s.actor u) (s.xSpan u f.D) (s.xOff u f.D) (f.immN * len)
        let s := (q.1.presentHbm (ctxStream u) (q.1.nextXfer + 1) (s.partOf u) false (s.kvRanges u n sel (s.sv u f.B) f.immN)).flushPieces u dst
        let r := s.newXfer { kind := .kvrd (ctxKey u) f.auxN, part := s.partOf u, unit := unitMallet u.kit u.drum u.mallet, dst := dst,
                             len := f.immN * len, span := s.xSpan u f.D, off := s.xOff u f.D, buf := q.2.1, bufP := q.2.2,
                             stream := ctxStream u }
        ((r.1.flagUp u f.auxN).advance r.2).done u))

-- ===== Registers of the KV tables =====

/-- KV_TABLE_WRITE: words 0 to 4 of a FREE descriptor; STATE stays FREE (R197). [log 11: DEDUCED] -/
def execKvTableWrite (i slot word : Nat) (w : Word) (s : State) : Answer :=
  if s.canWrite i = false ∨ 2 ^ 14 ≤ slot ∨ 8 ≤ word then .next s
  else if s.kvState slot ≠ kvFree ∨ 5 ≤ word then .next (s.log (srcHub 1) Ev.KV_TABLE_BUSY [] none (some (unitHub 1)))
  else .next (s.putKvW slot word (if word = 0 then setBits w.toNat 62 2 0 else w.toNat))

/-- KV_STAGE_WRITE (R202). -/
def execKvStageWrite (i k : Nat) (w : Word) (s : State) : Answer :=
  if s.canWrite i = false ∨ s.kitLive k = false then .next s
  else if (s.kit k).pages ≠ [] then .next (s.log (srcKit k) Ev.KV_STAGE_BUSY [] (s.partOfKit k))
  else
    let s := s.setRg .KIT_KV_STAGE k 0 (writeFields (RegName.KIT_KV_STAGE).fields (s.rg .KIT_KV_STAGE k 0) w)
    .next (if stageInvalid (s.rg .KIT_KV_STAGE k 0) then s.log (srcKit k) Ev.KV_STAGE_INVALID [] (s.partOfKit k) else s)

-- ===== Commands (R208 to R216) =====

def kvOp (w : Nat) : Nat := bits w 63 60
def kvSlot (w : Nat) : Nat := bits w 59 46
def kvCmdPart (w : Nat) : Nat := bits w 45 43
def kvArg (w : Nat) : Nat := bits w 31 0

/-- A handoff of slot n is under way. -/
def State.kvHanding (s : State) (n : Nat) : Bool := s.kv.hands.any (fun h => decide (h.slot = n))

def State.setKv (s : State) (f : Kv → Kv) : State := { s with kv := f s.kv }

/-- Answer core c's KV command. [log 9: DEDUCED] -/
def State.kvAnswer (s : State) (c code : Nat) : State :=
  if 8 ≤ c then s else
    ((s.setF F.SRV_KV_RESULT_DONE c 0 1).setF F.SRV_KV_RESULT_HELD c 0 0).setF F.SRV_KV_RESULT_CODE c 0 code

/-- Disarm the armed HANDOFFs of a slot with KV_DISARMED. -/
def State.kvDisarm (s : State) (n : Nat) : State :=
  let hit := s.kv.armed.filter (fun a => decide (a.slot = n))
  let s := s.setKv (fun k => { k with armed := k.armed.filter (fun a => !decide (a.slot = n)) })
  hit.foldl (fun s a => s.kvAnswer a.core 5) s

/-- RESERVE on a FREE descriptor (R211, R214): the whole region is checked. -/
def State.kvReserve (s : State) (w : Nat) : State × Nat :=
  let n := kvSlot w
  let p := kvCmdPart w
  let w0 := setBits (s.kvW n 0) 37 3 p
  let size := s.kvCT n * s.kvLayers n * 2 * s.kvEB n
  let a := deviceActor p (unitHub 1)
  let sp := s.kvSpan n
  let b := s.kvBase n
  let addr := s.spanAddr a sp b
  let k := s.kvOwner n
  if s.kvCT n < kvArg w then (s, 2)
  else if b % 4096 ≠ 0 ∨ (s.spanCheck a sp (b : Int) size (rRead + rWrite)).isSome ∨ s.spanKind p sp ≠ 0 ∨
      addr < k * hbmKit ∨ (k + 1) * hbmKit < addr + size then (s, 4)
  else
    let st := if bit w 37 then kvReceiving else kvActive
    let s := s.putKvW n 0 (setBits (setBits w0 62 2 st) 0 32 (kvArg w))
    let s := (s.putKvW n 1 0).putKvW n 5 0
    (s.setKv (fun k => { k with counted := mput 0 k.counted n 0, receivers := ndel k.receivers n }), 0)

/-- COMMIT n, t (R209). -/
def State.kvCommit (s : State) (n cnt t : Nat) : State :=
  let k := s.kvOwner n
  let c := s.kvCommitted n + cnt
  let s := s.putKvW n 0 (setBits (s.kvW n 0) 0 32 c)
  let s := s.putKvW n 1 (setBits (s.kvW n 1) 32 32 0)
  let s := s.dropStaged k n c
  let a := deviceActor (s.kvPart n) (unitHub 1)
  let s := (List.range t).foldl (fun s i =>
    let r := s.readMem (unitHub 1) (shadowAddr n + 4 * i) 4
    r.1.tallyInc a n (r.2.v % 2 ^ 24)) s
  let s := s.putKvW n 1 (setBits (s.kvW n 1) 24 8 0)
  s.flushPages k F.KIT_KV_FLUSH_OTHER_COUNT (fun q => q.live && decide (q.slot = n) && decide (64 * q.window + 64 ≤ c))

/-- The slot has a destination: it is the sender of a handoff. [log 39: DEDUCED] -/
def State.kvSender (s : State) (n : Nat) : Bool := decide (s.kvW n 3 ≠ 0)

/-- Word 5 of the destination descriptor as a global fabric address (R215). [log 39: DEDUCED] -/
def State.kvDstWord (s : State) (n : Nat) : Nat :=
  s.kvW n 3 / 2 ^ 48 * 2 ^ 48 + bits (s.kvW n 4) 49 42 * 2 ^ 40 + 64 * bits (s.kvW n 4) 63 50 + 40

/-- RELEASE of an ACTIVE or RECEIVING descriptor (R214). A handoff whose descriptors were not all submitted ends with the parcels that it started,
and the sender owes its close unless every layer will have been counted when they have drained (R215, R216). -/
def State.kvRelease (s : State) (n : Nat) : State :=
  let k := s.kvOwner n
  if s.kvState n = kvReceiving then (s.setKvState n kvDraining).setKv (fun k => { k with receivers := nins k.receivers n })
  else
    let s := ((s.freePages k n true).kvDisarm n).abortHands n
    let close : KvClose := { slot := n, addr := s.kvDstWord n, part := s.kvPart n, left := s.kvLayers n - mget 0 s.kv.counted n }
    let s := s.setKv (fun q => { q with
      hands := (q.hands.filter (fun h => !(decide (h.slot = n) && !h.submitted && decide (h.left = 0)))).map (fun h =>
        if h.slot = n ∧ h.submitted = false then { h with submitted := true, failed := true } else h),
      closes := if s.kvSender n && decide (close.left ≠ 0) then q.closes ++ [close] else q.closes })
    s.setKvState n kvDraining

/-- FORCE_FREE (R214). -/
def State.kvForceFree (s : State) (n : Nat) : State :=
  let s := (((s.freePages (s.kvOwner n) n false).kvDisarm n).abortHands n).setKv (fun q =>
    { q with hands := q.hands.filter (fun h => !decide (h.slot = n)), receivers := ndel q.receivers n })
  (s.setKvState n kvFree).log (srcHub 1) Ev.KV_FORCE_FREE [] (some (s.kvPart n)) (some (unitHub 1))

/-- HANDOFF l: the layer's pages start their flush; its descriptors are submitted when the flushes are done (R215). [log 38: DEDUCED] -/
def State.kvHandoff (s : State) (n l : Nat) : State :=
  let s := s.flushPages (s.kvOwner n) F.KIT_KV_FLUSH_OTHER_COUNT (fun q => q.live && decide (q.slot = n) && decide (q.layer = l))
  s.setKv (fun k => { k with hands := k.hands ++ [{ slot := n, layer := l }] })

/-- Apply a KV command: the state after and its code (Table 6.7). Codes are tried in the order state, partition, argument. [log 37: DESIGN CHOICE] -/
def State.kvApply (s : State) (w : Nat) : State × Nat :=
  let n := kvSlot w
  let op := kvOp w
  let st := s.kvState n
  let r := s.hubRead 1 (kvAddr n) 64
  let s := r.1
  let admits := match op with
    | 1 => decide (st = kvFree)
    | 2 => decide (st = kvActive)
    | 3 => decide (st = kvActive)
    | 4 => decide (st = kvActive)
    | 5 => decide (st = kvActive)
    | 6 => decide (st = kvActive) || decide (st = kvReceiving)
    | 7 => decide (st ≠ kvFree)
    | _ => true
  if r.2.p ≠ 0 then (s.log (srcHub 1) Ev.KV_POISON [] (some (kvCmdPart w)) (some (unitHub 1)), 1)
  else if !admits then (s, 1)
  else if op ≠ 1 ∧ s.kvPart n ≠ kvCmdPart w then (s, 3)
  else match op with
    | 1 => s.kvReserve w
    | 2 =>
      let a := kvArg w
      if s.kvCT n < s.kvCommitted n + a then (s, 2)
      else ((s.putKvW n 1 (setBits (setBits (s.kvW n 1) 32 32 a) 24 8 0)).dropStaged (s.kvOwner n) n (s.kvCommitted n + a), 0)
    | 3 =>
      let cnt := bits w 24 0
      let t := bits w 31 25
      if s.kvAdmitted n < cnt ∨ s.kvShadow n < t then (s, 2) else (s.kvCommit n cnt t, 0)
    | 4 =>
      let l := kvArg w
      if l ≠ s.kvHanded n ∨ s.kvLayers n ≤ l ∨ s.kv.hands.any (fun h => decide (h.slot = n) && decide (h.layer = l)) then (s, 2)
      else (s.kvHandoff n l, 0)
    | 5 => (s.flushPages (s.kvOwner n) F.KIT_KV_FLUSH_OTHER_COUNT (fun q => q.live && decide (q.slot = n)), 0)
    | 6 => (s.kvRelease n, 0)
    | 7 => (s.kvForceFree n, 0)
    | _ => (s, 2)

/-- The partition whose step state holds a command: the descriptor's, or the issuing one for RESERVE. -/
def State.kvHolder (s : State) (w : Nat) : Nat := if kvOp w = 1 then kvCmdPart w else s.kvPart (kvSlot w)

/-- A command of core c (8: the serving engine) is applied, held, or armed (R212, R213). [log 38: DEDUCED] -/
def State.kvSubmit (s : State) (c w : Nat) : State :=
  let p := s.kvHolder w
  let q : KvWait := { core := c, word := w, part := p, slot := kvSlot w, sounds := s.sounds p (bits w 41 38) }
  if kvOp w = 4 ∧ bit w 42 = true then s.setKv (fun k => { k with armed := k.armed ++ [q] })
  else if s.stepState p ≠ stIdle ∨ s.kv.held.any (fun h => decide (h.part = p)) then
    let s := s.setKv (fun k => { k with held := k.held ++ [q] })
    if 8 ≤ c then s else s.setF F.SRV_KV_RESULT_HELD c 0 1
  else
    let r := s.kvApply w
    r.1.kvAnswer c r.2

/-- A write of SRV_KV_CMD[c] (R211). [log 37: DESIGN CHOICE] -/
def State.kvCmd (s : State) (c w : Nat) : State :=
  if 8 ≤ c ∨ s.canWrite c = false then s
  else
    let s := s.forward c .SRV_KV_CMD c 0 (BitVec.ofNat 64 w)
    if s.f F.SRV_KV_RESULT_DONE c 0 = 0 then s.setF F.SRV_KV_RESULT_OVERRUN c 0 1
    else (s.setF F.SRV_KV_RESULT_DONE c 0 0).kvSubmit c w

/-- A command row: the write of SRV_KV_CMD with that OP. [log 37: DESIGN CHOICE] -/
def State.kvRow (s : State) (op c : Nat) (w : Word) : State := if kvOp w.toNat = op then s.kvCmd c w.toNat else s

/-- RESERVE. -/
def execKvReserve (c : Nat) (w : Word) (s : State) : Answer := .next (s.kvRow 1 c w)
/-- ADMIT (R208). -/
def execKvAdmit (c : Nat) (w : Word) (s : State) : Answer := .next (s.kvRow 2 c w)
/-- COMMIT (R209). -/
def execKvCommit (c : Nat) (w : Word) (s : State) : Answer := .next (s.kvRow 3 c w)
/-- HANDOFF (R215). -/
def execKvHandoff (c : Nat) (w : Word) (s : State) : Answer := .next (s.kvRow 4 c w)
/-- FLUSH (R204). -/
def execKvFlush (c : Nat) (w : Word) (s : State) : Answer := .next (s.kvRow 5 c w)
/-- RELEASE (R214). -/
def execKvRelease (c : Nat) (w : Word) (s : State) : Answer := .next (s.kvRow 6 c w)
/-- FORCE_FREE (R214). -/
def execKvForceFree (c : Nat) (w : Word) (s : State) : Answer := .next (s.kvRow 7 c w)

/-- KV_HELD_APPLY: the oldest held command of an IDLE partition is applied (R212). -/
def execKvHeldApply (p : Nat) (s : State) : Answer :=
  match s.kv.held.find? (fun h => decide (h.part = p)) with
  | none => .next s
  | some h =>
    if s.stepState p ≠ stIdle then .next s
    else
      let s := s.setKv (fun k => { k with held := k.held.erase h })
      let r := s.kvApply h.word
      .next (r.1.kvAnswer h.core r.2)

/-- KV_ARMED_HANDOFF_APPLY: an armed HANDOFF whose line l has sounded is applied (R213). -/
def execKvArmedHandoffApply (p l : Nat) (s : State) : Answer :=
  match s.kv.armed.find? (fun h => decide (h.part = p) && decide (bits h.word 41 38 = l) && decide (h.sounds < s.sounds p l)) with
  | none => .next s
  | some h =>
    let s := s.setKv (fun k => { k with armed := k.armed.erase h })
    let r := s.kvApply h.word
    .next (r.1.kvAnswer h.core r.2)

-- ===== Fetch-adds on word 5 (R214, R217) =====

/-- A fetch-add of v to word 5 of slot n's descriptor through its export; the old value is answered. -/
def State.kvFetchAdd (s : State) (n v : Nat) : State × Nat :=
  let old := s.kvW n 5
  let closed := s.kvClosed n
  let st := s.kvState n
  if st = kvFree then (s.log (srcHub 1) Ev.KV_ARRIVAL_STRAY [] none (some (unitHub 1)), old)
  else if st = kvActive then (s, old)
  else
    let s := s.putKvW n 5 (old + v)
    if st = kvReceiving then
      if s.kvLayersIn n = s.kvLayers n then (s.setKvState n kvActive, old)
      else if closed = 0 ∧ s.kvClosed n ≠ 0 ∧ s.kvLayersIn n < s.kvLayers n then (s.log (srcHub 1) Ev.KV_HANDOFF_CLOSED [] (some (s.kvPart n)) (some (unitHub 1)), old)
      else (s, old)
    else (s, old)

-- ===== The sender's fetch-adds and the drain (R215, R216) =====

/-- KV_HANDOFF_LAYER_DONE: every descriptor of the layer has completed, and its fetch-add is issued. -/
def execKvHandoffLayerDone (slot layer : Nat) (s : State) : Answer :=
  match s.kv.hands.find? (fun h => decide (h.slot = slot) && decide (h.layer = layer)) with
  | none => .next s
  | some h =>
    let a := s.kvDstWord slot
    let p := s.kvPart slot
    if h.submitted = false ∨ h.left ≠ 0 ∨ h.failed = true ∨ s.canIssue p a 8 = false then .next s
    else
      let closes := s.kv.closes.map (fun c => if c.slot = slot then { c with left := c.left - 1 } else c)
      let s := s.setKv (fun k => { k with hands := k.hands.erase h, counted := mupd 0 k.counted slot (· + 1), closes := closes })
      .next (s.issue p (some (s.f F.MEM_PART_CHARGE_SUBSCRIBER p 0)) (.handoff slot layer) none 1
        { op := opAtomic, size := 1, addr := a, payload := 1 })

/-- KV_HANDOFF_CLOSE: the started parcels have drained, and the fetch-add that sets CLOSED is issued unless every layer has been counted. -/
def execKvHandoffClose (slot : Nat) (s : State) : Answer :=
  match s.kv.closes.find? (fun c => decide (c.slot = slot)) with
  | none => .next s
  | some c =>
    if s.kvHanding slot = true then .next s
    else if c.left = 0 then .next (s.setKv (fun k => { k with closes := k.closes.erase c }))
    else if s.canIssue c.part c.addr 8 = false then .next s
    else
      let s := s.setKv (fun k => { k with closes := k.closes.erase c })
      .next (s.issue c.part (some (s.f F.MEM_PART_CHARGE_SUBSCRIBER c.part 0)) (.closed slot) none 1
        { op := opAtomic, size := 1, addr := c.addr, payload := 2 ^ 32 })

/-- KV_DRAIN_DONE: a DRAINING descriptor becomes FREE when its drain conditions hold (R216). -/
def execKvDrainDone (slot : Nat) (s : State) : Answer :=
  let busy := (s.kit (s.kvOwner slot)).pages.any (fun q => q.2.live && decide (q.2.slot = slot))
  let recv := nmem s.kv.receivers slot
  if 2 ^ 14 ≤ slot ∨ s.kvState slot ≠ kvDraining ∨ busy = true ∨ s.kvHanding slot = true ∨
      (recv = true ∧ s.kvLayersIn slot ≠ s.kvLayers slot ∧ s.kvClosed slot = 0) then .next s
  else .next ((s.setKv (fun k => { k with receivers := ndel k.receivers slot,
                                          closes := k.closes.filter (fun c => !(decide (c.slot = slot) && decide (c.left = 0))) })).setKvState slot kvFree)

end Sys2Proof.Machine
end

