-- ==== Sys2Proof/Machine/Transit.lean ====
section
/-!
DEFINITION. Sys2Proof/Machine/Transit.lean: submitting descriptors, forming, scheduling, coding and acknowledging parcels
(09_transit_and_scheduling.md, R301 to R324; 10_delta_codec.md, R325 to R346, the encoding side).
-/
namespace Sys2Proof.Machine

open Sys2Proof (CtxId Fields Word)

-- ===== Submission (R301, R302, R304) =====

/-- TRIG submits the descriptor of a read in hand (R301). -/
def State.finishTrig (s : State) (u : CtxId) (f : Fields) (d : Data) : State :=
  let p := s.partOf u
  let q := f.immN % 8
  let flag := if f.modBit 0 then some (ctxKey u, f.auxN) else none
  if s.qOn p q = false ∨ s.fb F.TRN_QUEUE_CFG_MALLET p q = false then
    (s.cmplWrite p q 0xFFFFFFFF d.v trnQueueInvalid 0 (tdStart d.v) false).done u
  else if s.qFull p q then s.waits u .queue
  else
    let s := if f.modBit 0 then s.flagUp u f.auxN else s
    let code := if d.p ≠ 0 then trnBadDesc else s.tdCheck p d.v
    (s.enqueue p q d.v code (s.issuerCtx u) flag none).done u

/-- TRIG. -/
def execTrig (u : CtxId) (f : Fields) (s : State) : Answer :=
  .next (s.run u f 0xC4
    (f.zeroBut false true false (f.modBit 0) false true false false true && f.a16 && decide (f.modN ≤ 1) && decide (f.immN < 8))
    (fun s => [when (s.X u f.A).p 3, s.accessFault (s.actor u) (s.xSpan u f.A) (s.xOff u f.A : Int) 64 64 rRead])
    (fun s =>
      if f.modBit 0 && s.flagFull u f.auxN then s.waits u .flag
      else if s.qOn (s.partOf u) (f.immN % 8) && s.fb F.TRN_QUEUE_CFG_MALLET (s.partOf u) (f.immN % 8) &&
          s.qFull (s.partOf u) (f.immN % 8) then s.waits u .queue
      else s.load u (Fields.word f 0xC4) (s.xSpan u f.A) (s.spanPieces (s.actor u) (s.xSpan u f.A) (s.xOff u f.A) 64) 64
        (fun s d => s.finishTrig u f d)))

/-- Answer a TRN_SUBMIT. -/
def State.trnAnswer (s : State) (c code seq : Nat) : State :=
  ((s.setF F.TRN_SUBMIT_RESULT_DONE c 0 1).setF F.TRN_SUBMIT_RESULT_CODE c 0 code).setF F.TRN_SUBMIT_RESULT_SEQ c 0 seq

/-- TRN_SUBMIT (R302): the checks of Table 9.4 in their order; an address outside hub SRAM and HBM or not aligned is refused as a bad
descriptor. [log 53: DEDUCED] -/
def execTrnSubmit (c : Nat) (w : Word) (s : State) : Answer :=
  if 8 ≤ c ∨ s.canWrite c = false then .next s
  else if s.fb F.TRN_SUBMIT_RESULT_DONE c 0 = false then .next (s.log (srcHub 0) Ev.TRN_SUBMIT_OVERRUN [c] none (some trnUnit))
  else
    let s := s.forward c .TRN_SUBMIT c 0 w
    let p := bits w.toNat 63 61
    let q := bits w.toNat 60 58
    let a := bits w.toNat 47 0
    if s.qOn p q = false then .next (s.trnAnswer c trnQueueInvalid 0)
    else if s.qFull p q then .next (s.trnAnswer c trnQueueFull 0)
    else if a % 64 ≠ 0 ∨ (s.region (s.canon a) ≠ .hbm ∧ s.region (s.canon a) ≠ .hub) then .next (s.trnAnswer c trnBadDesc 0)
    else
      let r := s.readMem trnUnit a 64
      let code := if r.2.p ≠ 0 then trnBadDesc else r.1.tdCheck p r.2.v
      if code ≠ 0 then .next (r.1.trnAnswer c code 0)
      else
        let n := s.qTail p q
        .next ((r.1.enqueue p q r.2.v 0 (issuerCore c) none none).trnAnswer c trnOk n)

/-- Descriptor i of a layer's handoff: keys, then values, each cut at 64 MiB (R215). -/
def State.handDesc (s : State) (slot layer i : Nat) : Option (Nat × Nat) :=
  let eb := s.kvEB slot
  let n := s.kvL slot * eb / 64
  let per := (1048575 + n) / 1048576
  if per = 0 ∨ 2 * per ≤ i then none
  else
    let k := i / per
    let at64 := i % per * 1048576
    let len := min 1048576 (n - at64)
    let off := s.kvOff slot layer k 0 + 64 * at64
    let p := s.kvPart slot
    let w0 := 2 ^ 60 + (if bit (s.kvW slot 4) 38 then 2 else 0) * 2 ^ 58 + 2 ^ 56 * s.f F.TRN_PART_DEFAULT_CLASS p 0 + 2 ^ 51 +
      2 ^ 43 * s.f F.TRN_PART_DEFAULT_SERVICE p 0 + 2 ^ 31 * s.f F.TRN_PART_DEFAULT_SUBSCRIBER p 0 + len
    some (w0 + (s.kvW slot 2 + off) * 2 ^ 64 + (s.kvW slot 3 + off) * 2 ^ 128, 64 * len)

/-- The fields of a handoff change. -/
def State.setHand (s : State) (slot layer : Nat) (f : KvHand → KvHand) : State :=
  s.setKv (fun k => { k with hands := k.hands.map (fun h => if h.slot = slot ∧ h.layer = layer then f h else h) })

/-- Submit a layer's remaining descriptors while its queue takes them; a disabled queue fails them. [log 42: DEDUCED] -/
def State.handSubmit : Nat → State → Nat → Nat → Nat → State
  | 0, s, _, _, _ => s
  | fuel + 1, s, slot, layer, i =>
    match s.handDesc slot layer i with
    | none => s.setHand slot layer (fun h => { h with submitted := true })
    | some (d, n) =>
      let p := s.kvPart slot
      let q := bits (s.kvW slot 4) 41 39
      let s := if s.qOn p q && s.qFull p q then s else s.setHand slot layer (fun h => { h with sent := i + 1 })
      if s.qOn p q = false then State.handSubmit fuel (s.setHand slot layer (fun h => { h with failed := true })) slot layer (i + 1)
      else if s.qFull p q then s
      else
        let s := (s.setHand slot layer (fun h => { h with left := h.left + 1 })).count F.KIT_KV_HANDOFF_BYTES_COUNT (s.kvOwner slot) 0 n
        State.handSubmit fuel (s.enqueue p q d (s.tdCheck p d) issuerDevice none (some (slot, layer))) slot layer (i + 1)

/-- KV_HANDOFF_SUBMIT: a layer's flushes are done; its descriptors are submitted and HANDED advances (R215). [log 42: DEDUCED] -/
def execKvHandoffSubmit (slot layer : Nat) (s : State) : Answer :=
  match s.kv.hands.find? (fun h => decide (h.slot = slot) && decide (h.layer = layer)) with
  | none => .next s
  | some h =>
    let k := s.kvOwner slot
    if h.submitted || (s.kit k).pages.any (fun q => q.2.live && decide (q.2.slot = slot) && decide (q.2.layer = layer)) then .next s
    else
      let s := State.handSubmit 1024 s slot layer h.sent
      match s.kv.hands.find? (fun h => decide (h.slot = slot) && decide (h.layer = layer)) with
      | none => .next s
      | some h =>
        if h.submitted = false then .next s
        else
          let s := s.putKvW slot 1 (setBits (s.kvW slot 1) 0 9 (s.kvHanded slot + 1))
          .next (s.setKv (fun q => { q with hands := q.hands.filter (fun h => !(h.submitted && h.failed && decide (h.left = 0))) }))

/-- TRN_ABORT (R313). -/
def execTrnAbort (c : Nat) (w : Word) (s : State) : Answer :=
  if 8 ≤ c ∨ s.canWrite c = false then .next s
  else
    let s := s.forward c .TRN_ABORT c 0 w
    let r := match s.entry (bits w.toNat 63 61) (bits w.toNat 60 58) (w.toNat % 2 ^ 32) with
      | none => (s, abortUnknown)
      | some e => s.abortEntry e
    .next ((r.1.setF F.TRN_ABORT_RESULT_DONE c 0 1).setF F.TRN_ABORT_RESULT_CODE c 0 r.2)

-- ===== Where a parcel comes from and goes to (R305, R307) =====

/-- The unit at which the parcel that begins at unit a ends: at a 64 KiB boundary of the destination offset. -/
def parcelEnd (d a : Nat) : Nat :=
  let o := tdDst d % 2 ^ 40
  min (tdLen d) (((o + 64 * a) / 65536 + 1) * 1024 - o / 64)

/-- Bytes of pieces that lie in kit m's HBM. -/
def kitBytes (ps : List (Nat × Piece)) (m : Nat) : Nat :=
  (requests (localOf ps)).foldl (fun n c => if c.1 / hbmKit = m then n + c.2 else n) 0

/-- Bytes of pieces that lie in the flash window. -/
def flashBytes (ps : List (Nat × Piece)) : Nat := (ps.filter (fun q => q.2.inFlash)).foldl (fun n q => n + q.2.len) 0

/-- What the raw bytes [o, o + n) and w bytes on the wire of a parcel draw: resource, kit, bytes (R318). A global source draws nothing; the
remote pieces of a COMPOSED destination are charged as their STOREs leave. [log 56: DESIGN CHOICE] -/
def State.drawsOf (s : State) (d : Nat) (k : Parcel) (o n w : Nat) : List (Nat × Nat × Nat) :=
  let src := s.srcRange d k o n
  let dst := s.dstRange d k o n
  let out := if tdDstG d then (match s.route (nodeOf (tdDst d)) with
    | some port => if port = portLoop then [] else [(s.portRes port, 0, w)]
    | none => []) else []
  ((List.range 8).map (fun m => (0, m, kitBytes src m)) ++ [(2, 0, flashBytes src)] ++ (List.range 8).map (fun m => (1, m, kitBytes dst m)) ++
    out).filter (fun r => decide (r.2.2 ≠ 0))

/-- What the whole parcel draws. -/
def State.drawsOn (s : State) (d : Nat) (k : Parcel) : List (Nat × Nat × Nat) := s.drawsOf d k 0 k.len k.wire

/-- The parcel exceeds a full-window credit and is split (R319). -/
def State.splits (s : State) (d : Nat) (k : Parcel) : Bool :=
  (s.drawsOn d k).any (fun r => decide (s.regFull k.part r.1 < r.2.2))

/-- The largest piece of a split parcel: the greatest multiple of 4 KiB within every full-window credit it draws on. -/
def State.pieceMax (s : State) (d : Nat) (k : Parcel) : Nat :=
  max 4096 ((s.drawsOn d k).foldl (fun n r => min n (s.regFull k.part r.1)) (2 ^ 32) / 4096 * 4096)

/-- The raw bytes that the next piece draws, and the bytes that it sends. A coded parcel whose raw bytes need more pieces than its stream
draws the first of them before it sends. [log 56: DESIGN CHOICE] -/
def State.nextPiece (s : State) (d : Nat) (k : Parcel) : Nat × Nat :=
  if s.splits d k || k.begun then
    let l := s.pieceMax d k
    let r := k.len - k.drawn
    let w := k.wire - k.started
    if k.coded then (min l r, if (w + l - 1) / l < (r + l - 1) / l then 0 else min l w) else (min l r, min l r)
  else (k.len, k.wire)

-- ===== Forming parcels (R305, R315, R316) =====

def State.rankUp (s : State) : State := s.setTrn (fun t => { t with nextRank := t.nextRank + 1 })

/-- A parcel joins its output's list, or waits for a codec unit when it is to be coded. -/
def State.release (s : State) (x : Nat) : State :=
  let k := s.parcel x
  (s.setParcel x { k with stage := if k.coded then .codecWait else .atOutput, rank := s.trn.nextRank }).rankUp

/-- Form the next parcel of an ACTIVE entry: police it, shape it. [log 54: DESIGN CHOICE] -/
def State.formOne (s : State) (e : TrnEntry) : State :=
  let d := e.desc
  let b := parcelEnd d e.next
  let n := 64 * (b - e.next)
  let u := tdSub d
  let burst := s.f F.TRN_SUB_POLICE_BURST u 0
  if burst ≠ 0 ∧ mget 0 s.trn.level u < n then (s.count F.TRN_POLICED_PARCELS_COUNT 0 0 1).failEntry e e.next trnPoliced
  else
    let s := if burst = 0 then s else s.setTrn (fun t => { t with level := mput 0 t.level u (mget 0 t.level u - n) })
    let s := s.setEntry { e with next := b }
    let x := s.trn.nextParcel
    let k : Parcel := { live := true, part := e.part, queue := e.queue, seq := e.seq, off := e.next, len := n,
                        coded := decide (tdCodec d ≠ 0), wire := n }
    let s := s.setTrn (fun t => { t with nextParcel := x + 1 })
    let rate := s.f F.TRN_SUB_SHAPE_RATE u 0
    if rate = 0 then (s.setParcel x k).release x
    else
      let el := max s.time (mget 0 s.trn.nextTime u)
      let r := (el + 249) / 250 * 250
      let s := s.setTrn (fun t => { t with nextTime := mput 0 t.nextTime u (el + (4 * n + rate - 1) / rate) })
      let near := decide (r ≤ 1024000 + s.time)
      let s := if near then s else s.count F.TRN_WHEEL_FAR_COUNT 0 0 1
      (s.setParcel x { k with stage := if near then .wheel else .far, release := r, rank := s.trn.nextRank }).rankUp

/-- A queue forms its next parcel once all that it has formed are issued, at least in part, and fewer than 16 of them are not answered: what
the policer drops then leaves the earlier parcels of its entry to complete (R315). [log 54: DESIGN CHOICE] -/
def State.pump : Nat → State → Nat → Nat → State
  | 0, s, _, _ => s
  | fuel + 1, s, p, q =>
    let mine := s.trn.parcels.filter (fun k => decide (k.2.part = p) && decide (k.2.queue = q))
    if mine.any (fun k => !k.2.inFlight) || decide (16 ≤ mine.length) then s
    else match s.trn.entries.find? (fun e => decide (e.part = p) && decide (e.queue = q) && decide (e.st = 1) && decide (e.next < tdLen e.desc)) with
      | none => s
      | some e => State.pump fuel (s.formOne e) p q

/-- Form what the queue of (p, q) can form. [log 54: DESIGN CHOICE] -/
def State.pumpQueue (s : State) (p q : Nat) : State := State.pump 17 s p q

/-- Every queue forms what it can. -/
def State.pumpTransit (s : State) : State :=
  s.trn.entries.foldl (fun s e => if e.st = 1 then s.pumpQueue e.part e.queue else s) s

/-- The entry has issued its last parcel. -/
def State.allIssued (s : State) (e : TrnEntry) : Bool :=
  decide (e.next = tdLen e.desc) && !s.trn.parcels.any (fun k => k.2.of e && !k.2.inFlight)

/-- The queue's partition is being saved, is saved or is being restored. -/
def State.preempted (s : State) (p : Nat) : Bool :=
  decide (2 ≤ s.f F.PAR_PREEMPT_STATUS_PHASE p 0) && decide (s.f F.PAR_PREEMPT_STATUS_PHASE p 0 ≤ 6)

/-- TRN_ENTRY_ACTIVE: the first QUEUED entry's turn comes (R305). -/
def execTrnEntryActive (p q : Nat) (s : State) : Answer :=
  let es := s.trn.entries.filter (fun e => decide (e.part = p) && decide (e.queue = q))
  match es.find? (fun e => decide (e.st = 0)) with
  | none => .next s
  | some e =>
    let before := es.takeWhile (fun x => decide (x.st ≠ 0))
    let ok := fun (x : TrnEntry) => decide (x.st = 4) || (!tdOrder e.desc && (decide (x.st = 1) || decide (x.st = 2)) && s.allIssued x)
    if (s.preempted p && !s.flagBehind e) || !before.all ok then .next s
    else .next ((s.setEntry { e with st := 1 }).pumpQueue p q)

/-- TRN_WHEEL_RELEASE: a shaped parcel's time has come and no parcel stands before it in its slot (R316). -/
def execTrnWheelRelease (x : Nat) (s : State) : Answer :=
  let k := s.parcel x
  let behind := s.trn.parcels.any (fun q => decide (q.2.stage = .wheel) && decide (q.2.release = k.release) && decide (q.2.rank < k.rank))
  if k.live = false ∨ k.stage ≠ .wheel ∨ s.time < k.release ∨ behind = true then .next s
  else .next ((s.release x).pumpQueue k.part k.queue)

/-- TRN_FAR_SCAN: far parcels whose release is within the horizon move to the wheel (R316). -/
def execTrnFarScan (s : State) : Answer :=
  .next (s.trn.parcels.foldl (fun s q =>
    if q.2.stage = .far ∧ q.2.release ≤ 1024000 + s.time then (s.setParcel q.1 { q.2 with stage := .wheel, rank := s.trn.nextRank }).rankUp
    else s) s)

-- ===== The codec's encoders (R325 to R339, R343) =====

/-- A forced sound check holds a codec unit (R445). -/
def State.codecForced (s : State) (u : Nat) : Bool :=
  s.integ.checks.any (fun q => q.2.running && q.2.forced && (decide (q.2.a = unitCodec u) || decide (q.2.b = unitCodec u) ||
    (q.2.refereeing && decide (q.2.referee = unitCodec u))))

/-- The lowest free encoder of a partition. -/
def State.freeEncoder (s : State) (p : Nat) : Option Nat := (s.codecUnits p).find? (fun u => decide (mget 0 s.trn.encoders u = 0) && !s.codecForced u)

/-- Work assigned to a unit abandons a sound check of it; the check starts again later (R449). -/
def State.abandonChecks (s : State) (unit : Nat) : State :=
  let hit := fun (c : SCheck) => c.live && c.running &&
    (decide (c.a = unit) || decide (c.b = unit) || (c.refereeing && decide (c.referee = unit)))
  { s with integ := { s.integ with
      checks := s.integ.checks.map (fun q => (q.1, if hit q.2 then { q.2 with running := false, refereeing := false } else q.2)) } }

/-- CODEC_ENCODE_START: the parcel that has waited longest takes the lowest free unit of its mask, and the unit reads its settings. -/
def execCodecEncodeStart (x : Nat) (s : State) : Answer :=
  let k := s.parcel x
  let older := s.trn.parcels.any (fun q => decide (q.2.stage = .codecWait) && decide (q.2.rank < k.rank) && (s.freeEncoder q.2.part).isSome)
  match s.freeEncoder k.part with
  | none => .next s
  | some u =>
    if k.live = false ∨ k.stage ≠ .codecWait ∨ older = true then .next s
    else
      let s := (s.abandonChecks (unitCodec u)).setTrn (fun t => { t with encoders := mput 0 t.encoders u (x + 1) })
      .next (s.setParcel x { k with stage := .coding, unit := u + 1, cfg := s.rg .CDC_PART_CFG k.part 0 })

/-- Settings of a parcel's stream. -/
def State.streamCfg (s : State) (d : Nat) (k : Parcel) : StreamCfg :=
  let weight := decide (tdCodec d = 1)
  { checked := s.fb F.HUB_PAIR_CFG_ENABLE 0 0 || decide (F.CDC_PART_CFG_FORCE_CHECKED.of k.cfg = 1), mode := if weight then 1 else 2,
    fmt := if weight then F.CDC_PART_CFG_WEIGHT_DFMT.of k.cfg else F.CDC_PART_CFG_KV_DFMT.of k.cfg,
    refId := if weight then F.CDC_PART_CFG_REF_ID.of k.cfg else 0,
    stride := if weight then 0 else min 31 (F.CDC_PART_CFG_KV_STRIDE.of k.cfg),
    refOff := if weight then (xwOff (tdRef d) + 64 * k.off) % 2 ^ 40 else 0 }

/-- The pair hash of a parcel: its first destination address and its raw bytes (R471). -/
def parcelHash (d : Nat) (k : Parcel) (v p : Nat) : Nat :=
  pairHash (tdDst d / 2 ^ 40 * 2 ^ 40 + (tdDst d + 64 * k.off) % 2 ^ 40) v k.len p ((2047 + k.len) / 2048)

/-- CODEC_ENCODE_DONE: the parcel's stream is built (R332 to R339). -/
def execCodecEncodeDone (x : Nat) (s : State) : Answer :=
  let k := s.parcel x
  let d := ((s.entry k.part k.queue k.seq).getD {}).desc
  if k.live = false ∨ k.stage ≠ .coding then .next s
  else
    let a := trnActor k.part
    let r := s.fetchPieces (parcelKey x 0) a (s.srcPieces d k) k.len (xwSpan (tdSrc d)) (xwOff (tdSrc d)) (tdSub d + 1)
    match r.2 with
    | none => .next r.1
    | some raw =>
      let ref := if tdCodec d = 1 then
          r.1.fetchPieces (parcelKey x 1) { a with stream := ownStream } (r.1.tdPieces k.part (tdRef d) false (64 * k.off) k.len) k.len (xwSpan (tdRef d)) (xwOff (tdRef d)) (tdSub d + 1)
        else (r.1, some {})
      match ref.2 with
      | none => .next ref.1
      | some rf =>
        let s := ref.1
        let b := buildStream (s.streamCfg d k) raw.v raw.p k.len rf.v rf.p
        let s := s.setTrn (fun t => { t with encoders := mput 0 t.encoders (k.unit - 1) 0 })
        .next (s.setParcel x { k with stage := .atOutput, ready := true, v := b.1.v, p := 0, wire := b.1.n, codedBlocks := b.2,
                                      blocks := (4095 + k.len) / 4096, hash := parcelHash d k raw.v raw.p })

-- ===== Choosing at an output (R317) =====

/-- Parcels of a slot's handoffs in flight (R215). -/
def State.handFlight (s : State) (slot : Nat) : Nat :=
  (s.trn.parcels.filter (fun q => q.2.inFlight && (match s.entry q.2.part q.2.queue q.2.seq with
    | some e => (match e.hand with | some h => decide (h.1 = slot) | none => false)
    | none => false))).length

/-- The packets of a parcel for another node can leave (R366, R370): the first takes a tag, and what follows a port change waits for its FENCE. -/
def State.packetsGo (s : State) (d : Nat) (k : Parcel) : Bool :=
  let n := nodeOf (tdDst d)
  !tdDstG d || (!s.fenced n (tdDst d + 64 * k.off) && (if k.started = 0 then (s.freeTag n).isSome else (s.route n).isSome))

/-- A parcel can start, its credit apart: its entry issues, earlier parcels of the entry are issued, fewer than 16 parcels of its queue
are in flight, its output is free, and its packets can leave. -/
def State.startableParcel (s : State) (x : Nat) (k : Parcel) (e : TrnEntry) : Bool :=
  let o := s.outputOf e.desc k
  !s.halted && s.atOutput k && !k.deferred && k.outcome.isNone && decide (k.compared ≠ 1) && (decide (e.st = 1) || k.begun) &&
  (decide (mget 0 s.trn.held o = 0) || decide (mget 0 s.trn.held o = x + 1)) && s.packetsGo e.desc k &&
  (k.begun ||
    (!s.trn.parcels.any (fun q => q.2.of e && !decide (q.2.stage = .flight) && decide (q.2.off < k.off)) &&
     decide ((s.trn.parcels.filter (fun q => decide (q.2.part = k.part) && decide (q.2.queue = k.queue) && q.2.inFlight)).length < 16) &&
     (match e.hand with | some h => decide (s.handFlight h.1 < 16) | none => true)))

/-- Capacity for guarantees of a device-wide resource with the links that are UP (Table 13.3). [log 80: DEDUCED] -/
def State.regCapacity (s : State) (r : Nat) : Nat := if r = 2 then 40000 else s.regPeak r * 95 / 100

/-- The parcel's partition has used less than its guarantee on every resource the parcel draws. -/
def State.underGuarantee (s : State) (d : Nat) (k : Parcel) : Bool :=
  (s.drawsOn d k).all (fun r => decide (s.regUsed k.part r.1 r.2.1 < s.effGuarantee k.part r.1))

/-- A service's head parcel at an output, with its raw bytes. -/
structure DrrHead where
  service : Nat := 0
  parcel : Nat := 0
  bytes : Nat := 0
deriving DecidableEq, Repr

/-- Deficit round robin over heads in turn order (R317): each service at its turn adds its quantum, and starts its head when the deficit
covers it. [log 55: DEDUCED] -/
def drrPick (quantum : Nat → Nat) (key : Nat → Nat) : Nat → List DrrHead → SMap Nat → Option DrrHead × SMap Nat
  | 0, _, m => (none, m)
  | _, [], m => (none, m)
  | fuel + 1, h :: r, m =>
    let m := mupd 0 m (key h.service) (· + quantum h.service)
    if h.bytes ≤ mget 0 m (key h.service) then (some h, m) else drrPick quantum key fuel (r ++ [h]) m

/-- Quantum of a service in bytes. -/
def State.quantum (s : State) (v : Nat) : Nat := max 1 (s.f F.TRN_SERVICE_DRR_QUANTUM v 0) * 4096

/-- Heads by service, each the startable parcel of lowest rank. -/
def headsOf (l : List (Nat × Parcel × TrnEntry)) : List DrrHead :=
  (List.range 256).filterMap (fun v =>
    (l.filter (fun q => decide (tdService q.2.2.desc = v))).foldl (fun b q =>
      match b with
      | none => some { service := v, parcel := q.1, bytes := q.2.1.len }
      | some h =>
        match l.find? (fun z => decide (z.1 = h.parcel)) with
        | some z => if q.2.1.rank < z.2.1.rank then some { service := v, parcel := q.1, bytes := q.2.1.len } else b
        | none => b) none)

/-- What an output starts next, with the deficits that the choice leaves: phase, then class, then service. [log 55: DEDUCED; 77: DESIGN CHOICE] -/
def State.choose (s : State) (o : Nat) : Option DrrHead × SMap Nat × Nat :=
  let cands := s.trn.parcels.filterMap (fun q =>
    match s.entry q.2.part q.2.queue q.2.seq with
    | some e => if decide (s.outputOf e.desc q.2 = o) && s.startableParcel q.1 q.2 e then some (q.1, q.2, e) else none
    | none => none)
  let first := cands.filter (fun q => s.underGuarantee q.2.2.desc q.2.1)
  let cands := if first = [] then cands else first
  let c := cands.foldl (fun c q => min c (s.classOf q.2.2)) 3
  let heads := headsOf (cands.filter (fun q => decide (s.classOf q.2.2 = c)))
  let key := drrKey o c
  match mget 0 s.trn.turn (o * 4 + c) with
  | 0 =>
    let r := drrPick s.quantum key 4096 heads s.trn.deficit
    (r.1, r.2, c)
  | t + 1 =>
    match heads.find? (fun h => decide (h.service = t) && decide (h.bytes ≤ mget 0 s.trn.deficit (key t))) with
    | some h => (some h, s.trn.deficit, c)
    | none =>
      let r := drrPick s.quantum key 4096 (heads.filter (fun h => decide (t < h.service)) ++ heads.filter (fun h => decide (h.service ≤ t))) s.trn.deficit
      (r.1, r.2, c)

-- ===== Issue (R306, R307, R318, R319) =====

/-- Bring an uncoded parcel's source into hand. -/
def State.parcelData (s : State) (x : Nat) (d : Nat) : State × Bool :=
  let k := s.parcel x
  if k.ready then (s, true)
  else
    let r := s.fetchPieces (parcelKey x 0) (trnActor k.part) (s.srcPieces d k) k.len (xwSpan (tdSrc d)) (xwOff (tdSrc d)) (tdSub d + 1)
    match r.2 with
    | none => (r.1, false)
    | some q => (r.1.setParcel x { k with ready := true, v := q.v, p := q.p, wire := k.len, hash := parcelHash d k q.v q.p }, true)

/-- Cut [o, o + n) of a parcel into packets, each no larger than the alignment of its place and of the parcel's address a, which every
packet carries (R354, R361). -/
def parcelCuts (a : Nat) : Nat → Nat → Nat → List (Nat × Nat)
  | 0, _, _ => []
  | fuel + 1, o, n =>
    if n = 0 then [] else
      let l := min n (cutLen (Nat.gcd a o) n)
      (o, l) :: parcelCuts a fuel (o + l) (n - l)

/-- The address that a parcel's packets carry: that of its first destination byte (R361). -/
def parcelAddr (d : Nat) (k : Parcel) : Nat := tdDst d / 2 ^ 40 * 2 ^ 40 + (tdDst d + 64 * k.off) % 2 ^ 40

/-- Send the packets of the bytes [a, b) of a parcel under its tag (R361). -/
def State.sendPackets (s : State) (d : Nat) (k : Parcel) (a b : Nat) : State :=
  let t := s.tag k.node k.tag
  (parcelCuts (parcelAddr d k) 8192 a (b - a)).foldl (fun s c =>
    let last := decide (c.1 + c.2 = k.wire)
    let p : Pkt := { op := if k.coded then (if last then opCparcelEnd else opCparcel) else (if last then opParcelEnd else opParcel),
                     size := sizeCode c.2, tag := k.tag, src := s.node, port := t.port, addr := parcelAddr d k, rawLen := k.len,
                     payload := k.v / 256 ^ c.1 % 256 ^ c.2, poison := k.p / 2 ^ (c.1 / 32) % 2 ^ granules c.1 c.2 }
    s.putOut p) s

/-- Take a tag for a parcel (R366); a target without a route, or node 0xFFFF, gets no packet (R23, R369). -/
def State.parcelTag (s : State) (x : Nat) (d : Nat) : State × Bool :=
  let k := s.parcel x
  let n := nodeOf (tdDst d)
  match s.freeTag n with
  | none => (s, false)
  | some t =>
    let port := s.route n
    let s := s.setTag n t { st := .out, op := if k.coded then opCparcelEnd else opParcelEnd, addr := parcelAddr d k,
                            size := 6, issuer := .parcel x, time := s.time, left := 1, port := port.getD 0, part := k.part }
    let s := s.setParcel x { k with node := n, tag := t }
    if n = 0xFFFF then (s.count F.FAB_EGRESS_DROP_COUNT 0 0 1, false)
    else if port.isNone then (s.noRoute n t, false)
    else (s, true)

/-- The further packets of a parcel leave on the port that is now in use (R378). -/
def State.parcelPort (s : State) (x : Nat) : State × Bool :=
  let k := s.parcel x
  let g := s.tag k.node k.tag
  match s.route k.node with
  | none => (s, false)
  | some port => if g.st = .out ∧ g.issuer = .parcel x then (s.setTag k.node k.tag { g with port := port }, decide (k.node ≠ 0xFFFF)) else (s, false)

/-- The fill of the unwritten pages that a parcel writes is charged by the controller, past its draw (R279, R318). -/
def State.chargeFill (s : State) (d : Nat) (k : Parcel) : State :=
  (requests (localOf (s.dstPieces d k))).foldl (fun s c =>
    if s.mem.isWritten c.1 then s else s.regCharge k.part 1 (c.1 / hbmKit) 4096) s

/-- An encoded stream is journaled for its unit as it begins to leave, unless a matching hash released it (R456, R474). -/
def State.journalStream (s : State) (d : Nat) (k : Parcel) : State :=
  if k.begun = false ∧ k.coded = true ∧ k.compared = 0 then s.journal k.part (unitCodec (k.unit - 1)) true (parcelAddr d k) k.len else s

/-- The next piece of a parcel goes out, or lands at acknowledgement when the destination is local: counters and charges (R318, R324, R346).
[log 58: DEDUCED] -/
def State.movePiece (s : State) (x : Nat) (d : Nat) (n : Nat × Nat) : State :=
  let k := s.parcel x
  let first := !k.begun
  let whole := decide (k.drawn + n.1 = k.len) && decide (k.started + n.2 = k.wire)
  let s := (s.drawsOf d k k.drawn n.1 n.2).foldl (fun s r => s.regCharge k.part r.1 r.2.1 r.2.2) s
  let s := if first then s.chargeFill d k else s
  let s := if first && !whole then s.count F.TRN_SPLIT_COUNT 0 0 1 else s
  let o := s.outputOf d k
  let s := s.setTrn (fun t => { t with held := mput 0 t.held o (if whole then 0 else x + 1) })
  let moved := fun (k : Parcel) => { k with started := k.started + n.2, drawn := k.drawn + n.1, stage := if whole then ParcelStage.flight else k.stage }
  if tdDstG d = false then s.setParcel x (moved k)
  else if s.sends = false then s.setParcel x { (moved k) with outcome := if whole then some 0 else none, outcomeAt := s.time }
  else
    let s := match first && decide (k.compared = 0), s.entry k.part k.queue k.seq with
      | true, some e => s.noteRelease { kind := 1, part := k.part, num := k.off, key := 2 ^ 40 * e.issuer + e.count, hash := k.hash,
                                        closed := true, step := (s.rg .PAR_STEP_SEQ k.part 0).toNat }
      | _, _ => s
    let s := s.journalStream d k
    let q := if n.2 = 0 then (s, false) else if k.started = 0 then s.parcelTag x d else s.parcelPort x
    let s := q.1
    let k := s.parcel x
    let s := if q.2 then s.sendPackets d k k.started (k.started + n.2) else s
    let s := if first && k.coded then
        (((s.count F.CDC_BLOCKS_CODED_COUNT 0 0 k.codedBlocks).count F.CDC_BLOCKS_RAW_COUNT 0 0 (k.blocks - k.codedBlocks)).count
          F.CDC_RAW_BYTES_COUNT 0 0 k.len).count F.CDC_STREAM_BYTES_COUNT 0 0 k.wire
      else if first && decide (tdCodec d ≠ 0) then s.count F.CDC_BYPASS_COUNT 0 0 1 else s
    let s := if q.2 && decide ((s.tag k.node k.tag).port ≠ portLoop) then
        ((s.count F.TRN_BYTES_WIRE_COUNT 0 0 n.2).acct (tdSub d) 7 n.2 1024) else s
    let s := match s.entry k.part k.queue k.seq with | some e => s.setEntry { e with sent := e.sent + n.2 } | none => s
    s.setParcel x (moved k)

/-- The parcel's comparison begins (R474): it stays at its output until the partner's hash matches. -/
def State.compareParcel (s : State) (x : Nat) (e : TrnEntry) : State :=
  let k := s.parcel x
  let n := (s.rg .PAR_STEP_SEQ k.part 0).toNat
  let key := 2 ^ 40 * e.issuer + e.count
  let h : Held := { kind := 1, part := k.part, num := k.off, key := key, hash := k.hash, closed := true, parcel := x + 1, step := n,
                    unit := if k.coded then unitCodec (k.unit - 1) else 0 }
  let m : CompareMsg := { kind := 1, part := k.part, num := k.off, key := key, step := n, hash := k.hash }
  let s := s.setParcel x { k with compared := 1 }
  { s with pair := { s.pair with waiting := s.pair.waiting ++ [h], sent := s.pair.sent ++ [m],
                                 stepHash := mupd 0 s.pair.stepHash k.part (fun z => (z + k.hash) % 2 ^ 64) } }

/-- The credit that the next piece lacks, if any. -/
def State.lacks (s : State) (d : Nat) (k : Parcel) : Option Nat :=
  let n := s.nextPiece d k
  ((s.drawsOf d k k.drawn n.1 n.2).find? (fun r => !s.regFits k.part r.1 r.2.1 r.2.2)).map Prod.fst

/-- A chosen parcel or a following piece moves, or is deferred whole to the next window (R318). -/
def State.startPiece (s : State) (x : Nat) (d : Nat) : State :=
  let k := s.parcel x
  match s.lacks d k with
  | some r => ((s.setParcel x { k with deferred := true }).count F.TRN_DEFERRED_COUNT 0 0 1).regDefer k.part r
  | none => s.movePiece x d (s.nextPiece d k)

/-- What a start leaves of the deficit of its service (R317): less the parcel's bytes, or 0 when the list has emptied. The queue has formed its
next parcel before that is seen. [log 55: DEDUCED] -/
def State.debit (s : State) (key n : Nat) : State :=
  (s.setTrn (fun t => { t with deficit := mput 0 t.deficit key (mget 0 t.deficit key - n) })).settleDeficit key

/-- TRN_PARCEL_START: the parcel that its output chooses starts, or the next piece of the split parcel that holds it. -/
def execTrnParcelStart (x : Nat) (s : State) : Answer :=
  let k := s.parcel x
  match s.entry k.part k.queue k.seq with
  | none => .next s
  | some e =>
    let d := e.desc
    let o := s.outputOf d k
    if s.startableParcel x k e = false then .next s
    else if k.begun then .next (s.startPiece x d)
    else
      let c := s.choose o
      match c.1 with
      | none => .next s
      | some h =>
        if h.parcel ≠ x then .next s
        else match s.tdSpans k.part d k.off (k.off + k.len / 64) with
          | some code => .next ((s.dropParcel x).failEntry { e with next := k.off } k.off code)
          | none =>
            if s.tdToFlash k.part d && s.fb F.FLS_STATUS_WRITE_LOCK 0 0 then
              .next ((s.dropParcel x).failEntry { e with next := k.off } k.off trnFlashFull)
            else
              let s := if k.stage = .codecWait then s.setParcel x { k with stage := .atOutput, coded := false } else s
              let r := if tdDstG d then s.parcelData x d else (s, true)
              if r.2 = false then .next r.1
              else
                let s := r.1
                let k := s.parcel x
                if tdDstG d && decide (k.compared = 0) && s.compares k.part then
                  .next (if s.holdFits k.part k.len then s.compareParcel x e else s)
                else
                  let s := s.setTrn (fun t => { t with deficit := c.2.1, turn := mput 0 t.turn (o * 4 + c.2.2) (h.service + 1) })
                  let s := s.startPiece x d
                  if (s.parcel x).begun then .next ((s.pumpQueue k.part k.queue).debit (drrKey o c.2.2 h.service) k.len) else .next s

-- ===== Acknowledgement and failure (R309 to R312) =====

/-- PROGRESS moves past acknowledged parcels. -/
def advanceAhead : Nat → Nat → List (Nat × Nat) → Nat × List (Nat × Nat)
  | 0, g, l => (g, l)
  | fuel + 1, g, l =>
    match l.find? (fun q => decide (q.1 = g)) with
    | none => (g, l)
    | some q => advanceAhead fuel (g + q.2) (l.erase q)

/-- A parcel is acknowledged: PROGRESS, counters, and what the entry does next. -/
def State.ackParcel (s : State) (x : Nat) : State :=
  let k := s.parcel x
  match s.entry k.part k.queue k.seq with
  | none => s.dropParcel x
  | some e =>
    let r := advanceAhead 64 e.progress (e.ahead ++ [(k.off, k.len / 64)])
    let e := { e with progress := r.1, ahead := r.2 }
    let s := ((s.count F.TRN_PARCELS_COUNT 0 0 1).count F.TRN_BYTES_RAW_COUNT 0 0 k.len).dropParcel x
    let s := s.setEntry e
    let s := if e.st = 1 ∧ e.progress = tdLen e.desc then s.complete e 0 else s.settleEntry e
    s.pumpQueue k.part k.queue

/-- TRN_PARCEL_ACK: every byte of a parcel is written at the scope of its destination. -/
def execTrnParcelAck (x : Nat) (s : State) : Answer :=
  let k := s.parcel x
  let d := ((s.entry k.part k.queue k.seq).getD {}).desc
  if k.live = false ∨ k.stage ≠ .flight ∨ s.halted = true then .next s
  else if tdDstG d then .next (if k.outcome = some 0 then s.ackParcel x else s)
  else if k.outcome.isSome then .next s
  else
    let r := s.parcelData x d
    if r.2 = false then .next r.1
    else
      let s := r.1
      let k := s.parcel x
      let ps := s.dstPieces d k
      if ps.any (fun q => q.2.inFlash) then .next (if k.programmed then s.ackParcel x else s)
      else
        let put := fun (s : State) => ps.foldl (fun s q =>
          if q.2.rem then s
          else s.writeMem trnUnit q.2.addr q.2.len (k.v / 256 ^ q.1) (ones q.2.len) (k.p / 2 ^ (q.1 / 32))) s
        if ps.all (fun q => !q.2.rem) then .next ((put s).ackParcel x)
        else match mget 0 s.polls (parcelKey x 2) with
          | 0 =>
            let t : Xfer := { part := k.part, unit := trnUnit, dst := remoteOf ps, len := k.len, buf := cellsOf 0 k.v k.len,
                              bufP := ninsMask [] 0 k.p (granules 0 k.len), stored := true, span := xwSpan (tdDst d), off := xwOff (tdDst d),
                              sub := tdSub d + 1 }
            let q := (put s).newXfer t
            .next (({ q.1 with polls := mput 0 q.1.polls (parcelKey x 2) (q.2 + 1) }).advance q.2)
          | t + 1 =>
            if s.finishable t then .next (({ (s.endXfer t) with polls := mput 0 s.polls (parcelKey x 2) 0 }).ackParcel x)
            else .next (s.advance t)

/-- TRN_PARCEL_FAIL: the outcome of a parcel is a failure, and its entry stops (R310). -/
def execTrnParcelFail (x code : Nat) (s : State) : Answer :=
  let k := s.parcel x
  match s.entry k.part k.queue k.seq, k.outcome with
  | some e, some c =>
    if k.live = false ∨ c ≠ code ∨ c = 0 ∨ c = 256 then .next s
    else .next (((s.dropParcel x).failEntry e k.off code).pumpQueue k.part k.queue)
  | _, _ => .next s

/-- TRN_PARCEL_REISSUE: a parcel that met a full open-parcel table goes again 1 µs later, without new credit (R309). -/
def execTrnParcelReissue (x : Nat) (s : State) : Answer :=
  let k := s.parcel x
  match s.entry k.part k.queue k.seq with
  | none => .next s
  | some e =>
    let n := nodeOf (tdDst e.desc)
    if k.live = false ∨ k.outcome ≠ some 256 ∨ k.stage ≠ .flight ∨ s.time < 1000 + k.outcomeAt ∨ (s.freeTag n).isNone = true ∨
        s.fenced n (parcelAddr e.desc k) = true then .next s
    else
      let s := (s.setParcel x { k with outcome := none }).count F.TRN_RX_FULL_COUNT 0 0 1
      let r := s.parcelTag x e.desc
      let s := if r.2 then r.1.sendPackets e.desc (r.1.parcel x) 0 k.wire else r.1
      .next (if r.2 && decide ((s.tag n (s.parcel x).tag).port ≠ portLoop) then
        (s.count F.TRN_BYTES_WIRE_COUNT 0 0 k.wire).acct (tdSub e.desc) 7 k.wire 1024 else s)

end Sys2Proof.Machine
end

