-- ==== Sys2Proof/Machine/Flash.lean ====
section
/-!
DEFINITION. Sys2Proof/Machine/Flash.lean: discards, the accounting snapshot and the flash (08_memory_spans_and_tiers.md, R277, R280, R285 to
R293).
-/
namespace Sys2Proof.Machine

open Sys2Proof (Word FlashRead FlashProg FlashSpace)

-- ===== Discards (R280) =====

/-- Pages of a kit's stack. -/
def kitPages : Nat := 12582912

/-- Pages [p, p + n) lie in one kit's HBM and clear of the flash map. -/
def State.discardOk (s : State) (p n : Nat) : Bool :=
  let base := s.f F.FLS_MAP_BASE_BASE 0 0
  let size := 8 * s.f F.FLS_CONFIG_LOGICAL_UNITS 0 0
  decide (p / kitPages < 8) && decide ((p + n - 1) / kitPages = p / kitPages) &&
    (!s.fb F.FLS_CONFIG_ENABLE 0 0 || decide (size = 0) || decide ((p + n) * 4096 ≤ base) || decide (base + size ≤ 4096 * p))

/-- DISCARD: pages are cleared in ascending order, each at its own instant before DONE: how many at once is a free value. [log 68: DESIGN CHOICE] -/
def execDiscard (c : Nat) (w : Word) (s : State) : Answer :=
  if 8 ≤ c ∨ s.canWrite c = false then .next s
  else if s.fb F.MEM_DISCARD_RESULT_DONE c 0 = false then .next (s.setF F.MEM_DISCARD_RESULT_OVERRUN c 0 1)
  else
    let p := bits w.toNat 39 12
    let n := bits w.toNat 63 40 + 1
    if s.discardOk p n = false then .next (s.setF F.MEM_DISCARD_RESULT_CODE c 0 1)
    else
      let now := Config.freeValue s.freeCtr % (n + 1)
      let s := (s.fresh.setF F.MEM_DISCARD_RESULT_DONE c 0 0).discardPages p now
      .next { s with discards := mput (0, 0) s.discards c (p + now, n - now) }

/-- DISCARD_DONE: every page of the range reads zero. [log 68: DESIGN CHOICE] -/
def execDiscardDone (c : Nat) (s : State) : Answer :=
  if s.fb F.MEM_DISCARD_RESULT_DONE c 0 = true ∨ 8 ≤ c ∨ s.boot.refclkLost = true then .next s
  else
    let q := mget (0, 0) s.discards c
    let s := s.discardPages q.1 q.2
    let s := { s with discards := mput (0, 0) s.discards c (0, 0) }
    .next ((s.setF F.MEM_DISCARD_RESULT_DONE c 0 1).setF F.MEM_DISCARD_RESULT_CODE c 0 0)

/-- ACCT_LATCH: MEM_ACCT_SNAP[c] takes the 16 counters of a subscriber at one instant (R277). -/
def execAcctLatch (c : Nat) (w : Word) (s : State) : Answer :=
  if 8 ≤ c ∨ s.canWrite c = false then .next s
  else
    let u := bits w.toNat 11 0
    .next ((List.range 16).foldl (fun s i => s.setRg .MEM_ACCT_SNAP c i (s.rg .MEM_ACCT u i)) s)

-- ===== Flash (R285 to R293) =====

def State.setFlash (s : State) (f : Flash → Flash) : State := { s with flash := f s.flash }
def State.block (s : State) (b : Nat) : FlashBlock := mget {} s.flash.blocks b
def State.setBlock (s : State) (b : Nat) (f : FlashBlock → FlashBlock) : State := s.setFlash (fun x => { x with blocks := mupd {} x.blocks b f })

/-- Queue a block for relocation. -/
def State.queueReloc (s : State) (b : Nat) : State :=
  if s.flash.queue.contains b then s else s.setFlash (fun x => { x with queue := x.queue ++ [b] })

/-- Retire a block (R291). -/
def State.retireBlock (s : State) (b : Nat) : State :=
  if (s.block b).retired then s
  else (s.setBlock b (fun x => { x with retired := true })).log (srcHub 4) Ev.FLS_BLOCK_RETIRED [] none (some (unitHub 4))

/-- Array reads of a block count towards read disturb (R292). -/
def State.countReads (s : State) (b n : Nat) : State :=
  let old := (s.block b).reads
  let t := 1024 * s.f F.FLS_MAINT_RD_THRESH 0 0
  let g := t + 1024 * s.f F.FLS_MAINT_RD_GRACE 0 0
  let s := s.setBlock b (fun x => { x with reads := old + n })
  let s := if old < t ∧ t ≤ old + n then s.queueReloc b else s
  if old < g ∧ g ≤ old + n then (s.queueReloc b).log (srcHub 4) Ev.FLS_RD_FORCED [] none (some (unitHub 4)) else s

-- ===== Reads (R287) =====

/-- A transfer waits for codeword c of location l. -/
def Xfer.awaits (t : Xfer) (c l : Nat) : Bool := (t.nand.getD []).any (fun q => decide (q.1 = c) && decide (q.2.1 = l))

/-- Where the codeword c that the oldest request asks for lies. -/
def State.askedAt (s : State) (c : Nat) : Option Nat :=
  s.xfers.findSome? (fun q => ((q.2.nand.getD []).find? (fun e => decide (e.1 = c))).map (fun e => e.2.1))

/-- Every request queued for codeword c of location l takes its outcome, and its subscriber is charged; bad delivers its granules poisoned. -/
def State.serveCodeword (s : State) (c l : Nat) (bad : Bool) : State :=
  (s.xfers.filter (fun q => q.2.awaits c l)).foldl (fun s q =>
    let t := s.xfer q.1
    let mine := (t.nand.getD []).filter (fun e => decide (e.1 = c) && decide (e.2.1 = l))
    let s := if s.loadSub t < 4096 then s.acct (s.loadSub t) 9 4096 1024 else s
    (s.setXfer q.1 { t with
      nand := some ((t.nand.getD []).filter (fun e => !(decide (e.1 = c) && decide (e.2.1 = l)))),
      bufP := if bad then mine.foldl (fun m e => ninsRange m (e.2.2.1 / 32) (granules e.2.2.1 e.2.2.2)) t.bufP else t.bufP }).onward q.1) s

/-- FLASH_READ_DONE: a codeword that requests wait for has been read, after up to 7 retries and a soft decode that uses 2 further reads (R287). -/
def execFlashReadDone (r : FlashRead) (s : State) : Answer :=
  match s.askedAt r.codeword with
  | none => .next s
  | some l =>
    if 7 < r.retries then .next s
    else
      let bad := decide (r.soft = some false)
      let b := (mget {} s.flash.locs l).block
      let s := (s.countReads b (1 + r.retries + (if r.soft.isSome then 2 else 0))).setFlash (fun x =>
        { x with badCodewords := nset x.badCodewords (l * 16 + r.codeword % 16) bad })
      let s := if 1 < r.retries then s.log (srcHub 4) Ev.FLS_READ_RETRY [r.retries] none (some (unitHub 4)) else s
      let s := if bad then s.log (srcHub 4) Ev.FLS_UNCORRECTABLE [r.codeword / 16, r.codeword % 16] none (some (unitHub 4)) else s
      .next ((if bad || decide (4 ≤ r.retries) then s.queueReloc b else s).serveCodeword r.codeword l bad)

-- ===== Allocation and programs (R289, R291) =====

/-- The channel of a block. [log 147: DESIGN CHOICE] -/
def blockChannel (b : Nat) : Nat := b / 2 ^ 20

/-- Units programmed in a block since its last erase. -/
def Flash.unitsIn (x : Flash) (b : Nat) : Nat := (x.locs.filter (fun q => decide (q.2.block = b))).length

/-- The blocks of a channel that have been used. -/
def Flash.channelBlocks (x : Flash) (c : Nat) : List Nat :=
  ((x.blocks.map Prod.fst ++ x.locs.map (fun q => q.2.block)).filter (fun b => decide (blockChannel b = c))).eraseDups

/-- Blocks of a channel that are not free: programmed or retired. -/
def Flash.taken (x : Flash) (c : Nat) : Nat :=
  ((x.channelBlocks c).filter (fun b => decide (x.unitsIn b ≠ 0) || (mget {} x.blocks b).retired)).length

/-- A free block that no other free block of its channel precedes in erase count. -/
def Flash.leastWorn (x : Flash) (b : Nat) : Bool :=
  let n := fun (b : Nat) => (mget {} x.blocks b).erases
  (x.channelBlocks (blockChannel b)).all (fun c => decide (x.unitsIn c ≠ 0) || (mget {} x.blocks c).retired || decide (n b ≤ n c)) &&
    (decide (n b = 0) || decide (Config.flashBlocks ≤ (x.channelBlocks (blockChannel b)).length))

/-- Allocation may give a block: the free one with the lowest erase count, or one that is partly programmed and takes part in no relocation. -/
def Flash.gives (x : Flash) (b : Nat) : Bool :=
  !(mget {} x.blocks b).retired && !(mget {} x.blocks b).eraseDue &&
    (if x.unitsIn b = 0 then x.leastWorn b
     else decide (x.unitsIn b < Config.flashBlockUnits) && !x.reloc.any (fun r => decide (r.src = b) || decide (r.dst = b)))

/-- Program 64 KiB with its marks at a new location of a block. -/
def Flash.place (x : Flash) (unit block seq v p : Nat) : Flash :=
  let l := x.nextLoc
  { x with cells := cellsWrite x.cells (65536 * l) 65536 v, poison := ninsMask x.poison (2048 * l) p 2048,
           locs := mput {} x.locs l { unit := unit, seq := seq, block := block, live := true }, nextLoc := l + 1 }

/-- Switch a unit's map entry to location l; the old location is superseded. -/
def Flash.switch (x : Flash) (unit l : Nat) : Flash :=
  let x := match x.locOf unit with
    | some o => { x with locs := mupd {} x.locs o (fun q => { q with live := false }) }
    | none => x
  { x with map := mput 0 x.map unit (l + 1), badMap := ndel x.badMap unit }

/-- FLASH_PROGRAM_DONE: a parcel's unit is programmed and its map entry switches, or the block fails and the unit is programmed again
elsewhere (R289, R291). -/
def execFlashProgramDone (r : FlashProg) (s : State) : Answer :=
  let x := r.parcel
  let k := s.parcel x
  let d := ((s.entry k.part k.queue k.seq).getD {}).desc
  if k.live = false ∨ k.stage ≠ .flight ∨ k.programmed = true ∨ s.tdToFlash k.part d = false ∨ s.flash.gives r.block = false ∨
      s.fb F.FLS_STATUS_READY 0 0 = false ∨ s.boot.refclkLost = true then .next s
  else if r.ok = false then .next (s.retireBlock r.block)
  else
    let q := s.parcelData x d
    if q.2 = false then .next q.1
    else
      let s := q.1
      let k := s.parcel x
      match s.dstPieces d k with
      | (_, pc) :: _ =>
        match s.flashByte pc.addr with
        | none => .next s
        | some b =>
          let u := b / 65536
          let n := s.flash.nextLoc
          let s := s.setFlash (fun f => ({ (f.place u r.block (f.seq + 1) k.v k.p) with seq := f.seq + 1 }).switch u n)
          .next ((s.setParcel x { k with programmed := true }).acct (tdSub d) 10 65536 1024)
      | [] => .next s

/-- Live units of a block. -/
def Flash.liveIn (x : Flash) (b : Nat) : List (Nat × FlashLoc) := x.locs.filter (fun q => q.2.live && decide (q.2.block = b))

/-- FLASH_ERASE_DONE: a block without live units, of which no read is under way, is erased, or its erase fails and retires it (R291). -/
def execFlashEraseDone (block : Nat) (ok : Bool) (s : State) : Answer :=
  if (s.block block).retired = true ∨ s.flash.liveIn block ≠ [] ∨ s.flash.reloc.any (fun r => decide (r.src = block) || decide (r.dst = block)) = true ∨
      s.xfers.any (fun q => (q.2.nand.getD []).any (fun e => decide ((mget {} s.flash.locs e.2.1).block = block))) = true then .next s
  else if ok = false then .next (s.retireBlock block)
  else
    let gone := (s.flash.locs.filter (fun q => decide (q.2.block = block))).map Prod.fst
    let keep := fun (a : Nat) => !gone.contains a
    let s := s.setFlash (fun x => { x with
      cells := x.cells.filter (fun c => keep (c.1 / 65536)), poison := x.poison.filter (fun g => keep (g / 2048)),
      badCodewords := x.badCodewords.filter (fun c => keep (c / 16)), locs := x.locs.filter (fun q => keep q.1),
      queue := x.queue.filter (fun b => decide (b ≠ block)) })
    .next (s.setBlock block (fun x => { x with erases := x.erases + 1, reads := 0, eraseDue := false }))

/-- Good capacity is below LOGICAL_UNITS and 16 × FREE_LOW blocks' worth of units (R290). -/
def State.flashShort (s : State) : Bool :=
  decide (Config.flashUnits s.flash.retiredBlocks <
    s.f F.FLS_CONFIG_LOGICAL_UNITS 0 0 + 16 * s.f F.FLS_MAINT_FREE_LOW 0 0 * Config.flashBlockUnits)

/-- Reclamation of a channel is forced from when its free blocks fall below FREE_LOW until FREE_LOW + 16 are free (R290). -/
def State.forceReclaim (s : State) (c : Nat) : State :=
  let free := Config.flashBlocks - s.flash.taken c
  let low := s.f F.FLS_MAINT_FREE_LOW 0 0
  s.setFlash (fun x => { x with forced := nset x.forced c (decide (free < low) || (nmem x.forced c && decide (free < low + 16))) })

/-- FLASH_RECLAIM: a block with superseded units is queued for relocation, the channel's reclamation is forced or no more, and too little good
capacity locks writes (R290). [log 67: DEDUCED] -/
def execFlashReclaim (r : FlashSpace) (s : State) : Answer :=
  let was := s.fb F.FLS_STATUS_WRITE_LOCK 0 0
  let dead := s.flash.locs.any (fun q => decide (q.2.block = r.victim) && !q.2.live)
  let s := if blockChannel r.victim = r.channel ∧ dead = true ∧ (s.block r.victim).retired = false ∧
      s.flash.reloc.any (fun q => decide (q.src = r.victim) || decide (q.dst = r.victim)) = false then s.queueReloc r.victim else s
  let s := (s.forceReclaim r.channel).setB F.FLS_STATUS_WRITE_LOCK 0 0 s.flashShort
  .next (if s.flashShort && !was then s.log (srcHub 4) Ev.FLS_WRITE_LOCK [] none (some (unitHub 4)) else s)

-- ===== Relocation (R291 to R293) =====

/-- The units of a block are cold: another block of its channel has been erased more than WEAR_SPREAD times oftener (R291). [log 147: DESIGN CHOICE] -/
def State.wearCold (s : State) (b : Nat) : Bool :=
  s.flash.blocks.any (fun q => decide (blockChannel q.1 = blockChannel b) &&
    decide ((s.block b).erases + s.f F.FLS_MAINT_WEAR_SPREAD 0 0 < q.2.erases))

/-- FLASH_RELOCATE_START: a block that is queued, or whose units are cold, begins its relocation to a free block: BEGIN is journaled and the valid
units are copied with their write sequences, each codeword an array read; a copy of an uncorrectable codeword is poisoned (R292, R293). [log 147: DESIGN CHOICE] -/
def execFlashRelocateStart (src dst : Nat) (s : State) : Answer :=
  if src = dst ∨ (s.flash.queue.contains src || s.wearCold src) = false ∨ s.flash.unitsIn dst ≠ 0 ∨ s.flash.gives dst = false ∨
      s.flash.reloc.any (fun r => decide (r.src = src) || decide (r.dst = dst) || decide (r.dst = src)) = true then .next s
  else
    let r := (s.flash.liveIn src).foldl (fun (q : Flash × List (Nat × Nat)) o =>
      let l := o.1
      let bad := (List.range 16).foldl (fun m i => m + (if nmem q.1.badCodewords (l * 16 + i) then ones 128 * 2 ^ (128 * i) else 0)) 0
      let f := q.1.place o.2.unit dst o.2.seq (cellsRead q.1.cells (65536 * l) 65536) (nmask q.1.poison (2048 * l) 2048 ||| bad)
      ({ f with locs := mupd {} f.locs q.1.nextLoc (fun x => { x with live := false }) }, q.2 ++ [(l, q.1.nextLoc)])) (s.flash, [])
    .next ((s.setFlash (fun _ => { r.1 with reloc := r.1.reloc ++ [{ src := src, dst := dst, phase := .begun, copies := r.2 }] })).countReads src
      (16 * r.2.length))

/-- Switch the map entries that still point at the source. -/
def Flash.switchCopies (x : Flash) (r : Reloc) : Flash :=
  r.copies.foldl (fun f c =>
    let o := mget {} f.locs c.1
    if o.live && decide (f.locOf o.unit = some c.1) then
      let f := { f with locs := mupd {} f.locs c.2 (fun q => { q with live := true }) }
      f.switch o.unit c.2
    else f) x

/-- A relocation with COPIED: the entries switch, DONE is journaled, and the source is erased later (R293). -/
def State.finishReloc (s : State) (r : Reloc) : State :=
  (s.setFlash (fun f => { (f.switchCopies r) with reloc := f.reloc.erase r, queue := f.queue.filter (fun b => decide (b ≠ r.src)) })).setBlock r.src
    (fun x => { x with eraseDue := true })

/-- FLASH_RELOCATE_COPIED: COPIED is journaled; the map entries switch at once where the map is loaded, else when it has been (R293). -/
def execFlashRelocateCopied (src : Nat) (s : State) : Answer :=
  match s.flash.reloc.find? (fun r => decide (r.src = src) && decide (r.phase = .begun)) with
  | none => .next s
  | some r =>
    let c : Reloc := { r with phase := .copied }
    let s := s.setFlash (fun f => { f with reloc := f.reloc.map (fun q => if q = r then c else q) })
    .next (if s.fb F.FLS_STATUS_READY 0 0 && !s.boot.refclkLost then s.finishReloc c else s)

/-- FLASH_MAP_CHECKPOINT (R288). -/
def execFlashMapCheckpoint (s : State) : Answer :=
  if s.fb F.FLS_STATUS_READY 0 0 = false ∨ s.boot.refclkLost = true then .next s
  else .next (s.setFlash (fun f => { f with checkpoint := f.map, checkpointSeq := f.seq }))

/-- The map's HBM copy is written anew: marks and upsets of its words are gone (R288). -/
def State.cleanMap (s : State) : State :=
  let base := s.f F.FLS_MAP_BASE_BASE 0 0
  let n := 8 * s.f F.FLS_CONFIG_LOGICAL_UNITS 0 0
  let m := s.mem
  { s with mem := { m with poison := ndelRange m.poison (base / 32) (granules base n), ue := ndelRange m.ue (base / 8) (n / 8),
                           ce := ndelRange m.ce (base / 8) (n / 8) } }

/-- The map's place lies in the HBM of a kit that is live (R288, R298). -/
def State.mapHome (s : State) : Bool :=
  let k := s.f F.FLS_MAP_BASE_BASE 0 0 / hbmKit
  decide (k < 8) && s.kitLive k && !s.boot.refclkLost

/-- FLASH_MAP_LOAD: the map is rebuilt from the checkpoint and every unit written after it, relocations with COPIED are completed, READY rises, and
what waits for it is asked for (R288, R293, R298). -/
def execFlashMapLoad (s : State) : Answer :=
  if s.fb F.FLS_CONFIG_ENABLE 0 0 = false ∨ s.fb F.FLS_STATUS_READY 0 0 = true ∨ s.mapHome = false then .next s
  else
    let s := s.setFlash (fun f => { f with
      badMap := [], map := f.locs.foldl (fun m q => if q.2.live then mput 0 m q.2.unit (q.1 + 1) else m) [] })
    let s := (s.flash.reloc.filter (fun r => decide (r.phase = .copied))).foldl (fun s r => s.finishReloc r) s.cleanMap
    let s := s.setF F.FLS_STATUS_READY 0 0 1
    .next (s.xfers.foldl (fun s q => if q.2.nand.isNone && q.2.src.any (fun c => c.2.inFlash) then s.advance q.1 else s) s)

end Sys2Proof.Machine
end

