-- ==== Sys2Proof/Machine/Router.lean ====
section
/-!
DEFINITION. Sys2Proof/Machine/Router.lean: the expert router (05_conditional_computation.md, R182 to R196): RDISP, RRECV, taking and
dispatching tokens, inboxes, and directory writes.
-/
namespace Sys2Proof.Machine

open Sys2Proof (CtxId Fields)

/-- The router configuration in force on a kit. -/
def State.rtr (s : State) (k : Nat) (f : Fld) : Nat := f.of (s.kit k).routerCfg

/-- ACT_BYTES and RET_BYTES in force (Table 5.3). -/
def State.actBytes (s : State) (k : Nat) : Nat := 64 * s.rtr k F.KIT_ROUTER_CONFIG_ACT_UNITS
def State.retBytes (s : State) (k : Nat) : Nat := 64 * s.rtr k F.KIT_ROUTER_CONFIG_RET_UNITS

/-- E of an RDISP (IMM[13:4] = E − 1) and k. -/
def rdispE (f : Fields) : Nat := f.immN / 16 % 1024 + 1
def rdispK (f : Fields) : Nat := f.immN % 16

/-- RDISP hands one token to the kit's router (R187). -/
def execRdisp (u : CtxId) (f : Fields) (s : State) : Answer :=
  .next (s.run u f 0x81
    (f.zeroBut false false false true false true true true true && f.a16 && f.b16 && f.c16 && decide (f.immN < 2 ^ 14) &&
      decide (1 ≤ rdispK f) && decide (rdispK f ≤ 8) && decide (rdispE f ≤ 512) && decide (rdispK f ≤ rdispE f))
    (fun s =>
      let w := s.sv u f.C
      let ret := s.retBytes u.kit
      [when ((s.X u f.A).p || (s.X u f.B).p || s.sp u f.C) 3,
       s.accessFault (s.actor u) (s.xSpan u f.A) (s.xOff u f.A : Int) (4 * rdispE f) 64 rRead,
       s.accessFault (s.actor u) (s.xSpan u f.B) (s.xOff u f.B : Int) (s.actBytes u.kit) 64 rRead,
       s.accessFault (s.actor u) (s.rtr u.kit F.KIT_ROUTER_CONFIG_RET_SPAN) (w % 2 ^ 32 * ret : Int) ret 64 rReduce,
       when (decide (bits w 48 32 ≠ 0)) 8 w])
    (fun s =>
      if s.flagFull u f.auxN then s.waits u .flag else
        let base : Xfer := { kind := .rdisp, part := s.partOf u, unit := unitMallet u.kit u.drum u.mallet, stream := routerStream u.kit }
        let a := s.newXfer { base with src := s.spanPieces (s.actor u) (s.xSpan u f.A) (s.xOff u f.A) (4 * rdispE f),
                                       len := 4 * rdispE f, span := s.xSpan u f.A }
        let b := a.1.newXfer { base with src := s.spanPieces (s.actor u) (s.xSpan u f.B) (s.xOff u f.B) (s.actBytes u.kit),
                                         len := s.actBytes u.kit, span := s.xSpan u f.B }
        let tok : RouteTok := { num := (s.kit u.kit).nextTok, word := s.sv u f.C, k := rdispK f, e := rdispE f, layer := s.f F.KIT_ROUTER_CONFIG_LAYER u.kit 0,
                                scores := a.2, act := b.2, drum := u.drum, u := ctxKey u, flag := f.auxN }
        let s := (b.1.advance a.2).advance b.2
        let s := s.setKit u.kit (fun x => { x with presented := x.presented ++ [tok], nextTok := x.nextTok + 1 })
        (s.flagUp u f.auxN).done u))

/-- The order of R89 on scores: a NaN ranks below −∞ (R185). -/
def scoreKey (c : Nat) : Int := if isNaN32 c then -(2 ^ 40) else rank32 c

/-- The best expert not yet chosen: the lower index on a tie. -/
def bestScore (key : Nat → Int) (n : Nat) (chosen : List Nat) : Option Nat :=
  (List.range n).foldl (fun b i =>
    if i ∈ chosen then b else
      match b with
      | none => some i
      | some j => if key j < key i then some i else b) none

/-- The k best experts in rank order. -/
def topExperts (key : Nat → Int) (n k : Nat) : List Nat :=
  (List.range k).foldl (fun c _ => match bestScore key n c with | some i => c ++ [i] | none => c) []

/-- Gate weights of the selected scores in rank order (R185). -/
def gateWeights (softmax : Bool) (sc : List Nat) : List Nat :=
  if softmax then
    let es := sc.map (fun x => (softmaxHelper x (sc.headD 0)).1)
    let sum := es.tail.foldl (fun a e => (f32Add a e).1) (es.headD 0)
    es.map (fun e => (f32Mul e (vrecip sum).1).1)
  else sc

/-- The token's slot is cancelled in the originating drum (R195). -/
def State.tokCancelled (s : State) (k : Nat) (t : RouteTok) : Bool :=
  t.word.testBit 63 && nmem (s.drum k t.drum).cancel (bits t.word 62 49)

/-- ROUTER_TAKE_TOKEN: the router takes the oldest presented token when its queue has room and its operands are in hand. -/
def execRouterTakeToken (k : Nat) (s : State) : Answer :=
  match (s.kit k).presented with
  | [] => .next s
  | t :: rest =>
    if 64 ≤ (s.kit k).taken.length ∨ s.finishable t.scores = false ∨ s.finishable t.act = false then .next s
    else
      let gone := s.tokCancelled k t
      let all := fun (q : Piece) => !q.rem
      let s := if gone then s else (s.gather t.scores (some (k, t.drum)) all).gather t.act (some (k, t.drum)) all
      let sc := (s.xfer t.scores).data
      let ac := (s.xfer t.act).data
      let score := fun i => sc.v / 2 ^ (32 * i) % 2 ^ 32
      let sel := topExperts (fun i => scoreKey (score i)) t.e t.k
      let gates := gateWeights (decide (s.rtr k F.KIT_ROUTER_CONFIG_GATE = 1)) (sel.map score)
      let u := ctxOfKey t.u
      let s := ((s.endXfer t.scores).endXfer t.act).flagDown u t.flag
      let s := s.setKit k (fun x => { x with presented := rest })
      if gone then .next (s.count F.KIT_ROUTER_CANCELLED_COUNT k 0 1)
      else
        let s := if gates.any isNaN32 then s.count F.KIT_ROUTER_GATE_NAN_COUNT k 0 1 else s
        .next (s.setKit k (fun x => { x with taken := x.taken ++
          [{ tok := t, sel := sel.zip gates, hdrPoison := decide (sc.p ≠ 0), actV := ac.v, actP := ac.p,
             step := (s.rg .PAR_STEP_SEQ (s.partOf u) 0).toNat }] }))

/-- Word w of directory entry e of layer table t (Table 5.4). -/
def State.dirWord (s : State) (k t e w : Nat) : Nat := (s.rg .KIT_ROUTER_DIR k (2 * (512 * t + e) + w)).toNat

/-- The entry is unmapped when used by kit k's router (R184). One whose KIT names no kit is too. [log 132: DESIGN CHOICE] -/
def dirUnmapped (k w : Nat) : Bool :=
  decide (bits w 63 62 = 0) || decide (149 < bits w 55 48) || (decide (149 < bits w 47 40) && decide (bits w 47 40 ≠ 0xFF)) ||
    (decide (bits w 63 62 = 2) && decide (bits w 39 36 = k)) || (decide (bits w 63 62 = 2) && decide (7 < bits w 39 36))

/-- Why a record of a mapped entry cannot be sent, in the order of R193, as the event that it logs. -/
def State.routeBar (s : State) (k w dk dd : Nat) : Option EvName :=
  if bits w 63 62 = 3 then none
  else if (s.drum dk dd).inboxEn = false then some Ev.ROUTER_INBOX_INVALID
  else if s.actBytes dk ≠ s.actBytes k then some Ev.ROUTER_ACT_MISMATCH
  else if s.partOfKit dk ≠ s.partOfKit k ∨ s.kitLive dk = false then some Ev.ROUTER_TARGET_REFUSED
  else none

/-- Poison a token's return row, wherever RET_SPAN puts it, and log why (R193). The row counts once, however many of its experts fail. [log 129: DESIGN CHOICE] -/
def State.poisonRow (s : State) (k : Nat) (t : RouteTok) (e : EvName) : State :=
  let u := ctxOfKey t.u
  let p := s.partOf u
  let ret := s.retBytes k
  let s := s.poisonPieces (s.spanPieces (s.actor u) (s.rtr k F.KIT_ROUTER_CONFIG_RET_SPAN) (t.word % 2 ^ 32 * ret) ret)
  let s := s.log (srcKit k) e [] (some p) (some (unitDrum k t.drum))
  if nmem (s.kit k).rowsBad t.num then s
  else (s.setKit k (fun x => { x with rowsBad := nins x.rowsBad t.num })).count F.KIT_ROUTER_POISONED_COUNT k 0 1

/-- The bytes of a record (Table 5.6). -/
def State.recordBytes (s : State) (k : Nat) (x : RouteTaken) (gate stream : Nat) : Nat :=
  let ld := (s.logical k x.tok.drum).getD x.tok.drum
  let ret := 2 ^ 48 * s.node + s.rtr k F.KIT_ROUTER_CONFIG_RET_EXPORT * 2 ^ 40 + (x.tok.word % 2 ^ 32 * s.retBytes k) % 2 ^ 40
  x.tok.word + (2 ^ 32 * gate + 2 ^ 16 * s.node + k * 2 ^ 8 + ld) * 2 ^ 64 + 2 ^ 128 * stream + 2 ^ 192 * ret + 2 ^ 256 * x.step +
    2 ^ 512 * x.actV

/-- Send the record of rank i (R188): an unmapped entry or ENABLE = 0 sends none; any other is counted against its expert's capacity, and sent
unless its target bars it. -/
def State.sendRecord (s : State) (k : Nat) (x : RouteTaken) (i e gate : Nat) : State :=
  let t := x.tok.layer
  let w := s.dirWord k t e 0
  let cap := w % 2 ^ 16
  let dk := if bits w 63 62 = 1 then k else bits w 39 36
  let key := 512 * t + e
  let room := decide (cap = 0) || decide (mget 0 (s.kit k).expertCount key < cap)
  let past := !room && decide (bits w 47 40 ≠ 0xFF)
  let dl := if past then bits w 47 40 else bits w 55 48
  let dd := s.phys dk dl
  if dirUnmapped k w then s.poisonRow k x.tok Ev.ROUTER_EXPERT_UNMAPPED
  else if s.rtr k F.KIT_ROUTER_CONFIG_ENABLE = 0 then s.poisonRow k x.tok Ev.ROUTER_DISABLED
  else
    let s := if room then s.setKit k (fun q => { q with expertCount := mupd 0 q.expertCount key (· + 1) })
      else if past then s.count F.KIT_ROUTER_OVERFLOW_COUNT k 0 1 else s
    match s.routeBar k w dk dd with
    | some e => s.poisonRow k x.tok e
    | none =>
      let s := s.count F.KIT_ROUTER_DISPATCHED_COUNT k 0 1
      let v := s.recordBytes k x gate (s.dirWord k t e 1)
      let p := b2n x.hdrPoison + x.actP * 4
      let len := 64 + s.actBytes k
      let df := bits w 61 56
      if bits w 63 62 = 3 then
        let p' := s.partOf (ctxOfKey x.tok.u)
        s.issue p' (some (s.f F.MEM_PART_CHARGE_SUBSCRIBER p' 0)) (.routerRec k x.tok.drum (x.tok.word % 2 ^ 32) x.tok.num) none 1
          { op := opRecord, addr := bits w 31 16 * 2 ^ 48 + dk * 2 ^ 8 + dl, mask := len, payload := v, poison := p,
            red := 2 ^ 18 * t + 2 ^ 12 * df + 2 ^ 3 * e + i }
      else
        let entry : InboxRec := { rank := i, expert := e, df := df, layer := t, word := x.tok.word }
        s.setKit k (fun q => { q with records := q.records ++ [{ kit := dk, drum := dd, v := v, p := p, len := len, entry := entry, tok := x.tok }] })

/-- ROUTER_DISPATCH: the oldest taken token's records leave in rank order; a record to another device waits for its tag and credit. -/
def execRouterDispatch (k : Nat) (s : State) : Answer :=
  match (s.kit k).taken with
  | [] => .next s
  | x :: rest =>
    let remote := x.sel.filter (fun q => decide (bits (s.dirWord k x.tok.layer q.1 0) 63 62 = 3) &&
      !dirUnmapped k (s.dirWord k x.tok.layer q.1 0) && decide (s.rtr k F.KIT_ROUTER_CONFIG_ENABLE ≠ 0))
    if remote.any (fun q => !s.canIssue (s.partOf (ctxOfKey x.tok.u))
        (bits (s.dirWord k x.tok.layer q.1 0) 31 16 * 2 ^ 48) (64 + s.actBytes k)) then .next s
    else
      let s := s.setKit k (fun q => { q with taken := rest })
      .next ((List.range x.sel.length).foldl (fun s i =>
        let q := x.sel.getD i (0, 0)
        s.sendRecord k x i q.1 q.2) s)

/-- Fields of the inbox in force on a drum (Table 5.7). -/
def Drum.inboxBase (d : Drum) : Nat := F.DRM_INBOX_BASE.of d.inboxCfg * 256
def Drum.inboxLog (d : Drum) : Nat := F.DRM_INBOX_LOG2_RECORDS.of d.inboxCfg

/-- LOG2_RECORDS names a size (Table 5.7); any other value disables the inbox. -/
def inboxSized (w : BitVec 64) : Bool := decide (4 ≤ F.DRM_INBOX_LOG2_RECORDS.of w) && decide (F.DRM_INBOX_LOG2_RECORDS.of w ≤ 12)

/-- The inbox of a drum is on: its size is allowed and it fits the skin (R189). -/
def State.inboxFits (s : State) (k : Nat) (w : BitVec 64) : Bool :=
  let l := F.DRM_INBOX_LOG2_RECORDS.of w
  inboxSized w && decide (F.DRM_INBOX_BASE.of w * 256 + 64 + 2 ^ l * (64 + s.actBytes k) ≤ 0x600000)

/-- The offset in the skin where the next record of a size goes. -/
def Drum.inboxNext (d : Drum) (n : Nat) : Nat := d.inboxBase + 64 + d.inboxHead % 2 ^ d.inboxLog * n

/-- Write a record into the inbox ring of drum (k, d) (R189): none while the ring has no room; false when the inbox has become invalid
because its release word is poisoned. -/
def State.writeInbox (s : State) (k d : Nat) (q : RouteRec) : State × Option Bool :=
  let dr := s.drum k d
  let rel := s.readMem (unitDrum k d) (slotAddr k d dr.inboxBase) 8
  let n := dr.inboxHead
  if rel.2.p ≠ 0 then (rel.1.setDrum k d (fun x => { x with inboxEn := false }), some false)
  else if 2 ^ dr.inboxLog ≤ (n + 2 ^ 64 - rel.2.v) % 2 ^ 64 then (rel.1, none)
  else
    let off := dr.inboxNext q.len
    let s := rel.1.writeAll (unitDrum k d) (slotAddr k d off) q.len { v := q.v, p := q.p }
    let s := s.setDrum k d (fun x => { x with inboxHead := (n + 1) % 2 ^ 64, inbox := x.inbox ++ [{ q.entry with off := off }] })
    (s.setF F.DRM_INBOX_PENDING k d (s.f F.DRM_INBOX_PENDING k d + 1), some true)

/-- INBOX_RECORD_WRITTEN: the oldest record of a router is written into the inbox of drum (k, d), when that is where it goes and the
ring has room (R189); it is journaled for the drum whose token it is (R456). [log 151: DESIGN CHOICE] -/
def execInboxRecordWritten (k d : Nat) (s : State) : Answer :=
  match (List.range 8).find? (fun r => match (s.kit r).records with
      | q :: _ => decide (q.kit = k ∧ q.drum = d)
      | [] => false) with
  | none => .next s
  | some r =>
    match (s.kit r).records with
    | [] => .next s
    | q :: rest =>
      let gone := fun (s : State) => s.setKit r (fun x => { x with records := rest })
      if (s.drum k d).inboxEn = false then .next ((gone s).poisonRow r q.tok Ev.ROUTER_INBOX_INVALID)
      else if s.actBytes k + 64 ≠ q.len then .next ((gone s).poisonRow r q.tok Ev.ROUTER_ACT_MISMATCH)
      else
        let w := s.writeInbox k d q
        match w.2 with
        | none => .next w.1
        | some true => .next ((gone w.1).journalDrum (s.partOf (ctxOfKey q.tok.u)) r q.tok.drum (slotAddr k d ((s.drum k d).inboxNext q.len)) q.len)
        | some false => .next ((gone w.1).poisonRow r q.tok Ev.ROUTER_INBOX_INVALID)

/-- RRECV takes the oldest record of the drum's inbox (R190). -/
def execRrecv (u : CtxId) (f : Fields) (s : State) : Answer :=
  .next (s.run u f 0x82 (f.zeroBut false false false false true false false false false && f.d16) (fun _ => [])
    (fun s =>
      let d := s.drum u.kit u.drum
      match d.inbox with
      | [] => s.waits u .inbox
      | q :: rest =>
        let stream := !nmem d.flagSet q.df
        let canc := q.word.testBit 63 && nmem d.cancel (bits q.word 62 49)
        let p := s.partOf u
        let s := s.setDrum u.kit u.drum (fun x => { x with inbox := rest })
        let s := s.setF F.DRM_INBOX_PENDING u.kit u.drum (s.f F.DRM_INBOX_PENDING u.kit u.drum - 1)
        let s := if stream then s.count F.KIT_ROUTER_STREAM_COUNT u.kit 0 1 else s
        let s := if stream && !(s.kit u.kit).streamLogged then
            (s.log (srcKit u.kit) Ev.EXPERT_STREAM [q.expert, q.layer] (some p)
              (some (unitDrum u.kit u.drum))).setKit u.kit (fun x => { x with streamLogged := true })
          else s
        let v := 2 ^ 63 * b2n stream + 2 ^ 62 * b2n canc + 2 ^ 59 * q.rank + 2 ^ 50 * q.expert + q.off
        (s.putS u f.D (BitVec.ofNat 64 v) false).done u))

/-- ROUTER_DIR_WRITE of word e of kit k's directory: dropped and logged while the kit's partition is RUNNING or STOPPING (R184). -/
def execRouterDirWrite (i k e : Nat) (w : Sys2Proof.Word) (s : State) : Answer :=
  if RegName.KIT_ROUTER_DIR.has k e = false ∨ s.kitLive k = false ∨ s.canWrite i = false then .next s
  else
    let busy := match s.partOfKit k with
      | some p => decide (s.stepState p = stRunning) || decide (s.stepState p = stStopping)
      | none => false
    if busy then .next (s.log (srcKit k) Ev.ROUTER_DIR_BUSY [] (s.partOfKit k))
    else .next (s.setRg .KIT_ROUTER_DIR k e w)

end Sys2Proof.Machine
end

