-- ==== Sys2Proof/Machine/Serve.lean ====
section
/-!
DEFINITION. Sys2Proof/Machine/Serve.lean: the serving engine: admission, slots, responses, cancellation and emit lists
(07_serving_engine.md, R234 to R258).
-/
namespace Sys2Proof.Machine

open Sys2Proof (CtxId Fields Word)

def State.slotX (s : State) (n : Nat) : SlotX := mget {} s.serve.slots n
def State.setSlotX (s : State) (n : Nat) (f : SlotX → SlotX) : State :=
  s.setServe (fun v => { v with slots := mupd {} v.slots n f })

/-- The node that handles name: PAIR_NODE in a pair, else the device's own. [log 52: DEDUCED] -/
def State.serveNode (s : State) : Nat :=
  if s.fb F.HUB_PAIR_CFG_ENABLE 0 0 then s.f F.HUB_PAIR_CFG_PAIR_NODE 0 0 else s.node

/-- The handle of slot n's request (R21). -/
def State.handleOf (s : State) (n : Nat) : Nat :=
  2 ^ 48 * s.serveNode + s.slPartField n * 2 ^ 45 + 2 ^ 31 * n + s.slGen n

def handleSlot (h : Nat) : Nat := bits h 44 31

/-- A handle is stale whatever its slot's record says (R22): another node or partition, or a slot outside the range of the window's partition p,
if one bounds it (R255). -/
def State.foreign (s : State) (p : Option Nat) (h : Nat) : Bool :=
  let n := handleSlot h
  decide (h / 2 ^ 48 ≠ s.serveNode) || decide (h % 2 ^ 31 = 0) || decide (s.slotPart n ≠ some (bits h 47 45)) ||
    (match p with | some p => !s.ownsSlot p n | none => false)

/-- A handle is stale (R22). -/
def State.stale (s : State) (p : Option Nat) (h : Nat) : Bool :=
  s.foreign p h || decide (h % 2 ^ 31 ≠ s.slGen (handleSlot h))

-- ===== Stores that the engine owes =====

/-- A SERVE command's completion is ready with its payload (R539). -/
def State.hostServeDone (s : State) (q num : Nat) (payload : List Nat) : State :=
  let w := mget [] s.host.waiting q
  let up := fun (c : HostCompl) => if c.serve && !c.ready && decide (c.num = num) then { c with ready := true, payload := payload } else c
  { s with host := { s.host with waiting := mput [] s.host.waiting q (w.map up) } }

/-- A response record (Table 7.8). [log 49: DEDUCED] -/
def respRecord (kind code node seq handle tag index token plen generated time : Nat) : Nat :=
  (2 ^ 56 * kind + 2 ^ 48 * code + 2 ^ 32 * node + seq) + 2 ^ 64 * handle + 2 ^ 128 * tag + (2 ^ 32 * index + token) * 2 ^ 192 +
    (2 ^ 32 * plen + generated) * 2 ^ 256 + 2 ^ 320 * time

/-- Words 0 to 5 of a record. -/
def recordWords (v : Nat) : List Nat := (List.range 6).map (wordOf v)

/-- Answer a request with one record outside a slot's queue, at addr or to the host command; v has TIME 0, which becomes HUB_TIME at issue (R244). -/
def State.answerRecord (s : State) (r : ReqRec) (addr v : Nat) : State :=
  match r.src with
  | .fabric => s.oweRecord r.part addr v
  | .host q num => s.hostServeDone q num (recordWords (v + 2 ^ 320 * (s.time % 2 ^ 64)))

/-- A result word goes to RESULT or to the host command (R255). -/
def State.putResult (s : State) (part : Nat) (src : ReqSrc) (addr code slotState generated : Nat) : State :=
  let w := 2 ^ 56 * code + 2 ^ 52 * slotState + generated
  let s := if code = 1 then s.count F.SRV_DONE_BEFORE_ABORT_COUNT 0 0 1
           else if code = 3 then s.count F.SRV_STALE_HANDLE_COUNT 0 0 1 else s
  match src with
  | .fabric => s.owe part addr w 8
  | .host q num => s.hostServeDone q num [w]

-- ===== Slot events =====

/-- "Release KV" (R241): RELEASE of the slot's descriptor when it is not FREE. -/
def State.releaseKv (s : State) (n : Nat) : State :=
  if s.kvState n = kvFree then s else s.kvSubmit 8 (6 * 2 ^ 60 + 2 ^ 46 * n + s.kvPart n * 2 ^ 43)

/-- Queue a response record of slot n. [log 49: DEDUCED] -/
def State.pushResp (s : State) (n : Nat) (r : Resp) : State := s.setSlotX n (fun x => { x with queue := x.queue ++ [r] })

/-- Close slot n with its terminal record. -/
def State.closeSlot (s : State) (n : Nat) (r : Resp) : State :=
  (((s.setSlState n slClosing).pushResp n r).setSlotX n (fun x => { x with term := r.kind })).releaseKv n

/-- The slot's bit in every drum of its partition's kits (R255). -/
def State.setCancel (s : State) (p n : Nat) (b : Bool) : State :=
  (((List.range 8).filter (fun k => s.kitLive k && s.ownsKit p k)) ++
      (if s.fb F.PAR_CONFIG_GUEST p 0 then s.kitsOf p else [])).foldl (fun s k =>
    (List.range 156).foldl (fun s d => s.setDrum k d (fun x => { x with cancel := nset x.cancel n b })) s) s

/-- The NOTICE record (R242): OP 4, code, the home's handle, and the work handle in word 15. -/
def State.noticeRecord (s : State) (n code : Nat) : Nat :=
  (4 * 2 ^ 60 + 2 ^ 48 * code) + s.slotW n 15 * 2 ^ 64 + s.handleOf n * 2 ^ 960

/-- The home's admission window at the node of a handle: LINK_EXPORT, offset 0. -/
def windowAddr (handle exp : Nat) : Nat := handle / 2 ^ 48 * 2 ^ 48 + 2 ^ 40 * exp

/-- Slot n, a work slot, tells its home. -/
def State.sendNotice (s : State) (n code : Nat) : State :=
  s.owe (s.slPartField n) (windowAddr (s.slotW n 15) (bits (s.slotW n 0) 34 27)) (s.noticeRecord n code) 128

/-- A cancellation of slot n is decided: code 0 cancelled, 1 done before the abort. A forwarded one is told to its home, another to its
canceller. [log 52: DEDUCED] -/
def State.decideForward (s : State) (n code : Nat) : State :=
  let x := s.slotX n
  let s := if x.fromHome then s.sendNotice n (code + 1) else s
  match x.result with
  | none => s
  | some (src, addr) =>
    (s.putResult (s.slPartField n) src addr code (s.slState n) (s.slGenerated n)).setSlotX n (fun x => { x with result := none })

/-- The record in flight of slot n has been acknowledged or has failed (R242, R244, R255). A cancellation whose slot closed with ERR_POISON ends as
DONE_BEFORE_ABORT. [log 127: DESIGN CHOICE] -/
def State.respDone (s : State) (n : Nat) (ok : Bool) : State :=
  let x := s.slotX n
  let k := x.flight
  let s := s.setSlotX n (fun x => { x with flight := 0, termDone := x.termDone || decide (4 ≤ k) })
  if k = 5 then s.decideForward n 0
  else if k = 6 ∧ (x.fromHome = true ∨ x.result.isSome) then s.decideForward n 1
  else if (k = 4 ∨ k = 6) ∧ s.slWork n = true ∧ ok = true then s.sendNotice n 0
  else s

/-- A poisoned record moves its slot, unless FREE, to CLOSING with an ERROR record in place of what waits, or with its terminal record taken as
failed where REPLY cannot be read (R240). A terminal record that has been issued stays the only one (R245). [log 127: DESIGN CHOICE] -/
def State.slotPoisoned (s : State) (n : Nat) (reply : Bool) : State :=
  let x := s.slotX n
  if s.slState n = slFree then s
  else
    let s := (s.setSlState n slClosing).setSlotX n (fun x => { x with awaiting := false })
    if x.termDone ∨ 4 ≤ x.flight then s
    else
      let s := s.setSlotX n (fun x => { x with queue := [] })
      if reply then s.closeSlot n { kind := 6, code := 0x10, generated := s.slGenerated n }
      else
        let s := (s.setSlotX n (fun x => { x with term := 6, termDone := true })).releaseKv n
        if x.fromHome ∨ x.result.isSome then s.decideForward n 1 else s

/-- The engine reads n bytes of a slot's record for an event. A poisoned granule refuses the event (R240). -/
def State.slotRead (s : State) (n bytes : Nat) : State × Bool :=
  let r := s.hubRead 1 (reqSlotAddr n) 128
  if r.2.p % 2 ^ (bytes / 32) = 0 then (r.1, true)
  else ((r.1.log (srcHub 1) Ev.SLOT_POISON [n] (r.1.slotPart n) (some (unitHub 1))).slotPoisoned n (!r.2.p.testBit 0), false)

/-- The engine reads slot n's whole record for an event. -/
def State.slotGate (s : State) (n : Nat) : State × Bool := s.slotRead n 128

/-- What an operation that names a handle finds: a stale handle, a poisoned record, or its slot (R22, R240). -/
inductive HandleHit where
  | stale | poisoned | slot
deriving DecidableEq, Repr

/-- The engine looks a handle up: the generation is a word of the slot's record, so a poisoned record refuses the operation before it is
compared. -/
def State.findHandle (s : State) (p : Option Nat) (h : Nat) : State × HandleHit :=
  if s.foreign p h then (s, .stale)
  else
    let q := s.slotGate (handleSlot h)
    if q.2 = false then (q.1, .poisoned)
    else if q.1.stale p h then (q.1, .stale) else (q.1, .slot)

/-- Host queue pair q is in service (Table 18.5): both of its rings have 2^4 to 2^15 entries. -/
def State.hqOn (s : State) (q : Nat) : Bool :=
  let sq := s.f F.HUB_HQ_CFG_SQ_LOG2 q 0
  let cq := s.f F.HUB_HQ_CFG_CQ_LOG2 q 0
  decide (q < 16) && s.fb F.HUB_HQ_CFG_ENABLE q 0 && decide (4 ≤ sq) && decide (4 ≤ cq)

/-- The response unit reads the slot's record, unless it issues the ERROR record of a poisoned one (R240), and issues the next record of slot n (R244): to the ring at REPLY, to the host queue that REPLY names, or to the
pair's hold buffer until the hashes match (R474). -/
def execResponseIssue (slot : Nat) (s : State) : Answer :=
  let s := s.pumpOwed
  let x := s.slotX slot
  match x.queue with
  | [] => .next s
  | r :: rest =>
    let p := s.slPartField slot
    let reply := s.slotW slot 3
    let lost := decide (r.kind = 5) && decide (r.code = 1)
    let seq := if lost then 2 ^ 32 - 1 else s.slSeq slot
    let addr := reply + 64 * (seq % 2 ^ bits (s.slotW slot 9) 24 20)
    let host := decide (x.hostQ ≠ 0)
    let held := !host && s.compares p && !s.holdFits p 64
    if 2 ^ 14 ≤ slot ∨ x.flight ≠ 0 ∨ held = true ∨ (host = false ∧ s.canIssue p addr 64 = false) then .next s
    else if r.code ≠ 0x10 ∧ (s.slotGate slot).2 = false then .next (s.slotGate slot).1
    else
      let s := if r.code = 0x10 then s else (s.slotGate slot).1
      let home := if s.slWork slot then s.slotW slot 15 else s.handleOf slot
      let v := respRecord r.kind r.code s.serveNode seq home (s.slotW slot 2) r.index r.token (s.slotW slot 5 / 2 ^ 32) r.generated s.time
      let s := if lost then s else s.putSlotW slot 1 (setBits (s.slotW slot 1) 32 32 ((seq + 1) % 2 ^ 32))
      let s := s.setSlotX slot (fun x => { x with queue := rest, flight := r.kind, sent := (addr, v) })
      let s := if r.kind = 3 ∨ r.kind = 4 then s.count F.SRV_TOKENS_OUT_COUNT 0 0 1 else s
      let s := if r.kind = 5 then s.count F.SRV_CANCELLED_COUNT 0 0 1 else s
      if host then
        let q := x.hostQ - 1
        if s.hqOn q = false then .next (s.respDone slot false)
        else
        let c : HostCompl := { cid := 0xFFFF, payload := recordWords v, slot := slot + 1 }
        .next { s with host := { s.host with waiting := mput [] s.host.waiting q (mget [] s.host.waiting q ++ [c]) } }
      else
        let k : Pkt := { op := opStore, size := 4, addr := addr, payload := v }
        let hk := 2 ^ 32 * slot + seq
        let h := pairHash hk v 64 0 0
        let n := (s.rg .PAR_STEP_SEQ p 0).toNat
        let held : Held := { kind := 2, part := p, key := hk, hash := h, closed := true, pkts := [k], record := slot + 1, step := n }
        if s.compares p then
          let msg : CompareMsg := { kind := 2, part := p, key := hk, step := n, hash := h }
          .next { s with pair := { s.pair with waiting := s.pair.waiting ++ [held], sent := s.pair.sent ++ [msg] } }
        else .next ((s.issue p (some (s.slSub slot)) (.resp slot) none 1 k).noteRelease held)

-- ===== Request records (R234 to R239) =====

def ReqRec.w (r : ReqRec) (i : Nat) : Nat := wordOf r.v i
def ReqRec.op (r : ReqRec) : Nat := bits (r.w 0) 63 60
def ReqRec.sub (r : ReqRec) : Nat := bits (r.w 0) 47 36
def ReqRec.service (r : ReqRec) : Nat := bits (r.w 0) 55 48
def ReqRec.stopN (r : ReqRec) : Nat := bits (r.w 9) 14 12

/-- FP32 codes that are finite. -/
def finite32 (c : Nat) : Bool := decide (bits c 30 23 ≠ 255)

/-- Reserved fields and the fields that SUBMIT or ATTACH does not use are zero. -/
def ReqRec.fieldsOk (r : ReqRec) : Bool :=
  let att := decide (r.op = 3)
  decide (bits (r.w 0) 57 56 = 0) && decide (bits (r.w 0) 35 35 = 0) && (att || decide (bits (r.w 0) 34 27 = 0)) &&
    decide (bits (r.w 0) 26 0 = 0) && (att || (decide (r.w 1 = 0) && decide (r.w 6 = 0) && decide (r.w 15 = 0))) &&
    decide (bits (r.w 9) 19 15 = 0) && decide (bits (r.w 9) 11 0 = 0) && decide (r.w 12 = 0) && decide (r.w 13 = 0) &&
    decide ((r.w 10 + 2 ^ 64 * r.w 11) / 2 ^ (24 * r.stopN) = 0)

/-- The checks of ADM_BAD_RECORD (Table 7.3). -/
def ReqRec.bad (r : ReqRec) : Bool :=
  !(r.op = 1 || r.op = 3) || !r.fieldsOk || decide (r.w 3 % 64 ≠ 0) || decide (bits (r.w 9) 24 20 < 4) ||
    decide (20 < bits (r.w 9) 24 20) || decide (5 < r.stopN) || decide (64 < bits (r.w 9) 31 25) || decide (r.w 5 % 2 ^ 32 = 0) ||
    !finite32 (r.w 7 / 2 ^ 32) || bit (r.w 7) 63 || decide (r.w 7 % 2 ^ 32 = 0) || decide (0x3F800000 < r.w 7 % 2 ^ 32) ||
    !finite32 (r.w 8 / 2 ^ 32) || bit (r.w 8) 63 || decide (r.w 8 / 2 ^ 32 = 0) || !finite32 (r.w 8 % 2 ^ 32) ||
    !finite32 (r.w 9 / 2 ^ 32)

/-- Bucket levels of a subscriber. -/
def State.reqLevel (s : State) (u : Nat) : Nat := mget 0 s.serve.reqLevel u
def State.tokLevel (s : State) (u : Nat) : Nat := mget 0 s.serve.tokLevel u
/-- BURST of each bucket in the units of its level (R237). -/
def State.reqBurst (s : State) (u : Nat) : Nat := 65536 * s.f F.SRV_SUB_POLICE_REQ_BURST u 0
def State.tokBurst (s : State) (u : Nat) : Nat := s.f F.SRV_SUB_POLICE_TOK_BURST u 0 * 16 * 256

/-- Fill both buckets of a subscriber. -/
def State.fillBuckets (s : State) (u : Nat) : State :=
  s.setServe (fun v => { v with reqLevel := mput 0 v.reqLevel u (s.reqBurst u), tokLevel := mput 0 v.tokLevel u (s.tokBurst u) })

/-- Refill at a window close (R237). -/
def State.refillBuckets (s : State) : State :=
  (s.regs.map Prod.fst).foldl (fun s o =>
    match regAt o with
    | some (.SRV_SUB_POLICE, u, _) =>
      s.setServe (fun v => { v with
        reqLevel := mput 0 v.reqLevel u (min (s.reqLevel u + s.f F.SRV_SUB_POLICE_REQ_RATE u 0) (s.reqBurst u)),
        tokLevel := mput 0 v.tokLevel u (min (s.tokLevel u + s.f F.SRV_SUB_POLICE_TOK_RATE u 0) (s.tokBurst u)) })
    | _ => s) s

/-- The buckets hold enough for a record of n prompt tokens. -/
def State.policeOk (s : State) (u n : Nat) : Bool :=
  (decide (s.reqBurst u = 0) || decide (65536 ≤ s.reqLevel u)) && (decide (s.tokBurst u = 0) || decide (n * 256 ≤ s.tokLevel u))

/-- Debit the buckets. -/
def State.policeDebit (s : State) (u n : Nat) : State :=
  s.setServe (fun v => { v with
    reqLevel := if s.reqBurst u = 0 then v.reqLevel else mput 0 v.reqLevel u (s.reqLevel u - 65536),
    tokLevel := if s.tokBurst u = 0 then v.tokLevel else mput 0 v.tokLevel u (s.tokLevel u - n * 256) })

/-- The lowest FREE slot of a partition. -/
def State.freeSlot (s : State) (p : Nat) : Option Nat :=
  (span (s.f F.SRV_PART_SERVE_SLOT_BASE p 0) (s.f F.SRV_PART_SERVE_SLOT_COUNT p 0)).find? (fun n => decide (s.slState n = slFree))

/-- Refuse a SUBMIT, an ATTACH or an unknown record (R236). -/
def State.refuse (s : State) (r : ReqRec) (code : Nat) : State :=
  let s := if code = 6 then s.count F.SRV_POLICED_COUNT 0 0 1 else s.count F.SRV_REFUSED_COUNT 0 0 1
  let addr := if r.op = 3 then r.w 1 else r.w 3
  let v := respRecord 2 code s.serveNode 0 0 (r.w 2) 0 0 (r.w 5 / 2 ^ 32) 0 0
  let host := match r.src with | .host _ _ => true | .fabric => false
  if host then s.answerRecord r 0 v
  else if r.p.testBit 0 then s.log (srcHub 1) Ev.ADMIT_UNREPLIABLE [r.sub, code] (some r.part) (some (unitHub 1))
  else s.answerRecord r addr v

/-- A request record arrives at partition p's window (R234, R236): it waits in its queue, or is refused where that is full. -/
def State.deliver (s : State) (r : ReqRec) : State :=
  if r.op = 2 ∨ r.op = 4 then
    if 64 ≤ s.serve.canQ.length then (match r.src with
        | .host q num => s.fresh.hostServeDone q num [Config.freeValue s.freeCtr % 2 ^ 64]
        | .fabric => s) else s.setServe (fun v => { v with canQ := v.canQ ++ [r] })
  else if 256 ≤ s.serve.reqQ.length then (if r.op = 5 then (match r.src with
        | .host q num => s.fresh.hostServeDone q num [Config.freeValue s.freeCtr % 2 ^ 64]
        | .fabric => s) else s.refuse r 9)
  else s.setServe (fun v => { v with reqQ := v.reqQ ++ [r] })

/-- The first check of Table 7.3 from ADM_POISON on that fails before policing. -/
def State.admitCode (s : State) (r : ReqRec) : Nat :=
  let sv := r.service
  let plen := r.w 5 / 2 ^ 32
  if r.p ≠ 0 then 2
  else if r.bad then 1
  else if s.f F.SRV_SERVICE_ENABLE sv 0 = 0 ∨ s.f F.SRV_SERVICE_PARTITION sv 0 ≠ r.part then 3
  else if s.f F.SRV_SUB_CFG_ENABLE r.sub 0 = 0 then 4
  else if plen = 0 ∨ s.f F.SRV_SERVICE_MAX_CLASS sv 0 < bits (r.w 0) 59 58 ∨
      classCT (bits (r.w 0) 59 58) < plen + r.w 5 % 2 ^ 32 then 5
  else if s.policeOk r.sub plen = false then 6
  else 0

/-- Copy an accepted record into slot n under Table 7.2 (R239). -/
def State.fillSlot (s : State) (n : Nat) (r : ReqRec) : State :=
  let att := decide (r.op = 3)
  let g := s.slGen n
  let g := if g = 2 ^ 31 - 1 then 1 else g + 1
  let last := s.slLast n
  let w0 := 2 ^ 60 * slQueued + bits (r.w 0) 59 58 * 2 ^ 58 + 2 ^ 48 * r.service + 2 ^ 36 * r.sub + b2n att * 2 ^ 35 +
    (if att then bits (r.w 0) 34 27 * 2 ^ 27 else 0) + 2 ^ 24 * r.part + 2 ^ 20 * last
  let reply := match r.src with | .host q _ => 0xFFFF000000000000 + q | .fabric => r.w 3
  let gen := if att then r.w 6 % 2 ^ 32 else 0
  let seq := match r.src with | .host _ _ => 1 | .fabric => if att then r.w 6 / 2 ^ 32 else 0
  let v := w0 + (2 ^ 32 * seq + g) * 2 ^ 64 + 2 ^ 128 * r.w 2 + 2 ^ 192 * reply + 2 ^ 256 * r.w 4 + 2 ^ 320 * r.w 5 + 2 ^ 384 * gen +
    2 ^ 448 * r.w 7 + 2 ^ 512 * r.w 8 + 2 ^ 576 * r.w 9 + 2 ^ 640 * r.w 10 + 2 ^ 704 * r.w 11 + 2 ^ 896 * r.w 14 +
    (if att then r.w 15 else 0) * 2 ^ 960
  let hq := match r.src with | .host q _ => q + 1 | .fabric => 0
  (s.writeAll (unitHub 1) (reqSlotAddr n) 128 { v := v, p := 0 }).setSlotX n (fun _ => { hostQ := hq })

/-- An accepted SUBMIT or ATTACH takes slot n (R239). -/
def State.accept (s : State) (r : ReqRec) (n : Nat) : State :=
  let s := (s.fillSlot n r).count F.SRV_ADMITTED_COUNT 0 0 1
  let s := s.setF F.SRV_SUB_CFG_SLOTS r.sub 0 (s.f F.SRV_SUB_CFG_SLOTS r.sub 0 + 1)
  let s := s.acct r.sub 11 (r.w 5 / 2 ^ 32) 1
  let gen := s.slGenerated n
  let v := fun (h : Nat) => respRecord 1 0 s.serveNode 0 h (r.w 2) 0 0 (r.w 5 / 2 ^ 32) gen 0
  match r.src with
  | .host _ _ => s.answerRecord r 0 (v (if r.op = 3 then r.w 15 else s.handleOf n))
  | .fabric =>
    if r.op = 3 then s.answerRecord r (r.w 1) (v (s.handleOf n))
    else s.pushResp n { kind := 1, generated := gen }

/-- Serve the record at the head of the request queue (R236). -/
def State.admitReq (s : State) (r : ReqRec) : State :=
  let c := s.admitCode r
  if c ≠ 0 then s.refuse r c
  else
    let s := s.policeDebit r.sub (r.w 5 / 2 ^ 32)
    if s.f F.SRV_SUB_CFG_MAX_SLOTS r.sub 0 ≠ 0 ∧ s.f F.SRV_SUB_CFG_SLOTS r.sub 0 = s.f F.SRV_SUB_CFG_MAX_SLOTS r.sub 0 then s.refuse r 7
    else match s.freeSlot r.part with
      | none => s.refuse r 8
      | some n =>
        -- a poisoned record of the FREE slot refuses the event (R240)
        let q := s.slotGate n
        if q.2 then q.1.accept r n else q.1.refuse r 8

/-- The head of the request queue when the cancel queue is empty, it belongs to partition p and a test picks its OP. [log 50: DEDUCED] -/
def State.headReq (s : State) (p : Nat) (pick : Nat → Bool) : Option ReqRec :=
  match s.serve.canQ, s.serve.reqQ with
  | [], r :: _ => if r.part = p ∧ pick r.op = true then some r else none
  | _, _ => none

/-- SUBMIT, and records of a reserved OP, which admission refuses (R236). -/
def execSubmit (p : Nat) (s : State) : Answer :=
  match s.headReq p (fun o => !(o = 3 || o = 5)) with
  | none => .next s
  | some r => .next ((s.setServe (fun v => { v with reqQ := v.reqQ.tail })).admitReq r)

/-- ATTACH. -/
def execAttach (p : Nat) (s : State) : Answer :=
  match s.headReq p (fun o => o = 3) with
  | none => .next s
  | some r => .next ((s.setServe (fun v => { v with reqQ := v.reqQ.tail })).admitReq r)

/-- A poisoned CANCEL, QUERY or NOTICE is dropped and logged. [log 50: DEDUCED] -/
def State.dropPoisoned (s : State) (r : ReqRec) : State :=
  s.log (srcHub 1) Ev.ADMIT_UNREPLIABLE [r.sub, 2] (some r.part) (some (unitHub 1))

/-- QUERY (R255). [log 50: DEDUCED] -/
def execQuery (p : Nat) (s : State) : Answer :=
  match s.headReq p (fun o => o = 5) with
  | none => .next s
  | some r =>
    let s := s.setServe (fun v => { v with reqQ := v.reqQ.tail })
    let h := r.w 1
    let n := handleSlot h
    if r.p ≠ 0 then .next (s.dropPoisoned r)
    else
      let q := s.findHandle (some p) h
      match q.2 with
      | .slot => .next (q.1.putResult p r.src (r.w 3) 4 (q.1.slState n) (q.1.slGenerated n))
      | _ => .next (q.1.putResult p r.src (r.w 3) 3 0 0)

-- ===== Cancellation (R255 to R257) =====

/-- A cancellation is accepted in QUEUED, PREFILL, DECODE or PARKED (R255). -/
def State.cancelHere (s : State) (n : Nat) (src : ReqSrc) (addr : Nat) (fwd : Bool) : State :=
  let x := s.slotX n
  let lost := (x.queue.filter (fun r => decide (r.kind = 3))).length
  let g := s.slGenerated n - lost
  let s := (s.setGenerated n g).setSlState n slCancelling
  let c : Resp := { kind := 5, generated := g }
  let s := s.setSlotX n (fun x =>
    { x with queue := [c], term := 5, result := if fwd then none else some (src, addr), fromHome := fwd })
  ((s.setCancel (s.slPartField n) n true).releaseKv n)

/-- A CANCEL of a REMOTE home is forwarded to its work slot (R257): a CANCEL record with FWD and HANDLE = LINK. The work device's
admission export is a value that the spec leaves open. One that came forwarded itself (fwd) is answered by a NOTICE. [log 51: DESIGN CHOICE] -/
def State.cancelForward (s : State) (n : Nat) (src : ReqSrc) (addr : Nat) (fwd : Bool) : State :=
  let link := s.slotW n 15
  let e := Config.freeValue s.freeCtr % 256
  let s := (s.fresh.setSlState n slCancelling).setSlotX n (fun x =>
    { x with awaiting := true, result := if fwd then none else some (src, addr), fromHome := fwd })
  s.owe (s.slPartField n) (windowAddr link e) ((2 * 2 ^ 60 + 2 ^ 35) + 2 ^ 64 * link) 128 n 1

/-- Tell the canceller at once: a result word, or for a forwarded CANCEL a NOTICE to the home (R257), counted like the result word (Table 7.14).
When the handle is stale, or its slot is no work slot, the device no longer holds the home's handle and admission export, and the record does not
carry them: the NOTICE goes to a home handle and an export that are free values, with the handle presented in word 15. [log 51: DESIGN CHOICE] -/
def State.cancelAnswer (s : State) (r : ReqRec) (n code : Nat) : State :=
  if bit (r.w 0) 35 then
    let s := if code = 3 then s.count F.SRV_STALE_HANDLE_COUNT 0 0 1 else if code = 1 then s.count F.SRV_DONE_BEFORE_ABORT_COUNT 0 0 1 else s
    let c := if code = 3 then 3 else if code = 1 then 2 else 1
    if code ≠ 3 ∧ s.slWork n = true then s.sendNotice n c
    else
      let link := Config.freeValue s.freeCtr % 2 ^ 64
      let e := Config.freeValue s.freeCtr / 2 ^ 64 % 256
      s.fresh.owe r.part (windowAddr link e) ((4 * 2 ^ 60 + 2 ^ 48 * c) + link * 2 ^ 64 + r.w 1 * 2 ^ 960) 128
  else s.putResult r.part r.src (r.w 3) code (if code = 3 then 0 else s.slState n) (if code = 3 then 0 else s.slGenerated n)

/-- CANCEL (R255). [log 50: DEDUCED] -/
def execCancel (p : Nat) (s : State) : Answer :=
  match s.serve.canQ with
  | [] => .next s
  | r :: rest =>
    if r.part ≠ p ∨ r.op ≠ 2 then .next s
    else
      let s := s.setServe (fun v => { v with canQ := rest })
      let h := r.w 1
      let n := handleSlot h
      if r.p ≠ 0 then .next (s.dropPoisoned r)
      else
        let q := s.findHandle (some p) h
        let s := q.1
        match q.2 with
        | .stale => .next (s.cancelAnswer r n 3)
        | .poisoned => .next (s.cancelAnswer r n 1)
        | .slot =>
          let st := s.slState n
          let fwd := bit (r.w 0) 35
          if st = slFree then .next (s.cancelAnswer r n (if s.slLast n = 5 then 2 else 1))
          else if st = slClosing then .next (s.cancelAnswer r n 1)
          else if st = slCancelling then .next (s.cancelAnswer r n 2)
          else if st = slRemote then .next (s.cancelForward n r.src (r.w 3) fwd)
          else .next (s.cancelHere n r.src (r.w 3) fwd)

/-- The forward of slot n's cancellation failed, or its work slot was stale: WORK_LOST (R257). -/
def State.workLost (s : State) (n : Nat) : State :=
  if (s.slotX n).awaiting && decide (s.slState n = slCancelling) then
    (s.setSlotX n (fun x => { x with awaiting := false, term := 5 })).pushResp n { kind := 5, code := 1, generated := s.slGenerated n }
  else s

/-- The store of a forwarded CANCEL or of an owed record is answered or fails. [log 51: DESIGN CHOICE] -/
def State.noticeDone (s : State) (n : Nat) (ok : Bool) : State :=
  if 2 ^ 14 ≤ n ∨ ok = true then s else s.workLost n

/-- NOTICE (R241, R242). What LAST becomes when a work slot has finished is not told to the home: a free value decides between FINAL
and ERROR. [log 50: DEDUCED] -/
def execNotice (p : Nat) (s : State) : Answer :=
  match s.serve.canQ with
  | [] => .next s
  | r :: rest =>
    if r.part ≠ p ∨ r.op ≠ 4 then .next s
    else
      let s := s.setServe (fun v => { v with canQ := rest })
      let h := r.w 1
      let n := handleSlot h
      let code := bits (r.w 0) 55 48
      if r.p ≠ 0 then .next (s.dropPoisoned r)
      else
        let q := s.findHandle (some p) h
        let s := q.1
        match q.2 with
        | .stale => .next (s.log (srcHub 1) Ev.NOTICE_STRAY [] (some p) (some (unitHub 1)))
        | .poisoned => .next s
        | .slot =>
          let st := s.slState n
          let fin := 4 + 2 * (Config.freeValue s.freeCtr % 2)
          if st = slRemote ∧ code = 0 then
            .next (((s.fresh.setSlState n slClosing).setSlotX n (fun x => { x with term := fin, termDone := true })).releaseKv n)
          else if st = slCancelling ∧ (s.slotX n).awaiting = true then
            if code = 1 then
              .next ((s.setSlotX n (fun x => { x with awaiting := false, term := 5, termDone := true })).decideForward n 0)
            else if code = 0 ∨ code = 2 then
              .next (((s.fresh.setSlState n slClosing).setSlotX n
                (fun x => { x with awaiting := false, term := fin, termDone := true })).decideForward n 1)
            else if code = 3 then .next (s.workLost n)
            else .next s
          else .next s

-- ===== Slot commands and freeing (R242, R243) =====

/-- Answer a slot command. -/
def State.slotAnswer (s : State) (c code : Nat) : State := (s.setF F.SRV_SLOT_RESULT_DONE c 0 1).setF F.SRV_SLOT_RESULT_CODE c 0 code

/-- A slot command row of control core c: the write of SRV_SLOT_CMD[c] with that OP. -/
def State.slotRow (s : State) (op c : Nat) (w : Word) (act : Nat → Nat → State → State × Nat) : State :=
  let v := w.toNat
  let n := bits v 59 46
  if 8 ≤ c ∨ s.canWrite c = false ∨ bits v 63 60 ≠ op then s
  else
    let s := s.forward c .SRV_SLOT_CMD c 0 w
    let q := s.slotGate n
    if q.2 = false then q.1.slotAnswer c 1
    else if q.1.slGen n ≠ bits v 45 15 ∨ bits v 45 15 = 0 then (q.1.count F.SRV_STALE_HANDLE_COUNT 0 0 1).slotAnswer c 2
    else
      let r := act n (q.1.rg .SRV_SLOT_ARG c 0).toNat q.1
      r.1.slotAnswer c r.2

/-- REMOTE. -/
def execSlotRemote (c : Nat) (w : Word) (s : State) : Answer :=
  .next (s.slotRow 1 c w (fun n arg s =>
    let st := s.slState n
    if st = slCancelling then (s, 3)
    else if st = slPrefill ∨ st = slDecode then ((s.putSlotW n 15 arg).setSlState n slRemote, 0)
    else (s, 1)))

/-- PARK. -/
def execSlotPark (c : Nat) (w : Word) (s : State) : Answer :=
  .next (s.slotRow 2 c w (fun n _ s =>
    let st := s.slState n
    if st = slQueued ∨ st = slPrefill ∨ st = slDecode then (s.setSlState n slParked, 0) else (s, 1)))

/-- UNPARK. -/
def execSlotUnpark (c : Nat) (w : Word) (s : State) : Answer :=
  .next (s.slotRow 3 c w (fun n _ s => if s.slState n = slParked then (s.setSlState n slQueued, 0) else (s, 1)))

/-- SET_TALLY. -/
def execSlotSetTally (c : Nat) (w : Word) (s : State) : Answer :=
  .next (s.slotRow 4 c w (fun n arg s =>
    if s.slState n ≠ slQueued ∧ s.slState n ≠ slParked then (s, 1)
    else if arg % 64 ≠ 0 then (s, 4) else (s.putSlotW n 12 arg, 0)))

/-- SET_TALLY2. -/
def execSlotSetTally2 (c : Nat) (w : Word) (s : State) : Answer :=
  .next (s.slotRow 5 c w (fun n arg s =>
    let l := bits w.toNat 14 10
    if s.slState n ≠ slQueued ∧ s.slState n ≠ slParked then (s, 1)
    else if arg % 64 ≠ 0 ∨ l < 12 ∨ 24 < l then (s, 4)
    else ((s.putSlotW n 13 arg).putSlotW n 9 (setBits (s.slotW n 9) 15 5 l), 0)))

/-- SLOT_FREE: a CLOSING or CANCELLING slot whose release conditions hold becomes FREE, with the kind of its
terminal record in LAST (R242). -/
def execSlotFree (slot : Nat) (s : State) : Answer :=
  let x := s.slotX slot
  let st := s.slState slot
  if 2 ^ 14 ≤ slot ∨ (st ≠ slClosing ∧ st ≠ slCancelling) ∨ x.termDone = false ∨ x.flight ≠ 0 ∨ x.awaiting = true ∨
      s.kvState slot ≠ kvFree then .next s
  else
    let q := s.slotRead slot 32
    if q.2 = false then .next q.1 else
    let s := q.1
    let sub := s.slSub slot
    let s := s.putSlotW slot 0 (setBits (setBits (s.slotW slot 0) 60 4 slFree) 20 4 x.term)
    let s := s.setF F.SRV_SUB_CFG_SLOTS sub 0 (s.f F.SRV_SUB_CFG_SLOTS sub 0 - 1)
    .next (s.setServe (fun v => { v with slots := mdel v.slots slot, freed := nins v.freed slot }))

/-- SUB_POLICE_WRITE of subscriber u by initiator i: both buckets fill (R237). -/
def execSubPoliceWrite (i u : Nat) (w : Word) (s : State) : Answer :=
  if s.canWrite i = false ∨ RegName.SRV_SUB_POLICE.has u 0 = false then .next s
  else .next ((s.setRg .SRV_SUB_POLICE u 0 w).fillBuckets u)

-- ===== Emit lists (R250) =====

/-- EMIT_SUBMIT: a write of SRV_EMIT_SUBMIT[p]. -/
def execEmitSubmit (p : Nat) (w : Word) (s : State) : Answer :=
  if 8 ≤ p ∨ s.fb F.HUB_STATUS_READY 0 0 = false then .next s
  else if s.fb F.SRV_EMIT_SUBMIT_PENDING p 0 then .next (s.log (srcHub 1) Ev.EMIT_SUBMIT_OVERRUN [] (some p) (some (unitHub 1)))
  else
    let s := s.forward 0 .SRV_EMIT_SUBMIT p 0 w
    let s := s.setF F.SRV_EMIT_SUBMIT_PENDING p 0 1
    let j : EmitJob := { list := F.SRV_EMIT_SUBMIT_LIST.of w * 64, count := F.SRV_EMIT_SUBMIT_COUNT_M1.of w + 1 }
    .next (s.setServe (fun v => { v with emits := mput {} v.emits p j }))

/-- The form of an emit entry's word 1 is right. -/
def emitFormOk (w : Nat) : Bool :=
  let k := bits w 55 54
  let c := bits w 53 46
  decide (k ≠ 3) && decide (bits w 45 24 = 0) && (decide (k ≠ 0) || decide (c = 0)) && (decide (k ≠ 1) || decide (c ≤ 2)) &&
    (decide (k ≠ 2) || (decide (0x10 ≤ c) && decide (c ≤ 0x1F)))

/-- The token is one of the slot's stop tokens. -/
def State.isStop (s : State) (n tok : Nat) : Bool :=
  let st := s.slotW n 10 + s.slotW n 11 * 2 ^ 64
  (List.range (bits (s.slotW n 9) 14 12)).any (fun i => decide (st / 2 ^ (24 * i) % 2 ^ 24 = tok))

/-- Apply an emit entry of a slot whose record reads well: the state after and its STATUS. [log 49: DEDUCED] -/
def State.emitApply (s : State) (n w : Nat) : State × Nat :=
  let st := s.slState n
  let k := bits w 55 54
  let tok := w % 2 ^ 24
  let g := s.slGenerated n
  let run := decide (st = slPrefill) || decide (st = slDecode)
  if st = slCancelling then (s, 2)
  else if st = slFree then (s, if s.slLast n = 5 then 2 else 3)
  else if st = slClosing ∨ st = slRemote then (s, 3)
  else if k = 2 then
    (s.closeSlot n { kind := 6, code := bits w 53 46, generated := g }, 0)
  else if !run then (s, 5)
  else
    let s := (s.setGenerated n ((g + 1) % 2 ^ 32)).acct (s.slSub n) 12 1 1
    let stop := s.isStop n tok
    let full := decide (g + 1 = s.slotW n 5 % 2 ^ 32)
    if k = 1 then (s.closeSlot n { kind := 4, code := bits w 53 46, index := g, token := tok, generated := g }, 0)
    else if stop ∨ full then
      (s.closeSlot n { kind := 4, code := if stop then 0 else 1, index := g, token := tok, generated := g }, 1)
    else (s.pushResp n { kind := 3, index := g, token := tok, generated := g }, 0)

/-- EMIT_ENTRY_APPLY: the next entry of partition p's emit list; an entry whose request's queue is full waits (R244). -/
def execEmitEntryApply (p : Nat) (s : State) : Answer :=
  let j := mget {} s.serve.emits p
  if s.fb F.SRV_EMIT_SUBMIT_PENDING p 0 = false ∨ j.count ≤ j.next then .next s
  else
    let a := hubBase + j.list + 16 * j.next
    let r := s.hubRead 1 a 16
    let h := wordOf r.2.v 0
    let w := wordOf r.2.v 1
    let n := handleSlot h
    let finish := fun (s : State) (status : Nat) =>
      let s := if 2 ≤ status then s.count F.SRV_EMIT_REFUSED_COUNT 0 0 1 else s
      let s := if status = 4 then s.count F.SRV_STALE_HANDLE_COUNT 0 0 1 else s
      let s := s.putWord (a + 8) (setBits w 56 8 status)
      let s := s.setServe (fun v => { v with emits := mput {} v.emits p { j with next := j.next + 1 } })
      if j.next + 1 = j.count then
        (s.setF F.SRV_EMIT_SUBMIT_PENDING p 0 0).setServe (fun v => { v with emits := mdel v.emits p })
      else s
    if r.2.p ≠ 0 then .next (finish (r.1.log (srcHub 1) Ev.EMIT_POISON [] (some p) (some (unitHub 1))) 4)
    else if emitFormOk w = false then .next (finish r.1 6)
    else
      let full := decide (64 ≤ (s.slotX n).queue.length)
      let live := decide (s.slState n ≠ slFree) && decide (s.slState n ≠ slClosing) && decide (s.slState n ≠ slCancelling)
      if full && live && !r.1.stale none h then .next r.1
      else
        let q := r.1.findHandle none h
        match q.2 with
        | .stale => .next (finish q.1 4)
        | .poisoned => .next (finish q.1 3)
        | .slot =>
          let x := q.1.emitApply n w
          .next (finish x.1 x.2)

end Sys2Proof.Machine
end

