-- ==== Sys2Proof/Machine/FabTarget.lean ====
section
/-!
DEFINITION. Sys2Proof/Machine/FabTarget.lean: requests that this device receives as a target (08_memory_spans_and_tiers.md, R272 and R273;
11_fefen_fabric.md, R353 to R365, R372 to R375).
-/
namespace Sys2Proof.Machine

-- ===== Answers (Table 11.7) =====

def ansOk : Nat := 0
def ansExport : Nat := 1
def ansRights : Nat := 2
def ansBound : Nat := 3
def ansAnchor : Nat := 4
def ansMalformed : Nat := 5
def ansRxFull : Nat := 6
def ansNotReady : Nat := 7
def ansDamage : Nat := 8
def ansSaved : Nat := 9
def ansAbandoned : Nat := 10

/-- The unit that an inbound request acts as: its link, or the hub for loopback. -/
def Pkt.inUnit (p : Pkt) : Nat := if p.port < 18 then unitLink p.port else trnUnit

/-- The event source of a port. -/
def srcPort (port : Nat) : Nat := if port < 18 then srcLink port else srcHub 0

/-- The export that a request names. -/
def Pkt.exp (p : Pkt) : Nat := p.addr / 2 ^ 40 % 256

/-- A request addressed to the pair's shared node. -/
def State.toPair (s : State) (p : Pkt) : Bool :=
  s.fb F.HUB_PAIR_CFG_ENABLE 0 0 && decide (nodeOf p.addr = s.f F.HUB_PAIR_CFG_PAIR_NODE 0 0)

/-- The port on which an answer to a request leaves. -/
def State.backPort (s : State) (p : Pkt) : Option Nat := if p.port = portLoop then some portLoop else s.route p.src

/-- The subscriber that an export's inbound traffic is charged to (Table 8.8). -/
def State.chargeOf (s : State) (p : Pkt) : Nat := s.f F.MEM_EXPORT_CTL_CHARGE p.exp 0

/-- Answer a request: a non-OK answer that is sent is counted; the answer's payload is charged to the export's partition and subscriber. The
SHADOW and a joining device send none but to themselves. An answer to node 0xFFFF is dropped and counted (R23); one without a route is lost. [log 130: DESIGN CHOICE] -/
def State.answer (s : State) (p : Pkt) (status : Nat) (size : Nat := 0) (d : Data := {}) (reason : Nat := 0) (block : Nat := 0)
    (part : Option Nat := none) : State :=
  if s.sends = false ∧ p.port ≠ portLoop then s
  else if p.src = 0xFFFF then s.count F.FAB_EGRESS_DROP_COUNT 0 0 1
  else match s.backPort p with
    | none => s
    | some port =>
      let n := sizeBytes size
      let s := if status = 0 then s else s.count F.FAB_REFUSED_IN_COUNT 0 0 1
      let s := match part with
        | some q => s.chargeOut q (some (s.chargeOf p)) port n
        | none => s
      let me := if s.toPair p then s.f F.HUB_PAIR_CFG_PAIR_NODE 0 0 else s.node
      s.putOut { op := opRsp, size := size, tag := p.tag, src := me, dst := p.src, status := status, reason := reason, block := block,
                 payload := d.v, poison := d.p, port := port }

-- ===== The export check (R272, R356) =====

/-- The export check of n bytes at a global address for a requester that needs rights. -/
def State.exportHit (s : State) (src addr n need : Nat) : ExpHit :=
  let e := addr / 2 ^ 40 % 256
  let o := addr % 2 ^ 40
  let p := s.f F.MEM_EXPORT_CTL_PARTITION e 0
  let sp := s.f F.MEM_EXPORT_CTL_SPAN e 0
  let kind := s.f F.MEM_EXPORT_CTL_KIND e 0
  let rights := s.f F.MEM_EXPORT_CTL_RIGHTS e 0
  let off := 65536 * s.f F.MEM_EXPORT_RANGE_BASE e 0 + o
  let hit : ExpHit := { kind := kind, part := p, span := sp, off := off }
  if !s.fb F.MEM_EXPORT_CTL_VALID e 0 || decide ((src ^^^ s.f F.MEM_EXPORT_CTL_PEER_MATCH e 0) &&& s.f F.MEM_EXPORT_CTL_PEER_MASK e 0 ≠ 0) then
    { hit with status := ansExport }
  else match kind with
    | 0 =>
      if rights &&& need ≠ need ∨ s.spanRights p sp &&& need ≠ need then { hit with status := ansRights }
      else if (s.f F.MEM_EXPORT_RANGE_LEN_M1 e 0 + 1) * 65536 < o + n then { hit with status := ansBound }
      else match s.spanCheck (deviceActor p trnUnit) sp (off : Int) n need with
        | none => if s.spanKind p sp = 1 ∨ s.spanKind p sp = 2 then { hit with status := ansExport } else hit
        | some 5 => { hit with status := ansExport }
        | some 6 => { hit with status := ansRights }
        | some _ => { hit with status := ansBound }
    | 1 => if s.fb F.SRV_PART_SERVE_ADMIT_EN p 0 = false ∨ s.f F.SRV_PART_SERVE_ADMIT_EXPORT p 0 ≠ e then { hit with status := ansExport }
           else if rights &&& need ≠ need then { hit with status := ansRights } else { hit with off := o }
    | 2 => if rights &&& need ≠ need then { hit with status := ansRights } else { hit with off := o }
    | _ => { hit with status := ansExport }

/-- Refuse a request that failed its export check (R272): logged at most once per export per 1 ms. -/
def State.refuseAt (s : State) (p : Pkt) (status : Nat) : State :=
  (s.logLimited (limExport p.exp) 1000000 (srcPort p.port) Ev.EXPORT_REFUSED [p.src, p.exp, p.addr % 2 ^ 40] none (some p.inUnit)).answer p status

-- ===== Waiting and passing on (R364, R365, R375) =====

/-- Requests of one requester to the same 4 KiB block of this device, whatever node or group they name (R364). -/
def Pkt.sameBlock (a b : Pkt) : Bool := decide (a.src = b.src) && decide (a.addr % 2 ^ 48 / 4096 = b.addr % 2 ^ 48 / 4096)

def State.setFab (s : State) (f : Fabric → Fabric) : State := { s with fab := f s.fab }

/-- A requester's tag as its target tells it from the others: tags of requests to a group are of another target's numbering (R366). -/
def Pkt.key (p : Pkt) : Nat := p.tag + 2048 * b2n (decide (p.op = opPeal) || p.isSound)

/-- The entry is of a requester's tag. -/
def Inbound.is (q : Inbound) (src key : Nat) : Bool := decide (q.pkt.src = src) && decide (q.pkt.key = key)

/-- The request of a requester and tag that waits here, the oldest first. -/
def State.inbOf (s : State) (src key : Nat) : Option Inbound := s.fab.inb.find? (fun q => q.is src key)

/-- Change what is kept with that request. -/
def State.setInb (s : State) (src key : Nat) (f : Inbound → Inbound) : State :=
  s.setFab (fun b => { b with inb := updFirst (fun q => q.is src key) f b.inb })

/-- The oldest request of a requester's tag that a test picks. -/
def State.inbDue (s : State) (src tag : Nat) (due : Inbound → Bool) : Option Inbound :=
  s.fab.inb.find? (fun q => decide (q.pkt.src = src) && decide (q.pkt.tag = tag) && due q)

/-- A request is taken in (R365): it waits here until it has been performed and answered. -/
def State.takeIn (s : State) (p : Pkt) (o : Option OrderRec) : State :=
  s.setFab (fun b => { b with inb := b.inb ++ [{ id := b.nextIn, pkt := p, time := s.time, pendingAt := s.time, order := o }], nextIn := b.nextIn + 1 })

/-- A request taken in from the same requester before this one still waits here. -/
def State.follows1 (s : State) (p : Pkt) : Bool :=
  (s.fab.inb.takeWhile (fun q => !q.is p.src p.key)).any (fun q => decide (q.pkt.src = p.src))

/-- The state whose span and export entries a request or parcel goes by: one begun before an epoch switch completes under the old ones
(R297, R298, R327). -/
def State.view (s : State) (old : Bool) : State := if old then { s with regs := s.cfg.old } else s

/-- Answer a request with what its onward requests brought. -/
def State.relay (s : State) (p : Pkt) (part : Nat) (r : Reply) : State :=
  s.answer p r.status r.size { v := r.v, p := r.p } r.reason r.block (some part)

/-- Pass a request on to the node that a COMPOSED export's extent names, once; its answer answers this one. [log 63: DEDUCED] -/
def State.passOn (s : State) (p : Pkt) (part : Nat) (pc : Piece) : State × Bool :=
  let q := (s.inbOf p.src p.key).getD {}
  match q.reply with
  | some r => (s.relay p part r, true)
  | none =>
    if q.begun || !s.canIssue part pc.addr p.payloadBytes then (s, false)
    else
      let s := s.chargeIn (some (s.chargeOf p)) p.port p.payloadBytes
      ((s.issue part (some (s.chargeOf p)) (.proxy p.src p.key) none 1 { p with addr := pc.addr }).setInb p.src p.key
        (fun x => { x with begun := true, outs := 1 }), false)

/-- Poison the pieces of a range that a request names: local ones at once, the far nodes of the others by TAINT notices under this request's
name, as tags allow. The work is charged to no partition. The second result tells whether every piece is poisoned. [log 63: DEDUCED] -/
def State.passTaint (s : State) (p : Pkt) (ps : List (Nat × Piece)) (seq : Nat) : State × Bool :=
  let q := (s.inbOf p.src p.key).getD {}
  let s := if q.begun then s
    else ((ps.filter (fun q => !q.2.rem)).foldl (fun s q => s.poisonRange q.2.addr q.2.len) s).setInb p.src p.key
      (fun x => { x with begun := true, todo := (remoteOf ps).map Prod.snd })
  let s := (if q.begun then q.todo else (remoteOf ps).map Prod.snd).foldl (fun s pc =>
    if s.canIssue noPart pc.addr 16 then
      let t : Pkt := { op := opTaint, size := sizeCode 16, addr := pc.addr, payload := pc.addr + ((pc.len / 32 - 1) * 2 ^ 43 + seq) * 2 ^ 64 }
      (s.issue noPart none (.proxy p.src p.key) none 1 t).setInb p.src p.key
        (fun x => { x with todo := x.todo.erase pc, outs := x.outs + 1 })
    else s) s
  let q := (s.inbOf p.src p.key).getD {}
  (s, q.todo.isEmpty && decide (q.outs = 0))

/-- A partition has the credit for an inbound access of n bytes at a local address, its answer's payload included (R356). -/
def State.inCredit (s : State) (p : Pkt) (part a n rd wr ans : Nat) : Bool :=
  (decide (rd = 0) || (s.hbmFits 0 part false [(a, n)] && (decide (s.flashReads a n = 0) || s.regFits part 2 0 (4096 * s.flashReads a n)))) &&
    (decide (wr = 0) || s.hbmFits 0 part true [(a, n)]) &&
    (match s.backPort p with | some port => s.egressFits part port ans | none => true)

/-- Charge an inbound access: memory to the partition, payload received to the export's subscriber. -/
def State.inCharge (s : State) (p : Pkt) (part a n rd wr : Nat) : State :=
  let s := if rd ≠ 0 then (s.presentHbm 0 0 part false [(a, n)]).presentFlash 0 0 part [(a, n)] else s
  let s := if wr ≠ 0 then s.presentHbm 0 0 part true [(a, n)] else s
  s.chargeIn (some (s.chargeOf p)) p.port p.payloadBytes

/-- Where a span hit lands: one piece, since packets are naturally aligned and extents 4 KiB aligned. -/
def State.hitPiece (s : State) (h : ExpHit) (n : Nat) : Piece :=
  match s.spanPieces (deviceActor h.part trnUnit) h.span h.off n with
  | (_, pc) :: _ => pc
  | [] => {}

/-- A request waits for credit: it is counted as deferred once (R415). -/
def State.inDefer (s : State) (p : Pkt) (part r : Nat) : State :=
  if ((s.inbOf p.src p.key).getD {}).late then s else (s.regDefer part r).setInb p.src p.key (fun x => { x with late := true })

/-- The key of the flash reads of a waiting request. -/
def inKey (s : State) (p : Pkt) : Nat := 2 ^ 61 + ((s.inbOf p.src p.key).getD {}).id

/-- A request that has passed its export check: forwarding of COMPOSED spans, HBM in self-refresh (R40), flash readiness, credit, its codewords,
then act at the local address. -/
def State.atHit (s : State) (p : Pkt) (h : ExpHit) (pc : Piece) (n rd wr ans : Nat) (act : State → ExpHit → Nat → State) : State × Bool :=
  if pc.rem then s.passOn p h.part pc
  else if s.asleep pc.addr then (s, false)
  else if mget 0 s.polls (inKey s p) ≠ 0 then
    let g := s.flashGate (inKey s p) (s.chargeOf p + 1) pc.addr n
    if g.2 then (act g.1 h pc.addr, true) else (g.1, false)
  else if pc.inFlash && !s.fb F.FLS_STATUS_READY 0 0 then (s.answer p ansNotReady, true)
  else if s.inCredit p h.part pc.addr n rd wr ans = false then (s.inDefer p h.part (if wr ≠ 0 then 1 else 0), false)
  else
    let s := s.inCharge p h.part pc.addr n rd wr
    let g := if rd ≠ 0 then s.flashGate (inKey s p) (s.chargeOf p + 1) pc.addr n else (s, true)
    if g.2 then (act g.1 h pc.addr, true) else (g.1, false)

/-- A request through a SPAN export: its check, which holds for as long as it waits (R298), then its place. -/
def State.throughSpan (s : State) (p : Pkt) (n need rd wr ans : Nat) (act : State → ExpHit → Nat → State) : State × Bool :=
  match ((s.inbOf p.src p.key).getD {}).hit with
  | some q => s.atHit p q.1 q.2 n rd wr ans act
  | none =>
    let h := s.exportHit p.src p.addr n need
    if h.status ≠ 0 then (s.refuseAt p h.status, true)
    else if h.kind ≠ 0 then (s.refuseAt p ansRights, true)
    else (s.setInb p.src p.key (fun x => { x with hit := some (h, s.hitPiece h n) })).atHit p h (s.hitPiece h n) n rd wr ans act

-- ===== Operations (Table 11.5, R357 to R360) =====

/-- A data size code and its natural alignment are legal. -/
def Pkt.sized (p : Pkt) : Bool := decide (1 ≤ p.size) && decide (p.size ≤ 6) && decide (p.addr % sizeBytes p.size = 0)

/-- LOAD. -/
def State.performLoad (s : State) (p : Pkt) : State × Bool :=
  let n := sizeBytes p.size
  if p.sized = false then (s.answer p ansMalformed, true)
  else s.throughSpan p n rRead 1 0 n (fun s h a =>
    let r := s.readMem p.inUnit a n
    r.1.answer p ansOk p.size r.2 0 0 (some h.part))

/-- A store of enabled bytes through a SPAN export. -/
def State.storeSpan (s : State) (p : Pkt) (en : Nat) : State × Bool :=
  let n := sizeBytes p.size
  s.throughSpan p n rWrite 0 1 0 (fun s h a => (s.writeMem p.inUnit a n p.payload en p.poison).answer p ansOk 0 {} 0 0 (some h.part))

/-- STORE: to a span, or a request record to an admission window (R234). -/
def State.performStore (s : State) (p : Pkt) : State × Bool :=
  let h := s.exportHit p.src p.addr (sizeBytes p.size) rWrite
  if h.status = 0 ∧ h.kind = 1 then
    if p.size ≠ 5 ∨ p.addr % 128 ≠ 0 then
      ((s.log (srcPort p.port) Ev.ADMIT_BAD_STORE [p.src, p.exp, p.addr % 2 ^ 40] (some h.part) (some p.inUnit)).refuseAt p ansRights, true)
    else
      let s := s.chargeIn (some (s.chargeOf p)) p.port 128
      ((s.deliver { v := p.payload, p := p.poison, part := h.part }).answer p ansOk 0 {} 0 0 (some h.part), true)
  else if p.sized = false then (s.answer p ansMalformed, true)
  else s.storeSpan p (ones (sizeBytes p.size))

/-- STOREM. To an admission window it is a rights violation. -/
def State.performStorem (s : State) (p : Pkt) : State × Bool :=
  if p.sized = false then (s.answer p ansMalformed, true) else s.storeSpan p p.mask

/-- PEAL at a member: the store at its own export. -/
def State.performPeal (s : State) (p : Pkt) : State × Bool :=
  if p.size ≠ 4 ∨ p.addr % 64 ≠ 0 then (s.answer p ansMalformed, true) else s.storeSpan p (ones 64)

/-- A fetch-add through the KV slot table's export (R217); its payloads are charged to the export's subscriber (R276). -/
def State.kvTableAtomic (s : State) (p : Pkt) (o : Nat) : State × Bool :=
  let n := o / 64
  if p.size ≠ 1 ∨ o % 64 ≠ 40 ∨ 2 ^ 14 ≤ n then (s.refuseAt p ansRights, true)
  else
  let s := s.chargeIn (some (s.chargeOf p)) p.port p.payloadBytes
  let part := s.kvPart n
  if nmem s.mem.poison ((kvAddr n + 40) / 32) then
    ((s.log (srcHub 1) Ev.KV_POISON [n] (some part) (some (unitHub 1))).answer p ansOk 1 { v := s.kvW n 5, p := 1 } 0 0 (some part), true)
  else
    let r := s.kvFetchAdd n (p.payload % 2 ^ 64)
    (r.1.answer p ansOk 1 { v := r.2, p := 0 } 0 0 (some part), true)

/-- ATOMIC (R358). A poisoned operand leaves the granule poisoned (R97). -/
def State.performAtomic (s : State) (p : Pkt) : State × Bool :=
  let h := s.exportHit p.src p.addr 8 rAtomic
  if (p.size ≠ 1 ∧ p.size ≠ 2) ∨ p.addr % 8 ≠ 0 then (s.answer p ansMalformed, true)
  else if h.status = 0 ∧ h.kind = 2 then s.kvTableAtomic p h.off
  else s.throughSpan p 8 rAtomic 1 1 8 (fun s h a =>
    let r := s.atomicMem p.inUnit a (decide (p.size = 2)) (p.payload % 2 ^ 64) (p.payload / 2 ^ 64 % 2 ^ 64)
    let s := if p.poison = 0 then r.1 else r.1.poisonRange (a / 32 * 32) 32
    s.answer p ansOk 1 r.2 0 0 (some h.part))

def redForm (p : Pkt) : Nat := bits p.red 31 29
def redAnchor (p : Pkt) : Nat := bits p.red 25 16

/-- RED (R359): anchor check, then each enabled element. The range of a contribution of another anchor is marked poisoned, wherever its
export lies. -/
def State.performRed (s : State) (p : Pkt) : State × Bool :=
  let n := sizeBytes p.size
  let f := redForm p
  let h := s.exportHit p.src p.addr n rReduce
  if 4 < f ∨ bits p.red 28 26 ≠ 0 ∨ (f ≠ 0 ∧ redAnchor p ≠ 0) ∨ p.size ≠ (if f = 0 then 6 else 4) ∨ p.addr % n ≠ 0 then (s.answer p ansMalformed, true)
  else if h.status = 0 ∧ h.kind = 0 ∧ f = 0 ∧ s.fb F.FAB_EXPORT_RED_CHECK p.exp 0 = true ∧ s.f F.FAB_EXPORT_RED_ANCHOR p.exp 0 ≠ redAnchor p then
    let r := s.passTaint p (s.spanPieces (deviceActor h.part trnUnit) h.span h.off n) 0
    if r.2 then ((r.1.chargeIn (some (s.chargeOf p)) p.port p.payloadBytes).answer p ansAnchor 0 {} 0 0 (some h.part), true) else r
  else s.throughSpan p n rReduce 1 1 0 (fun s h a =>
    (s.redMem p.inUnit a n f (p.red % 2 ^ 16) { v := p.payload, p := p.poison }).answer p ansOk 0 {} 0 0 (some h.part))

/-- FENCE (R362): answered when no earlier request of its requester waits here. -/
def State.performFence (s : State) (p : Pkt) : State × Bool :=
  if p.size ≠ 0 then (s.answer p ansMalformed, true)
  else if s.follows1 p then (s, false)
  else (s.answer p ansOk, true)

-- ===== Gongs (R372 to R374) =====

def gongLineId (v : Nat) : Nat := bits v 63 48
def gongPhase (v : Nat) : Nat := bits v 46 46
def gongCount (v : Nat) : Nat := bits v 23 0

/-- The fabric-scope line of a LINE_ID. -/
def State.lineOf (s : State) (id : Nat) : Option (Nat × Nat) :=
  ((List.range 8).flatMap (fun p => (List.range 16).map (fun l => (p, l)))).find? (fun q =>
    gongEnabled (s.gongCfg q.1 q.2) && gongFabric (s.gongCfg q.1 q.2) && decide (s.f F.FAB_GONG_CFG_LINE_ID q.1 q.2 = id))

/-- A GONG packet's form and line: nothing, after a refusal, when one of them is wrong. -/
def State.gongLine (s : State) (p : Pkt) : State × Option (Nat × Nat) :=
  if p.size ≠ 1 ∨ bits p.payload 45 24 ≠ 0 ∨ 2 ^ 64 ≤ p.payload ∨ p.addr % 2 ^ 48 ≠ 0 ∨ (p.payload.testBit 47 = true ∧ gongCount p.payload ≠ 0) then
    (s.answer p ansMalformed, none)
  else match s.lineOf (gongLineId p.payload) with
    | none => ((s.log (srcPort p.port) Ev.GONG_UNKNOWN [gongLineId p.payload] none (some p.inUnit)).answer p ansExport, none)
    | some q => (s, some q)

/-- ARRIVE at the counter. [log 62: DEDUCED] -/
def State.performArrive (s : State) (p : Pkt) : State × Bool :=
  let r := s.gongLine p
  match r.2 with
  | none => (r.1, true)
  | some (q, l) =>
    if s.countsLine q l = false then (s.answer p ansMalformed, true)
    else if gongPhase p.payload ≠ s.f F.PAR_GONG_LINE_PHASE q l then
      ((s.log (srcPort p.port) Ev.GONG_PHASE_ERROR [gongLineId p.payload] (some q) (some p.inUnit)).answer p ansMalformed, true)
    else ((s.countArrivals (gongCount p.payload + 1) q l (gongCount p.payload)).answer p ansOk, true)

/-- SOUND at a member. [log 36: DEDUCED] -/
def State.performSound (s : State) (p : Pkt) : State × Bool :=
  let r := s.gongLine p
  match r.2 with
  | none => (r.1, true)
  | some (q, l) =>
    let s := if gongPhase p.payload = s.f F.PAR_GONG_LINE_PHASE q l then s else s.soundRemote q l (gongPhase p.payload)
    (s.answer p ansOk, true)

-- ===== Taint (R363) =====

def taintAddr (p : Pkt) : Nat := p.payload % 2 ^ 64
def taintLen (p : Pkt) : Nat := 32 * (bits (p.payload / 2 ^ 64) 63 43 + 1)
def taintSeq (p : Pkt) : Nat := p.payload / 2 ^ 64 % 2 ^ 32

/-- TAINT: the range of an export that grants WRITE or REDUCE is poisoned, after the earlier requests of its requester (R363, R364); a COMPOSED
export passes the notice on, and its answer waits for theirs. -/
def State.performTaint (s : State) (p : Pkt) : State × Bool :=
  let n := taintLen p
  let q := (s.inbOf p.src p.key).getD {}
  let hw := s.exportHit p.src (taintAddr p) n rWrite
  let h0 := if hw.status = ansRights then s.exportHit p.src (taintAddr p) n rReduce else hw
  let h := match q.hit with | some x => x.1 | none => h0
  if s.follows1 p then (s, false)
  else if p.size ≠ 2 ∨ bits (p.payload / 2 ^ 64) 42 32 ≠ 0 ∨ taintAddr p % 32 ≠ 0 ∨ 2 ^ 128 ≤ p.payload then (s.answer p ansMalformed, true)
  else if h.status ≠ 0 then (s.refuseAt p h.status, true)
  else if h.kind ≠ 0 then (s.refuseAt p ansRights, true)
  else
    let s := s.setInb p.src p.key (fun x => { x with hit := some (h, {}) })
    let r := s.passTaint p (s.spanPieces (deviceActor h.part trnUnit) h.span h.off n) (taintSeq p)
    if r.2 = false then r
    else match q.reply with
      | some z => (r.1.relay p h.part z, true)
      | none =>
        let s := (r.1.log (srcPort p.port) Ev.TAINT_RECEIVED [p.src, taintSeq p, taintAddr p, n] (some h.part) (some p.inUnit)).count
          F.FAB_TAINT_IN_COUNT 0 0 1
        (s.answer p ansOk, true)

-- ===== Router records of other devices (R189, R193, R195) =====

/-- The inbox entry that a record's packet describes. [log 15: DESIGN CHOICE] -/
def Pkt.inboxRec (p : Pkt) : InboxRec :=
  { rank := bits p.red 2 0, expert := bits p.red 11 3, df := bits p.red 17 12, layer := bits p.red 23 18, word := p.payload % 2 ^ 64 }

/-- A router record for an inbox of this device: it is written once the ring has room, and refused while the target's partition is SAVED. [log 15: DESIGN CHOICE] -/
def State.performRecord (s : State) (p : Pkt) : State × Bool :=
  let k := bits p.addr 11 8
  let d := s.phys k (p.addr % 256)
  match s.partOfKit k with
  | none => (s.answer p ansExport, true)
  | some q =>
    if s.kitLive k = false ∨ 149 < p.addr % 256 ∨ (s.drum k d).inboxEn = false ∨ s.actBytes k + 64 ≠ p.mask then (s.answer p ansExport, true)
    else if s.stepState q = stSaved then (s.answer p ansSaved, true)
    else
      let r := s.writeInbox k d { kit := k, drum := d, v := p.payload, p := p.poison, len := p.mask, entry := p.inboxRec }
      match r.2 with
      | none => (r.1, false)
      | some false => (r.1.answer p ansExport, true)
      | some true => ((r.1.chargeIn (some (s.f F.MEM_PART_CHARGE_SUBSCRIBER q 0)) p.port p.mask).answer p ansOk, true)

-- ===== Inbound parcels (R308, R309, R361) =====

def State.inPar (s : State) (src tag : Nat) : OpenParcel := mget {} s.fab.parcels (tagKey src tag)
def State.setInPar (s : State) (src tag : Nat) (o : OpenParcel) : State :=
  s.setFab (fun f => { f with parcels := mput {} f.parcels (tagKey src tag) o })

/-- The mark of a parcel whose later packets are discarded (R309). -/
def parDiscard : Nat := 255

/-- The parcel of a requester's tag as a packet of it finds it. What still comes of an incomplete parcel is discarded, until its sender may have
used the tag again: 1.5 ms (R367). [log 59: DEDUCED] -/
def State.parNow (s : State) (src tag : Nat) : OpenParcel :=
  let o := s.inPar src tag
  if o.refused = parDiscard ∧ o.lastPkt + 1500000 ≤ s.time then {} else o

/-- Entries of the open-parcel table in use: a parcel leaves it with its last packet (R309). -/
def State.openCount (s : State) : Nat := (s.fab.parcels.filter (fun q => q.2.isOpen && !q.2.closed)).length

/-- CDC_REF as a parcel's first packet finds it (R327). -/
def State.refsNow (s : State) : SMap (BitVec 64) := (List.range 16).foldl (fun m i => mput 0 m i (s.rg .CDC_REF i 0)) []

/-- A packet of a parcel is in order: its size and the alignment of its address (R354). -/
def Pkt.parSized (p : Pkt) : Bool := decide (1 ≤ p.size) && decide (p.size ≤ 6) && decide (p.addr % sizeBytes p.size = 0)

/-- A packet of a parcel (R361): the first opens it, each is checked for the bytes it writes, and uncoded bytes of local memory are
written at the parcel's next offset. Coded bytes, and bytes for a COMPOSED span, are kept until the parcel ends. -/
def State.parcelPacket (s : State) (p : Pkt) (coded : Bool) : State × Bool :=
  let o := s.parNow p.src p.tag
  let n := sizeBytes p.size
  if o.refused = parDiscard then (s, true)
  else if p.parSized = false then
    (s.setInPar p.src p.tag { o with src := p.src, tag := p.tag, refused := if o.refused = 0 then ansMalformed else o.refused, isOpen := false, lastPkt := s.time + 1 }, true)
  else if o.refused ≠ 0 then (s, true)
  else if o.isOpen = false ∧ 4096 ≤ s.openCount then
    (s.setInPar p.src p.tag { o with src := p.src, tag := p.tag, addr := p.addr, refused := ansRxFull, lastPkt := s.time + 1 }, true)
  else
    let first := !o.isOpen
    let at_ := if coded then p.addr else p.addr + o.n
    let w := s.view o.old
    let h := match ((s.inbOf p.src p.key).getD {}).hit with
      | some x => x.1
      | none => w.exportHit p.src at_ (if coded then 64 else n) rWrite
    let st := if h.status = 0 ∧ h.kind ≠ 0 then ansRights else h.status
    if st ≠ 0 then
      let s := s.logLimited (limExport p.exp) 1000000 (srcPort p.port) Ev.EXPORT_REFUSED [p.src, p.exp, at_ % 2 ^ 40] none (some p.inUnit)
      (s.setInPar p.src p.tag { o with src := p.src, tag := p.tag, addr := p.addr, port := p.port, refused := st, isOpen := false, lastPkt := s.time + 1 }, true)
    else
      let pc := match ((s.inbOf p.src p.key).getD {}).hit with | some x => x.2 | none => w.hitPiece h n
      if coded = false ∧ pc.rem = false ∧ (s.asleep pc.addr = true ∨ s.inCredit p h.part pc.addr n 0 1 0 = false) then
        ((s.inDefer p h.part 1).setInb p.src p.key (fun x => { x with hit := some (h, pc) }), false)
      else
        let s := if coded || pc.rem then s.chargeIn (some (s.chargeOf p)) p.port n
          else (s.inCharge p h.part pc.addr n 0 1).writeMem p.inUnit pc.addr n p.payload (ones n) p.poison
        let keep := coded || pc.rem
        let o' : OpenParcel := { o with isOpen := true, src := p.src, tag := p.tag, addr := p.addr, rawLen := p.rawLen, part := h.part, port := p.port,
                                        coded := coded, n := o.n + n, v := if keep then o.v + p.payload % 256 ^ n * 256 ^ o.n else 0,
                                        p := if keep then o.p ||| (p.poison * 2 ^ (o.n / 32)) else 0, lastPkt := s.time,
                                        refs := if first && coded then s.refsNow else o.refs }
        (s.setInPar p.src p.tag o', true)

/-- The parcel leaves the receiver's tables. -/
def State.closeInPar (s : State) (src tag : Nat) : State := s.setInPar src tag {}

/-- The last packet of a parcel comes, once. -/
def State.lastPacket (s : State) (p : Pkt) (coded : Bool) : State × Bool :=
  if (s.inPar p.src p.tag).closed then (s, true)
  else
    let r := s.parcelPacket p coded
    if r.2 = false ∨ (r.1.inPar p.src p.tag).refused ≠ 0 then r
    else (r.1.setInPar p.src p.tag { (r.1.inPar p.src p.tag) with closed := true }, true)

/-- A refused or discarded parcel ends with its last packet: a refused one is answered, a discarded one is not. -/
def State.endRefused (s : State) (p : Pkt) (st : Nat) : State :=
  if st = parDiscard then s.closeInPar p.src p.tag else (s.closeInPar p.src p.tag).answer p st

/-- The END of an uncoded parcel: one answer for all of it, once bytes kept for a COMPOSED span are stored. -/
def State.parcelEnd (s : State) (p : Pkt) : State × Bool :=
  let r := s.lastPacket p false
  if r.2 = false then r
  else
    let s := r.1
    let o := s.inPar p.src p.tag
    if o.refused ≠ 0 then (s.endRefused p o.refused, true)
    else
      let w := s.view o.old
      let h := w.exportHit p.src p.addr o.n rWrite
      let ps := w.spanPieces (deviceActor o.part trnUnit) h.span h.off o.n
      if ps.all (fun q => !q.2.rem) then ((s.closeInPar p.src p.tag).answer p ansOk 0 {} 0 0 (some o.part), true)
      else match o.store with
        | 0 =>
          let t : Xfer := { part := o.part, unit := p.inUnit, dst := ps, len := o.n, buf := cellsOf 0 o.v o.n, bufP := ninsMask [] 0 o.p (granules 0 o.n),
                            stored := true, sub := s.chargeOf p + 1 }
          let q := s.newXfer t
          ((q.1.advance q.2).setInPar p.src p.tag { o with store := q.2 + 1 }, false)
        | t + 1 =>
          if s.finishable t then (((s.endXfer t).closeInPar p.src p.tag).answer p ansOk 0 {} 0 0 (some o.part), true)
          else (s.advance t, false)

/-- The length of an inbound parcel's destination range: the raw length that its packets carry. [log 59: DEDUCED] -/
def OpenParcel.range (o : OpenParcel) : Nat := min 65536 (if o.coded then o.rawLen else max o.n o.rawLen)

/-- Poison an inbound parcel's whole range at its export; when the export does not cover all of it, the part that has been written. [log 59: DEDUCED] -/
def State.poisonInPar (s : State) (o : OpenParcel) : State :=
  let w := s.view o.old
  let hit := fun (n : Nat) => w.exportHit o.src o.addr n rWrite
  let n := if (hit o.range).status = 0 then o.range else if o.coded then 0 else o.n
  if n = 0 ∨ (hit n).status ≠ 0 ∨ (hit n).kind ≠ 0 then s
  else s.poisonPieces (w.spanPieces (deviceActor o.part trnUnit) (hit n).span (hit n).off n)

/-- What is kept of a parcel whose later packets are discarded. -/
def State.discardPar (s : State) (src tag : Nat) : State :=
  s.setInPar src tag { src := src, tag := tag, refused := parDiscard, lastPkt := s.time }

/-- An inbound parcel is incomplete (R309). [log 59: DEDUCED] -/
def State.incomplete (s : State) (src tag : Nat) : State :=
  let o := s.inPar src tag
  let s := (s.poisonInPar o).discardPar src tag
  (s.log (srcPort o.port) Ev.TRN_PARCEL_INCOMPLETE [src, tag, o.addr, o.range] (some o.part) (some trnUnit)).count F.TRN_RX_INCOMPLETE_COUNT 0 0 1

/-- B in nanoseconds (R367). -/
def State.deadBound (s : State) : Nat := 1000 * s.f F.FAB_CONFIG_DEAD_BOUND_US 0 0

/-- TRN_PARCEL_INCOMPLETE: no packet of an open parcel has come for the receiver's dead-target bound. -/
def execTrnParcelIncomplete (src tag : Nat) (s : State) : Answer :=
  let o := s.inPar src tag
  if o.isOpen = false ∨ o.closed = true ∨ s.time < o.lastPkt + s.deadBound then .next s
  else .next (s.incomplete src tag)

-- ===== Decoding (R327, R340 to R343) =====

/-- Blocks of an inbound parcel that decode each on a lane: those of its header, or one for a stream whose header tells no number. -/
def OpenParcel.blocks (o : OpenParcel) : Nat := if o.n < 16 ∨ hdrBad o.v = true ∨ hdrBlocks o.v = 0 then 1 else hdrBlocks o.v

/-- Block b's last coded byte has arrived. -/
def OpenParcel.arrived (o : OpenParcel) (b : Nat) : Bool :=
  decide (b < o.blocks) && (o.closed || (decide (16 ≤ o.n) && !hdrBad o.v &&
    decide ((parseRecords o.v (decide (hdrFormat o.v = 2)) (b + 1) 16).2 ≤ o.n)))

/-- The lowest block that waits for a lane: its last coded byte has arrived (R343). [log 150: DESIGN CHOICE] -/
def OpenParcel.waitingBlock (o : OpenParcel) : Option Nat := (List.range o.blocks).find? (fun b => o.arrived b && decide (mget 0 o.units b = 0))

/-- The lowest block on a lane. [log 150: DESIGN CHOICE] -/
def OpenParcel.laneBlock (o : OpenParcel) : Option Nat :=
  (List.range o.blocks).find? (fun b => decide (mget 0 o.units b ≠ 0) && !nmem o.decoded b)

/-- Decoding lanes that blocks of a parcel hold on a unit. -/
def OpenParcel.lanes (o : OpenParcel) (u : Nat) : Nat := (o.units.filter (fun q => decide (q.2 = u + 1) && !nmem o.decoded q.1)).length

/-- Decoding lanes of a unit in use. -/
def State.lanesUsed (s : State) (u : Nat) : Nat := s.fab.parcels.foldl (fun n q => n + q.2.lanes u) 0

/-- The lowest unit with a free lane: of the partition's mask, or of all units in service when the mask names none. -/
def State.freeDecoder (s : State) (p : Nat) : Option Nat :=
  let us := s.codecUnits p
  let us := if us.isEmpty then (List.range 8).filter (fun u => !nmem s.integ.retired (unitCodec u)) else us
  us.find? (fun u => decide (s.lanesUsed u < 16) && !s.codecForced u)

/-- CODEC_DECODE_START: a block whose last coded byte has arrived takes the lowest free lane. -/
def execCodecDecodeStart (src tag : Nat) (s : State) : Answer :=
  let o := s.inPar src tag
  match s.freeDecoder o.part, o.waitingBlock with
  | some u, some b =>
    if o.isOpen = false ∨ o.coded = false then .next s
    else .next ((s.abandonChecks (unitCodec u)).setInPar src tag { o with units := mput 0 o.units b (u + 1) })
  | _, _ => .next s

/-- The unit that decoded block b. -/
def OpenParcel.unitOf (o : OpenParcel) (b : Nat) : Nat := unitCodec (mget 0 o.units b - 1)

/-- Damage: the range is poisoned, the damage logged and answered with its reason and block (R341). -/
def State.damaged (s : State) (src tag reason block : Nat) : State :=
  let o := s.inPar src tag
  let s := s.poisonInPar o
  let s := (s.log (srcPort o.port) Ev.CDC_DAMAGE [src, tag, block, reason] (some o.part) (some (o.unitOf block))).count F.CDC_DAMAGE_COUNT 0 0 1
  let s := if reason = dmgCrc then s.observe (o.unitOf block) 5 else s
  s.setInPar src tag { o with reply := some { status := ansDamage, reason := reason, block := min 15 block } }

/-- Key of the fetch of an inbound parcel's reference. -/
def inParKey (src tag : Nat) : Nat := 2 ^ 60 + tagKey src tag

/-- The blocks of a stream that are coded against a reference (R336). -/
def OpenParcel.refBlocks (o : OpenParcel) : List Nat :=
  if hdrMode o.v ≠ 1 ∨ hdrBad o.v = true then []
  else
    let rs := (parseRecords o.v (decide (hdrFormat o.v = 2)) (hdrBlocks o.v) 16).1
    (List.range rs.length).filter (fun b => !(rs.getD b {}).raw)

/-- Each decoded block is journaled for the unit that decoded it, at its destination range (R456). -/
def State.journalBlocks (s : State) (o : OpenParcel) (dst : List (Nat × Piece)) : State :=
  (List.range o.blocks).foldl (fun s b => dst.foldl (fun s q =>
    let lo := max q.1 (4096 * b)
    let hi := min (q.1 + q.2.len) (4096 * (b + 1))
    s.journal o.part (o.unitOf b) q.2.rem (q.2.addr + (lo - q.1)) (hi - lo)) s) s

/-- The stream of an inbound parcel whose blocks are decoded is checked and its bytes are written (R340 to R342); the state in which its answer is
known, or in which it still waits. -/
def State.finishDecode (s : State) (src tag : Nat) : State :=
  let o := s.inPar src tag
  if o.p ≠ 0 then s.damaged src tag dmgCode 0
  else
    let v := o.v
    let w := s.view o.old
    let len := min 65536 (hdrRawLen v)
    let ref := mget 0 o.refs (hdrRefId v)
    let rp := F.CDC_REF_PARTITION.of ref
    let rs := F.CDC_REF_SPAN.of ref
    let a := { deviceActor rp trnUnit with transit := true, stream := ownStream }
    let bs := o.refBlocks
    let refOk := fun (b : Nat) => decide (F.CDC_REF_VALID.of ref = 1) && decide (rp = o.part) &&
      (w.spanCheck a rs ((hdrRefOff v + 4096 * b : Nat) : Int) 4096 rRead).isNone
    let ps := bs.flatMap (fun b => (w.spanPieces a rs (hdrRefOff v + 4096 * b) 4096).map (fun q => (4096 * b + q.1, q.2)))
    let sub := s.f F.MEM_EXPORT_CTL_CHARGE (o.addr / 2 ^ 40 % 256) 0 + 1
    let r := if !bs.isEmpty && bs.all refOk then s.fetchPieces (inParKey src tag) a ps 65536 rs (hdrRefOff v) sub else (s, some {})
    match r.2 with
    | none => r.1
    | some rd =>
      let s := r.1
      let refs := fun (b : Nat) => (rd.v / 256 ^ (4096 * b) % 256 ^ 4096, rd.p / 2 ^ (128 * b) % 2 ^ 128)
      let d := decodeStream v o.n o.rawLen refOk refs
      let h := w.exportHit src o.addr len rWrite
      if d.reason ≠ 0 then s.damaged src tag d.reason d.block
      else if h.status ≠ 0 ∨ h.kind ≠ 0 then
        let s := s.logLimited (limExport (o.addr / 2 ^ 40 % 256)) 1000000 (srcPort o.port) Ev.EXPORT_REFUSED [src, o.addr / 2 ^ 40 % 256, o.addr % 2 ^ 40]
        s.setInPar src tag { o with reply := some { status := if h.status ≠ 0 then h.status else ansRights } }
      else
        let dst := w.spanPieces (deviceActor o.part trnUnit) h.span h.off len
        let t : Xfer := { part := o.part, unit := o.unitOf 0, dst := dst, len := len, buf := cellsOf 0 d.v len,
                          bufP := ninsMask [] 0 d.p (granules 0 len), stored := true, sub := sub, stream := ownStream }
        let q := match o.store with
          | 0 =>
            let q := s.newXfer t
            ((q.1.advance q.2).setInPar src tag { o with store := q.2 + 1 }, q.2)
          | t + 1 => (s.advance t, t)
        if q.1.finishable q.2 && !(localOf dst).any (fun z => s.asleep z.1) then
          let s := ((q.1.spread q.2 { v := d.v, p := d.p }).endXfer q.2).journalBlocks o dst
          let s := d.badRef.foldl (fun s b =>
            (s.log (srcPort o.port) Ev.CDC_REF_POISON [rs * 2 ^ 40 + hdrRefOff v + 4096 * b] (some o.part) (some (o.unitOf b))).count
              F.CDC_REF_POISON_COUNT 0 0 1) s
          s.setInPar src tag { (s.inPar src tag) with reply := some {} }
        else q.1

/-- The END of a coded parcel: it waits until every block is decoded, and is answered with what its checks gave. -/
def State.cparcelEnd (s : State) (p : Pkt) : State × Bool :=
  let r := s.lastPacket p true
  if r.2 = false then r
  else
    let s := r.1
    let o := s.inPar p.src p.tag
    if o.refused ≠ 0 then (s.endRefused p o.refused, true)
    else if (List.range o.blocks).all (fun b => nmem o.decoded b) = false then (s, false)
    else
      let s := if o.reply.isSome then s else s.finishDecode p.src p.tag
      match (s.inPar p.src p.tag).reply with
      | none => (s, false)
      | some z => ((s.closeInPar p.src p.tag).relay p o.part z, true)

-- ===== Performing in order (R472) =====

/-- Perform a request by its operation; a reserved one is malformed (R354). -/
def State.perform (s : State) (p : Pkt) : State × Bool :=
  if p.op = opLoad then s.performLoad p
  else if p.op = opStore then s.performStore p
  else if p.op = opStorem then s.performStorem p
  else if p.op = opPeal then s.performPeal p
  else if p.op = opAtomic then s.performAtomic p
  else if p.op = opRed then s.performRed p
  else if p.op = opFence then s.performFence p
  else if p.op = opGong then (if p.payload.testBit 47 then s.performSound p else s.performArrive p)
  else if p.op = opTaint then s.performTaint p
  else if p.op = opRecord then s.performRecord p
  else if p.op = opParcel then s.parcelPacket p false
  else if p.op = opParcelEnd then s.parcelEnd p
  else if p.op = opCparcel then s.parcelPacket p true
  else if p.op = opCparcelEnd then s.cparcelEnd p
  else (s.answer p ansMalformed, true)

/-- The word that an ATOMIC addresses, as it stands. -/
def State.atomicOld (s : State) (p : Pkt) : Option Nat :=
  if p.op ≠ opAtomic then none
  else
    let h := s.exportHit p.src p.addr 8 rAtomic
    if h.status ≠ 0 then none
    else if h.kind = 2 then some (s.kvW (h.off / 64) 5)
    else if h.kind = 0 ∧ (s.hitPiece h 8).rem = false then some (s.readMem p.inUnit (s.hitPiece h 8).addr 8).2.v
    else none

-- ===== Late answers (R365) =====

/-- The requests that have an answer of their own: all but the packets of a parcel before its last. -/
def Pkt.answered (p : Pkt) : Bool := decide (p.op ≠ opParcel) && decide (p.op ≠ opCparcel)

/-- FAB_PENDING_SEND: 1 µs after acceptance or the last PENDING. -/
def execFabPendingSend (src tag : Nat) (s : State) : Answer :=
  match s.inbDue src tag (fun q => decide (1000 + q.pendingAt ≤ s.time) && q.pkt.answered) with
  | none => .next s
  | some q =>
    let s := s.setInb src q.pkt.key (fun x => { x with pendingAt := s.time })
    if s.sends = false ∧ q.pkt.port ≠ portLoop then .next s
    else if src = 0xFFFF then .next (s.count F.FAB_EGRESS_DROP_COUNT 0 0 1)
    else match s.backPort q.pkt with
      | none => .next s
      | some port => .next (s.putOut { op := opPending, tag := tag, src := if s.toPair q.pkt then s.f F.HUB_PAIR_CFG_PAIR_NODE 0 0 else s.node,
                                       dst := src, port := port })

/-- A waiting request leaves unanswered, and its credit returns to its link. -/
def State.leaveIn (s : State) (q : Inbound) : State :=
  (s.dropFetch (2 ^ 61 + q.id)).setFab (fun b => { b with
    inb := b.inb.filter (fun x => decide (x.id ≠ q.id)),
    links := if q.pkt.port < 18 then mupd {} b.links q.pkt.port (fun l =>
      { l with retReq := l.retReq + b2n (decide (q.pkt.chan = 0)), retCtl := l.retCtl + b2n (decide (q.pkt.chan = 2)) }) else b.links })

/-- FAB_REQ_ABANDONED: a request not answered within 1 ms is abandoned. One that has been passed on may be performed where it went and is not
abandoned here. A parcel is abandoned as a whole: what has been written of it is poisoned, and what still comes of it is discarded. [log 63: DEDUCED; 131: DESIGN CHOICE] -/
def execFabReqAbandoned (src tag : Nat) (s : State) : Answer :=
  let o := s.inPar src tag
  let parcel := fun (q : Inbound) => decide (opParcel ≤ q.pkt.op) && decide (q.pkt.op ≤ opCparcelEnd)
  match s.inbDue src tag (fun q => decide (1000000 + q.time ≤ s.time) && !q.begun && !(parcel q && (decide (o.store ≠ 0) || o.reply.isSome))) with
  | none => .next s
  | some q =>
    let s := (s.leaveIn q).log (srcPort q.pkt.port) Ev.FAB_REQ_ABANDONED [src, tag] none (some q.pkt.inUnit)
    if parcel q = false then .next (s.answer q.pkt ansAbandoned)
    else
      let s := if o.isOpen && !o.coded && decide (o.n ≠ 0) then s.poisonInPar o else s
      if q.pkt.answered then .next ((s.closeInPar src tag).answer q.pkt ansAbandoned)
      else .next (s.setInPar src tag { o with src := src, tag := tag, isOpen := false, refused := ansAbandoned, lastPkt := s.time + 1 })

end Sys2Proof.Machine
end

