-- ==== Sys2Proof/Machine/Steps.lean ====
section
/-!
DEFINITION. Sys2Proof/Machine/Steps.lean: steps of a partition and of its drums: validation and journal, the latch of a drum, done,
budgets, deadline and watchdog, the prefetch sequencer, calibration, and the runtime's actions on stopped contexts
(04_execution_and_timing.md; R146; R246 to R249; R462 to R464).
-/
namespace Sys2Proof.Machine

open Sys2Proof (CtxId Fields Word)

-- ===== DRM_CTX_CONTROL (R146) =====

/-- An action of DRM_CTX_CONTROL on logical drum n of kit k. -/
def State.ctxAction (s : State) (k n : Nat) (w : Word) (act : Nat) (g : Ctx → Ctx) : State :=
  let u : CtxId := ⟨k, s.phys k n, F.DRM_CTX_CONTROL_MALLET.of w, F.DRM_CTX_CONTROL_CTX.of w⟩
  let c := s.ctx u
  let running := match s.partOfKit k with
    | some p => decide (s.stepState p = stRunning)
    | none => false
  if s.fb F.HUB_STATUS_READY 0 0 && s.kitLive k && decide (n < 150) && decide (F.DRM_CTX_CONTROL_ACTION.of w = act) && running &&
      decide (1 ≤ c.fault) && decide (c.fault ≤ 0xF) && !c.halted then s.setCtx u g
  else s

/-- RETRY at PC. -/
def execRetry (k n : Nat) (w : Word) (s : State) : Answer :=
  .next (s.ctxAction k n w 1 (fun c => { c with fault := 0, stopped := false }))
/-- SKIP to PC + 8. -/
def execSkip (k n : Nat) (w : Word) (s : State) : Answer :=
  .next (s.ctxAction k n w 2 (fun c => { c with fault := 0, stopped := false, pc := c.pc + 8 }))
/-- RESUME_AT the PC field. -/
def execResumeAt (k n : Nat) (w : Word) (s : State) : Answer :=
  .next (s.ctxAction k n w 3 (fun c =>
    { c with fault := 0, stopped := false, pc := BitVec.ofNat 32 (F.DRM_CTX_CONTROL_PC.of w) }))
/-- HALT until the next step. -/
def execHalt (k n : Nat) (w : Word) (s : State) : Answer := .next (s.ctxAction k n w 4 (fun c => { c with halted := true }))

-- ===== Budgets (R170) =====

/-- The FLOOR of a kit as deadlines take it (R170): the one reported, else the last nonzero one reported since cold reset, else 1,500. -/
def State.kitFloor (s : State) (k : Nat) : Nat :=
  let f := s.f F.KIT_OPPOINT_FLOOR k 0
  if f ≠ 0 then f else if (s.kit k).lastFloor ≠ 0 then (s.kit k).lastFloor else 1500

/-- The lowest FLOOR of a partition's kits. -/
def State.partFloor (s : State) (p : Nat) : Nat := (s.kitsOf p).foldl (fun f k => min f (s.kitFloor k)) 0xFFFF

/-- D of the running step for a FLOOR (R170), with the time that a forced calibration or a rebind adds. -/
def State.deadlineFor (s : State) (p f : Nat) : Nat :=
  let b := (s.part p).budget
  let h := F.PAR_STEP_BUDGET_HS_BOUND.of b + 32
  (10000 * h + f - 1) / f + F.PAR_STEP_BUDGET_STALL_NS.of b + 800 + (s.part p).run.extraNs

/-- Lower F to f and recompute D, which never decreases within a step. -/
def State.lowerFloor (s : State) (p f : Nat) : State :=
  let g := min (s.part p).floor f
  let s := s.setPart p (fun x => { x with floor := g })
  let d := max (s.f F.PAR_STEP_DEADLINE_D_NS p 0) (s.deadlineFor p g)
  s.setF F.PAR_STEP_DEADLINE_D_NS p 0 d

/-- A drum's first issue is delayed: D of the step grows by ns. -/
def State.extendD (s : State) (p ns : Nat) : State :=
  let s := s.setPart p (fun x => { x with run := { x.run with extraNs := x.run.extraNs + ns } })
  s.setF F.PAR_STEP_DEADLINE_D_NS p 0 (s.f F.PAR_STEP_DEADLINE_D_NS p 0 + ns)

-- ===== Step submission, validation and journal (R246 to R248, R463) =====

/-- STEP_SUBMIT: a write of SRV_STEP_SUBMIT[p]. -/
def execStepSubmit (p : Nat) (w : Word) (s : State) : Answer :=
  if 8 ≤ p ∨ s.fb F.HUB_STATUS_READY 0 0 = false then .next s
  else if s.fb F.SRV_STEP_SUBMIT_PENDING p 0 then .next (s.log (srcHub 1) Ev.STEP_SUBMIT_OVERRUN [] (some p) (some (unitHub 1)))
  else
    let n := F.SRV_STEP_SUBMIT_COUNT.of w
    if 4096 < n ∨ bits w.toNat 30 1 ≠ 0 then
      .next (s.log (srcHub 1) Ev.STEP_SUBMIT_INVALID [w.toNat] (some p) (some (unitHub 1)))
    else .next (((s.forward 0 .SRV_STEP_SUBMIT p 0 w).setF F.SRV_STEP_SUBMIT_PENDING p 0 1).setPart p (fun x => { x with submitted := some (F.SRV_STEP_SUBMIT_LIST.of w * 64, n) }))

/-- The role of kit k in partition p's configuration (Table 13.1). -/
def State.roleOf (s : State) (p k : Nat) : Nat := bits (s.f F.PAR_CONFIG_ROLES p 0) (2 * k + 1) (2 * k)

/-- The KV descriptor of slot n admits a step of partition p (R247). -/
def State.stepKvOk (s : State) (p n : Nat) : Bool :=
  !s.kvPoisoned n && decide (s.kvState n = kvActive) && s.ownsKit p (s.kvOwner n) && decide (s.roleOf p (s.kvOwner n) ≤ 1)

/-- A step-start event on slot n with a phase: the state after, and whether it was applied (Table 7.6). -/
def State.stepEvent (s : State) (p n phase : Nat) : State × Bool :=
  if !(s.ownsSlot p n) || !(phase = 1 || phase = 2) || !s.stepKvOk p n then (s, false)
  else
    let q := s.slotGate n
    if q.2 = false then (q.1, false)
    else
      let s := q.1
      let st := s.slState n
      let next := if phase = 1 then slPrefill else slDecode
      if st = slQueued ∨ st = next ∨ (st = slPrefill ∧ phase = 2) then
        let steps := s.slotW n 6 / 2 ^ 32
        ((s.setSlState n next).putSlotW n 6 (setBits (s.slotW n 6) 32 32 (min (steps + 1) (2 ^ 32 - 1))), true)
      else (s, false)

/-- Validate a step list of count entries at offset list: the slots listed, and those whose entry was applied. A slot's second entry is marked SKIP
whatever became of the first (R247). -/
def State.validate (s : State) (p list count : Nat) : State × List Nat × List Nat :=
  (List.range count).foldl (fun (q : State × List Nat × List Nat) i =>
    let a := hubBase + list + 4 * i
    let r := q.1.hubRead 1 a 4
    let e := r.2.v
    let n := e % 2 ^ 14
    let x := if r.2.p ≠ 0 ∨ n ∈ q.2.1 then (r.1, false) else r.1.stepEvent p n (e / 2 ^ 30)
    let s := x.1.writeMem (unitHub 1) a 4 (setBits e 29 1 (b2n (!x.2))) 15 0
    (s, if r.2.p ≠ 0 then q.2.1 else q.2.1 ++ [n], if x.2 then q.2.2 ++ [n] else q.2.2)) (s, [], [])

/-- Where the journal entry of step n lies (R463). -/
def State.sijAddr (s : State) (p n : Nat) : Nat :=
  hbmKit * s.f F.PAR_SIJ_CFG_JKIT p 0 + (s.f F.PAR_SIJ_CFG_BASE p 0 + s.f F.PAR_SIJ_CFG_STRIDE p 0 * (n % 1024)) * 65536

/-- Valid input ranges of a partition: their local address and length. -/
def State.sijRanges (s : State) (p : Nat) : List (Nat × Nat) :=
  ((List.range 8).filter (fun i => s.fb F.PAR_SIJ_IN_VALID p i)).map (fun i =>
    let x := s.f F.PAR_SIJ_IN_ADDR p i
    (s.spanAddr (deviceActor p (unitHub 1)) (x / 2 ^ 40 % 64) (x % 2 ^ 40), s.f F.PAR_SIJ_LEN_LEN64 p i * 64))

/-- Write the step input journal entry of step n (R463, Table 15.2). -/
def State.writeSij (s : State) (p n list count : Nat) (slots : List Nat) (replay : Bool) : State :=
  if s.fb F.PAR_SIJ_CFG_ENABLE p 0 = false then s
  else
    let a := s.sijAddr p n
    let hdr := n + 2 ^ 64 * s.time + 2 ^ 128 * s.f F.HUB_CFG_STATUS_CURRENT 0 0 + 2 ^ 160 * count +
      (s.rg .PAR_STEP_BUDGET p 0).toNat * 2 ^ 192 + (s.f F.PAR_SIJ_CFG_REPLAYABLE p 0 + 2 * b2n replay) * 2 ^ 256
    let rngs := (List.range 8).foldl (fun v i =>
      v + (s.rg .PAR_SIJ_IN p i).toNat * 2 ^ (64 * (2 * i)) + (s.rg .PAR_SIJ_LEN p i).toNat * 2 ^ (64 * (2 * i + 1))) 0
    let s := s.writeAll noUnit a 256 { v := hdr + 2 ^ 512 * rngs, p := 0 }
    let l := s.readMem noUnit (hubBase + list) (4 * count)
    let s := l.1.writeAll noUnit (a + 256) 16384 { v := l.2.v, p := l.2.p }
    let r := slots.foldl (fun (q : State × Nat) m =>
      let x := q.1.readMem noUnit (reqSlotAddr m) 128
      (x.1.writeAll noUnit q.2 128 x.2, q.2 + 128)) (s, 16640 + a)
    let r := (s.sijRanges p).foldl (fun (q : State × Nat) g =>
      let x := q.1.readMem noUnit g.1 g.2
      (x.1.writeAll noUnit q.2 g.2 x.2, q.2 + g.2)) (r.1, (r.2 + 63) / 64 * 64)
    r.1.setPart p (fun x => { x with journaled := nins (ndel x.journaled (n - 1024)) n })

-- ===== The step start (R154, R165, R171) =====

/-- A partition that is not in step with the LEAD waits for its resync (R480). -/
def State.resyncHolds (s : State) (p : Nat) : Bool := !s.sends && bit (s.f F.HUB_PAIR_STATUS_RESYNC 0 0) p

/-- A step start of partition p may be sent, apart from its pre-emption phase: submitted, IDLE, in service with kits to run on, no
held KV command, not held by an epoch switch, a join or a resync. -/
def State.startable (s : State) (p : Nat) : Bool :=
  (s.part p).submitted.isSome && decide (s.stepState p = stIdle) && s.fb F.PAR_CONFIG_ENABLE p 0 &&
    (!s.fb F.PAR_CONFIG_GUEST p 0 || !(s.kitsOf p).isEmpty) && !s.kv.held.any (fun h => decide (h.part = p)) &&
    !s.isHeld p && !nmem s.pair.joinHold p && !s.resyncHolds p && !s.halted

/-- Cancel bits of slots that have become FREE are cleared at the partition's first step start (R255). -/
def State.clearFreed (s : State) (p : Nat) : State :=
  (s.serve.freed.filter (fun n => s.ownsSlot p n)).foldl (fun s n =>
    (s.setCancel p n false).setServe (fun v => { v with freed := ndel v.freed n })) s

/-- Latch gong lines and routers (R165, R182, R183). -/
def State.latchLines (s : State) (p : Nat) : State :=
  let cfgs := (List.range 16).foldl (fun m l => mput (RegName.PAR_GONG_LINE.resetWord p l) m l (s.rg .PAR_GONG_LINE p l)) []
  let s := s.setPart p (fun x => { x with gongCfg := cfgs, arrivedBy := [], nextArrived := [] })
  let s := (List.range 16).foldl (fun s l => s.setF F.PAR_GONG_LINE_ARRIVED p l 0) s
  (s.kitsOf p).foldl (fun s k =>
    let w := s.rg .KIT_ROUTER_CONFIG k 0
    (s.setKit k (fun x => { x with routerCfg := w, expertCount := [], streamLogged := false, forcedCalib := false })).setF
      F.KIT_ROUTER_CONFIG_LAYER k 0 (F.KIT_ROUTER_CONFIG_LAYER_START.of w)) s

/-- Send the step start to every drum of the partition, for step number n with the given budget. A below-floor run that goes on counts from the
step's start (R47), and so do the tempos last measured (R249). -/
def State.sendStart (s : State) (p n : Nat) (budget : BitVec 64) (applied skips : Nat) (replay : Bool) : State :=
  let f := s.partFloor p
  let drums := (s.kitsOf p).flatMap (fun k => (s.activeDrums k).map (fun d => s.drum k d))
  let below := drums.any (fun d => decide (d.belowRun ≠ 0))
  let r : StepRun := { startAt := s.time, applied := applied, skips := skips, replay := replay, s15 := n, belowSeen := below,
                       lowTempo := drums.foldl (fun t d => min t d.tempo) 0xFFFF }
  let s := s.setPart p (fun x => { x with budget := budget, watchdog := s.rg .PAR_STEP_WATCHDOG p 0, residentNs := 0, floor := f, run := r })
  let s := (s.setStep p stRunning).setF F.PAR_STEP_STATUS_RESIDENT_US p 0 0
  let s := if below then s.setF F.PAR_STEP_STATUS_BELOW_FLOOR_SEEN p 0 1 else s
  let s := s.setF F.PAR_STEP_DEADLINE_D_NS p 0 (s.deadlineFor p f)
  let s := (s.latchLines p).clearFreed p
  let s := { s with pair := { s.pair with released := s.pair.released.filter (fun h => decide (h.part ≠ p) || decide (n ≤ h.step + 1)) } }
  (s.kitsOf p).foldl (fun s k => (s.activeDrums k).foldl (fun s d =>
    s.setDrum k d (fun x => { x with kicked := true, inStep := false, idleStep := false, lateLogged := false, lateTurns := 0,
                                     belowInStep := decide (x.belowRun ≠ 0) })) s) s

/-- The step start of a submitted step: validation, journal, the sequence number and the start (R246 to R248, R406). -/
def State.startStep (s : State) (p : Nat) : State :=
  match (s.part p).submitted with
  | none => s
  | some (list, count) =>
    let v := s.validate p list count
    let n := ((v.1.rg .PAR_STEP_SEQ p 0).toNat + 1) % 2 ^ 64
    let s := v.1.writeSij p n list count v.2.2 false
    let s := (s.setRg .PAR_STEP_SEQ p 0 (BitVec.ofNat 64 n)).setF F.SRV_STEP_SUBMIT_PENDING p 0 0
    let s := s.setPart p (fun x => { x with submitted := none })
    s.sendStart p n (s.rg .PAR_STEP_BUDGET p 0) v.2.2.length (count - v.2.2.length) false

-- ===== The latch of a drum (R154) =====

/-- One context at step start: enabled contexts take their entry PC, the others stop. -/
def latchCtx (n s15 : Nat) (entry : Nat → Nat × Bool) (c : Nat) (x : Ctx) : Ctx :=
  if n ≤ c then { x with stopped := true }
  else
    let e := entry c
    let x := { x with bind := [], fault := 0, stopped := false, accOvf := false, accInv := false, cnvOvf := false, vecInv := false,
                      halted := false, wait := .none, rot := 3 }
    let x := x.setS 15 { v := BitVec.ofNat 64 s15 }
    if e.2 then { x with fault := 3, stopped := true, pc := 0 }
    else if e.1 / 2 ^ 32 ≠ 0 then { x with fault := 1, stopped := true, pc := BitVec.ofNat 32 e.1 }
    else { x with pc := BitVec.ofNat 32 e.1 }

/-- Start the prefetch list at a base, or hold it until the sequencer has reached END (R163); a list held before it gives way. [log 143: DESIGN CHOICE] -/
def State.startList (s : State) (k d : Nat) : State :=
  let dr := s.drum k d
  let base := F.DRM_STEP_CONFIG_PLIST_BASE.of dr.cfg * 256
  if dr.pf.st = .ended ∧ dr.pf.held = 0 then s.setDrum k d (fun x => { x with pf := { x.pf with st := .running, pos := base } })
  else (s.setDrum k d (fun x => { x with pf := { x.pf with held := base + 1 } })).count F.DRM_LATE_STALL_LIST_HOLD k d 1

/-- The entry words of a drum's contexts. [log 27: DESIGN CHOICE] -/
def State.entryWords (s : State) (k d : Nat) : State × List (Nat × Bool) :=
  let a := slotAddr k d (s.drum k d).progBase
  (List.range (rotCount (s.drum k d).rot)).foldl (fun (q : State × List (Nat × Bool)) c =>
    let r := q.1.readMem (unitDrum k d) (a + 8 * c) 8
    (r.1, q.2 ++ [(r.2.v, decide (r.2.p ≠ 0))])) (s, [])

/-- A drum latches its configuration and starts its contexts and its list (R153, R154, R189). The area of a list that starts is its first
entry. [log 29: DEDUCED; 144: DESIGN CHOICE] -/
def State.latchDrum (s : State) (k d : Nat) : State :=
  let cfg := s.rg .DRM_STEP_CONFIG k d
  let p := (s.partOfKit k).getD 0
  let ib := s.rg .DRM_INBOX k d
  let en := s.inboxFits k ib
  let s := s.setDrum k d (fun x => { x with cfg := cfg, kicked := false, inStep := true, calibrating := false, inboxCfg := ib, inboxEn := en,
                                            rebindFrom := 0, ibuf := [] })
  let s := if en || !inboxSized ib then s else s.log (srcKit k) Ev.ROUTER_INBOX_INVALID [] (some p) (some (unitDrum k d))
  let past := decide (0x600000 < (s.drum k d).progBase + (s.drum k d).progSize) ||
    (decide (F.DRM_STEP_CONFIG_PLIST_EN.of cfg = 1) && decide (0x600000 < F.DRM_STEP_CONFIG_PLIST_BASE.of cfg * 256 + 32))
  if (s.drum k d).progSize = 0 ∨ past = true then
    let s := if past then s.log (srcKit k) Ev.STEP_CONFIG_INVALID [] (some p) (some (unitDrum k d)) else s
    s.setDrum k d (fun x => { x with idleStep := true })
  else
    let e := s.entryWords k d
    let entry := fun c => e.2.getD c (0, false)
    let n := rotCount (s.drum k d).rot
    let s15 := (s.part p).run.s15
    let s := (List.range 256).foldl (fun s m => s.setMallet k d m (fun x =>
      (List.range 8).foldl (fun x c => { x with c := mupd {} x.c c (latchCtx n s15 entry c) }) x)) e.1
    let s := ((List.range n).filter (fun c => (entry c).2 || decide ((entry c).1 / 2 ^ 32 ≠ 0))).foldl (fun s c =>
      (List.range 256).foldl (fun s m =>
        let u : CtxId := ⟨k, d, m, c⟩
        s.faultRecord u (s.ctx u).fault (s.ctx u).pc.toNat (entry c).1 []) s) s
    if F.DRM_STEP_CONFIG_PLIST_EN.of cfg = 1 then s.startList k d else s

-- ===== Done (R155, R249) =====

/-- The contexts of a drum that an enabled rotation covers, as the mallets that hold state have them. -/
def State.drumCtxs (s : State) (k d : Nat) : List (Sys2Proof.CtxId × Ctx) :=
  (s.mallets.filter (fun q => decide (q.1 / 256 = drumKey k d))).flatMap (fun q =>
    q.2.c.map (fun c => ((⟨k, d, q.1 % 256, c.1⟩ : CtxId), c.2)))

/-- The drum is done with its step: every enabled context is stopped and every flag of every context reads arrived. [log 28: DEDUCED] -/
def State.drumIsDone (s : State) (k d : Nat) : Bool :=
  let n := rotCount (s.drum k d).rot
  (s.drum k d).idleStep || (s.drumCtxs k d).all (fun q => (decide (n ≤ q.1.ctx) || q.2.stopped) && q.2.af.isEmpty)

/-- DRUM_DONE: the drum flushes its merge buffer and reports done (R155, R436). -/
def execDrumDone (k d : Nat) (s : State) : Answer :=
  let p := (s.partOfKit k).getD 0
  let st := s.stepState p
  if s.kitLive k = false ∨ (s.drum k d).inStep = false ∨ (st ≠ stRunning ∧ st ≠ stStopping) ∨ (s.part p).pre.boundary = true ∨
      s.drumIsDone k d = false then .next s
  else
    let s := s.flushMerge k d (fun _ => true)
    let faulted := ((s.drumCtxs k d).filter (fun q => decide (q.1.ctx < rotCount (s.drum k d).rot) && decide (1 ≤ q.2.fault) &&
      decide (q.2.fault ≤ 0xF))).length
    let t := s.time - (s.part p).run.startAt
    let s := s.setDrum k d (fun x => { x with inStep := false })
    .next (s.setPart p (fun x =>
      let r := { x.run with faulted := x.run.faulted + faulted }
      { x with run := if r.slowNs < t ∨ r.slowNs = 0 then { r with slowKit := k, slowDrum := d, slowNs := t } else r }))

/-- Drums of the running step that are not done, in drum order. -/
def State.notDone (s : State) (p : Nat) : List (Nat × Nat) :=
  (s.kitsOf p).flatMap (fun k => ((List.range 156).filter (fun d => (s.drum k d).kicked || (s.drum k d).inStep)).map (fun d => (k, d)))

/-- The step completion record (Table 7.12). [log 31: DEDUCED] -/
def State.completionRecord (s : State) (p : Nat) : Nat :=
  let x := s.part p
  let r := x.run
  r.s15 + 2 ^ 64 * r.startAt + 2 ^ 128 * x.residentNs + 2 ^ 192 * s.f F.PAR_STEP_DEADLINE_D_NS p 0 +
    (2 ^ 48 * x.floor + 2 ^ 32 * r.lowTempo + 2 ^ 16 * r.applied + r.skips) * 2 ^ 256 +
    (2 ^ 32 * r.faulted + b2n r.belowSeen * 8 + b2n r.calibForced * 4 + b2n r.missed * 2 + b2n r.fired) * 2 ^ 320 +
    (2 ^ 52 * r.slowKit + 2 ^ 44 * r.slowDrum + r.slowNs % 2 ^ 44) * 2 ^ 384 + 2 ^ 448 * x.budget.toNat

/-- The step hashes of partition p are exchanged with the partner (R474); counts of segments start anew. -/
def State.pairStepDone (s : State) (p : Nat) : State :=
  if s.compares p = false ∨ nmem s.pair.diverged p = true then s
  else
    let h := mget 0 s.pair.stepHash p
    let n := (s.part p).run.s15
    let held : Held := { kind := 4, part := p, hash := h, closed := true, step := n, time := s.time }
    let msg : CompareMsg := { kind := 4, part := p, step := n, hash := h }
    let mine := fun (q : Nat × Nat) => decide (s.partOf (ctxOfKey q.1) = p)
    { s with pair := { s.pair with stepHash := mput 0 s.pair.stepHash p 0, waiting := s.pair.waiting ++ [held],
                                   sent := s.pair.sent ++ [msg], segCount := s.pair.segCount.filter (fun q => !mine q) } }

/-- STEP_DONE: every drum of the partition is done; the completion record is written and the partition is IDLE (R155, R171, R249). -/
def execStepDone (p : Nat) (s : State) : Answer :=
  let st := s.stepState p
  if 8 ≤ p ∨ (st ≠ stRunning ∧ st ≠ stStopping) ∨ s.notDone p ≠ [] then .next s
  else
    let n := (s.part p).run.s15
    let a := hubBase + s.f F.SRV_STEP_RING_BASE p 0 * 64 + 64 * (n % 2 ^ s.f F.SRV_STEP_RING_LOG2 p 0)
    let s := s.writeAll (unitHub 1) a 64 { v := s.completionRecord p, p := 0 }
    let s := (s.setStep p stIdle).setF F.PAR_STEP_DEADLINE_D_NS p 0 0
    .next (s.pairStepDone p)

-- ===== Deadline and watchdog (R171, R172) =====

/-- The lowest PC among a drum's running contexts. -/
def State.lowPc (s : State) (k d : Nat) : Nat :=
  ((s.drumCtxs k d).filter (fun q => !q.2.stopped)).foldl (fun m q => min m q.2.pc.toNat) 0xFFFFFFFF

/-- A lowest PC as a record carries it: 0 when no context runs. -/
def State.lowPcItem (s : State) (k d : Nat) : Nat := if s.lowPc k d = 0xFFFFFFFF then 0 else s.lowPc k d

/-- STEP_DEADLINE_MISSED. -/
def execStepDeadlineMissed (p : Nat) (s : State) : Answer :=
  let x := s.part p
  if 8 ≤ p ∨ s.stepState p ≠ stRunning ∨ s.fb F.PAR_CONFIG_MODE p 0 = true ∨ F.PAR_STEP_WATCHDOG_DEADLINE_EN.of x.watchdog = 0 ∨
      x.run.missed = true ∨ x.residentNs < s.f F.PAR_STEP_DEADLINE_D_NS p 0 then .next s
  else
    let nd := s.notDone p
    let q := nd.headD (0, 0)
    let s := (s.setF F.PAR_STEP_STATUS_DEADLINE_MISSED p 0 1).setPart p (fun x => { x with run := { x.run with missed := true } })
    .next (s.log (srcHub 1) Ev.STEP_DEADLINE_MISSED [s.f F.PAR_STEP_DEADLINE_D_NS p 0, s.lowPcItem q.1 q.2, nd.length] (some p)
      (if nd = [] then none else some (unitDrum q.1 q.2)))

/-- Stop every running context of a partition with WATCHDOG_STOP (R172); merge buffers are flushed (R436). -/
def State.stopAll (s : State) (p : Nat) : State :=
  (s.kitsOf p).foldl (fun s k =>
    let s := s.mapCtx k (fun _ c => if c.stopped then c else { c with fault := 0x20, stopped := true, wait := .none })
    (s.activeDrums k).foldl (fun s d => s.flushMerge k d (fun _ => true)) s) s

-- ===== Divergence (R477) =====

/-- Keys of the sound checks of a diagnosis: pair i of a kit's logical drums, or a codec unit. [log 15: DESIGN CHOICE] -/
def diagKey (k i : Nat) : Nat := 2 ^ 25 + k * 128 + i
def diagCodec (c : Nat) : Nat := 2 ^ 25 + 1024 + c

/-- Queue a check of a diagnosis. -/
def State.queueDiag (s : State) (key : Nat) (a b : Nat) (auto : Bool) : State :=
  let k : SCheck := { live := true, a := a, b := b, auto := auto, seed := Config.freeValue s.freeCtr % 2 ^ 64, since := s.time }
  { s.fresh with integ := { s.integ with checks := mput {} s.integ.checks key k } }

/-- A request that was held and will not leave: its tag is free, and a posted one counts no longer. [log 85: DEDUCED] -/
def State.forget (s : State) (p : Pkt) : State :=
  let n := nodeOf p.addr
  let g := s.tag n p.tag
  let s := s.setTag n p.tag {}
  match g.issuer with
  | .posted u => s.setCtx (ctxOfKey u) (fun c => { c with posted := c.posted - 1 })
  | .xfer x _ => s.endXfer x
  | _ => s

/-- The segments and the step hash of partition p are dropped: nothing of them is released. [log 85: DEDUCED] -/
def State.dropSegments (s : State) (p : Nat) : State :=
  let mine := fun (h : Held) => decide (h.part = p) && decide (3 ≤ h.kind)
  let ps := (s.pair.waiting.filter mine).flatMap Held.pkts ++ (s.pair.segs.filter (fun q => mine q.2)).flatMap (fun q => q.2.pkts)
  let s := ps.foldl State.forget s
  { s with pair := { s.pair with
      waiting := s.pair.waiting.filter (fun h => !mine h), segs := s.pair.segs.filter (fun q => !mine q.2),
      segCount := s.pair.segCount.filter (fun q => decide (s.partOf (ctxOfKey q.1) ≠ p)),
      theirs := s.pair.theirs.filter (fun m => decide (m.1.part ≠ p)), stepHash := mput 0 s.pair.stepHash p 0 } }

/-- The words of a comparison message (Table 15.6). -/
def CompareMsg.words (m : CompareMsg) : List Nat := [m.kind * 2 ^ 60 + 2 ^ 57 * m.part + m.num, m.key, m.step, m.hash]

/-- The codec units that coded or would code a compared parcel. -/
def State.codersOf (s : State) (m : CompareMsg) : List Nat :=
  match s.pair.waiting.find? (fun h => decide (h.kind = 1) && decide (m.kind = 1) && decide (h.part = m.part) && decide (h.num = m.num) && decide (h.key = m.key)) with
  | none => []
  | some h =>
    let k := mget {} s.trn.parcels (h.parcel - 1)
    if k.coded = false then []
    else if k.unit ≠ 0 then [k.unit - 1]
    else (List.range 8).filter (fun u => bit (s.f F.CDC_PART_CFG_UNIT_MASK m.part 0) u && !nmem s.integ.retired (unitCodec u))

/-- A comparison mismatches: the step stops, and its drums are checked pairwise. A partition already in diagnosis stays in it. [log 85: DEDUCED] -/
def State.diverge (s : State) (m : CompareMsg) : State :=
  let p := m.part
  if nmem s.pair.diverged p then s
  else
    let s := s.log (srcHub 8) Ev.PAIR_DIVERGENCE m.words (some p)
    let s := (s.count F.HUB_PAIR_STATUS_DIVERGENCES 0 0 1).setF F.HUB_PAIR_STATUS_CLEAN_STEPS 0 0 0
    let coders := s.codersOf m
    let s := if s.stepState p = stRunning then (s.stopAll p).setStep p stStopping else s
    let s := s.dropSegments p
    let s := { s with pair := { s.pair with diverged := nins s.pair.diverged p, ownBad := ndel s.pair.ownBad p } }
    let s := (s.kitsOf p).foldl (fun s k => (List.range 75).foldl (fun s i =>
      let a := s.phys k (2 * i)
      let b := s.phys k (2 * i + 1)
      if (s.drum k a).retired || (s.drum k b).retired then s else s.queueDiag (diagKey k i) (unitDrum k a) (unitDrum k b) false) s) s
    coders.foldl (fun s c => s.queueDiag (diagCodec c) (unitCodec c) 0 true) s

/-- A drum's word in the STEP_WATCHDOG record; a count of stopped contexts above 15 is given as 15. -/
def State.watchdogWord (s : State) (k d : Nat) : Nat :=
  let n := ((s.drumCtxs k d).filter (fun q => decide (q.1.ctx < rotCount (s.drum k d).rot) && q.2.stopped)).length
  s.lowPcItem k d * 2 ^ 32 + b2n (s.drum k d).belowInStep * 2 ^ 31 + min 15 n * 2 ^ 24 + unitDrum k d

/-- Barrier lines of p with waiters. -/
def State.linesWaiting (s : State) (p : Nat) : List Nat :=
  (List.range 16).filter (fun l => !gongEvent (s.gongCfg p l) && (s.kitsOf p).any (fun k =>
    s.mallets.any (fun q => decide (q.1 / 65536 = k) && q.2.c.any (fun c =>
      match c.2.wait with | .gong l' _ _ => decide (l' = l) | .arrive l' _ => decide (l' = l) | _ => false))))

/-- The drum of p with the most late turns, the lowest on a tie. -/
def State.latestDrum (s : State) (p : Nat) : Nat × Nat :=
  ((s.kitsOf p).flatMap (fun k => (List.range 156).map (fun d => (k, d)))).foldl (fun b q =>
    if (s.drum b.1 b.2).lateTurns < (s.drum q.1 q.2).lateTurns then q else b) (((s.kitsOf p).headD 0), 0)

/-- The watchdog of partition p has expired (R157): deadline plus grace, or the job limit in job mode. -/
def State.watchdogDue (s : State) (p : Nat) : Bool :=
  let x := s.part p
  let jl := F.PAR_STEP_WATCHDOG_JOB_LIMIT_MS.of x.watchdog
  if s.fb F.PAR_CONFIG_MODE p 0 then decide (jl ≠ 0) && decide (1000000 * jl ≤ x.residentNs)
  else decide (s.f F.PAR_STEP_DEADLINE_D_NS p 0 + 1000 * F.PAR_STEP_WATCHDOG_GRACE_US.of x.watchdog ≤ x.residentNs)

/-- The items of STEP_WATCHDOG (Table 16.2): what the step waits for. [log 31: DEDUCED] -/
def State.watchdogItems (s : State) (p : Nat) : List Nat :=
  let nd := s.notDone p
  let l := s.latestDrum p
  let lines := s.linesWaiting p
  [b2n (s.part p).run.belowSeen, unitDrum l.1 l.2, (s.rg .DRM_LATE_STALL l.1 l.2).toNat, nd.length] ++
    nd.map (fun q => s.watchdogWord q.1 q.2) ++ [lines.length] ++
    lines.map (fun i => 2 ^ 60 * i + 2 ^ 59 * b2n (gongFabric (s.gongCfg p i)) + 2 ^ 24 * s.f F.PAR_GONG_LINE_ARRIVED p i +
      F.PAR_GONG_LINE_EXPECTED.of (s.gongCfg p i))

/-- STEP_WATCHDOG: expiry is applied to a step that is not done. In pair mode it is a divergence of the step (R487).
[log 85: DEDUCED] -/
def execStepWatchdog (p : Nat) (s : State) : Answer :=
  let x := s.part p
  if 8 ≤ p ∨ s.stepState p ≠ stRunning ∨ F.PAR_STEP_WATCHDOG_WATCHDOG_EN.of x.watchdog = 0 ∨ s.watchdogDue p = false ∨ s.notDone p = [] then
    .next s
  else
    let s := s.log (srcHub 1) Ev.STEP_WATCHDOG (s.watchdogItems p) (some p)
    let s := (s.stopAll p).setStep p stStopping
    let s := (s.setF F.PAR_STEP_STATUS_WATCHDOG_FIRED p 0 1).setPart p (fun x => { x with run := { x.run with fired := true } })
    let m : CompareMsg := { kind := 4, part := p, step := x.run.s15, hash := mget 0 s.pair.stepHash p }
    .next (if s.compares p then ({ s with pair := { s.pair with sent := s.pair.sent ++ [m] } } : State).diverge m else s)

-- ===== The prefetch sequencer (R159 to R164) =====

/-- The sequencer of a drum of a running step has an entry to issue. -/
def State.pfRuns (s : State) (k d : Nat) : Bool :=
  let p := (s.partOfKit k).getD 0
  s.kitLive k && !s.halted && (s.partOfKit k).isSome && decide (s.stepState p ≠ stSaved) && !(s.part p).pre.boundary && decide ((s.drum k d).pf.st = .running)

/-- The entry at the sequencer's position, read from the skin. [log 27: DESIGN CHOICE] -/
def State.pfEntry (s : State) (k d : Nat) : State × Data :=
  s.readMem (unitDrum k d) (slotAddr k d (s.drum k d).pf.pos) 32

/-- The sequencer stops at its entry with a fault code (R162). [log 28: DEDUCED] -/
def State.pfFault (s : State) (k d code : Nat) : State :=
  let pos := (s.drum k d).pf.pos
  (s.setDrum k d (fun x => { x with pf := { x.pf with st := .faulted, poll := 0 } })).log (srcKit k) Ev.PREFETCH_FAULT [pos, code]
    (s.partOfKit k) (some (unitDrum k d))

/-- Move to the next entry. -/
def State.pfNext (s : State) (k d : Nat) : State := s.setDrum k d (fun x => { x with pf := { x.pf with pos := x.pf.pos + 32, poll := 0 } })

/-- Run the entry at the position when its KIND is the row's. An entry outside the skin, a poisoned one and one of a reserved KIND fail
their check, whichever row meets them. -/
def State.pfRow (s : State) (k d kind : Nat) (act : State → Nat → State) : State :=
  if s.pfRuns k d = false then s
  else if 0x600000 < (s.drum k d).pf.pos + 32 then s.pfFault k d 7
  else
    let r := s.pfEntry k d
    let kd := bits r.2.v 63 60
    if r.2.p ≠ 0 then r.1.pfFault k d 3
    else if kd = 0 ∨ 5 < kd then r.1.pfFault k d 2
    else if kd ≠ kind then s
    else act r.1 r.2.v

def entDf (v : Nat) : Nat := bits v 59 54
def entSrcSpan (v : Nat) : Nat := bits v 53 48
def entDstSpan (v : Nat) : Nat := bits v 47 42
def entSrc (v : Nat) : Nat := wordOf v 1 % 2 ^ 40
def entDst (v : Nat) : Nat := wordOf v 2 % 2 ^ 40
def entArg (v : Nat) : Nat := wordOf v 3

/-- Issue a transfer of an entry: its flag's count goes up (R159). -/
def State.pfIssue (s : State) (k d v len : Nat) (dst : List (Nat × Piece)) : State :=
  let p := (s.partOfKit k).getD 0
  let a := drumActor p k d
  let df := entDf v
  let r := s.newXfer { kind := .prefetch (drumKey k d) df, part := p, unit := unitDrum k d,
                       src := s.spanPieces a (entSrcSpan v) (entSrc v) len, dst := dst, len := len,
                       span := entDstSpan v, off := entDst v, srcSub := s.spanOwner p (entSrcSpan v) + 1, stream := ownStream }
  let s := r.1.setDrum k d (fun x => { x with flagCnt := mupd 0 x.flagCnt df (· + 1), pf := { x.pf with inFlight := x.pf.inFlight + 1 } })
  (s.launch r.2 none).pfNext k d

/-- The lowest fault code of an entry's checks. [log 28: DEDUCED] -/
def entFault (l : List (Option (Nat × Nat))) : Option Nat := (lowest l).map Prod.fst

/-- PREFETCH_COPY. -/
def execPrefetchCopy (k d : Nat) (s : State) : Answer :=
  .next (s.pfRow k d 1 (fun s v =>
    let p := (s.partOfKit k).getD 0
    let a := drumActor p k d
    let n := entArg v
    match entFault [s.accessFault a (entSrcSpan v) (entSrc v : Int) n 64 rRead, s.accessFault a (entDstSpan v) (entDst v : Int) n 64 rWrite,
        when (decide (n < 64) || decide (0x1000000 < n) || decide (n % 64 ≠ 0)) 8] with
    | some c => s.pfFault k d c
    | none =>
      if 16 ≤ (s.drum k d).pf.inFlight then s
      else s.pfIssue k d v n (s.spanPieces a (entDstSpan v) (entDst v) n)))

/-- PREFETCH_SCATTER: piece m goes to mallet m's scratch window. A DST_SPAN that is not that window faults as SPAN_INVALID (5), a bad LENGTH as
OPERAND_RANGE (8). [log 145: DESIGN CHOICE] -/
def execPrefetchScatter (k d : Nat) (s : State) : Answer :=
  .next (s.pfRow k d 5 (fun s v =>
    let p := (s.partOfKit k).getD 0
    let a := drumActor p k d
    let n := entArg v
    let l := n / 256
    let dn := entDstSpan v
    let window := decide (s.spanKind p dn = 1) && decide (s.spanBase p dn % 0x1000000 = 0x800000)
    match entFault [s.accessFault a (entSrcSpan v) (entSrc v : Int) n 64 rRead, s.accessFault a dn (entDst v : Int) l 64 rWrite,
        s.accessFault a dn (255 * 0x4000 + entDst v : Int) l 64 rWrite, when (!window) 5, when (decide (0x4000 < entDst v + l)) 7,
        when (decide (n = 0) || decide (n % 16384 ≠ 0)) 8] with
    | some c => s.pfFault k d c
    | none =>
      if 16 ≤ (s.drum k d).pf.inFlight then s
      else s.pfIssue k d v n ((List.range 256).map (fun m =>
        (m * l, ({ addr := slotAddr k d (0x800000 + 0x4000 * m + entDst v), len := l } : Piece))))))

/-- PREFETCH_CLEAR: waits until the counts of the flags it names are 0, then clears their SET bits. -/
def execPrefetchClear (k d : Nat) (s : State) : Answer :=
  .next (s.pfRow k d 2 (fun s v =>
    let m := entArg v
    if (s.drum k d).flagCnt.any (fun q => m.testBit q.1) then s
    else (s.setDrum k d (fun x => { x with flagSet := x.flagSet.filter (fun f => !m.testBit f) })).pfNext k d))

/-- PREFETCH_WAITW: waits until a word is at least ARG; a word of remote memory or flash is read by a transfer. -/
def execPrefetchWaitw (k d : Nat) (s : State) : Answer :=
  .next (s.pfRow k d 3 (fun s v =>
    let p := (s.partOfKit k).getD 0
    let a := drumActor p k d
    match entFault [s.accessFault a (entSrcSpan v) (entSrc v : Int) 8 8 rRead] with
    | some c => s.pfFault k d c
    | none =>
      let decideOn := fun (s : State) (q : Data) =>
        if q.p ≠ 0 then s.pfFault k d 3
        else if entArg v ≤ q.v then s.pfNext k d
        else s.setDrum k d (fun x => { x with pf := { x.pf with poll := 0 } })
      let ps := s.spanPieces a (entSrcSpan v) (entSrc v) 8
      if a.readsNow ps then
        let r := s.readMem (unitDrum k d) ((ps.headD (0, {})).2.addr) 8
        decideOn r.1 r.2
      else
        let s := if (s.drum k d).pf.poll ≠ 0 then s.advance ((s.drum k d).pf.poll - 1)
          else
            let r := s.newXfer { kind := .none, part := p, unit := unitDrum k d, src := ps, len := 8, span := entSrcSpan v, off := entSrc v,
                                 stream := ownStream }
            (r.1.setDrum k d (fun x => { x with pf := { x.pf with poll := r.2 + 1 } })).launch r.2 none
        let x := (s.drum k d).pf.poll - 1
        if s.finishable x then decideOn (s.endXfer x) (s.xfer x).data else s))

/-- PREFETCH_END. -/
def execPrefetchEnd (k d : Nat) (s : State) : Answer :=
  .next (s.pfRow k d 4 (fun s _ => s.setDrum k d (fun x => { x with pf := { x.pf with st := .ended } })))

/-- PREFETCH_LIST_START: a held list starts when the sequencer has reached END. -/
def execPrefetchListStart (k d : Nat) (s : State) : Answer :=
  let pf := (s.drum k d).pf
  if pf.held = 0 ∨ pf.st ≠ .ended then .next s
  else .next (s.setDrum k d (fun x => { x with pf := { x.pf with st := .running, pos := pf.held - 1, held := 0 } }))

/-- A prefetch transfer completes with data: the destination is written and its flag counted down; at 0 SET becomes 1. -/
def State.finishPrefetch (s : State) (x : Nat) (d : Data) : State :=
  match (s.xfer x).kind with
  | .prefetch dk df =>
    let s := (s.spread x d).endXfer x
    s.setDrum (dk / 256) (dk % 256) (fun q =>
      let n := mget 0 q.flagCnt df - 1
      { q with flagCnt := mput 0 q.flagCnt df n, flagSet := if n = 0 then nins q.flagSet df else q.flagSet,
               pf := { q.pf with inFlight := q.pf.inFlight - 1 } })
  | _ => s

/-- PREFETCH_TRANSFER_DONE. -/
def execPrefetchTransferDone (x : Nat) (s : State) : Answer :=
  match (s.xfer x).kind with
  | .prefetch _ _ =>
    let s := s.advance x
    .next (if s.finishable x then s.finishPrefetch x (s.xfer x).data else s)
  | _ => .next s

/-- LATE_PREFETCH: a wait in WAITD has lasted that many further idle turns (R164). -/
def execLatePrefetch (u : CtxId) (turns : Nat) (s : State) : Answer :=
  match (s.ctx u).wait with
  | .drumFlag df =>
    if nmem (s.drum u.kit u.drum).flagSet df then .next s else
    let t := (s.ctx u).lateTurns + turns
    let s := (s.setCtx u (fun c => { c with lateTurns := t })).setDrum u.kit u.drum (fun x => { x with lateTurns := x.lateTurns + turns })
    let s := s.count F.DRM_LATE_STALL_STALL_TURNS u.kit u.drum turns
    if s.f F.DRM_LATE_THRESH_THRESH u.kit u.drum < t ∧ (s.drum u.kit u.drum).lateLogged = false then
      let p := s.partOf u
      let s := s.setDrum u.kit u.drum (fun x => { x with lateLogged := true })
      .next (s.pushEv (srcKit u.kit)
        { cat := Ev.LATE_PREFETCH.1, code := Ev.LATE_PREFETCH.2, part := some p, ctx := u.ctx, unit := some (unitMallet u.kit u.drum u.mallet),
          step := (s.part p).run.s15, items := [df] })
    else .next s
  | _ => .next s

-- ===== Calibration (R174 to R177) =====

/-- Milliseconds since a drum's last completed calibration (Table 4.12). -/
def State.calibAge (s : State) (k d : Nat) : Nat := min ((s.time - (s.drum k d).calibAt) / 1000000) (2 ^ 32 - 1)

/-- The drum is in an idle gap: done with its step, and no step start pending for its partition. -/
def State.idleGap (s : State) (k d : Nat) : Bool :=
  let dr := s.drum k d
  !dr.inStep && !dr.kicked && (match s.partOfKit k with
    | some p => (s.part p).submitted.isNone || (s.logical k d).isNone
    | none => true)

/-- CALIB_START: a due calibration starts in an idle gap. -/
def execCalibStart (k d : Nat) (s : State) : Answer :=
  if s.kitLive k = false ∨ 156 ≤ d ∨ (s.drum k d).calibrating = true ∨ s.calibAge k d < 10000 ∨ s.idleGap k d = false then .next s
  else .next (s.setDrum k d (fun x => { x with calibrating := true }))

/-- The drum that trims the hub's oscillator: logical drum 0 of the lowest-numbered kit in service (R177). -/
def State.isTrimSource (s : State) (k d : Nat) : Bool :=
  match (List.range 8).find? (fun q => s.kitLive q) with
  | some q => decide (q = k) && decide (s.phys k 0 = d)
  | none => false

/-- A RATIO outside ±1 % (R177). -/
def ratioBad (ratio : Nat) : Bool := decide (ratio < 0x7EB8) || decide (0x8148 < ratio)

/-- CALIB_COMPLETE with the measured RATIO. [log 33: DESIGN CHOICE] -/
def execCalibComplete (k d ratio : Nat) (s : State) : Answer :=
  if (s.drum k d).calibrating = false then .next s
  else
    let t := s.time
    let s := s.setDrum k d (fun x => { x with calibrating := false, forcedCalib := false, calibAt := t, skewed := x.skewed || ratioBad ratio })
    let s := (s.setF F.DRM_CALIB_RATIO k d ratio).setF F.DRM_CALIB_DONE k d 1
    let s := if s.isTrimSource k d then s.setKit k (fun x => { x with trimmed := true }) else s
    if ratioBad ratio then
      .next (((s.setF F.DRM_CALIB_MISMATCH k d 1).log (srcKit k) Ev.CALIB_MISMATCH [ratio] none (some (unitDrum k d))).observe (unitDrum k d) 4)
    else .next s

/-- The drum's calibration has been due for 60 s at its step start, and its kit has forced none in the step. -/
def State.mustForce (s : State) (k d : Nat) : Bool :=
  (s.drum k d).kicked && decide (70000 ≤ s.calibAge k d) && !(s.kit k).forcedCalib

/-- TEMPO_CALIB_FORCED: the drum calibrates before it latches; D grows by 22 µs (R176). -/
def execTempoCalibForced (k d : Nat) (s : State) : Answer :=
  if s.kitLive k = false ∨ s.mustForce k d = false then .next s
  else
    let p := (s.partOfKit k).getD 0
    let s := (s.setDrum k d (fun x => { x with calibrating := true, forcedCalib := true })).setKit k (fun x => { x with forcedCalib := true })
    let s := (s.extendD p 22000).setF F.PAR_STEP_STATUS_CALIB_FORCED p 0 1
    let s := s.setPart p (fun x => { x with run := { x.run with calibForced := true } })
    .next ((s.count F.DRM_CALIB_FORCED k d 1).log (srcKit k) Ev.TEMPO_CALIB_FORCED [] (some p) (some (unitDrum k d)))

end Sys2Proof.Machine
end

