-- ==== Sys2Proof/Machine/PairOps.lean ====
section
/-!
DEFINITION. Sys2Proof/Machine/PairOps.lean: the release of compared outputs, comparisons, and what a device does when its partner is lost
(15_pair_mode_and_fault_tolerance.md, R468 to R479).
-/
namespace Sys2Proof.Machine

def State.setPair (s : State) (f : Pair → Pair) : State := { s with pair := f s.pair }

-- ===== Release (R474) =====

/-- The held item can be released now: a response record takes a tag and its partition's credit. -/
def State.canRelease (s : State) (h : Held) : Bool :=
  match h.kind, h.pkts with
  | 2, [k] => s.canIssue h.part k.addr 64
  | _, _ => true

/-- Packets of a released segment leave; at the SHADOW they end as answered, but for an ATOMIC, whose old value the LEAD forwards. -/
def State.releasePkt (s : State) (p : Pkt) : State :=
  if s.sends then s.putOut p else if p.op = opAtomic then s else s.selfAnswer p

/-- Release a held item. [log 84: DEDUCED] -/
def State.releaseItem (s : State) (h : Held) : State :=
  let s := s.setPair (fun x => { x with waiting := x.waiting.erase h })
  match h.kind with
  | 1 =>
    let k := s.parcel (h.parcel - 1)
    let s := if k.live then s.setParcel (h.parcel - 1) { k with compared := 2 } else s
    s.noteRelease h
  | 2 => match h.pkts with
    | [k] => (s.issue h.part (some (s.slSub (h.record - 1))) (.resp (h.record - 1)) none 1 k).noteRelease h
    | _ => s
  | 3 => (h.pkts.foldl State.releasePkt s).noteRelease h
  | _ => s

/-- Release a held item when it can be. -/
def State.tryRelease (s : State) (h : Held) : State := if s.canRelease h then s.releaseItem h else s

/-- A held output that leaves without a matching hash is journaled for its unit (R456, R474). -/
def State.journalHeld (s : State) (h : Held) : State :=
  if h.unit = 0 ∨ s.sends = false then s
  else if h.kind = 1 then
    let k := s.parcel (h.parcel - 1)
    match s.entry k.part k.queue k.seq with
    | some e => s.journal h.part h.unit true (parcelAddr e.desc k) k.len
    | none => s
  else h.pkts.foldl (fun s p => s.journal h.part h.unit true p.addr (if p.op = opAtomic then 8 else p.payloadBytes)) s

/-- Release a held item whose hash is not waited for. -/
def State.releaseUnmatched (s : State) (h : Held) : State := if s.canRelease h then (s.journalHeld h).releaseItem h else s

/-- Open segments of partitions that are compared no longer leave too. -/
def State.releaseOpen (s : State) : State :=
  (s.pair.segs.filter (fun q => !s.compares q.2.part)).foldl (fun s q =>
    (s.setPair (fun x => { x with segs := mdel x.segs q.1, waiting := x.waiting ++ [q.2] })).releaseUnmatched q.2) s

/-- Items of partitions that are compared no longer are released without comparison. -/
def State.releaseFree (s : State) : State :=
  (s.releaseOpen.pair.waiting.filter (fun h => !s.compares h.part)).foldl State.releaseUnmatched s.releaseOpen

/-- Send again what is to be sent again. -/
def State.pumpResend (s : State) : State :=
  s.pair.resend.foldl (fun s q =>
    if s.canIssue q.1 q.2.addr q.2.payloadBytes then
      (s.setPair (fun x => { x with resend := x.resend.erase q })).issue q.1 none (.closed 0) none 1 q.2
    else s) s

-- ===== Comparison (R470, R476) =====

/-- The device's own item that a message of the partner names. -/
def State.ownItem (s : State) (m : CompareMsg) : Option Held :=
  s.pair.waiting.find? (fun h => decide (h.kind = m.kind) && decide (h.part = m.part) && decide (h.num = m.num) &&
    decide (h.key = m.key) && decide (h.step = m.step))

/-- The hashes of a step match: the lag is noted and the step counts as clean when every partition is in step; PROMOTE_STEPS clean steps
make a SHADOW full. -/
def State.cleanStep (s : State) (h : Held) (t : Nat) : State :=
  let lag := if s.role = roleLead then t - h.time else h.time - t
  let s := s.setF F.HUB_PAIR_STATUS_LAG_US 0 0 (min 65535 (lag / 1000))
  let s := s.setPair (fun x => { x with runs := ndel x.runs h.part })
  let s := if s.f F.HUB_PAIR_STATUS_RESYNC 0 0 = 0 then s.count F.HUB_PAIR_STATUS_CLEAN_STEPS 0 0 1
    else s.setF F.HUB_PAIR_STATUS_CLEAN_STEPS 0 0 0
  if s.f F.HUB_PAIR_STATUS_CLEAN_STEPS 0 0 < max 1 (s.f F.HUB_PAIR_CFG_PROMOTE_STEPS 0 0) then s
  else if s.role = roleProbation then s.setF F.HUB_PAIR_STATUS_ROLE 0 0 roleFull
  else if s.role = roleLead then s.setPair (fun x => { x with partnerFull := true })
  else s

/-- One message of the partner meets the device's own item, if it has been formed. -/
def State.meet (s : State) (q : CompareMsg × Nat) : State :=
  let gone := fun (s : State) => s.setPair (fun x => { x with theirs := x.theirs.erase q })
  if s.compares q.1.part = false then gone s
  else
    match s.ownItem q.1 with
    | none => s
    | some h =>
      if h.hash ≠ q.1.hash then s.diverge q.1
      else if s.canRelease h = false then s
      else
        let s := (gone s).releaseItem h
        if h.kind = 4 then s.cleanStep h q.2 else s

/-- Comparisons whose two items are in hand are decided, and what is compared no longer is released. -/
def State.settlePair (s : State) : State := ((s.pair.theirs.foldl State.meet s).releaseFree).pumpResend

-- ===== Roles (R478, R479) =====

def State.setRole (s : State) (r : Nat) : State := s.setF F.HUB_PAIR_STATUS_ROLE 0 0 r

/-- Every partition's step stops. -/
def State.stopParts (s : State) : State :=
  (List.range 8).foldl (fun s p => if s.stepState p = stRunning then (s.stopAll p).setStep p stStopping else s) s

/-- Replicated requests that were kept for their order records are taken in, and performed as a LEAD performs them. -/
def State.performRest (s : State) : State :=
  s.pair.packets.foldl (fun s p => s.takeIn p none) (s.setPair (fun x => { x with packets := [], orders := [], orderAt := [] }))

/-- Items that both devices matched and that can be sent twice: stores, peals and response records (R479). [log 86: DEDUCED] -/
def State.resendMatched (s : State) : State :=
  let again := s.pair.released.flatMap (fun h => (h.pkts.filter (fun p => !p.once && decide (p.op ≠ opRed))).map (fun p => (h.part, p)))
  s.setPair (fun x => { x with resend := x.resend ++ again })

/-- The SHADOW answers to PAIR_NODE alone. [log 86: DEDUCED] -/
def State.takeOver (s : State) : State :=
  let s := (s.setRole roleAlone).setPair (fun x => { x with silent := false })
  ((s.resendMatched.releaseFree).pumpResend).performRest

/-- The device leaves the pair with every partition stopped: what it holds ends without being sent, and it does not answer to PAIR_NODE. [log 86: DEDUCED] -/
def State.standDown (s : State) : State :=
  let s := s.stopParts
  let s := (List.range 8).foldl (fun s p => s.dropSegments p) s
  let s := s.pair.waiting.foldl State.tryRelease s
  (s.setRole roleAlone).setPair (fun x => { x with silent := true, packets := [], orders := [], orderAt := [], theirs := [] })

/-- The probe of a lost partner ends (R479): a dead partner is replaced; one that answers is alive, and this device stands down. -/
def State.probeDone (s : State) (dead : Bool) : State :=
  if s.role ≠ roleFull ∨ s.fb F.HUB_PAIR_STATUS_PARTNER_UP 0 0 = true then s
  else if dead then s.takeOver
  else s.standDown.log (srcHub 8) Ev.PAIR_SPLIT

end Sys2Proof.Machine
end

