-- ==== Sys2Proof/Machine/TileInstr.lean ====
section
/-!
DEFINITION. Sys2Proof/Machine/TileInstr.lean: tile arithmetic and readout (Table 3.9, R123 to R125) and table-gather-accumulate
(R136).
-/
namespace Sys2Proof.Machine

open Sys2Proof (CtxId Fields ParityErrs)

/-- A fault condition of an accumulator that is not open (R69). -/
def State.notOpen (s : State) (u : CtxId) (n : Nat) : Option (Nat × Nat) := when (!(s.acc u n).isOpen) 0xC

/-- AOPEN. -/
def execAopen (u : CtxId) (f : Fields) (s : State) : Answer :=
  .next (s.run1 u f 0x40 (f.zeroBut false false false false true false false false true && f.d8 && decide (f.immN < 2 ^ 10))
    (fun _ => []) (fun s => s.setAcc u f.D (Acc.opened (BitVec.ofNat 10 f.immN))))

/-- The group of formats that pair (R60). -/
def pairGroup (f : Nat) : Nat :=
  match f with
  | 0 => 0 | 1 => 1 | 2 => 2 | 3 => 2 | 4 => 4 | 5 => 4 | 6 => 6 | 7 => 7 | _ => 9 + f

/-- The encoding of TMAC (R60, R64, R107). -/
def tmacLegal (f : Fields) : Bool :=
  f.zeroBut true true true true true true true (f.modBit 3) false && f.d8 && decide (f.modN % 8 = 0) && decide (f.fmtN < 8) &&
  decide (f.auxN < 8) && decide (pairGroup f.fmtN = pairGroup f.auxN) &&
  (!f.modBit 3 || (decide (f.fmtN ≠ 7) && decide (f.B ≤ 30)))

/-- The tiles that TMAC reads. -/
def tmacTiles (f : Fields) : List Nat := [f.A, f.B] ++ (if f.modBit 3 then [f.B + 1, f.C] else [])

/-- Tile n as delivered, with the marks of its parity errors (R434). [log 16: DEDUCED] -/
def parityTile (e : ParityErrs) (n : Nat) (t : Tile) : Tile :=
  { t with pLo := t.pLo || decide (3 * n ∈ e.regs), pHi := t.pHi || decide (3 * n + 1 ∈ e.regs),
           pSc := t.pSc || decide (3 * n + 2 ∈ e.regs) }

/-- Accumulator a as delivered. [log 16: DEDUCED] -/
def parityAcc (e : ParityErrs) (a : Nat) (x : Acc) : Acc :=
  (List.range 16).foldl (fun x n =>
    if 96 + 16 * a + n ∈ e.regs then x.setEl n { x.el n with poison := true } else x) x

/-- The parity errors of the registers that TMAC reads are counted and logged (R434, R460). -/
def State.regParity (s : State) (u : CtxId) (f : Fields) (e : ParityErrs) : State :=
  (e.regs.filter (fun c => (decide (c < 96) && decide (c / 3 ∈ tmacTiles f)) || decide ((c - 96) / 16 = f.D ∧ 96 ≤ c))).foldl
    (fun s c => (s.count F.INT_PARITY_COUNT u.kit 0 1).log (srcKit u.kit) Ev.REG_PARITY [c] none
      (some (unitMallet u.kit u.drum u.mallet))) s

/-- The operands of a TMAC as delivered. -/
def State.tmacIn (s : State) (u : CtxId) (f : Fields) (e : ParityErrs) : TmacIn :=
  { a := parityTile e f.A (s.tile u f.A), b0 := parityTile e f.B (s.tile u f.B),
    b1 := if f.modBit 3 then parityTile e (f.B + 1) (s.tile u (f.B + 1)) else {},
    md := if f.modBit 3 then parityTile e f.C (s.tile u f.C) else {},
    fa := f.fmtN, fb := f.auxN, sparse := f.modBit 3 }

/-- A code that encodes +0 or −0. -/
def isZeroNum (n : Num) : Bool := match n with | .fin _ 0 _ => true | _ => false

/-- Subtile g of the B operand is a zero subtile (R66). -/
def TmacIn.zeroSubtile (q : TmacIn) (g : Nat) : Bool :=
  let K := tileK q.fa
  (List.range 4).all (fun i =>
    let k := 4 * g + i
    (List.range 4).all (fun j =>
      let t := if k < K then q.b0 else q.b1
      let n := if k < K then j * K + k else j * K + (k - K)
      isZeroNum (t.elem q.fb n) && !t.pField (fmtW q.fb * n) (fmtW q.fb) &&
        (decide (q.fb = 7) || decide (scaleByte q.b0.scale (2 * j + k / 32) ≠ 255))) &&
    (List.range 4).all (fun r =>
      if q.sparse then
        match q.stored r k with
        | none => true
        | some st => !q.a.pField (fmtW q.fa * (r * K + st)) (fmtW q.fa)
      else !q.a.pField (fmtW q.fa * (r * K + k)) (fmtW q.fa)))

/-- Handshakes omitted (R67). -/
def TmacIn.omitted (q : TmacIn) : Nat :=
  let wide := if q.fa = 0 ∨ q.fa = 1 then 2 else 1
  let n := wide * (if q.sparse then 2 else 1)
  let groups := q.K / 4 / n
  ((List.range groups).filter (fun h => (List.range n).all (fun i => q.zeroSubtile (h * n + i)))).length * (if q.fa = 7 then 4 else 1)

/-- The cost of a TMAC in array handshakes. -/
def TmacIn.cost (q : TmacIn) : Nat := if q.fa = 7 then 8 else 4

/-- TMAC's turns and omitted handshakes are counted (R181). -/
def State.countTmac (s : State) (u : CtxId) (q : TmacIn) : State :=
  let turns := max 1 (q.cost - q.omitted)
  let s := s.count F.DRM_TMAC_SKIPPED_HS u.kit u.drum q.omitted
  if q.sparse then s.count F.DRM_TMAC_SPARSE_TURNS u.kit u.drum turns
  else s.count F.DRM_TMAC_DENSE_TURNS u.kit u.drum turns

/-- TMAC; e names the parity errors its register reads meet. -/
def execTmac (u : CtxId) (f : Fields) (e : ParityErrs) (s : State) : Answer :=
  .next (s.run u f 0x41 (tmacLegal f)
    (fun s => [s.notOpen u f.D,
      if (tmacTiles f).any (fun n => s.tilePending u n) then none else
        match (s.tmacIn u f e).badNibble with
        | some (i, g) => some (14, i * 256 + g)
        | none => none])
    (fun s => s.onTiles u (tmacTiles f) (fun s =>
      let q := s.tmacIn u f e
      let a := (parityAcc e f.D (s.acc u f.D)).tmac q (s.maskE u f)
      (((s.regParity u f e).countTmac u q).setAcc u f.D a).done u)))

/-- ACOMB. -/
def execAcomb (u : CtxId) (f : Fields) (s : State) : Answer :=
  .next (s.run1 u f 0x42 (f.zeroBut false false true false true true false false false && f.d8 && f.a8)
    (fun s => [s.notOpen u f.D, s.notOpen u f.A, when (decide ((s.acc u f.D).anchor ≠ (s.acc u f.A).anchor)) 0xD])
    (fun s => s.setAcc u f.D ((s.acc u f.D).comb (s.acc u f.A) (s.maskE u f))))

/-- AREANC. -/
def execAreanc (u : CtxId) (f : Fields) (s : State) : Answer :=
  .next (s.run1 u f 0x43 (f.zeroBut false false false false true false false false true && f.d8 && decide (f.immN < 2 ^ 10))
    (fun s => [s.notOpen u f.D])
    (fun s => s.setAcc u f.D ((s.acc u f.D).reanchor (BitVec.ofNat 10 f.immN))))

/-- AADD: FP32 addends (R75). -/
def execAadd (u : CtxId) (f : Fields) (s : State) : Answer :=
  .next (s.run u f 0x44 (f.zeroBut true false true false true true false false false && f.d8 && decide (f.fmtN = 8))
    (fun s => [s.notOpen u f.D])
    (fun s => s.onTiles u [f.A] (fun s =>
      let t := s.tile u f.A
      let a := s.acc u f.D
      let a := a.mapEnabled (s.maskE u f) (fun n e =>
        { (e.addNum a.A (t.elem 8 n)) with poison := e.poison || t.pField (32 * n) 32 })
      (s.setAcc u f.D a).done u)))

/-- Tile data with w-bit values written at element positions base + n for n enabled. -/
def packElems (data w base count : Nat) (en : Nat → Bool) (v : Nat → Nat) : Nat :=
  (List.range count).foldl (fun d n => if en n then setBits d (w * (base + n)) w (v n) else d) data

/-- The mark of half h after a readout or vector write of w-bit values (R95, R99, Table 2.12): that of the values written into it; it keeps its
mark when nothing is written into it, or beside what was written when a mask holds back an element of it (R78). [log 22: DEDUCED] -/
def halfMark (old : Bool) (w base count h : Nat) (en pois : Nat → Bool) : Bool :=
  let inHalf := (List.range count).filter (fun n =>
    decide (w * (base + n) / 256 = h) || decide ((w * (base + n) + w - 1) / 256 = h))
  let on := inHalf.filter en
  on.any pois || (old && (on.isEmpty || decide (on.length < inHalf.length)))

/-- Write w-bit values into a tile's data and set the marks of its halves; a half that nothing is written into keeps its mark. -/
def Tile.pack (t : Tile) (w base count : Nat) (en : Nat → Bool) (v : Nat → Nat) (pois : Nat → Bool) : Tile :=
  { t with data := BitVec.ofNat 512 (packElems t.data.toNat w base count en v),
           pLo := halfMark t.pLo w base count 0 en pois, pHi := halfMark t.pHi w base count 1 en pois }

/-- ACVT (R84 to R86, R124). -/
def execAcvt (u : CtxId) (f : Fields) (s : State) : Answer :=
  .next (s.run u f 0x50 (f.zeroBut true false true false true true false false true && f.a8 && decide (f.fmtN ≤ 8) &&
      decide (f.immN < 64) && decide (16 * fmtW f.fmtN * (f.immN + 1) ≤ 512))
    (fun s => [s.notOpen u f.A])
    (fun s => s.onTiles u [f.D] (fun s =>
      let a := s.acc u f.A
      let e := s.maskE u f
      let r := fun n => (a.el n).convert a.A f.fmtN
      let on := (List.range 16).filter (fun n => e.testBit n)
      let t := (s.tile u f.D).pack (fmtW f.fmtN) (16 * f.immN) 16 (fun n => e.testBit n) (fun n => (r n).1) (fun n => (a.el n).poison)
      let s := s.setFlags u (on.any (fun n => (r n).2.accOvf)) (on.any (fun n => (r n).2.accInv)) (on.any (fun n => (r n).2.cnv)) false
      (s.setTile u f.D t).done u)))

/-- Element n of the 32 that ACVTMX converts. -/
def mxElem (a b : Acc) (n : Nat) : AccElem := if n < 16 then a.el n else b.el (n - 16)

/-- ACVTMX (R87, R125). -/
def execAcvtmx (u : CtxId) (f : Fields) (s : State) : Answer :=
  .next (s.run u f 0x51 (f.zeroBut true false false false true true true false true && f.a8 && f.b8 && decide (f.fmtN ≤ 6) &&
      decide (f.immN % 256 < 64) && decide (f.immN < 2 ^ 11) && decide (32 * fmtW f.fmtN * (f.immN % 64 + 1) ≤ 512))
    (fun s => [s.notOpen u f.A, s.notOpen u f.B, when (decide ((s.acc u f.A).anchor ≠ (s.acc u f.B).anchor)) 0xD])
    (fun s => s.onTiles u [f.D] (fun s =>
      let a := s.acc u f.A
      let b := s.acc u f.B
      let els := (List.range 32).map (mxElem a b)
      let sc := mxScale (mxMax els) a.A f.fmtN
      let r := fun n => (mxElem a b n).convertMx a.A f.fmtN sc
      let bad := els.any (fun e => e.poison)
      let t := (s.tile u f.D).pack (fmtW f.fmtN) (32 * (f.immN % 64)) 32 (fun _ => true) (fun n => (r n).1) (fun _ => bad)
      let code := match sc with | none => 0 | some x => (x + 127).toNat
      let k := f.immN / 256 % 8
      let t := { t with scale := BitVec.ofNat 64 (setBits t.scale.toNat (8 * k) 8 code), pSc := bad }
      let on := List.range 32
      let s := s.setFlags u (on.any (fun n => (r n).2.accOvf)) (on.any (fun n => (r n).2.accInv)) (on.any (fun n => (r n).2.cnv)) false
      (s.setTile u f.D t).done u)))

-- ===== TGA (R136) =====

/-- Entry width of a TGA format. -/
def tgaW (f : Nat) : Nat := if f = 8 then 4 else if f = 7 then 2 else 1

/-- Code byte 4v + m of a tile. -/
def tgaCode (t : Tile) (v m : Nat) : Nat := t.field (8 * (4 * v + m)) 8

/-- Span offset of the entry that element v looks up in step m, relative to the table base. -/
def tgaOff (f : Fields) (t : Tile) (v m : Nat) : Nat := ((f.immN + m) * 256 + tgaCode t v m) * tgaW f.fmtN

/-- One lookup is added to an element. -/
def tgaAdd (fmt : Nat) (A : Int) (e : AccElem) (w : Nat) (poison : Bool) : AccElem :=
  { (e.addNum A (decodeElem fmt w)) with poison := e.poison || poison }

/-- The lookups of the enabled elements: element, step and offset. -/
def tgaLookups (f : Fields) (t : Tile) (e : Nat) : List (Nat × Nat) :=
  ((List.range 64).filter (fun i => e.testBit (i / 4))).map (fun i => (i, tgaOff f t (i / 4) (i % 4)))

/-- Lookup data reaches A[rd]: lookup i's bytes stand at 32i of the data. -/
def State.finishTga (s : State) (u : CtxId) (f : Fields) (ft : FirstTurn) (d : Data) : State :=
  let t := ft.tile
  let w := tgaW f.fmtN
  let a := (tgaLookups f t ft.mask).foldl (fun (x : Acc) q =>
    let v := q.1 / 4
    let raw := d.v / 256 ^ (32 * q.1 + (s.xOff u f.A + q.2) % 8) % 256 ^ w
    x.setEl v (tgaAdd f.fmtN ft.acc.A (x.el v) raw (d.p.testBit q.1 || t.pHalf (v / 8)))) ft.acc
  (s.setAcc u f.D ((s.acc u f.D).mapEnabled ft.mask (fun n _ => a.el n))).done u

/-- The aligned words that hold each lookup's entry, one or two, at 32i of the access. -/
def State.tgaPieces (s : State) (u : CtxId) (f : Fields) : List (Nat × Piece) :=
  (tgaLookups f (s.tile u f.B) (s.maskE u f)).flatMap (fun q =>
    let o := s.xOff u f.A + q.2
    (List.range ((o % 8 + tgaW f.fmtN + 7) / 8)).flatMap (fun j =>
      (s.spanPieces (s.actor u) (s.xSpan u f.A) (o / 8 * 8 + 8 * j) 8).map (fun r => (32 * q.1 + 8 * j + r.1, r.2))))

/-- TGA. -/
def execTga (u : CtxId) (f : Fields) (s : State) : Answer :=
  .next (s.run u f 0xB0 (f.zeroBut true false true false true true true false true && f.d8 && f.a16 && decide (f.immN ≤ 60) &&
      decide (6 ≤ f.fmtN) && decide (f.fmtN ≤ 8))
    (fun s =>
      let w := tgaW f.fmtN
      let sp := s.xSpan u f.A
      let o : Int := (s.xOff u f.A : Int) + 256 * f.immN * w
      [when (s.X u f.A).p 3, s.notOpen u f.D,
       match s.spanCheck (s.actor u) sp o (1024 * w) rRead with
       | none => none
       | some 7 => some (7, spanItem sp (max o (s.spanLen (s.partOf u) sp)))
       | some c => some (c, spanItem sp o)])
    (fun s => s.onTiles u [f.B] (fun s =>
      let t := s.firstTurn u f f.B f.D
      s.load u (Fields.word f 0xB0) (s.xSpan u f.A) (s.tgaPieces u f) 2048 (fun s d => s.finishTga u f t d) t)))

end Sys2Proof.Machine
end

