-- ==== Sys2Proof/Machine/FabAnswer.lean ====
section
/-!
DEFINITION. Sys2Proof/Machine/FabAnswer.lean: links and frames, answers, dead targets, egress learning, and what the answers complete
(11_fefen_fabric.md, R348 to R352, R365 to R370, R378; 03_zmi_instruction_set.md, R117 to R121).
-/
namespace Sys2Proof.Machine

open Sys2Proof (CtxId Fields ControlFrame)

-- ===== The egress table (R369, R370) =====

/-- A link is UP. -/
def State.linkUp (s : State) (i : Nat) : Bool := decide (i < 18) && s.fb F.FAB_PORT_STATUS_UP i 0

def State.egress (s : State) (n : Nat) : Egress := mget {} s.fab.egress n
def State.setEgress (s : State) (n : Nat) (f : Egress → Egress) : State := s.setFab (fun b => { b with egress := mupd {} b.egress n f })

/-- Nodes whose egress entry is in force. -/
def State.egressNodes (s : State) : List Nat :=
  s.regs.filterMap (fun q => match regAt q.1 with
    | some (.FAB_EGRESS, n, _) => if s.fb F.FAB_EGRESS_VALID n 0 then some n else none
    | _ => none)

/-- Send the FENCEs of port changes of node n that have not left: each takes a tag when one is free (R366), and leaves on its old port while that
is UP; a device that sends no output ends it as answered. -/
def State.pumpFences (s : State) (n : Nat) : State :=
  (s.egress n).fences.foldl (fun s f =>
    if f.2 then s
    else match s.freeTag n with
      | none => s
      | some t =>
        let p : Pkt := { op := opFence, tag := t, src := s.node, addr := 2 ^ 48 * n, port := f.1 }
        let s := s.setTag n t { st := .out, op := opFence, addr := p.addr, issuer := .fenceFor n f.1, time := s.time, left := 1, port := f.1, part := noPart }
        let s := s.setEgress n (fun e => { e with fences := e.fences.erase f ++ [(f.1, true)] })
        if s.sends = false then s.selfAnswer p else if s.linkUp f.1 then s.putOut p else s) s

/-- PORT of node n becomes q: a FENCE leaves on the old port, and requests to blocks with requests outstanding there wait for it. -/
def State.changePort (s : State) (n q : Nat) : State :=
  let old := s.f F.FAB_EGRESS_PORT n 0
  if q = old then s
  else (((s.setF F.FAB_EGRESS_PORT n 0 q).count F.FAB_ROUTE_CHANGE_COUNT 0 0 1).setEgress n (fun e => { e with fences := e.fences ++ [(old, false)] })).pumpFences n

/-- The entry enters HOLD with a hold-off of 2 µs. -/
def State.holdEgress (s : State) (n : Nat) : State :=
  (s.setF F.FAB_EGRESS_STATE n 0 egHold).setEgress n (fun e =>
    { e with holdEnd := 2000 + s.time, downPending := false, writePending := false, heldAlt := none })

/-- Candidates after a link-down, in their order. -/
def State.candidates (s : State) (n : Nat) : List Nat :=
  (if s.fb F.FAB_EGRESS_LEARNED_ALT_VALID n 0 then [s.f F.FAB_EGRESS_LEARNED_ALT n 0] else []) ++
  (if s.fb F.FAB_EGRESS_ALT_VALID n 0 then [s.f F.FAB_EGRESS_ALT_PORT n 0] else []) ++ [s.f F.FAB_EGRESS_SEED_PORT n 0]

/-- PORT has failed: the first candidate that is UP and is not the failed port, or NOROUTE. -/
def State.routeDown (s : State) (n : Nat) : State :=
  let p := s.f F.FAB_EGRESS_PORT n 0
  match (s.candidates n).find? (fun q => s.linkUp q && decide (q ≠ p)) with
  | some q => (s.changePort n q).holdEgress n
  | none => (s.setF F.FAB_EGRESS_STATE n 0 egNoroute).setEgress n (fun e => { e with downPending := false, writePending := false, holdEnd := 0 })

/-- A fabric-manager write acts on the entry (Table 11.11). -/
def State.routeWrite (s : State) (n : Nat) : State :=
  let s := s.changePort n (s.f F.FAB_EGRESS_SEED_PORT n 0)
  let s := (s.setF F.FAB_EGRESS_LEARNED_ALT n 0 0).setF F.FAB_EGRESS_LEARNED_ALT_VALID n 0 0
  if s.fb F.FAB_EGRESS_ADAPTIVE n 0 then
    (s.setF F.FAB_EGRESS_STATE n 0 egUnlearned).setEgress n (fun e => { e with holdEnd := 0, downPending := false, writePending := false })
  else s.holdEgress n

/-- A fabric-manager write reaches the entry of node n, at once or at the hold-off's end. -/
def State.egressWritten (s : State) (n : Nat) : State :=
  if s.f F.FAB_EGRESS_STATE n 0 = egHold then s.setEgress n (fun e => { e with writePending := true }) else s.routeWrite n

/-- An answer from node n arrives on port p (R370). -/
def State.learn (s : State) (n p : Nat) : State :=
  if !s.linkUp p || !s.fb F.FAB_EGRESS_VALID n 0 || !s.fb F.FAB_EGRESS_ADAPTIVE n 0 then s
  else if s.f F.FAB_EGRESS_STATE n 0 = egUnlearned then (s.changePort n p).holdEgress n
  else if s.f F.FAB_EGRESS_STATE n 0 = egHold ∧ p ≠ s.f F.FAB_EGRESS_PORT n 0 then
    let q := min ((s.egress n).heldAlt.getD p) p
    ((s.setEgress n (fun e => { e with heldAlt := some q })).setF F.FAB_EGRESS_LEARNED_ALT n 0 q).setF F.FAB_EGRESS_LEARNED_ALT_VALID n 0 1
  else s

/-- EGRESS_HOLDOFF_END: pending changes are applied, or the entry becomes FIXED. -/
def execEgressHoldoffEnd (n : Nat) (s : State) : Answer :=
  let e := s.egress n
  if s.f F.FAB_EGRESS_STATE n 0 ≠ egHold ∨ s.time < e.holdEnd then .next s
  else if e.writePending then .next ((s.setEgress n (fun e => { e with writePending := false })).routeWrite n)
  else if e.downPending then .next (s.routeDown n)
  else
    let p := s.f F.FAB_EGRESS_PORT n 0
    let a := s.f F.FAB_EGRESS_LEARNED_ALT n 0
    let s := if s.fb F.FAB_EGRESS_LEARNED_ALT_VALID n 0 && decide (a < p) then (s.changePort n a).setF F.FAB_EGRESS_LEARNED_ALT n 0 p else s
    let s := if e.heldAlt.isSome then s.log (srcHub 0) Ev.ROUTE_DUAL [n, s.f F.FAB_EGRESS_PORT n 0, s.f F.FAB_EGRESS_LEARNED_ALT n 0] else s
    .next ((s.setF F.FAB_EGRESS_STATE n 0 egFixed).setEgress n (fun e => { e with holdEnd := 0 }))

-- ===== Links (R348 to R352, R378) =====

def State.link (s : State) (i : Nat) : Link := mget {} s.fab.links i
def State.setLink (s : State) (i : Nat) (f : Link → Link) : State := s.setFab (fun b => { b with links := mupd {} b.links i f })

/-- LINKS of HUB_PAIR_STATUS follows the cymbal links; with one of them down in pair mode, CYMBAL_DEGRADED is logged (R481). -/
def State.pairLinks (s : State) : State :=
  let s := s.setF F.HUB_PAIR_STATUS_LINKS 0 0 (b2n (s.linkUp 17) * 2 + b2n (s.linkUp 16))
  s

/-- Causes of a link-down (Table 11.2). -/
def downSignal : Nat := 1
def downRetry : Nat := 2
def downSequence : Nat := 3
def downConfig : Nat := 4
def downLane : Nat := 5

/-- Link i goes down for a cause: entries whose PORT it is move or wait, and parcels that it was carrying are lost on both sides (R309, R321); a request or a
parcel that had left whole waits for its answer (R378). -/
def State.takeDown (s : State) (i cause : Nat) : State :=
  if s.linkUp i = false then s
  else
    let s := ((s.setF F.FAB_PORT_STATUS_UP i 0 0).setF F.FAB_PORT_STATUS_LAST_DOWN i 0 cause).count F.FAB_LINK_DOWN_COUNT_COUNT i 0 1
    let s := s.setFab (fun b => { b with links := mput {} b.links i {} })
    let s := s.pairLinks
    let s := if decide (16 ≤ i) && s.fb F.HUB_PAIR_CFG_ENABLE 0 0 && (s.linkUp 16 || s.linkUp 17) then
        s.log (srcLink i) Ev.CYMBAL_DEGRADED [i] none (some (unitLink i)) else s
    let s := s.egressNodes.foldl (fun s n =>
      if s.f F.FAB_EGRESS_PORT n 0 ≠ i then s
      else if s.f F.FAB_EGRESS_STATE n 0 = egHold then s.setEgress n (fun e => { e with downPending := true })
      else if s.f F.FAB_EGRESS_STATE n 0 = egNoroute then s
      else s.routeDown n) s
    let s := s.setFab (fun b => { b with tags := b.tags.map (fun q => (q.1, if q.2.st = .out ∧ q.2.port = i then { q.2 with cut := true } else q.2)) })
    let s := (s.fab.parcels.filter (fun q => q.2.isOpen && !q.2.closed && decide (q.2.port = i))).foldl (fun s q => s.incomplete q.2.src q.2.tag) s
    s.trn.parcels.foldl (fun s q =>
      let k := q.2
      if k.begun && decide (k.started < k.wire) && k.outcome.isNone && decide ((s.tag k.node k.tag).st = .out) &&
          decide ((s.tag k.node k.tag).issuer = .parcel q.1) && decide ((s.tag k.node k.tag).port = i) then
        (s.setParcel q.1 { k with outcome := some trnIncomplete, outcomeAt := s.time, started := k.wire, drawn := k.len, stage := .flight }).setTrn
          (fun t => { t with held := t.held.filter (fun h => decide (h.2 ≠ q.1 + 1)) })
      else s) s

/-- LINK_DOWN: loss of signal or a lost lane. -/
def execLinkDown (link cause : Nat) (s : State) : Answer :=
  if cause = downSignal ∨ cause = downLane then .next (s.takeDown link cause) else .next s

/-- A link comes up at a width: entries without a route take the port when it is a candidate. -/
def State.linkTrained (s : State) (link width : Nat) : State :=
  let s := ((s.setF F.FAB_PORT_STATUS_UP link 0 1).setF F.FAB_PORT_STATUS_WIDTH link 0 width).count F.FAB_PORT_STATUS_RETRAINS link 0 1
  let s := (s.setFab (fun b => { b with links := mput {} b.links link {} })).pairLinks
  s.egressNodes.foldl (fun s n =>
    if s.f F.FAB_EGRESS_STATE n 0 = egNoroute ∧ link ∈ s.candidates n then (s.changePort n link).holdEgress n else s) s

/-- The link is down, enabled, and can train at a width that MAX_WIDTH allows (R348). -/
def State.canTrain (s : State) (link width : Nat) : Bool :=
  decide (link < 18) && decide (width ≤ 2) && !s.linkUp link && s.fb F.FAB_PORT_CFG_ENABLE link 0 && decide (s.f F.FAB_PORT_CFG_MAX_WIDTH link 0 ≤ width)

/-- LINK_TRAINED at a width that MAX_WIDTH allows. -/
def execLinkTrained (link width : Nat) (s : State) : Answer :=
  .next (if s.canTrain link width then s.linkTrained link width else s)

/-- FRAME_RECEIVE of frame f on a link (R351): accepted, discarded, its resend asked for, or a sequence error. -/
def execFrameReceive (link f corrected : Nat) (bad : Bool) (s : State) : Answer :=
  let l := s.link link
  let e := l.expected
  let behind := (e + 2 ^ 24 - f % 2 ^ 24) % 2 ^ 24
  let ahead := (f % 2 ^ 24 + 2 ^ 24 - e) % 2 ^ 24
  if s.linkUp link = false then .next s
  else
  let s := s.count F.FAB_FEC_CORRECTED_COUNT link 0 corrected
  if bad then .next (if l.badFrom.isSome then s else (s.setLink link (fun l => { l with badFrom := some e })).sendCtl link (some e))
  else if f % 2 ^ 24 = e then .next (s.setLink link (fun l => { l with expected := (e + 1) % 2 ^ 24, badFrom := none }))
  else if 1 ≤ behind ∧ behind ≤ 2048 then .next s
  else if l.badFrom.isSome ∧ ahead ≤ 2048 then .next s
  else .next (s.takeDown link downSequence)

/-- The count of frames sent before the frame that 24 bits name. -/
def Link.before (l : Link) (n : Nat) : Nat := l.frames - (l.frames + 2 ^ 24 - n % 2 ^ 24) % 2 ^ 24

/-- Resends of frame f asked for and not yet followed by its acceptance. -/
def Link.resent (l : Link) (f : Nat) : Nat := (l.resends.filter (fun q => decide (q.1 ≤ f) && decide (f < q.2))).length

/-- The other end has accepted the frames up to the one named: they need no resend. -/
def Link.accept (l : Link) (n : Nat) : Link :=
  let a := l.before (n + 1)
  { l with resends := (l.resends.map (fun q => (max a q.1, q.2))).filter (fun q => decide (q.1 < q.2)) }

/-- FRAME_CONTROL (R350, R351): frames are acknowledged, credits return, and a retry request resends from its frame on. A frame resent 8
times without acceptance takes the link down. -/
def execFrameControl (link : Nat) (c : ControlFrame) (s : State) : Answer :=
  if s.linkUp link = false then .next s
  else
    let s := s.count F.FAB_FEC_CORRECTED_COUNT link 0 c.corrected
    let s := s.setLink link (fun l => { (l.accept c.accepted) with useReq := l.useReq - c.req, useRsp := l.useRsp - c.rsp, useCtl := l.useCtl - c.ctl })
    match c.retry with
    | none => .next s
    | some n =>
      let l := s.link link
      let b := l.before n
      if (b :: l.resends.map Prod.fst).any (fun f => decide (b ≤ f) && decide (8 ≤ l.resent f)) then .next (s.takeDown link downRetry)
      else .next ((s.setLink link (fun l => { l with resends := l.resends ++ [(b, l.frames)] })).count F.FAB_FRAME_RESENT_COUNT link 0 (min 2048 (l.frames - b)))

-- ===== Answers (R366 to R368) =====

/-- How a request ended: its status and data, or without an answer. -/
structure Ending where
  status : Nat := 0
  d : Data := {}
  reason : Nat := 0
  block : Nat := 0
  dead : Bool := false
deriving DecidableEq, Repr

def Ending.ok (e : Ending) : Bool := decide (e.status = 0) && !e.dead

/-- A LOAD or ATOMIC ends: its data lands, or all-ones poisoned data does (R118, R368). -/
def State.landEnding (s : State) (x o n : Nat) (e : Ending) : State :=
  if (s.xfer x).live = false then s
  else
    (s.landed x o n (if e.ok then e.d else lostData n)).onward x

/-- One posted request fewer of a context. -/
def State.unpost (s : State) (u : Nat) : State := s.setCtx (ctxOfKey u) (fun c => { c with posted := c.posted - 1 })

/-- An onward request sent for a waiting one has ended: what it brought is kept until the waiting one answers with it. Of TAINT notices only a
failure is kept. [log 63: DEDUCED] -/
def State.proxyDone (s : State) (g : Tag) (src key : Nat) (e : Ending) (size : Nat) : State :=
  let r : Reply := if e.dead then { status := ansAbandoned } else { status := e.status, size := size, v := e.d.v, p := e.d.p, reason := e.reason, block := e.block }
  s.setInb src key (fun x => { x with outs := x.outs - 1, reply := if g.op = opTaint ∧ (e.ok = true ∨ x.reply.isSome) then x.reply else some r })

/-- A transfer lost in flight (R121): the destination takes all-ones poisoned data, the flag counts down, and XFER_LOST names the unit, the
partition, the destination and the cause. A destination that no span names, tiles or the KV store, has an open place in the record. [log 61: DEDUCED] -/
def State.loseXfer (s : State) (x cause : Nat) : State :=
  let t := s.xfer x
  let d := lostData t.len
  let log := fun (s : State) (w : Nat) => s.log (srcHub 0) Ev.XFER_LOST [w, cause] (some t.part) (some t.unit)
  match t.kind with
  | .copy _ _ | .kvrd _ _ => (log s (t.span * 2 ^ 40 + t.off)).finishAsync x d
  | .prefetch _ _ => (log s (t.span * 2 ^ 40 + t.off)).finishPrefetch x d
  | .aldt _ _ _ _ => (log s.fresh (Config.freeValue s.freeCtr % 2 ^ 46)).finishAsync x d
  | .kvapp k flag slot sel pos =>
    (((log s.fresh (Config.freeValue s.freeCtr % 2 ^ 46)).kvAppend (ctxOfKey k) slot sel pos d).flagDown (ctxOfKey k) flag).endXfer x
  | _ => log s (t.span * 2 ^ 40 + t.off)

/-- A transfer that R121 covers: asynchronous, or of a prefetch list. -/
def Xfer.isAsync (t : Xfer) : Bool :=
  match t.kind with
  | .aldt _ _ _ _ | .copy _ _ | .kvrd _ _ | .prefetch _ _ | .kvapp _ _ _ _ _ => t.live
  | _ => false

/-- A request of transfer x whose link went down has been declared dead: the transfer is lost (R121, R378). [log 61: DEDUCED] -/
def State.cutOff (s : State) (x : Nat) (g : Tag) (e : Ending) : Bool := e.dead && g.cut && (s.xfer x).isAsync

/-- The outcome of a parcel (R368). -/
def parcelOutcome (e : Ending) : Nat :=
  if e.dead then trnTargetDead else if e.status = 0 then 0 else if e.status = ansRxFull then 256
  else if e.status = ansDamage then trnCodecDamage else trnRemoteRefused

/-- What a request's end does for its issuer; last tells that no further answer is due. n bytes were asked for. [log 61: DEDUCED] -/
def State.endRequest (s : State) (g : Tag) (e : Ending) (last : Bool) (size n : Nat) : State :=
  match g.issuer with
  | .xfer x o => if s.cutOff x g e then s.loseXfer x 2 else s.landEnding x o n e
  | .xferStore x =>
    if s.cutOff x g e then s.loseXfer x 2
    else (s.setXfer x { (s.xfer x) with waiting := (s.xfer x).waiting - 1 }).unitOutDone x
  | .posted u => if last then s.unpost u else s
  | .routerRec k d row num =>
    if e.ok then s
    else s.poisonRow k { num := num, word := row, drum := d, u := ctxKey ⟨k, d, 0, 0⟩ }
      (if !e.dead && decide (e.status = ansSaved) then Ev.ROUTER_TARGET_REFUSED else Ev.ROUTER_RECORD_LOST)
  | .fenceFor n port => s.setEgress n (fun x => { x with fences := x.fences.erase (port, true) })
  | .fenceCtx _ => s
  | .ringDone _ => s
  | .gong p l => if last then ({ s with fab := { s.fab with gongOut := mput false s.fab.gongOut (lineKey p l) false } }).pumpArrive p l else s
  | .taint => s
  | .parcel x =>
    let k := s.parcel x
    if k.live = false ∨ k.outcome.isSome = true then s
    else
      let s := s.setParcel x { k with outcome := some (parcelOutcome e), outcomeAt := s.time }
      if e.status = ansDamage ∧ e.reason = dmgCrc ∧ k.unit ≠ 0 then s.observe (unitCodec (k.unit - 1)) 5 else s
  | .resp slot => s.respDone slot e.ok
  | .handoff _ _ => s
  | .closed _ => s
  | .notice slot => s.noticeDone slot e.ok
  | .cmpl num => s.cmplDone num (e.ok && decide (e.d.p = 0))
  | .proxy src key => s.proxyDone g src key e size
  | .probe => s.probeDone e.dead

/-- The record of a non-OK answer, by operation (R368). -/
def State.logRefused (s : State) (g : Tag) (n status : Nat) : State :=
  let exp := g.addr / 2 ^ 40 % 256
  match g.issuer with
  | .gong _ _ => s.log (srcHub 0) Ev.FAB_GONG_REFUSED [n, status] (partOpt g.part)
  | .taint => s.log (srcHub 8) Ev.TAINT_REFUSED [n, status] (partOpt g.part)
  | .parcel _ => s
  | .fenceFor _ _ => s
  | .fenceCtx _ => s
  | .proxy _ _ => s
  | .probe => s
  | _ =>
    if g.op = opLoad ∨ g.op = opAtomic then s.logLimited (limRemote n exp) 1000000 (srcHub 0) Ev.FAB_REMOTE_REFUSED [n, exp, status] (partOpt g.part)
    else s.log (srcHub 0) Ev.FAB_POSTED_REFUSED [n, g.addr, status] (partOpt g.part)

/-- The target whose tag an answer from node n names: its own, else that of a group, whose members answer under their own node IDs. [log 64: DEDUCED] -/
def State.answerTag (s : State) (n t : Nat) : Option Nat :=
  let own := s.tag n t
  let group := fun (st : TagState) =>
    (s.fab.tags.find? (fun q => decide (q.1 % 2048 = t) && decide (q.2.st = st) && q.2.ofGroup)).map (fun q => q.1 / 2048)
  if own.st ≠ .free ∧ own.ofGroup = false then some n else (group .out).or (group .quarantined)

/-- Bytes that a LOAD or ATOMIC asks for. -/
def Tag.asks (g : Tag) : Nat := if g.op = opLoad then sizeBytes g.size else if g.op = opAtomic then 8 else 0

/-- Subscriber that an answer's payload is charged to. -/
def State.answerSub (s : State) (g : Tag) : Option Nat :=
  match g.issuer with
  | .xfer x _ => if (s.xfer x).live then some (s.loadSub (s.xfer x)) else none
  | .proxy src key => (s.inbOf src key).map (fun q => s.chargeOf q.pkt)
  | _ => none

/-- The LEAD forwards an ATOMIC's old value to the SHADOW (R474). -/
def State.forwardOld (s : State) (g : Tag) (p : Pkt) : State :=
  if decide (s.role = roleLead) && decide (g.op = opAtomic) && s.compares g.part then
    s.putOut { p with dst := s.f F.HUB_PAIR_CFG_PARTNER_NODE 0 0, port := if s.linkUp 17 then 17 else 16 }
  else s

/-- A packet of the RSP channel has come on its link: its credit is to be returned (R350). -/
def State.creditRsp (s : State) (p : Pkt) : State := if p.port < 18 then s.setLink p.port (fun l => { l with retRsp := l.retRsp + 1 }) else s

/-- An answer arrives: it frees its tag with the last answer due, and ends its request; one for a quarantined tag is discarded, counted, and frees the
tag (R366 to R368). [log 64: DEDUCED] -/
def State.rspIn (s : State) (p : Pkt) : State :=
  let s := s.creditRsp p
  if p.dst ≠ s.node then s
  else
    let s := if p.port = portLoop then s else s.learn p.src p.port
    match s.answerTag p.src p.tag with
    | none => s
    | some n =>
      let g := s.tag n p.tag
      if g.st = .quarantined then (s.setTag n p.tag {}).count F.FAB_LATE_ANSWER_COUNT 0 0 1
      else
        let left := g.left - 1
        let s := s.setTag n p.tag (if left = 0 then {} else { g with left := left })
        let s := s.chargeIn (s.answerSub g) p.port (sizeBytes p.size)
        let s := s.forwardOld g p
        let s := if p.status = 0 then s else (s.count F.FAB_REFUSED_OUT_COUNT 0 0 1).logRefused g p.src p.status
        let e : Ending := { status := p.status, d := { v := p.payload, p := p.poison }, reason := p.reason, block := p.block }
        s.endRequest g e (decide (left = 0)) p.size g.asks

/-- PENDING arrives: the bound of its request starts again (R367). -/
def State.pendingIn (s : State) (p : Pkt) : State :=
  let s := s.creditRsp p
  if p.dst ≠ s.node then s
  else match s.answerTag p.src p.tag with
    | none => s
    | some n => if (s.tag n p.tag).st = .out then s.setTag n p.tag { (s.tag n p.tag) with time := s.time } else s

/-- FAB_RSP. -/
def execFabRsp (p : Pkt) (s : State) : Answer := .next (if p.op = opRsp then s.rspIn p else s)

/-- FAB_PENDING. -/
def execFabPending (p : Pkt) (s : State) : Answer := .next (if p.op = opPending then s.pendingIn p else s)

/-- FAB_TARGET_DEAD: B has passed without an answer (R367, R373). -/
def execFabTargetDead (node tag : Nat) (s : State) : Answer :=
  let g := s.tag node tag
  if g.st ≠ .out ∨ s.time < g.time + s.deadBound then .next s
  else .next ((s.killTag node tag).endRequest g { dead := true } true 0 g.asks)

/-- Issuers of requests that had no route learn of their end (R369). [log 14: DESIGN CHOICE] -/
def State.settleDead (s : State) : State :=
  s.fab.dead.foldl (fun s q => s.endRequest q.2 { dead := true } true 0 q.2.asks) (s.setFab (fun b => { b with dead := [] }))

/-- FAB_TAG_RELEASE: 1.5 ms after the declaration. -/
def execFabTagRelease (node tag : Nat) (s : State) : Answer :=
  let g := s.tag node tag
  if g.st ≠ .quarantined ∨ s.time < 1500000 + g.time then .next s else .next (s.setTag node tag {})

-- ===== What arriving data completes (R117 to R119) =====

/-- The waiting instruction of an opcode completes with its data; t is what it read in its first turn. -/
def State.finishLoad (s : State) (u : CtxId) (word : Nat) (t : FirstTurn) (d : Data) : State :=
  let f := Sys2Proof.fieldsOf word
  let op := word / 2 ^ 56
  if op = 0x20 then s.finishTld u f d
  else if op = 0x22 then s.finishScld u f d
  else if op = 0x24 then s.finishSld u f d
  else if op = 0x26 then s.finishAld u f t d
  else if op = 0xA1 then s.finishTopk u f t d
  else if op = 0xB0 then s.finishTga u f t d
  else if op = 0xC2 then s.finishAtom u f d
  else if op = 0xC4 then s.finishTrig u f d
  else s.done u

/-- LOAD_DATA_RETURN: a waiting load's data is in hand, and its instruction completes. -/
def execLoadDataReturn (u : CtxId) (s : State) : Answer :=
  match (s.ctx u).wait with
  | .load x =>
    let s := s.advance x
    match (s.xfer x).kind with
    | .load _ word =>
      if s.finishable x = false then .next s
      else
        let t := s.xfer x
        let d : Data := { v := t.data.v / 256 ^ (if word / 2 ^ 56 = 0xC2 then 0 else t.off), p := t.data.p }
        .next (((s.endXfer x).setCtx u (fun c => { c with wait := .none })).finishLoad u word t.first d)
    | _ => .next s
  | _ => .next s

/-- ASYNC_COMPLETE: an asynchronous transfer has completed at its destination's scope (R119). -/
def execAsyncComplete (x : Nat) (s : State) : Answer :=
  let s := s.advance x
  if s.finishable x = false then .next s
  else match (s.xfer x).kind with
    | .aldt _ _ _ _ | .copy _ _ | .kvrd _ _ => .next (s.finishAsync x (s.xfer x).data)
    | .kvapp k flag slot sel pos =>
      let s := s.askAppend x (ctxOfKey k).kit slot sel pos
      if s.xferOwes x then .next s
      else
      let d := (s.xfer x).data
      .next (((s.kvAppend (ctxOfKey k) slot sel pos d).flagDown (ctxOfKey k) flag).endXfer x)
    | _ => .next s

end Sys2Proof.Machine
end

