-- ==== Sys2Proof/Machine/LiveSet.lean ====
section
/-!
DEFINITION. Sys2Proof/Machine/LiveSet.lean: the live list, the ceilings and regions that it declares, and the image of a kit
(13_partitions_and_preemption.md, R416 to R420).
-/
namespace Sys2Proof.Machine

-- ===== The live list (R417, R418) =====

/-- A live list entry (Table 13.7). -/
structure LiveEntry where
  w0 : Nat := 0
  w1 : Nat := 0
deriving DecidableEq, Repr

def LiveEntry.kind (e : LiveEntry) : Nat := bits e.w0 63 60
def LiveEntry.stepOnly (e : LiveEntry) : Bool := bit e.w0 59
def LiveEntry.kits (e : LiveEntry) : Nat := bits e.w0 58 51
def LiveEntry.first (e : LiveEntry) : Nat := bits e.w0 50 43
def LiveEntry.last (e : LiveEntry) : Nat := bits e.w0 42 35
def LiveEntry.off (e : LiveEntry) : Nat := bits e.w1 63 32
def LiveEntry.len (e : LiveEntry) : Nat := bits e.w1 31 0
def LiveEntry.tiles (e : LiveEntry) : Nat := bits e.w1 63 56
def LiveEntry.accs (e : LiveEntry) : Nat := bits e.w1 55 48
def LiveEntry.ctxs (e : LiveEntry) : Nat := bits e.w1 47 40

/-- The entry applies to logical drum n of kit k. -/
def LiveEntry.on (e : LiveEntry) (k n : Nat) : Bool := bit e.kits k && decide (e.first ≤ n) && decide (n ≤ e.last)

/-- The form of an entry is right for a partition's KIT_MASK. [log 73: DESIGN CHOICE] -/
def LiveEntry.formOk (e : LiveEntry) (mask : Nat) : Bool :=
  decide (e.w0 % 2 ^ 35 = 0) && decide (e.kits ||| mask = mask) && decide (e.first ≤ e.last) && decide (e.last ≤ 149) &&
    (match e.kind with
     | 1 => decide (e.off % 64 = 0) && decide (e.len % 64 = 0) && decide (e.off + e.len ≤ 0x600000)
     | 2 => decide (e.off % 64 = 0) && decide (e.len % 64 = 0) && decide (e.off + e.len ≤ 0x4000)
     | 3 => decide (bits e.w1 39 0 = 0) && decide (e.tiles ≤ 32) && decide (e.accs ≤ 8) &&
        (e.ctxs = 1 || e.ctxs = 2 || e.ctxs = 4 || e.ctxs = 8)
     | _ => false)

/-- Two entries of one kind overlap on one drum, and STEP_ONLY does not tell them apart. -/
def LiveEntry.clash (a b : LiveEntry) : Bool :=
  decide (a.kind = b.kind) && (a.stepOnly == b.stepOnly) && decide (a.kits &&& b.kits ≠ 0) && decide (a.first ≤ b.last) &&
    decide (b.first ≤ a.last) && (decide (a.kind = 3) || (decide (a.off < b.off + b.len) && decide (b.off < a.off + a.len)))

/-- No two entries of a list clash. -/
def noClash : List LiveEntry → Bool
  | [] => true
  | e :: r => r.all (fun x => !e.clash x) && noClash r

/-- CTX_LIVE covers the rotation of every drum that the entry names. -/
def State.rotationOk (s : State) (e : LiveEntry) : Bool :=
  decide (e.kind ≠ 3) || (List.range 8).all (fun k => (List.range 150).all (fun n =>
    !e.on k n || decide (rotCount (s.drum k (s.phys k n)).rot ≤ e.ctxs)))

/-- First byte of a partition's pool range (Table 8.4). -/
def State.poolStart (s : State) (p : Nat) : Nat := poolBase + 65536 * s.f F.MEM_HUB_RANGE_FIRST p 0

/-- Cut a list of bytes into entries. -/
def liveEntries : Nat → Nat → List LiveEntry
  | 0, _ => []
  | n + 1, v => { w0 := v % 2 ^ 64, w1 := v / 2 ^ 64 % 2 ^ 64 } :: liveEntries n (v / 2 ^ 128)

/-- Evaluate the live list: none when it fails (R418); without a list every region is reloadable and every ceiling full. [log 73: DESIGN CHOICE] -/
def State.liveList (s : State) (p : Nat) : State × Option (List LiveEntry) :=
  if s.fb F.PAR_LIVESET_VALID p 0 = false then (s, some [])
  else
    let n := s.f F.PAR_LIVESET_COUNT p 0
    let r := s.hubRead 1 (s.poolStart p + 64 * s.f F.PAR_LIVESET_BASE p 0) (16 * n)
    let l := liveEntries n r.2.v
    let ok := decide (r.2.p = 0) && l.all (fun e => e.formOk (s.f F.PAR_CONFIG_KIT_MASK p 0) && s.rotationOk e) && noClash l
    (r.1, if ok then some l else none)

/-- The entries that apply to a save: those with STEP_ONLY only in the middle of a step (R423). -/
def applying (mid : Bool) (l : List LiveEntry) : List LiveEntry := l.filter (fun e => mid || !e.stepOnly)

/-- Ceilings of logical drum n of kit k: tile registers, accumulators, contexts. [log 75: DEDUCED] -/
def ceilings (l : List LiveEntry) (k n : Nat) : Nat × Nat × Nat :=
  match l.filter (fun e => decide (e.kind = 3) && e.on k n) with
  | [] => (32, 8, 8)
  | es => es.foldl (fun c e => (max c.1 e.tiles, max c.2.1 e.accs, max c.2.2 e.ctxs)) (0, 0, 0)

/-- The parts of a list of intervals (start, length) that lie outside another. [log 75: DEDUCED] -/
def minus (l : List (Nat × Nat)) (b : Nat × Nat) : List (Nat × Nat) :=
  l.flatMap (fun q =>
    ([(q.1, min (q.1 + q.2) b.1 - q.1), (max q.1 (b.1 + b.2), q.1 + q.2 - max q.1 (b.1 + b.2))]).filter (fun x => decide (x.2 ≠ 0)))

/-- The regions of kit k in the order of the image, as logical drum, slot offset and length: a byte that an earlier entry covers is not
repeated (Table 13.9). -/
def liveRegions (l : List LiveEntry) (k : Nat) : List (Nat × Nat × Nat) :=
  (List.range l.length).flatMap (fun i =>
    let e := l.getD i {}
    if e.kind = 3 then [] else
      ((List.range 150).filter (fun n => e.on k n)).flatMap (fun n =>
        let before := (l.take i).filter (fun x => decide (x.kind = e.kind) && x.on k n)
        let ps := before.foldl (fun q x => minus q (x.off, x.len)) [(e.off, e.len)]
        if e.kind = 1 then ps.map (fun q => (n, q.1, q.2))
        else (List.range 256).flatMap (fun m => ps.map (fun q => (n, 0x800000 + 0x4000 * m + q.1, q.2)))))

/-- Bytes of a mallet's image within ceilings (Table 13.9). -/
def malletBytes (c : Nat × Nat × Nat) : Nat := 64 + 72 * c.1 + 320 * c.2.1 + 384 * c.2.2

/-- Bytes of the list copy. -/
def listBytes (n : Nat) : Nat := (16 * n + 63) / 64 * 64

/-- Bytes of the kit record. -/
def State.kitRecBytes (s : State) (k : Nat) : Nat := 69632 + 32 * ((s.kit k).pages.filter (fun q => q.2.live)).length

/-- IMAGE_BYTES of kit k for a list and a kind of save (R420). -/
def State.imageBytes (s : State) (k : Nat) (l : List LiveEntry) (mid : Bool) : Nat :=
  let a := applying mid l
  256 + listBytes l.length + s.kitRecBytes k + 512 * 150 +
    (List.range 150).foldl (fun t n => t + 256 * malletBytes (ceilings a k n)) 0 + (liveRegions a k).foldl (fun t q => t + q.2.2) 0

/-- The SKIN entries that apply cover the whole staging pool of a kit with pages allocated (R418). -/
def State.stagingCovered (s : State) (k : Nat) (a : List LiveEntry) : Bool :=
  (s.kit k).pages.all (fun q => !q.2.live) ||
    (span (s.f F.KIT_KV_STAGE_FIRST_DRUM k 0) (s.f F.KIT_KV_STAGE_DRUMS k 0)).all (fun n =>
      ((a.filter (fun e => decide (e.kind = 1) && e.on k n)).foldl (fun q e => minus q (e.off, e.len))
        [(s.f F.KIT_KV_STAGE_BASE k 0 * 256, s.f F.KIT_KV_STAGE_PAGES k 0 * s.pageBytes k)]) = [])

-- ===== Moving a drum's state =====

/-- The record of drum a on drum b: what the step has made of it (R416), without what belongs to the silicon; instruction buffers start empty. -/
def Drum.carry (a b : Drum) : Drum :=
  { b with cfg := a.cfg, inStep := a.inStep, idleStep := a.idleStep, kicked := a.kicked, flagSet := a.flagSet, flagCnt := a.flagCnt,
           pf := a.pf, lateLogged := a.lateLogged, lateTurns := a.lateTurns, belowInStep := a.belowInStep, inboxCfg := a.inboxCfg,
           inboxEn := a.inboxEn, inboxHead := a.inboxHead, inbox := a.inbox, ibuf := [] }

/-- A mallet's registers within ceilings; the others are at reset. -/
def Mallet.within (m : Mallet) (c : Nat × Nat × Nat) : Mallet :=
  { t := m.t.filter (fun q => decide (q.1 < c.1)), a := m.a.filter (fun q => decide (q.1 < c.2.1)),
    c := m.c.filter (fun q => decide (q.1 < c.2.2)) }

/-- Every register of drum d of kit k is at reset (Table 3.1). -/
def State.resetRegs (s : State) (k d : Nat) : State :=
  { s with mallets := s.mallets.filter (fun q => decide (q.1 / 256 ≠ drumKey k d)) }

/-- A drum's skin and scratch hold zeros. -/
def State.zeroDrum (s : State) (k d : Nat) : State := (s.zeroRange (slotAddr k d 0) 0x600000).zeroRange (slotAddr k d 0x800000) 0x400000

-- ===== The image (Table 13.9) =====

/-- Address of the save area of kit k (Table 13.8). -/
def State.saveBase (s : State) (p k : Nat) : Nat :=
  s.spanAddr (deviceActor p (unitHub 1)) (s.f F.PAR_SAVE_SPAN p k) (65536 * s.f F.PAR_SAVE_OFFSET p k)

/-- Bytes of one mallet's image: tile registers with their scale words, accumulator images, and per context S, X and M registers. The
header of marks and the last 64 B of each context have no stated layout: fr gives their bytes. -/
def malletImage (m : Mallet) (c : Nat × Nat × Nat) (fr : Nat → Nat) : Nat :=
  let t := (List.range c.1).foldl (fun v i =>
    let x := mget {} m.t i
    v + (x.data.toNat + 2 ^ 512 * x.scale.toNat) * 2 ^ (576 * i)) 0
  let a := (List.range c.2.1).foldl (fun v i => v + (mget {} m.a i).image * 2 ^ (2560 * i)) 0
  let x := (List.range c.2.2).foldl (fun v i =>
    let y := mget {} m.c i
    let sr := (List.range 16).foldl (fun w j => w + (y.S j).v.toNat * 2 ^ (64 * j)) 0
    let xr := (List.range 16).foldl (fun w j => w + ((y.X j).span.toNat * 2 ^ 40 + (y.X j).off.toNat) * 2 ^ (64 * j)) 0
    let mr := (List.range 8).foldl (fun w j => w + (y.M j).toNat * 2 ^ (64 * j)) 0
    v + (sr + xr * 2 ^ 1024 + mr * 2 ^ 2048 + fr (1 + i) % 2 ^ 512 * 2 ^ 2560) * 2 ^ (3072 * i)) 0
  fr 0 % 2 ^ 512 + 2 ^ 512 * t + a * 2 ^ (512 + 576 * c.1) + x * 2 ^ (512 + 576 * c.1 + 2560 * c.2.1)

/-- The bytes of a mallet's image that go to it poisoned: the halves of its tile registers, and of its accumulator images what R83 marks. -/
def malletBad (m : Mallet) (c : Nat × Nat × Nat) : List Nat :=
  (List.range c.1).flatMap (fun i =>
    let x := mget {} m.t i
    (if x.pLo then [64 + 72 * i] else []) ++ (if x.pHi then [96 + 72 * i] else [])) ++
  (List.range c.2.1).flatMap (fun i =>
    ((List.range 8).filter (fun g => ((mget {} m.a i).el (2 * g)).poison || ((mget {} m.a i).el (2 * g + 1)).poison)).map
      (fun g => 64 + 72 * c.1 + 320 * i + 32 * g))

/-- The granules of an image at address a that hold a poisoned part of 32 B (R83, R420). [log 74: DESIGN CHOICE] -/
def badGranules (a : Nat) (l : List Nat) : Nat :=
  l.foldl (fun p o => p ||| ones (granules (a + o) 32) * 2 ^ ((a + o) / 32 - a / 32)) 0

/-- The opaque numbers of an image: header, kit record, drum records, then nine for each mallet. -/
def KitImage.num (g : KitImage) (i : Nat) : Nat := Config.freeValue (g.free + i)
def KitImage.malletNum (g : KitImage) (n m : Nat) (i : Nat) : Nat := g.num (3 + 9 * (256 * n + m) + i)

/-- The list of an image as entries. [log 74: DESIGN CHOICE] -/
def KitImage.entries (g : KitImage) : List LiveEntry := g.list.map (fun q => ({ w0 := q.1, w1 := q.2 } : LiveEntry))
def KitImage.applied (g : KitImage) : List LiveEntry := applying g.mid g.entries
/-- The list copy as a number. -/
def KitImage.listCopy (g : KitImage) : Nat := g.list.foldr (fun q v => q.1 + 2 ^ 64 * q.2 + 2 ^ 128 * v) 0
/-- Bytes of the image's kit record. -/
def KitImage.kitRec (g : KitImage) : Nat := 69632 + 32 * (g.kit.pages.filter (fun q => q.2.live)).length

/-- The parts of the image ahead of the register images: offset, length and bytes. -/
def KitImage.head (g : KitImage) : List (Nat × Nat × Nat) :=
  let lb := listBytes g.list.length
  [(0, 256, g.num 0), (256, lb, g.listCopy), (256 + lb, g.kitRec, g.num 1), (256 + lb + g.kitRec, 76800, g.num 2)]
def KitImage.headBytes (g : KitImage) : Nat := 256 + listBytes g.list.length + 76800 + g.kitRec

/-- The image of kit k of partition p as it stands now. -/
def State.imageOf (s : State) (p k : Nat) (l : List LiveEntry) (mid : Bool) : KitImage :=
  let ns := List.range 150
  { live := true, bytes := s.imageBytes k l mid, list := l.map (fun e => (e.w0, e.w1)), mid := mid, step := (s.rg .PAR_STEP_SEQ p 0).toNat,
    free := s.freeCtr, kit := s.kit k, stage := s.rg .KIT_KV_STAGE k 0, layer := s.f F.KIT_ROUTER_CONFIG_LAYER k 0,
    drums := ns.foldl (fun q n => mput {} q n (s.drum k (s.phys k n))) [],
    inbox := ns.foldl (fun q n => mput 0 q n (s.rg .DRM_INBOX k (s.phys k n))) [],
    late := ns.foldl (fun q n => mput 0 q n (s.rg .DRM_LATE_STALL k (s.phys k n))) [],
    mallets := ns.foldl (fun q n => (List.range 256).foldl (fun q m =>
      mput {} q (256 * n + m) ((s.mallet k (s.phys k n) m).within (ceilings (applying mid l) k n))) q) [] }

/-- Stream the image to its save area as device work (R424). [log 74: DESIGN CHOICE] -/
def State.writeImage (s : State) (p k : Nat) (g : KitImage) : State :=
  let a := s.saveBase p k
  let s := { s with freeCtr := s.freeCtr + 3 + 9 * 256 * 150 }
  let s := g.head.foldl (fun s q => s.writeAll (unitHub 1) (a + q.1) q.2.1 { v := q.2.2 % 2 ^ (8 * q.2.1) }) s
  let r := (List.range 150).foldl (fun (q : State × Nat) n =>
    let c := ceilings g.applied k n
    (List.range 256).foldl (fun (q : State × Nat) m =>
      let x := mget {} g.mallets (256 * n + m)
      (q.1.writeAll (unitHub 1) q.2 (malletBytes c) { v := malletImage x c (g.malletNum n m), p := badGranules q.2 (malletBad x c) },
       q.2 + malletBytes c)) q) (s, a + g.headBytes)
  ((liveRegions g.applied k).foldl (fun (q : State × Nat) x =>
    let d := q.1.readMem (unitHub 1) (slotAddr k (s.phys k x.1) x.2.1) x.2.2
    (d.1.writeAll (unitHub 1) q.2 x.2.2 d.2, q.2 + x.2.2)) r).1

/-- The head of the image still stands in the save area, unpoisoned (R428). -/
def State.imageOk (s : State) (p k : Nat) (g : KitImage) : State × Bool :=
  let a := s.saveBase p k
  g.head.foldl (fun (q : State × Bool) x =>
    let d := q.1.readMem (unitHub 1) (a + x.1) x.2.1
    (d.1, q.2 && decide (d.2.p = 0) && decide (d.2.v = x.2.2 % 2 ^ (8 * x.2.1))))
    (s, g.live && decide (g.step = (s.rg .PAR_STEP_SEQ p 0).toNat))

/-- Bytes [o, o + n) of data at address a lie in a poisoned granule. -/
def Data.hit (d : Data) (a o n : Nat) : Bool := decide (d.p / 2 ^ ((a + o) / 32 - a / 32) % 2 ^ granules (a + o) n ≠ 0)

/-- A mallet from the bytes of its image at address a, with the saved marks and what has no stated layout from the saved registers
(R426). -/
def malletOf (old : Mallet) (c : Nat × Nat × Nat) (a : Nat) (d : Data) : Mallet :=
  let b := fun (o n : Nat) => d.v / 256 ^ o % 256 ^ n
  let t := (List.range c.1).foldl (fun q i =>
    let o := 64 + 72 * i
    let x := mget {} old.t i
    mput {} q i { x with data := BitVec.ofNat 512 (b o 64), scale := BitVec.ofNat 64 (b (o + 64) 8), pLo := x.pLo || d.hit a o 32,
                         pHi := x.pHi || d.hit a (o + 32) 32, pSc := x.pSc || d.hit a (o + 64) 8 }) []
  let ac := (List.range c.2.1).foldl (fun q i =>
    let o := 64 + 72 * c.1 + 320 * i
    mput {} q i (accOfImage (b o 320) (fun g => d.hit a (o + 32 * g) 32))) []
  let cx := (List.range c.2.2).foldl (fun q i =>
    let o := 64 + 72 * c.1 + 320 * c.2.1 + 384 * i
    let y := mget {} old.c i
    let y := (List.range 16).foldl (fun (y : Ctx) j =>
      let w := b (o + 128 + 8 * j) 8
      (y.setS j { v := BitVec.ofNat 64 (b (o + 8 * j) 8), p := (y.S j).p || d.hit a (o + 8 * j) 8 }).setX j
        { span := BitVec.ofNat 6 (w / 2 ^ 40), off := BitVec.ofNat 40 w, p := (y.X j).p || d.hit a (o + 128 + 8 * j) 8 }) y
    mput {} q i ((List.range 8).foldl (fun (y : Ctx) j => y.setM j (BitVec.ofNat 64 (b (o + 256 + 8 * j) 8))) y)) []
  { t := t, a := ac, c := cx }

/-- Load kit k of partition p from its image; a drum rebound since the save takes its state on the spare (R426). [log 74: DESIGN CHOICE] -/
def State.loadImage (s : State) (p k : Nat) (g : KitImage) : State :=
  let a := s.saveBase p k
  let s := (List.range 150).foldl (fun s n =>
    let d := s.phys k n
    let s := (s.setDrum k d (fun x => (mget {} g.drums n).carry x)).resetRegs k d
    ((s.setRg .DRM_INBOX k d (mget 0 g.inbox n)).setRg .DRM_LATE_STALL k d (mget 0 g.late n)).zeroDrum k d) s
  let s := (s.setRg .KIT_KV_STAGE k 0 g.stage).setF F.KIT_ROUTER_CONFIG_LAYER k 0 g.layer
  let s := s.setKit k (fun x => { x with routerCfg := g.kit.routerCfg, expertCount := g.kit.expertCount, streamLogged := g.kit.streamLogged,
                                         pages := g.kit.pages })
  let r := (List.range 150).foldl (fun (q : State × Nat) n =>
    let c := ceilings g.applied k n
    (List.range 256).foldl (fun (q : State × Nat) m =>
      let d := q.1.readMem (unitHub 1) q.2 (malletBytes c)
      (d.1.setMallet k (s.phys k n) m (fun _ => malletOf (mget {} g.mallets (256 * n + m)) c q.2 d.2), q.2 + malletBytes c)) q)
    (s, a + g.headBytes)
  ((liveRegions g.applied k).foldl (fun (q : State × Nat) x =>
    let d := q.1.readMem (unitHub 1) q.2 x.2.2
    (d.1.writeAll (unitHub 1) (slotAddr k (s.phys k x.1) x.2.1) x.2.2 d.2, q.2 + x.2.2)) r).1

end Sys2Proof.Machine
end

