-- ==== Sys2Proof/Machine/Rings.lean ====
section
/-!
DEFINITION. Sys2Proof/Machine/Rings.lean: the request rings of the prefix walkers and the beam managers (R226, R394, R545), and what
device units share: reading through a partition's spans, writing a result and adding 1 at DONE. Ring r is walker r below 4, and index
r - 4 from there on.
-/
namespace Sys2Proof.Machine

open Sys2Proof (Word)

-- ===== Ring registers (Table 18.9) =====

def ringCfgReg (r : Nat) : RegName := if r < 4 then .SRV_PW_RING else .SRC_RING
def ringBellReg (r : Nat) : RegName := if r < 4 then .SRV_PW_DOORBELL else .SRC_DOORBELL
def ringIdx (r : Nat) : Nat := if r < 4 then r else r - 4

/-- The ring register of ring r. -/
def State.ringCfg (s : State) (r : Nat) : BitVec 64 := s.rg (ringCfgReg r) (ringIdx r) 0
/-- The doorbell register of ring r. -/
def State.ringBell (s : State) (r : Nat) : BitVec 64 := s.rg (ringBellReg r) (ringIdx r) 0
def State.ringHead (s : State) (r : Nat) : Nat := F.SRV_PW_DOORBELL_HEAD.of (s.ringBell r)
def State.ringTail (s : State) (r : Nat) : Nat := F.SRV_PW_DOORBELL_TAIL.of (s.ringBell r)
def State.setRingHead (s : State) (r n : Nat) : State :=
  s.setRg (ringBellReg r) (ringIdx r) 0 (F.SRV_PW_DOORBELL_HEAD.put (s.ringBell r) n)
def ringOn (w : BitVec 64) : Bool := decide (F.SRV_PW_RING_ENABLE.of w = 1)
def ringSlots (w : BitVec 64) : Nat := 2 ^ F.SRV_PW_RING_LOG2.of w

/-- The unit that serves ring r: the walkers or the beam managers. -/
def ringUnit (r : Nat) : Nat := if r < 4 then 2 else 3

/-- The ring lies wholly in hub SRAM and has a legal LOG2. [log 43: DEDUCED] -/
def ringValid (w : BitVec 64) : Bool :=
  let b := F.SRV_PW_RING_BASE.of w
  let l := F.SRV_PW_RING_LOG2.of w
  decide (hubBase ≤ b) && decide (b + 64 * 2 ^ l ≤ hubEnd) && decide (4 ≤ l) && decide (l ≤ 12)

/-- Entries waiting in ring r. -/
def State.ringWaiting (s : State) (r : Nat) : Nat := (s.ringTail r + 2 ^ 32 - s.ringHead r) % 2 ^ 32

/-- The ring whose ring register or doorbell lies at an offset. -/
def ringAt (off : Nat) : Option (Bool × Nat) :=
  match regAt off with
  | some (.SRV_PW_RING, i, _) => some (false, i)
  | some (.SRC_RING, i, _) => some (false, i + 4)
  | some (.SRV_PW_DOORBELL, i, _) => some (true, i)
  | some (.SRC_DOORBELL, i, _) => some (true, i + 4)
  | _ => none

/-- RING_CONFIG_WRITE: a write of a ring register (R545). [log 108: DEDUCED] -/
def execRingConfigWrite (i off : Nat) (w : Word) (s : State) : Answer :=
  match ringAt off with
  | some (false, r) =>
    if s.canWrite i = false then .next s
    else
      let s := s.forward i (ringCfgReg r) (ringIdx r) 0 w
      let old := s.ringCfg r
      let new := writeFields (ringCfgReg r).fields old w
      if new = old then .next s
      else if ringOn old && decide (s.ringHead r ≠ s.ringTail r) then .next (s.log (srcHub (ringUnit r)) Ev.RING_BUSY [(ringCfgReg r).off (ringIdx r) 0])
      else
        let bad := ringOn new && !ringValid new
        let new := if bad then F.SRV_PW_RING_ENABLE.put new 0 else new
        let s := s.setRg (ringCfgReg r) (ringIdx r) 0 new
        let s := if bad then s.log (srcHub (ringUnit r)) Ev.RING_INVALID [(ringCfgReg r).off (ringIdx r) 0] else s
        .next (if ringOn new && !ringOn old then s.setRingHead r (s.ringTail r) else s)
  | _ => .next s

/-- RING_DOORBELL: a TAIL write hands entries to the unit, or is dropped as overrun (R545). [log 44: DEDUCED] -/
def execRingDoorbell (i off : Nat) (w : Word) (s : State) : Answer :=
  match ringAt off with
  | some (true, r) =>
    if s.canWrite i = false then .next s
    else
      let s := s.forward i (ringBellReg r) (ringIdx r) 0 w
      let tail := F.SRV_PW_DOORBELL_TAIL.of w
      let n := (tail + 2 ^ 32 - s.ringHead r) % 2 ^ 32
      if ringSlots (s.ringCfg r) < n ∨ n < s.ringWaiting r then .next (s.log (srcHub (ringUnit r)) Ev.RING_OVERRUN [(ringCfgReg r).off (ringIdx r) 0])
      else .next (s.setRg (ringBellReg r) (ringIdx r) 0 (F.SRV_PW_DOORBELL_TAIL.put (s.ringBell r) tail))
  | _ => .next s

-- ===== Entries =====

/-- Address of entry n of ring r. [log 43: DEDUCED] -/
def State.ringEntry (s : State) (r n : Nat) : Nat :=
  let w := s.ringCfg r
  F.SRV_PW_RING_BASE.of w / 64 * 64 + 64 * (n % ringSlots w)

/-- HEAD advances past the entry. -/
def State.ringTake (s : State) (r : Nat) : State := s.setRingHead r ((s.ringHead r + 1) % 2 ^ 32)

-- ===== Requests in progress =====

/-- The request in progress of ring r. -/
def State.ringJob (s : State) (r : Nat) : RingJob := mget {} s.jobs r
def State.setJob (s : State) (r : Nat) (j : RingJob) : State := { s with jobs := mput {} s.jobs r j }

/-- The result or the DONE of ring r's last request is still being stored. -/
def State.ringPending (s : State) (r : Nat) : Bool :=
  s.xfers.any (fun q => match q.2.kind with | .unitOut _ _ n => decide (n = r) | _ => false) ||
    s.serve.owed.any (fun o => decide (o.kind = 2) && decide (o.slot = r)) ||
    s.fab.tags.any (fun q => decide (q.2.st = .out) && decide (q.2.issuer = .ringDone r))

/-- Ring r has a request in progress: one whose DONE has been added is not. -/
def State.ringBusy (s : State) (r : Nat) : Bool := (s.ringJob r).live && (!(s.ringJob r).out || s.ringPending r)

/-- The request of ring r begins: it has passed its checks. -/
def State.beginJob (s : State) (r : Nat) : State := s.setJob r { s.ringJob r with begun := true }

/-- The request of ring r uses snapshot g; own tells that it has registered it. -/
def State.useSnap (s : State) (r g : Nat) (own : Bool) : State := s.setJob r { s.ringJob r with snap := g + 1, own := own }

/-- The request of ring r has done its work. -/
def State.jobOut (s : State) (r : Nat) : State := s.setJob r { s.ringJob r with out := true }

/-- The request of ring r has completed: its snapshot goes unless it is held. -/
def State.endJob (s : State) (r : Nat) (hold : Bool) (drop : State → Nat → State) : State :=
  let j := s.ringJob r
  if j.out = false ∨ s.ringBusy r = true then s
  else
    let s := s.setJob r {}
    if j.own && !hold then drop s (j.snap - 1) else s

/-- The request that ring r's unit works on: the one in progress, else the entry at HEAD, which passes with the reading; none while a result or
DONE is still being stored, or when the ring is empty or disabled; a poisoned entry is skipped and logged. -/
def State.ringFront (s : State) (r : Nat) : State × Option Nat :=
  if (s.ringJob r).live then (s, if (s.ringJob r).out then none else some (s.ringJob r).req)
  else if ringOn (s.ringCfg r) = false ∨ s.ringWaiting r = 0 then (s, none)
  else
    let q := s.hubRead (ringUnit r) (s.ringEntry r (s.ringHead r)) 64
    if q.2.p ≠ 0 then ((q.1.log (srcHub (ringUnit r)) Ev.RING_POISON [(ringCfgReg r).off (ringIdx r) 0, s.ringHead r]).ringTake r, none)
    else ((q.1.ringTake r).setJob r { live := true, req := q.2.v }, some q.2.v)

end Sys2Proof.Machine
end

