-- ==== Sys2Proof/Machine/Search.lean ====
section
/-!
DEFINITION. Sys2Proof/Machine/Search.lean: deterministic vector search (12_vector_search.md, R379 to R399).
-/
namespace Sys2Proof.Machine

open Sys2Proof (Word)

-- ===== Index registers (Table 12.1) =====

def State.srcM (s : State) (i : Nat) : Nat := s.f F.SRC_INDEX_CFG_M i 0
def State.srcDsub (s : State) (i : Nat) : Nat := s.f F.SRC_INDEX_CFG_DSUB i 0
/-- Dimension. -/
def State.srcD (s : State) (i : Nat) : Nat := s.srcM i * s.srcDsub i
/-- Degree. -/
def State.srcDg (s : State) (i : Nat) : Nat := if s.fb F.SRC_INDEX_CFG_DEGREE i 0 then 64 else 32
def State.srcNodes (s : State) (i : Nat) : Nat := s.f F.SRC_INDEX_SIZE_NODES i 0
def State.srcLists (s : State) (i : Nat) : Nat := s.f F.SRC_INDEX_SIZE_LISTS i 0
def State.srcPart (s : State) (i : Nat) : Nat := s.f F.SRC_INDEX_CFG_PARTITION i 0
def State.srcEntry (s : State) (i : Nat) : Nat := s.f F.SRC_INDEX_CFG_ENTRY i 0
def State.srcBase (s : State) (i j : Nat) : Nat := s.f F.SRC_INDEX_BASE_BASE i j
def State.srcGen (s : State) (i : Nat) : Nat := s.f F.SRC_INDEX_GEN_CURRENT i 0
def State.srcOldest (s : State) (i : Nat) : Nat := s.f F.SRC_INDEX_OLDEST_OLDEST i 0
def State.srcQ (s : State) (i g : Nat) : Nat := s.f F.SRC_INDEX_QCOUNT_COUNT i (g % 64)
/-- The format of table entries: FP32, BF16 or INT8. -/
def State.srcFmt (s : State) (i : Nat) : Nat := 8 - s.f F.SRC_INDEX_CFG_TFMT i 0

/-- EMPTY. -/
def srcEmpty : Nat := 0xFFFFFFFF

/-- The configuration is one that R379 lets serve. -/
def State.srcCfgOk (s : State) (i : Nat) : Bool :=
  decide (s.srcM i % 4 = 0) && decide (8 ≤ s.srcM i) && decide (s.srcM i ≤ 64) && decide (s.f F.SRC_INDEX_CFG_TFMT i 0 < 3) &&
    decide (s.srcNodes i ≤ 0xFFFFFFFE)

/-- The generation after g (R382). -/
def srcNext (g : Nat) : Nat := if 0xFFFFFFFE ≤ g then 1 else g + 1
/-- g is at or below G under the window rule (R382). -/
def srcLe (g G : Nat) : Bool := decide (g = 0) || decide ((G + 2 ^ 32 - g) % 2 ^ 32 < 2 ^ 31)
/-- How far snapshot g lies behind the committed generation. -/
def srcAge (c g : Nat) : Nat := (c + 2 ^ 32 - g) % 2 ^ 32

/-- The generation n before c (R382). -/
def srcBack (c n : Nat) : Nat := if n < c then c - n else c + 0xFFFFFFFE - n
/-- How many generations before c the last one with G mod 64 = j lies: the snapshot that QCOUNT[j] counts, since a COMMIT waits for the earlier ones.
No generation is 0 or 0xFFFF_FFFF, so two remainders recur later across the wrap. -/
def srcSteps (c j : Nat) : Nat := ((List.range 128).find? (fun n => decide (srcBack c n % 64 = j))).getD 0
/-- The snapshot that QCOUNT[j] counts. -/
def srcSnap (c j : Nat) : Nat := srcBack c (srcSteps c j)
/-- Snapshot g of index i is registered. -/
def State.srcHeld (s : State) (i g : Nat) : Bool := decide (s.srcQ i g ≠ 0) && decide (srcSnap (s.srcGen i) (g % 64) = g)

/-- OLDEST follows the registered snapshots. -/
def State.srcRefresh (s : State) (i : Nat) : State :=
  let c := s.srcGen i
  let o := match (List.range 64).filter (fun j => decide (s.srcQ i j ≠ 0)) with
    | [] => srcNext c
    | js => srcBack c (js.foldl (fun n j => max n (srcSteps c j)) 0)
  s.setF F.SRC_INDEX_OLDEST_OLDEST i 0 o

/-- Change the count of a snapshot. -/
def State.srcReg (s : State) (i g : Nat) (up : Bool) : State :=
  let n := s.srcQ i g
  (s.setF F.SRC_INDEX_QCOUNT_COUNT i (g % 64) (if up then min (n + 1) (2 ^ 32 - 1) else n - 1)).srcRefresh i

/-- The index whose RW register lies at an offset. -/
def srcAt (off : Nat) : Option (RegName × Nat × Nat) :=
  match regAt off with
  | some (.SRC_INDEX_CFG, i, j) => some (.SRC_INDEX_CFG, i, j)
  | some (.SRC_INDEX_SIZE, i, j) => some (.SRC_INDEX_SIZE, i, j)
  | some (.SRC_INDEX_ARITH, i, j) => some (.SRC_INDEX_ARITH, i, j)
  | some (.SRC_INDEX_BASE, i, j) => some (.SRC_INDEX_BASE, i, j)
  | _ => none

/-- Poll keys of an index: its SOURCE and its LISTSRC. -/
def srcKey (i which : Nat) : Nat := 16 + 2 * i + which

/-- A request of index i that has completed makes room for the next, and its snapshot goes (R391). -/
def State.sqSettle (s : State) (i : Nat) : State := s.endJob (i + 4) (bit (s.ringJob (i + 4)).req 52) (fun s g => s.srcReg i g false)

/-- The index has a request in progress or a registered snapshot. -/
def State.srcBusy (s : State) (i : Nat) : Bool :=
  let s := s.sqSettle i
  s.ringBusy (i + 4) || (List.range 64).any (fun g => decide (s.srcQ i g ≠ 0))

/-- SRC_INDEX_WRITE (R379). -/
def execSrcIndexWrite (i off : Nat) (w : Word) (s : State) : Answer :=
  match srcAt off with
  | none => .next s
  | some (r, n, j) =>
    if s.canWrite i = false then .next s
    else if s.srcBusy n then .next (s.log (srcHub 3) Ev.SRC_INDEX_BUSY [n] (some (s.srcPart n)) (some (unitHub 3)))
    else
      let s := s.setRg r n j (writeFields r.fields (s.rg r n j) w)
      .next (if s.srcCfgOk n then s else s.setF F.SRC_INDEX_CFG_ENABLE n 0 0)

-- ===== Requests (Table 12.4) =====

def sqOp (v : Nat) : Nat := bits v 63 60
def sqHold (v : Nat) : Bool := bit v 52
def sqW (v : Nat) : Nat := bits v 48 40 + 1
def sqK (v : Nat) : Nat := bits v 39 32 + 1
def sqRerank (v : Nat) : Nat := bits v 31 24
def sqEmax (v : Nat) : Nat := bits v 15 0
def sqId (v : Nat) : Nat := wordOf v 6 % 2 ^ 32
def sqList (v : Nat) : Nat := wordOf v 6 / 2 ^ 32

/-- A parameter out of range or a nonzero reserved field. -/
def State.sqBad (s : State) (i v : Nat) : Bool :=
  decide (bits v 59 56 ≠ i) || decide (bits v 51 49 ≠ 0) || decide (bits v 23 16 ≠ 0) ||
  (decide (sqOp v = 1) && (decide (512 < sqW v) || decide (sqW v < sqK v) || decide (sqEmax v = 0) ||
    (decide (sqRerank v ≠ 0) && (decide (sqRerank v < sqK v) || decide (min (sqW v) 255 < sqRerank v))))) ||
  ((decide (sqOp v = 2) || decide (sqOp v = 3) || decide (sqOp v = 4)) && decide (s.srcNodes i ≤ sqId v)) ||
  (decide (sqOp v = 3) && decide (s.srcLists i ≤ sqList v))

def State.sqActor (s : State) (i : Nat) : Actor := { deviceActor (s.srcPart i) (unitHub 3) with stream := searchStream i }

/-- The search unit reads n bytes of index i's tables, at the index's partition's charge (R397, R407). -/
def State.srcRead (s : State) (i a n : Nat) : State × Data := (s.presentFor (s.sqActor i) false a n).hubRead 3 a n

/-- The search unit writes n bytes of index i's tables. -/
def State.srcWrite (s : State) (i a n : Nat) (d : Data) : State := (s.presentFor (s.sqActor i) true a n).writeAll (unitHub 3) a n d

/-- Bytes that the SOURCE of a request holds. -/
def State.sqSourceLen (s : State) (i v : Nat) : Nat := if sqOp v = 1 then 2 * s.srcD i else if sqOp v = 2 then s.srcM i else 0
/-- Bytes that the result of a request may take. -/
def sqResultLen (v : Nat) : Nat := if sqOp v = 1 then 32 + 8 * sqK v else 32

def State.sqSpanBad (s : State) (i v : Nat) : Bool :=
  let a := s.sqActor i
  (decide (s.sqSourceLen i v ≠ 0) && s.xwBad a (wordOf v 1) (s.sqSourceLen i v) 1 rRead) ||
  ((decide (sqOp v = 2) || decide (sqOp v = 3)) && s.xwBad a (wordOf v 4) (4 * s.srcDg i) 1 rRead) ||
  s.xwBad a (wordOf v 2) (sqResultLen v) 64 rWrite || s.xwBad a (wordOf v 3) 8 8 rAtomic

/-- Counts of a query. -/
structure SrcStat where
  expansions : Nat := 0
  evaluations : Nat := 0
  poisoned : Nat := 0
  saturated : Nat := 0
  badEdge : Nat := 0
deriving DecidableEq, Repr

/-- A request completes with a code (R394, R395); what it was still fetching is not wanted any more (R398). [log 47: DEDUCED] -/
def State.sqComplete (s : State) (i v code low : Nat) (st : SrcStat := {}) (out : List (Nat × Nat) := []) : State :=
  let a := s.sqActor i
  let hdr := 2 ^ 56 * code + 2 ^ 32 * out.length + low + wordOf v 7 * 2 ^ 64 +
    (2 ^ 48 * st.expansions + st.evaluations % 2 ^ 24 * 2 ^ 24 + min st.poisoned 4095 * 2 ^ 12 + min st.saturated 4095) * 2 ^ 128 +
    2 ^ 192 * s.time
  let r := (List.range out.length).foldl (fun x n =>
    let q := out.getD n (0, 0)
    x + (2 ^ 32 * q.1 + q.2) * 2 ^ (256 + 64 * n)) hdr
  (((s.dropFetch (srcKey i 0)).dropFetch (srcKey i 1)).jobOut (i + 4)).unitResult a (i + 4) (wordOf v 2) (wordOf v 3) (!s.xwBad a (wordOf v 2) (sqResultLen v) 64 rWrite)
    (!s.xwBad a (wordOf v 3) 8 8 rAtomic) r [(0, 32 + 8 * out.length)]

/-- The row of an operation of index i. A search whose requests wait for credit takes none (R412), nor does one whose
control core does not run (R379, R398). [log 45: DEDUCED] -/
def State.sqRow (s : State) (i op : Nat) (act : State → Nat → State) : State :=
  if 16 ≤ i ∨ s.fb F.HUB_STATUS_READY 0 0 = false ∨ s.boot.refclkLost = true ∨ s.stepState (s.srcPart i) = stSaved ∨
      s.coreRuns (s.f F.SRC_INDEX_CFG_CORE i 0) = false ∨ s.owes (searchStream i) = true then s
  else
    let q := (s.sqSettle i).ringFront (i + 4)
    match q.2 with
    | none => q.1
    | some v =>
      if sqOp v = 0 ∨ 6 < sqOp v then q.1.sqComplete i v 0xE1 0
      else if s.fb F.SRC_INDEX_CFG_ENABLE i 0 = false then q.1.sqComplete i v 0xE0 0
      else if (q.1.ringJob (i + 4)).begun then (if sqOp v = op then act q.1 v else s)
      else if s.sqBad i v then q.1.sqComplete i v 0xE2 0
      else if s.sqSpanBad i v then q.1.sqComplete i v 0xF0 0
      else if sqOp v ≠ op then s
      else act (q.1.beginJob (i + 4)) v

-- ===== Distances (R383 to R388) =====

/-- BF16 element j of a little-endian value. -/
def bfAt (v j : Nat) : Num := decodeElem 7 (v / 2 ^ (16 * j) % 2 ^ 16)

/-- Twice the second accumulator is added to the first (R76). -/
def combTwice (a b : AccElem) : AccElem :=
  ⟨a.v + b.v + b.v, a.poison || b.poison, a.inv || b.inv, a.ovf || b.ovf⟩

/-- The sum of (−q_j) × c_j over n elements. -/
def negDot (A : Int) (q c : Nat → Num) (n : Nat) (e : AccElem) : AccElem :=
  (List.range n).foldl (fun e j => e.addNum A (prodNum (negNum (q j)) (c j))) e

/-- Table entry (m, c): its code and whether it is out of range (R383). cent gives the centroid's elements, norm its FP32 norm. -/
def srcTableEntry (ip : Bool) (A : Int) (fmt : Nat) (q cent : Nat → Num) (norm n : Nat) : Nat × Bool :=
  let e := if ip then negDot A q cent n {} else combTwice (({} : AccElem).addNum A (d32 norm)) (negDot A q cent n {})
  let r := e.convert A fmt
  (r.1, r.2.accInv || r.2.accOvf || r.2.cnv)

/-- The table of a query, or whether an input was poisoned. Entry (m, c) stands at 256m + c. -/
def State.srcTable (s : State) (i : Nat) (q : Nat) : State × Bool × List (Nat × Bool) :=
  let M := s.srcM i
  let ds := s.srcDsub i
  let b := s.srcBase i 4
  let ip := s.fb F.SRC_INDEX_CFG_METRIC i 0
  let A := signed 10 (s.f F.SRC_INDEX_ARITH_TABLE_ANCHOR i 0)
  let fmt := s.srcFmt i
  (List.range (256 * M)).foldl (fun (x : State × Bool × List (Nat × Bool)) n =>
    let c := x.1.srcRead i (b + 2 * ds * n) (2 * ds)
    let nm := if ip then (c.1, ({} : Data)) else c.1.srcRead i (b + 512 * M * ds + 4 * n) 4
    let e := srcTableEntry ip A fmt (fun j => bfAt q (n / 256 * ds + j)) (fun j => bfAt c.2.v j) nm.2.v ds
    (nm.1, x.2.1 || decide (c.2.p ≠ 0) || decide (nm.2.p ≠ 0), x.2.2 ++ [e])) (s, false, [])

/-- A candidate: its distance, that distance as FP32, its vector ID, and whether it has been expanded. -/
structure Cand where
  x : Int := 0
  fp : Nat := 0
  id : Nat := 0
  expanded : Bool := false
deriving DecidableEq, Repr

/-- The total order of keys (R385). -/
def Cand.before (a b : Cand) : Bool := decide (a.x < b.x) || (decide (a.x = b.x) && decide (a.id < b.id))

/-- Insert in key order. -/
def candInsert (l : List Cand) (c : Cand) : List Cand :=
  match l with
  | [] => [c]
  | a :: r => if c.before a then c :: a :: r else a :: candInsert r c

/-- A walk in progress. -/
structure SrcWalk where
  s : State
  cand : List Cand := []
  seen : NSet := []
  st : SrcStat := {}

/-- The PQ distance of a code: X, its conversion to FP32 and whether the readout saturated (R385, R388). -/
def pqDist (A : Int) (fmt M : Nat) (tab : Nat → Nat) (code : Nat) : Int × Nat × Bool :=
  let e := (List.range M).foldl (fun (e : AccElem) m =>
    e.addNum A (decodeElem fmt (tab (256 * m + code / 256 ^ m % 256)))) {}
  (e.X, (e.convert A 8).1, e.rdOvf)

/-- offer of R386. -/
def SrcWalk.offer (k : SrcWalk) (i : Nat) (tab : Nat → Nat) (w v : Nat) : SrcWalk :=
  if v = srcEmpty ∨ nmem k.seen v = true then k
  else
    let M := k.s.srcM i
    let k := { k with seen := nins k.seen v }
    let r := k.s.srcRead i (k.s.srcBase i 0 + M * v) M
    let k := { k with s := r.1 }
    if r.2.p ≠ 0 then { k with st := { k.st with poisoned := k.st.poisoned + 1 } }
    else
      let d := pqDist (signed 10 (k.s.f F.SRC_INDEX_ARITH_DIST_ANCHOR i 0)) (k.s.srcFmt i) M tab r.2.v
      { k with cand := (candInsert k.cand { x := d.1, fp := d.2.1, id := v }).take w,
               st := { k.st with evaluations := k.st.evaluations + 1, saturated := k.st.saturated + b2n d.2.2 } }

/-- The list of vector v at snapshot g: its entries, or poison (R381, R390). -/
def State.listAt (s : State) (i v g : Nat) : State × Option (List Nat) :=
  let h := s.srcRead i (s.srcBase i 1 + 16 * v) 16
  if h.2.p ≠ 0 then (h.1, none)
  else
    let gen := bits h.2.v 63 32
    let back := if srcLe gen g then (h.1, ({ v := bits h.2.v 31 0, p := 0 } : Data))
      else h.1.srcRead i (s.srcBase i 3 + 4 * bits h.2.v 31 0) 4
    if back.2.p ≠ 0 then (back.1, none)
    else if back.2.v = srcEmpty then (back.1, some [])
    else
      let n := s.srcDg i
      let r := back.1.srcRead i (s.srcBase i 2 + 4 * n * back.2.v) (4 * n)
      if r.2.p ≠ 0 then (r.1, none) else (r.1, some ((List.range n).map (fun j => r.2.v / 2 ^ (32 * j) % 2 ^ 32)))

/-- Mark the first unexpanded candidate. -/
def expandFirst : List Cand → Option (Nat × List Cand)
  | [] => none
  | c :: r => if c.expanded then (expandFirst r).map (fun q => (q.1, c :: q.2)) else some (c.id, { c with expanded := true } :: r)

/-- walk of R386: up to EMAX expansions. -/
def SrcWalk.run (k : SrcWalk) (i : Nat) (tab : Nat → Nat) (w g : Nat) : Nat → SrcWalk
  | 0 => k
  | e + 1 =>
    match expandFirst k.cand with
    | none => k
    | some (v, l) =>
      let r := k.s.listAt i v g
      let k := { k with s := r.1, cand := l, st := { k.st with expansions := k.st.expansions + 1 } }
      let k := match r.2 with
        | none => { k with st := { k.st with poisoned := k.st.poisoned + 1 } }
        | some es => es.foldl (fun (k : SrcWalk) n =>
            if n ≠ srcEmpty ∧ k.s.srcNodes i ≤ n then { k with st := { k.st with badEdge := k.st.badEdge + 1 } } else k.offer i tab w n) k
      SrcWalk.run k i tab w g e

/-- The full-vector distance of R388 as an accumulator element. -/
def rerankDist (ip : Bool) (A : Int) (q v : Nat → Num) (n : Nat) : AccElem :=
  if ip then negDot A q v n {}
  else
    let a := (List.range n).foldl (fun (e : AccElem) j => e.addNum A (prodNum (v j) (v j))) {}
    combTwice a (negDot A q v n {})

/-- The returned vectors of a walk: FP32 distance and ID in key order (R388). -/
def State.srcReturn (s : State) (i v q : Nat) (k : SrcWalk) : State × SrcStat × List (Nat × Nat) :=
  let D := s.srcD i
  let ip := s.fb F.SRC_INDEX_CFG_METRIC i 0
  if sqRerank v = 0 then (k.s, k.st, (k.cand.take (sqK v)).map (fun c => (c.fp, c.id)))
  else
    let A := signed 10 (s.f F.SRC_INDEX_ARITH_RERANK_ANCHOR i 0)
    let r := (k.cand.take (sqRerank v)).foldl (fun (x : State × SrcStat × List Cand) c =>
      let d := x.1.srcRead i (s.srcBase i 5 + 2 * D * c.id) (2 * D)
      if d.2.p ≠ 0 then (d.1, { x.2.1 with poisoned := x.2.1.poisoned + 1 }, x.2.2)
      else
        let e := rerankDist ip A (fun j => bfAt q j) (fun j => bfAt d.2.v j) D
        let st := { x.2.1 with saturated := x.2.1.saturated + b2n e.rdOvf }
        (d.1, st, candInsert x.2.2 { x := e.X, fp := (e.convert A 8).1, id := c.id })) (k.s, k.st, [])
    (r.1, r.2.1, (r.2.2.take (sqK v)).map (fun c => (c.fp, c.id)))

/-- Some live kit of the index's partition has the CACHE role. [log 48: DEDUCED] -/
def State.srcServed (s : State) (i : Nat) : Bool :=
  let p := s.srcPart i
  (s.kitsOf p).any (fun k => decide (bits (s.f F.PAR_CONFIG_ROLES p 0) (2 * k + 1) (2 * k) = 2))

/-- The vectors of a walk that re-ranking reads from flash. -/
def State.srcVectors (s : State) (i v : Nat) (k : SrcWalk) : List (Nat × Piece) :=
  let n := 2 * s.srcD i
  let l := (k.cand.take (sqRerank v)).map (fun c => s.srcBase i 5 + n * c.id)
  ((l.filter (fun a => decide (flashBase ≤ a))).zipIdx).map (fun q => (n * q.2, { addr := q.1, len := n }))

/-- SRC_SEARCH (R386 to R391). Re-ranking waits for the vectors that it reads from flash; until they are there the walk leaves nothing behind. [log 48: DEDUCED; 152: DESIGN CHOICE] -/
def execSrcSearch (i : Nat) (s : State) : Answer :=
  .next (s.sqRow i 1 (fun s v =>
    let c := s.srcGen i
    let arg := wordOf v 5
    let held := (s.ringJob (i + 4)).snap
    let g := if held ≠ 0 then held - 1 else if arg = 0 then c else arg
    if held = 0 ∧ arg ≠ 0 ∧ (2 ^ 32 ≤ arg ∨ 63 < srcAge c arg ∨ s.srcHeld i arg = false) then s.sqComplete i v 0x41 0
    else if s.srcServed i = false then s
    else
      let own := decide (arg = 0) || sqHold v
      let s := if held ≠ 0 then s else ((if own then s.srcReg i g true else s).count F.SRC_QUERIES_COUNT i 0 1).useSnap (i + 4) g own
      let s0 := s
      let q := s.fetchVia (srcKey i 0) (s.sqActor i) (wordOf v 1) (s.sqSourceLen i v)
      match q.2 with
      | none => q.1
      | some d =>
        let s := q.1
        if d.p ≠ 0 then s.sqComplete i v 0x03 g
        else
          let t := s.srcTable i d.v
          let s := t.1
          if t.2.1 then s.sqComplete i v 0x03 g
          else if t.2.2.any Prod.snd then s.sqComplete i v 0x02 g
          else
            let codes := t.2.2.toArray
            let tab := fun n => (codes.getD n (0, false)).1
            let entry := if s.srcNodes i ≤ s.srcEntry i then srcEmpty else s.srcEntry i
            let k := ((SrcWalk.mk s [] [] {}).offer i tab (sqW v) entry).run i tab (sqW v) g (sqEmax v)
            let ps := s.srcVectors i v k
            let w := s0.fetchPieces (srcKey i 1) (s.sqActor i) ps (2 * s.srcD i * ps.length) 0 0 (s.f F.MEM_PART_CHARGE_SUBSCRIBER (s.srcPart i) 0 + 1)
            if w.2.isNone then w.1 else
            let r := k.s.srcReturn i v d.v k
            let st := r.2.1
            let s := ((r.1.count F.SRC_EVALUATIONS_COUNT i 0 st.evaluations).count F.SRC_EXPANSIONS_COUNT i 0 st.expansions).count
              F.SRC_BAD_EDGE_COUNT i 0 st.badEdge
            let s := if st.poisoned = 0 then s else s.log (srcHub 3) Ev.SRC_POISON [i, g] (some (s.srcPart i)) (some (unitHub 3))
            s.sqComplete i v (if st.poisoned = 0 then 0 else 1) g st r.2.2))

-- ===== Mutations (R392, Table 12.3) =====

/-- The header of a vector: word 0, word 1, and its mark. -/
def State.srcHeader (s : State) (i v : Nat) : State × Nat × Nat × Bool :=
  let r := s.srcRead i (s.srcBase i 1 + 16 * v) 16
  (r.1, wordOf r.2.v 0, wordOf r.2.v 1, decide (r.2.p ≠ 0))

def State.putHeader (s : State) (i v word w : Nat) : State := s.srcWrite i (s.srcBase i 1 + 16 * v + 8 * word) 8 { v := w }

/-- Write list L from LISTSRC data. -/
def State.putList (s : State) (i l : Nat) (d : Data) : State :=
  s.srcWrite i (s.srcBase i 2 + 4 * s.srcDg i * l) (4 * s.srcDg i) d

/-- Write BACK[L]. -/
def State.putBack (s : State) (i l x : Nat) : State := s.srcWrite i (s.srcBase i 3 + 4 * l) 4 { v := x }

/-- SRC_INSERT. [log 46: DEDUCED] -/
def execSrcInsert (i : Nat) (s : State) : Answer :=
  .next (s.sqRow i 2 (fun s v =>
    let g := srcNext (s.srcGen i)
    let id := sqId v
    let l := sqList v
    let h := s.srcHeader i id
    let del := h.2.2.1 / 2 ^ 32
    if h.2.2.2 = false ∧ h.2.1 = g * 2 ^ 32 + l ∧ del = srcEmpty then h.1.sqComplete i v 0 g
    else if h.2.2.2 = true ∨ (del ≠ 0 ∧ (del = srcEmpty ∨ del = s.srcOldest i ∨ srcLe del (s.srcOldest i) = false)) ∨ s.srcLists i ≤ l then
      h.1.sqComplete i v 0x10 0
    else
      let a := s.sqActor i
      let s := (h.1.fetchStart (srcKey i 0) a (wordOf v 1) (s.srcM i)).fetchStart (srcKey i 1) a (wordOf v 4) (4 * s.srcDg i)
      if (s.fetchReady (srcKey i 0) a (wordOf v 1) (s.srcM i) && s.fetchReady (srcKey i 1) a (wordOf v 4) (4 * s.srcDg i)) = false then s
      else
        let q := s.fetchVia (srcKey i 0) a (wordOf v 1) (s.srcM i)
        let r := q.1.fetchVia (srcKey i 1) a (wordOf v 4) (4 * s.srcDg i)
        let s := r.1.srcWrite i (s.srcBase i 0 + s.srcM i * id) (s.srcM i) (q.2.getD {})
        let s := (s.putList i l (r.2.getD {})).putBack i l srcEmpty
        ((s.putHeader i id 1 (2 ^ 32 * srcEmpty)).putHeader i id 0 (2 ^ 32 * g + l)).sqComplete i v 0 g))

/-- SRC_SETLIST. -/
def execSrcSetlist (i : Nat) (s : State) : Answer :=
  .next (s.sqRow i 3 (fun s v =>
    let g := srcNext (s.srcGen i)
    let id := sqId v
    let h := s.srcHeader i id
    let gen := h.2.1 / 2 ^ 32
    let l := h.2.1 % 2 ^ 32
    if h.2.2.2 = true ∨ h.2.2.1 / 2 ^ 32 ≠ srcEmpty then h.1.sqComplete i v 0x20 0
    else if gen ≠ g ∧ (srcLe gen (s.srcOldest i) = false ∨ sqList v = l) then h.1.sqComplete i v 0x30 0
    else
      let r := h.1.fetchVia (srcKey i 1) (s.sqActor i) (wordOf v 4) (4 * s.srcDg i)
      match r.2 with
      | none => r.1
      | some lst =>
        if gen = g then (r.1.putList i l lst).sqComplete i v 0 g
        else (((r.1.putList i (sqList v) lst).putBack i (sqList v) l).putHeader i id 0 (2 ^ 32 * g + sqList v)).sqComplete i v 0 g))

/-- SRC_DELETE. [log 46: DEDUCED] -/
def execSrcDelete (i : Nat) (s : State) : Answer :=
  .next (s.sqRow i 4 (fun s v =>
    let g := srcNext (s.srcGen i)
    let h := s.srcHeader i (sqId v)
    let del := h.2.2.1 / 2 ^ 32
    if h.2.2.2 = false ∧ del = g then h.1.sqComplete i v 0 g
    else if h.2.2.2 = true ∨ del ≠ srcEmpty then h.1.sqComplete i v 0x20 0
    else if sqId v = s.srcEntry i then h.1.sqComplete i v 0x31 0
    else (h.1.putHeader i (sqId v) 1 (2 ^ 32 * g)).sqComplete i v 0 g))

/-- Vectors of an index whose header holds a nonzero byte. -/
def State.srcListed (s : State) (i : Nat) : List Nat :=
  let b := s.srcBase i 1
  ((s.mem.cells.filter (fun c => decide (b ≤ c.1) && decide (c.1 < b + 16 * s.srcNodes i))).map (fun c => (c.1 - b) / 16)).eraseDups

/-- Generations of a vector's header that are not yet settled. -/
def State.srcUnsettled (s : State) (i v : Nat) : List Nat :=
  let w := cellsRead s.mem.cells (s.srcBase i 1 + 16 * v) 16
  [bits w 63 32, bits w 127 96].filter (fun g => decide (g ≠ 0) && decide (g ≠ srcEmpty))

/-- SRC_COMMIT (R382, R392). -/
def execSrcCommit (i : Nat) (s : State) : Answer :=
  .next (s.sqRow i 5 (fun s v =>
    let g := srcNext (s.srcGen i)
    let far := (s.srcListed i).any (fun n => (s.srcUnsettled i n).any (fun x => srcLe x g && decide (2 ^ 30 ≤ srcAge g x)))
    if s.srcQ i g ≠ 0 ∨ far = true then s.sqComplete i v 0x40 0
    else ((s.setF F.SRC_INDEX_GEN_CURRENT i 0 g).srcRefresh i).sqComplete i v 0 g))

/-- SRC_RELEASE (R391). [log 46, 48: DEDUCED] -/
def execSrcRelease (i : Nat) (s : State) : Answer :=
  .next (s.sqRow i 6 (fun s v =>
    let g := wordOf v 5
    if s.srcHeld i g = false then s.sqComplete i v 0x50 0
    else (s.srcReg i g false).sqComplete i v 0 0))

/-- One header is settled: LIST_GEN at or below OLDEST and DELETE_GEN below it become 0 (R382). -/
def State.settleOne (s : State) (i v : Nat) : State :=
  let h := s.srcHeader i v
  let o := s.srcOldest i
  let gen := h.2.1 / 2 ^ 32
  let del := h.2.2.1 / 2 ^ 32
  if h.2.2.2 then h.1
  else
    let s := if gen ≠ 0 ∧ srcLe gen o = true then h.1.putHeader i v 0 (h.2.1 % 2 ^ 32) else h.1
    if del ≠ 0 ∧ del ≠ srcEmpty ∧ del ≠ o ∧ srcLe del o = true then s.putHeader i v 1 0 else s

/-- SRC_SETTLE: the beam manager settles headers. -/
def execSrcSettle (i : Nat) (s : State) : Answer :=
  if 16 ≤ i ∨ s.fb F.SRC_INDEX_CFG_ENABLE i 0 = false ∨ s.boot.refclkLost = true ∨ s.coreRuns (s.f F.SRC_INDEX_CFG_CORE i 0) = false then .next s
  else .next ((s.srcListed i).foldl (fun s v => s.settleOne i v) s)

end Sys2Proof.Machine
end

