-- ==== Sys2Proof/Machine/Retire.lean ====
section
/-!
DEFINITION. Sys2Proof/Machine/Retire.lean: taint notices, the retirement of drums, segments, codec units and kits, the rebind of a drum
to a spare, transfers lost with a bridge or a kit, and the minimum service set (14_data_integrity.md, R452 to R459; R31; R297; R401;
R486; R529).
-/
namespace Sys2Proof.Machine

open Sys2Proof (CtxId)

-- ===== Addresses and units of a kit =====

/-- The bytes [a, a + n) touch the HBM or the drum slots of kit k. -/
def inKit (k a n : Nat) : Bool :=
  let meets := fun (b l : Nat) => decide (a < b + l) && decide (b < a + n)
  meets (hbmKit * k) hbmKit || meets (logBase + 0x100000000 * k) 0x100000000 || meets (physBase + 0x100000000 * k) 0x100000000

/-- The unit belongs to kit k (Table 14.6). -/
def unitInKit (unit k : Nat) : Bool :=
  decide (unit / 2 ^ 21 ≠ 3) && decide (unit / 2 ^ 21 < 5) && decide (bits unit 20 18 = k)

/-- Kind, kit and number of a unit. -/
def unitKind (unit : Nat) : Nat := unit / 2 ^ 21
def unitKit (unit : Nat) : Nat := bits unit 20 18
def unitNum (unit : Nat) : Nat := bits unit 17 10

-- ===== Taint (R363, R457, R458) =====

/-- The suspect interval of writers ends (R458): local ranges of their journal entries are poisoned, notices go out for global ones, and
the summary is logged for the unit. An entry whose granule of the ring is poisoned is not used, and the step ranges are then those of the whole
ring. A device that is not the LEAD of its pair sends no notice (R474). [log 78: DEDUCED; 151: DESIGN CHOICE] -/
def State.taint (s : State) (unit : Option Nat) (suspectFrom : Nat) (writers : List Nat) : State :=
  let s := s.integ.journal.foldl (fun s e => s.touch noUnit (s.journalAt e) 32) s
  let lost := s.integ.journal.filter (fun e => nmem s.mem.poison (s.journalAt e / 32))
  let es := s.integ.journal.filter (fun e => writers.contains e.writer && decide (suspectFrom ≤ e.last) && !lost.contains e)
  let loc := es.filter (fun e => !e.global)
  let glo := if s.sends then es.filter (fun e => e.global) else []
  let s := loc.foldl (fun s e => s.poisonRange e.addr (256 * e.len)) s
  let s := s.count F.INT_TAINT_LOCAL_COUNT 0 0 loc.length
  let s := glo.foldl (fun s e => State.taintRange (e.len / 262144 + 1) s e.addr (256 * e.len)) s
  let notices := glo.foldl (fun n e => n + (256 * e.len + 0x3FFFFFF) / 0x4000000) 0
  let named := if lost.isEmpty then es else s.integ.journal
  let steps := (List.range 8).flatMap (fun p =>
    match named.filter (fun e => decide (e.part = p)) with
    | [] => [0, 0]
    | e :: r => [r.foldl (fun m x => min m x.seqFirst) e.seqFirst, r.foldl (fun m x => max m x.seqLast) e.seqLast])
  let s := s.log (srcHub 8) Ev.TAINT_SUMMARY ([suspectFrom, s.time, loc.length, notices, lost.length] ++ steps) none unit
  let horizon := if s.fb F.INT_JOURNAL_ENABLE 0 0 then
      (match s.integ.journal with
       | e :: _ => if suspectFrom < e.first then some e.first else none
       | [] => none)
    else some 0
  let s := match horizon with
    | some t => s.log (srcHub 8) Ev.TAINT_HORIZON [t] none unit
    | none => s
  s.pumpTaint

/-- The writers that a unit's fault affects: the drum of a mallet or drum, the drums behind a segment, the codec unit. -/
def writersOf (unit : Nat) : List Nat :=
  let k := unitKit unit
  let row := unitNum unit
  match unitKind unit with
  | 0 => [unitDrum k (unitNum unit)]
  | 1 => [unitDrum k (unitNum unit)]
  | 2 => ((List.range 156).filter (fun d => decide (12 ≤ row) || decide (d / 13 = row))).map (unitDrum k)
  | _ => [unit]

-- ===== Observation entries and checks of a retired unit =====

/-- Remove the observation entries that a test picks. -/
def State.dropObs (s : State) (pick : Nat → Bool) : State :=
  (List.range 256).foldl (fun s e =>
    if s.fb F.INT_OBS_VALID e 0 && pick (s.f F.INT_OBS_UNIT e 0) then (s.setRg .INT_OBS e 0 0).setRg .INT_OBS_FROM e 0 0 else s) s

/-- SUSPECT_FROM of a unit: that of its entry, else its last passing check. -/
def State.suspectOf (s : State) (unit : Nat) : Nat :=
  match s.obsOf unit with
  | some e => s.f F.INT_OBS_FROM_SUSPECT_FROM e 0
  | none => s.lastPassOf unit

/-- A check that tests one of the units of a test. -/
def SCheck.on (c : SCheck) (pick : Nat → Bool) : Bool := c.live && (pick c.a || pick c.b || (c.refereeing && pick c.referee))

/-- Answer a control core's check. -/
def State.scheckAnswer (s : State) (c code referee : Nat) : State :=
  ((s.setF F.INT_SCHECK_RESULT_DONE c 0 1).setF F.INT_SCHECK_RESULT_CODE c 0 code).setF F.INT_SCHECK_RESULT_REFEREE c 0 referee

/-- Checks of units that are retired end with UNIT_LOST (R459). -/
def State.loseChecks (s : State) (pick : Nat → Bool) : State :=
  let hit := s.integ.checks.filter (fun q => q.2.on pick)
  let s := hit.foldl (fun s q =>
    let s := if q.1 < 8 then s.scheckAnswer q.1 6 0 else s
    s.log (srcHub 8) Ev.SCHECK_RESULT [q.2.a, q.2.b, q.2.seed, 6]) s
  s.setInteg (fun x => { x with checks := x.checks.filter (fun q => !q.2.on pick) })

-- ===== Transfers lost (R31, R121, R193, R309) =====

/-- The pieces of a transfer. -/
def Xfer.pieces (t : Xfer) : List (Nat × Piece) := t.src ++ t.dst

/-- Answers still due for a transfer are no longer its own. -/
def State.disown (s : State) (x : Nat) : State :=
  { s with fab := { s.fab with tags := s.fab.tags.map (fun q =>
      match q.2.issuer with
      | .xfer y _ => if y = x then (q.1, { q.2 with issuer := .xfer 0 0 }) else q
      | .xferStore y => if y = x then (q.1, { q.2 with issuer := .xfer 0 0 }) else q
      | _ => q) } }

/-- A transfer in flight is lost: loads and asynchronous instructions complete with all-ones poisoned data, a router token poisons its
return row, and any other unit takes all-ones poisoned data. -/
def State.loseAny (s : State) (x cause : Nat) : State :=
  let t := s.xfer x
  if t.live = false then s
  else
    let s := s.disown x
    let gone := fun (s : State) => s.log (srcHub 0) Ev.XFER_LOST [t.span * 2 ^ 40 + t.off, cause] (some t.part) (some t.unit)
    match t.kind with
    | .load u word =>
      let c := ctxOfKey u
      if (s.ctx c).wait = .load x then (((gone s).endXfer x).setCtx c (fun y => { y with wait := .none })).finishLoad c word t.first (lostData t.len)
      else s.endXfer x
    | .abandoned => s.endXfer x
    | .rdisp =>
      match (List.range 8).findSome? (fun k => ((s.kit k).presented.find? (fun q => decide (q.scores = x) || decide (q.act = x))).map (fun q => (k, q))) with
      | none => s.endXfer x
      | some (k, q) =>
        let s := s.setKit k (fun y => { y with presented := y.presented.erase q })
        (((s.poisonRow k q Ev.ROUTER_RECORD_LOST).endXfer q.scores).endXfer q.act).flagDown (ctxOfKey q.u) q.flag
    | .none | .unitOut _ _ _ | .append _ =>
      let d := lostData t.len
      (gone s).setXfer x { t with src := [], toLoad := [], waiting := 0, buf := cellsOf 0 d.v t.len, bufP := ninsMask [] 0 d.p (granules 0 t.len) }
    | _ => s.loseXfer x cause

/-- A parcel in flight is lost: a destination that the engine writes itself is poisoned, but for flash, where the old version stays mapped, and its
entry stops as incomplete (R309, R321). -/
def State.loseParcel (s : State) (x : Nat) : State :=
  let k := s.parcel x
  match s.entry k.part k.queue k.seq with
  | none => s
  | some e =>
    let moving := k.begun || [0, 1, 2].any (fun i => decide (mget 0 s.polls (parcelKey x i) ≠ 0))
    if k.live = false ∨ moving = false ∨ k.outcome.isSome = true then s
    else
      let ps := if tdDstG e.desc then [] else s.dstPieces e.desc k
      let s := s.poisonPieces (ps.filter (fun q => !q.2.inFlash))
      let s := match ps with
        | [] => s
        | q :: _ => s.log (srcHub 0) Ev.TRN_PARCEL_INCOMPLETE [s.node, k.tag, q.2.addr, k.len] (some k.part) (some trnUnit)
      (s.setTrn (fun t => { t with held := t.held.filter (fun h => decide (h.2 ≠ x + 1)) })).setParcel x
        { k with stage := .flight, started := k.wire, drawn := k.len, outcome := some trnIncomplete, outcomeAt := s.time }

/-- The answer of an outstanding request no longer ends anything. -/
def State.voidTag (s : State) (key : Nat) : State :=
  { s with fab := { s.fab with tags := mupd {} s.fab.tags key (fun g => { g with issuer := .xfer 0 0 }) } }

/-- Outstanding requests of kit k's own units to other devices, of which a test picks the addresses lost: their transfers and router records are lost, and a
posted request has ended for its context (R31). The record of a posted one names a destination that its tag does not hold. [log 137: DESIGN CHOICE] -/
def State.loseRequests (s : State) (k cause : Nat) (lost : Nat → Bool) : State :=
  (s.fab.tags.filter (fun q => decide (q.2.st = .out) && lost q.2.addr)).foldl (fun s q =>
    match q.2.issuer with
    | .xfer x _ | .xferStore x => if unitInKit (s.xfer x).unit k then s.loseAny x cause else s
    | .posted u =>
      if (ctxOfKey u).kit ≠ k then s
      else (((s.voidTag q.1).unpost u).fresh).log (srcHub 0) Ev.XFER_LOST [Config.freeValue s.freeCtr % 2 ^ 46, cause] (partOpt q.2.part)
        (some (s.actor (ctxOfKey u)).unit)
    | .routerRec r d row num =>
      if r ≠ k then s
      else (s.voidTag q.1).poisonRow k { num := num, word := row, drum := d, u := ctxKey ⟨k, d, 0, 0⟩ } Ev.ROUTER_RECORD_LOST
    | _ => s) s

/-- Where a record would now be written. -/
def State.recordAddr (s : State) (r : RouteRec) : Nat :=
  let d := s.drum r.kit r.drum
  slotAddr r.kit r.drum (d.inboxBase + 64 + d.inboxHead % 2 ^ d.inboxLog * r.len)

/-- Records on their way between the kits of the package, picked by the kit they come from, are lost: their return rows are poisoned (R193). -/
def State.loseRecords (s : State) (lost : Nat → RouteRec → Bool) : State :=
  (List.range 8).foldl (fun s j =>
    let rs := (s.kit j).records
    let s := (rs.filter (lost j)).foldl (fun s r => s.poisonRow j r.tok Ev.ROUTER_RECORD_LOST) s
    s.setKit j (fun x => { x with records := rs.filter (fun r => !lost j r) })) s

/-- Lose the transfers and the parcels in flight of which a test picks a crossing piece: the test is asked of the moving unit and of a
piece's address. -/
def State.loseCrossing (s : State) (cause : Nat) (crosses : Nat → Piece → Bool) : State :=
  let ps := s.trn.parcels.filter (fun q => match s.entry q.2.part q.2.queue q.2.seq with
    | some e => (s.srcPieces e.desc q.2 ++ s.dstPieces e.desc q.2).any (fun c => crosses trnUnit c.2)
    | none => false)
  let s := ps.foldl (fun s q => s.loseParcel q.1) s
  let xs := s.xfers.filter (fun q => q.2.live && q.2.pieces.any (fun c => crosses q.2.unit c.2))
  xs.foldl (fun s q => s.loseAny q.1 cause) s

-- ===== The minimum service set (R486) =====

/-- Host port or a Fefen port stands. -/
def State.hasPort (s : State) : Bool := s.host.trained || (List.range 16).any (fun i => s.fb F.FAB_PORT_STATUS_UP i 0)

/-- One control core runs or is in a restart, one log bank stands, one port is up, and one kit has an active drum. -/
def State.serviceStands (s : State) : Bool :=
  (List.range 8).any (fun c => bit s.boot.coresRun c || nmem s.boot.restarting c) && !(s.fb F.EVT_STATUS_BANK0_LOST 0 0 && s.fb F.EVT_STATUS_BANK1_LOST 0 0) &&
    s.hasPort && (List.range 8).any (fun k => s.kitLive k && !(s.activeDrums k).isEmpty)

def stageReady : Nat := 8
def stageFailed : Nat := 9
def stageLost : Nat := 10
def State.stage (s : State) : Nat := s.f F.HUB_BOOT_STAGE 0 0
def State.setStage (s : State) (n : Nat) : State := (s.setF F.HUB_BOOT_STAGE 0 0 n).setF F.HUB_STATUS_STAGE 0 0 n

/-- Service ends when the minimum set breaks: every partition stops, control cores are held (Table 17.10), READY falls and attention is raised. [log 105: DEDUCED] -/
def State.checkService (s : State) : State :=
  if s.stage = stageReady ∧ s.serviceStands = false then
    let s := s.log (srcHub 8) Ev.SERVICE_LOST [] none none true
    let s := (List.range 8).foldl (fun s p => s.stopAll p) s
    let s : State := { s with boot := { s.boot with coresRun := 0, restarting := [] } }
    ((s.setStage stageLost).setF F.HUB_STATUS_READY 0 0 0).cause F.HUB_STATUS_CAUSE_BOOT
  else s

-- ===== Spans and configuration edits of a retired kit (R297, R401, R529) =====

/-- Spans of a register store that lie wholly or partly in kit k. -/
def kitSpans (m : SMap (BitVec 64)) (k : Nat) : List (Nat × Nat) :=
  (List.range 8).flatMap (fun p => ((List.range 64).filter (fun n =>
    decide (storeF m F.MEM_SPAN_CTL_VALID p n = 1) && decide (storeF m F.MEM_SPAN_CTL_KIND p n = 0) &&
      inKit k (storeF m F.MEM_SPAN_BASE_BASE p n) (storeF m F.MEM_SPAN_CTL_LENGTH_M1 p n + 1))).map (fun n => (p, n)))

/-- Exports of a register store whose memory lies wholly or partly in kit k. -/
def kitExports (m : SMap (BitVec 64)) (k : Nat) : List Nat :=
  (List.range 256).filter (fun e =>
    let p := storeF m F.MEM_EXPORT_CTL_PARTITION e 0
    let n := storeF m F.MEM_EXPORT_CTL_SPAN e 0
    decide (storeF m F.MEM_EXPORT_CTL_VALID e 0 = 1) && decide (storeF m F.MEM_EXPORT_CTL_KIND e 0 = 0) &&
      decide (storeF m F.MEM_SPAN_CTL_KIND p n = 0) &&
      inKit k (storeF m F.MEM_SPAN_BASE_BASE p n + storeF m F.MEM_EXPORT_RANGE_BASE e 0 * 65536) ((storeF m F.MEM_EXPORT_RANGE_LEN_M1 e 0 + 1) * 65536))

/-- An epoch edited for the retirement of kit k. [log 98: DEDUCED] -/
def editKit (m : SMap (BitVec 64)) (k : Nat) : SMap (BitVec 64) :=
  let ss := kitSpans m k
  let es := kitExports m k
  let m := ss.foldl (fun m q => storeSetF m F.MEM_SPAN_CTL_VALID q.1 q.2 0) m
  let m := es.foldl (fun m e => storeSetF m F.MEM_EXPORT_CTL_VALID e 0 0) m
  (List.range 8).foldl (fun m p =>
    let w := storeF m F.PAR_CONFIG_KIT_MASK p 0
    if bit w k then storeSetF m F.PAR_CONFIG_KIT_MASK p 0 (w - 2 ^ k) else m) m

/-- Where the always-on journal lies (Table 17.13). -/
def cfgJournalBase : Nat := 0x0E0000AF0000

/-- The 64 bytes of a journal record (Table 17.16); LENGTH and DIGEST are those of its image. -/
def CfgRecord.bytes (r : CfgRecord) (img : SMap (BitVec 64)) : Nat :=
  r.jseq + (2 ^ 56 * r.kind + 2 ^ 55 * r.slot + r.epoch) * 2 ^ 64 + Config.imageLength img * 2 ^ 128 +
    (Config.imageDigest img).toNat / 2 ^ 320 * 2 ^ 192 + 2 ^ 256 * r.time

/-- Append a record for an image to the always-on configuration journal. -/
def State.cfgJournal (s : State) (kind slot epoch : Nat) (img : SMap (BitVec 64)) : State :=
  let r : CfgRecord := { jseq := s.cfg.jseq, kind := kind, slot := slot, epoch := epoch, time := s.time }
  let c := { s.cfg with jseq := s.cfg.jseq + 1, journal := (s.cfg.journal ++ [r]).drop (s.cfg.journal.length + 1 - 1024) }
  let s := { s with cfg := c }
  s.writeAll noUnit (cfgJournalBase + 64 * ((r.jseq - 1) % 1024)) 64 { v := r.bytes img, p := 0 }

/-- The device edits the current, previous and staged epochs; a VALIDATED session returns to OPEN (R529). -/
def State.editEpochs (s : State) (k : Nat) : State :=
  let ss := kitSpans s.regs k
  let es := kitExports s.regs k
  let ps := (List.range 8).filter (fun p => bit (s.f F.PAR_CONFIG_KIT_MASK p 0) k)
  let s := { s with regs := editKit s.regs k, staged := editKit s.staged k, previous := editKit s.previous k }
  let s := { s with cfg := { s.cfg with target := editKit s.cfg.target k, old := editKit s.cfg.old k, slot0 := { s.cfg.slot0 with regs := editKit s.cfg.slot0.regs k },
                                        slot1 := { s.cfg.slot1 with regs := editKit s.cfg.slot1.regs k } } }
  let s := ss.foldl (fun s q => s.log (srcKit k) Ev.MEM_SPAN_REVOKED [] (some q.1)) s
  let s := es.foldl (fun s e => s.log (srcKit k) Ev.MEM_SPAN_REVOKED [] (some (s.f F.MEM_EXPORT_CTL_PARTITION e 0))) s
  let s := ps.foldl (fun s p => s.log (srcKit k) Ev.PAR_KIT_REMOVED [k] (some p)) s
  let s : State := (s.cfgJournal 5 s.cfg.curSlot (s.f F.HUB_CFG_STATUS_CURRENT 0 0) (if s.cfg.curSlot = 0 then s.cfg.slot0.regs else s.cfg.slot1.regs)).log (srcHub 8) Ev.CFG_RETIRE_EDIT [k]
  if s.f F.HUB_CFG_STATUS_PHASE 0 0 = 2 then s.setF F.HUB_CFG_STATUS_PHASE 0 0 1 else s

-- ===== Kits (R454) =====

/-- What lived in the kit's HBM is lost: the flash map, search indexes, the send journal and the event spill area (Chapters 8, 12, 14,
16). -/
def State.loseHbm (s : State) (k : Nat) : State :=
  let mine := fun (a : Nat) => decide (a < hbmEnd) && decide (a / hbmKit = k)
  let s := if s.fb F.FLS_CONFIG_ENABLE 0 0 && mine (s.f F.FLS_MAP_BASE_BASE 0 0) then s.setF F.FLS_STATUS_READY 0 0 0 else s
  let s := (List.range 8).foldl (fun s i =>
    if s.fb F.SRC_INDEX_CFG_ENABLE i 0 && (List.range 8).any (fun j => mine (s.srcBase i j)) then
      (s.setF F.SRC_INDEX_CFG_ENABLE i 0 0).log (srcHub 3) Ev.SRC_INDEX_LOST [i] (some (s.srcPart i)) (some (unitHub 3))
    else s) s
  let s := if s.fb F.INT_JOURNAL_ENABLE 0 0 && mine (65536 * s.f F.INT_JOURNAL_BASE 0 0) then
      ((s.setF F.INT_JOURNAL_ENABLE 0 0 0).setInteg (fun x => { x with journal := [] })).log (srcHub 8) Ev.TAINT_HORIZON [s.time]
    else s
  if s.fb F.EVT_STATUS_SPILL_ACTIVE 0 0 && mine (65536 * s.f F.EVT_SPILL_CFG_BASE 0 0) then
    ((s.setF F.EVT_STATUS_SPILL_ACTIVE 0 0 0).setF F.EVT_STATUS_SPILL_LOST 0 0 1).log (srcHub 5) Ev.LOG_SPILL_LOST [] none (some (unitHub 5))
  else s

/-- Every drum of the kit stops as at a watchdog stop. -/
def State.stopKit (s : State) (k : Nat) : State :=
  let s := s.mapCtx k (fun _ c => if c.stopped then c else { c with fault := 0x20, stopped := true, wait := .none })
  (List.range 156).foldl (fun s d => (s.flushMerge k d (fun _ => true)).setDrum k d (fun x =>
    { x with inStep := false, kicked := false, rebindFrom := 0, pf := {} })) s

/-- Retire kit k: the order of R454; until its transfers are lost, its contexts stay those of its partition. Before CONFIG no epoch is in force, and the chosen one is edited there (R525). [log 79: DEDUCED] -/
def State.retireKit (s : State) (k : Nat) : State :=
  if s.kitLive k = false then s
  else
    let listed := ((List.range 256).filter (fun e => s.fb F.INT_OBS_VALID e 0 && unitInKit (s.f F.INT_OBS_UNIT e 0) k)).map
      (fun e => s.f F.INT_OBS_FROM_SUSPECT_FROM e 0) ++ (s.kit k).dueFrom.map (fun q => q.2 - 1)
    let suspect := listed.foldl min s.time
    let s := s.stopKit k
    let owners := (List.range 8).filter (fun p => s.ownsKit p k)
    let s := owners.foldl (fun s p =>
      if 2 ≤ s.f F.PAR_PREEMPT_STATUS_PHASE p 0 then s.setF F.PAR_PREEMPT_STATUS_KIT_LOST p 0 1 else s) s
    let s := match s.partOfKit k with
      | some p => s.setKit k (fun x => { x with lentTo := p + 1 })
      | none => s
    let s := if s.stage = stageReady ∨ s.stage = stageLost then s.editEpochs k else s
    let s := s.loseCrossing 3 (fun unit q => unitInKit unit k || (!q.rem && inKit k q.addr q.len))
    let s := (s.loseRequests k 3 (fun _ => true)).loseRecords (fun j r => decide (j = k) || decide (r.kit = k))
    let s := (s.kit k).taken.foldl (fun s x => s.poisonRow k x.tok Ev.ROUTER_RECORD_LOST) s
    let s := (s.loseHbm k).setKit k (fun x => { retired := true, map := x.map, lastFloor := x.lastFloor, bridgeDown := x.bridgeDown })
    let s := ((s.dropObs (fun u => unitInKit u k)).loseChecks (fun u => unitInKit u k)).setF F.HUB_IDENTITY_KITS 0 0
      (bitField 8 (fun i => s.kitLive i))
    let s := if s.stage = stageReady ∨ s.stage = stageLost then s.setUsed else s
    let s := { s with boot := { s.boot with norKits := nins s.boot.norKits k } }
    let s := s.log (srcKit k) Ev.KIT_RETIRED [k] none none true
    (s.taint none suspect ((List.range 156).map (unitDrum k))).checkService

-- ===== Drums and segments (R452, R453) =====

/-- The lowest-numbered free spare of a kit: in service and bound to no logical index. -/
def State.freeSpare (s : State) (k : Nat) : Option Nat :=
  (List.range 156).find? (fun d => !(s.drum k d).retired && (s.logical k d).isNone && decide ((s.drum k d).rebindFrom = 0))

/-- The drum is out of service: its retirement is recorded, and the taint of its suspect interval goes out. -/
def State.finishDrum (s : State) (k d : Nat) : State :=
  let from_ := mget 0 (s.kit k).dueFrom d - 1
  let s := (s.setKit k (fun x => { x with dueFrom := mdel x.dueFrom d })).setDrum k d (fun _ => { retired := true })
  let s := s.resetRegs k d
  let s := { s with boot := { s.boot with fusedDrums := s.boot.fusedDrums ++ [(k, d)] } }
  let pick := fun (u : Nat) => decide (u / 2 ^ 21 < 2) && decide (unitKit u = k) && decide (unitNum u = d)
  ((s.loseChecks pick).log (srcKit k) Ev.DRUM_RETIRED [] none (some (unitDrum k d))).taint (some (unitDrum k d)) from_ [unitDrum k d]

/-- Confirmed drums of a kit take effect, in confirmation order: the logical index is bound to the lowest free spare, which calibrates while
the state is copied; without a spare the kit is retired. -/
def State.applyDrums (s : State) (k : Nat) : State :=
  (s.kit k).dueDrums.foldl (fun s d =>
    if (s.kit k).retired then s
    else
      let s := s.setKit k (fun x => { x with dueDrums := x.dueDrums.erase d })
      match s.logical k d with
      | none => s.finishDrum k d
      | some n =>
        match s.freeSpare k with
        | none => s.retireKit k
        | some d' =>
          let s := s.setKit k (fun x => { x with map := mput 0 x.map n (if d' = n then 0 else d' + 1) })
          (s.setDrum k d (fun x => { x with retired := true, kicked := false })).setDrum k d'
            (fun x => { x with rebindFrom := d + 1, kicked := (s.drum k d).kicked, calibrating := true, forcedCalib := true })) s

/-- Confirmed segments of a kit switch to their redundant lanes; a second fault of one retires the kit. The answer is their number. -/
def State.applySegs (s : State) (k : Nat) : State × Nat :=
  (s.kit k).dueSegs.foldl (fun (q : State × Nat) g =>
    let s := q.1
    if (s.kit k).retired then q
    else if mget 0 (s.kit k).segFaults g ≠ 0 then (s.retireKit k, q.2)
    else
      let from_ := mget 0 (s.kit k).dueFrom (256 + g) - 1
      let s := s.setKit k (fun x => { x with dueSegs := x.dueSegs.erase g, segFaults := mupd 0 x.segFaults g (· + 1),
                                             dueFrom := mdel x.dueFrom (256 + g) })
      let s := { s with boot := { s.boot with fusedSegs := s.boot.fusedSegs ++ [(k, g)] } }
      let s := (s.loseChecks (fun u => decide (u = unitSeg k g))).log (srcKit k) Ev.SEGMENT_SWITCHED [] none (some (unitSeg k g))
      (s.taint (some (unitSeg k g)) from_ (writersOf (unitSeg k g)), q.2 + 1)) (s, 0)

/-- The kit runs no step and none is pending on it. -/
def State.kitIdle (s : State) (k : Nat) : Bool :=
  match s.partOfKit k with
  | none => true
  | some p => decide (s.stepState p = stIdle) && (s.part p).submitted.isNone

/-- What waits on a kit takes effect. -/
def State.applyDue (s : State) (k : Nat) : State := (s.applyDrums k).applySegs k |>.1

/-- At once when the kit is idle, else at its next step start. -/
def State.applyIdle (s : State) (k : Nat) : State := if s.kitIdle k then s.applyDue k else s

/-- A parcel that a codec unit was coding waits for another. -/
def Parcel.recode (k : Parcel) (c : Nat) : Parcel :=
  if k.stage = .coding ∧ k.unit = c + 1 then { k with stage := .codecWait, unit := 0 } else k

/-- Work of a retired codec unit goes to other units (R343): parcels are coded again from their start, decodes begin again. -/
def State.retireCodec (s : State) (c : Nat) : State :=
  let from_ := s.suspectOf (unitCodec c)
  let s := s.setInteg (fun x => { x with retired := nins x.retired (unitCodec c) })
  let s := s.setTrn (fun t => { t with
    encoders := mput 0 t.encoders c 0,
    parcels := t.parcels.map (fun q => (q.1, q.2.recode c)) })
  let s := { s with fab := { s.fab with parcels := s.fab.parcels.map (fun (q : Nat × OpenParcel) =>
    (q.1, { q.2 with units := q.2.units.filter (fun z => decide (z.2 ≠ c + 1) || nmem q.2.decoded z.1) })) } }
  let s := (s.loseChecks (fun u => decide (u = unitCodec c))).log (srcHub 0) Ev.CODEC_RETIRED [] none (some (unitCodec c))
  s.taint (some (unitCodec c)) from_ [unitCodec c]

/-- A 4 KiB block that the range of n bytes at a touches is one of bridge b's: bit [12] selects (R30). -/
def onBridge (b a n : Nat) : Bool := decide (a / 4096 % 2 = b) || decide (a / 4096 ≠ (a + n - 1) / 4096)

/-- Bridge b of kit k fails (R31). Every transfer, request and record that is not complete and of which a 4 KiB block crosses that bridge is in flight
on it; once the other has failed too, all of the kit's traffic is. [log 137: DESIGN CHOICE] -/
def State.failBridge (s : State) (k b : Nat) : State :=
  if s.kitLive k = false ∨ 2 ≤ b ∨ nmem (s.kit k).bridgeDown b = true then s
  else
    let alone := nmem (s.kit k).bridgeDown (1 - b)
    let s := s.setKit k (fun x => { x with bridgeDown := nins x.bridgeDown b })
    let s := s.log (srcKit k) Ev.BRIDGE_DEGRADED [] none (some (unitBridge k b))
    let on := fun (a n : Nat) => alone || onBridge b a n
    let s := s.loseCrossing 1 (fun unit q => (unitInKit unit k != (!q.rem && inKit k q.addr q.len)) && on q.addr q.len)
    let s := s.loseRequests k 1 (fun a => on a 1)
    let t := s
    let s := s.loseRecords (fun j r => (decide (j = k) != decide (r.kit = k)) && on (t.recordAddr r) r.len)
    if alone then s.retireKit k else s

/-- A unit is confirmed bad (R452): its entry is removed, and it is retired as Table 14.9 says. -/
def State.confirm (s : State) (unit : Nat) : State :=
  let from_ := s.suspectOf unit
  let s := (s.log (srcHub 8) Ev.UNIT_CONFIRMED [] none (some unit)).count F.INT_CONFIRMED_COUNT 0 0 1
  let k := unitKit unit
  let n := unitNum unit
  match unitKind unit with
  | 2 =>
    let s := (s.dropObs (fun u => decide (u = unit))).setKit k (fun x =>
      { x with dueSegs := if n ∈ x.dueSegs then x.dueSegs else x.dueSegs ++ [n], dueFrom := mput 0 x.dueFrom (256 + n) (from_ + 1) })
    s.applyIdle k
  | 3 => (s.retireCodec (bits unit 20 18)).dropObs (fun u => decide (u = unit))
  | 4 => (s.dropObs (fun u => decide (u = unit))).failBridge k n
  | _ =>
    let s := (s.dropObs (fun u => decide (u = unit))).setKit k (fun x =>
      { x with dueDrums := if n ∈ x.dueDrums then x.dueDrums else x.dueDrums ++ [n], dueFrom := mput 0 x.dueFrom n (from_ + 1) })
    s.applyIdle k

-- ===== The rebind of a drum (R453) =====

/-- The list that a rebind copies by: none when everything is copied. -/
def State.rebindList (s : State) (p : Nat) : State × Option (List LiveEntry) :=
  if s.fb F.PAR_LIVESET_VALID p 0 = false then (s, none)
  else
    let r := s.liveList p
    (r.1, r.2.map (applying false))

/-- The regions of logical drum n that a rebind copies, as slot offset and length. -/
def rebindRegions (l : Option (List LiveEntry)) (k n : Nat) : List (Nat × Nat) :=
  match l with
  | none => [(0, 0x600000), (0x800000, 0x400000)]
  | some l => ((liveRegions l k).filter (fun q => decide (q.1 = n))).map (fun q => q.2)

/-- Bytes that a rebind copies. -/
def rebindBytes (l : Option (List LiveEntry)) (k n : Nat) : Nat :=
  512 + 256 * malletBytes (ceilings (l.getD []) k n) + (rebindRegions l k n).foldl (fun t q => t + q.2) 0

/-- Copy the state of the old drum to the spare bound to logical drum n. -/
def State.rebindCopy (s : State) (k n : Nat) (l : Option (List LiveEntry)) : State :=
  let d := s.phys k n
  let o := (s.drum k d).rebindFrom - 1
  let s := s.setDrum k d (fun x => (s.drum k o).carry x)
  let s := ((s.setRg .DRM_INBOX k d (s.rg .DRM_INBOX k o)).setRg .DRM_STEP_CONFIG k d (s.rg .DRM_STEP_CONFIG k o)).setRg
    .DRM_LATE_STALL k d (s.rg .DRM_LATE_STALL k o)
  let c := ceilings (l.getD []) k n
  let s := (List.range 256).foldl (fun s m => s.setMallet k d m (fun _ => (s.mallet k o m).within c)) ((s.resetRegs k d).zeroDrum k d)
  (rebindRegions l k n).foldl (fun s q =>
    let r := s.readMem (unitDrum k o) (slotAddr k o q.1) q.2
    r.1.writeAll (unitDrum k d) (slotAddr k d q.1) q.2 r.2) s

/-- The kit's partition is between a save and its restore: no copy is made, because the restore loads the image (R453). -/
def State.imagePending (s : State) (k : Nat) : Bool :=
  match s.partOfKit k with
  | some p => decide (2 ≤ s.f F.PAR_PREEMPT_STATUS_PHASE p 0)
  | none => false

/-- Slots whose bit belongs in the cancel sets of partition p (R255): cancelling, or cancelled and free since its last step start. -/
def State.cancelledSlots (s : State) (p : Nat) : NSet :=
  (span (s.f F.SRV_PART_SERVE_SLOT_BASE p 0) (s.f F.SRV_PART_SERVE_SLOT_COUNT p 0)).filter (fun n =>
    decide (s.slState n = slCancelling) || (nmem s.serve.freed n && decide (s.slLast n = 5)))

/-- The copy to the spare bound to logical drum n is complete: the old drum retires. [log 79: DEDUCED] -/
def State.finishRebind (s : State) (k n : Nat) : State :=
  let d := s.phys k n
  let x := s.drum k d
  let p := (s.partOfKit k).getD 0
  let q := s.rebindList p
  let s := if s.imagePending k then s else q.1.rebindCopy k n q.2
  let s := s.setDrum k d (fun y => { y with rebindFrom := 0, kicked := x.kicked, calibrating := false, forcedCalib := false,
                                            cancel := s.cancelledSlots p })
  s.finishDrum k (x.rebindFrom - 1)

/-- DRUM_REBIND_DONE: the copy to the spare bound to logical drum n and its calibration are complete, and a pending step latches. [log 79: DEDUCED] -/
def execDrumRebindDone (k n : Nat) (s : State) : Answer :=
  let d := s.phys k n
  let x := s.drum k d
  if s.kitLive k = false ∨ 150 ≤ n ∨ x.rebindFrom = 0 ∨ x.calibrating = true then .next s
  else
    let p := (s.partOfKit k).getD 0
    let s := s.finishRebind k n
    .next (if x.kicked && decide (s.stepState p = stRunning) && !s.mustForce k d then s.latchDrum k d else s)

-- ===== Bridges (R31) =====

/-- BRIDGE_LINK_FAIL: bridge b of kit k fails its link check. -/
def execBridgeLinkFail (k b : Nat) (s : State) : Answer := .next (s.failBridge k b)

end Sys2Proof.Machine
end

