-- ==== Sys2Proof/Machine/EventLog.lean ====
section
/-!
DEFINITION. Sys2Proof/Machine/EventLog.lean: the event log: acceptance, the banks, the spill area and the reading window
(16_events_and_counters.md, R488 to R500).
-/
namespace Sys2Proof.Machine

def evtUnit : Nat := unitHub 5

-- ===== Records (R488, R491) =====

/-- The items of record i of a chain of n records; a list cut at 64 records ends in all ones. [log 72: DEDUCED; 148: DESIGN CHOICE] -/
def EvRec.detail (r : EvRec) (i n : Nat) : List Nat :=
  (List.range 4).map (fun j =>
    if decide (i + 1 = n) && decide (4 * n < r.items.length) && decide (j = 3) then 2 ^ 64 - 1 else r.items.getD (4 * i + j) 0)

/-- Word 2 of record i of a chain of n records (Table 16.1). -/
def EvRec.word2 (r : EvRec) (i n : Nat) (drops attn : Bool) : Nat :=
  2 ^ 56 * r.cat + 2 ^ 48 * r.code + b2n drops * 2 ^ 47 + b2n attn * 2 ^ 46 + b2n r.part.isSome * 2 ^ 45 + 2 ^ 42 * r.part.getD 0 +
    2 ^ 39 * r.ctx + b2n (decide (i ≠ 0)) * 2 ^ 38 + (n - 1 - i) * 2 ^ 32 + b2n r.unit.isSome * 2 ^ 24 + r.unit.getD 0 % 2 ^ 24

/-- Record i of a chain of n records as 64 bytes. -/
def EvRec.image (r : EvRec) (i n seq time : Nat) (drops attn : Bool) : Nat :=
  let d := r.detail i n
  seq % 2 ^ 64 + 2 ^ 64 * time + r.word2 i n drops attn * 2 ^ 128 + (if r.part.isSome then r.step else 0) * 2 ^ 192 +
    d.getD 0 0 % 2 ^ 64 * 2 ^ 256 + d.getD 1 0 % 2 ^ 64 * 2 ^ 320 + d.getD 2 0 % 2 ^ 64 * 2 ^ 384 + d.getD 3 0 % 2 ^ 64 * 2 ^ 448

-- ===== Banks and spill (R494 to R500) =====

def bankSlots : Nat := 8192
/-- Address of record seq in bank b. -/
def bankAddr (b seq : Nat) : Nat := 0x0E0000800000 + 0x80000 * b + 64 * (seq % bankSlots)
def State.bankLost (s : State) (b : Nat) : Bool :=
  if b = 0 then s.fb F.EVT_STATUS_BANK0_LOST 0 0 else s.fb F.EVT_STATUS_BANK1_LOST 0 0
def State.banksLost (s : State) : Bool := s.bankLost 0 && s.bankLost 1
def State.spilling (s : State) : Bool := s.fb F.EVT_STATUS_SPILL_ACTIVE 0 0
/-- Records that the spill area holds. -/
def State.spillSlots (s : State) : Nat := 16384 * s.f F.EVT_SPILL_CFG_SIZE 0 0
/-- Address of record seq in the spill area. -/
def State.spillAddr (s : State) (seq : Nat) : Nat := 65536 * s.f F.EVT_SPILL_CFG_BASE 0 0 + 64 * (seq % s.spillSlots)
def State.evtHead (s : State) : Nat := (s.rg .EVT_HEAD 0 0).toNat
def State.spillPtr (s : State) : Nat := (s.rg .EVT_SPILL_PTR 0 0).toNat

/-- The record with this number leaves the last place that held it: it counts when software has not consumed it (R495). -/
def State.leaves (s : State) (seq : Nat) : State :=
  if (s.rg .EVT_READ 0 0).toNat ≤ seq then s.count F.EVT_OVERWRITES_COUNT 0 0 1 else s

/-- Write a record to the spill area. -/
def State.spillWrite (s : State) (seq v : Nat) : State :=
  let s := s.writeAll evtUnit (s.spillAddr seq) 64 { v := v, p := 0 }
  let s := if s.spillSlots < seq then s.leaves (seq - s.spillSlots) else s
  s.setRg .EVT_SPILL_PTR 0 0 (BitVec.ofNat 64 (seq + 1))

/-- Write record seq to each bank that is not lost; what it overwrites is gone, unless the spill area holds it. -/
def State.bankWrite (s : State) (seq v : Nat) : State :=
  let s := [0, 1].foldl (fun s b => if s.bankLost b then s else s.writeAll evtUnit (bankAddr b seq) 64 { v := v, p := 0 }) s
  if seq ≤ bankSlots then s
  else
    let old := seq - bankSlots
    if s.spilling = false then s.leaves old
    else if s.spillPtr ≤ old then (s.count F.EVT_LOST_COUNT 0 0 1).setRg .EVT_SPILL_PTR 0 0 (BitVec.ofNat 64 (old + 1))
    else s

/-- Attention for a record: CAUSE_EVENT, with the record's number when the bit was 0 (R546). -/
def State.evtAttn (s : State) (seq : Nat) : State :=
  let s := if s.fb F.HUB_STATUS_CAUSE_EVENT 0 0 then s else s.setF F.HUB_STATUS_EVENT_SEQ 0 0 (seq % 2 ^ 32)
  s.cause F.HUB_STATUS_CAUSE_EVENT

/-- The log accepts an event (R491 to R493). With both banks lost its records go to the spill area, or are counted. [log 88: DEDUCED] -/
def State.acceptEv (s : State) (r : EvRec) (drops : Bool) : State :=
  let n := r.records
  let attn := r.attn || bit (s.f F.EVT_ATTN_MASK_CATEGORIES 0 0) r.cat
  let head := s.evtHead
  let s := if s.banksLost && !s.spilling then s.count F.EVT_LOST_COUNT 0 0 1
    else
      let s := (List.range n).foldl (fun s i =>
        let v := r.image i n (head + i) s.time drops attn
        if s.banksLost then s.spillWrite (head + i) v else s.bankWrite (head + i) v) s
      s.setRg .EVT_HEAD 0 0 (BitVec.ofNat 64 (head + n))
  if attn then s.evtAttn head else s

/-- The source whose queue is next in turn: the first after the one taken last that holds an event (R492). [log 149: DESIGN CHOICE] -/
def EvLog.next (e : EvLog) : Option Nat :=
  match e.queues.find? (fun q => decide (e.last ≤ q.1)) with
  | some q => some q.1
  | none => e.queues.head?.map Prod.fst

/-- The event log with the first event of a source's queue taken at time t: its input is busy for 10 ns for each record. -/
def EvLog.take (e : EvLog) (src t : Nat) (r : EvRec) (rest : List EvRec) : EvLog :=
  { e with queues := mput [] e.queues src rest, drops := ndel e.drops src, last := src + 1, free := t + 10 * r.records }

/-- EVENT_ACCEPT: the log takes the oldest event of the source in turn, at most one record per 10 ns (R492). It accepts records once the fill is
done (R511). -/
def execEventAccept (src : Nat) (s : State) : Answer :=
  match mget [] s.ev.queues src with
  | [] => .next s
  | r :: rest =>
    if s.ev.running = false ∨ s.ev.next ≠ some src ∨ s.time < s.ev.free then .next s
    else .next (State.acceptEv { s with ev := s.ev.take src s.time r rest } r (nmem s.ev.drops src))

/-- A record as a place holds it: whole and unpoisoned. -/
def State.heldAt (s : State) (a seq : Nat) : State × Option Nat :=
  let r := s.readMem evtUnit a 64
  if r.2.p = 0 ∧ r.2.v % 2 ^ 64 = seq then (r.1, some r.2.v) else (r.1, none)

/-- Record seq from the banks. -/
def State.fromBanks (s : State) (seq : Nat) : State × Option (Nat × Nat) :=
  [0, 1].foldl (fun (q : State × Option (Nat × Nat)) b =>
    if q.2.isSome || q.1.bankLost b then q
    else
      let r := q.1.heldAt (bankAddr b seq) seq
      (r.1, r.2.map (fun v => (b, v)))) (s, none)

/-- EVENT_SPILL: the next record is copied to the spill area, in order. One that no bank holds whole is copied as bank 0 has it. -/
def execEventSpill (s : State) : Answer :=
  let seq := s.spillPtr
  if s.spilling = false ∨ s.banksLost = true ∨ s.evtHead ≤ seq ∨ s.asleep (s.spillAddr seq) = true then .next s
  else
    let r := s.fromBanks seq
    let b := if r.1.bankLost 0 then 1 else 0
    let d : State × Data := match r.2 with
      | some q => (r.1, { v := q.2, p := 0 })
      | none => r.1.readMem evtUnit (bankAddr b seq) 64
    let s := d.1.writeAll evtUnit (d.1.spillAddr seq) 64 d.2
    let s := if s.spillSlots < seq then s.leaves (seq - s.spillSlots) else s
    .next (s.setRg .EVT_SPILL_PTR 0 0 (BitVec.ofNat 64 (seq + 1)))

/-- The oldest record held anywhere. -/
def State.evtOldest (s : State) : Nat :=
  let banks := if s.banksLost then s.evtHead else max 1 (s.evtHead - bankSlots)
  if s.spilling then min banks (max 1 (s.spillPtr - s.spillSlots)) else banks

/-- EVT_WINDOW_LATCH: a read of EVT_WINDOW[0] latches the record that EVT_READ names, from bank 0, bank 1 or the spill area. -/
def execEvtWindowLatch (_i : Nat) (s : State) : Answer :=
  let seq := (s.rg .EVT_READ 0 0).toNat
  let r := s.fromBanks seq
  let q : State × Option (Nat × Nat) := match r.2 with
    | some x => (r.1, some (x.1 + 1, x.2))
    | none =>
      if s.spilling = false ∨ s.spillSlots = 0 then (r.1, none)
      else
        let h := r.1.heldAt (r.1.spillAddr seq) seq
        (h.1, h.2.map (fun v => (3, v)))
  let v := (q.2.map Prod.snd).getD 0
  let s := (List.range 8).foldl (fun s w => s.setRg .EVT_WINDOW w 0 (BitVec.ofNat 64 (v / 2 ^ (64 * w)))) q.1
  let s := (s.setF F.EVT_WINDOW_SRC_SOURCE 0 0 ((q.2.map Prod.fst).getD 0)).setB F.EVT_WINDOW_SRC_OLDER 0 0
    (q.2.isNone && decide (seq < s.evtOldest))
  .next { s with out := { s.out with rdata := v % 2 ^ 64, ep := false } }

-- ===== The loss of a bank (R499, R500) =====

/-- Bank b is lost for a cause: the other bank goes on alone, or the log goes to the spill area and service ends. [log 88: DEDUCED] -/
def State.loseBank (s : State) (b cause : Nat) : State :=
  if s.bankLost b then s
  else
    let s := s.setF (if b = 0 then F.EVT_STATUS_BANK0_LOST else F.EVT_STATUS_BANK1_LOST) 0 0 1
    if s.banksLost = false then s.log (srcHub 5) Ev.LOG_MIRROR_LOST [cause] none (some evtUnit)
    else
      let n := min bankSlots (s.evtHead - s.spillPtr)
      let s := (s.count F.EVT_LOST_COUNT 0 0 n).cause F.HUB_STATUS_CAUSE_LOG_LOST
      (s.setRg .EVT_SPILL_PTR 0 0 (BitVec.ofNat 64 s.evtHead)).checkService

/-- LOG_BANK_LOST: 16 slots of a bank have been found uncorrectable within a lap of the hub scrubber (2), or a write to it was not
acknowledged (3). [log 88: DEDUCED] -/
def execLogBankLost (bank cause : Nat) (s : State) : Answer :=
  let bad := if bank = 0 then s.ev.bad0 else s.ev.bad1
  if 2 ≤ bank ∨ (cause ≠ 2 ∧ cause ≠ 3) ∨ (cause = 2 ∧ bad.length < 16) then .next s
  else .next (s.loseBank bank cause)

end Sys2Proof.Machine
end

