-- ==== Sys2Proof/Machine/HostOps.lean ====
section
/-!
DEFINITION. Sys2Proof/Machine/HostOps.lean: the host port's completions and its reset (18_host_port_and_control_map.md, R536 to R551).
-/
namespace Sys2Proof.Machine

def State.setHost (s : State) (f : HostPort → HostPort) : State := { s with host := f s.host }

/-- A completion is gone: an unsolicited record has failed under R244, and an INSTALL, BOOT_WRITE or RECOVER has ended. -/
def State.dropCompl (s : State) (c : HostCompl) : State :=
  let s := if c.nor then s.setHost (fun h => { h with norBusy := false }) else s
  if c.slot = 0 then s else s.respDone (c.slot - 1) false

/-- Queue q is disabled: what waits for its CQ is dropped, and so will be the completions of the commands already taken. -/
def State.stopQueue (s : State) (q : Nat) : State :=
  let cs := mget [] s.host.waiting q
  let s := s.setHost (fun h => { h with
    waiting := mput [] h.waiting q [],
    taken := mput [] h.taken q ((mget [] h.taken q).map (fun (c : HostCmd) => { c with drop := true })) })
  cs.foldl (fun s c => s.dropCompl c) s

/-- Completions that a reset of the port drops. -/
def State.portDrops (s : State) : Nat :=
  (List.range 16).foldl (fun n q => n + (mget [] s.host.waiting q).length + (mget [] s.host.taken q).length) 0

/-- The registers of the host port. -/
def isPortReg (r : RegName) : Bool :=
  decide (r = .HUB_HOST_WINDOW) || decide (r = .HUB_HQ_CFG) || decide (r = .HUB_HQ_SQ_BASE) || decide (r = .HUB_HQ_CQ_BASE) ||
    decide (r = .HUB_HQ_STATUS) || decide (r = .HUB_HQ_SQ_TAIL) || decide (r = .HUB_HQ_CQ_HEAD)

/-- The name of the register at an offset satisfies a test. -/
def regIs (f : RegName → Bool) (off : Nat) : Bool := (regAt off).any (fun q => f q.1)

/-- PERST#, a Function Level Reset or link-down: the HUB_HQ_ registers and HUB_HOST_WINDOW return to reset, and every queue stops (R551). -/
def State.portReset (s : State) : State :=
  let s : State := { s with regs := s.regs.filter (fun q => !regIs isPortReg q.1) }
  ((List.range 16).foldl (fun s q => s.stopQueue q) s).setHost (fun h => { h with trained := false })

/-- HOST_PERST: PERST# or a Function Level Reset. -/
def execHostPerst (s : State) : Answer :=
  .next (s.portReset.log (srcHub 9) Ev.HOST_PERST [s.portDrops])

/-- HOST_LINK_DOWN: the PCIe link has gone down. -/
def execHostLinkDown (s : State) : Answer :=
  if s.host.trained = false then .next s else .next (s.portReset.log (srcHub 9) Ev.HOST_LINK_DOWN [s.portDrops])

/-- HOST_PORT_TRAINED: the PCIe link has trained, from the start of the ROM stage on (R511). -/
def execHostPortTrained (s : State) : Answer :=
  if s.power.gone || s.boot.resetHeld then .next s else .next (s.setHost (fun h => { h with trained := true }))

end Sys2Proof.Machine
end

