-- ==== Sys2Proof/Machine/Preempt.lean ====
section
/-!
DEFINITION. Sys2Proof/Machine/Preempt.lean: step starts, regulator windows and pre-emption (04_execution_and_timing.md, R154;
07_serving_engine.md, R246; 13_partitions_and_preemption.md, R407 to R429).
-/
namespace Sys2Proof.Machine

open Sys2Proof (Word)

-- ===== Step starts (R154, R246, R449, R452) =====

/-- A unit test: drum d of kit k or one of its mallets. -/
def onDrum (k d u : Nat) : Bool := decide (u / 2 ^ 21 < 2) && decide (unitKit u = k) && decide (unitNum u = d)

/-- A forced check holds the drum's latch: one of the drum, or of a segment of its kit (R445). -/
def State.checkHolds (s : State) (k d : Nat) : Bool :=
  s.integ.checks.any (fun q => q.2.running && q.2.forced && q.2.on (fun u => onDrum k d u || (decide (unitKind u = 2) && decide (unitKit u = k))))

/-- A step start abandons the checks of a drum, which start again later (R449). [log 76: DEDUCED] -/
def State.abandonDrum (s : State) (k d : Nat) : State :=
  s.setInteg (fun x => { x with checks := x.checks.map (fun (q : Nat × SCheck) =>
    (q.1, if q.2.on (onDrum k d) then { q.2 with running := false, refereeing := false } else q.2)) })

/-- ns that the copy to a spare takes at the tempo of its drum (R453). -/
def State.rebindNs (s : State) (p k n : Nat) : Nat :=
  let t := (s.drum k (s.phys k n)).tempo
  let t := if t = 0 then s.kitFloor k else t
  (rebindBytes (s.rebindList p).2 k n / 64 * 10000 + t - 1) / t + 2000

/-- A step start, after what has waited for one has taken effect on the kits; D grows by what that costs. -/
def State.beginWith (s : State) (p : Nat) (start : State → State) : State :=
  let s := (s.kitsOf p).foldl (fun s k => s.applyDrums k) s
  let q := (s.kitsOf p).foldl (fun (q : State × Nat) k =>
    let r := q.1.applySegs k
    (r.1, q.2 + if r.2 = 0 then 0 else 2000)) (s, 0)
  let s := start q.1
  let ns := (s.kitsOf p).foldl (fun t k => (List.range 150).foldl (fun t n =>
    if (s.drum k (s.phys k n)).rebindFrom ≠ 0 ∧ s.imagePending k = false then t + s.rebindNs p k n else t) t) q.2
  if ns = 0 then s else s.extendD p ns

/-- The start of a submitted step. -/
def State.beginStep (s : State) (p : Nat) : State := s.beginWith p (fun s => s.startStep p)

-- ===== Pre-emption: evaluation (R418 to R422) =====

def phNone : Nat := 0
def phWaiting : Nat := 1
def phSaving : Nat := 2
def phSaved : Nat := 3
def phLent : Nat := 4
def phReturning : Nat := 5
def phRestoring : Nat := 6

def preOk : Nat := 0
def preNospace : Nat := 1
def preWaiting : Nat := 2
def preBadState : Nat := 3
def preBadLiveset : Nat := 4
def preStaging : Nat := 5
def preNested : Nat := 6
def preBadImage : Nat := 7
def preKitLost : Nat := 8
def preBadOp : Nat := 10
def preExport : Nat := 11

def State.phase (s : State) (p : Nat) : Nat := s.f F.PAR_PREEMPT_STATUS_PHASE p 0
def State.setPhase (s : State) (p n : Nat) : State := s.setF F.PAR_PREEMPT_STATUS_PHASE p 0 n
def State.setPre (s : State) (p : Nat) (f : Preempt → Preempt) : State := s.setPart p (fun x => { x with pre := f x.pre })
/-- The guest that holds or is to hold the kits. -/
def State.guestOf (s : State) (p : Nat) : Nat := s.f F.PAR_PREEMPT_STATUS_GUEST p 0

/-- Kits of a partition's KIT_MASK in service. -/
def State.ownKits (s : State) (p : Nat) : List Nat := (List.range 8).filter (fun k => s.kitLive k && s.ownsKit p k)

/-- The partition exports a span of tier SCRATCH or SKIN (check 5 of R422). -/
def State.exportsSram (s : State) (p : Nat) : Bool :=
  (List.range 256).any (fun e => s.fb F.MEM_EXPORT_CTL_VALID e 0 && decide (s.f F.MEM_EXPORT_CTL_KIND e 0 = 0) &&
    decide (s.f F.MEM_EXPORT_CTL_PARTITION e 0 = p) &&
    (match s.spanTier p (s.f F.MEM_EXPORT_CTL_SPAN e 0) with | .scratch => true | .skin => true | _ => false))

/-- What an evaluation of a save finds: the code of checks 5 to 8, the largest image, and the list. -/
structure SaveEval where
  code : Nat := 0
  bytes : Nat := 0
  list : List LiveEntry := []
deriving DecidableEq, Repr

/-- Evaluate a save of partition p (R418 to R422). [log 75: DEDUCED] -/
def State.evalSave (s : State) (p : Nat) (mid : Bool) : State × SaveEval :=
  if s.exportsSram p then (s, { code := preExport })
  else
    let r := s.liveList p
    match r.2 with
    | none => (r.1, { code := preBadLiveset })
    | some l =>
      let s := r.1
      let ks := s.ownKits p
      let n := ks.foldl (fun m k => max m (s.imageBytes k l mid)) 0
      let fits := ks.all (fun k => s.fb F.PAR_SAVE_VALID p k && decide (s.imageBytes k l mid ≤ 65536 * s.f F.PAR_SAVE_LENGTH p k))
      (s, { code := if !ks.all (fun k => s.stagingCovered k (applying mid l)) then preStaging else if fits then preOk else preNospace,
            bytes := n, list := l })

/-- Answer a command of core c. -/
def State.preAnswer (s : State) (c code bytes : Nat) : State :=
  ((s.setF F.PAR_PREEMPT_RESULT_DONE c 0 1).setF F.PAR_PREEMPT_RESULT_CODE c 0 code).setF F.PAR_PREEMPT_RESULT_IMAGE_BYTES c 0 bytes

/-- A command word of core c: its form is checked, then that PARTITION is no guest (R422); act answers the state, the code and IMAGE_BYTES. [log 73: DESIGN CHOICE] -/
def State.preCommand (s : State) (c : Nat) (w : Word) (act : State → Nat → State × Nat × Nat) : State :=
  if s.fb F.PAR_PREEMPT_RESULT_DONE c 0 = false then s.log (srcCore c) Ev.PREEMPT_OVERRUN [] none (some (unitCore c))
  else if rsvSet (RegName.fields .PAR_PREEMPT) w then s.preAnswer c preBadOp 0
  else
    let p := F.PAR_PREEMPT_PARTITION.of w
    if s.fb F.PAR_CONFIG_GUEST p 0 then s.preAnswer c preNested 0
    else
      let r := act s p
      r.1.preAnswer c r.2.1 r.2.2

/-- The row of an OP of PAR_PREEMPT[c]. -/
def State.preRow (s : State) (op c : Nat) (w : Word) (act : State → Nat → State × Nat × Nat) : State :=
  if 8 ≤ c ∨ s.canWrite c = false ∨ F.PAR_PREEMPT_OP.of w ≠ op then s else (s.forward c .PAR_PREEMPT c 0 w).preCommand c w act

-- ===== Save (R423, R424) =====

/-- A stopped context keeps a wait at a barrier in which its arrival has counted; any other wait is abandoned (R147, R166). -/
def abandonWait (c : Ctx) : Ctx :=
  match c.wait with
  | .gong _ _ true => c
  | _ => { c with wait := .none }

/-- Loads of the kit's contexts. -/
def State.kitLoads (s : State) (k : Nat) : List Nat :=
  (s.xfers.filter (fun q => match q.2.kind with
    | .load u _ => decide ((ctxOfKey u).kit = k)
    | _ => false)).map Prod.fst

/-- Every drum of a kit stops for a save: loads and waits are abandoned, merge buffers flushed (R436), polls of prefetch lists end. -/
def State.haltKit (s : State) (k : Nat) : State :=
  let s := (s.kitLoads k).foldl (fun s x => s.abandonXfer x) s
  let s := s.mapCtx k (fun _ c => abandonWait c)
  (List.range 156).foldl (fun s d =>
    let s := s.flushMerge k d (fun _ => true)
    match (s.drum k d).pf.poll with
    | 0 => s
    | x + 1 => (s.abandonXfer x).setDrum k d (fun y => { y with pf := { y.pf with poll := 0 } })) s

/-- Enter SAVING. -/
def State.enterSaving (s : State) (p : Nat) (mid : Bool) (bytes : Nat) : State :=
  let s := ((s.setStep p stSaved).setPhase p phSaving).setF F.PAR_PREEMPT_STATUS_IMAGE_BYTES p 0 bytes
  let s := (s.ownKits p).foldl (fun s k => s.haltKit k) s
  (s.suspendEntries p).setPre p (fun x => { x with mid := mid, since := s.time, imaged := false, abandon := false })

/-- PREEMPT_SAVE. [log 73: DESIGN CHOICE] -/
def execPreemptSave (c : Nat) (w : Word) (s : State) : Answer :=
  .next (s.preRow 1 c w (fun s p =>
    let lend := decide (F.PAR_PREEMPT_LEND.of w = 1)
    let g := F.PAR_PREEMPT_GUEST.of w
    let guestOk := s.fb F.PAR_CONFIG_ENABLE g 0 && s.fb F.PAR_CONFIG_GUEST g 0 && decide (s.f F.PAR_CONFIG_HOST g 0 = p) && decide (s.stepState g = stIdle)
    if s.phase p ≠ phNone ∨ s.fb F.PAR_CONFIG_ENABLE p 0 = false ∨ s.isHeld p = true ∨ (lend && !guestOk) = true then (s, preBadState, 0)
    else
      let mid := decide (s.stepState p = stRunning)
      let r := s.evalSave p mid
      let v := r.2
      let hold := fun (s : State) (ph : Nat) =>
        (((s.setPhase p ph).setF F.PAR_PREEMPT_STATUS_GUEST p 0 g).setF F.PAR_PREEMPT_STATUS_KIT_LOST p 0 0).setF F.PAR_PREEMPT_STATUS_IMAGE_BYTES p 0 v.bytes
          |>.setPre p (fun x => { x with lend := lend })
      if v.code ≠ preOk ∧ v.code ≠ preNospace then (r.1, v.code, v.bytes)
      else if mid = false then (hold r.1 phWaiting, preOk, v.bytes)
      else if v.code = preOk then ((hold r.1 phSaving).enterSaving p true v.bytes, preOk, v.bytes)
      else if F.PAR_PREEMPT_WAIT.of w = 1 then (hold r.1 phWaiting, preWaiting, v.bytes)
      else (r.1, preNospace, v.bytes)))

/-- A step start in WAITING whose every drum has latched: its step is saved at the boundary before a context issues, or runs (R423). -/
def State.settleBoundary (s : State) (p : Nat) : State :=
  if (s.part p).pre.boundary = false ∨ (s.kitsOf p).any (fun k => (s.activeDrums k).any (fun d => (s.drum k d).kicked)) = true then s
  else
    let r := (s.setPre p (fun x => { x with boundary := false })).evalSave p false
    if r.2.code = preOk then r.1.enterSaving p false r.2.bytes
    else (r.1.setPhase p phNone).log (srcHub 1) Ev.PREEMPT_NOSPACE [] (some p)

/-- STEP_START: the step starts; that of a partition in WAITING issues nothing before its save has been evaluated (R423). -/
def execStepStart (p : Nat) (s : State) : Answer :=
  if 8 ≤ p ∨ s.startable p = false then .next s
  else if s.phase p = phNone then .next (s.beginStep p)
  else if s.phase p ≠ phWaiting then .next s
  else .next (((s.beginStep p).setPre p (fun x => { x with boundary := true })).settleBoundary p)

/-- DRUM_STEP_START: the drum latches, when nothing forced delays it. [log 29: DEDUCED] -/
def execDrumStepStart (k d : Nat) (s : State) : Answer :=
  let x := s.drum k d
  let p := (s.partOfKit k).getD 0
  if s.kitLive k = false ∨ 156 ≤ d ∨ x.kicked = false ∨ s.stepState p ≠ stRunning ∨ (x.calibrating && x.forcedCalib) = true ∨
      s.mustForce k d = true ∨ x.rebindFrom ≠ 0 ∨ s.checkHolds k d = true ∨ s.halted = true then .next s
  else .next (((s.abandonDrum k d).latchDrum k d).settleBoundary p)

/-- The context of a request that its issuer still expects. -/
def Issuer.ctx (i : Issuer) : Option Nat :=
  match i with
  | .posted u => some u
  | .fenceCtx u => some u
  | _ => none

/-- A transit entry whose TRIG gave an arrival flag of a context of kit k has not completed (R321). -/
def State.flaggedOn (s : State) (k : Nat) : Bool :=
  s.trn.entries.any (fun e => decide (e.st ≠ 4) && e.flag.any (fun q => decide ((ctxOfKey q.1).kit = k)))

/-- The drain set of kit k is done (R195, R424): no asynchronous or prefetch transfer, router token, record to another device, abandoned load,
flagged transit entry or posted request of its contexts is outstanding. -/
def State.kitDrained (s : State) (k : Nat) : Bool :=
  s.xfers.all (fun q => !(q.2.live && (unitInKit q.2.unit k) && !(match q.2.kind with | .append _ => true | _ => false))) &&
    (s.kit k).presented.isEmpty && (s.kit k).taken.isEmpty && (s.kit k).records.isEmpty &&
    !s.flaggedOn k && s.fab.tags.all (fun t => decide (t.2.st ≠ .out) || (match t.2.issuer with
      | .routerRec k' _ _ _ => decide (k' ≠ k)
      | i => match i.ctx with
        | some u => decide ((ctxOfKey u).kit ≠ k)
        | none => true))

/-- A parcel in flight has its source or destination in a drum slot of kit k. -/
def State.parcelOnSlots (s : State) (k : Nat) : Bool :=
  s.trn.parcels.any (fun q => q.2.inFlight && (match s.entry q.2.part q.2.queue q.2.seq with
    | some e => (s.srcPieces e.desc q.2 ++ s.dstPieces e.desc q.2).any (fun x =>
        !x.2.rem && (drumOfAddr x.2.addr).any (fun y => decide (y.1 = k)))
    | none => false))

/-- PREEMPT_DRAIN_DONE: the drain set is done, and each kit streams its image; its skin and scratch are wiped behind the stream. Entries that
flagged ones had kept ACTIVE are suspended first (R321). [log 76: DEDUCED] -/
def execPreemptDrainDone (p : Nat) (s : State) : Answer :=
  let ks := s.ownKits p
  if 8 ≤ p ∨ s.phase p ≠ phSaving ∨ (s.part p).pre.imaged = true then .next s
  else
    let s := s.suspendEntries p
    if ks.any (fun k => !s.kitDrained k || s.parcelOnSlots k) = true then .next s
    else
    let r := s.liveList p
    let s := ks.foldl (fun s k =>
      let g := s.imageOf p k (r.2.getD []) (s.part p).pre.mid
      let s := { (s.writeImage p k g) with saves := mput {} s.saves (p * 8 + k) g }
      (List.range 156).foldl (fun s d => s.zeroDrum k d) s) r.1
    .next (s.setPre p (fun x => { x with imaged := true }))

-- ===== Wipe, lending and return (R425) =====

/-- The wipe of a kit: zeros in skin and scratch, registers at reset, flags, cancel sets, inboxes, router counts and pages cleared. -/
def State.wipeKit (s : State) (k : Nat) : State :=
  let s := (List.range 156).foldl (fun s d =>
    ((s.zeroDrum k d).resetRegs k d).setDrum k d (fun x => { (({} : Drum).carry x) with cancel := [], merge := [] })) s
  s.setKit k (fun x => { x with expertCount := [], streamLogged := false, presented := [], taken := [], records := [], pages := [] })

/-- PREEMPT_SAVE_DONE: every image is written; the partition is SAVED, or its kits are wiped and lent. -/
def execPreemptSaveDone (p : Nat) (s : State) : Answer :=
  let x := (s.part p).pre
  if 8 ≤ p ∨ s.phase p ≠ phSaving ∨ x.imaged = false then .next s
  else
    let s := s.setF F.PAR_PREEMPT_STATUS_SAVE_US p 0 (min 0x1FFFF ((s.time - x.since) / 1000))
    let s := s.log (srcHub 1) Ev.PREEMPT_SAVED [] (some p)
    if x.lend then
      .next (((s.ownKits p).foldl (fun s k => (s.wipeKit k).setKit k (fun y => { y with lentTo := s.guestOf p + 1 })) s).setPhase p phLent)
    else .next (s.setPhase p phSaved)

/-- The lent kits go back: the return begins. -/
def State.beginReturn (s : State) (p : Nat) (abandon : Bool) : State :=
  let s := (s.ownKits p).foldl (fun s k => s.setKit k (fun x => { x with lentTo := 0 })) s
  (s.setPhase p phReturning).setPre p (fun x => { x with abandon := abandon })

/-- PREEMPT_RETURN_DONE: the wipe and the discard of the lend ranges are done; what the guest still had in flight has ended. [log 76: DEDUCED] -/
def execPreemptReturnDone (p : Nat) (s : State) : Answer :=
  let ks := s.ownKits p
  if 8 ≤ p ∨ s.phase p ≠ phReturning ∨ ks.any (fun k => !s.kitDrained k) = true then .next s
  else
    let s := ks.foldl (fun s k =>
      let s := s.wipeKit k
      if s.fb F.PAR_LEND_VALID p k then
        s.discardPages ((hbmKit * k + 65536 * s.f F.PAR_LEND_BASE p k) / 4096) (s.f F.PAR_LEND_COUNT p k * 16)
      else s) s
    .next (s.setPhase p phRestoring)

-- ===== Restore (R426, R428) =====

/-- Every kit's image can be restored. -/
def State.imagesOk (s : State) (p : Nat) : State × Bool :=
  (s.ownKits p).foldl (fun (q : State × Bool) k =>
    let r := q.1.imageOk p k (mget {} q.1.saves (p * 8 + k))
    (r.1, q.2 && r.2)) (s, true)

/-- SAVED, or LENT with the guest IDLE. -/
def State.returnable (s : State) (p : Nat) : Bool :=
  decide (s.phase p = phSaved) || (decide (s.phase p = phLent) && decide (s.stepState (s.guestOf p) = stIdle))

/-- The next phase of RESTORE and ABANDON. [log 76: DEDUCED] -/
def State.goBack (s : State) (p : Nat) (abandon : Bool) : State :=
  if s.phase p = phLent then s.beginReturn p abandon
  else (s.setPhase p phRestoring).setPre p (fun x => { x with abandon := abandon })

/-- PREEMPT_RESTORE. -/
def execPreemptRestore (c : Nat) (w : Word) (s : State) : Answer :=
  .next (s.preRow 2 c w (fun s p =>
    if s.returnable p = false then (s, preBadState, 0)
    else if s.fb F.PAR_PREEMPT_STATUS_KIT_LOST p 0 then (s, preKitLost, 0)
    else
      let r := s.imagesOk p
      if r.2 then (r.1.goBack p false, preOk, 0) else (r.1, preBadImage, 0)))

/-- PREEMPT_ABANDON. -/
def execPreemptAbandon (c : Nat) (w : Word) (s : State) : Answer :=
  .next (s.preRow 3 c w (fun s p => if s.returnable p then (s.goBack p true, preOk, 0) else (s, preBadState, 0)))

/-- PREEMPT_WITHDRAW. -/
def execPreemptWithdraw (c : Nat) (w : Word) (s : State) : Answer :=
  .next (s.preRow 4 c w (fun s p => if s.phase p = phWaiting then ((s.setPhase p phNone).setPre p (fun x => { x with boundary := false }), preOk, 0) else (s, preBadState, 0)))

/-- A context that waits at a barrier sounded during the save proceeds at its first turn (R166). -/
def State.sounded (s : State) (p : Nat) (c : Ctx) : Ctx :=
  match c.wait with
  | .gong l j _ => if j < s.sounds p l then { c with pc := c.pc + 8, wait := .none } else c
  | _ => c

/-- Kit k restores: its image is loaded, or, under ABANDON, every context is stopped with registers at reset and every region is zero. -/
def State.restoreKit (s : State) (p k : Nat) (abandon : Bool) : State :=
  let g := mget {} s.saves (p * 8 + k)
  let s := if abandon then
      let s := s.wipeKit k
      (List.range 150).foldl (fun s n => s.setDrum k (s.phys k n) (fun x => { x with cfg := (mget {} g.drums n).cfg, inStep := true })) s
    else (s.loadImage p k g).mapCtx k (fun _ c => s.sounded p c)
  let set := s.cancelledSlots p
  (List.range 150).foldl (fun s n => s.setDrum k (s.phys k n) (fun x => { x with cancel := set })) s

/-- PREEMPT_RESTORE_DONE: every kit is loaded and the step goes on, D recomputed. -/
def execPreemptRestoreDone (p : Nat) (s : State) : Answer :=
  let x := (s.part p).pre
  if 8 ≤ p ∨ s.phase p ≠ phRestoring then .next s
  else
    let s := (s.ownKits p).foldl (fun s k => s.restoreKit p k x.abandon) s
    let s := { s with saves := s.saves.filter (fun q => decide (q.1 / 8 ≠ p)) }
    let s := ((s.setPhase p phNone).setStep p stRunning).setPre p (fun _ => {})
    .next ((s.lowerFloor p (s.partFloor p)).resumeEntries p)

-- ===== Regulator windows (R408, R413, R415) =====

/-- LAST of partition p on resource r: for HBM, the kit with the most. -/
def State.regLast (s : State) (p r : Nat) : Nat := (List.range 8).foldl (fun m k => max m (s.regUsed p r k)) 0

/-- Resource r is short of the enabled partitions' guarantees: SHORT is set, and REG_SHORT is logged once per change. [log 80: DEDUCED] -/
def State.checkShort (s : State) (r : Nat) : State :=
  let ps := s.guaranteed r
  let cap := s.regCapacity r
  if cap < s.guaranteeSum r then
    let s := ps.foldl (fun s p => s.setF F.PAR_REG_STATUS_SHORT p 0 (s.f F.PAR_REG_STATUS_SHORT p 0 ||| 2 ^ r)) s
    if mget 0 s.shortCap r = cap + 1 then s
    else { (s.log (srcHub 1) Ev.REG_SHORT [r]) with shortCap := mput 0 s.shortCap r (cap + 1) }
  else { s with shortCap := mput 0 s.shortCap r 0 }

/-- Transit policer levels rise (R315). -/
def State.refillPolicers (s : State) : State :=
  (s.regs.map Prod.fst).foldl (fun s o =>
    match regAt o with
    | some (.TRN_SUB_POLICE, u, _) =>
      let burst := 65536 * s.f F.TRN_SUB_POLICE_BURST u 0
      s.setTrn (fun t => { t with level := mput 0 t.level u (min burst (mget 0 t.level u + s.f F.TRN_SUB_POLICE_RATE u 0 * 64)) })
    | _ => s) s

/-- REGULATOR_WINDOW: a new window of 1 µs of HUB_TIME starts, once for each (R39, R408). [log 2, 77: DESIGN CHOICE] -/
def execRegulatorWindow (s : State) : Answer :=
  if s.time / 1000 ≤ s.boot.regWindow then .next s
  else
  let s : State := { s with boot := { s.boot with regWindow := s.time / 1000 } }
  let s := (List.range 8).foldl (fun s p => (List.range 7).foldl (fun s r =>
    s.setF F.PAR_REG_STAT_LAST p r (min (2 ^ 32 - 1) (s.regLast p r))) s) s
  let s := [2, 3, 4, 5, 6].foldl (fun s r => s.checkShort r) { s with used := [] }
  let s := s.grantDue.refillBuckets.refillPolicers
  let s := s.setTrn (fun t => { t with parcels := t.parcels.map (fun (q : Nat × Parcel) => (q.1, { q.2 with deferred := false })) })
  .next (s.pumpOwed.pumpTaint.pumpTransit)

end Sys2Proof.Machine
end

