-- ==== Sys2Proof/Machine/Checks.lean ====
section
/-!
DEFINITION. Sys2Proof/Machine/Checks.lean: the scrubbers, the age of merge-buffer entries, sound checks and the observation list
(14_data_integrity.md, R436, R442 to R451, R454).
-/
namespace Sys2Proof.Machine

open Sys2Proof (Word Upsets CheckResult)

-- ===== The scrubbers (R442 to R444) =====

/-- Where skin, scratch and bitmap begin in the reading order of a kit's scrubber, and where its lap ends. -/
def scrubSkin : Nat := hbmKit
def scrubScratch : Nat := scrubSkin + 156 * 0x600000
def scrubBitmap : Nat := scrubScratch + 156 * 0x400000
def scrubEnd (u : Nat) : Nat := if u < 8 then scrubBitmap + 1572864 else hubEnd - hubBase

/-- The first place of a lap at or after position n that is read: pages of HBM whose bit is 0 are passed over. [log 81: DESIGN CHOICE] -/
def State.scrubNext (s : State) (u n : Nat) : Nat :=
  if u < 8 ∧ n < hbmKit then
    if s.mem.isWritten (hbmKit * u + n) then n
    else
      match s.mem.written.find? (fun q => decide (hbmKit * u + n ≤ 4096 * q) && decide (4096 * q < (u + 1) * hbmKit)) with
      | some q => q * 4096 - u * hbmKit
      | none => scrubSkin
  else n

/-- Scrubber u reads the 64 B at position n: memory, or the words of the bitmap. [log 81: DESIGN CHOICE] -/
def State.scrubRead (s : State) (u n : Nat) : State :=
  if 8 ≤ u then s.touch noUnit (hubBase + n) 64
  else if n < scrubSkin then s.touch noUnit (hbmKit * u + n) 64
  else if n < scrubScratch then
    s.touch noUnit (slotAddr u ((n - scrubSkin) / 0x600000) ((n - scrubSkin) % 0x600000)) 64
  else if n < scrubBitmap then
    s.touch noUnit (slotAddr u ((n - scrubScratch) / 0x400000) (0x800000 + (n - scrubScratch) % 0x400000)) 64
  else (span ((n - scrubBitmap) / 8) 8).foldl (fun s w => s.touchBitmap (hbmKit * u + 262144 * w)) s

/-- ms since the lap of scrubber u began, saturating. -/
def State.lapMs (s : State) (u : Nat) : Nat :=
  if s.fb F.INT_SCRUB_STATUS_RUNNING u 0 then min ((s.time - mget 0 s.integ.lapStart u) / 1000000) 0xFFFFFFFF else 0

/-- A lap begins. -/
def State.lapBegin (s : State) (u : Nat) : State :=
  let s := s.setF F.INT_SCRUB_STATUS_RUNNING u 0 1
  let ofKit := fun (n : Nat) => decide (u < 8) && decide (n = u)
  { s with
    drums := if u < 8 then s.drums.filterMap (fun q =>
        if q.1 / 256 = u then (let d : Drum := { q.2 with ceCount := 0 }; if d = {} then none else some (q.1, d)) else some q) else s.drums,
    ev := if u < 8 then s.ev else { s.ev with bad0 := [], bad1 := [] },
    integ := { s.integ with lapStart := mput 0 s.integ.lapStart u s.time, scrubPos := mput 0 s.integ.scrubPos u 0,
                            pcCe := s.integ.pcCe.filter (fun q => !ofKit (q.1 / 64)) } }

/-- A lap ends, and the next begins. -/
def State.lapEnd (s : State) (u : Nat) : State :=
  let ms := s.lapMs u
  let s := (s.setF F.INT_SCRUB_LAP_LAP_MS u 0 ms).setF F.INT_SCRUB_LAP_LAP_COUNT u 0 (s.f F.INT_SCRUB_LAP_LAP_COUNT u 0 + 1)
  let s := if ms = 0xFFFFFFFF then
      (s.setF F.INT_SCRUB_STATUS_LAP_SAT u 0 1).log (if u < 8 then srcKit u else srcHub 8) Ev.SCRUB_LAP_SAT
    else s
  (s.setF F.INT_SCRUB_STATUS_OVERDUE u 0 0).lapBegin u

/-- Reads of scrubber u in the open microsecond of HUB_TIME: at most RATE are issued (R443). -/
def State.scrubUsed (s : State) (u : Nat) : Nat :=
  let q := mget (0, 0) s.integ.scrubUse u
  if q.1 = s.time / 1000 then q.2 else 0

/-- SCRUB_ACCESS: scrubber u reads its next 64 B, with the upsets that have struck by then, and ends its lap after the last. [log 81: DESIGN CHOICE] -/
def execScrubAccess (u : Nat) (e : Upsets) (s : State) : Answer :=
  if 9 ≤ u ∨ s.fb F.INT_SCRUB_CFG_ENABLE u 0 = false ∨ (u < 8 ∧ (s.kitLive u = false ∨ s.boot.refclkLost = true)) ∨
      max 1 (s.f F.INT_SCRUB_CFG_RATE u 0) ≤ s.scrubUsed u then .next s
  else
    let s := s.strike e
    let s := if s.fb F.INT_SCRUB_STATUS_RUNNING u 0 then s else s.lapBegin u
    let n := s.scrubNext u (mget 0 s.integ.scrubPos u)
    let s := s.scrubRead u n
    let s := s.setInteg (fun x => { x with scrubPos := mput 0 x.scrubPos u (n + 64),
                                           scrubUse := mput (0, 0) x.scrubUse u (s.time / 1000, s.scrubUsed u + 1) })
    .next (if scrubEnd u ≤ n + 64 then s.lapEnd u else s)

/-- SCRUB_OVERDUE: the lap of scrubber u has lasted OVERDUE_H hours. -/
def execScrubOverdue (u : Nat) (s : State) : Answer :=
  let h := max 1 (s.f F.INT_SCRUB_CFG_OVERDUE_H u 0)
  if 9 ≤ u ∨ s.fb F.INT_SCRUB_STATUS_RUNNING u 0 = false ∨ s.fb F.INT_SCRUB_STATUS_OVERDUE u 0 = true ∨ s.lapMs u < 3600000 * h then .next s
  else .next ((s.setF F.INT_SCRUB_STATUS_OVERDUE u 0 1).log (if u < 8 then srcKit u else srcHub 8) Ev.SCRUB_OVERDUE)

/-- 1,024 hs of drum d of kit k, in ns, at the drum's tempo; at the kit's FLOOR when it has none. [log 81: DESIGN CHOICE] -/
def State.mergeAge (s : State) (k d : Nat) : Nat :=
  let t := (s.drum k d).tempo
  let t := if t = 0 then s.kitFloor k else t
  (10240000 + t - 1) / t

/-- MERGE_AGE_FLUSH: 1,024 hs have passed since the first write of a line's entry (R436). -/
def execMergeAgeFlush (k d line : Nat) (s : State) : Answer :=
  if (s.drum k d).merge.any (fun e => decide (e.line = line) && decide (e.since + s.mergeAge k d ≤ s.time)) = true ∧ s.boot.refclkLost = false then .next (s.flushMerge k d (fun e => decide (e.line = line)))
  else .next s

-- ===== Units under a check (R446, R448) =====

/-- Two identifiers name hardware in common: the same unit, or a drum and a mallet of it. -/
def overlaps (u v : Nat) : Bool :=
  decide (u = v) ||
    (decide (u / 2 ^ 21 < 2) && decide (v / 2 ^ 21 < 2) && decide (u / 2 ^ 21 + v / 2 ^ 21 ≠ 0) && decide (unitKit u = unitKit v) &&
      decide (unitNum u = unitNum v))

/-- Two identifiers name units of one drum, or the same unit of another kind. -/
def sameDrum (u v : Nat) : Bool :=
  decide (u = v) || (decide (u / 2 ^ 21 < 2) && decide (v / 2 ^ 21 < 2) && decide (unitKit u = unitKit v) && decide (unitNum u = unitNum v))

/-- The identifier names a unit (Table 14.6). -/
def unitExists (u : Nat) : Bool :=
  let n := unitNum u
  match unitKind u with
  | 0 => decide (n < 156) && decide (u % 4 = 0)
  | 1 => decide (n < 156) && decide (u % 1024 = 0)
  | 2 => decide (n < 16) && decide (u % 1024 = 0)
  | 3 => decide (u % 2 ^ 18 = 0)
  | 4 => decide (n < 2) && decide (u % 1024 = 0)
  | _ => false

/-- The unit is retired. -/
def State.unitRetired (s : State) (u : Nat) : Bool :=
  let k := unitKit u
  match unitKind u with
  | 0 => !s.kitLive k || (s.drum k (unitNum u)).retired
  | 1 => !s.kitLive k || (s.drum k (unitNum u)).retired
  | 2 => !s.kitLive k
  | 3 => nmem s.integ.retired u
  | _ => !s.kitLive k || nmem (s.kit k).bridgeDown (unitNum u)

/-- A running check tests the unit. -/
def State.underTest (s : State) (u : Nat) : Bool := s.integ.checks.any (fun q => q.2.running && q.2.on (overlaps u))

/-- The drum is a free spare of a kit in service. -/
def State.isFreeSpare (s : State) (k d : Nat) : Bool :=
  s.kitLive k && !(s.drum k d).retired && (s.logical k d).isNone && decide ((s.drum k d).rebindFrom = 0)

/-- The automatic partner of unit u that shares no drum with the units to avoid: of its own kit's free spares the lowest, then
the lowest of another kit, then the lowest unit that is not listed. A mallet's partner has its number. [log 82: DEDUCED] -/
def State.autoPartner (s : State) (u : Nat) (avoid : List Nat) : Option Nat :=
  let ok := fun (v : Nat) => !avoid.any (sameDrum v) && !s.unitRetired v && !s.underTest v
  let unlisted := fun (v : Nat) => ok v && (s.obsOf v).isNone
  let k0 := unitKit u
  let kits := k0 :: (List.range 8).filter (fun k => decide (k ≠ k0))
  match unitKind u with
  | 0 | 1 =>
    let mk := fun (k d : Nat) => if unitKind u = 0 then unitMallet k d (u / 4 % 256) else unitDrum k d
    match kits.findSome? (fun k => (List.range 156).findSome? (fun d => if s.isFreeSpare k d && ok (mk k d) then some (mk k d) else none)) with
    | some v => some v
    | none => (List.range 8).findSome? (fun k => (List.range 156).findSome? (fun d => if unlisted (mk k d) then some (mk k d) else none))
  | 2 => (List.range 8).findSome? (fun k => (List.range 16).findSome? (fun g => if unlisted (unitSeg k g) then some (unitSeg k g) else none))
  | 3 => (List.range 8).findSome? (fun c => if unlisted (unitCodec c) then some (unitCodec c) else none)
  | _ => (List.range 8).findSome? (fun k => (List.range 2).findSome? (fun b => if unlisted (unitBridge k b) then some (unitBridge k b) else none))

-- ===== Sound checks (R447 to R449) =====

/-- The check of control core c, observation entry c - 8 or unlisted unit c - 264. -/
def State.check (s : State) (c : Nat) : SCheck := mget {} s.integ.checks c
def State.setCheck (s : State) (c : Nat) (k : SCheck) : State := s.setInteg (fun x => { x with checks := mput {} x.checks c k })

/-- SCHECK_REQUEST: a write of INT_SCHECK[c] (R448, Table 14.7). [log 82: DEDUCED] -/
def execScheckRequest (c : Nat) (w : Word) (s : State) : Answer :=
  if 8 ≤ c ∨ s.fb F.HUB_STATUS_READY 0 0 = false then .next s
  else if s.fb F.INT_SCHECK_RESULT_DONE c 0 = false then .next (s.log (srcHub 8) Ev.SCHECK_OVERRUN)
  else
    let a := F.INT_SCHECK_UNIT.of w
    let b := F.INT_SCHECK_PARTNER.of w
    let auto := decide (b = 0xFFFFFF)
    let kind := F.INT_SCHECK_KIND.of w
    let seed := (s.rg .INT_SCHECK_SEED c 0).toNat
    let bad := fun (u : Nat) => !unitExists u || s.unitRetired u || decide (unitKind u ≠ kind)
    let pick := if auto then s.autoPartner a [a] else some b
    let stop := fun (code : Nat) => Host.Outcome.next ((s.scheckAnswer c code 0).log (srcHub 8) Ev.SCHECK_RESULT [a, pick.getD 0xFFFFFF, seed, code])
    match bad a, pick with
    | false, some b =>
      if bad b || decide (a = b) then stop 4
      else if s.underTest a || s.underTest b then stop 5
      else
        let k : SCheck := { live := true, a := a, b := b, seed := seed, since := s.time }
        .next ((s.setF F.INT_SCHECK_RESULT_DONE c 0 0).setCheck c k)
    | _, _ => stop 4

/-- The codec unit codes or decodes. -/
def State.codecBusy (s : State) (c : Nat) : Bool := decide (mget 0 s.trn.encoders c ≠ 0) || decide (s.lanesUsed c ≠ 0)

/-- The unit is in an idle gap. -/
def State.inGap (s : State) (u : Nat) : Bool :=
  match unitKind u with
  | 0 | 1 =>
    let x := s.drum (unitKit u) (unitNum u)
    !x.inStep && !x.kicked && !x.calibrating && decide (x.rebindFrom = 0)
  | 3 => !s.codecBusy (bits u 20 18)
  | _ => true

/-- The units that the check tests next: A and B, or the referee. -/
def SCheck.tests (k : SCheck) : List Nat := if k.refereeing then [k.referee] else [k.a, k.b]

/-- A check whose partner is automatic takes it. -/
def State.withPartner (s : State) (k : SCheck) : Option SCheck :=
  if k.auto ∧ k.refereeing = false then (s.autoPartner k.a [k.a]).map (fun b => { k with b := b }) else some k

/-- SCHECK_RUN: the check starts in an idle gap of the units that it tests. -/
def execScheckRun (c : Nat) (s : State) : Answer :=
  let k := s.check c
  match s.withPartner k with
  | none => .next s
  | some k =>
    if k.live = false ∨ k.running = true ∨ k.tests.all (fun u => s.inGap u && !s.underTest u) = false then .next s
    else .next (s.setCheck c { k with running := true, forced := false })

/-- ns that a unit's test takes at the FLOOR of its kit. -/
def State.testNs (s : State) (u : Nat) : Nat :=
  let hs := if unitKind u = 2 then 1024 else 16384
  let f := s.kitFloor (unitKit u)
  (10000 * hs + f - 1) / f + 2000

/-- The kits whose pending step start holds a unit of the check. -/
def State.heldKits (s : State) (k : SCheck) : List Nat :=
  (List.range 8).filter (fun q => k.tests.any (fun u => decide (unitKind u < 3) && decide (unitKit u = q) &&
    (if unitKind u = 2 then (List.range 156).any (fun d => (s.drum q d).kicked) else (s.drum q (unitNum u)).kicked)))

/-- SCHECK_FORCED: a check that has waited FORCE_S seconds runs at a step start, before the drums latch; a codec unit is withheld from
coding (R445). [log 82: DEDUCED] -/
def execScheckForced (c : Nat) (s : State) : Answer :=
  let k0 := s.check c
  let fs := s.f F.INT_OBS_CFG_FORCE_S 0 0
  let wait := if 10 ≤ fs ∧ fs ≤ 600 then fs else 600
  match s.withPartner k0 with
  | none => .next s
  | some k =>
    let kits := s.heldKits k
    let kind := unitKind k.a
    let drumsOk := k.tests.all (fun u => decide (2 ≤ unitKind u) ||
      (let x := s.drum (unitKit u) (unitNum u)
       !x.inStep && !x.calibrating && decide (x.rebindFrom = 0) && !s.mustForce (unitKit u) (unitNum u)))
    let free := k.tests.all (fun u => !s.underTest u && (decide (unitKind u ≠ 3) || !s.codecBusy (bits u 20 18)))
    if k.live = false ∨ k.running = true ∨ s.time < k.since + wait * 1000000000 ∨ free = false ∨ drumsOk = false ∨ kind = 4 then .next s
    else if kind = 3 then .next ((s.setCheck c { k with running := true, forced := true }).log (srcHub 8) Ev.SCHECK_FORCED [] none (some k.a))
    else if kits = [] ∨ kits.any (fun q => (s.kit q).forcedCalib || (List.range 156).any (s.mustForce q)) = true then .next s
    else
      let s := kits.foldl (fun s q =>
        let p := (s.partOfKit q).getD 0
        let ns := k.tests.foldl (fun n u => if unitKit u = q then max n (s.testNs u) else n) 0
        let s := s.setKit q (fun x => { x with forcedCalib := true })
        let s := (s.extendD p ns).setF F.PAR_STEP_STATUS_CALIB_FORCED p 0 1
        s.setPart p (fun x => { x with run := { x.run with calibForced := true } })) s
      .next ((s.setCheck c { k with running := true, forced := true }).log (srcHub 8) Ev.SCHECK_FORCED [] none (some k.a))

-- ===== Outcomes (R448, R451) =====

/-- The check is over: its code is answered and logged. -/
def State.endCheck (s : State) (c code : Nat) (k : SCheck) : State :=
  let s := s.setCheck c {}
  let s := if c < 8 then s.scheckAnswer c code (if k.refereeing then k.referee else 0) else s
  s.log (srcHub 8) Ev.SCHECK_RESULT [k.a, k.b, k.seed, code]

/-- The unit passed a check and is not listed. [log 83: DEDUCED] -/
def State.notePass (s : State) (u : Nat) : State :=
  if (s.obsOf u).isSome then s else s.setInteg (fun x => { x with lastPass := mput 0 x.lastPass u (s.time + 1) })

/-- A retest passed: the entry counts it, and leaves the list at CLEAR_PASSES. -/
def State.retestPass (s : State) (e : Nat) : State :=
  let u := s.f F.INT_OBS_UNIT e 0
  let n := s.f F.INT_OBS_PASSES e 0 + 1
  if max 1 (s.f F.INT_OBS_CFG_CLEAR_PASSES 0 0) ≤ n then
    let s := (s.setRg .INT_OBS e 0 0).setRg .INT_OBS_FROM e 0 0
    (s.log (srcHub 8) Ev.OBS_CLEARED [] none (some u)).notePass u
  else (s.setF F.INT_OBS_PASSES e 0 n).setF F.INT_OBS_UNRESOLVED e 0 0

/-- A retest was unresolved: three in a row retire the unit. -/
def State.retestUnresolved (s : State) (e : Nat) : State :=
  let n := s.f F.INT_OBS_UNRESOLVED e 0 + 1
  if 3 ≤ n then s.confirm (s.f F.INT_OBS_UNIT e 0)
  else (s.setF F.INT_OBS_PASSES e 0 0).setF F.INT_OBS_UNRESOLVED e 0 n

/-- The check's key is an entry that still lists unit A. -/
def State.retestOf (s : State) (c : Nat) (k : SCheck) : Option Nat :=
  if 8 ≤ c ∧ c < 264 ∧ s.fb F.INT_OBS_VALID (c - 8) 0 = true ∧ s.f F.INT_OBS_UNIT (c - 8) 0 = k.a then some (c - 8) else none

/-- A and B agree. -/
def State.checkPass (s : State) (c : Nat) (k : SCheck) : State :=
  let s := ((s.endCheck c 0 k).notePass k.a).notePass k.b
  match s.retestOf c k with
  | some e => s.retestPass e
  | none => s

/-- A unit is confirmed by the check. In a diagnosis the device holds a bad unit of the partition that runs on the kit, or of every
partition in diagnosis for a codec unit (R477). -/
def State.checkBad (s : State) (c code u : Nat) (k : SCheck) : State :=
  let hit := fun (p : Nat) => decide (unitKind u = 3) || decide (s.partOfKit (unitKit u) = some p)
  let s := if c < 2 ^ 25 then s else
    { s with pair := { s.pair with ownBad := (s.pair.diverged.filter hit).foldl nins s.pair.ownBad } }
  (s.endCheck c code k).confirm u

/-- Neither is shown bad. -/
def State.checkUnresolved (s : State) (c : Nat) (k : SCheck) : State :=
  let reason := if c < 2 ^ 25 then 8 else 9
  let s := ((s.endCheck c 3 k).observe k.a reason).observe k.b reason
  match s.retestOf c k with
  | some e => s.retestUnresolved e
  | none => s

/-- SCHECK_END: the results are compared; a difference calls a referee, whose agreement confirms the other unit bad. -/
def execScheckEnd (c : Nat) (r : CheckResult) (s : State) : Answer :=
  let k := s.check c
  if k.live = false ∨ k.running = false then .next s
  else
    let s := s.count F.INT_CHECKS_COUNT 0 0 1
    if k.refereeing then
      if r.refA ∧ r.refB = false then .next (s.checkBad c 2 k.b k)
      else if r.refB ∧ r.refA = false then .next (s.checkBad c 1 k.a k)
      else .next (s.checkUnresolved c k)
    else if r.agree then .next (s.checkPass c k)
    else
      let s := s.setCheck c { k with running := false, forced := false }
      match s.autoPartner k.a [k.a, k.b] with
      | some v => .next (s.setCheck c { k with running := false, forced := false, refereeing := true, referee := v })
      | none => .next (s.checkUnresolved c k)

-- ===== The observation list (R450, R451) =====

/-- OBS_RETEST: entry e's unit is checked again every PERIOD_S seconds. -/
def execObsRetest (e : Nat) (s : State) : Answer :=
  let n := s.f F.INT_OBS_CFG_PERIOD_S 0 0
  let period := if 1 ≤ n ∧ n ≤ 600 then n else 600
  if 256 ≤ e ∨ s.fb F.INT_OBS_VALID e 0 = false ∨ (s.check (8 + e)).live = true ∨
      s.time + 1 < mget 0 s.integ.retests e + 1000000000 * period then .next s
  else .next (s.queueCheck (8 + e) (s.f F.INT_OBS_UNIT e 0))

/-- OBS_ADD: a write of INT_OBS_ADD[c] with reason HOST or RUNTIME; a word that names no unit in service is ignored. [log 83: DEDUCED] -/
def execObsAdd (c : Nat) (w : Word) (s : State) : Answer :=
  let u := F.INT_OBS_ADD_UNIT.of w
  let r := F.INT_OBS_ADD_REASON.of w
  if 8 ≤ c ∨ s.fb F.HUB_STATUS_READY 0 0 = false ∨ (r ≠ 1 ∧ r ≠ 2) ∨ unitExists u = false ∨ s.unitRetired u = true then .next s
  else .next (s.observe u r)

/-- KIT_RETIRE: the stack of kit k has failed in service, or another of R454's cases holds. -/
def execKitRetire (k : Nat) (s : State) : Answer := .next (s.retireKit k)

end Sys2Proof.Machine
end

