-- ==== Sys2Proof/Machine/Inbound.lean ====
section
/-!
DEFINITION. Sys2Proof/Machine/Inbound.lean: inbound fabric requests: performed at once, or in the order of the LEAD's records
(11_fefen_fabric.md, R354 to R363; 15_pair_mode_and_fault_tolerance.md, R472).
-/
namespace Sys2Proof.Machine

/-- The LEAD records the order in which it performs replicated requests; an ATOMIC's old value goes along (R472). -/
def State.recordOrder (s : State) (p : Pkt) (old : Option Nat) : State :=
  let r : OrderRec := { node := p.src, tag := p.tag, port := p.port, num := s.pair.nextOrder, old := old }
  { s with pair := { s.pair with ordersOut := s.pair.ordersOut ++ [r], nextOrder := (s.pair.nextOrder + 1) % 2 ^ 32 } }

/-- The device keeps replicated requests for their order records: it is a SHADOW, or it joins. -/
def State.follows (s : State) : Bool := decide (1 ≤ s.role) && decide (s.role ≤ 3)

/-- A request performed in order is done: the next record is due. An old value that differs from the LEAD's is a divergence. -/
def State.orderDone (s : State) (r : OrderRec) (p : Pkt) (old : Option Nat) : State :=
  let s := s.setPair (fun x =>
    { x with orders := x.orders.filter (fun q => decide (q.num ≠ r.num)), orderAt := mput 0 x.orderAt r.num 0, expected := (r.num + 1) % 2 ^ 32 })
  if r.old.isSome && decide (old ≠ r.old) then
    let m : CompareMsg := { kind := 5, part := s.f F.MEM_EXPORT_CTL_PARTITION p.exp 0, key := r.num, hash := old.getD 0 }
    (s.setPair (fun x => { x with sent := x.sent ++ [m] })).diverge m
  else s

/-- A request that waits here has been performed: the LEAD records its order, and a device that follows turns to the next record. -/
def State.inDone (s : State) (q : Inbound) (old : Option Nat) : State :=
  match q.order with
  | some r => s.orderDone r q.pkt old
  | none => if s.toPair q.pkt && decide (s.role = roleLead) then s.recordOrder q.pkt old else s

/-- Perform a waiting request, if it can be: it follows its requester's earlier requests to its block (R364). -/
def State.tryIn (s : State) (q : Inbound) : State :=
  if (s.fab.inb.takeWhile (fun x => decide (x.id ≠ q.id))).any (fun x => x.pkt.sameBlock q.pkt) then s
  else
    let old := s.atomicOld q.pkt
    let r := s.perform q.pkt
    if r.2 then (r.1.leaveIn q).inDone q old else r.1

/-- Try the request that came last. -/
def State.tryLast (s : State) : State :=
  match s.fab.inb.getLast? with
  | some q => s.tryIn q
  | none => s

/-- Perform kept requests strictly in the order of their records, one at a time, as far as records and requests are in hand. -/
def State.pumpOrders : Nat → State → State
  | 0, s => s
  | fuel + 1, s =>
    if s.fab.inb.any (fun q => q.order.isSome) then s
    else match s.pair.orders.find? (fun r => decide (r.num = s.pair.expected)) with
      | none => s
      | some r =>
        match s.pair.packets.find? (fun p => decide (p.src = r.node) && decide (p.tag = r.tag)) with
        | none => s
        | some p => State.pumpOrders fuel (((s.setPair (fun x => { x with packets := x.packets.erase p })).takeIn p (some r)).tryLast)

/-- The records in hand, performed as far as can be. -/
def State.follow (s : State) : State := State.pumpOrders (s.pair.orders.length + 1) s

/-- Every waiting request is tried again, the oldest first. -/
def State.pumpInb (s : State) : State :=
  s.fab.inb.foldl (fun s q =>
    match s.fab.inb.find? (fun x => decide (x.id = q.id)) with
    | some x => s.tryIn x
    | none => s) s

/-- An inbound request: outside READY, and while the device holds no node ID, no REQ credit is returned and it waits at its sender (Table 17.10, R515);
one to node 0xFFFF is not for this device (R23), and any other is, whatever node the switches delivered it for. A device that follows keeps a
replicated one until its order record comes; a device that has stood down does not answer to PAIR_NODE. [log 136: DESIGN CHOICE] -/
def State.arrival (s : State) (p : Pkt) : State :=
  if s.fb F.HUB_STATUS_READY 0 0 = false ∨ s.node = 0xFFFF ∨ nodeOf p.addr = 0xFFFF then s
  else if s.toPair p && s.pair.silent && decide (s.role = roleAlone) then s
  else if s.toPair p && s.follows then (s.setPair (fun x => { x with packets := x.packets ++ [p] })).follow
  else (s.takeIn p none).tryLast

/-- FAB_LOAD. A packet whose operation is reserved (0, R354) comes by this command too. -/
def execFabLoad (p : Pkt) (s : State) : Answer := .next (if p.op = opLoad ∨ p.op = 0 then s.arrival p else s)
/-- FAB_STORE. A router record of another device comes by this command too (R189). [log 15: DESIGN CHOICE] -/
def execFabStore (p : Pkt) (s : State) : Answer := .next (if p.op = opStore ∨ p.op = opRecord then s.arrival p else s)
/-- FAB_STOREM. -/
def execFabStorem (p : Pkt) (s : State) : Answer := .next (if p.op = opStorem then s.arrival p else s)
/-- FAB_PEAL. -/
def execFabPeal (p : Pkt) (s : State) : Answer := .next (if p.op = opPeal then s.arrival p else s)
/-- FAB_ATOMIC. -/
def execFabAtomic (p : Pkt) (s : State) : Answer := .next (if p.op = opAtomic then s.arrival p else s)
/-- FAB_RED. -/
def execFabRed (p : Pkt) (s : State) : Answer := .next (if p.op = opRed then s.arrival p else s)
/-- FAB_FENCE. -/
def execFabFence (p : Pkt) (s : State) : Answer := .next (if p.op = opFence then s.arrival p else s)
/-- FAB_GONG_ARRIVE. -/
def execFabGongArrive (p : Pkt) (s : State) : Answer := .next (if p.op = opGong ∧ p.isSound = false then s.arrival p else s)
/-- FAB_GONG_SOUND. -/
def execFabGongSound (p : Pkt) (s : State) : Answer := .next (if p.isSound then s.arrival p else s)
/-- FAB_TAINT. -/
def execFabTaint (p : Pkt) (s : State) : Answer := .next (if p.op = opTaint then s.arrival p else s)
/-- FAB_PARCEL. -/
def execFabParcel (p : Pkt) (s : State) : Answer := .next (if p.op = opParcel then s.arrival p else s)
/-- FAB_PARCEL_END. -/
def execFabParcelEnd (p : Pkt) (s : State) : Answer := .next (if p.op = opParcelEnd then s.arrival p else s)
/-- FAB_CPARCEL. -/
def execFabCparcel (p : Pkt) (s : State) : Answer := .next (if p.op = opCparcel then s.arrival p else s)
/-- FAB_CPARCEL_END. -/
def execFabCparcelEnd (p : Pkt) (s : State) : Answer := .next (if p.op = opCparcelEnd then s.arrival p else s)

/-- CODEC_DECODE_DONE: a block leaves its lane; the parcel's last packet is tried again. -/
def execCodecDecodeDone (src tag : Nat) (s : State) : Answer :=
  let o := s.inPar src tag
  match o.laneBlock with
  | none => .next s
  | some b =>
    if o.isOpen = false then .next s
    else .next (s.setInPar src tag { o with decoded := nins o.decoded b }).pumpInb

-- ===== What goes on by itself =====

/-- Packets of this device to itself arrive (R375). -/
def State.pumpLoop (s : State) : State :=
  if s.fb F.HUB_STATUS_READY 0 0 = false then s
  else s.fab.loop.foldl (fun s p => if p.op = opRsp then s.rspIn p else if p.op = opPending then s.pendingIn p else s.arrival p)
    (s.setFab (fun b => { b with loop := [] }))

/-- What the fabric side does by itself in a nanosecond: dead requests end, loopback packets arrive, waiting requests are tried again, and what waits for
a tag, a route or credit is sent (R365, R366, R369 to R372, R375). [log 14: DESIGN CHOICE] -/
def State.pumpFabric (s : State) : State :=
  let s := s.settleDead.pumpLoop.pumpInb.follow
  let s := s.fab.egress.foldl (fun s q => s.pumpFences q.1) s
  let s := s.fab.gongLocal.foldl (fun s q => s.pumpArrive (q.1 / 16) (q.1 % 16)) s.pumpSounds
  s.pumpTaint.pumpOwed

/-- ORDER_RECORD: a record of the LEAD arrives (R472). -/
def execOrderRecord (r : OrderRec) (s : State) : Answer :=
  if s.follows = false ∨ s.pair.orders.any (fun q => decide (q.num = r.num)) = true then .next s
  else .next (s.setPair (fun x => { x with orders := x.orders ++ [r], orderAt := mput 0 x.orderAt r.num (s.time + 1) })).follow

/-- The packet that an order record names has not come: it neither waits for its turn nor is being performed. -/
def State.lacksPacket (s : State) (r : OrderRec) : Bool :=
  !s.pair.packets.any (fun q => decide (q.src = r.node) && decide (q.tag = r.tag)) && !s.fab.inb.any (fun q => decide (q.order = some r))

/-- ORDER_PACKET_FETCH: a packet that the device lacks 2 µs after its order record came is fetched from the LEAD (R472). -/
def execOrderPacketFetch (p : Pkt) (s : State) : Answer :=
  match s.pair.orders.find? (fun r => decide (r.node = p.src) && decide (r.tag = p.tag) && s.lacksPacket r) with
  | none => .next s
  | some r =>
    if s.follows = false ∨ s.toPair p = false ∨ s.time + 1 < mget 0 s.pair.orderAt r.num + 2000 then .next s
    else .next (s.setPair (fun x => { x with packets := x.packets ++ [p] })).follow

end Sys2Proof.Machine
end

