-- ==== Sys2Proof/Machine/Pair.lean ====
section
/-!
DEFINITION. Sys2Proof/Machine/Pair.lean: re-execution of a step, comparisons, diagnosis and promotion, heartbeats, the loss of a partner and
joining (15_pair_mode_and_fault_tolerance.md, R466 to R481).
-/
namespace Sys2Proof.Machine

open Sys2Proof (Word)

-- ===== Re-execution (R461, R466, R467) =====

/-- The header of the journal entry of partition p's last step. -/
def State.sijHead (s : State) (p : Nat) : State × Data := s.readMem noUnit (s.sijAddr p (s.rg .PAR_STEP_SEQ p 0).toNat) 256

/-- The entry's step list, with the SKIP bits of its validation. -/
def State.sijList (s : State) (p : Nat) : State × Data := s.readMem noUnit (s.sijAddr p (s.rg .PAR_STEP_SEQ p 0).toNat + 256) 16384

/-- COUNT of an entry's header. -/
def sijCount (h : Nat) : Nat := bits h 191 160

/-- Applied entries of a journaled list: slot and phase. -/
def sijApplied (count l : Nat) : List (Nat × Nat) :=
  ((List.range count).map (fun i => l / 2 ^ (32 * i) % 2 ^ 32)).filterMap (fun e =>
    if bit e 29 then none else some (e % 2 ^ 14, e / 2 ^ 30))

/-- Why a REPLAY of partition p's step with the low bits seq is refused, 0 if it is accepted (Table 15.3). -/
def State.replayCode (s : State) (p seq : Nat) : State × Nat :=
  let n := (s.rg .PAR_STEP_SEQ p 0).toNat
  if s.stepState p ≠ stIdle ∨ s.phase p ≠ phNone ∨ s.fb F.SRV_STEP_SUBMIT_PENDING p 0 = true then (s, 1)
  else if n = 0 ∨ n % 2 ^ 32 ≠ seq then (s, 2)
  else if s.fb F.PAR_SIJ_CFG_ENABLE p 0 = false ∨ nmem (s.part p).journaled n = false then (s, 3)
  else
    let h := s.sijHead p
    let l := h.1.sijList p
    let r := l.1.readMem noUnit (16640 + s.sijAddr p n) (128 * (sijApplied (sijCount h.2.v) l.2.v).length)
    if bit h.2.v 256 = false then (r.1, 4)
    else if h.2.p ≠ 0 ∨ l.2.p ≠ 0 ∨ r.2.p ≠ 0 then (r.1, 5)
    else (r.1, 0)

/-- The input ranges of an entry: local address and length. -/
def State.sijInputs (s : State) (p h : Nat) : List (Nat × Nat) :=
  ((List.range 8).filter (fun i => bit h (512 + 128 * i + 63))).map (fun i =>
    let x := h / 2 ^ (512 + 128 * i) % 2 ^ 46
    (s.spanAddr (deviceActor p (unitHub 1)) (x / 2 ^ 40) (x % 2 ^ 40), h / 2 ^ (512 + 128 * i + 64) % 2 ^ 15 * 64))

/-- Re-execute partition p's last step from its entry (R467): the input ranges go back, the list is applied again, and the step starts with
its budget and its number; the entry is then one written by a replay (Table 15.2). -/
def State.replayStep (s : State) (p : Nat) : State :=
  let n := (s.rg .PAR_STEP_SEQ p 0).toNat
  let a := s.sijAddr p n
  let h := s.sijHead p
  let l := h.1.sijList p
  let es := sijApplied (sijCount h.2.v) l.2.v
  let s := (h.1.sijInputs p h.2.v).foldl (fun (q : State × Nat) g =>
    let d := q.1.readMem noUnit q.2 g.2
    (d.1.writeAll noUnit g.1 g.2 d.2, q.2 + g.2)) (l.1, (16640 + a + 128 * es.length + 63) / 64 * 64) |>.1
  let r := es.foldl (fun (q : State × Nat) e =>
    let x := q.1.stepEvent p e.1 e.2
    (x.1, q.2 + b2n x.2)) (s, 0)
  let s := r.1.writeMem noUnit (a + 8) 8 s.time 255 0
  let s := s.writeMem noUnit (a + 32) 4 (bits h.2.v 287 256 ||| 2) 15 0
  s.beginWith p (fun s => s.sendStart p n (BitVec.ofNat 64 (bits h.2.v 255 192)) r.2 (sijCount h.2.v - r.2) true)

/-- REPLAY: a write of PAR_REPLAY[c]. -/
def execReplay (c : Nat) (w : Word) (s : State) : Answer :=
  if 8 ≤ c ∨ s.fb F.HUB_STATUS_READY 0 0 = false then .next s
  else
    let s := s.forward c .PAR_REPLAY c 0 w
    let p := F.PAR_REPLAY_PARTITION.of w
    let r := s.replayCode p (F.PAR_REPLAY_SEQ.of w)
    let s := (r.1.setF F.PAR_REPLAY_RESULT_CODE c 0 r.2).setF F.PAR_REPLAY_RESULT_DONE c 0 1
    .next (if r.2 = 0 then s.replayStep p else s)

-- ===== Comparison and diagnosis (R476 to R478) =====

/-- COMPARE_MESSAGE: a message of the partner arrives; a reserved KIND is ignored. An INBOUND_ATOMIC message reports a mismatch. -/
def execCompareMessage (m : CompareMsg) (s : State) : Answer :=
  if s.compares m.part = false ∨ 8 ≤ m.part ∨ m.kind = 0 ∨ 5 < m.kind then .next s
  else if m.kind = 5 then .next (s.diverge m)
  else .next (s.setPair (fun x => { x with theirs := x.theirs ++ [(m, s.time)] })).settlePair

/-- RESYNC of partition p: it is no longer in step with the partner. -/
def State.setResync (s : State) (p : Nat) (b : Bool) : State :=
  let m := s.f F.HUB_PAIR_STATUS_RESYNC 0 0
  let m := if b = bit m p then m else if b then m + 2 ^ p else m - 2 ^ p
  let s := s.setF F.HUB_PAIR_STATUS_RESYNC 0 0 m
  if m = 0 then s else s.setF F.HUB_PAIR_STATUS_CLEAN_STEPS 0 0 0

/-- Replay partition p's step if its entry allows it. [log 84: DEDUCED] -/
def State.tryReplay (s : State) (p : Nat) : State :=
  let r := s.replayCode p ((s.rg .PAR_STEP_SEQ p 0).toNat % 2 ^ 32)
  if r.2 = 0 then r.1.replayStep p else r.1

/-- Held items that a diagnosis leaves are compared again. -/
def State.compareAgain (s : State) (p : Nat) : State :=
  let ms := (s.pair.waiting.filter (fun h => decide (h.part = p))).map (fun h =>
    ({ kind := h.kind, part := p, num := h.num, key := h.key, step := h.step, hash := h.hash } : CompareMsg))
  s.setPair (fun x => { x with sent := x.sent ++ ms })

/-- The diagnosis of partition p is complete on this device: its step has ended, no save is in progress, and its checks are over. -/
def State.diagnosed (s : State) (p : Nat) : Bool :=
  nmem s.pair.diverged p && decide (s.stepState p = stIdle) && decide (s.phase p = phNone) &&
    !s.integ.checks.any (fun q => decide (2 ^ 25 ≤ q.1) && (decide (diagCodec 0 ≤ q.1) || decide (s.partOfKit ((q.1 - 2 ^ 25) / 128) = some p)))

/-- The LEAD goes on alone with partition p: what it holds is released without comparison and the step is replayed; the SHADOW waits for its
resync. [log 85: DEDUCED] -/
def State.leadReplays (s : State) (p : Nat) : State :=
  let s := (s.setResync p true).setPair (fun x => { x with runs := ndel x.runs p })
  let s := s.releaseFree
  if s.sends then s.tryReplay p else s

/-- Promotion (R478). The old LEAD becomes a SHADOW on probation with RESYNC set for the partition alone; the new LEAD answers what it has
been sent and not performed, and replays. [log 86: DEDUCED] -/
def State.promote (s : State) (p : Nat) : State :=
  if s.role = roleLead then
    let s := (s.setRole roleProbation).setF F.HUB_PAIR_STATUS_RESYNC 0 0 0
    ((s.setResync p true).setPair (fun x => { x with partnerFull := false, runs := ndel x.runs p })).releaseFree
  else
    let s := (s.setRole roleLead).setPair (fun x => { x with partnerFull := false, silent := false, nextOrder := x.expected })
    (s.performRest).leadReplays p

/-- PAIR_DIAGNOSIS_DONE: the checks of both devices are over; outcome is 1 when the partner reports a unit confirmed bad (Table 15.7). -/
def execPairDiagnosisDone (p outcome : Nat) (s : State) : Answer :=
  if 8 ≤ p ∨ s.diagnosed p = false then .next s
  else
    let own := nmem s.pair.ownBad p
    let s := s.setPair (fun x => { x with diverged := ndel x.diverged p, ownBad := ndel x.ownBad p })
    if s.role = roleAlone then .next (s.tryReplay p)
    else
      let lead := decide (s.role = roleLead)
      let theirs := decide (outcome = 1)
      let leadBad := if lead then own else theirs
      let shadowBad := if lead then theirs else own
      let full := if lead then s.pair.partnerFull else decide (s.role = roleFull)
      if leadBad && !shadowBad && full then .next (s.promote p)
      else if leadBad || shadowBad || nmem s.pair.runs p then .next (s.leadReplays p)
      else .next (((s.setPair (fun x => { x with runs := nins x.runs p })).compareAgain p).tryReplay p)

-- ===== Heartbeats and the loss of the partner (R479) =====

/-- The device takes part in a pair and serves it. -/
def State.paired (s : State) : Bool := s.fb F.HUB_PAIR_CFG_ENABLE 0 0 && s.fb F.HUB_STATUS_READY 0 0

/-- HEARTBEAT_SEND: every 1 µs on each cymbal link that is up. -/
def execHeartbeatSend (s : State) : Answer :=
  if s.paired = false then .next s
  else .next ([16, 17].foldl (fun s l =>
    if s.linkUp l && decide (mget 0 s.pair.sentBeats l + 999 ≤ s.time) then s.setPair (fun x => { x with sentBeats := mput 0 x.sentBeats l (s.time + 1) })
    else s) s)

/-- HEARTBEAT: the partner's heartbeat arrives on a cymbal link. -/
def execHeartbeat (link : Nat) (s : State) : Answer :=
  if s.paired = false ∨ s.role = roleAlone ∨ (link ≠ 16 ∧ link ≠ 17) ∨ s.linkUp link = false then .next s
  else .next ((s.setPair (fun x => { x with beats := mput 0 x.beats link (s.time + 1) })).setF F.HUB_PAIR_STATUS_PARTNER_UP 0 0 1)

/-- The probe of PARTNER_NODE: a LOAD of HUB_IDENTITY. The spec gives no fabric address to it, so its offset is a free value. [log 86: DEDUCED] -/
def State.sendProbe (s : State) : State :=
  let a := 2 ^ 48 * s.f F.HUB_PAIR_CFG_PARTNER_NODE 0 0 + Config.freeValue s.freeCtr % 2 ^ 48 / 8 * 8
  s.fresh.issue 8 none .probe none 1 { op := opLoad, size := sizeCode 8, addr := a }

/-- PAIR_PARTNER_LOST: neither cymbal link has brought a heartbeat for 10 µs. -/
def execPairPartnerLost (s : State) : Answer :=
  if s.paired = false ∨ s.role = roleAlone ∨ s.fb F.HUB_PAIR_STATUS_PARTNER_UP 0 0 = false ∨
      [16, 17].any (fun l => decide (s.time + 1 < mget 0 s.pair.beats l + 10000)) = true then .next s
  else
    let s := (s.setF F.HUB_PAIR_STATUS_PARTNER_UP 0 0 0).log (srcHub 8) Ev.PAIR_PARTNER_LOST [] none none true
    if s.role = roleLead then .next ((s.setRole roleAlone).settlePair)
    else if s.role = roleFull then .next s.sendProbe
    else .next s.standDown

-- ===== Joining (R480) =====

/-- The kits that the partitions of this device own, as a mask. [log 87: DEDUCED] -/
def State.kitUnion (s : State) : Nat :=
  (List.range 8).foldl (fun m p => if s.fb F.PAR_CONFIG_ENABLE p 0 then m ||| s.f F.PAR_CONFIG_KIT_MASK p 0 else m) 0

/-- The join is refused: the joiner lacks a kit. [log 87: DEDUCED] -/
def State.refuseJoin (s : State) (need : Nat) : State :=
  if s.role = roleLead then s.log (srcHub 8) Ev.PAIR_JOIN_REFUSED [1, need]
  else s.standDown.log (srcHub 8) Ev.PAIR_JOIN_REFUSED [1, need] none none true

/-- PAIR_JOIN_PASS_DONE: a pass over partition p's pages has left so many bytes dirty. kits is what the partner told: the joiner's kits in service
at the LEAD, the kits that the LEAD's partitions own at the joiner. Under 64 MiB the LEAD holds the partition's next step start, sends the
rest and the boundary live set, and the partition is in step; when every partition is, a joining device is a SHADOW on probation. [log 87: DEDUCED] -/
def execPairJoinPassDone (p left kits : Nat) (s : State) : Answer :=
  let lead := decide (s.role = roleLead)
  let need := if lead then s.kitUnion else kits
  let have_ := if lead then kits else bitField 8 (fun k => s.kitLive k)
  if s.paired = false ∨ 8 ≤ p ∨ s.role = roleAlone ∨ bit (s.f F.HUB_PAIR_STATUS_RESYNC 0 0) p = false then .next s
  else if need &&& have_ ≠ need then .next (s.refuseJoin need)
  else if 0x4000000 ≤ left then .next (s.setPair (fun x => { x with dirty := [] }))
  else if lead && decide (s.stepState p ≠ stIdle) then .next (s.setPair (fun x => { x with joinHold := nins x.joinHold p }))
  else
    let s := (s.setResync p false).setPair (fun x => { x with joinHold := ndel x.joinHold p, dirty := [] })
    .next (if s.role = roleJoining ∧ s.f F.HUB_PAIR_STATUS_RESYNC 0 0 = 0 then s.setRole roleProbation else s)

end Sys2Proof.Machine
end

