-- ==== Sys2Proof/Machine/Reset.lean ====
section
/-!
DEFINITION. Sys2Proof/Machine/Reset.lean: cold and warm reset, their sources and their release (17_bringup_and_configuration.md, R504 to
R507; R39, R40, R282, R321, R428, R503, R554, R557 to R559).
-/
namespace Sys2Proof.Machine

open Sys2Proof (Word)

-- ===== Cold reset (R504, R506) =====

/-- A reset undoes each relocation with BEGIN but no COPIED: its destination is queued for erase (R293). What a block counts and what is queued
stays. [log 147: DESIGN CHOICE] -/
def Flash.undo (f : Flash) : Flash :=
  let dst := (f.reloc.filter (fun r => decide (r.phase = .begun))).map Reloc.dst
  { f with blocks := dst.foldl (fun m b => mupd {} m b (fun x => { x with eraseDue := true })) f.blocks,
           reloc := f.reloc.filter (fun r => decide (r.phase ≠ .begun)) }

/-- What flash keeps: its contents and its relocation journal; the map in HBM is lost (R282, R293). -/
def Flash.cold (f : Flash) : Flash := { f.undo with map := [], badMap := [] }

/-- What the boot state keeps: the NOR part, the fuses and the retirement record. -/
def Boot.cold (b : Boot) (aonLost : Bool) : Boot :=
  { resetHeld := true, aonLost := aonLost, nor := b.nor, norSize := b.norSize, keyDigests := b.keyDigests, revoked := b.revoked,
    fuseCounter := b.fuseCounter, lockFused := b.lockFused, fusedDrums := b.fusedDrums, fusedSegs := b.fusedSegs, norKits := b.norKits }

/-- What the always-on domain and NOR keep of the configuration: slots and journals. -/
def Cfg.cold (c : Cfg) (aonLost : Bool) : Cfg :=
  let n : Cfg := { nor0 := c.nor0, nor1 := c.nor1, norJournal := c.norJournal }
  if aonLost then n else { n with slot0 := c.slot0, slot1 := c.slot1, journal := c.journal, jseq := c.jseq, norOwed := c.norOwed }

/-- Registers of the always-on domain: EVT_LOST and the lost bits of EVT_STATUS (Table 17.3). -/
def State.aonRegs (s : State) (aonLost : Bool) : SMap (BitVec 64) :=
  if aonLost then []
  else
    let m := storePut [] .EVT_LOST 0 0 (s.rg .EVT_LOST 0 0)
    storePut m .EVT_STATUS 0 0 (F.EVT_STATUS_SPILL_ACTIVE.put (s.rg .EVT_STATUS 0 0) 0)

/-- What the always-on domain keeps of hub SRAM: the epoch slots and the configuration journal (Table 17.3, Table 17.13). -/
def Mem.cold (m : Mem) (aonLost : Bool) : Mem :=
  if aonLost then {}
  else
    let lo := 0x900000 + hubBase
    let inside := fun (u g : Nat) => decide (lo ≤ g * u) && decide (g * u < 0x200000 + lo)
    { cells := m.cells.filter (fun c => decide (lo ≤ c.1) && decide (c.1 < 0x200000 + lo)), poison := m.poison.filter (inside 32),
      ue := m.ue.filter (inside 8), ce := m.ce.filter (inside 8) }

/-- Cold reset is asserted. Memory outside the always-on domain reads zero (R282, R438); what the block has already put out stays out. [log 32, 107: DEDUCED] -/
def State.coldReset (s : State) (aonLost : Bool) : State :=
  let p : Power := { thermTripLow := s.power.thermTripLow && !aonLost }
  { pending := s.pending, regs := s.aonRegs aonLost, mem := s.mem.cold aonLost, flash := s.flash.cold, boot := s.boot.cold aonLost, cfg := s.cfg.cold aonLost,
    power := p, fab := { out := s.fab.out }, out := s.out, freeCtr := s.freeCtr }

-- ===== Warm reset (R506, Table 17.3) =====

/-- Registers that a warm reset keeps whole. [log 89: DEDUCED] -/
def warmKept (r : RegName) : Bool :=
  decide (r = .HUB_TIME) || decide (r = .DRM_TEMPO) || decide (r = .PAR_STEP_SEQ) || decide (r = .MEM_ACCT) || decide (r = .MEM_ACCT_SAT) ||
    decide (r = .EVT_HEAD) || decide (r = .EVT_READ) || decide (r = .EVT_OVERWRITES) || decide (r = .EVT_LOST) || decide (r = .EVT_SPILL_PTR) ||
    decide (r = .SEC_DEFAULT_LOCK) || decide (r = .PWR_ENERGY) || decide (r = .TRN_QUEUE_PTR) || decide (r = .INT_HUB_BAD)

/-- Fields that a warm reset keeps of a register. [log 89: DEDUCED] -/
def warmFields (r : RegName) : List Fld :=
  match r with
  | .HUB_STATUS => [F.HUB_STATUS_CAUSE_EVENT, F.HUB_STATUS_CAUSE_LOG_LOST, F.HUB_STATUS_CAUSE_BOOT, F.HUB_STATUS_CAUSE_CQ,
      F.HUB_STATUS_CAUSE_RAISE, F.HUB_STATUS_ATTN, F.HUB_STATUS_EVENT_SEQ]
  | .EVT_STATUS => [F.EVT_STATUS_BANK0_LOST, F.EVT_STATUS_BANK1_LOST, F.EVT_STATUS_SPILL_LOST]
  | .HUB_PAIR_STATUS => [F.HUB_PAIR_STATUS_DIVERGENCES]
  | .INT_SCRUB_LAP => [F.INT_SCRUB_LAP_LAP_COUNT]
  | .FAB_PORT_STATUS => [F.FAB_PORT_STATUS_RETRAINS]
  | .SRV_SUB_CFG => [F.SRV_SUB_CFG_SLOTS]
  | _ => []

/-- The registers after a warm reset. -/
def warmRegs : SMap (BitVec 64) → SMap (BitVec 64)
  | [] => []
  | (o, w) :: r =>
    let rest := warmRegs r
    match regAt o with
    | none => rest
    | some (n, i, j) =>
      if warmKept n then (o, w) :: rest
      else
        let v := (warmFields n).foldl (fun (x : BitVec 64) f => f.put x (f.of w)) (n.resetWord i j)
        if v = n.resetWord i j then rest else (o, v) :: rest

/-- Slots: a response record that was in flight is issued again to its own ring position; results and NOTICEs owed stay owed (R506). [log 89: DEDUCED] -/
def Serve.warm (v : Serve) (part : Nat → Nat) : Serve :=
  let again := (v.slots.filter (fun q => decide (q.2.flight ≠ 0) && decide (q.2.hostQ = 0))).map (fun q =>
    ({ part := part q.1, addr := q.2.sent.1, v := q.2.sent.2, len := 64, slot := q.1, kind := 3 } : Owed))
  { slots := v.slots, owed := v.owed.filter (fun o => decide (o.kind ≠ 2)) ++ again }

/-- Transit entries: those that ran will complete as incomplete before their queue accepts again; parcels are lost (R321). [log 89: DEDUCED] -/
def Transit.warm (t : Transit) : Transit :=
  { entries := t.entries.map (fun e => if e.st = 0 then { e with flag := none, issuer := 0, count := 0 }
      else { e with st := if e.st = 4 then 4 else 2, code := if e.st = 4 then e.code else trnIncomplete, flag := none, ahead := [] }) }

/-- A kit: its retirement, its drum map and what else is confirmed stay. [log 89: DEDUCED] -/
def Kit.warm (k : Kit) : Kit :=
  { retired := k.retired, map := k.map, dueDrums := k.dueDrums, dueSegs := k.dueSegs, dueFrom := k.dueFrom, segFaults := k.segFaults,
    bridgeDown := k.bridgeDown, lastFloor := k.lastFloor }

/-- Warm reset: every drum stops at once without a save. [log 32, 89, 107: DEDUCED] -/
def State.warmState (s : State) : State :=
  let lost := s.ev.queues.foldl (fun n q => n + queueLen q.2) 0
  let s := s.count F.EVT_LOST_COUNT 0 0 lost
  { pending := s.pending, regs := warmRegs s.regs, mem := s.mem, flash := s.flash.undo,
    ev := { bad0 := s.ev.bad0, bad1 := s.ev.bad1, resetLost := some lost },
    boot := { s.boot with warmHeld := true, refclkLost := false, tries := [], coresRun := 0, restarting := [], kicks := [] },
    cfg := { slot0 := s.cfg.slot0, slot1 := s.cfg.slot1, nor0 := s.cfg.nor0, nor1 := s.cfg.nor1, curSlot := s.cfg.curSlot,
             journal := s.cfg.journal, norJournal := s.cfg.norJournal, norOwed := s.cfg.norOwed, jseq := s.cfg.jseq },
    host := { s.host with trained := false }, mgmt := { dynAddr := s.mgmt.dynAddr }, power := { thermTripLow := s.power.thermTripLow },
    kits := (s.kits.map (fun q => (q.1, q.2.warm))).filter (fun q => decide (q.2 ≠ {})),
    drums := (s.drums.map (fun q => (q.1, ({ retired := q.2.retired, flagSet := q.2.flagSet } : Drum)))).filter (fun q => decide (q.2 ≠ {})),
    parts := (s.parts.map (fun q => (q.1, ({ journaled := q.2.journaled } : Part)))).filter (fun q => decide (q.2 ≠ {})),
    fab := { out := s.fab.out }, out := s.out, freeCtr := s.freeCtr,
    integ := { lastPass := s.integ.lastPass, retired := s.integ.retired, journal := s.integ.journal, noticeSeq := s.integ.noticeSeq },
    acctRem := s.acctRem, kv := { s.kv with held := s.kv.held.filter (fun h => decide (h.core = 8)), armed := [] },
    serve := s.serve.warm (fun n => s.slPartField n), trn := s.trn.warm }

/-- A warm reset is asserted: host queues as for PERST# (R551); a pre-empted job is lost, and its kits are wiped (R428). One that comes before
the fill of a cold bring-up has ended is taken as cold (R504). -/
def State.warmReset (s : State) : State :=
  if s.boot.fillDone = false then s.coldReset false
  else
    let hosts := (List.range 8).filter (fun p => decide (s.phase p ≠ phNone))
    let kits := fun p => (List.range 8).filter (fun k => s.ownsKit p k && s.kitLive k)
    let s' := s.portReset.warmState
    let s' := hosts.foldl (fun s' p => (kits p).foldl (fun s' k => s'.wipeKit k) s') s'
    let s' := hosts.foldl (fun s' p =>
      let s' := s'.log (srcHub 1) Ev.PREEMPT_RESET_LOST [] (some p)
      if s.phase p = phLent then s'.log (srcHub 1) Ev.PREEMPT_RESET_LOST [] (some (s.guestOf p)) else s') s'
    s'.setF F.FAB_CONFIG_NODE 0 0 s.boot.nodeStrap.toNat

-- ===== Sources (Table 17.1) =====

/-- COLD_RESET: VDD_AON has risen, or RESET_N is held low for at least 10 µs. -/
def execColdReset (aonLost : Bool) (s : State) : Answer := .next (s.coldReset (aonLost || s.power.gone))

/-- A write of HUB_RESET by a control core, the host or management: its KEY, and the KIND asked for (R505). It answers at every stage (R514);
control cores are held until the end of CONFIG (Table 17.10). -/
def State.resetWord (s : State) (i : Nat) (w : Word) (kind : Nat) : Bool :=
  !s.power.gone && !s.boot.resetHeld && decide (i ≤ 9) && (decide (8 ≤ i) || bit s.boot.coresRun i) &&
    decide (F.HUB_RESET_KEY.of w = 0xD7C2) && decide (F.HUB_RESET_KIND.of w = kind)

/-- HUB_RESET with KIND = COLD. -/
def execHubResetCold (i : Nat) (w : Word) (s : State) : Answer :=
  .next (if s.resetWord i w 2 then s.coldReset false else s)

/-- HUB_RESET with KIND = WARM. -/
def execHubResetWarm (i : Nat) (w : Word) (s : State) : Answer :=
  .next (if s.resetWord i w 1 then s.warmReset else s)

/-- WARM_RESET_REQUEST: a request of the board-management block over I3C or SMBus. -/
def execWarmResetRequest (s : State) : Answer :=
  .next (if s.power.gone || s.boot.resetHeld then s else s.warmReset)

/-- FIXED_RAIL_OUT_OF_TOLERANCE for 10 µs acts as RESET_N held low (R557). -/
def execFixedRailOutOfTolerance (s : State) : Answer := .next (if s.power.gone then s else s.coldReset false)

/-- POWER_LOSS: every rail is gone, VDD_AON with it (R559): flash, NOR and fuses stand, and RB_N is high-impedance (R547). [log 91: DEDUCED] -/
def execPowerLoss (s : State) : Answer :=
  let t := s.coldReset true
  .next { t with power := { gone := true }, mgmt := { rbLow := false } }

-- ===== The reference clock (R40) =====

/-- REFCLK_LOST: the time base goes on from the ring oscillator, HBM goes to self-refresh, links drop, and service waits for a warm reset. [log 91: DEDUCED] -/
def execRefclkLost (s : State) : Answer :=
  if s.boot.resetHeld || s.boot.refclkLost || s.power.gone then .next s
  else
    let s : State := { s with boot := { s.boot with refclkLost := true } }
    let s := s.log (srcHub 0) Ev.REFCLK_LOST [] none none true
    .next ((List.range 18).foldl (fun s i => s.takeDown i downSignal) s)

/-- REFCLK_RETURN: the return of the clock is a warm reset (Table 17.1). -/
def execRefclkReturn (s : State) : Answer := .next (if s.boot.refclkLost then s.warmReset else s)

-- ===== Release (R39, R507, R554) =====

/-- RESET_RELEASE: the reset ends and the ROM stage begins. A cold reset latches the straps, and HUB_TIME starts to count. -/
def execResetRelease (node : BitVec 16) (defaultN : Bool) (s : State) : Answer :=
  if s.power.gone || !(s.boot.resetHeld || s.boot.warmHeld) then .next s
  else
    let cold := s.boot.resetHeld
    let b := { s.boot with resetHeld := false, warmHeld := false, releasedAt := s.time }
    let b := if cold then { b with nodeStrap := node, defaultN := defaultN } else b
    let s : State := { s with boot := b }
    let s := if cold then s.setF F.FAB_CONFIG_NODE 0 0 node.toNat else s
    .next ((s.setStage 1).setB F.HUB_BOOT_WARM 0 0 (!cold))

end Sys2Proof.Machine
end

