-- ==== Sys2Proof/Machine/Power.lean ====
section
/-!
DEFINITION. Sys2Proof/Machine/Power.lean: the close of a 1 ms window: tempo, operating points, below-floor runs, the power cap and the
thermal limits, tier accounting; and supply and thermal events (01_architecture.md, R41 to R47; 08, R274 and R276; 19_electrical_and_package.md,
R557 to R566).
-/
namespace Sys2Proof.Machine

open Sys2Proof (KitReading WindowReading)

-- ===== Operating point (R42, R46, R561) =====

/-- STEP of a sense-point reading in mV. -/
def stepOf (mv : Nat) : Nat := min 30 ((mv - 550) / 10)

/-- BAND of a junction temperature in tenths of a degree; 15 outside 0 °C to 109.9 °C. -/
def bandOf (t : Int) : Nat := if 0 ≤ t ∧ t < 1100 then (t / 100).toNat else 15

/-- FLOOR of a cell; none outside the rated bands. -/
def floorAt (step band : Nat) : Nat := if 10 ≤ band then 0 else floorEntry step band

/-- The lowest step whose FLOOR is at least 150.0 M hs/s at a band; 0 in band 10 and outside the bands. -/
def minStep (band : Nat) : Nat :=
  if 10 ≤ band then 0 else ((List.range 31).find? (fun n => decide (1500 ≤ floorEntry n band))).getD 30

-- ===== Tempo (R41, R47, R177) =====

/-- Tempo of drum d of kit k in the window that ends with a count, in 0.1 M hs/s, corrected by RATIO from the
first calibration on that found it out of its band (R177). -/
def State.tempoOf (s : State) (k d count : Nat) : Nat :=
  let n := (count + 2 ^ 48 - s.f F.DRM_TEMPO_COUNT k d) % 2 ^ 48
  let r := s.f F.DRM_CALIB_RATIO k d
  if (s.drum k d).skewed then n * r / 2 ^ 15 / 100 else n / 100

/-- A drum's tempo is below FLOOR, or its kit has none, in this window: from the run's second window on BELOW_FLOOR is set, and at the second
window the run is logged and the drum observed. rated is false outside the rated bands, where step 3 of R47 does not apply (R566). -/
def State.belowFloor (s : State) (k d tempo step band : Nat) (rated : Bool) : State :=
  let n := (s.drum k d).belowRun + 1
  let s := s.setDrum k d (fun x => { x with belowRun := n, belowInStep := true })
  let s := match s.partOfKit k with
    | some p => if s.stepState p = stIdle then s else
        (s.setF F.PAR_STEP_STATUS_BELOW_FLOOR_SEEN p 0 1).setPart p (fun x => { x with run := { x.run with belowSeen := true } })
    | none => s
  if n < 2 then s
  else
    let s := s.setF F.KIT_OPPOINT_BELOW_FLOOR k 0 1
    if n ≠ 2 then s
    else
      let s := s.log (srcHub 7) Ev.TEMPO_BELOW_FLOOR [d, tempo, step, band] none (some (unitDrum k d))
      if rated then s.observe (unitDrum k d) 3 else s

/-- One drum's counter is read. [log 33: DESIGN CHOICE; 92: DEDUCED] -/
def State.readTempo (s : State) (k step band : Nat) (q : Nat × Nat) : State :=
  let d := q.1
  let t := s.tempoOf k d q.2
  let floor := floorAt step band
  let s := (s.setF F.DRM_TEMPO_COUNT k d q.2).setDrum k d (fun x => { x with tempo := t })
  let s := match s.partOfKit k with
    | some p => if s.stepState p = stIdle then s else s.setPart p (fun x => { x with run := { x.run with lowTempo := min x.run.lowTempo t } })
    | none => s
  if decide (10 ≤ band) || decide (t < floor) then s.belowFloor k d t step band (decide (band < 10))
  else s.setDrum k d (fun x => { x with belowRun := 0 })

/-- The slowest of the drums read, the lowest-numbered of equals. -/
def slowest : List (Nat × Nat) → Nat × Nat
  | [] => (0, 0)
  | [q] => q
  | q :: r => let m := slowest r; if m.2 < q.2 then m else q

/-- Active drums of a reading. -/
def State.readings (s : State) (r : KitReading) : List (Nat × Nat) := r.counts.filter (fun q => decide (q.1 ∈ s.activeDrums r.kit))

/-- Counters are read before TEMPO is done, and nothing is reported (R41, R514). -/
def State.notePast (s : State) (r : KitReading) : State :=
  if s.kitLive r.kit = false then s
  else (s.readings r).foldl (fun s q => s.setF F.DRM_TEMPO_COUNT r.kit q.1 q.2) s

/-- The kit's operating point at a window close (R42, R44, R47). TJ_MAX takes the whole degrees below a reading. [log 92: DEDUCED; 146: DESIGN CHOICE] -/
def State.closeKit (s : State) (r : KitReading) : State :=
  let k := r.kit
  if s.kitLive k = false then s
  else
    let step := stepOf r.mv
    let band := bandOf r.temp10
    let ts := (s.readings r).map (fun q => (q.1, s.tempoOf k q.1 q.2))
    let low := slowest ts
    let s := (s.readings r).foldl (fun s q => s.readTempo k step band q) s
    let s := (s.setF F.KIT_OPPOINT_MIN_TEMPO k 0 low.2).setF F.KIT_OPPOINT_MIN_DRUM k 0 low.1
    let s := if floorAt step band = 0 then s else s.setKit k (fun x => { x with lastFloor := floorAt step band })
    let s := (s.setF F.KIT_OPPOINT_FLOOR k 0 (floorAt step band)).setF F.KIT_OPPOINT_TJ_MAX k 0 (unsigned 8 (r.temp10 / 10))
    let s := ((s.setF F.KIT_OPPOINT_STEP k 0 step).setF F.KIT_OPPOINT_BAND k 0 band).setF F.KIT_OPPOINT_VALID k 0 1
    s.setF F.PWR_KIT_MIN_STEP k 0 (minStep band)

-- ===== The cap and the step (R46, R563, R564, R566) =====

/-- The cap is in force and the window's power is above it. -/
def State.overCap (s : State) (watts : Nat) : Bool := s.fb F.PWR_CAP_ENABLE 0 0 && decide (s.f F.PWR_CAP_CAP_W 0 0 < watts)

/-- The step of a kit after a close, and whether a raise under R46 was made above the cap. [log 92: DEDUCED] -/
def State.nextStep (s : State) (k watts : Nat) (temp10 : Int) : Nat × Bool :=
  let st := s.f F.PWR_KIT_STEP k 0
  let lo := s.f F.PWR_KIT_MIN_STEP k 0
  let goal := max (min 30 (s.f F.PWR_KIT_TARGET k 0)) lo
  let above := s.overCap watts
  if 1000 ≤ temp10 then (st - 1, false)
  else if temp10 < 0 then (if goal < st then st - 1 else if st < goal then st + 1 else st, false)
  else if st < lo then (st + 1, above)
  else if above then (if lo < st then st - 1 else st, false)
  else if goal < st then (st - 1, false)
  else if st < goal ∧ (s.fb F.PWR_CAP_ENABLE 0 0 = false ∨ watts + s.f F.PWR_CAP_HYST_W 0 0 < s.f F.PWR_CAP_CAP_W 0 0) then (st + 1, false)
  else (st, false)

/-- Set a kit's step. [log 92: DEDUCED] -/
def State.moveStep (s : State) (watts : Nat) (r : KitReading) : State :=
  if s.kitLive r.kit = false then s
  else
    let n := s.nextStep r.kit watts r.temp10
    let s := s.setF F.PWR_KIT_STEP r.kit 0 n.1
    if n.2 then s.setF F.PWR_STATUS_FLOOR_OVER_CAP 0 0 1 else s

/-- The FLOOR that a kit's step has from this close on, when the close lowers it: it counts for deadlines at once, before KIT_OPPOINT reports
it (R170, R564). [log 92: DEDUCED] -/
def State.loweredFloor (s : State) (watts : Nat) (r : KitReading) : Option (Nat × Nat) :=
  let n := (s.nextStep r.kit watts r.temp10).1
  let f := floorAt n (bandOf r.temp10)
  if s.kitLive r.kit && decide (n < s.f F.PWR_KIT_STEP r.kit 0) && decide (f ≠ 0) then some (r.kit, f) else none

/-- A kit without a floor: its THERMAL_KITS bit, and THERMAL_SEEN when it enters. [log 92: DEDUCED] -/
def State.thermal (s : State) (r : KitReading) : State :=
  let m := s.f F.PWR_STATUS_THERMAL_KITS 0 0
  let hot := s.kitLive r.kit && decide (10 ≤ bandOf r.temp10)
  let was := bit m r.kit
  if 8 ≤ r.kit ∨ hot = was then s
  else
    let s := s.setF F.PWR_STATUS_THERMAL_KITS 0 0 (if hot then m + 2 ^ r.kit else m - 2 ^ r.kit)
    if hot then s.setF F.PWR_STATUS_THERMAL_SEEN 0 0 1 else s

/-- Power readings of a close (R562). -/
def State.readPower (s : State) (w : WindowReading) : State :=
  let s := (s.setF F.PWR_STATUS_POWER_W 0 0 (min 65535 w.watts)).setF F.PWR_STATUS_TJ_MAX 0 0 (unsigned 8 w.tj)
  let s := w.kits.foldl (fun s r => if r.kit < 8 then s.setF F.PWR_KIT_POWER_W r.kit 0 (min 65535 r.watts) else s) s
  s.count F.PWR_ENERGY_MJ 0 0 w.mj

/-- The steps of all kits at a close. [log 92: DEDUCED] -/
def State.closePower (s : State) (w : WindowReading) : State :=
  let s := w.kits.foldl (fun s r => s.thermal r) s
  let lowest := (List.range 8).all (fun k => !s.kitLive k || decide (s.f F.PWR_KIT_STEP k 0 ≤ s.f F.PWR_KIT_MIN_STEP k 0))
  let s := if s.overCap w.watts && lowest then s.setF F.PWR_STATUS_CAP_UNMET 0 0 1 else s
  let low := w.kits.filterMap (fun r => s.loweredFloor w.watts r)
  let s := w.kits.foldl (fun s r => s.moveStep w.watts r) s
  (List.range 8).foldl (fun s p =>
    if s.stepState p = stRunning ∨ s.stepState p = stStopping then
      s.lowerFloor p (low.foldl (fun f q => if s.partOfKit q.1 = some p then min f q.2 else f) (s.partFloor p))
    else s) s

-- ===== Tier accounting (R274, R276) =====

/-- Each millisecond every valid span adds its charge to its OWNER, in bytes × ms of MiB·s. -/
def State.chargeTiers (s : State) : State :=
  (storeSpans s.regs).foldl (fun s q =>
    s.acct (s.spanOwner q.1 q.2) (1 + (s.spanTier q.1 q.2).index) (storeCharge s.regs (s.storeDrums s.regs q.1) q.1 q.2) (1048576 * 1000)) s

-- ===== The close =====

/-- The window that ends the TEMPO stage, or a later one. -/
def State.closeWindow (s : State) (w : WindowReading) (first : Bool) : State :=
  let s := (w.kits.foldl (fun s r => s.closeKit r) s).readPower w
  let s := if first then w.kits.foldl (fun s r => s.thermal r) s else s.closePower w
  s.chargeTiers

/-- A first window has closed since the calibration of bring-up. -/
def State.tempoRuns (s : State) : Bool := decide (7 ≤ s.stage) && decide (s.stage ≠ stageFailed)

/-- TEMPO_WINDOW_CLOSE: the close of a window of 1 ms of HUB_TIME, once for each (R39, R41). [log 2: DESIGN CHOICE] -/
def execTempoWindowClose (w : WindowReading) (s : State) : Answer :=
  if s.power.gone || s.boot.resetHeld || decide (s.time / 1000000 ≤ s.boot.tempoWindow) then .next s
  else
    let s : State := { s with boot := { s.boot with tempoWindow := s.time / 1000000 } }
    if s.tempoRuns then .next (s.closeWindow w false)
  else .next (((w.kits.foldl (fun s r => s.notePast r) s).readPower w).chargeTiers)

-- ===== Supply and thermal events (R557, R566) =====

/-- RAIL_FAULT: VDD_CORE_Kn outside its set point, or a regulator fault, retires the kit. -/
def execRailFault (k : Nat) (s : State) : Answer :=
  if s.kitLive k = false ∨ s.power.gone = true ∨ s.boot.resetHeld = true then .next s
  else .next ((s.setF F.PWR_STATUS_RAIL_FAULT 0 0 1).retireKit k)

/-- THERMAL_TRIP: every drum and control core stops, and THERMTRIP_N is driven low until VDD_AON falls. [log 91: DEDUCED] -/
def execThermalTrip (s : State) : Answer :=
  if s.power.gone then .next s
  else
    let s : State := { s with power := { s.power with tripped := true, thermTripLow := true }, boot := { s.boot with coresRun := 0 } }
    .next s.checkService

end Sys2Proof.Machine
end

