-- ==== Sys2Proof/Machine/Sha.lean ====
section
/-!
DEFINITION. Sys2Proof/Machine/Sha.lean: SHA-384 (FIPS 180-4), which boot images, program entries, keys and measurements use (R509, R510,
R541, R550). A message of n bytes is a little-endian number: byte i is v / 256^i mod 256.
-/
namespace Sys2Proof.Machine

def shaK0 : List Nat :=
  [0x428a2f98d728ae22, 0x7137449123ef65cd, 0xb5c0fbcfec4d3b2f, 0xe9b5dba58189dbbc, 0x3956c25bf348b538, 0x59f111f1b605d019,
   0x923f82a4af194f9b, 0xab1c5ed5da6d8118, 0xd807aa98a3030242, 0x12835b0145706fbe, 0x243185be4ee4b28c, 0x550c7dc3d5ffb4e2,
   0x72be5d74f27b896f, 0x80deb1fe3b1696b1, 0x9bdc06a725c71235, 0xc19bf174cf692694, 0xe49b69c19ef14ad2, 0xefbe4786384f25e3,
   0x0fc19dc68b8cd5b5, 0x240ca1cc77ac9c65]
def shaK1 : List Nat :=
  [0x2de92c6f592b0275, 0x4a7484aa6ea6e483, 0x5cb0a9dcbd41fbd4, 0x76f988da831153b5, 0x983e5152ee66dfab, 0xa831c66d2db43210,
   0xb00327c898fb213f, 0xbf597fc7beef0ee4, 0xc6e00bf33da88fc2, 0xd5a79147930aa725, 0x06ca6351e003826f, 0x142929670a0e6e70,
   0x27b70a8546d22ffc, 0x2e1b21385c26c926, 0x4d2c6dfc5ac42aed, 0x53380d139d95b3df, 0x650a73548baf63de, 0x766a0abb3c77b2a8,
   0x81c2c92e47edaee6, 0x92722c851482353b]
def shaK2 : List Nat :=
  [0xa2bfe8a14cf10364, 0xa81a664bbc423001, 0xc24b8b70d0f89791, 0xc76c51a30654be30, 0xd192e819d6ef5218, 0xd69906245565a910,
   0xf40e35855771202a, 0x106aa07032bbd1b8, 0x19a4c116b8d2d0c8, 0x1e376c085141ab53, 0x2748774cdf8eeb99, 0x34b0bcb5e19b48a8,
   0x391c0cb3c5c95a63, 0x4ed8aa4ae3418acb, 0x5b9cca4f7763e373, 0x682e6ff3d6b2b8a3, 0x748f82ee5defb2fc, 0x78a5636f43172f60,
   0x84c87814a1f0ab72, 0x8cc702081a6439ec]
def shaK3 : List Nat :=
  [0x90befffa23631e28, 0xa4506cebde82bde9, 0xbef9a3f7b2c67915, 0xc67178f2e372532b, 0xca273eceea26619c, 0xd186b8c721c0c207,
   0xeada7dd6cde0eb1e, 0xf57d4f7fee6ed178, 0x06f067aa72176fba, 0x0a637dc5a2c898a6, 0x113f9804bef90dae, 0x1b710b35131c471b,
   0x28db77f523047d84, 0x32caab7b40c72493, 0x3c9ebe0a15c9bebc, 0x431d67c49c100d4c, 0x4cc5d4becb3e42b6, 0x597f299cfc657e2a,
   0x5fcb6fab3ad6faec, 0x6c44198c4a475817]
/-- The 80 round constants. -/
def shaK : List Nat := shaK0 ++ shaK1 ++ shaK2 ++ shaK3

/-- The initial hash value of SHA-384. -/
def shaInit : List Nat :=
  [0xcbbb9d5dc1059ed8, 0x629a292a367cd507, 0x9159015a3070dd17, 0x152fecd8f70e5939, 0x67332667ffc00b31, 0x8eb44a8768581511,
   0xdb0c2e0d64f98fa7, 0x47b5481dbefa4fa4]

/-- Rotate a 64-bit word right by n. -/
def ror64 (x n : Nat) : Nat := x / 2 ^ n ||| x * 2 ^ (64 - n) % 2 ^ 64

def shaS0 (x : Nat) : Nat := ror64 x 28 ^^^ ror64 x 34 ^^^ ror64 x 39
def shaS1 (x : Nat) : Nat := ror64 x 14 ^^^ ror64 x 18 ^^^ ror64 x 41
def shaG0 (x : Nat) : Nat := ror64 x 1 ^^^ ror64 x 8 ^^^ x / 2 ^ 7
def shaG1 (x : Nat) : Nat := ror64 x 19 ^^^ ror64 x 61 ^^^ x / 2 ^ 6

/-- Byte i of the padded message of n bytes, m bytes long. -/
def shaByte (v n m i : Nat) : Nat :=
  if i < n then v / 256 ^ i % 256
  else if i = n then 0x80
  else if m ≤ i + 16 then 8 * n / 256 ^ (m - 1 - i) % 256
  else 0

/-- Big-endian word j of block b. -/
def shaWord (v n m b j : Nat) : Nat := (List.range 8).foldl (fun w i => w * 256 + shaByte v n m (128 * b + 8 * j + i)) 0

/-- The message schedule, latest word first: k more words. -/
def shaSchedule : Nat → List Nat → List Nat
  | 0, ws => ws
  | k + 1, ws =>
    let w := (shaG1 (ws.getD 1 0) + ws.getD 6 0 + shaG0 (ws.getD 14 0) + ws.getD 15 0) % 2 ^ 64
    shaSchedule k (w :: ws)

/-- One round on the eight working variables. -/
def shaRound (s : List Nat) (kw : Nat × Nat) : List Nat :=
  match s with
  | [a, b, c, d, e, f, g, h] =>
    let ch := (e &&& f) ^^^ ((2 ^ 64 - 1 - e) &&& g)
    let maj := (a &&& b) ^^^ (a &&& c) ^^^ (b &&& c)
    let t1 := h + shaS1 e + ch + kw.1 + kw.2
    [(t1 + shaS0 a + maj) % 2 ^ 64, a, b, c, (d + t1) % 2 ^ 64, e, f, g]
  | _ => s

/-- One block. -/
def shaBlock (v n m : Nat) (h : List Nat) (b : Nat) : List Nat :=
  let ws := (shaSchedule 64 ((List.range 16).map (shaWord v n m b)).reverse).reverse
  let r := (shaK.zip ws).foldl shaRound h
  (h.zip r).map (fun q => (q.1 + q.2) % 2 ^ 64)

/-- SHA-384 of the n bytes of v, as a big-endian number. [log 19: DESIGN CHOICE] -/
def sha384 (v n : Nat) : Nat :=
  let blocks := (n + 17 + 127) / 128
  let h := (List.range blocks).foldl (shaBlock v n (128 * blocks)) shaInit
  (h.take 6).foldl (fun w x => w * 2 ^ 64 + x) 0

/-- A digest field of 48 bytes read little-endian, as the digest's big-endian number. -/
def digestField (v : Nat) : Nat := (List.range 48).foldl (fun w i => w * 256 + v / 256 ^ i % 256) 0

end Sys2Proof.Machine
end

