-- ==== Sys2Proof/Machine/Validate.lean ====
section
/-!
DEFINITION. Sys2Proof/Machine/Validate.lean: what makes an epoch fail validation (17_bringup_and_configuration.md, R518, R520, R521; 08, R261 to
R275, R285 to R288, R297; 07, R238; 09, R299 and R319; 10, R329; 11, R23, R349 and R369; 13, R401, R402, R405, R410, R419; 14, R457; 15, R462 and
R475; 16, R498) and the program store (18, R541). A check of an epoch reads a state whose registers are the epoch's, and names registers by offset.
-/
namespace Sys2Proof.Machine

open Sys2Proof (Word)

-- ===== Address ranges =====

/-- A range of bytes: address and length. -/
abbrev Extent := Nat × Nat

/-- Two ranges share a byte. -/
def meets (a b : Extent) : Bool := decide (max a.1 b.1 < min (a.1 + a.2) (b.1 + b.2))

/-- The range lies wholly within another. -/
def within (a b : Extent) : Bool := decide (b.1 ≤ a.1) && decide (a.1 + a.2 ≤ b.1 + b.2)

/-- Kits whose HBM or logical slots a range touches. -/
def kitHbm (k : Nat) : Extent := (hbmKit * k, hbmKit)
def kitSlots (k : Nat) : Extent := (logBase + 0x100000000 * k, 0x100000000)

-- ===== What an epoch gives each partition (R271, R401, R402) =====

/-- Partition p is a guest. -/
def State.isGuest (s : State) (p : Nat) : Bool := s.fb F.PAR_CONFIG_GUEST p 0

/-- The partition whose kits p runs on. -/
def State.hostOf (s : State) (p : Nat) : Nat := if s.isGuest p then s.f F.PAR_CONFIG_HOST p 0 else p

/-- Kit k is one of the live kits on which partition p runs. -/
def State.runsOn (s : State) (p k : Nat) : Bool := s.kitLive k && s.ownsKit (s.hostOf p) k

/-- Valid lend ranges: the host partition and the range. -/
def State.lends (s : State) : List (Nat × Extent) :=
  (List.range 8).flatMap (fun p => ((List.range 8).filter (fun k => s.fb F.PAR_LEND_VALID p k)).map (fun k =>
    (p, (hbmKit * k + 65536 * s.f F.PAR_LEND_BASE p k, 65536 * s.f F.PAR_LEND_COUNT p k))))

/-- The pool range of partition p. -/
def State.poolOf (s : State) (p : Nat) : Extent :=
  if s.fb F.MEM_HUB_RANGE_VALID p 0 then (s.poolStart p, 65536 * s.f F.MEM_HUB_RANGE_COUNT p 0) else (0, 0)

/-- The apertures that a range of the flash window touches are valid, partition p's, and lie wholly within the logical space (R286). -/
def State.aperturesOk (s : State) (p : Nat) (r : Extent) : Bool :=
  let i := (r.1 - flashBase) / 2 ^ 32
  (span i ((r.1 + r.2 - 1 - flashBase) / 2 ^ 32 + 1 - i)).all (fun i =>
    s.fb F.FLS_APERTURE_VALID i 0 && decide (s.f F.FLS_APERTURE_PARTITION i 0 = p) &&
      decide ((s.f F.FLS_APERTURE_LBASE i 0 + 1) * 2 ^ 32 ≤ 65536 * s.f F.FLS_CONFIG_LOGICAL_UNITS 0 0))

/-- An absolute range is memory that partition p owns, in one region of the map. [log 95: DEDUCED] -/
def State.owns (s : State) (p : Nat) (r : Extent) : Bool :=
  s.fb F.PAR_CONFIG_ENABLE p 0 &&
  (if r.1 < hbmEnd then
    if s.isGuest p then s.lends.any (fun l => decide (l.1 = s.hostOf p) && within r l.2)
    else decide (r.1 + r.2 ≤ hbmEnd) && (List.range 8).all (fun k => !meets r (kitHbm k) || s.runsOn p k) &&
      !s.lends.any (fun l => decide (l.1 = p) && meets r l.2)
  else if r.1 < hubEnd then within r (s.poolOf p)
  else if logBase ≤ r.1 ∧ r.1 < logBase + slotsSize then
    let o := r.1 % 0x1000000
    s.runsOn p ((r.1 - logBase) / 0x100000000) && decide ((r.1 - logBase) / 0x1000000 % 256 < 150) &&
      (within (o, r.2) (0, 0x600000) || within (o, r.2) (0x800000, 0x400000))
  else decide (flashBase ≤ r.1) && decide (r.1 + r.2 ≤ flashEnd) && s.aperturesOk p r)

-- ===== Spans (R261, R265, R266, R270, R271) =====

/-- The flash map (R288). -/
def State.flashMap (s : State) : Extent :=
  if s.fb F.FLS_CONFIG_ENABLE 0 0 then (s.f F.FLS_MAP_BASE_BASE 0 0, 8 * s.f F.FLS_CONFIG_LOGICAL_UNITS 0 0) else (0, 0)

/-- Rights that a tier admits (Table 8.7). -/
def Tier.admits (t : Tier) : Nat :=
  match t with
  | .scratch | .skin => rRead + rWrite + rAtomic
  | .flash => rRead + rWrite
  | _ => rRead + rWrite + rAtomic + rReduce

/-- First extent and count of a COMPOSED span. -/
def State.extentsOf (s : State) (p n : Nat) : Nat × Nat := (s.spanBase p n / 2 ^ 32 % 4096, s.spanBase p n % 512)

/-- A COMPOSED span is well formed: its extents exist, sum to its length and are used by no other span. -/
def State.composedOk (s : State) (p n : Nat) : Bool :=
  let x := s.extentsOf p n
  decide (1 ≤ x.2) && decide (x.2 ≤ 256) && decide (x.1 + x.2 ≤ 4096) &&
    decide (((span x.1 x.2).map (fun i => (s.f F.MEM_EXTENT_LEN_LEN_M1 i 0 + 1) * 4096)).foldl (· + ·) 0 = s.spanLen p n) &&
    (span x.1 x.2).all (fun i => decide (s.f F.MEM_EXTENT_TGT_OFFSET i 0 % 4096 = 0)) &&
    s.spansOf.all (fun q => decide (q = (p, n)) || decide (s.spanKind q.1 q.2 ≠ 3) || !meets x (s.extentsOf q.1 q.2))

/-- A valid span passes R265, R270 and R271. -/
def State.spanOk (s : State) (p n : Nat) : Bool :=
  let b := s.spanBase p n
  let l := s.spanLen p n
  decide (s.spanRights p n &&& (15 - (s.spanTier p n).admits) = 0) &&
  match s.spanKind p n with
  | 0 => decide (b % 64 = 0) && s.owns p (b, l) && !meets (b, l) s.flashMap
  | 1 => decide (b < 2 ^ 24) && (within (b, l) (0, 0x600000) || within (b, l) (0x800000, 0x400000))
  | 2 => decide (b < 2 ^ 14) && within (b, l) (0, 0x4000)
  | 3 => s.composedOk p n
  | _ => false

/-- Spans that fail. [log 95: DEDUCED] -/
def State.badSpans (s : State) : List Nat :=
  (s.spansOf.filter (fun q => !s.spanOk q.1 q.2)).map (fun q => RegName.off .MEM_SPAN_CTL q.1 q.2)

/-- Valid ABSOLUTE spans as ranges. -/
def State.absolutes (s : State) : List Extent :=
  (s.spansOf.filter (fun q => decide (s.spanKind q.1 q.2 = 0))).map (fun q => (s.spanBase q.1 q.2, s.spanLen q.1 q.2))

-- ===== Pool ranges and slot ranges (R263, R238) =====

/-- Registers of eight partitions that fail a test. -/
def badParts (r : RegName) (p : Nat → Bool) : List Nat := ((List.range 8).filter p).map (fun i => r.off i 0)

/-- Pool ranges lie in the pool, meet no other, and cover no granule that has failed. -/
def State.badPools (s : State) : List Nat :=
  badParts .MEM_HUB_RANGE (fun p =>
    let a := s.f F.MEM_HUB_RANGE_FIRST p 0
    let n := s.f F.MEM_HUB_RANGE_COUNT p 0
    s.fb F.MEM_HUB_RANGE_VALID p 0 && (decide (n = 0) || decide (768 < a + n) || s.boot.badGranules.any (fun g => meets (a, n) (g, 1)) ||
      (List.range 8).any (fun q => decide (q ≠ p) && meets (s.poolOf p) (s.poolOf q))))

/-- Slots of partition p. -/
def State.slotRange (s : State) (p : Nat) : Extent := (s.f F.SRV_PART_SERVE_SLOT_BASE p 0, s.f F.SRV_PART_SERVE_SLOT_COUNT p 0)

/-- Slot ranges are disjoint and lie within 0 to 16,383; an admission window that accepts records names an ADMIT export of its partition. -/
def State.badServe (s : State) : List Nat :=
  badParts .SRV_PART_SERVE (fun p =>
    let e := s.f F.SRV_PART_SERVE_ADMIT_EXPORT p 0
    !within (s.slotRange p) (0, 16384) || (List.range 8).any (fun q => decide (q ≠ p) && meets (s.slotRange p) (s.slotRange q)) ||
      (s.fb F.SRV_PART_SERVE_ADMIT_EN p 0 && !(s.fb F.MEM_EXPORT_CTL_VALID e 0 && decide (s.f F.MEM_EXPORT_CTL_KIND e 0 = 1) &&
        decide (s.f F.MEM_EXPORT_CTL_PARTITION e 0 = p))))

-- ===== Exports (R272, R297) =====

/-- A valid export passes R272. -/
def State.exportOk (s : State) (e : Nat) : Bool :=
  let p := s.f F.MEM_EXPORT_CTL_PARTITION e 0
  let n := s.f F.MEM_EXPORT_CTL_SPAN e 0
  match s.f F.MEM_EXPORT_CTL_KIND e 0 with
  | 0 => s.fb F.MEM_SPAN_CTL_VALID p n && (decide (s.spanKind p n = 0) || decide (s.spanKind p n = 3)) &&
      decide ((s.f F.MEM_EXPORT_RANGE_BASE e 0 + s.f F.MEM_EXPORT_RANGE_LEN_M1 e 0 + 1) * 65536 ≤ s.spanLen p n)
  | 1 => true
  | 2 => decide (s.f F.MEM_EXPORT_CTL_RIGHTS e 0 = rAtomic)
  | _ => false

/-- Exports that fail; the router of a kit in service names an export of its return span that grants REDUCE (now is the state in force). -/
def State.badExports (s now : State) : List Nat :=
  let ctl := fun e => RegName.off .MEM_EXPORT_CTL e 0
  ((List.range 256).filter (fun e => s.fb F.MEM_EXPORT_CTL_VALID e 0 && !s.exportOk e)).map ctl ++
  ((List.range 8).filter (fun k => now.kitLive k && now.fb F.KIT_ROUTER_CONFIG_ENABLE k 0 &&
    (let e := now.f F.KIT_ROUTER_CONFIG_RET_EXPORT k 0
     match s.partOfKit k with
     | none => false
     | some p => !(s.fb F.MEM_EXPORT_CTL_VALID e 0 && decide (s.f F.MEM_EXPORT_CTL_KIND e 0 = 0) && decide (s.f F.MEM_EXPORT_CTL_PARTITION e 0 = p) &&
        decide (s.f F.MEM_EXPORT_CTL_SPAN e 0 = now.f F.KIT_ROUTER_CONFIG_RET_SPAN k 0) &&
        decide (s.f F.MEM_EXPORT_CTL_RIGHTS e 0 &&& rReduce ≠ 0))))).map (fun k => ctl (now.f F.KIT_ROUTER_CONFIG_RET_EXPORT k 0))

-- ===== Quotas (R274, R275) =====

/-- A charge exceeds a LIMIT. [log 96: DEDUCED] -/
def overLimit (n limit : Nat) : Bool := decide (limit ≠ 0xFFFFFFFF) && decide (65536 * limit < n)

/-- Quotas that are exceeded. -/
def State.badQuotas (s : State) : List Nat :=
  let cs := s.charges
  (cs.filter (fun c => overLimit (ownerCharge cs c.1 c.2.2.1) (s.f F.MEM_QUOTA_LIMIT c.1 c.2.2.1))).map (fun c => RegName.off .MEM_QUOTA c.1 c.2.2.1) ++
  (cs.filter (fun c => overLimit (partCharge cs c.2.1 c.2.2.1) (s.f F.MEM_PART_QUOTA_LIMIT c.2.1 c.2.2.1))).map
    (fun c => RegName.off .MEM_PART_QUOTA c.2.1 c.2.2.1)

-- ===== Partitions (R401, R402) =====

/-- Roles of Table 13.1 as R401 asks for them. -/
def State.rolesOk (s : State) (p : Nat) : Bool :=
  let w := s.f F.PAR_CONFIG_ROLES p 0
  (List.range 8).all (fun k =>
    let r := w / 4 ^ k % 4
    if bit (s.f F.PAR_CONFIG_KIT_MASK p 0) k then decide (decide (r = 3) = s.fb F.PAR_CONFIG_MODE p 0) else decide (r = 0))

/-- A PAR_CONFIG passes R401. -/
def State.partOk (s : State) (p : Nat) : Bool :=
  let mask := s.f F.PAR_CONFIG_KIT_MASK p 0
  let h := s.f F.PAR_CONFIG_HOST p 0
  (if s.isGuest p then
     decide (mask = 0) && s.fb F.PAR_CONFIG_MODE p 0 && s.fb F.PAR_CONFIG_ENABLE h 0 && !s.isGuest h && decide (h ≠ p)
   else decide (h = 0) &&
     (!s.fb F.PAR_CONFIG_ENABLE p 0 || (List.range 8).all (fun q => decide (q = p) || !s.fb F.PAR_CONFIG_ENABLE q 0 || s.isGuest q ||
       decide (mask &&& s.f F.PAR_CONFIG_KIT_MASK q 0 = 0)))) &&
  s.rolesOk p && (List.range 8).all (fun k => !bit mask k || s.kitLive k)

/-- Lend ranges lie within their kit's HBM. -/
def State.badLends (s : State) : List Nat :=
  (List.range 8).flatMap (fun p => ((List.range 8).filter (fun k => s.fb F.PAR_LEND_VALID p k &&
    decide (hbmKit < (s.f F.PAR_LEND_BASE p k + s.f F.PAR_LEND_COUNT p k) * 65536))).map (fun k => RegName.off .PAR_LEND p k))

-- ===== Regulators (R319, R410) =====

/-- GUARANTEE of partition p on resource r. -/
def State.guarantee (s : State) (p r : Nat) : Nat := s.f F.PAR_REG_GUARANTEE p r

/-- Capacity of a port group for guarantees: 0.95 of the payload per µs, at MAX_WIDTH, of its enabled links (Table 13.3). -/
def State.groupCapacity (s : State) (g : Nat) : Nat :=
  (((List.range 18).filter (fun i => s.fb F.FAB_PORT_CFG_ENABLE i 0 && decide (s.f F.FAB_PORT_CFG_GROUP i 0 = g))).map
    (fun i => linkPayload i (s.f F.FAB_PORT_CFG_MAX_WIDTH i 0))).foldl (· + ·) 0 * 95 / 100

/-- The enabled partitions whose guarantees on HBM of p's kits are summed: p and its guests. -/
def State.sharers (s : State) (p : Nat) : List Nat :=
  (List.range 8).filter (fun q => s.fb F.PAR_CONFIG_ENABLE q 0 && decide (s.hostOf q = p))

/-- A sum of guarantees above a capacity names the lowest register that it sums. [log 95: DEDUCED] -/
def State.badSum (s : State) (ps rs : List Nat) (cap : Nat) : List Nat :=
  let qs := (ps.flatMap (fun p => rs.map (fun r => (p, r)))).filter (fun q => decide (s.guarantee q.1 q.2 ≠ 0))
  if (qs.map (fun q => s.guarantee q.1 q.2)).foldl (· + ·) 0 ≤ cap then [] else (qs.map (fun q => RegName.off .PAR_REG q.1 q.2)).take 1

/-- The full-window credit that an epoch gives partition p on resource r, with every enabled link up at MAX_WIDTH (R408); none on a port group
without an enabled link. [log 70: DEDUCED] -/
def State.epochFull (s : State) (p r : Nat) : Option Nat :=
  let links := (List.range 18).filter (fun i => s.fb F.FAB_PORT_CFG_ENABLE i 0 && decide (s.f F.FAB_PORT_CFG_GROUP i 0 + 3 = r))
  if r < 3 then some (min (s.f F.PAR_REG_CAP p r) (s.regPeak r))
  else if links.isEmpty then none
  else some (min (s.f F.PAR_REG_CAP p r) ((links.map (fun i => linkPayload i (s.f F.FAB_PORT_CFG_MAX_WIDTH i 0))).foldl (· + ·) 0))

/-- Regulators that fail. [log 70, 95: DEDUCED] -/
def State.badRegs (s : State) : List Nat :=
  let on := (List.range 8).filter (fun p => s.fb F.PAR_CONFIG_ENABLE p 0)
  (List.range 8).flatMap (fun p => ((List.range 7).filter (fun r =>
    decide (s.f F.PAR_REG_CAP p r < s.guarantee p r) || (on.contains p && (s.epochFull p r).any (fun n => decide (n < 4096))))).map (fun r => RegName.off .PAR_REG p r)) ++
  on.flatMap (fun p => if s.isGuest p ∨ s.f F.PAR_CONFIG_KIT_MASK p 0 = 0 then [] else s.badSum (s.sharers p) [0, 1] 1100000) ++
  s.badSum on [2] 40000 ++ (List.range 4).flatMap (fun g => s.badSum on [3 + g] (s.groupCapacity g))

-- ===== Areas in HBM (R419, R457, R462, R475, R498) =====

/-- The save area of partition p for kit k. -/
def State.saveArea (s : State) (p k : Nat) : Extent :=
  (s.spanBase p (s.f F.PAR_SAVE_SPAN p k) + 65536 * s.f F.PAR_SAVE_OFFSET p k, 65536 * s.f F.PAR_SAVE_LENGTH p k)

/-- Save areas that fail. -/
def State.badSaves (s : State) : List Nat :=
  (List.range 8).flatMap (fun p => ((List.range 8).filter (fun k =>
    let n := s.f F.PAR_SAVE_SPAN p k
    s.fb F.PAR_SAVE_VALID p k && !(s.fb F.MEM_SPAN_CTL_VALID p n && decide (s.spanKind p n = 0) &&
      decide (s.spanRights p n &&& (rRead + rWrite) = rRead + rWrite) && within (s.saveArea p k) (s.spanBase p n, s.spanLen p n) &&
      within (s.saveArea p k) (kitHbm k) && !s.lends.any (fun l => meets (s.saveArea p k) l.2)))).map (fun k => RegName.off .PAR_SAVE p k))

/-- The send journal, the event spill area, the step input journal and the hold buffer of a partition; empty when not enabled. -/
def State.sendJournal (s : State) : Extent :=
  if s.fb F.INT_JOURNAL_ENABLE 0 0 then (65536 * s.f F.INT_JOURNAL_BASE 0 0, 0x4000000 * s.f F.INT_JOURNAL_SIZE 0 0) else (0, 0)
def State.spillArea (s : State) : Extent :=
  if s.fb F.EVT_SPILL_CFG_ENABLE 0 0 then (65536 * s.f F.EVT_SPILL_CFG_BASE 0 0, 0x100000 * s.f F.EVT_SPILL_CFG_SIZE 0 0) else (0, 0)
def State.sijArea (s : State) (p : Nat) : Extent :=
  if s.fb F.PAR_SIJ_CFG_ENABLE p 0 then
    (hbmKit * s.f F.PAR_SIJ_CFG_JKIT p 0 + 65536 * s.f F.PAR_SIJ_CFG_BASE p 0, 1024 * 65536 * s.f F.PAR_SIJ_CFG_STRIDE p 0)
  else (0, 0)
def State.holdArea (s : State) (p : Nat) : Extent :=
  if s.fb F.PAR_PAIR_HOLD_VALID p 0 then
    (hbmKit * s.f F.PAR_PAIR_HOLD_HKIT p 0 + 65536 * s.f F.PAR_PAIR_HOLD_BASE p 0, 65536 * s.f F.PAR_PAIR_HOLD_SIZE p 0)
  else (0, 0)

/-- A range meets one of a list. -/
def meetsAny (r : Extent) (l : List Extent) : Bool := l.any (meets r)

/-- The range lies in HBM of live kits. -/
def State.inLiveHbm (s : State) (r : Extent) : Bool :=
  decide (r.1 + r.2 ≤ hbmEnd) && (List.range 8).all (fun k => !meets r (kitHbm k) || s.kitLive k)

/-- The send journal fails R457. -/
def State.badJournal (s : State) : List Nat :=
  let r := s.sendJournal
  if s.fb F.INT_JOURNAL_ENABLE 0 0 && (decide (r.2 < 0x10000000) || !s.inLiveHbm r || meetsAny r s.absolutes) then [RegName.off .INT_JOURNAL 0 0] else []

/-- Lend ranges as ranges. -/
def State.lent (s : State) : List Extent := s.lends.map Prod.snd

/-- The spill area fails R498. -/
def State.badSpill (s : State) : List Nat :=
  let r := s.spillArea
  if s.fb F.EVT_SPILL_CFG_ENABLE 0 0 && (decide (r.2 = 0) || !(List.range 8).any (fun k => s.kitLive k && within r (kitHbm k)) ||
      meetsAny r (s.absolutes ++ s.lent ++ s.sendJournal :: (List.range 8).map s.sijArea)) then [RegName.off .EVT_SPILL_CFG 0 0] else []

/-- An input range of a step input journal is 64 B aligned, 1 to 16,384 units long, and lies in a span of tier HUB or HBM with READ and WRITE
(Table 15.1). -/
def State.sijInOk (s : State) (p i : Nat) : Bool :=
  let a := s.f F.PAR_SIJ_IN_ADDR p i
  let n := a / 2 ^ 40
  let l := s.f F.PAR_SIJ_LEN_LEN64 p i
  !s.fb F.PAR_SIJ_IN_VALID p i || (decide (a % 64 = 0) && decide (1 ≤ l) && decide (l ≤ 16384) && s.fb F.MEM_SPAN_CTL_VALID p n &&
    decide (s.spanRights p n &&& (rRead + rWrite) = rRead + rWrite) &&
    (decide (s.spanTier p n = .hub) || decide (s.spanTier p n = .hbm)) && decide (a % 2 ^ 40 + 64 * l ≤ s.spanLen p n))

/-- Bytes of the input ranges. -/
def State.sijInBytes (s : State) (p : Nat) : Nat :=
  (List.range 8).foldl (fun t i => if s.fb F.PAR_SIJ_IN_VALID p i then t + 64 * s.f F.PAR_SIJ_LEN_LEN64 p i else t) 0

/-- Step input journals that fail R462. -/
def State.badSij (s : State) : List Nat :=
  badParts .PAR_SIJ_CFG (fun p =>
    let k := s.f F.PAR_SIJ_CFG_JKIT p 0
    s.fb F.PAR_SIJ_CFG_ENABLE p 0 && (!within (s.sijArea p) (kitHbm k) || !s.runsOn p k || meetsAny (s.sijArea p) (s.absolutes ++ s.lent) ||
      decide (65536 * s.f F.PAR_SIJ_CFG_STRIDE p 0 < 16640 + 128 * 4096 + s.sijInBytes p))) ++
  (List.range 8).flatMap (fun p => ((List.range 8).filter (fun i => s.fb F.PAR_SIJ_CFG_ENABLE p 0 && !s.sijInOk p i)).map
    (fun i => RegName.off .PAR_SIJ_IN p i))

/-- Valid save areas. -/
def State.saves_ (s : State) : List Extent :=
  (List.range 8).flatMap (fun p => ((List.range 8).filter (fun k => s.fb F.PAR_SAVE_VALID p k)).map (fun k => s.saveArea p k))

/-- Hold buffers that fail R475. -/
def State.badHolds (s : State) : List Nat :=
  if s.fb F.HUB_PAIR_CFG_ENABLE 0 0 = false then []
  else
    let others := s.absolutes ++ s.lent ++ s.saves_ ++ s.sendJournal :: s.spillArea :: (List.range 8).map s.sijArea
    badParts .PAR_PAIR_HOLD (fun p =>
      let k := s.f F.PAR_PAIR_HOLD_HKIT p 0
      let r := s.holdArea p
      s.fb F.PAR_CONFIG_ENABLE p 0 && (!s.fb F.PAR_PAIR_HOLD_VALID p 0 || !s.runsOn p k || !within r (kitHbm k) || decide (r.2 < 0x100000) ||
        meetsAny r others || (List.range 8).any (fun q => decide (q ≠ p) && meets r (s.holdArea q))))

-- ===== Queues, codec, fabric, flash (R285, R299, R329, R349, R369) =====

/-- An enabled queue's ring lies wholly inside the pool range; LOG2_DEPTH outside 4 to 12 disables the queue. -/
def State.badQueues (s : State) : List Nat :=
  (List.range 8).flatMap (fun p => ((List.range 8).filter (fun q =>
    let l := s.f F.TRN_QUEUE_CFG_LOG2_DEPTH p q
    s.fb F.TRN_QUEUE_CFG_ENABLE p q && decide (4 ≤ l) && decide (l ≤ 12) &&
      !within (64 * s.f F.TRN_QUEUE_CFG_BASE p q, 64 * 2 ^ l) (0, (s.poolOf p).2))).map (fun q => RegName.off .TRN_QUEUE_CFG p q))

/-- Reserved difference formats. -/
def State.badCodec (s : State) : List Nat :=
  badParts .CDC_PART_CFG (fun p => decide (6 < s.f F.CDC_PART_CFG_WEIGHT_DFMT p 0) || decide (6 < s.f F.CDC_PART_CFG_KV_DFMT p 0))

/-- FAB_CONFIG, a reserved MAX_WIDTH and reserved port codes. [log 95: DEDUCED] -/
def State.badFabric (s : State) : List Nat :=
  let b := s.f F.FAB_CONFIG_DEAD_BOUND_US 0 0
  (if s.node = 0xFFFF ∨ b < 2 ∨ 100 < b then [RegName.off .FAB_CONFIG 0 0] else []) ++
  ((List.range 18).filter (fun i => decide (s.f F.FAB_PORT_CFG_MAX_WIDTH i 0 = 3))).map (fun i => RegName.off .FAB_PORT_CFG i 0) ++
  (s.regs.filter (fun q => regIs (fun r => decide (r = .FAB_EGRESS)) q.1 &&
    (decide (17 < F.FAB_EGRESS_SEED_PORT.of q.2) || decide (17 < F.FAB_EGRESS_ALT_PORT.of q.2)))).map Prod.fst

/-- The logical space exceeds 15/16 of the good units, or the map does not lie in the HBM of one kit. [log 66: DESIGN CHOICE] -/
def State.badFlash (s : State) : List Nat :=
  let l := s.f F.FLS_CONFIG_LOGICAL_UNITS 0 0
  (if l = 0 ∨ 16 * l ≤ 15 * Config.flashUnits s.flash.retiredBlocks then [] else [RegName.off .FLS_CONFIG 0 0]) ++
  (if s.fb F.FLS_CONFIG_ENABLE 0 0 && !(List.range 8).any (fun k => s.kitLive k && within s.flashMap (kitHbm k)) then [RegName.off .FLS_MAP_BASE 0 0] else [])

-- ===== The program store (R541) and HUB_CC_IMAGE (R520) =====

/-- Entries of the program store. -/
def State.storeEntries (s : State) : Nat := min 256 ((s.boot.norSize - 0x1000000) / 0x80000 - 1)

/-- NOR offset of program-store entry n. -/
def entryOff (n : Nat) : Nat := 0x1000000 + 0x80000 * (n + 1)

/-- The header of a program entry (R541): body length, ENTRY and digest. -/
structure ProgHead where
  len : Nat
  entry : Nat
  digest : Nat
deriving DecidableEq, Repr

/-- Read the header of an entry from its 512 bytes; none when it is not one. -/
def progHead (v : Nat) : Option ProgHead :=
  let h : ProgHead := { len := v / 2 ^ 64 % 2 ^ 32, entry := v / 2 ^ 96 % 2 ^ 32, digest := digestField (v / 2 ^ 512) }
  let known := v % 2 ^ 128 + v / 2 ^ 512 % 2 ^ 384 * 2 ^ 512
  if v % 2 ^ 32 = 0x5A525047 ∧ v / 2 ^ 32 % 2 ^ 32 = 1 ∧ h.len ≤ 523776 ∧ h.entry % 4 = 0 ∧ v % 2 ^ 4096 = known then some h else none

/-- A program entry's header, and its body, when the store holds one whose digest is right. -/
def State.program (s : State) (n : Nat) : Option (ProgHead × Nat) :=
  if s.storeEntries ≤ n then none
  else
    match progHead (cellsRead s.boot.nor (entryOff n) 512) with
    | none => none
    | some h =>
      let body := cellsRead s.boot.nor (entryOff n + 512) h.len
      if sha384 body h.len = h.digest then some (h, body) else none

/-- The image that HUB_CC_IMAGE[c] names: an entry whose digest begins with DIGEST. -/
def State.imageFor (s : State) (c : Nat) : Option (ProgHead × Nat) :=
  match s.program (s.f F.HUB_CC_IMAGE_INDEX c 0) with
  | some (h, b) => if h.digest / 2 ^ 336 = s.f F.HUB_CC_IMAGE_DIGEST c 0 then some (h, b) else none
  | none => none

/-- Installed images that fail. -/
def State.badImages (s : State) : List Nat :=
  badParts .HUB_CC_IMAGE (fun c => s.fb F.HUB_CC_IMAGE_VALID c 0 && (s.imageFor c).isNone)

-- ===== What an epoch changes (R405, R517) =====

/-- The register at an offset belongs to the configuration epoch. -/
def isEpochOff (off : Nat) : Bool := (regAt off).any (fun q => q.1.info.epoch)

/-- The fields of a word that an epoch sets: those with access RW. -/
def cfgPart (fs : List Fld) (w : BitVec 64) : BitVec 64 :=
  match fs with
  | [] => 0
  | f :: r => match f.acc with
    | .rw => f.put (cfgPart r w) (f.of w)
    | _ => cfgPart r w

/-- A word with the fields that an epoch sets taken from another. -/
def mixCfg (fs : List Fld) (old new : BitVec 64) : BitVec 64 :=
  match fs with
  | [] => old
  | f :: r => match f.acc with
    | .rw => f.put (mixCfg r old new) (f.of new)
    | _ => mixCfg r old new

/-- The epoch that a register store holds. -/
def epochOf (m : SMap (BitVec 64)) : SMap (BitVec 64) :=
  m.filterMap (fun q => match regAt q.1 with
    | some (r, i, j) =>
      let v := cfgPart r.fields q.2
      if r.info.epoch && decide (v ≠ cfgPart r.fields (r.resetWord i j)) then some (q.1, v) else none
    | none => none)

/-- Registers that two epochs set differently. -/
def epochDiff (a b : SMap (BitVec 64)) : List Nat :=
  (a.filter (fun q => decide (mget (regDefault q.1) b q.1 ≠ q.2))).map Prod.fst ++
  (b.filter (fun q => decide (mget (regDefault q.1) a q.1 ≠ q.2) && !a.any (fun x => decide (x.1 = q.1)))).map Prod.fst

/-- The enabled guests of p and p's host, under a state. -/
def State.kin (s : State) (p : Nat) : List Nat :=
  s.hostOf p :: (List.range 8).filter (fun q => s.fb F.PAR_CONFIG_ENABLE q 0 && s.isGuest q && decide (s.f F.PAR_CONFIG_HOST q 0 = p))

/-- The register is PAR_CONFIG, PAR_LEND, PAR_SAVE or a regulator of the partition of its first index. -/
def shapesPart (r : RegName) : Bool :=
  match r with
  | .PAR_CONFIG | .PAR_LEND | .PAR_SAVE | .PAR_REG => true
  | _ => false

/-- Registers of R405 that an epoch would change while the partition, its host or a guest is in a pre-emption phase (R405, R429); a step that is not
IDLE is waited for in HOLDING (R521). [log 71: DEDUCED] -/
def State.badPhases (e now : State) : List Nat :=
  (epochDiff (epochOf now.regs) (epochOf e.regs)).filter (fun o => match regAt o with
    | some (r, p, _) => shapesPart r &&
        (p :: now.kin p ++ e.kin p).any (fun q => decide (now.f F.PAR_PREEMPT_STATUS_PHASE q 0 ≠ 0))
    | none => false)

-- ===== Validation =====

/-- Offsets of the registers by which an epoch fails validation; e is the state with the epoch's registers, now the state in force. [log 95: DEDUCED] -/
def State.badEpoch (e now : State) : List Nat :=
  e.badPhases now ++ e.badFabric ++ e.badImages ++ e.badSpill ++ e.badSpans ++ e.badPools ++ e.badExports now ++ e.badQuotas ++ e.badFlash ++ e.badJournal ++
    badParts .PAR_CONFIG (fun p => !e.partOk p) ++ e.badLends ++ e.badRegs ++ e.badSaves ++ e.badSij ++ e.badHolds ++ e.badQueues ++ e.badCodec ++ e.badServe

/-- The lowest of a list of offsets. -/
def lowestOf : List Nat → Nat
  | [] => 0
  | [x] => x
  | x :: r => min x (lowestOf r)

/-- The state with an epoch's registers in force. -/
def State.under (s : State) (m : SMap (BitVec 64)) : State := { s with regs := m }

/-- Where the staged epoch is kept, and the most bytes of an image (R518). -/
def stagedBase : Nat := 0x0E0000B00000
def imageMax : Nat := 992 * 1024

/-- The image is larger than a slot. An image of at most 31,744 words that differ from reset is taken to fit. -/
def imageTooLarge (m : SMap (BitVec 64)) : Bool := decide (31744 < m.length) && decide (imageMax < Config.imageLength m)

/-- A granule of a stored image is poisoned, or an uncorrectable error in it comes to light as it is read. [log 94: DEDUCED] -/
def State.imagePoisoned (s : State) (base : Nat) (m : SMap (BitVec 64)) : Bool :=
  s.mem.poison.any (fun g => decide (base ≤ 32 * g) && decide (32 * g < base + Config.imageLength m)) ||
  s.mem.ue.any (fun w => decide (base ≤ 8 * w) && decide (8 * w < base + Config.imageLength m))

/-- Codes of HUB_CFG_RESULT (R519). -/
def cfgOk : Nat := 0
def cfgBusy : Nat := 1
def cfgInvalid : Nat := 3
def cfgTooLarge : Nat := 4
def cfgState : Nat := 5
def cfgTimeout : Nat := 6
def cfgNorFail : Nat := 7
def cfgPoison : Nat := 8
def cfgNoPrevious : Nat := 9
def cfgCancelled : Nat := 10
def cfgBadState : Nat := 11
def cfgBadOp : Nat := 12
def cfgNotLead : Nat := 13

/-- Validation of an epoch, staged or not: the code and FIRST_BAD. [log 93: DESIGN CHOICE] -/
def State.validateEpoch (s : State) (m : SMap (BitVec 64)) (staged : Bool) : Nat × Nat :=
  if staged && s.imagePoisoned stagedBase m then (cfgPoison, 0)
  else if imageTooLarge m then (cfgTooLarge, 0)
  else
    let bad := (s.under m).badEpoch s
    if bad.isEmpty then (cfgOk, 0) else (cfgInvalid, lowestOf bad)

end Sys2Proof.Machine
end

