-- ==== Sys2Proof/Machine/EpochOps.lean ====
section
/-!
DEFINITION. Sys2Proof/Machine/EpochOps.lean: epochs as register values, what a switch does to the units that take new values, the journal and
restarts of control cores (17_bringup_and_configuration.md, R517 to R527; 08, R275, R281 and R297; 09, R314; 11, R349 and R370; 15, R470 and R484
to R485).
-/
namespace Sys2Proof.Machine

open Sys2Proof (Word)

-- ===== Epochs as register values (R517) =====

/-- Put an epoch's values into a register store at the registers that differ. -/
def takeEpoch (m e : SMap (BitVec 64)) : SMap (BitVec 64) :=
  (epochDiff (epochOf m) e).foldl (fun m o => match regAt o with
    | some (r, i, j) => storePut m r i j (mixCfg r.fields (storeGet m r i j) (storeGet e r i j))
    | none => m) m

/-- The current epoch. -/
def State.epochNow (s : State) : SMap (BitVec 64) := epochOf s.regs

def State.setCfg (s : State) (f : Cfg → Cfg) : State := { s with cfg := f s.cfg }

-- ===== Control cores (R484, R485, R527, R541) =====

def State.setBoot (s : State) (f : Boot → Boot) : State := { s with boot := f s.boot }

/-- Set or clear a core's bit. -/
def State.setCore (s : State) (c : Nat) (b : Bool) : State := s.setBoot (fun x => { x with coresRun := setBits x.coresRun c 1 (b2n b) })

/-- Core c's watchdog count starts. -/
def State.kickCore (s : State) (c : Nat) : State := s.setBoot (fun b => { b with kicks := mput 0 b.kicks c (s.time + 1) })

/-- Where core c's running image lies. -/
def imageBase (c : Nat) : Nat := 0x0E0000C00000 + 0x80000 * c

/-- Core c has an image to run: the installed one, or the base program for CC0. -/
def State.coreHasImage (s : State) (c : Nat) : Bool := decide (c = 0) || s.fb F.HUB_CC_IMAGE_VALID c 0

/-- The installed image of core c is put at its place in hub SRAM. [log 97: DEDUCED] -/
def State.loadCore (s : State) (c : Nat) : State :=
  if s.fb F.HUB_CC_IMAGE_VALID c 0 = false then s
  else match s.imageFor c with
    | some (h, body) => s.writeAll noUnit (imageBase c) h.len { v := body, p := 0 }
    | none => s

/-- Core c is held in reset and restarts; one with nothing to run stays held. -/
def State.restartCore (s : State) (c : Nat) : State :=
  let s := s.setCore c false
  if s.coreHasImage c then s.setBoot (fun b => { b with restarting := nins b.restarting c }) else s

/-- The next core that a switch restarts: cores whose image has gone stay held, and the first other one restarts. -/
def State.nextRestart (s : State) : Nat → State
  | 0 => s
  | n + 1 =>
    match s.cfg.restartCores with
    | [] => s
    | c :: r =>
      let s := s.restartCore c
      if s.coreHasImage c then s.loadCore c else State.nextRestart (s.setCfg (fun x => { x with restartCores := r })) n

/-- The release of core c at its image's entry point, and the restart of the next core of a switch. -/
def State.releaseCore (s : State) (c : Nat) : State :=
  let s := ((s.setCore c true).setBoot (fun b => { b with restarting := ndel b.restarting c })).kickCore c
  let s := s.log (srcCore c) Ev.CC_RESTARTED [] none (some (unitCore c))
  match s.cfg.restartCores with
  | [] => s
  | d :: r =>
    if d ≠ c then s
    else
      let s := s.log (srcCore c) Ev.CFG_CORE_UPDATED [] none (some (unitCore c))
      (s.setCfg (fun x => { x with restartCores := r })).nextRestart (r.length + 1)

/-- Watchdog expiry of core c, in ns. -/
def State.watchdogNs (s : State) (c : Nat) : Nat := max 1 (s.f F.HUB_CC_WATCHDOG_TIMEOUT_MS c 0) * 1000000

/-- A write of HUB_CC_WATCHDOG[c]: KICK, and a change of ENABLE from 0 to 1, start the count. [log 97: DEDUCED] -/
def State.watchdogWrite (s : State) (c : Nat) (w : Word) : State :=
  let was := s.fb F.HUB_CC_WATCHDOG_ENABLE c 0
  let s := s.setRg .HUB_CC_WATCHDOG c 0 (writeFields (RegName.fields .HUB_CC_WATCHDOG) (s.rg .HUB_CC_WATCHDOG c 0) w)
  if decide (F.HUB_CC_WATCHDOG_KICK.of w = 1) || (!was && s.fb F.HUB_CC_WATCHDOG_ENABLE c 0) then s.kickCore c else s

/-- CC_WATCHDOG_KICK: a write of KICK restarts the count of core c. -/
def execCcWatchdogKick (i c : Nat) (w : Word) (s : State) : Answer :=
  if 8 ≤ c ∨ s.canWrite i = false ∨ F.HUB_CC_WATCHDOG_KICK.of w ≠ 1 then .next s else .next (s.watchdogWrite c w)

/-- CC_HANG: the watchdog of core c expires. The record carries the core's PC, a value the spec leaves open. [log 97: DEDUCED] -/
def execCcHang (c : Nat) (s : State) : Answer :=
  if s.coreRuns c = false ∨ s.fb F.HUB_CC_WATCHDOG_ENABLE c 0 = false ∨ s.time < mget 0 s.boot.kicks c - 1 + s.watchdogNs c then .next s
  else
    let s := ((s.log (srcCore c) Ev.CC_HANG [Config.freeValue s.freeCtr % 2 ^ 64] none (some (unitCore c)) true).fresh).kickCore c
    .next (if s.fb F.HUB_CC_WATCHDOG_RESTART c 0 then s.restartCore c else s)

/-- CC_RESTART: a write of HUB_CC_RESTART restarts the cores it names that are executing. [log 97: DEDUCED] -/
def execCcRestart (i : Nat) (w : Word) (s : State) : Answer :=
  if s.canWrite i = false then .next s
  else .next ((List.range 8).foldl (fun s c => if bit (F.HUB_CC_RESTART_CORES.of w) c && s.coreRuns c then s.restartCore c else s) s)

/-- CC_RESTARTED: the restart of core c ends: its image has been reloaded from hub SRAM, and it executes. -/
def execCcRestarted (c : Nat) (s : State) : Answer :=
  if nmem s.boot.restarting c then .next (s.releaseCore c) else .next s

-- ===== Affected partitions (R521) =====

/-- Registers whose first index is the partition that they affect. [log 98: DEDUCED] -/
def affectsPart (r : RegName) : Bool :=
  match r with
  | .PAR_CONFIG | .PAR_LEND | .PAR_REG | .PAR_SAVE | .PAR_SIJ_CFG | .PAR_SIJ_IN | .PAR_SIJ_LEN | .PAR_PAIR_HOLD | .MEM_SPAN_CTL | .MEM_SPAN_BASE
  | .MEM_HUB_RANGE | .MEM_PART_QUOTA | .MEM_PART_CHARGE | .TRN_QUEUE_CFG | .TRN_PART_DEFAULT | .CDC_PART_CFG | .FAB_GONG_CFG | .SRV_PART_SERVE => true
  | _ => false

/-- Partitions with a valid COMPOSED span that uses extent x. -/
def State.extentParts (s : State) (x : Nat) : List Nat :=
  (s.spansOf.filter (fun q => decide (s.spanKind q.1 q.2 = 3) && meets (x, 1) (s.extentsOf q.1 q.2))).map Prod.fst

/-- The partition of a valid SPAN export. -/
def State.exportPart (s : State) (e : Nat) : List Nat :=
  if s.fb F.MEM_EXPORT_CTL_VALID e 0 && decide (s.f F.MEM_EXPORT_CTL_KIND e 0 = 0) then [s.f F.MEM_EXPORT_CTL_PARTITION e 0] else []

/-- What an export says of its span. -/
def State.exportSpan (s : State) (e : Nat) : List Nat :=
  [s.f F.MEM_EXPORT_CTL_VALID e 0, s.f F.MEM_EXPORT_CTL_KIND e 0, s.f F.MEM_EXPORT_CTL_PARTITION e 0, s.f F.MEM_EXPORT_CTL_SPAN e 0,
   (s.rg .MEM_EXPORT_RANGE e 0).toNat]

/-- Partitions that a register which differs between two epochs names; a and b are states under them. [log 71: DEDUCED] -/
def namedParts (a b : State) (off : Nat) : List Nat :=
  match regAt off with
  | none => []
  | some (r, i, _) =>
    if affectsPart r then [i]
    else match r with
      | .MEM_EXTENT_TGT | .MEM_EXTENT_LEN => a.extentParts i ++ b.extentParts i
      | .MEM_EXPORT_CTL | .MEM_EXPORT_RANGE => if a.exportSpan i = b.exportSpan i then [] else a.exportPart i ++ b.exportPart i
      | .FLS_APERTURE => ([a, b].filter (fun x => x.fb F.FLS_APERTURE_VALID i 0)).map (fun x => x.f F.FLS_APERTURE_PARTITION i 0)
      | .SRV_SERVICE => ([a, b].filter (fun x => x.fb F.SRV_SERVICE_ENABLE i 0)).map (fun x => x.f F.SRV_SERVICE_PARTITION i 0)
      | _ => []

/-- Partitions that a switch from the current epoch to another affects, with their hosts and guests. [log 71, 98: DEDUCED] -/
def State.affectedBy (s : State) (e : SMap (BitVec 64)) : NSet :=
  let t := s.under (takeEpoch s.regs e)
  let ps := (epochDiff s.epochNow e).flatMap (fun o => namedParts s t o)
  let ps := ps.flatMap (fun p => p :: s.kin p ++ t.kin p)
  (ps.flatMap (fun p => p :: s.kin p ++ t.kin p)).foldl nins []

-- ===== The gong (R522, R297, R314, R349, R370, R470) =====

/-- A valid span of the old state has changed. -/
def spanDiffers (a b : State) (p n : Nat) : Bool :=
  a.fb F.MEM_SPAN_CTL_VALID p n && (decide (a.rg .MEM_SPAN_CTL p n ≠ b.rg .MEM_SPAN_CTL p n) || decide (a.rg .MEM_SPAN_BASE p n ≠ b.rg .MEM_SPAN_BASE p n) ||
    (decide (a.spanKind p n = 3) && (span (a.extentsOf p n).1 (a.extentsOf p n).2).any (fun x =>
      decide (a.rg .MEM_EXTENT_TGT x 0 ≠ b.rg .MEM_EXTENT_TGT x 0) || decide (a.rg .MEM_EXTENT_LEN x 0 ≠ b.rg .MEM_EXTENT_LEN x 0))))

/-- An inbound parcel whose export, or a span of whose partition, the switch changes (R297, R298, R327). -/
def State.parcelChanged (s now : State) (o : OpenParcel) : Bool :=
  let e := o.addr / 2 ^ 40 % 256
  o.isOpen && (decide (s.rg .MEM_EXPORT_CTL e 0 ≠ now.rg .MEM_EXPORT_CTL e 0) || decide (s.rg .MEM_EXPORT_RANGE e 0 ≠ now.rg .MEM_EXPORT_RANGE e 0) ||
    (List.range 64).any (fun n => spanDiffers s now o.part n))

/-- Parcels in flight, and inbound parcels that have begun, whose spans the switch changes go on under the old entries. [log 99: DEDUCED] -/
def State.markOld (s now : State) : State :=
  let now := now.setFab (fun b => { b with parcels := b.parcels.map (fun q => if s.parcelChanged now q.2 then (q.1, { q.2 with old := true }) else q) })
  now.setTrn (fun t => { t with parcels := t.parcels.map (fun q =>
    match s.entry q.2.part q.2.queue q.2.seq with
    | none => q
    | some e =>
      let d := e.desc
      if q.2.inFlight && ((!tdSrcG d && spanDiffers s now q.2.part (xwSpan (tdSrc d))) || (!tdDstG d && spanDiffers s now q.2.part (xwSpan (tdDst d))))
      then (q.1, { q.2 with old := true }) else q) })

/-- HUB_PAIR_CFG has changed: the device enters pair mode as LEAD or JOINING, or leaves it (R470, R480). [log 100: DEDUCED] -/
def State.pairSwitch (s : State) (was : Bool) : State :=
  let on := s.fb F.HUB_PAIR_CFG_ENABLE 0 0
  if was = on then s
  else if on then
    let ps := bitField 8 (fun p => s.fb F.PAR_CONFIG_ENABLE p 0)
    let s := (s.setF F.HUB_PAIR_STATUS_RESYNC 0 0 ps).setF F.HUB_PAIR_STATUS_CLEAN_STEPS 0 0 0
    let s := s.setRole (if s.fb F.HUB_PAIR_CFG_START 0 0 then roleJoining else roleLead)
    s.setPair (fun x => { x with silent := decide (s.role ≠ roleLead) })
  else (((s.setRole roleAlone).setF F.HUB_PAIR_STATUS_RESYNC 0 0 0).setPair (fun x => { x with silent := false })).settlePair

/-- A link's ENABLE or MAX_WIDTH changes: it goes down and trains again. -/
def State.portSwitch (s : State) (old : BitVec 64) (i : Nat) : State :=
  if F.FAB_PORT_CFG_ENABLE.of old = s.f F.FAB_PORT_CFG_ENABLE i 0 ∧ F.FAB_PORT_CFG_MAX_WIDTH.of old = s.f F.FAB_PORT_CFG_MAX_WIDTH i 0 then s
  else s.takeDown i downConfig

/-- Every policer is filled to BURST, and every shaper's next time is HUB_TIME (R314). -/
def State.refillTransit (s : State) : State :=
  s.regs.foldl (fun s q => match regAt q.1 with
    | some (.TRN_SUB_POLICE, u, _) => s.setTrn (fun t => { t with level := mput 0 t.level u (65536 * s.f F.TRN_SUB_POLICE_BURST u 0) })
    | some (.TRN_SUB_SHAPE, u, _) => s.setTrn (fun t => { t with nextTime := mput 0 t.nextTime u s.time })
    | _ => s) (s.setTrn (fun t => { t with level := [], nextTime := [] }))

/-- What a unit does when one of its registers takes a new value; old is the state before the gong. [log 99: DEDUCED] -/
def State.tookValue (old s : State) (off : Nat) : State :=
  match regAt off with
  | none => s
  | some (r, i, j) =>
    match r with
    | .FAB_EGRESS => s.egressWritten i
    | .FAB_PORT_CFG => s.portSwitch (old.rg r i j) i
    | .TRN_SUB_CFG | .TRN_SUB_POLICE | .TRN_SUB_SHAPE | .TRN_SERVICE_DRR => s.refillTransit
    | .INT_JOURNAL => s.setInteg (fun x => { x with journal := [] })
    | .EVT_SPILL_CFG =>
      let s := s.setB F.EVT_STATUS_SPILL_ACTIVE 0 0 (s.fb F.EVT_SPILL_CFG_ENABLE 0 0)
      s.setRg .EVT_SPILL_PTR 0 0 (BitVec.ofNat 64 (max s.spillPtr (s.evtHead - bankSlots)))
    | .FLS_CONFIG | .FLS_MAP_BASE => s.setF F.FLS_STATUS_READY 0 0 0
    | .PAR_SIJ_CFG => s.setPart i (fun x => { x with journaled := [] })
    | .HUB_PAIR_CFG => s.pairSwitch (old.fb F.HUB_PAIR_CFG_ENABLE 0 0)
    | _ => s

/-- Every unit takes the values of an epoch. [log 99: DEDUCED] -/
def State.takeValues (s : State) (e : SMap (BitVec 64)) : State :=
  let changed := epochDiff s.epochNow e
  let t := s.under (takeEpoch s.regs e)
  (changed.foldl (fun t o => State.tookValue s t o) (s.markOld t)).setUsed

/-- A range of n bytes at a fabric address lies in an extent of COMPOSED span n of p. -/
def State.inExtents (s : State) (p n : Nat) (r : Extent) : Bool :=
  (span (s.extentsOf p n).1 (s.extentsOf p n).2).any (fun x =>
    meets r (2 ^ 48 * s.f F.MEM_EXTENT_TGT_NODE x 0 + 2 ^ 40 * s.f F.MEM_EXTENT_TGT_EXPORT x 0 + s.f F.MEM_EXTENT_TGT_OFFSET x 0,
             (s.f F.MEM_EXTENT_LEN_LEN_M1 x 0 + 1) * 4096))

/-- A piece may have been reached through span n of p, by what the span covers. -/
def State.pieceOf (s : State) (p n : Nat) (c : Piece) : Bool :=
  let slot := fun (o : Nat) => !c.rem && (drumOfAddr c.addr).isSome && decide (o ≤ c.addr % 0x1000000)
  match s.spanKind p n with
  | 0 => !c.rem && meets (c.addr, c.len) (s.spanBase p n, s.spanLen p n)
  | 1 => slot 0 && meets (c.addr % 0x1000000, c.len) (s.spanBase p n % 0x1000000, s.spanLen p n)
  | 2 => slot 0x800000 && meets (c.addr % 0x4000, c.len) (s.spanBase p n % 0x4000, s.spanLen p n)
  | _ => c.rem && s.inExtents p n (c.addr, c.len)

/-- Operations issued under the old entry of a removed or shrunk span have completed: parcels, transfers, posted requests, and the requests and
parcels of peers (R297). [log 99: DEDUCED] -/
def State.switchDrained (s : State) : Bool :=
  let o := s.under s.cfg.old
  let gone := o.spansOf.filter (fun q => spanDiffers o s q.1 q.2)
  let under := fun (p : Nat) (c : Piece) => gone.any (fun q => decide (q.1 = p) && o.pieceOf q.1 q.2 c)
  !s.trn.parcels.any (fun q => q.2.old && q.2.inFlight) && !s.fab.parcels.any (fun q => q.2.old && q.2.isOpen) &&
  !s.xfers.any (fun x => x.2.live && x.2.pieces.any (fun c => under x.2.part c.2)) &&
  !s.fab.tags.any (fun t => decide (t.2.st = .out) && (match t.2.issuer with | .posted _ => true | _ => false) &&
    under t.2.part { rem := true, addr := t.2.addr, len := 8 }) &&
  !s.fab.inb.any (fun q => match q.hit with | some h => gone.any (fun g => decide (g = (h.1.part, h.1.span))) | none => false)

/-- Discard the pages of a removed or shrunk HBM span with DISCARD_ON_REMOVE that no valid span of the new epoch covers (R281). -/
def State.discardOld (s : State) : State :=
  let o := s.under s.cfg.old
  let pages := fun (r : Extent) => (r.1 / 4096, (r.1 + 4095 + r.2) / 4096)
  let kept := (s.absolutes.filter (fun r => decide (r.1 < hbmEnd))).map pages
  let cut := fun (l : List (Nat × Nat)) (k : Nat × Nat) =>
    l.flatMap (fun a => (if a.1 < min a.2 k.1 then [(a.1, min a.2 k.1)] else []) ++ (if max a.1 k.2 < a.2 then [(max a.1 k.2, a.2)] else []))
  let go := o.spansOf.filter (fun q => o.fb F.MEM_SPAN_CTL_DISCARD_ON_REMOVE q.1 q.2 && decide (o.spanKind q.1 q.2 = 0) && decide (o.spanBase q.1 q.2 < hbmEnd))
  go.foldl (fun s q => (kept.foldl cut [pages (o.spanBase q.1 q.2, o.spanLen q.1 q.2)]).foldl (fun s a => s.discardPages a.1 (a.2 - a.1)) s) s

-- ===== Journals and slots (R518, R523 to R526) =====

/-- Always-on and NOR image slots. -/
def State.slot (s : State) (n : Nat) : EpochImage := if n = 0 then s.cfg.slot0 else s.cfg.slot1
def State.norSlot (s : State) (n : Nat) : EpochImage := if n = 0 then s.cfg.nor0 else s.cfg.nor1
def State.setNorSlot (s : State) (n : Nat) (x : EpochImage) : State :=
  s.setCfg (fun c => if n = 0 then { c with nor0 := x } else { c with nor1 := x })

/-- Where slot n lies (Table 17.13). -/
def slotBase (n : Nat) : Nat := 0x0E0000900000 + 0xF8000 * n

/-- Bytes written by the device carry no mark. -/
def State.unmark (s : State) (a n : Nat) : State :=
  { s with mem := { s.mem with poison := ndelRange s.mem.poison (a / 32) (n / 32), ue := ndelRange s.mem.ue (a / 8) (n / 8),
                               ce := ndelRange s.mem.ce (a / 8) (n / 8) } }

/-- Write an image to always-on slot n. -/
def State.setSlot (s : State) (n : Nat) (x : EpochImage) : State :=
  (s.setCfg (fun c => if n = 0 then { c with slot0 := x } else { c with slot1 := x })).unmark (slotBase n) imageMax

/-- Always-on slot n holds a whole image. -/
def State.slotGood (s : State) (n : Nat) : Bool := (s.slot n).ok && !s.imagePoisoned (slotBase n) (s.slot n).regs

/-- The last SWITCH or ROLLBACK record of a journal, of any slot or of one. -/
def lastSwitch (j : List CfgRecord) : Option CfgRecord := j.reverse.find? (fun r => decide (r.kind = 3) || decide (r.kind = 4))
def lastOfSlot (j : List CfgRecord) (n : Nat) : Option CfgRecord :=
  j.reverse.find? (fun r => (decide (r.kind = 3) || decide (r.kind = 4)) && decide (r.slot = n))

/-- Append the newest always-on record to the NOR journal. -/
def State.copyToNor (s : State) : State :=
  match s.cfg.journal.getLast? with
  | none => s
  | some r => s.setCfg (fun c => { c with norJournal := (c.norJournal ++ [r]).drop (c.norJournal.length + 1 - 1024) })

/-- DURABLE (R523). [log 106: DEDUCED] -/
def State.fixDurable (s : State) : State :=
  s.setB F.HUB_CFG_STATUS_DURABLE 0 0 ((lastSwitch s.cfg.norJournal).any (fun r => decide (r.epoch = s.f F.HUB_CFG_STATUS_CURRENT 0 0)))

/-- The number of the next commit (R523). -/
def State.nextNumber (s : State) : Nat :=
  let cur := s.f F.HUB_CFG_STATUS_CURRENT 0 0
  let prev := s.f F.HUB_CFG_PREVIOUS_NUMBER 0 0
  let held := s.fb F.HUB_CFG_STATUS_PREV_VALID 0 0
  let made := fun (j : List CfgRecord) => j.reverse.find? (fun r => decide (r.kind = 3) && (decide (r.epoch = cur) || (held && decide (r.epoch = prev))))
  let last := match made s.cfg.journal, made s.cfg.norJournal with
    | some r, _ => r.epoch
    | none, some r => r.epoch
    | none, none => cur
  if last = 2 ^ 32 - 1 then 1 else last + 1

/-- NOR records still owed are written. [log 106: DEDUCED] -/
def State.writeOwed (s : State) : State :=
  (s.setCfg (fun c => { c with norJournal := (c.norJournal ++ c.norOwed).drop (c.norJournal.length + c.norOwed.length - 1024), norOwed := [] })).fixDurable

end Sys2Proof.Machine
end

