-- ==== Sys2Proof/Machine/Epoch.lean ====
section
/-!
DEFINITION. Sys2Proof/Machine/Epoch.lean: the configuration session: staging, validation, commit, rollback and the switch
(17_bringup_and_configuration.md, R517 to R523, Table 17.15).
-/
namespace Sys2Proof.Machine

open Sys2Proof (Word)

-- ===== The phase word (R519) =====

def cfgIdle : Nat := 0
def cfgOpened : Nat := 1
def cfgValidated : Nat := 2
def cfgPersisting : Nat := 3
def cfgHolding : Nat := 4
def cfgSwitching : Nat := 5
def State.cfgPhase (s : State) : Nat := s.f F.HUB_CFG_STATUS_PHASE 0 0
def State.setCfgPhase (s : State) (n : Nat) : State := s.setF F.HUB_CFG_STATUS_PHASE 0 0 n

/-- Write HUB_CFG_RESULT. -/
def State.cfgAnswer (s : State) (code first : Nat) : State :=
  ((s.setF F.HUB_CFG_RESULT_DONE 0 0 1).setF F.HUB_CFG_RESULT_CODE 0 0 code).setF F.HUB_CFG_RESULT_FIRST_BAD 0 0 first

/-- A validation fails. -/
def State.cfgInvalidated (s : State) (code first : Nat) : State := (s.log (srcHub 8) Ev.CFG_VALIDATE_FAIL [first, code]).cfgAnswer code first

/-- The session ends. [log 100: DEDUCED] -/
def State.endSession (s : State) : State :=
  { (s.setCfgPhase cfgIdle) with staged := [], cfg := { s.cfg with target := [], affected := [], isRollback := false } }

/-- A commit that fails returns to VALIDATED, a rollback to IDLE; every hold is released. -/
def State.cfgBack (s : State) : State :=
  if s.cfg.isRollback then s.endSession else (s.setCfgPhase cfgValidated).setCfg (fun c => { c with target := [], affected := [] })

/-- A write of HUB_CFG_CMD with an OP by initiator i (R519): the role, the owner, the form of the word, then the action. -/
def State.cfgRow (s : State) (op i : Nat) (w : Word) (act : State → State) : State :=
  if s.canWrite i = false ∨ F.HUB_CFG_CMD_OP.of w ≠ op then s
  else if s.follows && !s.pair.applying then s.cfgAnswer cfgNotLead 0
  else if s.cfgPhase ≠ cfgIdle ∧ s.f F.HUB_CFG_STATUS_OWNER 0 0 ≠ i then s.cfgAnswer cfgBusy 0
  else if rsvSet (RegName.fields .HUB_CFG_CMD) w then s.cfgAnswer cfgBadOp 0
  else act (s.forward i .HUB_CFG_CMD 0 0 w)

-- ===== Staging =====

/-- CFG_OPEN: the current epoch is copied to staging, and the writer owns the session. [log 94: DEDUCED] -/
def execCfgOpen (i : Nat) (w : Word) (s : State) : Answer :=
  .next (s.cfgRow 1 i w (fun s =>
    if s.cfgPhase ≠ cfgIdle then s.cfgAnswer cfgBadState 0
    else
      let s : State := { s with staged := s.epochNow }
      let s := (s.setF F.HUB_CFG_STATUS_OWNER 0 0 i).setCfgPhase cfgOpened
      (s.unmark stagedBase imageMax).cfgAnswer cfgOk 0))

/-- The session is OPEN or VALIDATED. -/
def State.cfgStaging (s : State) : Bool := decide (s.cfgPhase = cfgOpened) || decide (s.cfgPhase = cfgValidated)

/-- CFG_STAGED_WRITE: a write of an epoch register reaches the staged epoch of its writer's open session, or is refused (R517). [log 10: DEDUCED] -/
def execCfgStagedWrite (i off : Nat) (w : Word) (s : State) : Answer :=
  match regAt off with
  | none => .next s
  | some (r, j, k) =>
    if r.info.epoch = false ∨ s.canWrite i = false then .next s
    else if s.cfgStaging && decide (s.f F.HUB_CFG_STATUS_OWNER 0 0 = i) && (!s.follows || s.pair.applying) then
      let s := s.forward i r j k w
      .next ({ s with staged := storePut s.staged r j k (mixCfg r.fields (storeGet s.staged r j k) w) }.setCfgPhase cfgOpened)
    else .next (s.log (srcHub 8) Ev.CFG_WRITE_REFUSED)

/-- Validate the staged epoch: VALIDATED, or OPEN on failure. -/
def State.validateStaged (s : State) : State × Bool :=
  let r := s.validateEpoch s.staged true
  if r.1 = cfgOk then (s.setCfgPhase cfgValidated, true) else ((s.setCfgPhase cfgOpened).cfgInvalidated r.1 r.2, false)

/-- CFG_VALIDATE. -/
def execCfgValidate (i : Nat) (w : Word) (s : State) : Answer :=
  .next (s.cfgRow 2 i w (fun s =>
    if s.cfgStaging = false then s.cfgAnswer cfgBadState 0
    else
      let r := s.validateStaged
      if r.2 then r.1.cfgAnswer cfgOk 0 else r.1))

/-- CFG_ABANDON: the staging is discarded. -/
def execCfgAbandon (i : Nat) (w : Word) (s : State) : Answer :=
  .next (s.cfgRow 4 i w (fun s => if s.cfgStaging = false then s.cfgAnswer cfgBadState 0 else s.endSession.cfgAnswer cfgOk 0))

-- ===== Holding and the gong (R521, R522) =====

/-- The configuration gong sounds. -/
def State.soundGong (s : State) : State :=
  let old := s.regs
  ((s.setCfgPhase cfgSwitching).setCfg (fun c => { c with old := old })).takeValues s.cfg.target

/-- HOLDING begins; an epoch that affects no partition switches at once. [log 96: DEDUCED] -/
def State.enterHolding (s : State) : State :=
  let s := (s.setCfgPhase cfgHolding).setCfg (fun c => { c with affected := s.affectedBy c.target, limitAt := s.time + c.limit })
  if s.cfg.affected.isEmpty then s.soundGong else s

/-- Every affected partition is held. -/
def State.allHeld (s : State) : Bool := s.cfg.affected.all (fun p => s.isHeld p)

/-- CFG_HOLD_COMPLETE: every affected partition is held; the quotas are checked again, and the gong sounds. [log 96: DEDUCED] -/
def execCfgHoldComplete (s : State) : Answer :=
  if s.cfgPhase ≠ cfgHolding ∨ s.allHeld = false then .next s
  else
    let bad := (s.under (takeEpoch s.regs s.cfg.target)).badQuotas
    .next (if bad.isEmpty then s.soundGong else s.cfgBack.cfgInvalidated cfgState (lowestOf bad))

/-- CFG_TIMEOUT: HOLD_LIMIT_US passes in HOLDING. -/
def execCfgTimeout (s : State) : Answer :=
  if s.cfgPhase ≠ cfgHolding ∨ s.time < s.cfg.limitAt then .next s
  else .next ((s.cfgBack.log (srcHub 8) Ev.CFG_TIMEOUT).cfgAnswer cfgTimeout 0)

/-- CFG_CANCEL by the owner in HOLDING. -/
def execCfgCancel (i : Nat) (w : Word) (s : State) : Answer :=
  .next (s.cfgRow 6 i w (fun s => if s.cfgPhase ≠ cfgHolding then s.cfgAnswer cfgBadState 0 else s.cfgBack.cfgAnswer cfgCancelled 0))

-- ===== Commit and rollback (R519, R523, R526) =====

/-- The slot that a commit or a rollback uses: the one that does not hold the current epoch. -/
def State.otherSlot (s : State) : Nat := 1 - s.cfg.curSlot

/-- A commit or a rollback leaves for PERSISTING or HOLDING; its outcome comes later. -/
def State.beginSwitch (s : State) (e : SMap (BitVec 64)) (num : Nat) (rollback persist write : Bool) (us : Nat) : State :=
  let s := (s.setF F.HUB_CFG_RESULT_DONE 0 0 0).setCfg (fun c => { c with
    target := e, targetNum := num, isRollback := rollback, persist := persist, limit := if us = 0 then 1000000000 else us * 1000 })
  if write then
    let n := s.otherSlot
    (((s.setCfgPhase cfgPersisting).setNorSlot n { num := num, regs := e, ok := false }).cfgJournal 1 n num e).copyToNor
  else s.enterHolding

/-- CFG_COMMIT: validated when it is not yet, then persisted, or held at once. -/
def execCfgCommit (i : Nat) (w : Word) (s : State) : Answer :=
  .next (s.cfgRow 3 i w (fun s =>
    if s.cfgStaging = false then s.cfgAnswer cfgBadState 0
    else
      let r := if s.cfgPhase = cfgValidated then (s, true) else s.validateStaged
      let p := decide (F.HUB_CFG_CMD_PERSIST.of w = 1)
      if r.2 then r.1.beginSwitch r.1.staged r.1.nextNumber false p p (F.HUB_CFG_CMD_HOLD_LIMIT_US.of w) else r.1))

/-- The NOR slot of the previous epoch holds its image. -/
def State.norHoldsPrevious (s : State) : Bool :=
  let x := s.norSlot s.otherSlot
  x.ok && decide (x.num = s.f F.HUB_CFG_PREVIOUS_NUMBER 0 0) && decide (x.regs = s.previous)

/-- CFG_ROLLBACK: the previous epoch is the target. -/
def execCfgRollback (i : Nat) (w : Word) (s : State) : Answer :=
  .next (s.cfgRow 5 i w (fun s =>
    if s.cfgPhase ≠ cfgIdle then s.cfgAnswer cfgBadState 0
    else if s.fb F.HUB_CFG_STATUS_PREV_VALID 0 0 = false then s.cfgAnswer cfgNoPrevious 0
    else
      let r := s.validateEpoch s.previous false
      if r.1 ≠ cfgOk then s.cfgInvalidated r.1 r.2
      else
        let p := decide (F.HUB_CFG_CMD_PERSIST.of w = 1)
        (s.setF F.HUB_CFG_STATUS_OWNER 0 0 i).beginSwitch s.previous (s.f F.HUB_CFG_PREVIOUS_NUMBER 0 0) true p (p && !s.norHoldsPrevious)
          (F.HUB_CFG_CMD_HOLD_LIMIT_US.of w)))

/-- CFG_PERSIST_DONE: the image is written to NOR and read back, or the write fails. -/
def execCfgPersistDone (ok : Bool) (s : State) : Answer :=
  if s.cfgPhase ≠ cfgPersisting then .next s
  else if ok then
    let n := s.otherSlot
    let s := s.setNorSlot n { (s.norSlot n) with ok := true }
    .next (((s.cfgJournal 2 n s.cfg.targetNum s.cfg.target).copyToNor).enterHolding)
  else .next ((s.cfgBack.log (srcHub 8) Ev.CFG_NOR_FAIL).cfgAnswer cfgNorFail 0)

/-- CFG_SWITCH_DONE: the drain is over. The record is written, the epochs rotate, pages are discarded and holds are released (R522); changed
cores restart one after another (R527). -/
def execCfgSwitchDone (s : State) : Answer :=
  if s.cfgPhase ≠ cfgSwitching ∨ s.switchDrained = false then .next s
  else
    let n := s.otherSlot
    let num := s.cfg.targetNum
    let e := s.epochNow
    let back := s.cfg.isRollback
    let persist := s.cfg.persist
    let cores := (List.range 8).filter (fun c => decide (storeGet s.cfg.old .HUB_CC_IMAGE c 0 ≠ s.rg .HUB_CC_IMAGE c 0))
    let s := (s.setSlot n { num := num, regs := e, ok := true }).cfgJournal (if back then 4 else 3) n num e
    let s := if persist then s.setCfg (fun c => { c with norOwed := c.norOwed ++ c.journal.getLast?.toList }) else s
    let s := (s.setF F.HUB_CFG_PREVIOUS_NUMBER 0 0 (s.f F.HUB_CFG_STATUS_CURRENT 0 0)).setF F.HUB_CFG_STATUS_PREV_VALID 0 0 1
    let s := (s.setF F.HUB_CFG_STATUS_CURRENT 0 0 num).setCfg (fun c => { c with curSlot := n })
    let s : State := { s with previous := epochOf s.cfg.old }
    let s := s.discardOld.endSession.fixDurable
    let s := (s.log (srcHub 8) (if back then Ev.CFG_ROLLED_BACK else Ev.CFG_SWITCHED)).cfgAnswer cfgOk 0
    .next ((s.setCfg (fun c => { c with restartCores := c.restartCores ++ cores })).nextRestart (if s.cfg.restartCores.isEmpty then 9 else 0))

/-- CFG_NOR_SWITCH_WRITTEN: the SWITCH or ROLLBACK record reaches the NOR journal. -/
def execCfgNorSwitchWritten (s : State) : Answer :=
  if s.cfg.norOwed.isEmpty then .next s else .next s.writeOwed

end Sys2Proof.Machine
end

