-- ==== Sys2Proof/Machine/Boot.lean ====
section
/-!
DEFINITION. Sys2Proof/Machine/Boot.lean: the stages of bring-up (17_bringup_and_configuration.md, R508 to R515, R523 to R525, R529; 14, R438 and
R455; 16, R499 and R503; 01, R18).
-/
namespace Sys2Proof.Machine

open Sys2Proof (RomReport FillReport WindowReading)

-- ===== Stages (R513, R547) =====

/-- RB_N is released at the end of bring-up; the release counts as a pulse start and as a pulse's release (R548). [log 111: DEDUCED] -/
def State.releaseRb (s : State) : State := { s with mgmt := { s.mgmt with rbLow := false, inPulse := false, pulseDue := false, pulseStart := s.time, released := s.time + 1 } }

/-- Bring-up stops with a code of Table 17.9. -/
def State.bootFail (s : State) (code : Nat) : State :=
  (((s.setStage stageFailed).setF F.HUB_BOOT_FAIL 0 0 code).cause F.HUB_STATUS_CAUSE_BOOT).releaseRb

/-- The bring-up is warm. -/
def State.isWarm (s : State) : Bool := s.fb F.HUB_BOOT_WARM 0 0

-- ===== Boot images (R508 to R510) =====

/-- A boot image header (Table 17.6): its first 112 bytes and its fields. -/
structure BootHead where
  msg : Nat
  version : Nat
  secVersion : Nat
  len : Nat
  key : Nat
  digest : Nat
  sig : Nat
deriving DecidableEq, Repr

/-- Read a header from its 512 bytes; none when MAGIC or FORMAT differ. -/
def bootHead (v : Nat) : Option BootHead :=
  if v % 2 ^ 32 = 0x5A525042 ∧ v / 2 ^ 32 % 2 ^ 32 = 1 then
    some { msg := v % 2 ^ 896, version := v / 2 ^ 64 % 2 ^ 32, secVersion := v / 2 ^ 96 % 2 ^ 32, len := v / 2 ^ 128 % 2 ^ 32,
           key := v / 2 ^ 160 % 256, digest := digestField (v / 2 ^ 512), sig := v / 2 ^ 896 % 2 ^ 768 }
  else none

/-- The longest body. [log 101: DEDUCED] -/
def bodyMax : Nat := 4193792

/-- A header is acceptable (R510). [log 19, 27: DESIGN CHOICE; 101: DEDUCED] -/
def State.headOk (s : State) (h : BootHead) : Bool :=
  decide (h.key < 4) && !bit s.boot.revoked h.key &&
    decide ((mget 0 s.boot.keyDigests h.key).toNat = sha384 (Config.publicKey h.key) Config.publicKeyBytes) &&
    Config.ecdsaVerify h.key h.msg 112 h.sig && decide (s.boot.fuseCounter ≤ h.secVersion) && decide (h.len ≤ bodyMax)

/-- NOR offset of boot slot n. -/
def bootOff (n : Nat) : Nat := 0x400000 * n

/-- The acceptable header of boot slot n. -/
def State.bootSlot (s : State) (n : Nat) : Option BootHead := (bootHead (cellsRead s.boot.nor (bootOff n) 512)).filter s.headOk

/-- The body of boot slot n under its header. -/
def State.bootBody (s : State) (n : Nat) (h : BootHead) : Nat := cellsRead s.boot.nor (bootOff n + 512) h.len

/-- The order in which slots are tried: the higher VERSION first, or slot A when the two are equal. -/
def State.bootTries (s : State) : List Nat :=
  match s.bootSlot 0, s.bootSlot 1 with
  | some a, some b => if a.version < b.version then [1, 0] else [0, 1]
  | some _, none => [0]
  | none, some _ => [1]
  | none, none => []

/-- The smallest part (R508). -/
def norLeast : Nat := 0x4000000

/-- BOOT_ROM: the ROM stage ends: the self-check, the fuses, REFCLK_156 and the NOR part, then both headers. A cold reset latches the lock's
fused state (R514). [log 101: DEDUCED] -/
def execBootRom (r : RomReport) (s : State) : Answer :=
  if s.stage ≠ 1 then .next s
  else if r.selfOk = false then .next (s.bootFail 1)
  else if r.refclk = false then .next (s.bootFail 2)
  else if r.norOk = false ∨ s.boot.norSize < norLeast then .next (s.bootFail 3)
  else
    let s := if s.isWarm then s
      else (s.setB F.SEC_DEFAULT_LOCK_FUSED 0 0 s.boot.lockFused).setB F.SEC_DEFAULT_LOCK_LOCKED 0 0 s.boot.lockFused
    .next ((s.setBoot (fun b => { b with tries := s.bootTries })).setStage 2)

/-- An image runs: its header and its body, and its VERSION. -/
def State.takeImage (s : State) (h : BootHead) (body : Nat) : State :=
  (s.setBoot (fun b => { b with image := (h.msg, h.len, body), tries := [] })).setF F.HUB_BOOT_IMAGE_VERSION 0 0 h.version

/-- BOOT_VERIFY: the body of the slot to try first is read and its digest checked; on a mismatch the other slot is tried. [log 102: DEDUCED] -/
def execBootVerify (s : State) : Answer :=
  if s.stage ≠ 2 then .next s
  else
    let good := fun (n : Nat) => (s.bootSlot n).any (fun h => decide (sha384 (s.bootBody n h) h.len = h.digest))
    let pick := s.boot.tries.find? good
    let t := if pick = s.boot.tries.head? ∨ s.boot.tries.length < 2 then s else s.log (srcHub 8) Ev.BOOT_SLOT_FALLBACK
    match pick with
    | none => .next (t.bootFail 4)
    | some n =>
      match s.bootSlot n with
      | none => .next (t.bootFail 4)
      | some h => .next (((t.takeImage h (s.bootBody n h)).setF F.HUB_BOOT_SLOT 0 0 n).setStage 3)

-- ===== The fill (R18, R438, R455, R499, R503) =====

/-- HUB_IDENTITY.KITS. -/
def State.fixKits (s : State) : State := s.setF F.HUB_IDENTITY_KITS 0 0 (bitField 8 (fun k => s.kitLive k))

/-- Drum d of kit k is out of service before first use: a logical index that it holds goes to the lowest free spare. The answer is false when
there is none. -/
def State.outOfService (s : State) (k d : Nat) : State × Bool :=
  let n := s.logical k d
  let s := s.setDrum k d (fun _ => { retired := true })
  match n with
  | none => (s, true)
  | some n =>
    match s.freeSpare k with
    | none => (s, false)
    | some x => (s.setKit k (fun y => { y with map := mput 0 y.map n (if x = n then 0 else x + 1) }), true)

/-- The retirement record: drums and segments of the fuses, kits of NOR. A kit without a spare for a fused drum is out of service. -/
def State.applyRetired (s : State) : State :=
  let off := fun (s : State) (k : Nat) => s.setKit k (fun x => { x with retired := true })
  let s := s.boot.fusedDrums.foldl (fun s q =>
    if (s.drum q.1 q.2).retired then s else let r := s.outOfService q.1 q.2; if r.2 then r.1 else off r.1 q.1) s
  let s := s.boot.fusedSegs.foldl (fun s q => s.setKit q.1 (fun x => { x with segFaults := mupd 0 x.segFaults q.2 (· + 1) })) s
  s.boot.norKits.foldl off s

/-- A drum whose read-back fails is retired before first use. [log 102: DEDUCED] -/
def State.fillDrum (s : State) (k d : Nat) : State :=
  if s.kitLive k = false ∨ 156 ≤ d ∨ (s.drum k d).retired = true then s
  else
    let s := (s.log (srcKit k) Ev.SRAM_FILL_FAIL [] none (some (unitDrum k d))).setBoot (fun b => { b with fusedDrums := b.fusedDrums ++ [(k, d)] })
    let r := s.outOfService k d
    if r.2 then r.1 else r.1.retireKit k

/-- Pool granules that fail are recorded (Table 14.12). [log 102: DEDUCED] -/
def State.fillGranules (s : State) (gs : List Nat) : State :=
  let bad := (gs.filter (fun g => decide (g < 768))).foldl nins []
  let s := s.setBoot (fun b => { b with badGranules := bad })
  s.setRg .INT_HUB_BAD 0 0 (BitVec.ofNat 64 (bad.headD 0 + 2 ^ 16 * bad.length))

/-- The fill of a cold bring-up writes zeros, to the always-on domain too when its power was lost, and the log starts from record 1. -/
def State.fillZeros (s : State) (lost : Bool) : State :=
  let s : State := { s with mem := s.mem.cold lost }
  let s := if lost then
      let c := s.cfg.cold true
      let s : State := { s with cfg := c }
      ((s.setRg .EVT_LOST 0 0 0).setF F.EVT_STATUS_BANK0_LOST 0 0 0).setF F.EVT_STATUS_BANK1_LOST 0 0 0
    else s
  ((s.setRg .EVT_HEAD 0 0 1).setRg .EVT_READ 0 0 1).setBoot (fun b => { b with aonLost := lost })

/-- The fill is over: the log accepts records. After a warm reset its first record is LOG_RESET. [log 90: DEDUCED] -/
def State.startLog (s : State) : State :=
  let s : State := { s with ev := { s.ev with running := true } }
  match s.ev.resetLost with
  | none => s
  | some n => { (s.acceptEv { cat := Ev.LOG_RESET.1, code := Ev.LOG_RESET.2, items := [n] } false) with ev := { s.ev with resetLost := none } }

/-- BOOT_FILL: every SRAM is written with zeros and read back, the retirement record is applied and the event log starts. A warm bring-up
writes nothing (R512). [log 102: DEDUCED] -/
def execBootFill (r : FillReport) (s : State) : Answer :=
  if s.stage ≠ 3 then .next s
  else if s.isWarm then .next (s.startLog.setStage 4)
  else
    let s := s.fillZeros (s.boot.aonLost || r.aonLost)
    if r.other then .next (s.bootFail 5)
    else if r.bank0 && r.bank1 then
      .next ((((s.setF F.EVT_STATUS_BANK0_LOST 0 0 1).setF F.EVT_STATUS_BANK1_LOST 0 0 1).cause F.HUB_STATUS_CAUSE_LOG_LOST).bootFail 6)
    else
      let s := (r.drums.foldl (fun s q => s.fillDrum q.1 q.2) s.applyRetired).fixKits.fillGranules r.granules
      let s := if r.bank0 then s.loseBank 0 1 else if r.bank1 then s.loseBank 1 1 else s
      .next ((s.setBoot (fun b => { b with fillDone := true })).startLog.setStage 4)

-- ===== HBM, links and tempo (R454, R348, R41, R174) =====

/-- BOOT_HBM: the stacks of unretired kits are trained; a kit whose stack fails is retired. -/
def execBootHbm (failed : List Nat) (s : State) : Answer :=
  if s.stage ≠ 4 then .next s
  else
    let s := failed.foldl (fun s k => s.retireKit k) s
    .next (if (List.range 8).any (fun k => s.kitLive k && !(s.activeDrums k).isEmpty) then s.setStage 5 else s.bootFail 7)

/-- BOOT_LINK: each enabled port and cymbal link has trained, or its wait has ended. Every drum of the live kits calibrates next. [log 103: DESIGN CHOICE] -/
def execBootLink (trained : List (Nat × Nat)) (s : State) : Answer :=
  if s.stage ≠ 5 then .next s
  else
    let s := trained.foldl (fun s q => if s.canTrain q.1 q.2 then s.linkTrained q.1 q.2 else s) s
    let s := (List.range 18).foldl (fun s i =>
      if s.fb F.FAB_PORT_CFG_ENABLE i 0 && !s.linkUp i then s.log (srcLink i) Ev.BOOT_LINK_LATE [] none (some (unitLink i)) else s) s
    let up := ((List.range 16).find? (fun i => s.linkUp i)).getD 0
    let s := s.setBoot (fun b => { b with seedPort := up })
    .next (((List.range 8).foldl (fun s k => if s.kitLive k then (List.range 156).foldl (fun s d =>
      if (s.drum k d).retired then s else s.setDrum k d (fun x => { x with calibrating := true })) s else s) s).setStage 6)

/-- The first calibration of a drum ends with a RATIO in range that no CALIB_COMPLETE has brought. [log 103: DESIGN CHOICE] -/
def State.calibrated (s : State) (k d : Nat) : State :=
  if (s.drum k d).calibrating = false then s
  else
    let t := s.time
    let s := (s.setDrum k d (fun x => { x with calibrating := false, calibAt := t })).setF F.DRM_CALIB_RATIO k d (0x7EB8 + Config.freeValue s.freeCtr % 0x291)
    let s := (s.setF F.DRM_CALIB_DONE k d 1).fresh
    if s.isTrimSource k d then s.setKit k (fun x => { x with trimmed := true }) else s

/-- BOOT_TEMPO: every drum has calibrated and the first window closes. [log 103: DESIGN CHOICE] -/
def execBootTempo (w : WindowReading) (s : State) : Answer :=
  if s.stage ≠ 6 then .next s
  else
    let s := (List.range 8).foldl (fun s k => (List.range 156).foldl (fun s d => s.calibrated k d) s) s
    .next ((s.closeWindow w true).setStage 7)

-- ===== The epoch of bring-up (R515, R525) =====

/-- The epoch that CONFIG takes: EPOCH_SRC, number, registers, slot, and the previous epoch. -/
structure BootPick where
  src : Nat
  num : Nat := 0
  regs : SMap (BitVec 64) := []
  slot : Nat := 1
  prev : Option (Nat × SMap (BitVec 64)) := none
deriving DecidableEq, Repr

/-- The slot of a record holds the record's epoch. [log 104: DEDUCED] -/
def State.slotIs (s : State) (r : CfgRecord) : Bool := s.slotGood r.slot && decide ((s.slot r.slot).num = r.epoch)
def State.norIs (s : State) (r : CfgRecord) : Bool := (s.norSlot r.slot).ok && decide ((s.norSlot r.slot).num = r.epoch)

/-- The first rule: the always-on journal. The answer tells whether the slot that its latest record names has failed. [log 104: DEDUCED] -/
def State.pickAon (s : State) : Option (BootPick × Bool) :=
  match lastSwitch s.cfg.journal with
  | none => none
  | some r =>
    let other := (lastOfSlot s.cfg.journal (1 - r.slot)).filter s.slotIs
    if s.slotIs r then
      some ({ src := 0, num := r.epoch, regs := (s.slot r.slot).regs, slot := r.slot, prev := other.map (fun q => (q.epoch, (s.slot q.slot).regs)) }, false)
    else other.map (fun q => ({ src := 0, num := q.epoch, regs := (s.slot q.slot).regs, slot := q.slot }, true))

/-- A later epoch that had switched without reaching NOR: one that the always-on journal names, or one persisted whose switch NOR lacks. -/
def State.laterEpoch (s : State) (num : Nat) : Option Nat :=
  match (lastSwitch s.cfg.journal).filter (fun r => decide (r.epoch ≠ num)) with
  | some r => some r.epoch
  | none => ((s.cfg.norJournal.reverse.takeWhile (fun r => decide (r.kind ≠ 3) && decide (r.kind ≠ 4))).find? (fun r => decide (r.kind = 2))).map (fun r => r.epoch)

/-- The second rule: the NOR journal. Its images are copied to the always-on slots and its record to the always-on journal. [log 104: DEDUCED] -/
def State.pickNor (s : State) : Option (BootPick × State) :=
  match (lastSwitch s.cfg.norJournal).filter s.norIs with
  | none => none
  | some r =>
    let e := (s.norSlot r.slot).regs
    let other := (lastOfSlot s.cfg.norJournal (1 - r.slot)).filter s.norIs
    let t := s.setSlot r.slot (s.norSlot r.slot)
    let t := match other with
      | some q => t.setSlot q.slot (s.norSlot q.slot)
      | none => t
    let t := t.cfgJournal r.kind r.slot r.epoch e
    let t := match s.laterEpoch r.epoch with
      | some n => t.log (srcHub 8) Ev.CFG_REVERTED [n, r.epoch]
      | none => t
    some ({ src := 1, num := r.epoch, regs := e, slot := r.slot, prev := other.map (fun q => (q.epoch, (s.norSlot q.slot).regs)) }, t)

/-- Epoch 0 is empty (R515). -/
def State.defaultOff (s : State) : Bool := !s.boot.defaultN || s.fb F.SEC_DEFAULT_LOCK_LOCKED 0 0 || decide (s.boot.nodeStrap = 0xFFFF)

/-- Runs of consecutive live kits: first kit and number. -/
def State.kitRuns (s : State) : List (Nat × Nat) :=
  ((List.range 8).filter (fun k => s.kitLive k && (decide (k = 0) || !s.kitLive (k - 1)))).map (fun k =>
    (k, ((span k (8 - k)).takeWhile (fun q => s.kitLive q)).length))

/-- The default form of epoch 0 (Table 17.11) but for the routes; NODE is the strap. -/
def State.defaultRegs (s : State) : SMap (BitVec 64) :=
  let m := storeSetF [] F.FAB_CONFIG_NODE 0 0 s.boot.nodeStrap.toNat
  if s.defaultOff then m
  else
    let kits := (List.range 8).filter (fun k => s.kitLive k)
    let m := storeSetF m F.PAR_CONFIG_ENABLE 0 0 1
    let m := storeSetF m F.PAR_CONFIG_KIT_MASK 0 0 (bitField 8 (fun k => s.kitLive k))
    let m := storeSetF m F.PAR_CONFIG_ROLES 0 0 (kits.foldl (fun w k => w + 2 * 4 ^ k) 0)
    ((s.kitRuns.zip (List.range 8)).foldl (fun m q =>
      let n := q.2
      let len := hbmKit * q.1.2
      let m := storeSetF (storeSetF m F.MEM_SPAN_CTL_VALID 0 n 1) F.MEM_SPAN_CTL_RIGHTS 0 n 15
      let m := storeSetF (storeSetF m F.MEM_SPAN_CTL_LENGTH_M1 0 n (len - 1)) F.MEM_SPAN_BASE_BASE 0 n (hbmKit * q.1.1)
      let m := storeSetF (storeSetF m F.MEM_EXPORT_CTL_VALID n 0 1) F.MEM_EXPORT_CTL_RIGHTS n 0 15
      storeSetF (storeSetF m F.MEM_EXPORT_CTL_SPAN n 0 n) F.MEM_EXPORT_RANGE_LEN_M1 n 0 (len / 65536 - 1)) m)

/-- Routes of the default form: every node but 0xFFFF through the seed port, ADAPTIVE. [log 105: DEDUCED] -/
def State.defaultRoutes (s : State) : SMap (BitVec 64) :=
  if s.defaultOff then []
  else
    let w := F.FAB_EGRESS_SEED_PORT.put (F.FAB_EGRESS_ADAPTIVE.put (F.FAB_EGRESS_VALID.put 0 1) 1) s.boot.seedPort
    (List.range 0xFFFF).map (fun n => (RegName.off .FAB_EGRESS n 0, w))

/-- Epoch 0: the routes stand in their place among the other registers. -/
def State.epochZero (s : State) : SMap (BitVec 64) :=
  let m := s.defaultRegs
  m.filter (fun q => decide (q.1 < RegName.off .FAB_EGRESS 0 0)) ++ s.defaultRoutes ++ m.filter (fun q => decide (RegName.off .FAB_EGRESS 0 0 ≤ q.1))

/-- The choice of R525, with what it copies and logs. [log 104: DEDUCED] -/
def State.pickEpoch (s : State) : BootPick × State :=
  match (if s.boot.aonLost then none else s.pickAon) with
  | some (p, bad) => (p, if bad then s.log (srcHub 8) Ev.CFG_SLOT_BAD else s)
  | none =>
    match s.pickNor with
    | some q => q
    | none =>
      if s.defaultOff then ({ src := 3, regs := s.epochZero }, s)
      else ({ src := 2, regs := s.epochZero }, s.log (srcHub 8) Ev.CFG_DEFAULT)

/-- The chosen epoch and the previous one are edited for kit k, retired since they were stored (R529). -/
def editPick (q : BootPick × State) (k : Nat) : BootPick × State :=
  let p := q.1
  let e := editKit p.regs k
  let old := p.prev.map (fun x => (x.1, editKit x.2 k))
  if e = p.regs ∧ old = p.prev then q
  else
    let t := if 2 ≤ p.src then q.2
      else
        let t := q.2.setSlot p.slot { num := p.num, regs := e, ok := true }
        match old with
        | some x => t.setSlot (1 - p.slot) { num := x.1, regs := x.2, ok := true }
        | none => t
    ({ p with regs := e, prev := old }, (t.cfgJournal 5 p.slot p.num e).log (srcHub 8) Ev.CFG_RETIRE_EDIT [k])

/-- Routes as bring-up applies them: on the seed port, and ADAPTIVE entries unlearned. Nothing is in flight on an earlier port. [log 104: DEDUCED] -/
def routeWord (w : BitVec 64) : BitVec 64 :=
  F.FAB_EGRESS_STATE.put (F.FAB_EGRESS_PORT.put w (F.FAB_EGRESS_SEED_PORT.of w)) (if F.FAB_EGRESS_ADAPTIVE.of w = 1 then egUnlearned else egHold)

/-- What a unit does with a value that bring-up applies; journals that a warm reset keeps stand. [log 104: DEDUCED] -/
def State.bootValue (old s : State) (off : Nat) : State :=
  match regAt off with
  | some (.INT_JOURNAL, _, _) => s
  | some (.PAR_SIJ_CFG, _, _) => s
  | some (.FAB_EGRESS, n, _) =>
    if s.fb F.FAB_EGRESS_ADAPTIVE n 0 then s else s.setEgress n (fun e => { e with holdEnd := s.time + 2000 })
  | _ => State.tookValue old s off

/-- The epoch is applied. [log 104: DEDUCED] -/
def State.applyEpoch (s : State) (p : BootPick) : State :=
  let changed := epochDiff s.epochNow p.regs
  let t := s.under ((takeEpoch s.regs p.regs).map (fun q => if regIs (fun r => decide (r = .FAB_EGRESS)) q.1 then (q.1, routeWord q.2) else q))
  let t := (changed.foldl (fun t o => State.bootValue s t o) t).setUsed
  let t := (t.setF F.HUB_CFG_STATUS_CURRENT 0 0 p.num).setCfg (fun c => { c with curSlot := p.slot })
  let t := match p.prev with
    | some x => { (((t.setF F.HUB_CFG_PREVIOUS_NUMBER 0 0 x.1).setF F.HUB_CFG_STATUS_PREV_VALID 0 0 1)) with previous := x.2 }
    | none => { t with previous := [] }
  ((List.range 8).filter (fun k => !t.kitLive k)).foldl (fun t k => t.loseHbm k) t.fixDurable

/-- Control core c's image is loaded and the core released: an installed image whose digest is right, the base program on CC0, or nothing (R527). [log 97: DEDUCED] -/
def State.startCore (s : State) (c : Nat) : State :=
  if s.fb F.HUB_CC_IMAGE_VALID c 0 && (s.imageFor c).isSome then (s.loadCore c).setCore c true
  else
    let s := if s.fb F.HUB_CC_IMAGE_VALID c 0 then s.log (srcCore c) Ev.CFG_IMAGE_BAD [] none (some (unitCore c)) else s
    s.setCore c (decide (c = 0))

/-- Transit entries that a warm reset has cut off complete before their queues accept again (R321). [log 90: DEDUCED] -/
def State.closeTransit (s : State) : State :=
  (s.trn.entries.filter (fun e => decide (e.st = 2))).foldl (fun s e => s.complete e e.code) s

/-- Bring-up is complete: READY, or SERVICE_LOST when the minimum service set does not stand. [log 105: DEDUCED] -/
def State.bootDone (s : State) (src : Nat) : State :=
  let ms := min ((s.time - s.boot.releasedAt) / 1000000) 65535
  let s := ((s.setF F.HUB_BOOT_EPOCH_SRC 0 0 src).setF F.HUB_BOOT_ELAPSED_MS 0 0 ms).setBoot (fun b => { b with aonLost := false })
  if s.serviceStands then
    let s := ((s.setStage stageReady).setF F.HUB_STATUS_READY 0 0 1).setBoot (fun b => { b with readyAt := s.time })
    (s.log (srcHub 8) Ev.BOOT_DONE [ms, src]).releaseRb
  else ((s.setBoot (fun b => { b with coresRun := 0 })).setStage stageLost |>.cause F.HUB_STATUS_CAUSE_BOOT).releaseRb

/-- BOOT_CONFIG: an epoch is selected, edited for retirements and applied, control-core images are loaded and the cores released. [log 90: DEDUCED] -/
def execBootConfig (s : State) : Answer :=
  if s.stage ≠ 7 then .next s
  else
    let q := ((List.range 8).filter (fun k => !s.kitLive k)).foldl editPick s.pickEpoch
    let s := (q.2.applyEpoch q.1).closeTransit
    .next (((List.range 8).foldl (fun s c => s.startCore c) s).bootDone q.1.src)

end Sys2Proof.Machine
end

