-- ==== Sys2Proof/Machine/Host.lean ====
section
/-!
DEFINITION. Sys2Proof/Machine/Host.lean: the host queues, the commands they carry and the local memory window
(18_host_port_and_control_map.md, R531, R535 to R543; 17, R510, R527 and R528).
-/
namespace Sys2Proof.Machine

open Sys2Proof (Word HostEntry HostData HostAccess)

-- ===== Queue registers (R536) =====

/-- The registers of queue pair q answer initiator i: from ready on, or for queue 0 and the host in FAILED with IMAGE_NONE (R514). -/
def State.canQueue (s : State) (i q : Nat) : Bool :=
  decide (q < 16) && (s.canWrite i || (decide (q = 0) && decide (i = 8) && decide (s.stage = stageFailed) && decide (s.f F.HUB_BOOT_FAIL 0 0 = 4)))

/-- (a - b) mod 2^16. -/
def diff16 (a b : Nat) : Nat := (a + 65536 - b % 65536) % 65536

/-- HQ_CFG_WRITE: a queue pair is enabled, disabled or changed. [log 108: DEDUCED] -/
def execHqCfgWrite (i q : Nat) (w : Word) (s : State) : Answer :=
  if s.canQueue i q = false then .next s
  else
    let old := s.rg .HUB_HQ_CFG q 0
    let new := writeFields (RegName.fields .HUB_HQ_CFG) old w
    let was := decide (F.HUB_HQ_CFG_ENABLE.of old = 1)
    if was && decide (F.HUB_HQ_CFG_ENABLE.put new 1 ≠ old) then .next (s.log (srcHub 9) Ev.RING_BUSY [q])
    else
      let s := s.setRg .HUB_HQ_CFG q 0 new
      if F.HUB_HQ_CFG_ENABLE.of new = 0 then .next (if was then s.stopQueue q else s)
      else if was then .next s
      else .next (((s.setRg .HUB_HQ_STATUS q 0 (RegName.resetWord .HUB_HQ_STATUS q 0)).setRg .HUB_HQ_SQ_TAIL q 0 0).setRg .HUB_HQ_CQ_HEAD q 0 0)

-- ===== Taking entries (R537) =====

/-- The words of an SQ entry as a command (Table 18.6): reserved fields and a reserved CID make it bad. -/
def cmdOf (e : HostEntry) (head : Nat) : HostCmd :=
  let w := fun (i : Nat) => e.words.getD i 0
  let opc := bits (w 0) 63 56
  let rsv := decide (bits (w 0) 55 48 ≠ 0) || decide (bits (w 0) 31 1 ≠ 0) || (decide (opc ≠ 2) && bit (w 0) 0) ||
    (span 4 4).any (fun i => decide (w i ≠ 0))
  { cid := bits (w 0) 47 32, opc := opc, dir := w 0 % 2, data := w 1, arg0 := w 2, arg1 := w 3, head := head, bad := rsv || decide (bits (w 0) 47 32 = 0xFFFF) }

/-- End a command: its completion waits for the CQ, unless its queue has been disabled since it was taken. -/
def State.hostEnd (s : State) (q : Nat) (c : HostCmd) (status : Nat) (payload : List Nat) (nor : Bool) : State :=
  if c.drop then s
  else
    let k : HostCompl := { num := s.host.nextNum, nor := nor, cid := c.cid, status := status, head := c.head, payload := payload, serve := decide (c.opc = 1) }
    s.setHost (fun h => { h with waiting := mput [] h.waiting q (mget [] h.waiting q ++ [k]), nextNum := h.nextNum + 1, norBusy := h.norBusy || nor })

/-- A read of host memory has failed (Table 18.7). -/
def State.dmaError (s : State) (q : Nat) : State := s.log (srcHub 9) Ev.HOST_DMA_ERROR [q]

/-- One entry is taken. A reserved OPC completes at once, and so does an entry whose read has failed, with a CID that the spec leaves open. [log 18, 108: DEDUCED] -/
def State.takeEntry (s : State) (q : Nat) (e : HostEntry) : State :=
  let head := (s.f F.HUB_HQ_STATUS_SQ_HEAD q 0 + 1) % 65536
  let s := s.setF F.HUB_HQ_STATUS_SQ_HEAD q 0 head
  let c := cmdOf e head
  if e.ok = false then (s.dmaError q).fresh.hostEnd q { cid := Config.freeValue s.freeCtr % 65536, head := head } 4 [] false
  else if c.opc = 0 ∨ 5 < c.opc then s.hostEnd q c 1 [] false
  else s.setHost (fun h => { h with taken := mput [] h.taken q (mget [] h.taken q ++ [c]) })

/-- HQ_SQ_DOORBELL: entries that the host has written are taken in order, as host memory returns them. [log 18: DEDUCED] -/
def execHqSqDoorbell (i q : Nat) (w : Word) (es : List HostEntry) (s : State) : Answer :=
  if s.canQueue i q = false ∨ s.hqOn q = false then .next s
  else
    let n := diff16 (F.HUB_HQ_SQ_TAIL_TAIL.of w) (s.f F.HUB_HQ_STATUS_SQ_HEAD q 0)
    if 2 ^ s.f F.HUB_HQ_CFG_SQ_LOG2 q 0 < n then .next (s.log (srcHub 9) Ev.RING_OVERRUN [q])
    else .next ((es.take n).foldl (fun s e => s.takeEntry q e) (s.setF F.HUB_HQ_SQ_TAIL_TAIL q 0 (F.HUB_HQ_SQ_TAIL_TAIL.of w)))

/-- HQ_CQ_DOORBELL: the host has consumed entries up to HEAD. -/
def execHqCqDoorbell (i q : Nat) (w : Word) (s : State) : Answer :=
  if s.canQueue i q = false ∨ s.hqOn q = false then .next s
  else
    let old := s.f F.HUB_HQ_CQ_HEAD_HEAD q 0
    let new := F.HUB_HQ_CQ_HEAD_HEAD.of w
    if diff16 (s.f F.HUB_HQ_STATUS_CQ_TAIL q 0) old < diff16 new old then .next (s.log (srcHub 9) Ev.RING_OVERRUN [q])
    else .next (s.setF F.HUB_HQ_CQ_HEAD_HEAD q 0 new)

-- ===== Completions (R538, R539) =====

/-- The first completion that may be written: a SERVE command's waits for those taken before it. -/
def nextCompl (cs : List HostCompl) (blocked : Bool) : Option HostCompl :=
  match cs with
  | [] => none
  | c :: r => if c.ready && !(c.serve && blocked) then some c else nextCompl r (blocked || c.serve)

/-- Word 7 of a CQ entry. -/
def complWord (q phase : Nat) (c : HostCompl) (head : Nat) : Nat :=
  2 ^ 63 * phase + 2 ^ 48 * c.status + 2 ^ 32 * c.cid + 2 ^ 28 * q + 2 ^ 12 * head

/-- The entry of a completion is written: words 0 to 6, then word 7. An unsolicited record carries the present SQ_HEAD. [log 110: DEDUCED] -/
def State.writeCompl (s : State) (q : Nat) (c : HostCompl) : State :=
  let t := s.f F.HUB_HQ_STATUS_CQ_TAIL q 0
  let n := 2 ^ s.f F.HUB_HQ_CFG_CQ_LOG2 q 0
  let a := (s.rg .HUB_HQ_CQ_BASE q 0).toNat + 64 * (t % n)
  let phase := s.f F.HUB_HQ_STATUS_PHASE q 0
  let head := if c.slot = 0 then c.head else s.f F.HUB_HQ_STATUS_SQ_HEAD q 0
  let out : List HostWrite := [{ addr := a, words := (List.range 7).map (fun i => if i < 6 then c.payload.getD i 0 else 0) },
    { addr := a + 56, words := [complWord q phase c head] }]
  let s : State := { s with out := { s.out with host := s.out.host ++ out } }
  let s := s.setHost (fun h => { h with waiting := mput [] h.waiting q ((mget [] h.waiting q).erase c), norBusy := h.norBusy && !c.nor })
  let t' := (t + 1) % 65536
  let s := s.setF F.HUB_HQ_STATUS_CQ_TAIL q 0 t'
  let s := if t' % n = 0 then s.setF F.HUB_HQ_STATUS_PHASE q 0 (1 - phase) else s
  let s := if s.fb F.HUB_HQ_CFG_ATTN_EN q 0 then s.cause F.HUB_STATUS_CAUSE_CQ else s
  if c.slot = 0 then s else s.respDone (c.slot - 1) true

/-- HQ_COMMAND_COMPLETE: the next completion of queue q is written to its CQ, or waits while the CQ is full. -/
def execHqCommandComplete (q : Nat) (s : State) : Answer :=
  if s.hqOn q = false then .next s
  else
    match nextCompl (mget [] s.host.waiting q) false with
    | none => .next s
    | some c =>
      if diff16 (s.f F.HUB_HQ_STATUS_CQ_TAIL q 0) (s.f F.HUB_HQ_CQ_HEAD_HEAD q 0) = 2 ^ s.f F.HUB_HQ_CFG_CQ_LOG2 q 0 then
        .next (s.logLimited (limCq q) 1000000 (srcHub 9) Ev.HOST_CQ_FULL [q])
      else .next (s.writeCompl q c)

-- ===== Commands (R539 to R543) =====

/-- The oldest command taken from queue q, when it has an OPC. -/
def State.hostFront (s : State) (q opc : Nat) : Option HostCmd := (mget [] s.host.taken q).head?.filter (fun c => decide (c.opc = opc))

/-- The oldest command leaves. -/
def State.hostPop (s : State) (q : Nat) : State := s.setHost (fun h => { h with taken := mput [] h.taken q (mget [] h.taken q).tail })

/-- The value of the first n bytes, and their poisoned granules as a mask. -/
def hostVal (d : HostData) (n : Nat) : Nat := (List.range n).foldr (fun i v => v * 256 + d.bytes.getD i 0 % 256) 0
def hostMask (d : HostData) (n : Nat) : Nat := (d.poison.filter (fun g => decide (32 * g < n))).foldl (fun m g => m ||| 2 ^ g) 0

/-- Orders 2 and 3 of Table 18.7: fields, then stage and role; 0 when both pass. [log 108: DEDUCED] -/
def State.hostCheck (s : State) (c : HostCmd) (operands admitted : Bool) : Nat :=
  if c.bad || !operands then 2 else if !admitted || s.follows then 3 else 0

/-- SERVE: a record enters the admission of the queue's partition. One poisoned in host memory is refused by admission. [log 110: DEDUCED] -/
def execServe (q : Nat) (d : HostData) (s : State) : Answer :=
  match s.hostFront q 1 with
  | none => .next s
  | some c =>
    let s := s.hostPop q
    let p := hostMask d 128
    let r : ReqRec := { v := hostVal d 128, p := p, part := s.f F.HUB_HQ_CFG_PARTITION q 0, src := .host q s.host.nextNum }
    let form := decide (c.arg0 = 0) && decide (c.arg1 = 0) &&
      (d.dmaError || decide (p ≠ 0) || ((decide (r.op = 1) || decide (r.op = 2) || decide (r.op = 5)) && decide (r.w 3 = 0)))
    let e := s.hostCheck c form (s.fb F.HUB_STATUS_READY 0 0)
    if e ≠ 0 then .next (s.hostEnd q c e [] false)
    else if d.dmaError then .next ((s.dmaError q).hostEnd q c 4 [] false)
    else
      let k : HostCompl := { num := s.host.nextNum, cid := c.cid, head := c.head, serve := true, ready := false }
      let w := mget [] s.host.waiting q
      let s := s.setHost (fun h => { h with nextNum := h.nextNum + 1, waiting := if c.drop then h.waiting else mput [] h.waiting q (w ++ [k]) })
      .next (if p ≠ 0 then s.refuse r 2 else s.deliver r)

/-- Some byte of [a, a + n) lies in a reserved range. -/
def State.reserves (s : State) (a n : Nat) : Bool :=
  (chunks (n / 4096 + 2) (s.canon a) n).any (fun c => decide (s.region c.1 = .reserved) || decide (s.region (c.1 + c.2 - 1) = .reserved))

/-- A mask of one bit per byte that lies at b, seen from address a. -/
def maskAt (a b m : Nat) : Nat := if a ≤ b then m * 2 ^ (b - a) else m / 2 ^ (a - b)

/-- KV descriptors that [a, a + n) meets. -/
def kvMet (a n : Nat) : List Nat :=
  let lo := max a (kvAddr 0)
  let hi := min (a + n) (kvAddr (2 ^ 14))
  if hi ≤ lo then [] else span ((lo - kvAddr 0) / 64) ((hi - 1 - kvAddr 0) / 64 + 1 - (lo - kvAddr 0) / 64)

/-- Bytes of [a, a + n) that no software write reaches: the slot table (R240), and in the KV table every descriptor that is not FREE and words 5
to 7 of every other (R197). -/
def State.lockedBytes (s : State) (a n : Nat) : Nat :=
  let kv := (kvMet a n).foldl (fun m i => m ||| maskAt a (kvAddr i) (if s.kvState i = kvFree then ones 24 * 2 ^ 40 else ones 64)) 0
  (if a < kvAddr 0 ∧ reqSlotAddr 0 < a + n then kv ||| maskAt a (reqSlotAddr 0) (ones 0x200000) else kv) &&& ones n

/-- A write by software to local memory. A FREE descriptor keeps its STATE; one written beyond what R197 admits logs KV_TABLE_BUSY. -/
def State.softWrite (s : State) (a n : Nat) (d : Data) : State :=
  let a := s.canon a
  let met := kvMet a n
  let busy := met.filter (fun i => decide (s.kvState i ≠ kvFree) || (decide (kvAddr i + 40 < a + n) && decide (a < kvAddr i + 64)))
  let free := met.filter (fun i => decide (s.kvState i = kvFree))
  let s := s.writeMem noUnit a n d.v (ones n - s.lockedBytes a n) d.p
  let s := free.foldl (fun s i => if s.kvState i = kvFree then s else s.setKvState i kvFree) s
  busy.foldl (fun s _ => s.log (srcHub 1) Ev.KV_TABLE_BUSY [] none (some (unitHub 1))) s

/-- Device data as memory writes of at most 512 B each, from byte i on; a poisoned granule sets EP. -/
def hostWrites (a : Nat) (d : Data) (n : Nat) : List HostWrite :=
  (List.range ((n + 511) / 512)).map (fun i =>
    let l := min 512 (n - 512 * i)
    { addr := a + 512 * i, words := (List.range (l / 8)).map (fun j => d.v / 256 ^ (512 * i + 8 * j) % 2 ^ 64), ep := decide (d.p / 2 ^ (16 * i) % 2 ^ 16 ≠ 0) })

/-- Keys of the flash reads of BAR2 and of host queue q. -/
def hostKey : Nat := 2 ^ 59
def hqKey (q : Nat) : Nat := 2 ^ 59 + 16 + q

/-- HQ_COPY: data moves between host memory and local memory. A copy from the flash window waits for its data (R288, R535). [log 109: DEDUCED] -/
def execHqCopy (q : Nat) (d : HostData) (s : State) : Answer :=
  match s.hostFront q 2 with
  | none => .next s
  | some c =>
    let n := c.arg1
    let form := decide (64 ≤ n) && decide (n ≤ 0x4000000) && decide (n % 64 = 0) && decide (c.data % 64 = 0) && decide (c.arg0 % 64 = 0)
    let e := s.hostCheck c form (s.fb F.HUB_STATUS_READY 0 0)
    if e ≠ 0 then .next ((s.hostPop q).hostEnd q c e [] false)
    else if s.reserves c.arg0 n then .next ((s.hostPop q).hostEnd q c 6 [] false)
    else if s.asleep (s.canon c.arg0) then .next s
    else if c.dir = 0 then
      if d.dmaError then .next (((s.hostPop q).dmaError q).hostEnd q c 4 [] false)
      else
        let p := hostMask d n
        .next (((s.hostPop q).softWrite c.arg0 n { v := hostVal d n, p := p }).hostEnd q c (if p = 0 then 0 else 5) [] false)
    else
      let g := s.flashGate (hqKey q) 4097 c.arg0 n
      if g.2 = false then .next g.1 else
      let r := (g.1.hostPop q).readMem noUnit c.arg0 n
      let s : State := { r.1 with out := { r.1.out with host := r.1.out.host ++ hostWrites c.data r.2 n } }
      .next (s.hostEnd q c (if r.2.p = 0 then 0 else 5) [] false)

/-- Bytes written to the NOR part; a write that fails leaves bytes that the spec does not state. [log 109: DEDUCED] -/
def State.norWrite (s : State) (off n v : Nat) (ok : Bool) : State :=
  if ok then s.setBoot (fun b => { b with nor := cellsWrite b.nor off n v })
  else (s.setBoot (fun b => { b with nor := cellsWrite b.nor off n (Config.freeValue s.freeCtr % 256 ^ n) })).fresh

/-- An epoch names program entry n: the current, the previous or a staged one. -/
def State.entryInUse (s : State) (n : Nat) : Bool :=
  let names := fun (m : SMap (BitVec 64)) => (List.range 8).any (fun c =>
    decide (storeF m F.HUB_CC_IMAGE_VALID c 0 = 1) && decide (storeF m F.HUB_CC_IMAGE_INDEX c 0 = n))
  names s.regs || names s.previous || names s.staged

/-- INSTALL: a program entry is written to the store, read back and its digest checked. [log 109: DEDUCED] -/
def execInstall (q : Nat) (d : HostData) (s : State) : Answer :=
  match s.hostFront q 3 with
  | none => .next s
  | some c =>
    let s := s.hostPop q
    let i := c.arg0
    let n := c.arg1
    let e := s.hostCheck c (decide (i < 256) && decide (512 ≤ n) && decide (n ≤ 0x80000)) (s.fb F.HUB_STATUS_READY 0 0)
    if e ≠ 0 then .next (s.hostEnd q c e [] false)
    else if s.storeEntries ≤ i then .next (s.hostEnd q c 6 [] false)
    else if s.host.norBusy then .next (s.hostEnd q c 10 [] false)
    else if s.entryInUse i then .next (s.hostEnd q c 7 [] false)
    else if d.dmaError then .next ((s.dmaError q).hostEnd q c 4 [] true)
    else if hostMask d n ≠ 0 then .next (s.hostEnd q c 5 [] true)
    else
      let t := s.norWrite (entryOff i) n (hostVal d n) true
      match t.program i with
      | none => .next ((s.norWrite (entryOff i) n (hostVal d n) d.norOk).hostEnd q c 8 [] true)
      | some (h, _) =>
        if d.norOk then .next ((t.log (srcHub 9) Ev.HOST_INSTALL [q]).hostEnd q c 0 [h.digest / 2 ^ 336] true)
        else .next ((s.norWrite (entryOff i) n (hostVal d n) false).hostEnd q c 9 [] true)

/-- Slot n holds an image that R510 accepts. -/
def State.bootImage (s : State) (n : Nat) : Option BootHead :=
  (s.bootSlot n).filter (fun h => decide (sha384 (s.bootBody n h) h.len = h.digest))

/-- BOOT_WRITE: an image is written to the boot slot not in use, read back and checked. [log 109: DEDUCED] -/
def execBootWrite (q : Nat) (d : HostData) (s : State) : Answer :=
  match s.hostFront q 4 with
  | none => .next s
  | some c =>
    let s := s.hostPop q
    let n := c.arg1
    let b := 1 - s.f F.HUB_BOOT_SLOT 0 0
    let e := s.hostCheck c (decide (c.arg0 = 0) && decide (512 ≤ n) && decide (n ≤ 0x400000)) (s.fb F.HUB_STATUS_READY 0 0)
    if e ≠ 0 then .next (s.hostEnd q c e [] false)
    else if s.host.norBusy then .next (s.hostEnd q c 10 [] false)
    else if d.dmaError then .next ((s.dmaError q).hostEnd q c 4 [] true)
    else if hostMask d n ≠ 0 then .next (s.hostEnd q c 5 [] true)
    else
      let t := s.norWrite (bootOff b) n (hostVal d n) true
      match t.bootImage b with
      | none => .next ((s.norWrite (bootOff b) n (hostVal d n) d.norOk).hostEnd q c 8 [] true)
      | some h =>
        if d.norOk then .next ((t.log (srcHub 9) Ev.HOST_BOOT_WRITE [q]).hostEnd q c 0 [b * 2 ^ 32 + h.version] true)
        else .next ((s.norWrite (bootOff b) n (hostVal d n) false).hostEnd q c 9 [] true)

/-- RECOVER: an image in host memory is checked under R510, and bring-up resumes at FILL. [log 109: DEDUCED] -/
def execRecover (q : Nat) (d : HostData) (s : State) : Answer :=
  match s.hostFront q 5 with
  | none => .next s
  | some c =>
    let s := s.hostPop q
    let n := c.arg1
    let admitted := decide (q = 0) && decide (s.stage = stageFailed) && decide (s.f F.HUB_BOOT_FAIL 0 0 = 4)
    let e := s.hostCheck c (decide (c.arg0 = 0) && decide (512 ≤ n) && decide (n ≤ 0x400000)) admitted
    if e ≠ 0 then .next (s.hostEnd q c e [] false)
    else if s.host.norBusy then .next (s.hostEnd q c 10 [] false)
    else if d.dmaError then .next ((s.dmaError q).hostEnd q c 4 [] true)
    else if hostMask d n ≠ 0 then .next (s.hostEnd q c 5 [] true)
    else
      let v := hostVal d n
      match (bootHead (v % 2 ^ 4096)).filter s.headOk with
      | none => .next (s.hostEnd q c 8 [] true)
      | some h =>
        let body := v / 2 ^ 4096 % 256 ^ h.len
        if sha384 body h.len ≠ h.digest then .next (s.hostEnd q c 8 [] true)
        else
          let s := ((s.takeImage h body).setStage 3).setF F.HUB_BOOT_FAIL 0 0 0
          let s : State := { s with mgmt := { s.mgmt with rbLow := true, inPulse := false } }
          .next ((s.log (srcHub 9) Ev.HOST_RECOVER [q]).hostEnd q c 0 [] true)

-- ===== The local memory window (R531, R535) =====

/-- What a read returns. -/
def State.answerRead (s : State) (v : Nat) (ep : Bool) : State := { s with out := { s.out with rdata := v, ep := ep } }

/-- HOST_WINDOW_ACCESS: a BAR2 read or write. A read of the flash window waits for its data. [log 110, 117: DEDUCED] -/
def execHostWindowAccess (a : HostAccess) (s : State) : Answer :=
  let addr := 2 ^ 32 * s.f F.HUB_HOST_WINDOW_BASE 0 0 + a.off
  if 2 ^ 32 < a.off + a.size ∨ a.size = 0 ∨ s.asleep (s.canon addr) = true then .next s
  else if s.fb F.HUB_STATUS_READY 0 0 = false ∨ s.fb F.HUB_HOST_WINDOW_ENABLE 0 0 = false then .next (if a.write then s else s.answerRead 0 false)
  else if s.reserves addr a.size then
    let s := s.log (srcHub 9) Ev.MEM_RESERVED_ACCESS [addr]
    .next (if a.write then s else s.answerRead 0 false)
  else if a.write then
    .next (s.softWrite addr a.size { v := a.data, p := if a.ep then ones (granules addr a.size) else 0 })
  else
    let g := s.flashGate hostKey 4097 addr a.size
    if g.2 = false then .next g.1 else
    let r := g.1.readMem noUnit addr a.size
    let bad := decide (r.2.p ≠ 0)
    let s := if bad then r.1.log (srcHub 9) Ev.HOST_POISON else r.1
    .next (s.answerRead (r.2.v % 256 ^ a.size) bad)

end Sys2Proof.Machine
end

