-- ==== Sys2Proof/Machine/Walker.lean ====
section
/-!
DEFINITION. Sys2Proof/Machine/Walker.lean: prefix trees and the prefix walkers (06_attention_and_kv.md, R219 to R229).
-/
namespace Sys2Proof.Machine

open Sys2Proof (Word)

-- ===== Trees (R219 to R225) =====

/-- The block hash of tokens read as little-endian 32-bit words of a number (R219). -/
def blockHash (hp tokens : Nat) : Nat :=
  (List.range 64).foldl (fun h i => hashStep h (tokens / 2 ^ (32 * i) % 2 ^ 32)) (hp ^^^ 0x9E3779B97F4A7C15)

def State.treeNodes (s : State) (t : Nat) : Nat := s.f F.SRV_TREE_CFG_NODES t 0
def State.treeLog (s : State) (t : Nat) : Nat := s.f F.SRV_TREE_CFG_LOG2_BUCKETS t 0
def State.treeGen (s : State) (t : Nat) : Nat := (s.rg .SRV_TREE_GEN t 0).toNat
def State.treeOldest (s : State) (t : Nat) : Nat := (s.rg .SRV_TREE_OLDEST t 0).toNat
def State.treeQ (s : State) (t g : Nat) : Nat := s.f F.SRV_TREE_QCOUNT_COUNT t (g % 64)

/-- The tree is in service and served by walker w (R222). -/
def State.treeOn (s : State) (t w : Nat) : Bool :=
  s.fb F.SRV_TREE_CFG_ENABLE t 0 && decide (s.f F.SRV_TREE_CFG_WALKER t 0 = w) && decide (10 ≤ s.treeLog t) && decide (s.treeLog t ≤ 30)

/-- Address of node i. -/
def State.nodeAddr (s : State) (t i : Nat) : Nat := s.f F.SRV_TREE_NODE_BASE_BASE t 0 + 256 * i
/-- Address of the bucket of a hash. -/
def State.bucketAddr (s : State) (t h : Nat) : Nat := s.f F.SRV_TREE_BUCKET_BASE_BASE t 0 + 4 * (h % 2 ^ s.treeLog t)

/-- OLDEST follows the registered snapshots: the lowest of the 64 generations up to CURRENT with a count, else CURRENT + 1. -/
def State.treeRefresh (s : State) (t : Nat) : State :=
  let c := s.treeGen t
  let o := ((List.range 64).reverse.find? (fun i => decide (i ≤ c) && decide (s.treeQ t (c - i) ≠ 0))).elim (c + 1) (fun i => c - i)
  s.setRg .SRV_TREE_OLDEST t 0 (BitVec.ofNat 64 o)

/-- Change the count of a snapshot. -/
def State.treeReg (s : State) (t g : Nat) (up : Bool) : State :=
  let n := s.treeQ t g
  (s.setF F.SRV_TREE_QCOUNT_COUNT t (g % 64) (if up then min (n + 1) (2 ^ 32 - 1) else n - 1)).treeRefresh t

-- ===== Node fields (Table 6.10) =====

def ndHash (v : Nat) : Nat := wordOf v 0
def ndParent (v : Nat) : Nat := wordOf v 1 / 2 ^ 32
def ndNext (v : Nat) : Nat := wordOf v 1 % 2 ^ 32
def ndKv (v : Nat) : Nat := wordOf v 2
def ndInsert (v : Nat) : Nat := wordOf v 3
def ndDelete (v : Nat) : Nat := wordOf v 4
def ndService (v : Nat) : Nat := wordOf v 5 / 2 ^ 56
def ndHits (v : Nat) : Nat := wordOf v 5 % 2 ^ 32
def ndToken (v i : Nat) : Nat := v / 2 ^ (512 + 24 * i) % 2 ^ 24
/-- Visible at snapshot g (R223). -/
def ndVisible (v g : Nat) : Bool := decide (ndInsert v ≤ g) && decide (g < ndDelete v)
/-- All 64 tokens of a node equal those of a request. -/
def ndTokens (v tokens : Nat) : Bool := (List.range 64).all (fun i => decide (ndToken v i = tokens / 2 ^ (32 * i) % 2 ^ 32))

/-- What a walk of one chain finds: a node and its value, or the address that read poisoned. -/
inductive Found where
  | none
  | node (i v : Nat)
  | poison (a : Nat)
deriving DecidableEq, Repr

/-- The walker that acts as a reads n bytes of a tree. -/
def State.treeRead (s : State) (a : Actor) (ad n : Nat) : State × Data := (s.presentFor a false ad n).hubRead 2 ad n

/-- The walker that acts as a writes n bytes of a tree. -/
def State.treeWrite (s : State) (a : Actor) (ad n v : Nat) : State := (s.presentFor a true ad n).writeMem (unitHub 2) ad n v (ones n) 0

/-- Follow a chain from node i to the first node that a test picks. An index that the tree does not have ends the chain. [log 46: DEDUCED] -/
def State.chain (s : State) (a : Actor) (t : Nat) (pick : Nat → Nat → Bool) : Nat → Nat → State × Found
  | 0, _ => (s, .none)
  | fuel + 1, i =>
    if i = 0 ∨ s.treeNodes t ≤ i then (s, .none)
    else
      let r := s.treeRead a (s.nodeAddr t i) 256
      if r.2.p ≠ 0 then (r.1, .poison (s.nodeAddr t i))
      else if pick i r.2.v then (r.1, .node i r.2.v)
      else State.chain r.1 a t pick fuel (ndNext r.2.v)

/-- The first node of a hash's bucket that a test picks. -/
def State.bucketFind (s : State) (a : Actor) (t h : Nat) (pick : Nat → Nat → Bool) : State × Found :=
  let b := s.bucketAddr t h
  let r := s.treeRead a b 4
  if r.2.p ≠ 0 then (r.1, .poison b) else r.1.chain a t pick (s.treeNodes t) r.2.v

-- ===== Requests (Table 6.12) =====

def pwOp (v : Nat) : Nat := bits v 63 60
def pwTree (v : Nat) : Nat := bits v 59 56
def pwService (v : Nat) : Nat := bits v 55 48
def pwPart (v : Nat) : Nat := bits v 47 45
def pwHold (v : Nat) : Bool := bit v 44
def pwCount (v : Nat) : Nat := bits v 31 0

/-- A reserved OP or a nonzero reserved field. -/
def pwBadOp (v : Nat) : Bool :=
  decide (pwOp v = 0) || decide (6 < pwOp v) || decide (bits v 43 32 ≠ 0) || decide (wordOf v 5 / 2 ^ 32 ≠ 0) ||
    decide (wordOf v 6 ≠ 0) || decide (wordOf v 7 ≠ 0)

/-- The unit that a request of walker w acts as. -/
def pwActor (w v : Nat) : Actor := { deviceActor (pwPart v) (unitHub 2) with stream := walkerStream w }

/-- Parts of the result of n matched blocks: words 0 and 1, and 16 B a block from word 8 on. -/
def pwParts (n : Nat) : List (Nat × Nat) := if n = 0 then [(0, 16)] else [(0, 16), (64, 16 * n)]

/-- A request completes: its result is written and 1 is added at DONE (R226). [log 47: DEDUCED] -/
def State.pwComplete (s : State) (w v code low word1 : Nat) (blocks : List (Nat × Nat) := []) : State :=
  let a := pwActor w v
  let n := if pwOp v = 1 ∧ code ≠ 0xF0 then 64 + 16 * pwCount v else 16
  let out := (List.range blocks.length).foldl (fun x b =>
    let q := blocks.getD b (0, 0)
    x + (q.1 + 2 ^ 64 * q.2) * 2 ^ (512 + 128 * b)) (2 ^ 56 * code + low + 2 ^ 64 * word1)
  (s.jobOut w).unitResult a w (wordOf v 2) (wordOf v 3) (!s.xwBad a (wordOf v 2) n 64 rWrite) (!s.xwBad a (wordOf v 3) 8 8 rAtomic) out
    (pwParts blocks.length)

/-- A request of walker w that has completed makes room for the next (R228), and its snapshot goes (R223). -/
def State.pwSettle (s : State) (w : Nat) : State :=
  let v := (s.ringJob w).req
  s.endJob w (pwHold v) (fun s g => s.treeReg (pwTree v) g false)

/-- Poison met by a request: logged with the tree and the address (R228). -/
def State.pwPoison (s : State) (w v a : Nat) : State :=
  (s.log (srcHub 2) Ev.PREFIX_POISON [pwTree v, a] (some (pwPart v)) (some (unitHub 2))).pwComplete w v 0xF1 0 0

/-- The addresses of a request fail their span checks: TOKENS where the operation reads tokens, RESULT and DONE. -/
def State.pwSpanBad (s : State) (v : Nat) : Bool :=
  let a := deviceActor (pwPart v) (unitHub 2)
  let tok := if pwOp v = 1 then 256 * pwCount v else if pwOp v = 2 then 256 else 0
  (decide (tok ≠ 0) && s.xwBad a (wordOf v 1) tok 4 rRead) ||
  s.xwBad a (wordOf v 2) (if pwOp v = 1 then 64 + 16 * pwCount v else 16) 64 rWrite || s.xwBad a (wordOf v 3) 8 8 rAtomic

/-- The row of an operation of walker w: the request at HEAD, when it is the row's; one with a bad OP, tree or address completes so. A walker whose requests of HBM wait for
credit takes no request (R412), nor does any while HBM is in self-refresh (R40). [log 45, 91: DEDUCED] -/
def State.pwRow (s : State) (w op : Nat) (act : State → Nat → State) : State :=
  if 4 ≤ w ∨ s.fb F.HUB_STATUS_READY 0 0 = false ∨ s.boot.refclkLost = true ∨ s.owes (walkerStream w) = true then s
  else
    let q := (s.pwSettle w).ringFront w
    match q.2 with
    | none => q.1
    | some v =>
      if (q.1.ringJob w).begun then (if pwOp v = op then act q.1 v else s)
      else if pwBadOp v then q.1.pwComplete w v 0xE1 0 0
      else if q.1.treeOn (pwTree v) w = false then q.1.pwComplete w v 0xE0 0 0
      else if q.1.pwSpanBad v then q.1.pwComplete w v 0xF0 0 0
      else if pwOp v ≠ op then s
      else act (q.1.beginJob w) v

/-- Where a walk of a lookup stands: hash and parent of the last match, the matches so far, an address that read poisoned, and whether it has ended. -/
structure PwPos where
  hp : Nat := 0
  parent : Nat := 0
  hits : List (Nat × Nat) := []
  bad : Option Nat := none
  ended : Bool := false

/-- The walk after one block's bucket was searched. -/
def PwPos.take (q : PwPos) (f : Found) : PwPos :=
  match f with
  | .none => { q with ended := true }
  | .poison a => { q with bad := some a, ended := true }
  | .node i v => { q with hp := ndHash v, parent := i, hits := q.hits ++ [(i, v)] }

/-- A block of the request, of hash h, is looked for below the last match. -/
def State.pwBlock (s : State) (a : Actor) (t g service : Nat) (q : PwPos) (tokens h : Nat) : State × PwPos :=
  let r := s.bucketFind a t h (fun _ v => ndVisible v g && decide (ndHash v = h) && decide (ndParent v = q.parent) &&
    decide (ndService v = service) && ndTokens v tokens)
  (r.1, q.take r.2)

/-- Walk the blocks of a request from the root: the matched nodes, and a poisoned address that ended the walk. tok b gives block b's tokens and
its mark. [log 46: DEDUCED] -/
def State.pwWalk (s : State) (a : Actor) (t g service : Nat) (tok : Nat → Nat × Bool) (tokAddr n hp : Nat) : State × PwPos :=
  (List.range n).foldl (fun (q : State × PwPos) b =>
    if q.2.ended then q
    else if (tok b).2 then (q.1, { q.2 with bad := some (tokAddr + 256 * b), ended := true })
    else q.1.pwBlock a t g service q.2 (tok b).1 (blockHash q.2.hp (tok b).1)) (s, { hp := hp })

/-- PW_LOOKUP (R223, R227). -/
def execPwLookup (w : Nat) (s : State) : Answer :=
  .next (s.pwRow w 1 (fun s v =>
    let t := pwTree v
    let n := pwCount v
    let held := (s.ringJob w).snap
    let g := if held ≠ 0 then held - 1 else if wordOf v 4 = 0 then s.treeGen t else wordOf v 4
    if held = 0 ∧ (s.treeGen t < g ∨ g + 63 < s.treeGen t) then s.pwComplete w v 0x41 0 0
    else
      let s := if held = 0 then (s.treeReg t g true).useSnap w g true else s
      let q := s.fetchVia w (pwActor w v) (wordOf v 1) (256 * n)
      match q.2 with
      | none => q.1
      | some d =>
        let s := q.1
        let sh := xwOff (wordOf v 1) % 32
        let tok := fun b => (d.v / 256 ^ (256 * b) % 2 ^ 2048,
          (List.range 9).any (fun i => d.p.testBit ((sh + 256 * b) / 32 + i) && decide (32 * i < sh + 256 * b % 32 + 256)))
        let salt := (s.rg .SRV_TREE_SALT t 0).toNat
        let r := s.pwWalk (pwActor w v) t g (pwService v) tok (wordOf v 1 % 2 ^ 46) n (salt ^^^ pwService v)
        let s := r.1
        match r.2.bad with
        | some a => s.pwPoison w v a
        | none =>
          let s := r.2.hits.foldl (fun s m =>
            let a := s.nodeAddr t m.1
            (s.treeWrite (pwActor w v) (a + 40) 4 (min (ndHits m.2 + 1) (2 ^ 32 - 1))).treeWrite (pwActor w v) (a + 48) 8 s.time) s
          s.pwComplete w v 0 r.2.hits.length g (r.2.hits.map (fun m => (m.1, ndKv m.2)))))

/-- INSERT after the search of its bucket: a duplicate answers its node, else node new takes its place at the head of the bucket. [log 46: DEDUCED] -/
def State.pwInsertAt (s : State) (w v t new parent g h tokens : Nat) (f : Found) : State :=
  match f with
  | .poison a => s.pwPoison w v a
  | .node i x => s.pwComplete w v 0x10 i (ndInsert x)
  | .none =>
    let head := (s.hubRead 2 (s.bucketAddr t h) 4).2.v
    let toks := (List.range 64).foldl (fun x i => x + tokens / 2 ^ (32 * i) % 2 ^ 24 * 2 ^ (24 * i)) 0
    let node := h + (2 ^ 32 * parent + head) * 2 ^ 64 + 2 ^ 128 * wordOf v 4 + g % 2 ^ 64 * 2 ^ 192 + (2 ^ 64 - 1) * 2 ^ 256 +
      pwService v * 2 ^ 56 * 2 ^ 320 + 2 ^ 512 * toks
    let s := s.treeWrite (pwActor w v) (s.nodeAddr t new) 256 node
    (s.treeWrite (pwActor w v) (s.bucketAddr t h) 4 new).pwComplete w v 0 new g

/-- PW_INSERT (R224, R228). -/
def execPwInsert (w : Nat) (s : State) : Answer :=
  .next (s.pwRow w 2 (fun s v =>
    let t := pwTree v
    let new := wordOf v 5
    let parent := pwCount v
    let g := s.treeGen t + 1
    if new = 0 ∨ s.treeNodes t ≤ new ∨ (parent ≠ 0 ∧ s.treeNodes t ≤ parent) then s.pwComplete w v 0x12 0 0
    else
      let q := s.fetchVia w (pwActor w v) (wordOf v 1) 256
      match q.2 with
      | none => q.1
      | some d =>
        let s := q.1
        if d.p ≠ 0 then s.pwPoison w v (wordOf v 1 % 2 ^ 46)
        else
          let pr := if parent = 0 then (s, ({} : Data)) else s.treeRead (pwActor w v) (s.nodeAddr t parent) 256
          let s := pr.1
          if pr.2.p ≠ 0 then s.pwPoison w v (s.nodeAddr t parent)
          else if parent ≠ 0 ∧ ndVisible pr.2.v g = false then s.pwComplete w v 0x11 0 0
          else
            let hp := if parent = 0 then (s.rg .SRV_TREE_SALT t 0).toNat ^^^ pwService v else ndHash pr.2.v
            let h := blockHash hp d.v
            let r := s.bucketFind (pwActor w v) t h (fun _ x => decide (ndDelete x = 2 ^ 64 - 1) && decide (ndParent x = parent) &&
              decide (ndService x = pwService v) && ndTokens x d.v)
            r.1.pwInsertAt w v t new parent g h d.v r.2))

/-- The node that a DELETE or UNLINK names. [log 46: DEDUCED] -/
def State.pwNode (s : State) (w v : Nat) (act : State → Nat → Nat → State) : State :=
  let t := pwTree v
  let n := pwCount v
  if n = 0 ∨ s.treeNodes t ≤ n then s.pwComplete w v 0x12 0 0
  else
    let r := s.treeRead (pwActor w v) (s.nodeAddr t n) 256
    if r.2.p ≠ 0 then r.1.pwPoison w v (s.nodeAddr t n) else act r.1 n r.2.v

/-- PW_DELETE (R224). -/
def execPwDelete (w : Nat) (s : State) : Answer :=
  .next (s.pwRow w 3 (fun s v => s.pwNode w v (fun s n x =>
    let g := s.treeGen (pwTree v) + 1
    if ndDelete x ≠ 2 ^ 64 - 1 then s.pwComplete w v 0x20 0 0
    else (s.treeWrite (pwActor w v) (s.nodeAddr (pwTree v) n + 32) 8 g).pwComplete w v 0 0 g)))

/-- PW_COMMIT (R224). -/
def execPwCommit (w : Nat) (s : State) : Answer :=
  .next (s.pwRow w 4 (fun s v =>
    let t := pwTree v
    let g := s.treeGen t + 1
    if s.treeQ t g ≠ 0 then s.pwComplete w v 0x40 0 0
    else ((s.setRg .SRV_TREE_GEN t 0 (BitVec.ofNat 64 g)).treeRefresh t).pwComplete w v 0 0 g))

/-- PW_UNLINK (R225). -/
def execPwUnlink (w : Nat) (s : State) : Answer :=
  .next (s.pwRow w 5 (fun s v => s.pwNode w v (fun s n x =>
    let t := pwTree v
    let c := s.treeGen t
    if ndDelete x = 2 ^ 64 - 1 then s.pwComplete w v 0x31 0 0
    else if c < ndDelete x ∨ s.treeOldest t < ndDelete x then s.pwComplete w v 0x30 0 0
    else
      let ba := s.bucketAddr t (ndHash x)
      let h := s.treeRead (pwActor w v) ba 4
      if h.2.p ≠ 0 then h.1.pwPoison w v ba
      else if h.2.v = n then (h.1.treeWrite (pwActor w v) ba 4 (ndNext x)).pwComplete w v 0 0 c
      else
        let r := h.1.chain (pwActor w v) t (fun _ y => decide (ndNext y = n)) (s.treeNodes t) h.2.v
        match r.2 with
        | .poison a => r.1.pwPoison w v a
        | .none => r.1.pwComplete w v 0 0 c
        | .node i _ => (r.1.treeWrite (pwActor w v) (r.1.nodeAddr t i + 8) 4 (ndNext x)).pwComplete w v 0 0 c)))

/-- PW_RELEASE (R223). A snapshot outside the window of R223 is not held. [log 46: DEDUCED] -/
def execPwRelease (w : Nat) (s : State) : Answer :=
  .next (s.pwRow w 6 (fun s v =>
    let t := pwTree v
    let g := wordOf v 4
    if s.treeGen t < g ∨ g + 63 < s.treeGen t ∨ s.treeQ t g = 0 then s.pwComplete w v 0x50 0 0
    else (s.treeReg t g false).pwComplete w v 0 0 0))

-- ===== Tree registers (R222) =====

/-- The tree whose register lies at an offset. -/
def treeAt (off : Nat) : Option (RegName × Nat) :=
  match regAt off with
  | some (.SRV_TREE_CFG, t, _) => some (.SRV_TREE_CFG, t)
  | some (.SRV_TREE_BUCKET_BASE, t, _) => some (.SRV_TREE_BUCKET_BASE, t)
  | some (.SRV_TREE_NODE_BASE, t, _) => some (.SRV_TREE_NODE_BASE, t)
  | some (.SRV_TREE_SALT, t, _) => some (.SRV_TREE_SALT, t)
  | _ => none

/-- The tree's walker has a request for it in progress or in its ring. -/
def State.treeBusy (s : State) (t : Nat) : Bool :=
  let w := s.f F.SRV_TREE_CFG_WALKER t 0
  (s.ringBusy w && decide (pwTree (s.ringJob w).req = t)) || ringOn (s.ringCfg w) && (List.range (min (s.ringWaiting w) 4096)).any (fun i =>
    decide (pwTree (cellsRead s.mem.cells (s.ringEntry w (s.ringHead w + i)) 8) = t))

/-- TREE_CONFIG_WRITE (R222). -/
def execTreeConfigWrite (i off : Nat) (w : Word) (s : State) : Answer :=
  match treeAt off with
  | none => .next s
  | some (r, t) =>
    if s.canWrite i = false then .next s
    else if s.treeBusy t then .next (s.log (srcHub 2) Ev.PREFIX_TREE_BUSY [t] none (some (unitHub 2)))
    else .next (s.setRg r t 0 (writeFields r.fields (s.rg r t 0) w))

end Sys2Proof.Machine
end

