-- ==== Sys2Proof/Machine/Access.lean ====
section
/-!
DEFINITION. Sys2Proof/Machine/Access.lean: reads and writes of the control space and what answers them at each stage (R12 to R14, R514,
R533, R534), attention on RB_N (R546 to R548), management (R549), attestation (R550), the SHADOW's forwarded writes (R473) and accesses of control
cores (R261, R441).
-/
namespace Sys2Proof.Machine

open Sys2Proof (Word CoreAccess CoreOp MgmtXfer SpdmReq)

-- ===== What answers (R514, R533, R534) =====

/-- The device is powered and out of reset. -/
def State.alive (s : State) : Bool := !s.power.gone && !s.boot.resetHeld && !s.boot.warmHeld && decide (1 ≤ s.stage)

/-- Registers of a drum lie on the drum's page. -/
def isDrumReg (r : RegName) : Bool := decide (0x3000000 ≤ r.info.base)

/-- Registers of a kit lie on the kit's page. -/
def isKitReg (r : RegName) : Bool := decide (0x1000000 ≤ r.info.base)

/-- Instance (j, k) of a register is one that the map only pads to (R534). [log 118: DEDUCED] -/
def isPadding (r : RegName) (k : Nat) : Bool :=
  match r with
  | .PAR_REG | .PAR_REG_STAT => decide (7 ≤ k)
  | .MEM_QUOTA | .MEM_PART_QUOTA | .SRC_INDEX_BASE => decide (6 ≤ k)
  | _ => false

/-- The offset of the physical page that an offset on a logical drum page reaches now (R18, R534). [log 118: DEDUCED] -/
def State.physOff (s : State) (off : Nat) : Option Nat :=
  if off < 0x2000000 ∨ 0x2800000 ≤ off then some off
  else
    let k := bits off 22 20
    let n := bits off 19 12
    if 150 ≤ n then none else some (0x3000000 + 0x100000 * k + s.phys k n * 0x1000 + off % 0x1000)

/-- The register at an offset, unless the offset is reserved now. -/
def State.regOf (s : State) (off : Nat) : Option (RegName × Nat × Nat) :=
  match s.physOff off with
  | none => none
  | some o => (regAt o).filter (fun q => !(isKitReg q.1 && !s.kitLive q.2.1) && !isPadding q.1 q.2.2)

/-- The identity and status registers (R514). -/
def isStatusReg (r : RegName) : Bool :=
  match r with
  | .HUB_IDENTITY | .HUB_STATUS | .HUB_ATTN_CFG | .HUB_BOOT | .HUB_RESET | .HUB_TIME | .HUB_FLOOR_TABLE | .KIT_OPPOINT | .SEC_DEFAULT_LOCK => true
  | .EVT_HEAD | .EVT_READ | .EVT_WINDOW | .EVT_WINDOW_SRC | .EVT_OVERWRITES | .EVT_LOST | .EVT_STATUS | .EVT_ATTN_MASK | .EVT_SPILL_CFG | .EVT_SPILL_PTR => true
  | .PWR_CAP | .PWR_STATUS | .PWR_KIT | .PWR_ENERGY => true
  | _ => false

/-- The registers of a queue pair. -/
def isQueueReg (r : RegName) : Bool := isPortReg r && decide (r ≠ .HUB_HOST_WINDOW)

/-- Register r of instance j answers a read by initiator i at the present stage. [log 107, 118: DEDUCED] -/
def State.answers (s : State) (i : Nat) (r : RegName) (j : Nat) : Bool :=
  s.alive && (isStatusReg r || s.fb F.HUB_STATUS_READY 0 0 || (isQueueReg r && s.canQueue i j))

-- ===== Values (R12) =====

/-- Initiator i reads the staged value of an epoch register (R517). -/
def State.readsStaged (s : State) (i : Nat) (r : RegName) : Bool :=
  r.info.epoch && decide (i ≤ 8) && s.fb F.HUB_CFG_VIEW_STAGED i 0 && decide (s.cfgPhase ≠ cfgIdle) && !s.cfg.isRollback

/-- A word of a table in hub SRAM, and whether its granule is poisoned. [log 11, 117: DEDUCED] -/
def State.windowWord (s : State) (a : Nat) : State × Nat × Bool :=
  let r := s.readMem noUnit a 8
  (r.1, r.2.v % 2 ^ 64, decide (r.2.p ≠ 0))

/-- The word that a read of a register finds, with the fields that reflect live state, and whether it is poisoned. -/
def State.wordOf (s : State) (i : Nat) (r : RegName) (j k : Nat) : State × Nat × Bool :=
  let w := if s.readsStaged i r then storeGet s.staged r j k else s.rg r j k
  let plain := fun (w : BitVec 64) => (s, (readFields r.fields w).toNat, false)
  match r with
  | .HUB_IDENTITY =>
    let kits := (List.range 8).foldl (fun m k => if s.kitLive k then m + 2 ^ k else m) 0
    plain (F.HUB_IDENTITY_NODE.put (F.HUB_IDENTITY_KITS.put (F.HUB_IDENTITY_STEPPING.put w Config.stepping.toNat) kits) s.node)
  | .FLS_STATUS =>
    plain (F.FLS_STATUS_RELOC_PENDING.put (F.FLS_STATUS_RETIRED_BLOCKS.put (F.FLS_STATUS_TR_US.put w Config.flashReadUs.toNat)
      (min 0xFFFF s.flash.retiredBlocks)) (min 0xFFFF s.flash.queue.length))
  | .HUB_STATUS => plain (F.HUB_STATUS_RB_RELEASED.put w (b2n (!s.mgmt.rbLow && !s.mgmt.inPulse)))
  | .DRM_CALIB => plain (F.DRM_CALIB_AGE_MS.put w (s.calibAge j k))
  | .DRM_TEMPO =>
    (s.fresh, (F.DRM_TEMPO_COUNT.put w ((F.DRM_TEMPO_COUNT.of w + Config.freeValue s.freeCtr) % 2 ^ 48)).toNat, false)
  | .INT_SCRUB_STATUS => plain (F.INT_SCRUB_STATUS_ELAPSED_MS.put w (s.lapMs j))
  | .SRV_KV_TABLE => s.windowWord (kvAddr j + 8 * k)
  | .SRV_SLOT_TABLE => s.windowWord (reqSlotAddr j + 8 * k)
  | _ => plain w

-- ===== Reads (R12, R14) =====

/-- A 64-bit RO or RC counter, whose low-half read latches the high half. [log 115: DEDUCED] -/
def isCounter (r : RegName) : Bool :=
  match r with
  | .EVT_WINDOW | .INT_HUB_BAD | .SRV_SLOT_TABLE => false
  | r => match r.fields with
    | [f] => decide (f.width = 64) && (decide (f.acc = .ro) || decide (f.acc = .rc))
    | _ => false

/-- What a read does beside answering: EVT_WINDOW[0] latches a record (R496). [log 33: DESIGN CHOICE] -/
def State.readPrep (s : State) (i : Nat) (r : RegName) (j : Nat) : State :=
  if r = .EVT_WINDOW ∧ j = 0 then
    match execEvtWindowLatch i s with
    | .next t => t
    | _ => s
  else s

/-- A 64-bit read by initiator i: the value, and whether it is poisoned. RC fields are cleared. -/
def State.readWide (s : State) (i off : Nat) : State × Nat × Bool :=
  match s.regOf off with
  | none => (s, 0, false)
  | some (r, j, k) =>
    if s.answers i r j = false then (s, 0, false)
    else
      let q := (s.readPrep i r j).wordOf i r j k
      (q.1.setRg r j k (clearRc r.fields (q.1.rg r j k)), q.2)

/-- A 32-bit read of the low half: of a counter, it latches the high half, and clears an RC counter. [log 115: DEDUCED] -/
def State.readLow (s : State) (i off : Nat) : State × Nat × Bool :=
  match s.regOf off with
  | none => (s, 0, false)
  | some (r, j, k) =>
    if s.answers i r j = false then (s, 0, false)
    else
      let q := (s.readPrep i r j).wordOf i r j k
      let s := q.1
      let s : State := if isCounter r then
          { (s.setRg r j k (clearRc r.fields (s.rg r j k))) with latchHi := mput 0 s.latchHi (r.off j k) (q.2.1 / 2 ^ 32 + 1) }
        else s
      (s, q.2.1 % 2 ^ 32, q.2.2)

/-- A 32-bit read of the high half of the register at off: the latched half when one is pending. [log 115: DEDUCED] -/
def State.readHigh (s : State) (i off : Nat) : State × Nat × Bool :=
  match s.regOf off with
  | none => (s, 0, false)
  | some (r, j, k) =>
    if s.answers i r j = false then (s, 0, false)
    else
      match mget 0 s.latchHi (r.off j k) with
      | v + 1 => ({ s with latchHi := mput 0 s.latchHi (r.off j k) 0 }, v, false)
      | 0 =>
        let q := s.wordOf i r j k
        (q.1, q.2.1 / 2 ^ 32, q.2.2)

/-- The host's read completes: a poisoned one sets EP and logs HOST_POISON (R531). -/
def hostRead (i : Nat) (q : State × Nat × Bool) : State :=
  let s := if q.2.2 && decide (i = 8) then q.1.log (srcHub 9) Ev.HOST_POISON else q.1
  s.answerRead q.2.1 q.2.2

/-- RC_READ: a 64-bit read, or a low-half read, by initiator i. -/
def execRcRead (i off : Nat) (wide : Bool) (s : State) : Answer := .next (hostRead i (if wide then s.readWide i off else s.readLow i off))

/-- HALF_READ_LATCH: a 32-bit read of the low half at off, or of the high half of the register at off - 4. [log 115: DEDUCED] -/
def execHalfReadLatch (i off : Nat) (s : State) : Answer :=
  .next (hostRead i (if off % 8 = 4 then s.readHigh i (off - 4) else s.readLow i off))

-- ===== Writes (R12) =====

/-- A write of HUB_ATTN_CFG: RAISE sets CAUSE_RAISE. [log 111: DEDUCED] -/
def State.attnWrite (s : State) (w : Word) : State :=
  let s := s.setRg .HUB_ATTN_CFG 0 0 (writeFields (RegName.fields .HUB_ATTN_CFG) (s.rg .HUB_ATTN_CFG 0 0) w)
  if F.HUB_ATTN_CFG_RAISE.of w = 1 then s.cause F.HUB_STATUS_CAUSE_RAISE else s

/-- The word of a register after a write by its access codes; PWR_CAP.CAP_W is clamped to 300 to 1,800 W (R562). [log 119: DEDUCED] -/
def newWord (r : RegName) (old w : BitVec 64) : BitVec 64 :=
  let v := writeFields r.fields old w
  if r = .PWR_CAP then F.PWR_CAP_CAP_W.put v (max 300 (min 1800 (F.PWR_CAP_CAP_W.of v))) else v

/-- Store a write by access codes. [log 119: DEDUCED] -/
def State.putNew (s : State) (r : RegName) (j k : Nat) (w : Word) : State := s.setRg r j k (newWord r (s.rg r j k) w)

/-- A write of SRV_SLOT_CMD[c] with a reserved OP is answered SLOT_BAD_ARG. [log 9: DEDUCED] -/
def State.slotBadOp (s : State) (c : Nat) (w : Word) : State := (s.forward c .SRV_SLOT_CMD c 0 w).slotAnswer c 4

/-- A write of PAR_PREEMPT[c] with a reserved OP is answered PREEMPT_BAD_OP, or is dropped as overrun. [log 9: DEDUCED] -/
def State.preBadWrite (s : State) (c : Nat) (w : Word) : State :=
  let s := s.forward c .PAR_PREEMPT c 0 w
  if s.fb F.PAR_PREEMPT_RESULT_DONE c 0 then s.preAnswer c preBadOp 0
  else s.log (srcCore c) Ev.PREEMPT_OVERRUN [] none (some (unitCore c))

/-- A write of HUB_CFG_CMD with a reserved OP by initiator i is answered CFG_BAD_OP, on a SHADOW CFG_NOT_LEAD, and CFG_BUSY in another's session.
[log 9: DEDUCED] -/
def State.cfgBadWrite (s : State) (i : Nat) : State :=
  s.cfgAnswer (if s.follows && !s.pair.applying then cfgNotLead
    else if s.cfgPhase ≠ cfgIdle ∧ s.f F.HUB_CFG_STATUS_OWNER 0 0 ≠ i then cfgBusy else cfgBadOp) 0

/-- A write of HUB_CFG_CMD. -/
def cfgWrite (i : Nat) (w : Word) (s : State) : Answer :=
  match F.HUB_CFG_CMD_OP.of w with
  | 1 => execCfgOpen i w s
  | 2 => execCfgValidate i w s
  | 3 => execCfgCommit i w s
  | 4 => execCfgAbandon i w s
  | 5 => execCfgRollback i w s
  | 6 => execCfgCancel i w s
  | _ => .next (s.cfgBadWrite i)

/-- A write of SRV_SLOT_CMD[c]. -/
def slotWrite (c : Nat) (w : Word) (s : State) : Answer :=
  match F.SRV_SLOT_CMD_OP.of w with
  | 1 => execSlotRemote c w s
  | 2 => execSlotPark c w s
  | 3 => execSlotUnpark c w s
  | 4 => execSlotSetTally c w s
  | 5 => execSlotSetTally2 c w s
  | _ => .next (s.slotBadOp c w)

/-- A write of PAR_PREEMPT[c]. -/
def preWrite (c : Nat) (w : Word) (s : State) : Answer :=
  match F.PAR_PREEMPT_OP.of w with
  | 1 => execPreemptSave c w s
  | 2 => execPreemptRestore c w s
  | 3 => execPreemptAbandon c w s
  | 4 => execPreemptWithdraw c w s
  | _ => .next (s.preBadWrite c w)

/-- A write of DRM_CTX_CONTROL of physical drum d; a reserved ACTION does nothing. [log 9: DEDUCED] -/
def ctxWrite (k d : Nat) (w : Word) (s : State) : Answer :=
  match s.logical k d, F.DRM_CTX_CONTROL_ACTION.of w with
  | some n, 1 => execRetry k n w s
  | some n, 2 => execSkip k n w s
  | some n, 3 => execResumeAt k n w s
  | some n, 4 => execHalt k n w s
  | _, _ => .next s

/-- A write of SRV_SUB_CFG[u]: a change of ENABLE from 0 to 1 fills both buckets (R237). -/
def State.subWrite (s : State) (u : Nat) (w : Word) : State :=
  let on := s.fb F.SRV_SUB_CFG_ENABLE u 0
  let s := s.putNew .SRV_SUB_CFG u 0 w
  if !on && s.fb F.SRV_SUB_CFG_ENABLE u 0 then s.fillBuckets u else s

/-- A write of a register outside the identity and status set, from ready on, or of a queue's register. -/
def writeReady (i off : Nat) (r : RegName) (j k : Nat) (w : Word) (s : State) : Answer :=
  match r with
  | .HUB_CC_RESTART => execCcRestart i w s
  | .HUB_CC_WATCHDOG => .next (s.watchdogWrite j w)
  | .HUB_CFG_CMD => cfgWrite i w s
  | .MEM_ACCT_LATCH => execAcctLatch j w s
  | .MEM_DISCARD => execDiscard j w s
  | .INT_SCHECK => execScheckRequest j w s
  | .INT_OBS_ADD => execObsAdd j w s
  | .PAR_REPLAY => execReplay j w s
  | .PAR_PREEMPT => preWrite j w s
  | .TRN_SUBMIT => execTrnSubmit j w s
  | .TRN_ABORT => execTrnAbort j w s
  | .SRV_SUB_POLICE => execSubPoliceWrite i j w s
  | .SRV_SUB_CFG => .next (s.subWrite j w)
  | .SRV_KV_CMD => .next (s.kvCmd j w.toNat)
  | .SRV_SLOT_CMD => slotWrite j w s
  | .SRV_SLOT_ARG => .next ((s.forward i r j k w).putNew r j k w)
  | .SRV_STEP_SUBMIT => execStepSubmit j w s
  | .SRV_EMIT_SUBMIT => execEmitSubmit j w s
  | .SRV_TREE_CFG | .SRV_TREE_BUCKET_BASE | .SRV_TREE_NODE_BASE | .SRV_TREE_SALT => execTreeConfigWrite i off w s
  | .SRV_PW_RING | .SRC_RING => execRingConfigWrite i off w s
  | .SRV_PW_DOORBELL | .SRC_DOORBELL => execRingDoorbell i off w s
  | .SRC_INDEX_CFG | .SRC_INDEX_SIZE | .SRC_INDEX_ARITH | .SRC_INDEX_BASE => execSrcIndexWrite i off w s
  | .SRV_KV_TABLE => execKvTableWrite i j k w s
  | .SRV_SLOT_TABLE => .next s
  | .KIT_KV_STAGE => execKvStageWrite i j w s
  | .KIT_ROUTER_DIR => execRouterDirWrite i j k w s
  | .DRM_CTX_CONTROL => ctxWrite j k w s
  | _ => .next (s.putNew r j k w)

/-- A 64-bit write of the register at an offset by initiator i: to a register with commands of its own, the command; otherwise by access codes. [log 8, 10: DEDUCED] -/
def State.regWrite (s : State) (i off : Nat) (w : Word) : Answer :=
  match s.regOf off with
  | none => .next s
  | some (r, j, k) =>
    if s.alive = false then .next s
    else
      match r with
      | .HUB_RESET => if F.HUB_RESET_KIND.of w = 2 then execHubResetCold i w s else execHubResetWarm i w s
      | .HUB_STATUS => .next (s.putNew r j k w).fixAttn
      | .HUB_ATTN_CFG => .next (s.attnWrite w)
      | .EVT_READ | .PWR_CAP | .PWR_STATUS | .PWR_KIT => .next (s.putNew r j k w)
      | .HUB_HQ_CFG => execHqCfgWrite i j w s
      | .HUB_HQ_SQ_TAIL => execHqSqDoorbell i j w [] s
      | .HUB_HQ_CQ_HEAD => execHqCqDoorbell i j w s
      | .HUB_HQ_SQ_BASE | .HUB_HQ_CQ_BASE => .next (if s.canQueue i j then s.putNew r j k w else s)
      | _ =>
        if s.canWrite i = false then .next s
        else if r.info.epoch then execCfgStagedWrite i (r.off j k) w s
        else writeReady i (r.off j k) r j k w s

/-- REGISTER_WRITE by a control core or the host. [log 8: DEDUCED] -/
def execRegisterWrite (i off : Nat) (w : Word) (s : State) : Answer := if i ≤ 8 then s.regWrite i off w else .next s

/-- FORWARDED_WRITE: the SHADOW applies a write that its LEAD has forwarded (R473). [log 120: DEDUCED] -/
def execForwardedWrite (i off : Nat) (w : Word) (s : State) : Answer :=
  if s.follows = false then .next s
  else
    let t : State := { s with pair := { s.pair with applying := true } }
    match t.regWrite i off w with
    | .next u => .next { u with pair := { u.pair with applying := false } }
    | o => o

-- ===== Attention (R546 to R548) =====

/-- ATTN_RAISE: a write of HUB_ATTN_CFG with RAISE = 1. -/
def execAttnRaise (i : Nat) (w : Word) (s : State) : Answer :=
  if s.alive = false ∨ 8 < i ∨ F.HUB_ATTN_CFG_RAISE.of w ≠ 1 then .next s else .next (s.attnWrite w)

/-- RB_N has been released long enough for another pulse. [log 111: DEDUCED] -/
def State.pulseSpaced (s : State) : Bool := decide (s.mgmt.released = 0) || decide (s.mgmt.released - 1 + 10000 ≤ s.time)

/-- A pulse starts: RB_N is driven low. -/
def State.startPulse (s : State) : State :=
  { s with mgmt := { s.mgmt with inPulse := true, pulseStart := s.time, pulseDue := false } }

/-- ATTN_PULSE_START. [log 111: DEDUCED] -/
def execAttnPulseStart (s : State) : Answer :=
  if s.mgmt.pulseDue && s.fb F.HUB_STATUS_ATTN 0 0 && !s.mgmt.rbLow && !s.mgmt.inPulse && s.pulseSpaced then .next s.startPulse else .next s

/-- ATTN_PULSE_RELEASE: 2.0 µs after the start. -/
def execAttnPulseRelease (s : State) : Answer :=
  if s.mgmt.inPulse && decide (2000 + s.mgmt.pulseStart ≤ s.time) then
    .next { s with mgmt := { s.mgmt with inPulse := false, released := s.time + 1 } }
  else .next s

/-- ATTN_RENOTIFY: RENOTIFY_MS after the previous pulse start, with ATTN still 1. -/
def execAttnRenotify (s : State) : Answer :=
  let ms := s.f F.HUB_ATTN_CFG_RENOTIFY_MS 0 0
  if s.fb F.HUB_STATUS_ATTN 0 0 && decide (ms ≠ 0) && !s.mgmt.rbLow && !s.mgmt.inPulse && !s.mgmt.pulseDue && s.pulseSpaced &&
      decide (s.mgmt.pulseStart + 1000000 * ms ≤ s.time) then .next s.startPulse
  else .next s

-- ===== Management (R549) =====

/-- The management target answers: from the end of the ROM stage. [log 112: DEDUCED] -/
def State.mgmtUp (s : State) : Bool := s.alive && decide (2 ≤ s.stage)

/-- What the target answers; none is no acknowledgement. -/
def State.mgmtAnswer (s : State) (v : Option Nat) : State := { s with out := { s.out with mgmt := v } }

/-- Registers that management reads and those that it writes. -/
def mgmtReads (r : RegName) : Bool := isStatusReg r && decide (r ≠ .HUB_ATTN_CFG) && decide (r ≠ .HUB_RESET)
def mgmtWrites (r : RegName) : Bool :=
  match r with
  | .HUB_RESET | .HUB_STATUS | .PWR_CAP | .PWR_STATUS | .PWR_KIT | .PWR_ENERGY => true
  | _ => false

/-- An access that management may not make. -/
def State.mgmtRefuse (s : State) : State := s.logLimited limMgmt 1000000 (srcHub 9) Ev.MGMT_REFUSED

/-- MGMT_TRANSFER: over SMBus until the target has a dynamic address, over I3C from then on. [log 112: DEDUCED] -/
def execMgmtTransfer (m : MgmtXfer) (s : State) : Answer :=
  if s.mgmtUp = false ∨ m.smbus = s.mgmt.dynAddr.isSome ∨ (m.smbus && !m.pecOk) then .next (s.mgmtAnswer none)
  else
    let may := fun (f : RegName → Bool) => (s.regOf m.off).any (fun q => f q.1)
    if m.write then
      if may mgmtWrites then (s.mgmtAnswer (some 0)).regWrite 9 m.off (BitVec.ofNat 64 m.data) else .next (s.mgmtRefuse.mgmtAnswer (some 0))
    else if may mgmtReads then
      let q := s.readWide 9 m.off
      .next (q.1.mgmtAnswer (some q.2.1))
    else .next (s.mgmtRefuse.mgmtAnswer (some 0))

/-- ENTDAA: a target without a dynamic address takes the one that it is given. -/
def execEntdaa (a : Nat) (s : State) : Answer :=
  if s.mgmtUp && s.mgmt.dynAddr.isNone && decide (a < 128) then .next { s with mgmt := { s.mgmt with dynAddr := some a } } else .next s

/-- SETDASA: the dynamic address, from the static address 0x5A. -/
def execSetdasa (static a : Nat) (s : State) : Answer :=
  if s.mgmtUp && s.mgmt.dynAddr.isNone && decide (static = 0x5A) && decide (a < 128) then .next { s with mgmt := { s.mgmt with dynAddr := some a } }
  else .next s

/-- RSTDAA: the dynamic address is dropped. -/
def execRstdaa (s : State) : Answer := if s.mgmtUp then .next { s with mgmt := { s.mgmt with dynAddr := none } } else .next s

/-- An I3C GET command to the dynamic address. [log 112: DEDUCED] -/
def State.i3cGet (s : State) (v : Nat) : State := if s.mgmtUp && s.mgmt.dynAddr.isSome then s.mgmtAnswer (some v) else s.mgmtAnswer none

/-- GETPID. -/
def execGetpid (s : State) : Answer := .next (s.i3cGet Config.provisionalId.toNat)
/-- GETBCR. -/
def execGetbcr (s : State) : Answer := .next (s.i3cGet Config.busCharacteristics.toNat)
/-- GETDCR. -/
def execGetdcr (s : State) : Answer := .next (s.i3cGet Config.deviceCharacteristics.toNat)
/-- GETSTATUS: the status word is a value that the spec leaves open. -/
def execGetstatus (s : State) : Answer := .next (s.fresh.i3cGet (Config.targetStatus s.freeCtr).toNat)

-- ===== Attestation (R550) =====

/-- DOE answers from the end of the ROM stage. -/
def State.doeAnswer (s : State) (d : DoeResp) : State := if s.mgmtUp then { s with out := { s.out with doe := d } } else s

/-- Error codes of DSP0274: invalid request, unexpected request, version mismatch. [log 113: PRESUMED] -/
def spdmInvalid : Nat := 0x01
def spdmUnexpected : Nat := 0x04
def spdmVersionMismatch : Nat := 0x41

/-- A request after negotiation: its version and its place in the sequence, then its answer. [log 113: PRESUMED] -/
def State.spdm (s : State) (r : SpdmReq) (d : DoeResp) : State :=
  if s.mgmt.spdmAlgs = false then s.doeAnswer (.error spdmUnexpected)
  else if r.version ≠ s.mgmt.spdmVersion then s.doeAnswer (.error spdmVersionMismatch)
  else s.doeAnswer d

/-- DOE_DISCOVERY: DOE Discovery and SPDM of the PCI-SIG vendor. [log 113: PRESUMED] -/
def execDoeDiscovery (_r : SpdmReq) (s : State) : Answer := .next (s.doeAnswer (.protocols 1 [0, 1]))

/-- GET_VERSION starts the negotiation anew. -/
def execGetVersion (_r : SpdmReq) (s : State) : Answer :=
  if s.mgmtUp = false then .next s
  else .next ({ s with mgmt := { s.mgmt with spdmVersion := 0, spdmCaps := false, spdmAlgs := false } }.doeAnswer (.versions [0x12, 0x13]))

/-- GET_CAPABILITIES: CERT_CAP, CHAL_CAP and MEAS_CAP with signatures, CTExponent 18. -/
def execGetCapabilities (r : SpdmReq) (s : State) : Answer :=
  if s.mgmtUp = false then .next s
  else if r.version ≠ 0x12 ∧ r.version ≠ 0x13 then .next (s.doeAnswer (.error spdmVersionMismatch))
  else .next ({ s with mgmt := { s.mgmt with spdmVersion := r.version, spdmCaps := true } }.doeAnswer (.capabilities 18 true true true true))

/-- NEGOTIATE_ALGORITHMS: ECDSA P-384, SHA-384 and the DMTF measurement specification, by their bits. [log 113: PRESUMED] -/
def execNegotiateAlgorithms (r : SpdmReq) (s : State) : Answer :=
  if s.mgmtUp = false then .next s
  else if s.mgmt.spdmCaps = false then .next (s.doeAnswer (.error spdmUnexpected))
  else if r.version ≠ s.mgmt.spdmVersion then .next (s.doeAnswer (.error spdmVersionMismatch))
  else .next ({ s with mgmt := { s.mgmt with spdmAlgs := true } }.doeAnswer (.algorithms 0x80 2 1))

/-- The digest of the chain in slot 0. -/
def chainDigest : BitVec 384 := BitVec.ofNat 384 (sha384 Config.certificateChain Config.certificateBytes)

/-- GET_DIGESTS: slot 0 alone. -/
def execGetDigests (r : SpdmReq) (s : State) : Answer := .next (s.spdm r (.digests 1 chainDigest))

/-- GET_CERTIFICATE: a portion of the chain of slot 0. -/
def execGetCertificate (r : SpdmReq) (s : State) : Answer :=
  let n := min r.length (Config.certificateBytes - r.offset)
  .next (s.spdm r (if r.param1 ≠ 0 ∨ Config.certificateBytes ≤ r.offset then .error spdmInvalid
    else .certificate 0 (Config.certificateChain / 256 ^ r.offset % 256 ^ n) n))

/-- Measurement i of Table 18.11. [log 114: DEDUCED] -/
def State.measurement (s : State) (i : Nat) : Nat :=
  let ready := decide (s.stage = stageReady) || decide (s.stage = stageLost)
  if i = 1 then Config.romDigest.toNat
  else if i = 2 then (if s.boot.image.2.1 = 0 then 0 else sha384 s.boot.image.1 112)
  else if i = 3 then Config.rawMeasurement [s.boot.fuseCounter, s.boot.revoked, (s.rg .SEC_DEFAULT_LOCK 0 0).toNat, s.boot.nodeStrap.toNat, b2n s.boot.defaultN]
  else if ready = false then 0
  else if i = 4 then Config.rawMeasurement [s.f F.HUB_CFG_STATUS_CURRENT 0 0, (Config.imageDigest s.epochNow).toNat]
  else if s.coreRuns (i - 5) && s.fb F.HUB_CC_IMAGE_VALID (i - 5) 0 then ((s.imageFor (i - 5)).map (fun q => q.1.digest)).getD 0
  else 0

/-- CHALLENGE: the digest of the chain, a summary of the measurements when one is asked for, and a signature. [log 114: DEDUCED] -/
def execChallenge (r : SpdmReq) (s : State) : Answer :=
  if r.param1 ≠ 0 then .next (s.spdm r (.error spdmInvalid))
  else
    let summary := if r.param2 = 0 then 0 else Config.freeValue s.freeCtr
    .next (s.fresh.fresh.spdm r (.challenge chainDigest (BitVec.ofNat 384 summary) (Config.attestSign (s.freeCtr + 1))))

/-- GET_MEASUREMENTS: the number of indices, one of them, or all, signed when bit 0 of the attributes asks for it. -/
def execGetMeasurements (r : SpdmReq) (s : State) : Answer :=
  let sig := if r.param1 % 2 = 1 then some (Config.attestSign s.freeCtr) else none
  let s' := if r.param1 % 2 = 1 then s.fresh else s
  if r.param2 = 0 then .next (s'.spdm r (.measurements [(0, 12)] sig))
  else if r.param2 = 0xFF then .next (s'.spdm r (.measurements ((span 1 12).map (fun i => (i, s.measurement i))) sig))
  else if 12 < r.param2 then .next (s.spdm r (.error spdmInvalid))
  else .next (s'.spdm r (.measurements [(r.param2, s.measurement r.param2)] sig))

-- ===== Control cores (R261, R441, R533) =====

/-- The control space in a core's addresses. -/
def coreControl : Nat := 2 ^ 48

/-- What a core's access answers: the data, and the exception and address when it traps. [log 121: DESIGN CHOICE] -/
def State.coreAnswer (s : State) (v : Nat) (trap : Option (Nat × Nat)) : State := { s with out := { s.out with rdata := v, ep := false, trap := trap } }

/-- The exception of a poisoned access (Table 14.3). [log 117: DEDUCED] -/
def trapCause (o : CoreOp) : Nat :=
  match o with
  | .fetch => 1
  | .amo => 7
  | _ => 5

/-- The first address of [a, a + n) that lies in a poisoned granule. [log 117: DEDUCED] -/
def trapAddr (a n p : Nat) : Nat :=
  match (List.range (granules a n)).find? (fun g => p.testBit g) with
  | some 0 => a
  | some g => (a / 32 + g) * 32
  | none => a

/-- A core's read has ended with data d from address a: it answers, or traps and logs CC_POISON. [log 116: DEDUCED] -/
def State.coreRead (s : State) (x : CoreAccess) (v p : Nat) : State :=
  if p = 0 then s.coreAnswer v none
  else (s.log (srcCore x.core) Ev.CC_POISON [] none (some (unitCore x.core))).coreAnswer 0 (some (trapCause x.op, trapAddr x.addr x.size p))

/-- The word that a 32-bit write of one half puts to a register: RW fields of the other half are kept. [log 116: DEDUCED] -/
def halfWord (fs : List Fld) (old : BitVec 64) (high : Bool) (v : Nat) : BitVec 64 :=
  let keep := (fs.foldl (fun (x : BitVec 64) f => if f.acc = .rw then f.put x (f.of old) else x) 0).toNat
  BitVec.ofNat 64 (if high then v % 2 ^ 32 * 2 ^ 32 + keep % 2 ^ 32 else keep / 2 ^ 32 * 2 ^ 32 + v % 2 ^ 32)

/-- Some field lies in the half. [log 116: DEDUCED] -/
def halfUsed (fs : List Fld) (high : Bool) : Bool := fs.any (fun f => if high then decide (32 < f.lo + f.width) else decide (f.lo < 32))

/-- A core's write to the control space at offset o: 64 bits, or 32 bits of one half. [log 116: DEDUCED] -/
def State.coreWrite (s : State) (x : CoreAccess) (o : Nat) : Answer :=
  if x.size = 8 then s.regWrite x.core o (BitVec.ofNat 64 x.data)
  else if x.size = 4 ∧ o % 4 = 0 then
    let high := decide (o % 8 = 4)
    match s.regOf (o / 8 * 8) with
    | none => .next s
    | some (r, j, k) =>
      if halfUsed r.fields high = false then .next s
      else
        let old := if r.info.epoch && s.cfgStaging then storeGet s.staged r j k else BitVec.ofNat 64 (s.wordOf x.core r j k).2.1
        s.regWrite x.core (o / 8 * 8) (halfWord r.fields old high x.data)
  else .next s

/-- A core's read of the control space at offset o. [log 117: DEDUCED] -/
def State.coreLoad (s : State) (x : CoreAccess) (o : Nat) : State × Nat × Bool :=
  if x.size = 8 then s.readWide x.core o
  else if x.size = 4 ∧ o % 8 = 0 then s.readLow x.core o
  else if x.size = 4 ∧ o % 8 = 4 then s.readHigh x.core (o - 4)
  else (s, 0, false)

/-- CONTROL_CORE_ACCESS: a load, store, AMO or fetch of an executing core, to the control space or to local memory. A load from flash waits for
its data. [log 121: DESIGN CHOICE] -/
def execControlCoreAccess (x : CoreAccess) (s : State) : Answer :=
  if s.coreRuns x.core = false ∨ x.size = 0 ∨ s.asleep (s.canon x.addr) = true then .next s
  else if coreControl ≤ x.addr ∧ x.addr < 2 * coreControl then
    let o := x.addr - coreControl
    if x.op = .store then (s.coreAnswer 0 none).coreWrite x o
    else
      let q := s.coreLoad x o
      let t := q.1.coreRead x q.2.1 (b2n q.2.2)
      if x.op = .amo ∧ q.2.2 = false then t.coreWrite x o else .next t
  else if s.reserves x.addr x.size then
    .next ((s.log (srcCore x.core) Ev.MEM_RESERVED_ACCESS [x.core, x.addr]).coreAnswer 0 none)
  else if x.op = .store then .next ((s.softWrite x.addr x.size { v := x.data, p := 0 }).coreAnswer 0 none)
  else
    let g := s.flashGate (2 ^ 59 + 1 + x.core) 4097 x.addr x.size
    if g.2 = false then .next g.1 else
    let r := g.1.readMem noUnit x.addr x.size
    let t := r.1.coreRead x (r.2.v % 256 ^ x.size) r.2.p
    .next (if x.op = .amo ∧ r.2.p = 0 then t.softWrite x.addr x.size { v := x.data, p := 0 } else t)

end Sys2Proof.Machine
end

