-- ==== Sys2Proof/Machine/VecInstr.lean ====
section
/-!
DEFINITION. Sys2Proof/Machine/VecInstr.lean: the vector instructions of Table 3.10 (R126 to R128).
-/
namespace Sys2Proof.Machine

open Sys2Proof (CtxId Fields)

/-- FP32 element n of a tile as bits. -/
def Tile.f32 (t : Tile) (n : Nat) : Nat := t.field (32 * n) 32

/-- The second operand of a vector instruction: T[rb], or S[rb][31:0] broadcast under MOD[0]; its lanes and marks (R126). -/
def State.vecB (s : State) (u : CtxId) (f : Fields) (n : Nat) : Nat × Bool :=
  if f.modBit 0 then (s.sv u f.B % 2 ^ 32, s.sp u f.B) else ((s.tile u f.B).f32 n, (s.tile u f.B).pField (32 * n) 32)

/-- Write enabled FP32 results to T[rd] with their flags. -/
def State.vecOut (s : State) (u : CtxId) (f : Fields) (e : Nat) (r : Nat → Nat × VFlags) (p : Nat → Bool) : State :=
  let on := (List.range 16).filter (fun n => e.testBit n)
  let t := (s.tile u f.D).pack 32 0 16 (fun n => e.testBit n) (fun n => (r n).1) p
  ((s.setFlags u false false (on.any (fun n => (r n).2.cnv)) (on.any (fun n => (r n).2.inv))).setTile u f.D t).done u

/-- A two-operand vector instruction. -/
def State.vec2 (s : State) (u : CtxId) (f : Fields) (op : Nat) (g : Nat → Nat → Nat × VFlags) : State :=
  s.run u f op (f.zeroBut true true true false true true true false false && decide (f.fmtN = 8) && decide (f.modN < 2) &&
      (!f.modBit 0 || f.b16)) (fun _ => [])
    (fun s => s.onTiles u ([f.D, f.A] ++ (if f.modBit 0 then [] else [f.B])) (fun s =>
      s.vecOut u f (s.maskE u f) (fun n => g ((s.tile u f.A).f32 n) (s.vecB u f n).1)
        (fun n => (s.tile u f.A).pField (32 * n) 32 || (s.vecB u f n).2)))

/-- VADD. -/
def execVadd (u : CtxId) (f : Fields) (s : State) : Answer := .next (s.vec2 u f 0x60 f32Add)
/-- VSUB. -/
def execVsub (u : CtxId) (f : Fields) (s : State) : Answer := .next (s.vec2 u f 0x61 f32Sub)
/-- VMUL. -/
def execVmul (u : CtxId) (f : Fields) (s : State) : Answer := .next (s.vec2 u f 0x62 f32Mul)
/-- VMIN. -/
def execVmin (u : CtxId) (f : Fields) (s : State) : Answer := .next (s.vec2 u f 0x64 f32Min)
/-- VMAX. -/
def execVmax (u : CtxId) (f : Fields) (s : State) : Answer := .next (s.vec2 u f 0x65 f32Max)

/-- VFMA. -/
def execVfma (u : CtxId) (f : Fields) (s : State) : Answer :=
  .next (s.run u f 0x63 (f.zeroBut true true true false true true true true false && decide (f.fmtN = 8) && decide (f.modN < 2) &&
      (!f.modBit 0 || f.b16)) (fun _ => [])
    (fun s => s.onTiles u ([f.D, f.A, f.C] ++ (if f.modBit 0 then [] else [f.B])) (fun s =>
      s.vecOut u f (s.maskE u f) (fun n => f32Fma ((s.tile u f.A).f32 n) (s.vecB u f n).1 ((s.tile u f.C).f32 n))
        (fun n => (s.tile u f.A).pField (32 * n) 32 || (s.vecB u f n).2 || (s.tile u f.C).pField (32 * n) 32))))

/-- VFN. -/
def execVfn (u : CtxId) (f : Fields) (s : State) : Answer :=
  .next (s.run u f 0x66 (f.zeroBut true true true false true true false false false && decide (f.fmtN = 8) && decide (f.modN ≤ 4))
    (fun _ => [])
    (fun s => s.onTiles u [f.D, f.A] (fun s =>
      s.vecOut u f (s.maskE u f) (fun n => vfn f.modN ((s.tile u f.A).f32 n)) (fun n => (s.tile u f.A).pField (32 * n) 32))))

/-- VSMX. -/
def execVsmx (u : CtxId) (f : Fields) (s : State) : Answer :=
  .next (s.run u f 0x67 (f.zeroBut true false true false true true true false false && decide (f.fmtN = 8) && f.b16)
    (fun _ => [])
    (fun s => s.onTiles u [f.D, f.A] (fun s =>
      s.vecOut u f (s.maskE u f) (fun n => softmaxHelper ((s.tile u f.A).f32 n) (s.sv u f.B % 2 ^ 32))
        (fun n => (s.tile u f.A).pField (32 * n) 32 || s.sp u f.B))))

/-- The narrower format of a VCVT. -/
def vcvtNarrow (f : Fields) : Nat := if f.fmtN = 8 then f.auxN else f.fmtN

/-- The bit offset of element n of a format in a tile: packed at P when narrower than FP32 (R124, Table 3.10). -/
def vcvtBase (fmt p : Nat) : Nat := if fmt = 8 then 0 else 16 * p

/-- VCVT. -/
def execVcvt (u : CtxId) (f : Fields) (s : State) : Answer :=
  .next (s.run u f 0x68 (f.zeroBut true false true true true true false false true && decide (f.fmtN ≤ 8) && decide (f.auxN ≤ 8) &&
      (decide (f.fmtN = 8) || decide (f.auxN = 8)) && decide (f.immN < 64) &&
      decide (16 * fmtW (vcvtNarrow f) * (f.immN + 1) ≤ 512))
    (fun _ => [])
    (fun s => s.onTiles u [f.D, f.A] (fun s =>
      let a := s.tile u f.A
      let e := s.maskE u f
      let ws := fmtW f.auxN
      let at' := fun n => ws * (vcvtBase f.auxN f.immN + n)
      let r := fun n => convNum (decodeElem f.auxN (a.field (at' n) ws)) f.fmtN
      let on := (List.range 16).filter (fun n => e.testBit n)
      let t := (s.tile u f.D).pack (fmtW f.fmtN) (vcvtBase f.fmtN f.immN) 16 (fun n => e.testBit n) (fun n => (r n).1)
        (fun n => a.pField (at' n) ws)
      ((s.setFlags u false false (on.any (fun n => (r n).2.cnv)) (on.any (fun n => (r n).2.inv))).setTile u f.D t).done u)))

/-- The value that stands for a disabled element in VRED (R127). -/
def vredId (m : Nat) : Nat := if m = 0 then 0x80000000 else if m = 1 then 0xFF800000 else 0x7F800000

/-- One FP32 operation of VRED. -/
def vredOp (m : Nat) (a b : Nat) : Nat × VFlags := if m = 0 then f32Add a b else if m = 1 then f32Max a b else f32Min a b

/-- One level of the pairwise tree. -/
def vredLevel (m : Nat) : List (Nat × VFlags) → List (Nat × VFlags)
  | a :: b :: r =>
    let x := vredOp m a.1 b.1
    (x.1, (a.2.or b.2).or x.2) :: vredLevel m r
  | l => l

/-- The tree of R127 over 16 elements. -/
def vredTree (m : Nat) (l : List Nat) : Nat × VFlags :=
  match vredLevel m (vredLevel m (vredLevel m (vredLevel m (l.map (fun x => (x, {})))))) with
  | x :: _ => x
  | [] => (0, {})

/-- VRED. -/
def execVred (u : CtxId) (f : Fields) (s : State) : Answer :=
  .next (s.run u f 0x69 (f.zeroBut true true true false true true false false false && f.d16 && decide (f.fmtN = 8) && decide (f.modN ≤ 2))
    (fun _ => [])
    (fun s => s.onTiles u [f.A] (fun s =>
      let e := s.maskE u f
      let a := s.tile u f.A
      let r := vredTree f.modN ((List.range 16).map (fun n => if e.testBit n then a.f32 n else vredId f.modN))
      let p := (List.range 16).any (fun n => e.testBit n && a.pField (32 * n) 32)
      ((s.setFlags u false false r.2.cnv r.2.inv).putS u f.D (BitVec.ofNat 64 r.1) p).done u)))

/-- VBC. -/
def execVbc (u : CtxId) (f : Fields) (s : State) : Answer :=
  .next (s.run u f 0x6A (f.zeroBut true false true false true true false false false && f.a16 && decide (f.fmtN = 8))
    (fun _ => [])
    (fun s => s.onTiles u [f.D] (fun s =>
      s.vecOut u f (s.maskE u f) (fun _ => (s.sv u f.A % 2 ^ 32, {})) (fun _ => s.sp u f.A))))

/-- VSEL: all 16 elements are written (R128). -/
def execVsel (u : CtxId) (f : Fields) (s : State) : Answer :=
  .next (s.run u f 0x6B (f.zeroBut true false true false true true true false false && decide (f.fmtN = 8))
    (fun _ => [])
    (fun s => s.onTiles u [f.D, f.A, f.B] (fun s =>
      let e := s.maskE u f
      let pick := fun n => if e.testBit n then s.tile u f.A else s.tile u f.B
      s.vecOut u f (ones 16) (fun n => ((pick n).f32 n, {})) (fun n => (pick n).pField (32 * n) 32))))

end Sys2Proof.Machine
end

