-- ==== Sys2Proof/Machine/MaskInstr.lean ====
section
/-!
DEFINITION. Sys2Proof/Machine/MaskInstr.lean: the mask instructions of Table 3.11 (R129 to R131), the metadata check and the draw
of Table 3.12, and the poison tests of Table 3.14 (R140).
-/
namespace Sys2Proof.Machine

open Sys2Proof (CtxId Fields)

/-- Write M[n]. -/
def State.putM (s : State) (u : CtxId) (n v : Nat) : State := s.setCtx u (fun c => c.setM n (BitVec.ofNat 64 v))

/-- MSET. -/
def execMset (u : CtxId) (f : Fields) (s : State) : Answer :=
  .next (s.run1 u f 0x70 (f.zeroBut false false false false true true false false false && f.d8 && f.a16)
    (fun s => [when (s.sp u f.A) 3]) (fun s => s.putM u f.D (s.sv u f.A)))

/-- The function of MOP. -/
def mopVal (m : Nat) (a b : BitVec 64) : BitVec 64 :=
  match m with
  | 0 => a &&& b
  | 1 => a ||| b
  | 2 => a ^^^ b
  | 3 => a &&& ~~~b
  | _ => ~~~a

/-- MOP. -/
def execMop (u : CtxId) (f : Fields) (s : State) : Answer :=
  .next (s.run1 u f 0x71 (f.zeroBut false true false false true true (decide (f.modN ≠ 4)) false false && f.d8 && f.a8 && f.b8 &&
      decide (f.modN ≤ 4)) (fun _ => [])
    (fun s => s.putM u f.D (mopVal f.modN ((s.ctx u).M f.A) ((s.ctx u).M f.B)).toNat))

/-- The condition of MCMP under the order of R89: a NaN compares false except under not equal. -/
def mcmpHolds (m a b : Nat) : Bool :=
  if isNaN32 a || isNaN32 b then decide (m = 1)
  else match m with
    | 0 => decide (rank32 a = rank32 b)
    | 1 => decide (rank32 a ≠ rank32 b)
    | 2 => decide (rank32 a < rank32 b)
    | _ => decide (rank32 b ≤ rank32 a)

/-- A tile operand of FP32 elements is poisoned. -/
def Tile.anyPoison (t : Tile) : Bool := t.pLo || t.pHi

/-- MCMP. -/
def execMcmp (u : CtxId) (f : Fields) (s : State) : Answer :=
  .next (s.run u f 0x72 (f.zeroBut false true false false true true true false false && f.d8 && decide (f.modN / 2 ≤ 3) &&
      (!f.modBit 0 || f.b16))
    (fun s => if (f.A :: (if f.modBit 0 then [] else [f.B])).any (fun n => s.tilePending u n) then [] else
      [when ((s.tile u f.A).anyPoison || (if f.modBit 0 then s.sp u f.B else (s.tile u f.B).anyPoison)) 3])
    (fun s => s.onTiles u (f.A :: (if f.modBit 0 then [] else [f.B])) (fun s =>
      (s.putM u f.D (bitField 16 (fun n => mcmpHolds (f.modN / 2) ((s.tile u f.A).f32 n) (s.vecB u f n).1))).done u)))

/-- The element rule of CAUSAL (R130): query position q, key position k, limit l; comparisons on exact sums. -/
def causalVisible (nc : Bool) (q k l : Nat) : Bool := decide (k < l) && (nc || decide (k ≤ q))

/-- CAUSAL. -/
def execCausal (u : CtxId) (f : Fields) (s : State) : Answer :=
  .next (s.run1 u f 0x73 (f.zeroBut false true false false true true true true false && f.d8 && f.a16 && f.b16 && f.c16 &&
      decide (f.modN < 2))
    (fun s => [when (s.sp u f.A || s.sp u f.B || s.sp u f.C) 3])
    (fun s => s.putM u f.D (bitField 16 (fun n =>
      causalVisible (f.modBit 0) (s.sv u f.A + n / 4) (s.sv u f.B + n % 4) (s.sv u f.C)))))

/-- The block rule of CAUSALB (R131). -/
def causalBlock (nc : Bool) (q k l : Nat) : Nat :=
  if l ≤ k || (!nc && decide (q + 63 < k)) then 0
  else if k + 63 < l && (nc || decide (k + 63 ≤ q)) then 2
  else 1

/-- CAUSALB; its results are counted per drum (R181). -/
def execCausalb (u : CtxId) (f : Fields) (s : State) : Answer :=
  .next (s.run1 u f 0x74 (f.zeroBut false true false false true true true true false && f.d16 && f.a16 && f.b16 && f.c16 &&
      decide (f.modN < 2))
    (fun s => [when (s.sp u f.A || s.sp u f.B || s.sp u f.C) 3])
    (fun s =>
      let r := causalBlock (f.modBit 0) (s.sv u f.A) (s.sv u f.B) (s.sv u f.C)
      let fld := if r = 0 then F.DRM_CAUSALB_MASKED_COUNT else if r = 1 then F.DRM_CAUSALB_PARTIAL_COUNT
        else F.DRM_CAUSALB_VISIBLE_COUNT
      (s.count fld u.kit u.drum 1).putS u f.D (BitVec.ofNat 64 r) false))

/-- Number of ones of a 64-bit word. -/
def popcount (w : BitVec 64) : Nat := (List.range 64).foldl (fun n i => n + b2n (w.getLsbD i)) 0

/-- MPOP. -/
def execMpop (u : CtxId) (f : Fields) (s : State) : Answer :=
  .next (s.run1 u f 0x75 (f.zeroBut false false false false true true false false false && f.d16 && f.a8) (fun _ => [])
    (fun s => s.putS u f.D (BitVec.ofNat 64 (popcount ((s.ctx u).M f.A))) false))

/-- Metadata nibbles that the sparse layout of a format uses: 4 rows of 16 or 8 groups (R64). -/
def metaNibbles (fmt : Nat) : Nat := 4 * (tileK fmt / 2)

/-- SPCHK: the number of metadata nibbles outside Table 2.5 among those the layout uses (R64, R132). -/
def execSpchk (u : CtxId) (f : Fields) (s : State) : Answer :=
  .next (s.run u f 0x80 (f.zeroBut true false false false true true false false false && f.d16 && decide (f.fmtN ≤ 6)) (fun _ => [])
    (fun s => s.onTiles u [f.A] (fun s =>
      let t := s.tile u f.A
      let n := metaNibbles f.fmtN
      let bad := ((List.range n).filter (fun k => !validNibble (t.field (4 * k) 4))).length
      (s.putS u f.D (BitVec.ofNat 64 bad) (t.pField 0 (4 * n))).done u)))

/-- DRAW (R135). -/
def execDraw (u : CtxId) (f : Fields) (s : State) : Answer :=
  .next (s.run1 u f 0xA2 (f.zeroBut false false false false true true true false true && f.d16 && f.a16 && f.b16) (fun _ => [])
    (fun s => s.putS u f.D (BitVec.ofNat 64 (draw (s.sv u f.A) (s.sv u f.B) f.immN)) (s.sp u f.A || s.sp u f.B)))

/-- RA is in the class of MOD: T, A, S or X. -/
def classLegal (f : Fields) : Bool := if f.modN = 0 then true else if f.modN = 1 then f.a8 else f.a16

/-- The marks that PTEST reads. -/
def State.marks (s : State) (u : CtxId) (f : Fields) : Nat :=
  match f.modN with
  | 0 => let t := s.tile u f.A
         b2n t.pLo + 2 * b2n t.pHi + 4 * b2n t.pSc
  | 1 => bitField 16 (fun n => ((s.acc u f.A).el n).poison)
  | 2 => b2n (s.sp u f.A)
  | _ => b2n (s.X u f.A).p

/-- PTEST. -/
def execPtest (u : CtxId) (f : Fields) (s : State) : Answer :=
  .next (s.run u f 0xD0 (f.zeroBut false true false false true true false false false && f.d16 && decide (f.modN < 4) && classLegal f)
    (fun _ => [])
    (fun s => s.onTiles u (if f.modN = 0 then [f.A] else []) (fun s => (s.putS u f.D (BitVec.ofNat 64 (s.marks u f)) false).done u)))

/-- Bits of IMM that PMARK uses. -/
def pmarkBits (f : Fields) : Nat := if f.modN = 0 then 3 else if f.modN = 1 then 16 else 1

/-- Set the marks that PMARK names. -/
def State.pmark (s : State) (u : CtxId) (f : Fields) : State :=
  let on := fun n => f.immN.testBit n
  match f.modN with
  | 0 => let t := s.tile u f.A
         s.setTile u f.A { t with pLo := t.pLo || on 0, pHi := t.pHi || on 1, pSc := t.pSc || on 2 }
  | 1 => s.setAcc u f.A ((List.range 16).foldl (fun a n => if on n then a.setEl n { a.el n with poison := true } else a) (s.acc u f.A))
  | 2 => s.putS u f.A (s.S u f.A).v (s.sp u f.A || on 0)
  | _ => s.putX u f.A { s.X u f.A with p := (s.X u f.A).p || on 0 }

/-- PMARK. -/
def execPmark (u : CtxId) (f : Fields) (s : State) : Answer :=
  .next (s.run u f 0xD1 (f.zeroBut false true false false false true false false true && decide (f.modN < 4) && classLegal f &&
      decide (f.immN < 2 ^ pmarkBits f)) (fun _ => [])
    (fun s => s.onTiles u (if f.modN = 0 then [f.A] else []) (fun s => (s.pmark u f).done u)))

end Sys2Proof.Machine
end

