-- ==== Sys2Proof/Machine/Dispatch.lean ====
section
/-!
DEFINITION. Sys2Proof/Machine/Dispatch.lean: the meaning of each command, one arm per constructor of Instr.
-/
namespace Sys2Proof.Machine

def exec (cmd : Instr) (s : State) : Host.Outcome State Fault Refusal :=
  match cmd with
  | .coldReset aonLost => Sys2Proof.Machine.execColdReset aonLost s
  | .hubResetCold i w => Sys2Proof.Machine.execHubResetCold i w s
  | .hubResetWarm i w => Sys2Proof.Machine.execHubResetWarm i w s
  | .warmResetRequest => Sys2Proof.Machine.execWarmResetRequest s
  | .refclkLost => Sys2Proof.Machine.execRefclkLost s
  | .refclkReturn => Sys2Proof.Machine.execRefclkReturn s
  | .powerLoss => Sys2Proof.Machine.execPowerLoss s
  | .railFault k => Sys2Proof.Machine.execRailFault k s
  | .fixedRailOutOfTolerance => Sys2Proof.Machine.execFixedRailOutOfTolerance s
  | .thermalTrip => Sys2Proof.Machine.execThermalTrip s
  | .bootRom r => Sys2Proof.Machine.execBootRom r s
  | .bootVerify => Sys2Proof.Machine.execBootVerify s
  | .bootFill r => Sys2Proof.Machine.execBootFill r s
  | .bootHbm failed => Sys2Proof.Machine.execBootHbm failed s
  | .bootLink trained => Sys2Proof.Machine.execBootLink trained s
  | .bootTempo w => Sys2Proof.Machine.execBootTempo w s
  | .bootConfig => Sys2Proof.Machine.execBootConfig s
  | .tempoWindowClose w => Sys2Proof.Machine.execTempoWindowClose w s
  | .regulatorWindow => Sys2Proof.Machine.execRegulatorWindow s
  | .bridgeLinkFail k b => Sys2Proof.Machine.execBridgeLinkFail k b s
  | .nop u f => Sys2Proof.Machine.execNop u f s
  | .br u f => Sys2Proof.Machine.execBr u f s
  | .brc u f => Sys2Proof.Machine.execBrc u f s
  | .loop u f => Sys2Proof.Machine.execLoop u f s
  | .stop u f => Sys2Proof.Machine.execStop u f s
  | .cswrd u f => Sys2Proof.Machine.execCswrd u f s
  | .cswclr u f => Sys2Proof.Machine.execCswclr u f s
  | .sbind u f => Sys2Proof.Machine.execSbind u f s
  | .sadd u f => Sys2Proof.Machine.execSadd u f s
  | .ssub u f => Sys2Proof.Machine.execSsub u f s
  | .smul u f => Sys2Proof.Machine.execSmul u f s
  | .sand u f => Sys2Proof.Machine.execSand u f s
  | .sor u f => Sys2Proof.Machine.execSor u f s
  | .sxor u f => Sys2Proof.Machine.execSxor u f s
  | .sshl u f => Sys2Proof.Machine.execSshl u f s
  | .sshr u f => Sys2Proof.Machine.execSshr u f s
  | .ssar u f => Sys2Proof.Machine.execSsar u f s
  | .smin u f => Sys2Proof.Machine.execSmin u f s
  | .smax u f => Sys2Proof.Machine.execSmax u f s
  | .scmp u f => Sys2Proof.Machine.execScmp u f s
  | .smovi u f => Sys2Proof.Machine.execSmovi u f s
  | .xset u f => Sys2Proof.Machine.execXset u f s
  | .xadd u f => Sys2Proof.Machine.execXadd u f s
  | .xmov u f => Sys2Proof.Machine.execXmov u f s
  | .tld u f e => Sys2Proof.Machine.execTld u f e s
  | .tst u f => Sys2Proof.Machine.execTst u f s
  | .scld u f => Sys2Proof.Machine.execScld u f s
  | .scst u f => Sys2Proof.Machine.execScst u f s
  | .sld u f => Sys2Proof.Machine.execSld u f s
  | .sst u f => Sys2Proof.Machine.execSst u f s
  | .ald u f => Sys2Proof.Machine.execAld u f s
  | .ast u f => Sys2Proof.Machine.execAst u f s
  | .aldt u f => Sys2Proof.Machine.execAldt u f s
  | .acpy u f => Sys2Proof.Machine.execAcpy u f s
  | .waitf u f => Sys2Proof.Machine.execWaitf u f s
  | .waitd u f => Sys2Proof.Machine.execWaitd u f s
  | .loadDataReturn u => Sys2Proof.Machine.execLoadDataReturn u s
  | .asyncComplete x => Sys2Proof.Machine.execAsyncComplete x s
  | .aopen u f => Sys2Proof.Machine.execAopen u f s
  | .tmac u f e => Sys2Proof.Machine.execTmac u f e s
  | .acomb u f => Sys2Proof.Machine.execAcomb u f s
  | .areanc u f => Sys2Proof.Machine.execAreanc u f s
  | .aadd u f => Sys2Proof.Machine.execAadd u f s
  | .acvt u f => Sys2Proof.Machine.execAcvt u f s
  | .acvtmx u f => Sys2Proof.Machine.execAcvtmx u f s
  | .vadd u f => Sys2Proof.Machine.execVadd u f s
  | .vsub u f => Sys2Proof.Machine.execVsub u f s
  | .vmul u f => Sys2Proof.Machine.execVmul u f s
  | .vfma u f => Sys2Proof.Machine.execVfma u f s
  | .vmin u f => Sys2Proof.Machine.execVmin u f s
  | .vmax u f => Sys2Proof.Machine.execVmax u f s
  | .vfn u f => Sys2Proof.Machine.execVfn u f s
  | .vsmx u f => Sys2Proof.Machine.execVsmx u f s
  | .vcvt u f => Sys2Proof.Machine.execVcvt u f s
  | .vred u f => Sys2Proof.Machine.execVred u f s
  | .vbc u f => Sys2Proof.Machine.execVbc u f s
  | .vsel u f => Sys2Proof.Machine.execVsel u f s
  | .mset u f => Sys2Proof.Machine.execMset u f s
  | .mop u f => Sys2Proof.Machine.execMop u f s
  | .mcmp u f => Sys2Proof.Machine.execMcmp u f s
  | .causal u f => Sys2Proof.Machine.execCausal u f s
  | .causalb u f => Sys2Proof.Machine.execCausalb u f s
  | .mpop u f => Sys2Proof.Machine.execMpop u f s
  | .spchk u f => Sys2Proof.Machine.execSpchk u f s
  | .rdisp u f => Sys2Proof.Machine.execRdisp u f s
  | .rrecv u f => Sys2Proof.Machine.execRrecv u f s
  | .kvrd u f => Sys2Proof.Machine.execKvrd u f s
  | .kvapp u f => Sys2Proof.Machine.execKvapp u f s
  | .tpen u f => Sys2Proof.Machine.execTpen u f s
  | .topk u f => Sys2Proof.Machine.execTopk u f s
  | .draw u f => Sys2Proof.Machine.execDraw u f s
  | .tinc u f => Sys2Proof.Machine.execTinc u f s
  | .tga u f => Sys2Proof.Machine.execTga u f s
  | .gong u f => Sys2Proof.Machine.execGong u f s
  | .gongArrivalCounted u => Sys2Proof.Machine.execGongArrivalCounted u s
  | .peal u f => Sys2Proof.Machine.execPeal u f s
  | .atom u f => Sys2Proof.Machine.execAtom u f s
  | .red u f => Sys2Proof.Machine.execRed u f s
  | .trig u f => Sys2Proof.Machine.execTrig u f s
  | .ptest u f => Sys2Proof.Machine.execPtest u f s
  | .pmark u f => Sys2Proof.Machine.execPmark u f s
  | .fence u f => Sys2Proof.Machine.execFence u f s
  | .retry k n w => Sys2Proof.Machine.execRetry k n w s
  | .skip k n w => Sys2Proof.Machine.execSkip k n w s
  | .resumeAt k n w => Sys2Proof.Machine.execResumeAt k n w s
  | .halt k n w => Sys2Proof.Machine.execHalt k n w s
  | .stepSubmit p w => Sys2Proof.Machine.execStepSubmit p w s
  | .stepStart p => Sys2Proof.Machine.execStepStart p s
  | .drumStepStart k d => Sys2Proof.Machine.execDrumStepStart k d s
  | .drumRebindDone k n => Sys2Proof.Machine.execDrumRebindDone k n s
  | .drumDone k d => Sys2Proof.Machine.execDrumDone k d s
  | .stepDone p => Sys2Proof.Machine.execStepDone p s
  | .stepDeadlineMissed p => Sys2Proof.Machine.execStepDeadlineMissed p s
  | .stepWatchdog p => Sys2Proof.Machine.execStepWatchdog p s
  | .prefetchCopy k d => Sys2Proof.Machine.execPrefetchCopy k d s
  | .prefetchScatter k d => Sys2Proof.Machine.execPrefetchScatter k d s
  | .prefetchClear k d => Sys2Proof.Machine.execPrefetchClear k d s
  | .prefetchWaitw k d => Sys2Proof.Machine.execPrefetchWaitw k d s
  | .prefetchEnd k d => Sys2Proof.Machine.execPrefetchEnd k d s
  | .prefetchTransferDone x => Sys2Proof.Machine.execPrefetchTransferDone x s
  | .prefetchListStart k d => Sys2Proof.Machine.execPrefetchListStart k d s
  | .latePrefetch u turns => Sys2Proof.Machine.execLatePrefetch u turns s
  | .calibStart k d => Sys2Proof.Machine.execCalibStart k d s
  | .calibComplete k d ratio => Sys2Proof.Machine.execCalibComplete k d ratio s
  | .tempoCalibForced k d => Sys2Proof.Machine.execTempoCalibForced k d s
  | .routerTakeToken k => Sys2Proof.Machine.execRouterTakeToken k s
  | .routerDispatch k => Sys2Proof.Machine.execRouterDispatch k s
  | .inboxRecordWritten k d => Sys2Proof.Machine.execInboxRecordWritten k d s
  | .routerDirWrite i k e w => Sys2Proof.Machine.execRouterDirWrite i k e w s
  | .kvTableWrite i slot word w => Sys2Proof.Machine.execKvTableWrite i slot word w s
  | .kvStageWrite i k w => Sys2Proof.Machine.execKvStageWrite i k w s
  | .kvReserve c w => Sys2Proof.Machine.execKvReserve c w s
  | .kvAdmit c w => Sys2Proof.Machine.execKvAdmit c w s
  | .kvCommit c w => Sys2Proof.Machine.execKvCommit c w s
  | .kvHandoff c w => Sys2Proof.Machine.execKvHandoff c w s
  | .kvFlush c w => Sys2Proof.Machine.execKvFlush c w s
  | .kvRelease c w => Sys2Proof.Machine.execKvRelease c w s
  | .kvForceFree c w => Sys2Proof.Machine.execKvForceFree c w s
  | .kvHeldApply p => Sys2Proof.Machine.execKvHeldApply p s
  | .kvArmedHandoffApply p l => Sys2Proof.Machine.execKvArmedHandoffApply p l s
  | .kvPageFlushDone k page => Sys2Proof.Machine.execKvPageFlushDone k page s
  | .kvHandoffSubmit slot layer => Sys2Proof.Machine.execKvHandoffSubmit slot layer s
  | .kvHandoffLayerDone slot layer => Sys2Proof.Machine.execKvHandoffLayerDone slot layer s
  | .kvHandoffClose slot => Sys2Proof.Machine.execKvHandoffClose slot s
  | .kvDrainDone slot => Sys2Proof.Machine.execKvDrainDone slot s
  | .treeConfigWrite i off w => Sys2Proof.Machine.execTreeConfigWrite i off w s
  | .ringDoorbell i off w => Sys2Proof.Machine.execRingDoorbell i off w s
  | .ringConfigWrite i off w => Sys2Proof.Machine.execRingConfigWrite i off w s
  | .pwLookup w => Sys2Proof.Machine.execPwLookup w s
  | .pwInsert w => Sys2Proof.Machine.execPwInsert w s
  | .pwDelete w => Sys2Proof.Machine.execPwDelete w s
  | .pwCommit w => Sys2Proof.Machine.execPwCommit w s
  | .pwUnlink w => Sys2Proof.Machine.execPwUnlink w s
  | .pwRelease w => Sys2Proof.Machine.execPwRelease w s
  | .submit p => Sys2Proof.Machine.execSubmit p s
  | .attach p => Sys2Proof.Machine.execAttach p s
  | .cancel p => Sys2Proof.Machine.execCancel p s
  | .notice p => Sys2Proof.Machine.execNotice p s
  | .query p => Sys2Proof.Machine.execQuery p s
  | .subPoliceWrite i sub w => Sys2Proof.Machine.execSubPoliceWrite i sub w s
  | .slotRemote c w => Sys2Proof.Machine.execSlotRemote c w s
  | .slotPark c w => Sys2Proof.Machine.execSlotPark c w s
  | .slotUnpark c w => Sys2Proof.Machine.execSlotUnpark c w s
  | .slotSetTally c w => Sys2Proof.Machine.execSlotSetTally c w s
  | .slotSetTally2 c w => Sys2Proof.Machine.execSlotSetTally2 c w s
  | .emitSubmit p w => Sys2Proof.Machine.execEmitSubmit p w s
  | .emitEntryApply p => Sys2Proof.Machine.execEmitEntryApply p s
  | .responseIssue slot => Sys2Proof.Machine.execResponseIssue slot s
  | .slotFree slot => Sys2Proof.Machine.execSlotFree slot s
  | .discard c w => Sys2Proof.Machine.execDiscard c w s
  | .discardDone c => Sys2Proof.Machine.execDiscardDone c s
  | .acctLatch c w => Sys2Proof.Machine.execAcctLatch c w s
  | .flashReadDone r => Sys2Proof.Machine.execFlashReadDone r s
  | .flashProgramDone r => Sys2Proof.Machine.execFlashProgramDone r s
  | .flashEraseDone block ok => Sys2Proof.Machine.execFlashEraseDone block ok s
  | .flashReclaim r => Sys2Proof.Machine.execFlashReclaim r s
  | .flashRelocateStart src dst => Sys2Proof.Machine.execFlashRelocateStart src dst s
  | .flashRelocateCopied src => Sys2Proof.Machine.execFlashRelocateCopied src s
  | .flashMapCheckpoint => Sys2Proof.Machine.execFlashMapCheckpoint s
  | .flashMapLoad => Sys2Proof.Machine.execFlashMapLoad s
  | .trnSubmit c w => Sys2Proof.Machine.execTrnSubmit c w s
  | .trnAbort c w => Sys2Proof.Machine.execTrnAbort c w s
  | .trnEntryActive p q => Sys2Proof.Machine.execTrnEntryActive p q s
  | .trnWheelRelease x => Sys2Proof.Machine.execTrnWheelRelease x s
  | .trnFarScan => Sys2Proof.Machine.execTrnFarScan s
  | .trnParcelStart x => Sys2Proof.Machine.execTrnParcelStart x s
  | .trnParcelAck x => Sys2Proof.Machine.execTrnParcelAck x s
  | .trnParcelFail x code => Sys2Proof.Machine.execTrnParcelFail x code s
  | .trnParcelIncomplete src tag => Sys2Proof.Machine.execTrnParcelIncomplete src tag s
  | .trnParcelReissue x => Sys2Proof.Machine.execTrnParcelReissue x s
  | .codecEncodeStart x => Sys2Proof.Machine.execCodecEncodeStart x s
  | .codecEncodeDone x => Sys2Proof.Machine.execCodecEncodeDone x s
  | .codecDecodeStart src tag => Sys2Proof.Machine.execCodecDecodeStart src tag s
  | .codecDecodeDone src tag => Sys2Proof.Machine.execCodecDecodeDone src tag s
  | .frameReceive link f corrected bad => Sys2Proof.Machine.execFrameReceive link f corrected bad s
  | .frameControl link c => Sys2Proof.Machine.execFrameControl link c s
  | .linkDown link cause => Sys2Proof.Machine.execLinkDown link cause s
  | .linkTrained link width => Sys2Proof.Machine.execLinkTrained link width s
  | .fabLoad p => Sys2Proof.Machine.execFabLoad p s
  | .fabStore p => Sys2Proof.Machine.execFabStore p s
  | .fabStorem p => Sys2Proof.Machine.execFabStorem p s
  | .fabPeal p => Sys2Proof.Machine.execFabPeal p s
  | .fabAtomic p => Sys2Proof.Machine.execFabAtomic p s
  | .fabRed p => Sys2Proof.Machine.execFabRed p s
  | .fabFence p => Sys2Proof.Machine.execFabFence p s
  | .fabGongArrive p => Sys2Proof.Machine.execFabGongArrive p s
  | .fabGongSound p => Sys2Proof.Machine.execFabGongSound p s
  | .fabTaint p => Sys2Proof.Machine.execFabTaint p s
  | .fabParcel p => Sys2Proof.Machine.execFabParcel p s
  | .fabParcelEnd p => Sys2Proof.Machine.execFabParcelEnd p s
  | .fabCparcel p => Sys2Proof.Machine.execFabCparcel p s
  | .fabCparcelEnd p => Sys2Proof.Machine.execFabCparcelEnd p s
  | .fabRsp p => Sys2Proof.Machine.execFabRsp p s
  | .fabPending p => Sys2Proof.Machine.execFabPending p s
  | .fabPendingSend src tag => Sys2Proof.Machine.execFabPendingSend src tag s
  | .fabReqAbandoned src tag => Sys2Proof.Machine.execFabReqAbandoned src tag s
  | .fabTargetDead node tag => Sys2Proof.Machine.execFabTargetDead node tag s
  | .fabTagRelease node tag => Sys2Proof.Machine.execFabTagRelease node tag s
  | .egressHoldoffEnd n => Sys2Proof.Machine.execEgressHoldoffEnd n s
  | .srcIndexWrite i off w => Sys2Proof.Machine.execSrcIndexWrite i off w s
  | .srcSearch i => Sys2Proof.Machine.execSrcSearch i s
  | .srcInsert i => Sys2Proof.Machine.execSrcInsert i s
  | .srcSetlist i => Sys2Proof.Machine.execSrcSetlist i s
  | .srcDelete i => Sys2Proof.Machine.execSrcDelete i s
  | .srcCommit i => Sys2Proof.Machine.execSrcCommit i s
  | .srcRelease i => Sys2Proof.Machine.execSrcRelease i s
  | .srcSettle i => Sys2Proof.Machine.execSrcSettle i s
  | .preemptSave c w => Sys2Proof.Machine.execPreemptSave c w s
  | .preemptRestore c w => Sys2Proof.Machine.execPreemptRestore c w s
  | .preemptAbandon c w => Sys2Proof.Machine.execPreemptAbandon c w s
  | .preemptWithdraw c w => Sys2Proof.Machine.execPreemptWithdraw c w s
  | .preemptDrainDone p => Sys2Proof.Machine.execPreemptDrainDone p s
  | .preemptSaveDone p => Sys2Proof.Machine.execPreemptSaveDone p s
  | .preemptReturnDone p => Sys2Proof.Machine.execPreemptReturnDone p s
  | .preemptRestoreDone p => Sys2Proof.Machine.execPreemptRestoreDone p s
  | .scrubAccess u e => Sys2Proof.Machine.execScrubAccess u e s
  | .scrubOverdue u => Sys2Proof.Machine.execScrubOverdue u s
  | .mergeAgeFlush k d line => Sys2Proof.Machine.execMergeAgeFlush k d line s
  | .scheckRequest c w => Sys2Proof.Machine.execScheckRequest c w s
  | .scheckRun c => Sys2Proof.Machine.execScheckRun c s
  | .scheckEnd c r => Sys2Proof.Machine.execScheckEnd c r s
  | .scheckForced c => Sys2Proof.Machine.execScheckForced c s
  | .obsRetest e => Sys2Proof.Machine.execObsRetest e s
  | .obsAdd c w => Sys2Proof.Machine.execObsAdd c w s
  | .kitRetire k => Sys2Proof.Machine.execKitRetire k s
  | .replay c w => Sys2Proof.Machine.execReplay c w s
  | .orderRecord r => Sys2Proof.Machine.execOrderRecord r s
  | .orderPacketFetch p => Sys2Proof.Machine.execOrderPacketFetch p s
  | .forwardedWrite i off w => Sys2Proof.Machine.execForwardedWrite i off w s
  | .compareMessage m => Sys2Proof.Machine.execCompareMessage m s
  | .pairDiagnosisDone p outcome => Sys2Proof.Machine.execPairDiagnosisDone p outcome s
  | .heartbeatSend => Sys2Proof.Machine.execHeartbeatSend s
  | .heartbeat link => Sys2Proof.Machine.execHeartbeat link s
  | .pairPartnerLost => Sys2Proof.Machine.execPairPartnerLost s
  | .pairJoinPassDone p left kits => Sys2Proof.Machine.execPairJoinPassDone p left kits s
  | .ccWatchdogKick i c w => Sys2Proof.Machine.execCcWatchdogKick i c w s
  | .ccHang c => Sys2Proof.Machine.execCcHang c s
  | .ccRestart i w => Sys2Proof.Machine.execCcRestart i w s
  | .eventAccept src => Sys2Proof.Machine.execEventAccept src s
  | .eventSpill => Sys2Proof.Machine.execEventSpill s
  | .evtWindowLatch i => Sys2Proof.Machine.execEvtWindowLatch i s
  | .logBankLost bank cause => Sys2Proof.Machine.execLogBankLost bank cause s
  | .cfgOpen i w => Sys2Proof.Machine.execCfgOpen i w s
  | .cfgStagedWrite i off w => Sys2Proof.Machine.execCfgStagedWrite i off w s
  | .cfgValidate i w => Sys2Proof.Machine.execCfgValidate i w s
  | .cfgCommit i w => Sys2Proof.Machine.execCfgCommit i w s
  | .cfgAbandon i w => Sys2Proof.Machine.execCfgAbandon i w s
  | .cfgRollback i w => Sys2Proof.Machine.execCfgRollback i w s
  | .cfgCancel i w => Sys2Proof.Machine.execCfgCancel i w s
  | .cfgPersistDone ok => Sys2Proof.Machine.execCfgPersistDone ok s
  | .cfgHoldComplete => Sys2Proof.Machine.execCfgHoldComplete s
  | .cfgTimeout => Sys2Proof.Machine.execCfgTimeout s
  | .cfgSwitchDone => Sys2Proof.Machine.execCfgSwitchDone s
  | .cfgNorSwitchWritten => Sys2Proof.Machine.execCfgNorSwitchWritten s
  | .hqCfgWrite i q w => Sys2Proof.Machine.execHqCfgWrite i q w s
  | .hqSqDoorbell i q w es => Sys2Proof.Machine.execHqSqDoorbell i q w es s
  | .hqCqDoorbell i q w => Sys2Proof.Machine.execHqCqDoorbell i q w s
  | .serve q d => Sys2Proof.Machine.execServe q d s
  | .hqCopy q d => Sys2Proof.Machine.execHqCopy q d s
  | .install q d => Sys2Proof.Machine.execInstall q d s
  | .bootWrite q d => Sys2Proof.Machine.execBootWrite q d s
  | .recover q d => Sys2Proof.Machine.execRecover q d s
  | .hqCommandComplete q => Sys2Proof.Machine.execHqCommandComplete q s
  | .hostWindowAccess a => Sys2Proof.Machine.execHostWindowAccess a s
  | .hostPerst => Sys2Proof.Machine.execHostPerst s
  | .hostLinkDown => Sys2Proof.Machine.execHostLinkDown s
  | .attnRaise i w => Sys2Proof.Machine.execAttnRaise i w s
  | .attnPulseStart => Sys2Proof.Machine.execAttnPulseStart s
  | .attnPulseRelease => Sys2Proof.Machine.execAttnPulseRelease s
  | .attnRenotify => Sys2Proof.Machine.execAttnRenotify s
  | .mgmtTransfer m => Sys2Proof.Machine.execMgmtTransfer m s
  | .entdaa a => Sys2Proof.Machine.execEntdaa a s
  | .setdasa static a => Sys2Proof.Machine.execSetdasa static a s
  | .rstdaa => Sys2Proof.Machine.execRstdaa s
  | .getpid => Sys2Proof.Machine.execGetpid s
  | .getbcr => Sys2Proof.Machine.execGetbcr s
  | .getdcr => Sys2Proof.Machine.execGetdcr s
  | .getstatus => Sys2Proof.Machine.execGetstatus s
  | .doeDiscovery r => Sys2Proof.Machine.execDoeDiscovery r s
  | .getVersion r => Sys2Proof.Machine.execGetVersion r s
  | .getCapabilities r => Sys2Proof.Machine.execGetCapabilities r s
  | .negotiateAlgorithms r => Sys2Proof.Machine.execNegotiateAlgorithms r s
  | .getDigests r => Sys2Proof.Machine.execGetDigests r s
  | .getCertificate r => Sys2Proof.Machine.execGetCertificate r s
  | .challenge r => Sys2Proof.Machine.execChallenge r s
  | .getMeasurements r => Sys2Proof.Machine.execGetMeasurements r s
  | .rcRead i off wide => Sys2Proof.Machine.execRcRead i off wide s
  | .halfReadLatch i off => Sys2Proof.Machine.execHalfReadLatch i off s
  | .registerWrite i off w => Sys2Proof.Machine.execRegisterWrite i off w s
  | .resetRelease node defaultN => Sys2Proof.Machine.execResetRelease node defaultN s
  | .ccRestarted c => Sys2Proof.Machine.execCcRestarted c s
  | .hostPortTrained => Sys2Proof.Machine.execHostPortTrained s
  | .controlCoreAccess a => Sys2Proof.Machine.execControlCoreAccess a s

end Sys2Proof.Machine
end

