-- ==== Sys2Proof/Machine/Tick.lean ====
section
/-!
DEFINITION. Sys2Proof/Machine/Tick.lean: what 1 ns of time does when no command waits: HUB_TIME counts (R39), resident time of steps (Table 4.11),
comparison windows of a pair that have run out (R476), the fabric side (R365 to R375), and the HS counters of running steps (R276).
-/
namespace Sys2Proof.Machine

/-- Sub-units of one unit of the HS counter, 2^20 mallet-handshakes: a column's share of one context's handshakes in 1 ns is the tempo (0.1 M hs/s)
times 8 / 2^ROT sub-units. [log 34: DESIGN CHOICE] -/
def hsUnit : Nat := 2 ^ 20 * 4 * 10000 * 8

/-- Subscribers of the slots bound to columns of enabled contexts of a drum, one entry per bound column. [log 34: DESIGN CHOICE] -/
def State.boundSubs (s : State) (k d n : Nat) : List Nat :=
  (s.mallets.filter (fun q => decide (q.1 / 256 = drumKey k d))).flatMap (fun q =>
    (q.2.c.filter (fun c => decide (c.1 < n))).flatMap (fun c =>
      ((List.range 4).filterMap (fun j => c.2.slotOf j)).map (fun slot => s.slSub slot)))

/-- A drum in a running step charges its handshakes of 1 ns. [log 2, 34: DESIGN CHOICE] -/
def State.chargeHs (s : State) (p k d : Nat) : State :=
  let x := s.drum k d
  let n := rotCount x.rot
  let unit := x.tempo * 8 / n
  let bound := s.boundSubs k d n
  let s := bound.foldl (fun s u => s.acct u 0 unit hsUnit) s
  s.acct (s.f F.MEM_PART_CHARGE_SUBSCRIBER p 0) 0 ((256 * n * 4 - bound.length) * unit) hsUnit

/-- The step of partition p is resident for 1 ns more. [log 2: DESIGN CHOICE] -/
def State.tickPart (s : State) (p : Nat) : State :=
  let s := s.settleBoundary p
  let st := s.stepState p
  if st ≠ stRunning ∧ st ≠ stStopping then s
  else
    let s := s.setPart p (fun x => { x with residentNs := x.residentNs + 1 })
    let s := s.setF F.PAR_STEP_STATUS_RESIDENT_US p 0 (min ((s.part p).residentNs / 1000) 0xFFFFFFFF)
    if s.halted || decide (st ≠ stRunning) then s
    else
      (s.kitsOf p).foldl (fun s k =>
        ((s.drums.map Prod.fst).filter (fun q => decide (q / 256 = k) && (s.drum k (q % 256)).inStep && !(s.drum k (q % 256)).idleStep)).foldl
          (fun s q => s.chargeHs p k (q % 256)) s) s

/-- Requests of rings whose DONE has been added end (R223, R226, R391, R394). -/
def State.settleJobs (s : State) : State :=
  s.jobs.foldl (fun s q => if q.1 < 4 then s.pwSettle q.1 else s.sqSettle (q.1 - 4)) s

/-- 1 ns passes, and what waits on the fabric side moves on. HUB_TIME does not count while the device has no power or is held in cold reset. [log 2, 122: DESIGN CHOICE] -/
def State.tick (s : State) : State :=
  if s.power.gone || s.boot.resetHeld then s
  else
    let s := s.setF F.HUB_TIME_NS 0 0 (s.time + 1)
    (((List.range 8).foldl (fun s p => s.tickPart p) s).settlePair.pumpFabric).settleJobs

end Sys2Proof.Machine
end

