-- ==== Sys2Proof/WellFormed.lean ====
section
/-!
DEFINITION. Sys2Proof/WellFormed.lean: which commands name units, registers and records that exist. Fields whose width the type gives need no check, and
numbers that the model itself gives out (transfers, parcels, records) are looked up when the command acts.
-/
namespace Sys2Proof

open Sys2Proof.Machine

def kitWf (k : Nat) : Bool := decide (k < 8)
def coreWf (c : Nat) : Bool := decide (c < 8)
def partWf (p : Nat) : Bool := decide (p < 8)
/-- Initiators: cores 0 to 7, the host 8, management 9 (R517, R549). -/
def initWf (i : Nat) : Bool := decide (i ≤ 9)
/-- A control-space register offset (R534). -/
def offWf (o : Nat) : Bool := decide (o < 2 ^ 28) && decide (o % 8 = 0)
/-- A half of a register. -/
def halfWf (o : Nat) : Bool := decide (o < 2 ^ 28) && decide (o % 4 = 0)
/-- Physical drums 0 to 155 (R17). -/
def drumWf (k d : Nat) : Bool := kitWf k && decide (d < 156)
/-- Logical drums 0 to 149 (R18). -/
def logicalWf (k n : Nat) : Bool := kitWf k && decide (n < 150)
/-- A context of a mallet (R16, R19). -/
def ctxWf (u : CtxId) : Bool := drumWf u.kit u.drum && decide (u.mallet < 256) && decide (u.ctx < 8)
def slotWf (n : Nat) : Bool := decide (n < 2 ^ 14)
def layerWf (l : Nat) : Bool := decide (l < 256)
def lineWf (l : Nat) : Bool := decide (l < 16)
def queueWf (q : Nat) : Bool := decide (q < 16)
def trnQueueWf (q : Nat) : Bool := decide (q < 8)
/-- Fefen ports 0 to 15 and cymbal links 16 and 17. -/
def linkWf (i : Nat) : Bool := decide (i < 18)
def bridgeWf (b : Nat) : Bool := decide (b < 2)
def subWf (n : Nat) : Bool := decide (n < 4096)
def wordWf (i : Nat) : Bool := decide (i < 8)
def dirWf (e : Nat) : Bool := decide (e < 65536)
def ratioWf (r : Nat) : Bool := decide (r < 65536)
def obsWf (e : Nat) : Bool := decide (e < 256)
def nodeWf (n : Nat) : Bool := decide (n < 65536)
def scrubWf (u : Nat) : Bool := decide (u < 9)
def walkerWf (w : Nat) : Bool := decide (w < 4)
def indexWf (i : Nat) : Bool := decide (i < 16)
def bankWf (b : Nat) : Bool := decide (b < 2)
def addrWf (a : Nat) : Bool := decide (a < 128)
/-- A byte list of host memory. -/
def hostWf (d : HostData) : Bool := d.bytes.all (fun b => decide (b < 256))
/-- The words of an SQ entry. -/
def entryWf (e : HostEntry) : Bool := decide (e.words.length ≤ 8) && e.words.all (fun w => decide (w < 2 ^ 64))
/-- An access within BAR2. -/
def windowWf (a : HostAccess) : Bool := decide (a.off + a.size ≤ 2 ^ 32)
/-- The readings of a window: of kits and drums that exist. -/
def windowReadingWf (w : WindowReading) : Bool := w.kits.all (fun r => kitWf r.kit && r.counts.all (fun q => drumWf r.kit q.1))
/-- Node IDs of a packet. -/
def pktWf (p : Pkt) : Bool := nodeWf p.src && nodeWf p.dst

/-- A command's operands name things that exist. -/
def Instr.wf (i : Instr) : Bool :=
  match i with
  | .coldReset _ => true
  | .hubResetCold i _ => initWf i
  | .hubResetWarm i _ => initWf i
  | .warmResetRequest => true
  | .refclkLost => true
  | .refclkReturn => true
  | .powerLoss => true
  | .railFault k => kitWf k
  | .fixedRailOutOfTolerance => true
  | .thermalTrip => true
  | .bootRom _ => true
  | .bootVerify => true
  | .bootFill _ => true
  | .bootHbm failed => failed.all kitWf
  | .bootLink trained => trained.all (fun q => linkWf q.1)
  | .bootTempo w => windowReadingWf w
  | .bootConfig => true
  | .tempoWindowClose w => windowReadingWf w
  | .regulatorWindow => true
  | .bridgeLinkFail k b => kitWf k && bridgeWf b
  | .nop u _ => ctxWf u
  | .br u _ => ctxWf u
  | .brc u _ => ctxWf u
  | .loop u _ => ctxWf u
  | .stop u _ => ctxWf u
  | .cswrd u _ => ctxWf u
  | .cswclr u _ => ctxWf u
  | .sbind u _ => ctxWf u
  | .sadd u _ => ctxWf u
  | .ssub u _ => ctxWf u
  | .smul u _ => ctxWf u
  | .sand u _ => ctxWf u
  | .sor u _ => ctxWf u
  | .sxor u _ => ctxWf u
  | .sshl u _ => ctxWf u
  | .sshr u _ => ctxWf u
  | .ssar u _ => ctxWf u
  | .smin u _ => ctxWf u
  | .smax u _ => ctxWf u
  | .scmp u _ => ctxWf u
  | .smovi u _ => ctxWf u
  | .xset u _ => ctxWf u
  | .xadd u _ => ctxWf u
  | .xmov u _ => ctxWf u
  | .tld u _ _ => ctxWf u
  | .tst u _ => ctxWf u
  | .scld u _ => ctxWf u
  | .scst u _ => ctxWf u
  | .sld u _ => ctxWf u
  | .sst u _ => ctxWf u
  | .ald u _ => ctxWf u
  | .ast u _ => ctxWf u
  | .aldt u _ => ctxWf u
  | .acpy u _ => ctxWf u
  | .waitf u _ => ctxWf u
  | .waitd u _ => ctxWf u
  | .loadDataReturn u => ctxWf u
  | .asyncComplete _ => true
  | .aopen u _ => ctxWf u
  | .tmac u _ _ => ctxWf u
  | .acomb u _ => ctxWf u
  | .areanc u _ => ctxWf u
  | .aadd u _ => ctxWf u
  | .acvt u _ => ctxWf u
  | .acvtmx u _ => ctxWf u
  | .vadd u _ => ctxWf u
  | .vsub u _ => ctxWf u
  | .vmul u _ => ctxWf u
  | .vfma u _ => ctxWf u
  | .vmin u _ => ctxWf u
  | .vmax u _ => ctxWf u
  | .vfn u _ => ctxWf u
  | .vsmx u _ => ctxWf u
  | .vcvt u _ => ctxWf u
  | .vred u _ => ctxWf u
  | .vbc u _ => ctxWf u
  | .vsel u _ => ctxWf u
  | .mset u _ => ctxWf u
  | .mop u _ => ctxWf u
  | .mcmp u _ => ctxWf u
  | .causal u _ => ctxWf u
  | .causalb u _ => ctxWf u
  | .mpop u _ => ctxWf u
  | .spchk u _ => ctxWf u
  | .rdisp u _ => ctxWf u
  | .rrecv u _ => ctxWf u
  | .kvrd u _ => ctxWf u
  | .kvapp u _ => ctxWf u
  | .tpen u _ => ctxWf u
  | .topk u _ => ctxWf u
  | .draw u _ => ctxWf u
  | .tinc u _ => ctxWf u
  | .tga u _ => ctxWf u
  | .gong u _ => ctxWf u
  | .gongArrivalCounted u => ctxWf u
  | .peal u _ => ctxWf u
  | .atom u _ => ctxWf u
  | .red u _ => ctxWf u
  | .trig u _ => ctxWf u
  | .ptest u _ => ctxWf u
  | .pmark u _ => ctxWf u
  | .fence u _ => ctxWf u
  | .retry k n _ => logicalWf k n
  | .skip k n _ => logicalWf k n
  | .resumeAt k n _ => logicalWf k n
  | .halt k n _ => logicalWf k n
  | .stepSubmit p _ => partWf p
  | .stepStart p => partWf p
  | .drumStepStart k d => drumWf k d
  | .drumRebindDone k n => logicalWf k n
  | .drumDone k d => drumWf k d
  | .stepDone p => partWf p
  | .stepDeadlineMissed p => partWf p
  | .stepWatchdog p => partWf p
  | .prefetchCopy k d => drumWf k d
  | .prefetchScatter k d => drumWf k d
  | .prefetchClear k d => drumWf k d
  | .prefetchWaitw k d => drumWf k d
  | .prefetchEnd k d => drumWf k d
  | .prefetchTransferDone _ => true
  | .prefetchListStart k d => drumWf k d
  | .latePrefetch u _ => ctxWf u
  | .calibStart k d => drumWf k d
  | .calibComplete k d ratio => drumWf k d && ratioWf ratio
  | .tempoCalibForced k d => drumWf k d
  | .routerTakeToken k => kitWf k
  | .routerDispatch k => kitWf k
  | .inboxRecordWritten k d => drumWf k d
  | .routerDirWrite i k e _ => initWf i && kitWf k && dirWf e
  | .kvTableWrite i slot word _ => initWf i && slotWf slot && wordWf word
  | .kvStageWrite i k _ => initWf i && kitWf k
  | .kvReserve c _ => coreWf c
  | .kvAdmit c _ => coreWf c
  | .kvCommit c _ => coreWf c
  | .kvHandoff c _ => coreWf c
  | .kvFlush c _ => coreWf c
  | .kvRelease c _ => coreWf c
  | .kvForceFree c _ => coreWf c
  | .kvHeldApply p => partWf p
  | .kvArmedHandoffApply p l => partWf p && lineWf l
  | .kvPageFlushDone k _ => kitWf k
  | .kvHandoffSubmit slot layer => slotWf slot && layerWf layer
  | .kvHandoffLayerDone slot layer => slotWf slot && layerWf layer
  | .kvHandoffClose slot => slotWf slot
  | .kvDrainDone slot => slotWf slot
  | .treeConfigWrite i off _ => initWf i && offWf off
  | .ringDoorbell i off _ => initWf i && offWf off
  | .ringConfigWrite i off _ => initWf i && offWf off
  | .pwLookup w => walkerWf w
  | .pwInsert w => walkerWf w
  | .pwDelete w => walkerWf w
  | .pwCommit w => walkerWf w
  | .pwUnlink w => walkerWf w
  | .pwRelease w => walkerWf w
  | .submit p => partWf p
  | .attach p => partWf p
  | .cancel p => partWf p
  | .notice p => partWf p
  | .query p => partWf p
  | .subPoliceWrite i sub _ => initWf i && subWf sub
  | .slotRemote c _ => coreWf c
  | .slotPark c _ => coreWf c
  | .slotUnpark c _ => coreWf c
  | .slotSetTally c _ => coreWf c
  | .slotSetTally2 c _ => coreWf c
  | .emitSubmit p _ => partWf p
  | .emitEntryApply p => partWf p
  | .responseIssue slot => slotWf slot
  | .slotFree slot => slotWf slot
  | .discard c _ => coreWf c
  | .discardDone c => coreWf c
  | .acctLatch c _ => coreWf c
  | .flashReadDone _ => true
  | .flashProgramDone _ => true
  | .flashEraseDone _ _ => true
  | .flashReclaim _ => true
  | .flashRelocateStart _ _ => true
  | .flashRelocateCopied _ => true
  | .flashMapCheckpoint => true
  | .flashMapLoad => true
  | .trnSubmit c _ => coreWf c
  | .trnAbort c _ => coreWf c
  | .trnEntryActive p q => partWf p && trnQueueWf q
  | .trnWheelRelease _ => true
  | .trnFarScan => true
  | .trnParcelStart _ => true
  | .trnParcelAck _ => true
  | .trnParcelFail _ _ => true
  | .trnParcelIncomplete src _ => nodeWf src
  | .trnParcelReissue _ => true
  | .codecEncodeStart _ => true
  | .codecEncodeDone _ => true
  | .codecDecodeStart src _ => nodeWf src
  | .codecDecodeDone src _ => nodeWf src
  | .frameReceive link _ _ _ => linkWf link
  | .frameControl link _ => linkWf link
  | .linkDown link _ => linkWf link
  | .linkTrained link _ => linkWf link
  | .fabLoad p => pktWf p
  | .fabStore p => pktWf p
  | .fabStorem p => pktWf p
  | .fabPeal p => pktWf p
  | .fabAtomic p => pktWf p
  | .fabRed p => pktWf p
  | .fabFence p => pktWf p
  | .fabGongArrive p => pktWf p
  | .fabGongSound p => pktWf p
  | .fabTaint p => pktWf p
  | .fabParcel p => pktWf p
  | .fabParcelEnd p => pktWf p
  | .fabCparcel p => pktWf p
  | .fabCparcelEnd p => pktWf p
  | .fabRsp p => pktWf p
  | .fabPending p => pktWf p
  | .fabPendingSend src _ => nodeWf src
  | .fabReqAbandoned src _ => nodeWf src
  | .fabTargetDead node _ => nodeWf node
  | .fabTagRelease node _ => nodeWf node
  | .egressHoldoffEnd n => nodeWf n
  | .srcIndexWrite i off _ => initWf i && offWf off
  | .srcSearch i => indexWf i
  | .srcInsert i => indexWf i
  | .srcSetlist i => indexWf i
  | .srcDelete i => indexWf i
  | .srcCommit i => indexWf i
  | .srcRelease i => indexWf i
  | .srcSettle i => indexWf i
  | .preemptSave c _ => coreWf c
  | .preemptRestore c _ => coreWf c
  | .preemptAbandon c _ => coreWf c
  | .preemptWithdraw c _ => coreWf c
  | .preemptDrainDone p => partWf p
  | .preemptSaveDone p => partWf p
  | .preemptReturnDone p => partWf p
  | .preemptRestoreDone p => partWf p
  | .scrubAccess u _ => scrubWf u
  | .scrubOverdue u => scrubWf u
  | .mergeAgeFlush k d _ => drumWf k d
  | .scheckRequest c _ => coreWf c
  | .scheckRun _ => true
  | .scheckEnd _ _ => true
  | .scheckForced _ => true
  | .obsRetest e => obsWf e
  | .obsAdd c _ => coreWf c
  | .kitRetire k => kitWf k
  | .replay c _ => coreWf c
  | .orderRecord _ => true
  | .orderPacketFetch p => pktWf p
  | .forwardedWrite i off _ => initWf i && offWf off
  | .compareMessage _ => true
  | .pairDiagnosisDone p _ => partWf p
  | .heartbeatSend => true
  | .heartbeat link => linkWf link
  | .pairPartnerLost => true
  | .pairJoinPassDone p _ _ => partWf p
  | .ccWatchdogKick i c _ => initWf i && coreWf c
  | .ccHang c => coreWf c
  | .ccRestart i _ => initWf i
  | .eventAccept _ => true
  | .eventSpill => true
  | .evtWindowLatch i => initWf i
  | .logBankLost bank _ => bankWf bank
  | .cfgOpen i _ => initWf i
  | .cfgStagedWrite i off _ => initWf i && offWf off
  | .cfgValidate i _ => initWf i
  | .cfgCommit i _ => initWf i
  | .cfgAbandon i _ => initWf i
  | .cfgRollback i _ => initWf i
  | .cfgCancel i _ => initWf i
  | .cfgPersistDone _ => true
  | .cfgHoldComplete => true
  | .cfgTimeout => true
  | .cfgSwitchDone => true
  | .cfgNorSwitchWritten => true
  | .hqCfgWrite i q _ => initWf i && queueWf q
  | .hqSqDoorbell i q _ es => initWf i && queueWf q && es.all entryWf
  | .hqCqDoorbell i q _ => initWf i && queueWf q
  | .serve q d => queueWf q && hostWf d
  | .hqCopy q d => queueWf q && hostWf d
  | .install q d => queueWf q && hostWf d
  | .bootWrite q d => queueWf q && hostWf d
  | .recover q d => queueWf q && hostWf d
  | .hqCommandComplete q => queueWf q
  | .hostWindowAccess a => windowWf a
  | .hostPerst => true
  | .hostLinkDown => true
  | .attnRaise i _ => initWf i
  | .attnPulseStart => true
  | .attnPulseRelease => true
  | .attnRenotify => true
  | .mgmtTransfer m => offWf m.off
  | .entdaa a => addrWf a
  | .setdasa static a => addrWf static && addrWf a
  | .rstdaa => true
  | .getpid => true
  | .getbcr => true
  | .getdcr => true
  | .getstatus => true
  | .doeDiscovery _ => true
  | .getVersion _ => true
  | .getCapabilities _ => true
  | .negotiateAlgorithms _ => true
  | .getDigests _ => true
  | .getCertificate _ => true
  | .challenge _ => true
  | .getMeasurements _ => true
  | .rcRead i off _ => initWf i && offWf off
  | .halfReadLatch i off => initWf i && halfWf off
  | .registerWrite i off _ => initWf i && offWf off
  | .resetRelease _ _ => true
  | .ccRestarted c => coreWf c
  | .hostPortTrained => true
  | .controlCoreAccess a => coreWf a.core

end Sys2Proof
end

