-- ==== Sys2Proof/Safety.lean ====
section
/-!
DEFINITION. Sys2Proof/Safety.lean: the terms in which claims about whole runs are stated: canonical forms of memory and of register stores, the legal
stages and phases, and what time and commands may not undo.
-/
namespace Sys2Proof.Machine

open Sys2Proof (CtxId Fields)

/-- A set is listed in rising order. -/
def nwf : NSet → Bool
  | [] => true
  | a :: r => r.all (fun b => decide (a < b)) && nwf r

/-- The one form in which local memory is written out: bytes at rising addresses, none of them zero, and every set of marks rising. [log 4: DEDUCED] -/
def Memory.wf (m : Mem) : Bool :=
  mwf (0 : BitVec 8) m.cells && nwf m.poison && nwf m.ue && nwf m.ce && nwf m.written && nwf m.wpbUe

/-- Every waiting command names things that exist. -/
def State.queueWf (s : State) : Bool := s.pending.all Instr.wf

/-- The command at the front of the queue takes power from the always-on domain: VDD_AON falls (R559, R566). -/
def State.losesAon (s : State) : Bool :=
  match s.pending with
  | .powerLoss :: _ => true
  | .coldReset true :: _ => true
  | _ => false

/-- What the fetch of context u's next instruction word leaves: the state with its line in the instruction buffer (R102, R433). -/
def State.fetched (s : State) (u : CtxId) : State := (s.fetch u).1

/-- Context u issues now: it may issue, its PC lies in the program area, and its instruction word is not poisoned (R102, R148). -/
def State.fetches (s : State) (u : CtxId) : Bool :=
  s.issuing u && !s.fetchBad u && !(s.fetch u).2

/-- A load of the pieces ps completes at once: they are local, none is flash, and their HBM charge fits (R104, R412). -/
def State.loadsNow (s : State) (u : CtxId) (ps : List (Nat × Piece)) : Bool := localNow ps && s.ctxCredit u false (localOf ps)

/-- The charge and the data of a load that completes at once. -/
def State.loaded (s : State) (u : CtxId) (ps : List (Nat × Piece)) : State × Data := (s.ctxCharge u false (localOf ps)).readPieces u ps

/-- A store of bytes en to the pieces ps is sent at once: tags and the partner's hold have room, and its HBM charge fits (R412, R475). -/
def State.storesNow (s : State) (u : CtxId) (ps : List (Nat × Piece)) (en : Nat) : Bool :=
  s.canStore (s.partOf u) (cutPieces 8 ps) &&
  !((cutPieces 8 ps).any (fun q => q.2.rem) && s.compares (s.partOf u) && !s.holdFits (s.partOf u) 512) &&
  s.ctxCredit u true (s.storeRanges u ps en)

/-- What a store that is sent at once leaves: bytes en of v, granules p poisoned. -/
def State.stored (s : State) (u : CtxId) (span : Nat) (ps : List (Nat × Piece)) (v en p : Nat) : State :=
  (s.ctxCharge u true (s.storeRanges u ps en)).storePieces u span (cutPieces 8 ps) v en p

/-- None of the fault conditions of an instruction holds (R144). -/
def noFault (l : List (Option (Nat × Nat))) : Bool := l.all (fun q => q.isNone)

/-- A request that the device takes up now: it is READY, has a node ID, the request is addressed neither to node 0xFFFF nor to the pair's shared
node, and neither a request of its requester's tag nor an earlier one of its requester to its block waits here (R23, R357, R364, R515). -/
def State.arrives (s : State) (p : Pkt) : Bool :=
  s.fb F.HUB_STATUS_READY 0 0 && decide (s.node ≠ 0xFFFF) && decide (nodeOf p.addr ≠ 0xFFFF) && !s.toPair p &&
    (s.inbOf p.src p.key).isNone && !s.fab.inb.any (fun q => q.pkt.sameBlock p)

/-- A request joins those in hand. -/
def State.arrived (s : State) (p : Pkt) : State := s.takeIn p none

/-- The request as it joins them. -/
def State.newIn (s : State) (p : Pkt) : Inbound := { id := s.fab.nextIn, pkt := p, time := s.time, pendingAt := s.time }

/-- A request that arrived in state s leaves those in hand; b is the state that its effect has left. -/
def State.departed (b s : State) (p : Pkt) : State := (b.leaveIn (s.newIn p)).inDone (s.newIn p) ((s.arrived p).atomicOld p)

/-- A request keeps the outcome of its export check for as long as it waits (R298). -/
def State.spanKept (s : State) (p : Pkt) (n need : Nat) : State :=
  let h := s.exportHit p.src p.addr n need
  s.setInb p.src p.key (fun x => { x with hit := some (h, s.hitPiece h n) })

/-- The request is charged, and what it reads of flash is read; tells whether it has been (R287). -/
def State.spanGate (s : State) (p : Pkt) (n need rd wr : Nat) : State × Bool :=
  let h := s.exportHit p.src p.addr n need
  let a := (s.hitPiece h n).addr
  let b := (s.spanKept p n need).inCharge p h.part a n rd wr
  if rd ≠ 0 then b.flashGate (inKey b p) (b.chargeOf p + 1) a n else (b, true)

/-- A request of n bytes passes the check of its SPAN export, lands in local memory that answers, has its credit, and what it reads of flash is at
hand (R272, R273, R356). -/
def State.spanOpen (s : State) (p : Pkt) (n need rd wr ans : Nat) : Bool :=
  let h := s.exportHit p.src p.addr n need
  let pc := s.hitPiece h n
  let b := s.spanKept p n need
  ((s.inbOf p.src p.key).getD {}).hit.isNone && decide (h.status = 0) && decide (h.kind = 0) && !pc.rem && !b.asleep pc.addr &&
    decide (mget 0 b.polls (inKey b p) = 0) && (!pc.inFlash || b.fb F.FLS_STATUS_READY 0 0) && b.inCredit p h.part pc.addr n rd wr ans &&
    (s.spanGate p n need rd wr).2

/-- The byte of local memory at a: 0 in an HBM page that nothing has written (R278). -/
def Mem.byteAt (m : Mem) (a : Nat) : BitVec 8 := if a < hbmEnd ∧ m.isWritten a = false then 0 else mget 0 m.cells a

/-- A term as it is added: one of magnitude 2^127 or more becomes ±(2^127 − 1) (R71). -/
def term127 (t : Int) : Int := if 2 ^ 127 ≤ t then 2 ^ 127 - 1 else if t ≤ -2 ^ 127 then -(2 ^ 127 - 1) else t

/-- Two fields share no bit. -/
def Fld.apart (f g : Fld) : Bool := decide (f.lo + f.width ≤ g.lo) || decide (g.lo + g.width ≤ f.lo)

end Sys2Proof.Machine
end

