-- ==== Sys2Proof/Laws/Map.lean ====
section
/-!
SUPPORT. Sys2Proof/Laws/Map.lean: the laws of sparse stores, rising sets and byte lists: what a read finds after a write, and that every operation keeps
the canonical form.
-/
namespace Sys2Proof.Machine

variable {α : Type}

-- ===== Stores =====

theorem mget_mins (d : α) (m : SMap α) (k j : Nat) (v : α) : mget d (mins m k v) j = if j = k then v else mget d m j := by
  induction m with
  | nil => simp [mins, mget, eq_comm]
  | cons e r ih =>
    obtain ⟨a, w⟩ := e
    simp only [mins]
    split
    · simp only [mget, eq_comm (a := k)]
    · split
      · subst k
        by_cases hj : j = a
        · simp [mget, hj]
        · simp [mget, hj, Ne.symm hj]
      · simp only [mget, ih]
        by_cases hj : j = k
        · subst hj
          rw [if_neg (by omega)]
          simp
        · simp [hj]

/-- Keys of a store rise from above a bound. -/
theorem keysRise_iff (b : Option Nat) (m : SMap α) :
    keysRise b m = true ↔ (m.map Prod.fst).Pairwise (· < ·) ∧ ∀ x, b = some x → ∀ k ∈ m.map Prod.fst, x < k := by
  induction m generalizing b with
  | nil => simp [keysRise]
  | cons e r ih =>
    obtain ⟨a, w⟩ := e
    simp only [keysRise, Bool.and_eq_true, ih, List.map_cons, List.pairwise_cons, List.mem_cons, Option.some.injEq]
    constructor
    · rintro ⟨h1, h2, h3⟩
      refine ⟨⟨fun k hk => h3 a rfl k hk, h2⟩, ?_⟩
      rintro x rfl k (rfl | hk)
      · simpa using h1
      · have := h3 a rfl k hk
        have h1' : x < a := by simpa using h1
        omega
    · rintro ⟨⟨h1, h2⟩, h3⟩
      refine ⟨?_, h2, ?_⟩
      · cases b with
        | none => rfl
        | some x => simpa using h3 x rfl a (Or.inl rfl)
      · rintro x rfl k hk
        exact h1 k hk

/-- The canonical form, as a property of keys and values. -/
theorem mwf_iff [DecidableEq α] (d : α) (m : SMap α) :
    mwf d m = true ↔ (m.map Prod.fst).Pairwise (· < ·) ∧ ∀ e ∈ m, e.2 ≠ d := by
  simp [mwf, keysRise_iff]

theorem mget_mdel (d : α) (m : SMap α) (k j : Nat) : mget d (mdel m k) j = if j = k then d else mget d m j := by
  unfold mdel
  induction m with
  | nil => simp [mget]
  | cons e r ih =>
    obtain ⟨a, w⟩ := e
    by_cases ha : a = k
    · subst ha
      rw [List.filter_cons_of_neg (by simp), ih]
      by_cases hj : j = a
      · simp [hj]
      · simp [mget, hj, Ne.symm hj]
    · rw [List.filter_cons_of_pos (by simpa using ha)]
      simp only [mget, ih]
      by_cases hj : j = k
      · subst hj; simp [ha]
      · simp [hj]

theorem keys_mins (m : SMap α) (k : Nat) (v : α) (x : Nat) : x ∈ (mins m k v).map Prod.fst ↔ x = k ∨ x ∈ m.map Prod.fst := by
  induction m with
  | nil => simp [mins]
  | cons e r ih =>
    obtain ⟨a, w⟩ := e
    simp only [mins]
    split
    · simp
    · split
      · subst k; simp
      · simp only [List.map_cons, List.mem_cons, ih]; tauto

theorem mem_mdel (m : SMap α) (k : Nat) (e : Nat × α) (h : e ∈ mdel m k) : e ∈ m := List.mem_of_mem_filter h

theorem mdel_rise (m : SMap α) (k : Nat) (h : (m.map Prod.fst).Pairwise (· < ·)) : ((mdel m k).map Prod.fst).Pairwise (· < ·) :=
  h.sublist (List.filter_sublist.map Prod.fst)

theorem mins_rise (m : SMap α) (k : Nat) (v : α) (h : (m.map Prod.fst).Pairwise (· < ·)) : ((mins m k v).map Prod.fst).Pairwise (· < ·) := by
  induction m with
  | nil => simp [mins]
  | cons e r ih =>
    obtain ⟨a, w⟩ := e
    simp only [List.map_cons, List.pairwise_cons] at h
    simp only [mins]
    split
    · simp only [List.map_cons, List.pairwise_cons]
      refine ⟨fun x hx => ?_, h⟩
      rcases List.mem_cons.1 hx with rfl | hx
      · assumption
      · have := h.1 x hx; omega
    · split
      · subst k; simpa using h
      · simp only [List.map_cons, List.pairwise_cons]
        refine ⟨fun x hx => ?_, ih h.2⟩
        rcases (keys_mins r k v x).1 hx with rfl | hx
        · omega
        · exact h.1 x hx

theorem mem_mins (m : SMap α) (k : Nat) (v : α) (e : Nat × α) (h : e ∈ mins m k v) : e = (k, v) ∨ e ∈ m := by
  induction m with
  | nil => simpa [mins] using h
  | cons q r ih =>
    obtain ⟨a, w⟩ := q
    simp only [mins] at h
    split at h
    · rcases List.mem_cons.1 h with rfl | h
      · exact Or.inl rfl
      · exact Or.inr h
    · split at h
      · rcases List.mem_cons.1 h with rfl | h
        · exact Or.inl rfl
        · exact Or.inr (by simp [h])
      · rcases List.mem_cons.1 h with rfl | h
        · exact Or.inr (by simp)
        · rcases ih h with h | h
          · exact Or.inl h
          · exact Or.inr (by simp [h])

/-- A write of a store keeps its canonical form. -/
theorem mput_wf [DecidableEq α] (d : α) (m : SMap α) (k : Nat) (v : α) (h : mwf d m = true) : mwf d (mput d m k v) = true := by
  rw [mwf_iff] at h ⊢
  unfold mput
  split
  · exact ⟨mdel_rise m k h.1, fun e he => h.2 e (mem_mdel m k e he)⟩
  · refine ⟨mins_rise m k v h.1, fun e he => ?_⟩
    rcases mem_mins m k v e he with rfl | he
    · assumption
    · exact h.2 e he

/-- A read after a write: the value written at its key, the old value elsewhere. -/
@[simp] theorem mget_mput [DecidableEq α] (d : α) (m : SMap α) (k j : Nat) (v : α) :
    mget d (mput d m k v) j = if j = k then v else mget d m j := by
  unfold mput
  split
  · next hv => subst hv; exact mget_mdel v m k j
  · exact mget_mins d m k j v

-- ===== Rising sets =====

theorem nwf_iff (m : NSet) : nwf m = true ↔ m.Pairwise (· < ·) := by
  induction m with
  | nil => simp [nwf]
  | cons a r ih => simp [nwf, ih]

theorem mem_nins (m : NSet) (k x : Nat) : x ∈ nins m k ↔ x = k ∨ x ∈ m := by
  induction m with
  | nil => simp [nins]
  | cons a r ih =>
    simp only [nins]
    split
    · simp
    · split
      · subst k; simp
      · simp only [List.mem_cons, ih]; tauto

theorem nins_wf (m : NSet) (k : Nat) (h : nwf m = true) : nwf (nins m k) = true := by
  rw [nwf_iff] at h ⊢
  induction m with
  | nil => simp [nins]
  | cons a r ih =>
    rw [List.pairwise_cons] at h
    simp only [nins]
    split
    · rw [List.pairwise_cons, List.pairwise_cons]
      refine ⟨fun x hx => ?_, h⟩
      rcases List.mem_cons.1 hx with rfl | hx
      · assumption
      · have := h.1 x hx; omega
    · split
      · rw [List.pairwise_cons]; exact h
      · rw [List.pairwise_cons]
        refine ⟨fun x hx => ?_, ih h.2⟩
        rcases (mem_nins r k x).1 hx with rfl | hx
        · omega
        · exact h.1 x hx

theorem mem_ndel (m : NSet) (k x : Nat) : x ∈ ndel m k ↔ x ∈ m ∧ x ≠ k := by simp [ndel]

theorem ndel_wf (m : NSet) (k : Nat) (h : nwf m = true) : nwf (ndel m k) = true := by
  rw [nwf_iff] at h ⊢
  exact h.filter _

theorem filter_nwf (m : NSet) (p : Nat → Bool) (h : nwf m = true) : nwf (m.filter p) = true := by
  rw [nwf_iff] at h ⊢
  exact h.filter p

theorem ndelRange_wf (m : NSet) (lo n : Nat) (h : nwf m = true) : nwf (ndelRange m lo n) = true := filter_nwf m _ h

theorem ninsRange_wf (m : NSet) (lo n : Nat) (h : nwf m = true) : nwf (ninsRange m lo n) = true := by
  induction n generalizing m with
  | zero => exact h
  | succ n ih => exact ih _ (nins_wf m _ h)

/-- A fold keeps what each of its steps keeps. -/
theorem foldl_keeps {σ β : Type} (P : σ → Prop) (f : σ → β → σ) (h : ∀ s b, P s → P (f s b)) (l : List β) (s : σ) (hs : P s) :
    P (l.foldl f s) := by
  induction l generalizing s with
  | nil => exact hs
  | cons b r ih => exact ih _ (h s b hs)

theorem nins_foldl_wf (l : List Nat) (m : NSet) (h : nwf m = true) : nwf (l.foldl nins m) = true :=
  foldl_keeps (fun m => nwf m = true) nins (fun m k hm => nins_wf m k hm) l m h

theorem nmem_iff (m : NSet) (k : Nat) : nmem m k = true ↔ k ∈ m := by
  induction m with
  | nil => simp [nmem]
  | cons a r ih =>
    simp only [nmem, List.mem_cons]
    split
    · simp_all
    · rw [ih]; constructor
      · exact Or.inr
      · rintro (rfl | h)
        · contradiction
        · exact h

-- ===== Byte lists =====

theorem cellsOf_key (a v n : Nat) : ∀ e ∈ cellsOf a v n, a ≤ e.1 ∧ e.1 < a + n := by
  induction n generalizing a v with
  | zero => simp [cellsOf]
  | succ n ih =>
    intro e he
    simp only [cellsOf] at he
    split at he
    · have := ih _ _ e he; omega
    · rcases List.mem_cons.1 he with rfl | he
      · simp
      · have := ih _ _ e he; omega

theorem cellsOf_nonzero (a v n : Nat) : ∀ e ∈ cellsOf a v n, e.2 ≠ 0 := by
  induction n generalizing a v with
  | zero => simp [cellsOf]
  | succ n ih =>
    intro e he
    simp only [cellsOf] at he
    split at he
    · exact ih _ _ e he
    · next hv =>
      rcases List.mem_cons.1 he with rfl | he
      · intro h
        have := congrArg BitVec.toNat h
        simp at this
        omega
      · exact ih _ _ e he

theorem cellsOf_rise (a v n : Nat) : ((cellsOf a v n).map Prod.fst).Pairwise (· < ·) := by
  induction n generalizing a v with
  | zero => simp [cellsOf]
  | succ n ih =>
    simp only [cellsOf]
    split
    · exact ih _ _
    · rw [List.map_cons, List.pairwise_cons]
      refine ⟨fun x hx => ?_, ih _ _⟩
      obtain ⟨e, he, rfl⟩ := List.mem_map.1 hx
      have := cellsOf_key _ _ _ e he
      omega

theorem filter_cells_wf (l : List Host.Cell) (p : Host.Cell → Bool) (h : mwf (0 : BitVec 8) l = true) : mwf (0 : BitVec 8) (l.filter p) = true := by
  rw [mwf_iff] at h ⊢
  refine ⟨?_, fun e he => h.2 e (List.mem_of_mem_filter he)⟩
  exact h.1.sublist (List.filter_sublist.map Prod.fst)

/-- A write of bytes keeps the canonical form of a byte list. -/
theorem cellsWrite_wf (l : List Host.Cell) (a n v : Nat) (h : mwf (0 : BitVec 8) l = true) : mwf (0 : BitVec 8) (cellsWrite l a n v) = true := by
  have h1 := filter_cells_wf l (fun c => decide (c.1 < a)) h
  have h2 := filter_cells_wf l (fun c => decide (a + n ≤ c.1)) h
  rw [mwf_iff] at h1 h2 ⊢
  unfold cellsWrite
  constructor
  · rw [List.map_append, List.map_append, List.pairwise_append, List.pairwise_append]
    refine ⟨h1.1, ⟨cellsOf_rise a v n, h2.1, ?_⟩, ?_⟩
    · intro x hx y hy
      obtain ⟨e, he, rfl⟩ := List.mem_map.1 hx
      obtain ⟨g, hg, rfl⟩ := List.mem_map.1 hy
      have := cellsOf_key _ _ _ e he
      have := (List.mem_filter.1 hg).2
      simp at this; omega
    · intro x hx y hy
      obtain ⟨e, he, rfl⟩ := List.mem_map.1 hx
      have h1 := (List.mem_filter.1 he).2
      simp at h1
      rcases List.mem_append.1 hy with hy | hy
      · obtain ⟨g, hg, rfl⟩ := List.mem_map.1 hy
        have := cellsOf_key _ _ _ g hg; omega
      · obtain ⟨g, hg, rfl⟩ := List.mem_map.1 hy
        have := (List.mem_filter.1 hg).2
        simp at this; omega
  · intro e he
    rcases List.mem_append.1 he with he | he
    · exact h1.2 e he
    · rcases List.mem_append.1 he with he | he
      · exact cellsOf_nonzero a v n e he
      · exact h2.2 e he

end Sys2Proof.Machine
end

