-- ==== Sys2Proof/Certificates/Slice0/Obligations.lean ====
section
/-!
DEFINITION. Sys2Proof/Certificates/Slice0/Obligations.lean: the statements about the block, each citing the rules or sections it rests on.
-/

open Sys2Proof (CtxId Fields Instr ParityErrs Upsets Word ControlFrame CheckResult FlashRead FlashProg FlashSpace RomReport FillReport KitReading WindowReading HostEntry HostData HostAccess CoreOp CoreAccess MgmtXfer SpdmReq)
open Sys2Proof.Machine

/-- NOP, BR, BRC, LOOP, STOP, CSWRD, CSWCLR and SBIND complete with the effect of Table 3.6. (03_zmi_instruction_set.md) -/
def Obligations.BranchesAndFlowComplete : Prop :=
  ∀ (s : State) (u : CtxId) (f : Fields), s.fetches u = true →
    let t := s.fetched u
    (f.zeroBut false false false false false false false false false = true → exec (.nop u f) s = .next (t.done u)) ∧
    (f.zeroBut false false false false false false false false true = true → exec (.br u f) s = .next (t.branch u f)) ∧
    (f.zeroBut false true false false false true false false true = true → f.A < 16 → f.modN < 4 → t.sp u f.A = false →
      exec (.brc u f) s = .next (if brcHolds f.modN (t.S u f.A).v then t.branch u f else t.done u)) ∧
    (f.zeroBut false false false false false true false false true = true → f.A < 16 → t.sp u f.A = false →
      exec (.loop u f) s = .next
        (if (t.S u f.A).v - 1 ≠ 0 then (t.putS u f.A ((t.S u f.A).v - 1) false).branch u f
         else (t.putS u f.A ((t.S u f.A).v - 1) false).done u)) ∧
    (f.zeroBut false false false false false false false false false = true →
      exec (.stop u f) s = .next (((t.closeSegment u).setCtx u (fun c => { c with stopped := true })).done u)) ∧
    (f.zeroBut false false false false true false false false false = true → f.D < 16 →
      exec (.cswrd u f) s = .next ((t.putS u f.D (BitVec.ofNat 64 (t.csw u)) false).done u)) ∧
    (f.zeroBut false false false false false false false false true = true → f.immN < 16 →
      exec (.cswclr u f) s = .next ((t.setCtx u (fun c =>
        { c with accOvf := c.accOvf && !f.imm.getLsbD 3, accInv := c.accInv && !f.imm.getLsbD 2,
                 cnvOvf := c.cnvOvf && !f.imm.getLsbD 1, vecInv := c.vecInv && !f.imm.getLsbD 0 })).done u)) ∧
    (f.zeroBut false false false false false true false false true = true → f.A < 16 → f.immN < 4 → t.sp u f.A = false →
      (t.sv u f.A).testBit 63 = true →
      exec (.sbind u f) s = .next ((t.setCtx u (fun c => { c with bind := mput 0 c.bind f.immN 0 })).done u)) ∧
    (f.zeroBut false false false false false true false false true = true → f.A < 16 → f.immN < 4 → t.sp u f.A = false →
      t.sv u f.A < 2 ^ 14 → t.ownsSlot (t.partOf u) (t.sv u f.A) = true →
      exec (.sbind u f) s = .next ((t.setCtx u (fun c => { c with bind := mput 0 c.bind f.immN (t.sv u f.A + 1) })).done u))

/-- SADD, SSUB, SMUL, SAND, SOR, SXOR, SSHL, SSHR, SSAR, SMIN, SMAX, SCMP and SMOVI write S[rd] as Table 3.6 says.
(03_zmi_instruction_set.md) -/
def Obligations.ScalarInstructionsComplete : Prop :=
  ∀ (s : State) (u : CtxId) (f : Fields), s.fetches u = true →
    let t := s.fetched u
    let a := (t.S u f.A).v
    let b := (t.opB u f).v
    let put := fun (v : BitVec 64) => Host.Outcome.next (φ := Fault) (ρ := Refusal) ((t.putS u f.D v (t.sp u f.A || (t.opB u f).p)).done u)
    (Fields.scalarLegal f 1 = true →
      exec (.sadd u f) s = put (a + b) ∧ exec (.ssub u f) s = put (a - b) ∧ exec (.smul u f) s = put (a * b) ∧
      exec (.sand u f) s = put (a &&& b) ∧ exec (.sor u f) s = put (a ||| b) ∧ exec (.sxor u f) s = put (a ^^^ b) ∧
      exec (.sshl u f) s = put (a <<< (b.toNat % 64)) ∧ exec (.sshr u f) s = put (a >>> (b.toNat % 64)) ∧
      exec (.ssar u f) s = put (a.sshiftRight (b.toNat % 64)) ∧
      exec (.smin u f) s = put (if a.slt b then a else b) ∧ exec (.smax u f) s = put (if a.slt b then b else a)) ∧
    (Fields.scalarLegal f 6 = true → exec (.scmp u f) s = put (if scmpHolds (f.modN / 2) a b then 1 else 0)) ∧
    (f.zeroBut false true false false true false false false true = true → f.D < 16 → f.modN = 0 →
      exec (.smovi u f) s = .next ((t.putS u f.D (BitVec.ofInt 64 f.simm) false).done u)) ∧
    (f.zeroBut false true false false true false false false true = true → f.D < 16 → (f.modN = 1 ∨ f.modN = 2 ∨ (f.modN = 3 ∧ f.immN < 16)) →
      exec (.smovi u f) s = .next ((t.putS u f.D
        (BitVec.ofNat 64 (setBits (t.sv u f.D) (20 * f.modN) (if f.modN = 3 then 4 else 20) f.immN)) (t.sp u f.D)).done u))

/-- XSET, XADD and XMOV write an address register or S[rd] as Table 3.6 says. (03_zmi_instruction_set.md) -/
def Obligations.AddressRegisterInstructionsComplete : Prop :=
  ∀ (s : State) (u : CtxId) (f : Fields), s.fetches u = true →
    let t := s.fetched u
    (f.zeroBut false false false false true true false false true = true → f.D < 16 → f.A < 16 → f.immN < 64 → t.sv u f.A < 2 ^ 40 →
      exec (.xset u f) s = .next ((t.putX u f.D
        { span := BitVec.ofNat 6 f.immN, off := BitVec.ofNat 40 (t.sv u f.A), p := t.sp u f.A }).done u)) ∧
    (f.zeroBut false false false false true true true false true = true → f.D < 16 → f.A < 16 → f.B < 16 →
      exec (.xadd u f) s = .next ((t.putX u f.D
        { span := (t.X u f.A).span,
          off := BitVec.ofInt 40 (((t.X u f.A).off.toNat : Int) + (t.sv u f.B : Int) + f.simm),
          p := (t.X u f.A).p || t.sp u f.B }).done u)) ∧
    (f.zeroBut false true false false true true false false false = true → f.D < 16 → f.A < 16 → f.modN = 0 →
      exec (.xmov u f) s = .next ((t.putS u f.D (t.X u f.A).bits (t.X u f.A).p).done u)) ∧
    (f.zeroBut false true false false true true false false false = true → f.D < 16 → f.A < 16 → f.modN = 1 → t.sv u f.A < 2 ^ 46 →
      exec (.xmov u f) s = .next ((t.putX u f.D
        { span := BitVec.ofNat 6 (t.sv u f.A / 2 ^ 40), off := BitVec.ofNat 40 (t.sv u f.A), p := t.sp u f.A }).done u))

/-- AOPEN, TMAC, ACOMB, AREANC, AADD, ACVT and ACVTMX complete with the effect of Table 3.9. (02_arithmetic.md, 03_zmi_instruction_set.md)
-/
def Obligations.AccumulatorInstructionsComplete : Prop :=
  ∀ (s : State) (u : CtxId) (f : Fields), s.fetches u = true →
    let t := s.fetched u
    let e := t.maskE u f
    (f.zeroBut false false false false true false false false true = true → f.D < 8 → f.immN < 2 ^ 10 →
      exec (.aopen u f) s = .next ((t.setAcc u f.D (Acc.opened (BitVec.ofNat 10 f.immN))).done u)) ∧
    (∀ err : ParityErrs, tmacLegal f = true → (t.acc u f.D).isOpen = true →
      (tmacTiles f).any (fun n => t.tilePending u n) = false → (t.tmacIn u f err).badNibble = none →
      exec (.tmac u f err) s = .next ((((t.regParity u f err).countTmac u (t.tmacIn u f err)).setAcc u f.D
        ((parityAcc err f.D (t.acc u f.D)).tmac (t.tmacIn u f err) e)).done u)) ∧
    (f.zeroBut false false true false true true false false false = true → f.D < 8 → f.A < 8 →
      (t.acc u f.D).isOpen = true → (t.acc u f.A).isOpen = true → (t.acc u f.D).anchor = (t.acc u f.A).anchor →
      exec (.acomb u f) s = .next ((t.setAcc u f.D ((t.acc u f.D).comb (t.acc u f.A) e)).done u)) ∧
    (f.zeroBut false false false false true false false false true = true → f.D < 8 → f.immN < 2 ^ 10 → (t.acc u f.D).isOpen = true →
      exec (.areanc u f) s = .next ((t.setAcc u f.D ((t.acc u f.D).reanchor (BitVec.ofNat 10 f.immN))).done u)) ∧
    (f.zeroBut true false true false true true false false false = true → f.D < 8 → f.fmtN = 8 → (t.acc u f.D).isOpen = true →
      t.tilePending u f.A = false →
      exec (.aadd u f) s = .next ((t.setAcc u f.D ((t.acc u f.D).mapEnabled e (fun n el =>
        { (el.addNum (t.acc u f.D).A ((t.tile u f.A).elem 8 n)) with
          poison := el.poison || (t.tile u f.A).pField (32 * n) 32 }))).done u)) ∧
    (f.zeroBut true false true false true true false false true = true → f.A < 8 → f.fmtN ≤ 8 → f.immN < 64 →
      16 * fmtW f.fmtN * (f.immN + 1) ≤ 512 → (t.acc u f.A).isOpen = true → t.tilePending u f.D = false →
      let r := fun n => ((t.acc u f.A).el n).convert (t.acc u f.A).A f.fmtN
      let on := (List.range 16).filter (fun n => e.testBit n)
      exec (.acvt u f) s = .next (((t.setFlags u (on.any (fun n => (r n).2.accOvf)) (on.any (fun n => (r n).2.accInv))
          (on.any (fun n => (r n).2.cnv)) false).setTile u f.D ((t.tile u f.D).pack (fmtW f.fmtN) (16 * f.immN) 16
            (fun n => e.testBit n) (fun n => (r n).1) (fun n => ((t.acc u f.A).el n).poison))).done u)) ∧
    (f.zeroBut true false false false true true true false true = true → f.A < 8 → f.B < 8 → f.fmtN ≤ 6 → f.immN % 256 < 64 →
      f.immN < 2 ^ 11 → 32 * fmtW f.fmtN * (f.immN % 64 + 1) ≤ 512 → (t.acc u f.A).isOpen = true → (t.acc u f.B).isOpen = true →
      (t.acc u f.A).anchor = (t.acc u f.B).anchor → t.tilePending u f.D = false →
      let a := t.acc u f.A
      let els := (List.range 32).map (mxElem a (t.acc u f.B))
      let sc := mxScale (mxMax els) a.A f.fmtN
      let r := fun n => (mxElem a (t.acc u f.B) n).convertMx a.A f.fmtN sc
      let bad := els.any (fun x => x.poison)
      let w := (t.tile u f.D).pack (fmtW f.fmtN) (32 * (f.immN % 64)) 32 (fun _ => true) (fun n => (r n).1) (fun _ => bad)
      let code := sc.elim 0 (fun x => (x + 127).toNat)
      exec (.acvtmx u f) s = .next (((t.setFlags u ((List.range 32).any (fun n => (r n).2.accOvf))
          ((List.range 32).any (fun n => (r n).2.accInv)) ((List.range 32).any (fun n => (r n).2.cnv)) false).setTile u f.D
        { w with scale := BitVec.ofNat 64 (setBits w.scale.toNat (8 * (f.immN / 256 % 8)) 8 code), pSc := bad }).done u))

/-- VADD, VSUB, VMUL, VMIN, VMAX, VFMA, VFN, VSMX, VCVT, VRED, VBC and VSEL complete with the effect of Table 3.10. (02_arithmetic.md,
03_zmi_instruction_set.md) -/
def Obligations.VectorInstructionsComplete : Prop :=
  ∀ (s : State) (u : CtxId) (f : Fields), s.fetches u = true →
    let t := s.fetched u
    let e := t.maskE u f
    let a := fun n => (t.tile u f.A).f32 n
    let pa := fun n => (t.tile u f.A).pField (32 * n) 32
    let b := fun n => (t.vecB u f n).1
    let pb := fun n => (t.vecB u f n).2
    let second := if f.modBit 0 then [] else [f.B]
    let two := f.zeroBut true true true false true true true false false && decide (f.fmtN = 8) && decide (f.modN < 2) && (!f.modBit 0 || f.b16)
    let out := fun (g : Nat → Nat × VFlags) (p : Nat → Bool) => Host.Outcome.next (φ := Fault) (ρ := Refusal) (t.vecOut u f e g p)
    (two = true → ([f.D, f.A] ++ second).any (fun n => t.tilePending u n) = false →
      exec (.vadd u f) s = out (fun n => f32Add (a n) (b n)) (fun n => pa n || pb n) ∧
      exec (.vsub u f) s = out (fun n => f32Sub (a n) (b n)) (fun n => pa n || pb n) ∧
      exec (.vmul u f) s = out (fun n => f32Mul (a n) (b n)) (fun n => pa n || pb n) ∧
      exec (.vmin u f) s = out (fun n => f32Min (a n) (b n)) (fun n => pa n || pb n) ∧
      exec (.vmax u f) s = out (fun n => f32Max (a n) (b n)) (fun n => pa n || pb n)) ∧
    (f.zeroBut true true true false true true true true false = true → f.fmtN = 8 → f.modN < 2 → (f.modBit 0 = true → f.B < 16) →
      ([f.D, f.A, f.C] ++ second).any (fun n => t.tilePending u n) = false →
      exec (.vfma u f) s = out (fun n => f32Fma (a n) (b n) ((t.tile u f.C).f32 n))
        (fun n => pa n || pb n || (t.tile u f.C).pField (32 * n) 32)) ∧
    (f.zeroBut true true true false true true false false false = true → f.fmtN = 8 → f.modN ≤ 4 →
      [f.D, f.A].any (fun n => t.tilePending u n) = false →
      exec (.vfn u f) s = out (fun n => vfn f.modN (a n)) pa) ∧
    (f.zeroBut true false true false true true true false false = true → f.fmtN = 8 → f.B < 16 →
      [f.D, f.A].any (fun n => t.tilePending u n) = false →
      exec (.vsmx u f) s = out (fun n => softmaxHelper (a n) (t.sv u f.B % 2 ^ 32)) (fun n => pa n || t.sp u f.B)) ∧
    (f.zeroBut true false true false true true false false false = true → f.A < 16 → f.fmtN = 8 →
      [f.D].any (fun n => t.tilePending u n) = false →
      exec (.vbc u f) s = out (fun _ => (t.sv u f.A % 2 ^ 32, {})) (fun _ => t.sp u f.A)) ∧
    (f.zeroBut true false true false true true true false false = true → f.fmtN = 8 →
      [f.D, f.A, f.B].any (fun n => t.tilePending u n) = false →
      exec (.vsel u f) s = .next (t.vecOut u f (ones 16)
        (fun n => ((if e.testBit n then t.tile u f.A else t.tile u f.B).f32 n, {}))
        (fun n => (if e.testBit n then t.tile u f.A else t.tile u f.B).pField (32 * n) 32))) ∧
    (f.zeroBut true true true false true true false false false = true → f.D < 16 → f.fmtN = 8 → f.modN ≤ 2 →
      [f.A].any (fun n => t.tilePending u n) = false →
      let r := vredTree f.modN ((List.range 16).map (fun n => if e.testBit n then a n else vredId f.modN))
      exec (.vred u f) s = .next (((t.setFlags u false false r.2.cnv r.2.inv).putS u f.D (BitVec.ofNat 64 r.1)
        ((List.range 16).any (fun n => e.testBit n && pa n))).done u)) ∧
    (f.zeroBut true false true true true true false false true = true → f.fmtN ≤ 8 → f.auxN ≤ 8 → (f.fmtN = 8 ∨ f.auxN = 8) → f.immN < 64 →
      16 * fmtW (vcvtNarrow f) * (f.immN + 1) ≤ 512 → [f.D, f.A].any (fun n => t.tilePending u n) = false →
      let ws := fmtW f.auxN
      let pos := fun n => ws * (vcvtBase f.auxN f.immN + n)
      let r := fun n => convNum (decodeElem f.auxN ((t.tile u f.A).field (pos n) ws)) f.fmtN
      let on := (List.range 16).filter (fun n => e.testBit n)
      exec (.vcvt u f) s = .next (((t.setFlags u false false (on.any (fun n => (r n).2.cnv)) (on.any (fun n => (r n).2.inv))).setTile u f.D
        ((t.tile u f.D).pack (fmtW f.fmtN) (vcvtBase f.fmtN f.immN) 16 (fun n => e.testBit n) (fun n => (r n).1)
          (fun n => (t.tile u f.A).pField (pos n) ws))).done u))

/-- MSET, MOP, MCMP, CAUSAL, CAUSALB, MPOP, SPCHK, DRAW, PTEST and PMARK complete with the effect of Tables 3.11, 3.12 and 3.14.
(03_zmi_instruction_set.md, 05_conditional_computation.md) -/
def Obligations.MaskPoisonAndDrawInstructionsComplete : Prop :=
  ∀ (s : State) (u : CtxId) (f : Fields), s.fetches u = true →
    let t := s.fetched u
    let clean := t.sp u f.A = false ∧ t.sp u f.B = false ∧ t.sp u f.C = false
    let tiles := f.A :: (if f.modBit 0 then [] else [f.B])
    let own := if f.modN = 0 then [f.A] else []
    (f.zeroBut false false false false true true false false false = true → f.D < 8 → f.A < 16 → t.sp u f.A = false →
      exec (.mset u f) s = .next ((t.putM u f.D (t.sv u f.A)).done u)) ∧
    (f.zeroBut false true false false true true (decide (f.modN ≠ 4)) false false = true → f.D < 8 → f.A < 8 → f.B < 8 → f.modN ≤ 4 →
      exec (.mop u f) s = .next ((t.putM u f.D (mopVal f.modN ((t.ctx u).M f.A) ((t.ctx u).M f.B)).toNat).done u)) ∧
    (f.zeroBut false true false false true true true false false = true → f.D < 8 → f.modN / 2 ≤ 3 → (f.modBit 0 = true → f.B < 16) →
      tiles.any (fun n => t.tilePending u n) = false →
      ((t.tile u f.A).anyPoison || (if f.modBit 0 then t.sp u f.B else (t.tile u f.B).anyPoison)) = false →
      exec (.mcmp u f) s = .next ((t.putM u f.D
        (bitField 16 (fun n => mcmpHolds (f.modN / 2) ((t.tile u f.A).f32 n) (t.vecB u f n).1))).done u)) ∧
    (f.zeroBut false true false false true true true true false = true → f.D < 8 → f.A < 16 → f.B < 16 → f.C < 16 → f.modN < 2 → clean →
      exec (.causal u f) s = .next ((t.putM u f.D (bitField 16 (fun n =>
        causalVisible (f.modBit 0) (t.sv u f.A + n / 4) (t.sv u f.B + n % 4) (t.sv u f.C)))).done u)) ∧
    (f.zeroBut false true false false true true true true false = true → f.D < 16 → f.A < 16 → f.B < 16 → f.C < 16 → f.modN < 2 → clean →
      let r := causalBlock (f.modBit 0) (t.sv u f.A) (t.sv u f.B) (t.sv u f.C)
      exec (.causalb u f) s = .next (((t.count (if r = 0 then F.DRM_CAUSALB_MASKED_COUNT else if r = 1 then F.DRM_CAUSALB_PARTIAL_COUNT
        else F.DRM_CAUSALB_VISIBLE_COUNT) u.kit u.drum 1).putS u f.D (BitVec.ofNat 64 r) false).done u)) ∧
    (f.zeroBut false false false false true true false false false = true → f.D < 16 → f.A < 8 →
      exec (.mpop u f) s = .next ((t.putS u f.D (BitVec.ofNat 64 (popcount ((t.ctx u).M f.A))) false).done u)) ∧
    (f.zeroBut true false false false true true false false false = true → f.D < 16 → f.fmtN ≤ 6 → t.tilePending u f.A = false →
      exec (.spchk u f) s = .next ((t.putS u f.D (BitVec.ofNat 64
        ((List.range (metaNibbles f.fmtN)).filter (fun k => !validNibble ((t.tile u f.A).field (4 * k) 4))).length)
        ((t.tile u f.A).pField 0 (4 * metaNibbles f.fmtN))).done u)) ∧
    (f.zeroBut false false false false true true true false true = true → f.D < 16 → f.A < 16 → f.B < 16 →
      exec (.draw u f) s = .next ((t.putS u f.D (BitVec.ofNat 64 (draw (t.sv u f.A) (t.sv u f.B) f.immN))
        (t.sp u f.A || t.sp u f.B)).done u)) ∧
    (f.zeroBut false true false false true true false false false = true → f.D < 16 → f.modN < 4 → classLegal f = true →
      own.any (fun n => t.tilePending u n) = false →
      exec (.ptest u f) s = .next ((t.putS u f.D (BitVec.ofNat 64 (t.marks u f)) false).done u)) ∧
    (f.zeroBut false true false false false true false false true = true → f.modN < 4 → classLegal f = true → f.immN < 2 ^ pmarkBits f →
      own.any (fun n => t.tilePending u n) = false →
      exec (.pmark u f) s = .next ((t.pmark u f).done u))

/-- TLD, SCLD, SLD, ALD and TGA complete with the data of local memory. (03_zmi_instruction_set.md, 08_memory_spans_and_tiers.md) -/
def Obligations.LoadInstructionsComplete : Prop :=
  ∀ (s : State) (u : CtxId) (f : Fields),
    let t := s.fetched u
    (∀ e : Upsets, (s.strike e).fetches u = true → Fields.memLegal f 0 false = true →
      let t := (s.strike e).fetched u
      let r := t.loaded u (t.memPieces u f 64)
      noFault (t.memConds u f 64 64 rRead) = true → t.tilePending u f.D = false → t.loadsNow u (t.memPieces u f 64) = true →
      exec (.tld u f e) s = .next ((r.1.xbarParity u e.segment r.2 64).1.finishTld u f (r.1.xbarParity u e.segment r.2 64).2)) ∧
    (s.fetches u = true → Fields.memLegal f 0 false = true → noFault (t.memConds u f 8 8 rRead) = true → t.tilePending u f.D = false →
      t.loadsNow u (t.memPieces u f 8) = true →
      exec (.scld u f) s = .next ((t.loaded u (t.memPieces u f 8)).1.finishScld u f (t.loaded u (t.memPieces u f 8)).2)) ∧
    (s.fetches u = true → Fields.memLegal f 7 false = true → f.D < 16 →
      let n := Fields.scalarSize f
      noFault (t.memConds u f n n rRead) = true → t.loadsNow u (t.memPieces u f n) = true →
      exec (.sld u f) s = .next ((t.loaded u (t.memPieces u f n)).1.finishSld u f (t.loaded u (t.memPieces u f n)).2)) ∧
    (s.fetches u = true → Fields.memLegal f 1 (f.modBit 0) = true → f.D < 8 → noFault (t.memConds u f (aldSize f) 64 rRead) = true →
      (f.modBit 0 = true → (t.acc u f.D).isOpen = true) → t.loadsNow u (t.memPieces u f (aldSize f)) = true →
      exec (.ald u f) s = .next
        ((t.loaded u (t.memPieces u f (aldSize f))).1.finishAld u f (t.firstTurn u f 0 f.D) (t.loaded u (t.memPieces u f (aldSize f))).2)) ∧
    (s.fetches u = true → f.zeroBut true false true false true true true false true = true → f.D < 8 → f.A < 16 → f.immN ≤ 60 →
      6 ≤ f.fmtN → f.fmtN ≤ 8 → (t.X u f.A).p = false → (t.acc u f.D).isOpen = true → t.tilePending u f.B = false →
      t.spanCheck (t.actor u) (t.xSpan u f.A) ((t.xOff u f.A : Int) + 256 * f.immN * tgaW f.fmtN) (1024 * tgaW f.fmtN) rRead = none →
      t.loadsNow u (t.tgaPieces u f) = true →
      exec (.tga u f) s = .next ((t.loaded u (t.tgaPieces u f)).1.finishTga u f (t.firstTurn u f f.B f.D)
        (t.loaded u (t.tgaPieces u f)).2))

/-- TST, SCST, SST and AST complete with their bytes sent to memory. (03_zmi_instruction_set.md, 08_memory_spans_and_tiers.md) -/
def Obligations.StoreInstructionsComplete : Prop :=
  ∀ (s : State) (u : CtxId) (f : Fields), s.fetches u = true →
    let t := s.fetched u
    let sp := t.xSpan u f.A
    (Fields.memLegal f 1 true = true → noFault (t.memConds u f 64 64 rWrite) = true → t.tilePending u f.D = false →
      t.storesNow u (t.memPieces u f 64) (t.tstBytes u f) = true →
      exec (.tst u f) s = .next ((t.stored u sp (t.memPieces u f 64) (t.tile u f.D).data.toNat (t.tstBytes u f)
        (tilePoison (t.tile u f.D) (t.tstBytes u f))).done u)) ∧
    (Fields.memLegal f 0 false = true → noFault (t.memConds u f 8 8 rWrite) = true → t.tilePending u f.D = false →
      t.storesNow u (t.memPieces u f 8) 255 = true →
      exec (.scst u f) s = .next ((t.stored u sp (t.memPieces u f 8) (t.tile u f.D).scale.toNat 255 (b2n (t.tile u f.D).pSc)).done u)) ∧
    (Fields.memLegal f 3 false = true → f.D < 16 →
      let n := Fields.scalarSize f
      noFault (t.memConds u f n n rWrite) = true → t.storesNow u (t.memPieces u f n) (ones n) = true →
      exec (.sst u f) s = .next ((t.stored u sp (t.memPieces u f n) (t.sv u f.D % 256 ^ n) (ones n) (b2n (t.sp u f.D))).done u)) ∧
    (Fields.memLegal f 1 (!f.modBit 0) = true → f.D < 8 → f.modBit 0 = true → noFault (t.memConds u f 320 64 rWrite) = true →
      t.storesNow u (t.memPieces u f 320) (ones 320) = true →
      let a := t.acc u f.D
      exec (.ast u f) s = .next ((t.stored u sp (t.memPieces u f 320) a.image (ones 320)
        (bitField 8 (fun g => (a.el (2 * g)).poison || (a.el (2 * g + 1)).poison))).done u)) ∧
    (Fields.memLegal f 1 (!f.modBit 0) = true → f.D < 8 → f.modBit 0 = false → noFault (t.memConds u f 256 64 rWrite) = true →
      (t.acc u f.D).isOpen = true → t.storesNow u (t.memPieces u f 256) (elemBytes16 (t.maskE u f % 2 ^ 16)) = true →
      let a := t.acc u f.D
      let e := t.maskE u f % 2 ^ 16
      exec (.ast u f) s = .next (((t.stored u sp (t.memPieces u f 256) a.la128Bytes (elemBytes16 e) (a.la128Poison e)).readoutFlags u a e).done u))

/-- ALDT, ACPY, WAITF, WAITD and the returns of loads and transfers complete as Table 3.8 says. (03_zmi_instruction_set.md,
04_execution_and_timing.md) -/
def Obligations.AsynchronousInstructionsComplete : Prop :=
  (∀ (s : State) (u : CtxId) (f : Fields), s.fetches u = true →
    let t := s.fetched u
    let base : Xfer := { part := t.partOf u, unit := unitMallet u.kit u.drum u.mallet, stream := ctxStream u }
    (f.zeroBut false true false true true true (f.modBit 3) true true = true → Fields.addrLegal f = true → f.modN % 8 = 0 → f.C ≤ 7 →
      f.D + f.C + 1 ≤ 32 → noFault (t.memConds u f (64 * (f.C + 1)) 64 rRead) = true →
      (span f.D (f.C + 1)).any (fun n => t.tilePending u n) = false → t.flagFull u f.auxN = false →
      let n := f.C + 1
      let r := t.newXfer { base with kind := .aldt (ctxKey u) f.D n f.auxN, src := t.memPieces u f (64 * n), len := 64 * n,
                                     span := t.xSpan u f.A, off := (t.memOff u f).toNat }
      exec (.aldt u f) s = .next ((((span f.D n).foldl (fun s i => s.setTile u i { s.tile u i with pending := true })
        (r.1.flagUp u f.auxN)).launch r.2 (some (u.kit, u.drum))).done u)) ∧
    (f.zeroBut false false false true true true true false false = true → f.D < 16 → f.A < 16 → f.B < 16 →
      let n := t.sv u f.B
      (t.X u f.A).p = false → (t.X u f.D).p = false → t.sp u f.B = false →
      t.accessFault (t.actor u) (t.xSpan u f.A) (t.xOff u f.A : Int) n 64 rRead = none →
      t.accessFault (t.actor u) (t.xSpan u f.D) (t.xOff u f.D : Int) n 64 rWrite = none →
      64 ≤ n → n ≤ 0x100000 → n % 64 = 0 → t.flagFull u f.auxN = false →
      let src := t.spanPieces (t.actor u) (t.xSpan u f.A) (t.xOff u f.A) n
      let dst := t.spanPieces (t.actor u) (t.xSpan u f.D) (t.xOff u f.D) n
      let r := (t.flushPieces u (src ++ dst)).newXfer
        { base with kind := .copy (ctxKey u) f.auxN, src := src, dst := dst, len := n, span := t.xSpan u f.D, off := t.xOff u f.D,
                    srcSub := t.spanOwner (t.partOf u) (t.xSpan u f.A) + 1 }
      exec (.acpy u f) s = .next (((r.1.flagUp u f.auxN).launch r.2 (some (u.kit, u.drum))).done u)) ∧
    (f.zeroBut false false false false false false false false true = true → f.immN < 2 ^ 16 →
      (∀ n < 16, f.immN.testBit n = true → (t.ctx u).AF n = 0) → exec (.waitf u f) s = .next (t.done u)) ∧
    (f.zeroBut false false false false false false false false true = true → f.immN < 64 →
      nmem (t.drum u.kit u.drum).flagSet f.immN = true → exec (.waitd u f) s = .next (t.done u))) ∧
  (∀ (s : State) (u : CtxId) (x k word : Nat), (s.ctx u).wait = .load x →
    let a := s.advance x
    (a.xfer x).kind = .load k word → a.finishable x = true →
    exec (.loadDataReturn u) s = .next (((a.endXfer x).setCtx u (fun c => { c with wait := .none })).finishLoad u word (a.xfer x).first
      { v := (a.xfer x).data.v / 256 ^ (if word / 2 ^ 56 = 0xC2 then 0 else (a.xfer x).off), p := (a.xfer x).data.p })) ∧
  (∀ (s : State) (x k rd n flag slot sel pos : Nat),
    let a := s.advance x
    let d := (a.xfer x).data
    let u := ctxOfKey k
    a.finishable x = true →
    ((a.xfer x).kind = .aldt k rd n flag →
      exec (.asyncComplete x) s = .next (((a.landTiles u rd n d).flagDown u flag).endXfer x)) ∧
    ((a.xfer x).kind = .copy k flag →
      exec (.asyncComplete x) s = .next (((a.spread x d).flagDown u flag).endXfer x)) ∧
    ((a.xfer x).kind = .kvapp k flag slot sel pos →
      let c := a.askAppend x u.kit slot sel pos
      c.xferOwes x = false →
      exec (.asyncComplete x) s = .next (((c.kvAppend u slot sel pos (c.xfer x).data).flagDown u flag).endXfer x)))

/-- PEAL, ATOM, RED, TRIG and FENCE complete with the effect of Tables 3.13 and 3.14. (03_zmi_instruction_set.md, 11_fefen_fabric.md) -/
def Obligations.FabricInstructionsComplete : Prop :=
  ∀ (s : State) (u : CtxId) (f : Fields), s.fetches u = true →
    let t := s.fetched u
    let p := t.partOf u
    let sp := t.xSpan u f.A
    let o := t.xOff u f.A
    (f.zeroBut false false true false true true false false true = true → f.A < 16 → f.immN < 256 → (t.X u f.A).p = false → o % 64 = 0 →
      t.tilePending u f.D = false →
      let en := wordToBytes (t.maskE u f)
      let a := t.f F.FAB_PEAL_FGROUP f.immN 0 * 2 ^ 48 + t.f F.FAB_PEAL_EXPORT f.immN 0 * 2 ^ 40 + o
      (t.fb F.FAB_PEAL_VALID f.immN 0 = false →
        exec (.peal u f) s = .next ((t.log (srcHub 0) Ev.FAB_PEAL_INVALID [f.immN] (some p)).done u)) ∧
      (t.fb F.FAB_PEAL_VALID f.immN 0 = true → en = 0 → exec (.peal u f) s = .next (t.done u)) ∧
      (t.fb F.FAB_PEAL_VALID f.immN 0 = true → en ≠ 0 → t.canPost u a 64 = true →
        let x := if en = ones 64 then t else t.fresh
        exec (.peal u f) s = .next (((x.post u (x.xSpan u f.A) (x.f F.FAB_PEAL_MEMBERS f.immN 0)
          { op := opPeal, size := 4, addr := a, payload := pealBytes (t.tile u f.D) en t.freeCtr,
            poison := tilePoison (t.tile u f.D) en }).journalRemote u a 64).done u))) ∧
    (f.zeroBut false true false false true true true (decide (f.modN = 1)) false = true → f.D < 16 → f.A < 16 → f.B < 16 → f.C < 16 →
      f.modN ≤ 1 → (t.X u f.A).p = false → t.sp u f.B = false → (f.modN = 1 → t.sp u f.C = false) →
      t.accessFault (t.actor u) sp (o : Int) 8 8 rAtomic = none →
      ∀ (i : Nat) (pc : Piece), t.spanPieces (t.actor u) sp o 8 = [(i, pc)] →
        (pc.rem = false → t.rmwCredit u pc.addr 8 = true →
          let r := ((t.flushLines u pc.addr 8).rmwCharge u pc.addr 8).atomicMem (unitMallet u.kit u.drum u.mallet) pc.addr (decide (f.modN = 1))
            (t.sv u f.B) (t.sv u f.C)
          exec (.atom u f) s = .next ((r.1.journalDrum p u.kit u.drum pc.addr 8).finishAtom u f r.2)) ∧
        (pc.rem = true → t.canPost u pc.addr 16 = true →
          ∃ r x, exec (.atom u f) s = .next r ∧ (r.ctx u).wait = .load x)) ∧
    (f.zeroBut false true true false true true false false false = true → f.A < 16 → f.modN ≤ 4 → (f.modN = 0 → f.D < 8) →
      (t.X u f.A).p = false → t.accessFault (t.actor u) sp (o : Int) (redBytes f.modN) 64 rReduce = none →
      (f.modN = 0 → (t.acc u f.D).isOpen = true ∧
        (List.range 16).any (fun n => (t.maskE u f % 2 ^ 16).testBit n && ((t.acc u f.D).el n).inv) = false) →
      (if f.modN = 0 then [] else [f.D]).any (fun n => t.tilePending u n) = false →
      let e := t.maskE u f % 2 ^ 16
      let n := redBytes f.modN
      let fin := fun (x : State) => (if f.modN = 0 then x.readoutFlags u (x.acc u f.D) e else x).done u
      (e = 0 → exec (.red u f) s = .next (t.done u)) ∧
      let ps := t.spanPieces (t.actor u) sp o n
      let ks := redPackets f.modN (if f.modN = 0 then (t.acc u f.D).anchor.toNat else 0) e (t.redData u f) ps
      (∀ (i : Nat) (pc : Piece), e ≠ 0 → ps = [(i, pc)] → pc.rem = false → t.rmwCredit u pc.addr n = true →
        exec (.red u f) s = .next (fin ((((t.flushLines u pc.addr n).rmwCharge u pc.addr n).redMem (unitMallet u.kit u.drum u.mallet)
          pc.addr n f.modN e (t.redData u f)).journalDrum p u.kit u.drum pc.addr n))) ∧
      (e ≠ 0 → (remoteOf ps).isEmpty = false →
        ks.all (fun k => t.canPost u k.addr (ks.length * n) && t.tagsFree (nodeOf k.addr) ks.length) = true →
        exec (.red u f) s = .next (fin (ks.foldl (fun x k => (x.post u (x.xSpan u f.A) 1 k).journalRemote u k.addr n) t)))) ∧
    (f.zeroBut false true false (f.modBit 0) false true false false true = true → f.A < 16 → f.modN ≤ 1 → f.immN < 8 →
      (t.X u f.A).p = false → t.accessFault (t.actor u) sp (o : Int) 64 64 rRead = none →
      (f.modBit 0 && t.flagFull u f.auxN) = false →
      (t.qOn p (f.immN % 8) && t.fb F.TRN_QUEUE_CFG_MALLET p (f.immN % 8) && t.qFull p (f.immN % 8)) = false →
      let ps := t.spanPieces (t.actor u) sp o 64
      t.loadsNow u ps = true → exec (.trig u f) s = .next ((t.loaded u ps).1.finishTrig u f (t.loaded u ps).2)) ∧
    (f.zeroBut false true false false false false false false false = true → f.modN ≤ 3 →
      let x := if f.modN = 0 then t else t.flushMerge u.kit u.drum (fun _ => true)
      (f.modN ≠ 3 → exec (.fence u f) s = .next (if f.modN ≠ 0 ∧ x.flushOwes u = true then x.waits u .fence else x.done u)) ∧
      (f.modN = 3 →
        let y := x.closeSegment u
        exec (.fence u f) s = .next (if y.flushOwes u = false ∧ (y.ctx u).posted = 0 then y.done u else y.waits u .fence)))

/-- GONG rings, waits at or arrives at a line, and GONG_ARRIVAL_COUNTED counts the arrival. (03_zmi_instruction_set.md,
04_execution_and_timing.md, 11_fefen_fabric.md) -/
def Obligations.GongInstructionsComplete : Prop :=
  (∀ (s : State) (u : CtxId) (f : Fields), s.fetches u = true →
    let t := s.fetched u
    let p := t.partOf u
    let w := t.gongCfg p f.auxN
    f.zeroBut false true false true false false false false false = true → gongEnabled w = true →
    (f.modN = 3 → gongEvent w = true → exec (.gong u f) s = .next ((t.soundLocal p f.auxN).done u)) ∧
    (f.modN = 2 → exec (.gong u f) s = .next (t.waits u (.gong f.auxN (t.sounds p f.auxN) false))) ∧
    (f.modN ≤ 1 → gongEvent w = false →
      let x := t.flushMerge u.kit u.drum (fun _ => true)
      exec (.gong u f) s = .next ((if gongFabric (x.gongCfg p f.auxN) then x.closeSegment u else x).waits u
        (.arrive f.auxN (decide (f.modN = 0)))))) ∧
  (∀ (s : State) (u : CtxId) (l : Nat) (stay : Bool), (s.ctx u).wait = .arrive l stay →
    let p := s.partOf u
    let r := s.contextArrives u p l
    let x := if stay then r.1.waits u (.gong l r.2 true) else r.1.done u
    (gongFabric (s.gongCfg p l) = true → (s.ctx u).posted = 0) → s.flushOwes u = false → s.stepState p = stRunning →
    exec (.gongArrivalCounted u) s = .next (if r.2 = s.sounds p l then x.arriveAt p l else x))

/-- RDISP, RRECV, KVRD, KVAPP, TPEN, TOPK and TINC complete with the effect of Table 3.12. (03_zmi_instruction_set.md,
05_conditional_computation.md, 06_attention_and_kv.md, 07_serving_engine.md) -/
def Obligations.RouterKvAndTallyInstructionsComplete : Prop :=
  ∀ (s : State) (u : CtxId) (f : Fields), s.fetches u = true →
    let t := s.fetched u
    let p := t.partOf u
    let unit := unitMallet u.kit u.drum u.mallet
    (f.zeroBut false false false true false true true true true = true → f.A < 16 → f.B < 16 → f.C < 16 → f.immN < 2 ^ 14 →
      1 ≤ rdispK f → rdispK f ≤ 8 → rdispE f ≤ 512 → rdispK f ≤ rdispE f →
      let w := t.sv u f.C
      let ret := t.retBytes u.kit
      noFault [when ((t.X u f.A).p || (t.X u f.B).p || t.sp u f.C) 3,
        t.accessFault (t.actor u) (t.xSpan u f.A) (t.xOff u f.A : Int) (4 * rdispE f) 64 rRead,
        t.accessFault (t.actor u) (t.xSpan u f.B) (t.xOff u f.B : Int) (t.actBytes u.kit) 64 rRead,
        t.accessFault (t.actor u) (t.rtr u.kit F.KIT_ROUTER_CONFIG_RET_SPAN) (w % 2 ^ 32 * ret : Int) ret 64 rReduce,
        when (decide (bits w 48 32 ≠ 0)) 8 w] = true →
      t.flagFull u f.auxN = false →
      let base : Xfer := { kind := .rdisp, part := p, unit := unit, stream := routerStream u.kit }
      let a := t.newXfer { base with src := t.spanPieces (t.actor u) (t.xSpan u f.A) (t.xOff u f.A) (4 * rdispE f),
                                     len := 4 * rdispE f, span := t.xSpan u f.A }
      let b := a.1.newXfer { base with src := t.spanPieces (t.actor u) (t.xSpan u f.B) (t.xOff u f.B) (t.actBytes u.kit),
                                       len := t.actBytes u.kit, span := t.xSpan u f.B }
      let tok : RouteTok := { num := (t.kit u.kit).nextTok, word := w, k := rdispK f, e := rdispE f, layer := t.f F.KIT_ROUTER_CONFIG_LAYER u.kit 0,
                              scores := a.2, act := b.2, drum := u.drum, u := ctxKey u, flag := f.auxN }
      exec (.rdisp u f) s = .next (((((b.1.advance a.2).advance b.2).setKit u.kit
        (fun x => { x with presented := x.presented ++ [tok], nextTok := x.nextTok + 1 })).flagUp u f.auxN).done u)) ∧
    (f.zeroBut false false false false true false false false false = true → f.D < 16 →
      ∀ (q : InboxRec) (rest : List InboxRec), (t.drum u.kit u.drum).inbox = q :: rest →
      let stream := !nmem (t.drum u.kit u.drum).flagSet q.df
      let canc := q.word.testBit 63 && nmem (t.drum u.kit u.drum).cancel (bits q.word 62 49)
      let t1 := (t.setDrum u.kit u.drum (fun x => { x with inbox := rest }))
      let t2 := t1.setF F.DRM_INBOX_PENDING u.kit u.drum (t1.f F.DRM_INBOX_PENDING u.kit u.drum - 1)
      let t3 := if stream then t2.count F.KIT_ROUTER_STREAM_COUNT u.kit 0 1 else t2
      let t4 := if stream && !(t3.kit u.kit).streamLogged then
          (t3.log (srcKit u.kit) Ev.EXPERT_STREAM [q.expert, q.layer] (some p)
            (some (unitDrum u.kit u.drum))).setKit u.kit (fun x => { x with streamLogged := true }) else t3
      exec (.rrecv u f) s = .next ((t4.putS u f.D (BitVec.ofNat 64
        (2 ^ 63 * b2n stream + 2 ^ 62 * b2n canc + 2 ^ 59 * q.rank + 2 ^ 50 * q.expert + q.off)) false).done u)) ∧
    (f.zeroBut false false false true true true true true true = true → f.D < 16 → f.A < 16 → f.B < 16 → f.C < 16 →
      1 ≤ f.immN → f.immN ≤ 64 →
      let n := t.slotArg u f.A
      let sel := t.sv u f.C
      let len := selLen sel (t.kvEB n)
      noFault ([when ((t.X u f.D).p || t.sp u f.A || t.sp u f.B || t.sp u f.C) 3,
        t.accessFault (t.actor u) (t.xSpan u f.D) (t.xOff u f.D : Int) (f.immN * len) 64 rWrite,
        when (!t.selOk n sel false) 8 sel, when (decide (t.kvCT n < t.sv u f.B + f.immN)) 8 (t.sv u f.B)] ++ t.kvConds u f.A false 0) = true →
      t.flagFull u f.auxN = false →
      let q := (List.range f.immN).foldl (fun (q : State × List Host.Cell × NSet) i =>
        let r := q.1.kvRead u n sel (t.sv u f.B + i)
        (r.1, cellsWrite q.2.1 (i * len) len r.2.v, ninsMask q.2.2 (i * len / 32) r.2.p (granules 0 len))) (t, [], [])
      let dst := t.spanPieces (t.actor u) (t.xSpan u f.D) (t.xOff u f.D) (f.immN * len)
      let c := (q.1.presentHbm (ctxStream u) (q.1.nextXfer + 1) p false (t.kvRanges u n sel (t.sv u f.B) f.immN)).flushPieces u dst
      let r := c.newXfer { kind := .kvrd (ctxKey u) f.auxN, part := c.partOf u, unit := unit, dst := dst, len := f.immN * len,
                           span := c.xSpan u f.D, off := c.xOff u f.D, buf := q.2.1, bufP := q.2.2, stream := ctxStream u }
      exec (.kvrd u f) s = .next (((r.1.flagUp u f.auxN).advance r.2).done u)) ∧
    (f.zeroBut false false false true true true true true false = true → f.D < 16 → f.A < 16 → f.B < 16 → f.C < 16 →
      let n := t.slotArg u f.A
      let pos := t.sv u f.B
      let sel := t.sv u f.C
      noFault ([when ((t.X u f.D).p || t.sp u f.A || t.sp u f.B || t.sp u f.C) 3,
        t.accessFault (t.actor u) (t.xSpan u f.D) (t.xOff u f.D : Int) (t.kvEB n) 64 rRead, when (!t.selOk n sel true) 8 sel,
        when (decide (pos < t.kvCommitted n) || decide (t.kvL n ≤ pos)) 8 pos] ++ t.kvConds u f.A true (selLayer sel)) = true →
      t.flagFull u f.auxN = false →
      let src := t.spanPieces (t.actor u) (t.xSpan u f.D) (t.xOff u f.D) (t.kvEB n)
      let r := (t.flushPieces u src).newXfer
        { kind := .kvapp (ctxKey u) f.auxN n sel pos, part := p, unit := unit, src := src, len := t.kvEB n, span := t.xSpan u f.D,
          off := t.xOff u f.D, stream := ctxStream u }
      exec (.kvapp u f) s = .next (((r.1.flagUp u f.auxN).launch r.2 (some (u.kit, u.drum))).done u)) ∧
    (f.zeroBut false false false false true true true false false = true → f.A < 16 → f.B < 16 → t.sp u f.A = false → t.sp u f.B = false →
      t.sv u f.A + 16 ≤ 2 ^ 24 → t.ownsSlot p (t.slotArg u f.B) = true → t.tilePending u f.D = false →
      t.owes (ctxStream u) = false →
      let n := t.slotArg u f.B
      let q := (List.range 16).foldl (fun (q : State × List (Nat × VFlags × Bool)) i =>
        let r := q.1.tallyFind (t.actor u) rRead n (t.sv u f.A + i)
        let c := r.2.found.elim 0 (fun q => q.2 % 2 ^ 16)
        let x := penalise ((t.tile u f.D).field (32 * i) 32) c (t.slotW n 8 / 2 ^ 32) (t.slotW n 8 % 2 ^ 32) (t.slotW n 9 / 2 ^ 32)
        (r.1, q.2 ++ [(x.1, x.2, r.2.poison)])) (t, [])
      let out := (List.range 16).foldl (fun d i => d + (q.2.getD i (0, {}, false)).1 * 2 ^ (32 * i)) 0
      let bad := fun (h : Nat) => (List.range 8).any (fun i => (q.2.getD (8 * h + i) (0, {}, false)).2.2)
      let fl := q.2.foldl (fun x y => x.or y.2.1) ({} : VFlags)
      exec (.tpen u f) s = .next (((q.1.putTile u f.D out ((t.tile u f.D).pLo || bad 0) ((t.tile u f.D).pHi || bad 1)).setFlags u
        false false fl.cnv fl.inv).done u)) ∧
    (f.zeroBut false false true false true true true false true = true → f.D < 16 → f.B < 16 → 1 ≤ f.immN → f.immN ≤ 64 →
      (t.X u f.D).p = false → t.sp u f.B = false →
      t.accessFault (t.actor u) (t.xSpan u f.D) (t.xOff u f.D : Int) (8 * f.immN) 8 rWrite = none → t.tilePending u f.A = false →
      t.maskE u f % 2 ^ 16 ≠ 0 → t.loadsNow u (t.topkPieces u f) = true →
      exec (.topk u f) s = .next ((t.loaded u (t.topkPieces u f)).1.finishTopk u f (t.firstTurn u f f.A 0)
        (t.loaded u (t.topkPieces u f)).2)) ∧
    (f.zeroBut false true false false false true true false false = true → f.A < 16 → f.B < 16 → f.modN < 2 → t.sp u f.A = false →
      t.sp u f.B = false → t.sv u f.B < 2 ^ 24 → (f.modN = 1 → t.kvShadow (t.slotArg u f.A) < 64) →
      t.ownsSlot p (t.slotArg u f.A) = true → (f.modN = 0 → t.owes (ctxStream u) = false) →
      let n := t.slotArg u f.A
      let x := t.stepItem p (pairHash (2 ^ 32 * n + t.sv u f.B) 0 0 0 0)
      exec (.tinc u f) s = .next ((if f.modN = 1 then x.shadowPush n (x.sv u f.B) else x.tallyInc (x.actor u) n (x.sv u f.B)).done u))

/-- RETRY, SKIP, RESUME_AT and HALT act on a faulted context of a running step, and on no other. (03_zmi_instruction_set.md,
04_execution_and_timing.md) -/
def Obligations.ContextActionsComplete : Prop :=
  ∀ (s : State) (k n : Nat) (w : Word),
    let u : CtxId := ⟨k, s.phys k n, F.DRM_CTX_CONTROL_MALLET.of w, F.DRM_CTX_CONTROL_CTX.of w⟩
    let act := F.DRM_CTX_CONTROL_ACTION.of w
    let may := s.fb F.HUB_STATUS_READY 0 0 = true ∧ s.kitLive k = true ∧ n < 150 ∧
      (∃ p, s.partOfKit k = some p ∧ s.stepState p = stRunning) ∧ 1 ≤ (s.ctx u).fault ∧ (s.ctx u).fault ≤ 15 ∧ (s.ctx u).halted = false
    (may → act = 1 → exec (.retry k n w) s = .next (s.setCtx u (fun c => { c with fault := 0, stopped := false }))) ∧
    (may → act = 2 → exec (.skip k n w) s = .next (s.setCtx u (fun c => { c with fault := 0, stopped := false, pc := c.pc + 8 }))) ∧
    (may → act = 3 → exec (.resumeAt k n w) s = .next (s.setCtx u (fun c =>
      { c with fault := 0, stopped := false, pc := BitVec.ofNat 32 (F.DRM_CTX_CONTROL_PC.of w) }))) ∧
    (may → act = 4 → exec (.halt k n w) s = .next (s.setCtx u (fun c => { c with halted := true }))) ∧
    (¬ may → exec (.retry k n w) s = .next s ∧ exec (.skip k n w) s = .next s ∧ exec (.resumeAt k n w) s = .next s ∧
      exec (.halt k n w) s = .next s)

/-- STEP_SUBMIT, STEP_START, DRUM_STEP_START, DRUM_REBIND_DONE, DRUM_DONE, STEP_DONE, STEP_DEADLINE_MISSED and STEP_WATCHDOG complete.
(04_execution_and_timing.md, 07_serving_engine.md) -/
def Obligations.StepCommandsComplete : Prop :=
  (∀ (s : State) (p : Nat) (w : Word), p < 8 → s.fb F.HUB_STATUS_READY 0 0 = true → s.fb F.SRV_STEP_SUBMIT_PENDING p 0 = false →
    F.SRV_STEP_SUBMIT_COUNT.of w ≤ 4096 → bits w.toNat 30 1 = 0 →
    exec (.stepSubmit p w) s = .next (((s.forward 0 .SRV_STEP_SUBMIT p 0 w).setF F.SRV_STEP_SUBMIT_PENDING p 0 1).setPart p
      (fun x => { x with submitted := some (F.SRV_STEP_SUBMIT_LIST.of w * 64, F.SRV_STEP_SUBMIT_COUNT.of w) }))) ∧
  (∀ (s : State) (p : Nat), p < 8 → s.startable p = true → s.phase p = phNone → exec (.stepStart p) s = .next (s.beginStep p)) ∧
  (∀ (s : State) (p : Nat), p < 8 → s.startable p = true → s.phase p = phWaiting →
    exec (.stepStart p) s = .next (((s.beginStep p).setPre p (fun x => { x with boundary := true })).settleBoundary p)) ∧
  (∀ (s : State) (k d : Nat), s.kitLive k = true → d < 156 → (s.drum k d).kicked = true →
    s.stepState ((s.partOfKit k).getD 0) = stRunning → ((s.drum k d).calibrating && (s.drum k d).forcedCalib) = false →
    s.mustForce k d = false → (s.drum k d).rebindFrom = 0 → s.checkHolds k d = false → s.halted = false →
    exec (.drumStepStart k d) s = .next (((s.abandonDrum k d).latchDrum k d).settleBoundary ((s.partOfKit k).getD 0))) ∧
  (∀ (s : State) (k n : Nat), s.kitLive k = true → n < 150 → (s.drum k (s.phys k n)).rebindFrom ≠ 0 →
    (s.drum k (s.phys k n)).calibrating = false →
    exec (.drumRebindDone k n) s = .next
      (if (s.drum k (s.phys k n)).kicked && decide ((s.finishRebind k n).stepState ((s.partOfKit k).getD 0) = stRunning) &&
          !(s.finishRebind k n).mustForce k (s.phys k n)
        then (s.finishRebind k n).latchDrum k (s.phys k n) else s.finishRebind k n)) ∧
  (∀ (s : State) (k d : Nat), s.kitLive k = true → (s.drum k d).inStep = true →
    (s.stepState ((s.partOfKit k).getD 0) = stRunning ∨ s.stepState ((s.partOfKit k).getD 0) = stStopping) →
    (s.part ((s.partOfKit k).getD 0)).pre.boundary = false → s.drumIsDone k d = true →
    ∃ t, exec (.drumDone k d) s = .next t ∧ (t.drum k d).inStep = false ∧
      let r := (t.part ((s.partOfKit k).getD 0)).run
      let b := s.flushMerge k d (fun _ => true)
      b.time - (b.part ((s.partOfKit k).getD 0)).run.startAt ≤ r.slowNs) ∧
  (∀ (s : State) (p : Nat), p < 8 → (s.stepState p = stRunning ∨ s.stepState p = stStopping) → s.notDone p = [] →
    let n := (s.part p).run.s15
    let a := hubBase + s.f F.SRV_STEP_RING_BASE p 0 * 64 + 64 * (n % 2 ^ s.f F.SRV_STEP_RING_LOG2 p 0)
    exec (.stepDone p) s = .next ((((s.writeAll (unitHub 1) a 64 { v := s.completionRecord p, p := 0 }).setStep p stIdle).setF
      F.PAR_STEP_DEADLINE_D_NS p 0 0).pairStepDone p)) ∧
  (∀ (s : State) (p : Nat), p < 8 → s.stepState p = stRunning → s.fb F.PAR_CONFIG_MODE p 0 = false →
    F.PAR_STEP_WATCHDOG_DEADLINE_EN.of (s.part p).watchdog ≠ 0 → (s.part p).run.missed = false →
    s.f F.PAR_STEP_DEADLINE_D_NS p 0 ≤ (s.part p).residentNs →
    ∃ t, exec (.stepDeadlineMissed p) s = .next t ∧ t.f F.PAR_STEP_STATUS_DEADLINE_MISSED p 0 = 1 ∧ (t.part p).run.missed = true) ∧
  (∀ (s : State) (p : Nat), p < 8 → s.stepState p = stRunning → F.PAR_STEP_WATCHDOG_WATCHDOG_EN.of (s.part p).watchdog ≠ 0 →
    s.watchdogDue p = true → s.notDone p ≠ [] →
    let a := ((((s.log (srcHub 1) Ev.STEP_WATCHDOG (s.watchdogItems p) (some p)).stopAll p).setStep p stStopping).setF
      F.PAR_STEP_STATUS_WATCHDOG_FIRED p 0 1).setPart p (fun x => { x with run := { x.run with fired := true } })
    let m : CompareMsg := { kind := 4, part := p, step := (s.part p).run.s15, hash := mget 0 a.pair.stepHash p }
    exec (.stepWatchdog p) s = .next
      (if a.compares p then ({ a with pair := { a.pair with sent := a.pair.sent ++ [m] } } : State).diverge m else a))

/-- The prefetch sequencer's entries, its list start and its transfers complete as Table 4.8 says. (04_execution_and_timing.md) -/
def Obligations.PrefetchCommandsComplete : Prop :=
  (∀ (s : State) (k d : Nat), s.pfRuns k d = true → (s.drum k d).pf.pos + 32 ≤ 0x600000 → (s.pfEntry k d).2.p = 0 →
    let t := (s.pfEntry k d).1
    let v := (s.pfEntry k d).2.v
    let a := drumActor ((t.partOfKit k).getD 0) k d
    let n := entArg v
    let dn := entDstSpan v
    let window := decide (t.spanKind ((t.partOfKit k).getD 0) dn = 1) &&
      decide (t.spanBase ((t.partOfKit k).getD 0) dn % 0x1000000 = 0x800000)
    (bits v 63 60 = 1 →
      entFault [t.accessFault a (entSrcSpan v) (entSrc v : Int) n 64 rRead, t.accessFault a dn (entDst v : Int) n 64 rWrite,
        when (decide (n < 64) || decide (0x1000000 < n) || decide (n % 64 ≠ 0)) 8] = none → (t.drum k d).pf.inFlight < 16 →
      exec (.prefetchCopy k d) s = .next (t.pfIssue k d v n (t.spanPieces a dn (entDst v) n))) ∧
    (bits v 63 60 = 5 →
      entFault [t.accessFault a (entSrcSpan v) (entSrc v : Int) n 64 rRead, t.accessFault a dn (entDst v : Int) (n / 256) 64 rWrite,
        t.accessFault a dn (255 * 0x4000 + entDst v : Int) (n / 256) 64 rWrite, when (!window) 5,
        when (decide (0x4000 < entDst v + n / 256)) 7, when (decide (n = 0) || decide (n % 16384 ≠ 0)) 8] = none →
      (t.drum k d).pf.inFlight < 16 →
      exec (.prefetchScatter k d) s = .next (t.pfIssue k d v n ((List.range 256).map (fun m =>
        (m * (n / 256), ({ addr := slotAddr k d (0x800000 + 0x4000 * m + entDst v), len := n / 256 } : Piece)))))) ∧
    (bits v 63 60 = 2 → (t.drum k d).flagCnt.any (fun q => n.testBit q.1) = false →
      exec (.prefetchClear k d) s = .next
        ((t.setDrum k d (fun x => { x with flagSet := x.flagSet.filter (fun f => !n.testBit f) })).pfNext k d)) ∧
    (bits v 63 60 = 3 → entFault [t.accessFault a (entSrcSpan v) (entSrc v : Int) 8 8 rRead] = none →
      ∀ (ps : List (Nat × Piece)), t.spanPieces a (entSrcSpan v) (entSrc v) 8 = ps → a.readsNow ps = true →
      let r := t.readMem (unitDrum k d) ((ps.headD (0, {})).2.addr) 8
      r.2.p = 0 → n ≤ r.2.v → exec (.prefetchWaitw k d) s = .next (r.1.pfNext k d)) ∧
    (bits v 63 60 = 3 → entFault [t.accessFault a (entSrcSpan v) (entSrc v : Int) 8 8 rRead] = none →
      a.readsNow (t.spanPieces a (entSrcSpan v) (entSrc v) 8) = false → (t.drum k d).pf.poll ≠ 0 →
      let b := t.advance ((t.drum k d).pf.poll - 1)
      let x := (b.drum k d).pf.poll - 1
      b.finishable x = true → (b.xfer x).data.p = 0 → n ≤ (b.xfer x).data.v →
      exec (.prefetchWaitw k d) s = .next ((b.endXfer x).pfNext k d)) ∧
    (bits v 63 60 = 4 →
      exec (.prefetchEnd k d) s = .next (t.setDrum k d (fun x => { x with pf := { x.pf with st := .ended } })))) ∧
  (∀ (s : State) (k d : Nat), (s.drum k d).pf.held ≠ 0 → (s.drum k d).pf.st = .ended →
    exec (.prefetchListStart k d) s = .next (s.setDrum k d (fun x =>
      { x with pf := { x.pf with st := .running, pos := (s.drum k d).pf.held - 1, held := 0 } }))) ∧
  (∀ (s : State) (x dk df : Nat), (s.xfer x).kind = .prefetch dk df → (s.advance x).finishable x = true →
    exec (.prefetchTransferDone x) s = .next ((s.advance x).finishPrefetch x ((s.advance x).xfer x).data))

/-- LATE_PREFETCH, CALIB_START, CALIB_COMPLETE and TEMPO_CALIB_FORCED complete with their counters, flags and events. (01_architecture.md,
04_execution_and_timing.md) -/
def Obligations.CalibrationAndLateWaitsComplete : Prop :=
  (∀ (s : State) (u : CtxId) (turns df : Nat), (s.ctx u).wait = .drumFlag df →
    (nmem (s.drum u.kit u.drum).flagSet df = true → exec (.latePrefetch u turns) s = .next s) ∧
    (nmem (s.drum u.kit u.drum).flagSet df = false →
      let t := (s.ctx u).lateTurns + turns
      let a := ((s.setCtx u (fun c => { c with lateTurns := t })).setDrum u.kit u.drum
        (fun x => { x with lateTurns := x.lateTurns + turns })).count F.DRM_LATE_STALL_STALL_TURNS u.kit u.drum turns
      ((t ≤ a.f F.DRM_LATE_THRESH_THRESH u.kit u.drum ∨ (s.drum u.kit u.drum).lateLogged = true) → exec (.latePrefetch u turns) s = .next a) ∧
      (a.f F.DRM_LATE_THRESH_THRESH u.kit u.drum < t → (s.drum u.kit u.drum).lateLogged = false →
        ∃ r, exec (.latePrefetch u turns) s = .next r ∧ (r.drum u.kit u.drum).lateLogged = true ∧ (r.ctx u).lateTurns = t))) ∧
  (∀ (s : State) (k d : Nat), s.kitLive k = true → d < 156 → (s.drum k d).calibrating = false → 10000 ≤ s.calibAge k d → s.idleGap k d = true →
    exec (.calibStart k d) s = .next (s.setDrum k d (fun x => { x with calibrating := true }))) ∧
  (∀ (s : State) (k d ratio : Nat), (s.drum k d).calibrating = true →
    let a := ((s.setDrum k d (fun x => { x with calibrating := false, forcedCalib := false, calibAt := s.time,
                                                  skewed := x.skewed || ratioBad ratio })).setF
      F.DRM_CALIB_RATIO k d ratio).setF F.DRM_CALIB_DONE k d 1
    let b := if a.isTrimSource k d then a.setKit k (fun x => { x with trimmed := true }) else a
    exec (.calibComplete k d ratio) s = .next (if 0x7EB8 ≤ ratio ∧ ratio ≤ 0x8148 then b else
      (((b.setF F.DRM_CALIB_MISMATCH k d 1).log (srcKit k) Ev.CALIB_MISMATCH [ratio] none (some (unitDrum k d))).observe (unitDrum k d) 4))) ∧
  (∀ (s : State) (k d : Nat), s.kitLive k = true → s.mustForce k d = true →
    let p := (s.partOfKit k).getD 0
    let a := (s.setDrum k d (fun x => { x with calibrating := true, forcedCalib := true })).setKit k (fun x => { x with forcedCalib := true })
    exec (.tempoCalibForced k d) s = .next ((((((a.extendD p 22000).setF F.PAR_STEP_STATUS_CALIB_FORCED p 0 1).setPart p
      (fun x => { x with run := { x.run with calibForced := true } })).count F.DRM_CALIB_FORCED k d 1).log (srcKit k) Ev.TEMPO_CALIB_FORCED []
        (some p) (some (unitDrum k d)))))

/-- RESERVE, ADMIT, COMMIT, HANDOFF, FLUSH, RELEASE and FORCE_FREE of KV regions complete with the effects of Table 6.7 and answer code 0.
(06_attention_and_kv.md) -/
def Obligations.KvCommandsComplete : Prop :=
  ∀ (s : State) (c : Nat) (w : Word), c < 8 → s.canWrite c = true →
    let n := kvSlot w.toNat
    let x := s.forward c .SRV_KV_CMD c 0 w
    let a := x.setF F.SRV_KV_RESULT_DONE c 0 0
    let p := a.kvHolder w.toNat
    let b := (a.hubRead 1 (kvAddr n) 64).1
    x.f F.SRV_KV_RESULT_DONE c 0 ≠ 0 → (kvOp w.toNat = 4 → bit w.toNat 42 = false) → a.stepState p = stIdle →
    a.kv.held.any (fun h => decide (h.part = p)) = false → (a.hubRead 1 (kvAddr n) 64).2.p = 0 →
    (kvOp w.toNat = 1 → a.kvState n = kvFree →
      let sp := b.kvSpan n
      let size := b.kvCT n * b.kvLayers n * 2 * b.kvEB n
      let act := deviceActor (kvCmdPart w.toNat) (unitHub 1)
      let addr := b.spanAddr act sp (b.kvBase n)
      kvArg w.toNat ≤ b.kvCT n → b.kvBase n % 4096 = 0 → b.spanCheck act sp (b.kvBase n : Int) size (rRead + rWrite) = none →
      b.spanKind (kvCmdPart w.toNat) sp = 0 → b.kvOwner n * hbmKit ≤ addr → addr + size ≤ (b.kvOwner n + 1) * hbmKit →
      let st := if bit w.toNat 37 then kvReceiving else kvActive
      let t := b.putKvW n 0 (setBits (setBits (setBits (b.kvW n 0) 37 3 (kvCmdPart w.toNat)) 62 2 st) 0 32 (kvArg w.toNat))
      exec (.kvReserve c w) s = .next ((((t.putKvW n 1 0).putKvW n 5 0).setKv
        (fun k => { k with counted := mput 0 k.counted n 0, receivers := ndel k.receivers n })).kvAnswer c 0)) ∧
    (b.kvPart n = kvCmdPart w.toNat → a.kvState n = kvActive →
      (kvOp w.toNat = 2 → b.kvCommitted n + kvArg w.toNat ≤ b.kvCT n →
        exec (.kvAdmit c w) s = .next (((b.putKvW n 1 (setBits (setBits (b.kvW n 1) 32 32 (kvArg w.toNat)) 24 8 0)).dropStaged
          (b.kvOwner n) n (b.kvCommitted n + kvArg w.toNat)).kvAnswer c 0)) ∧
      (kvOp w.toNat = 3 → bits w.toNat 24 0 ≤ b.kvAdmitted n → bits w.toNat 31 25 ≤ b.kvShadow n →
        exec (.kvCommit c w) s = .next ((b.kvCommit n (bits w.toNat 24 0) (bits w.toNat 31 25)).kvAnswer c 0)) ∧
      (kvOp w.toNat = 4 → kvArg w.toNat = b.kvHanded n → b.kvHanded n < b.kvLayers n →
        b.kv.hands.any (fun h => decide (h.slot = n) && decide (h.layer = kvArg w.toNat)) = false →
        exec (.kvHandoff c w) s = .next ((b.kvHandoff n (kvArg w.toNat)).kvAnswer c 0)) ∧
      (kvOp w.toNat = 5 → exec (.kvFlush c w) s = .next ((b.flushPages (b.kvOwner n) F.KIT_KV_FLUSH_OTHER_COUNT
        (fun q => q.live && decide (q.slot = n))).kvAnswer c 0))) ∧
    (kvOp w.toNat = 6 → b.kvPart n = kvCmdPart w.toNat → (a.kvState n = kvActive ∨ a.kvState n = kvReceiving) →
      exec (.kvRelease c w) s = .next ((b.kvRelease n).kvAnswer c 0)) ∧
    (kvOp w.toNat = 7 → b.kvPart n = kvCmdPart w.toNat → a.kvState n ≠ kvFree →
      exec (.kvForceFree c w) s = .next ((b.kvForceFree n).kvAnswer c 0))

/-- The held, armed, flush, handoff and drain events and the writes of KV tables complete as chapter 6 says. (06_attention_and_kv.md) -/
def Obligations.KvEventsComplete : Prop :=
  (∀ (s : State) (p : Nat) (h : KvWait), s.kv.held.find? (fun h => decide (h.part = p)) = some h → s.stepState p = stIdle →
    let t := s.setKv (fun k => { k with held := k.held.erase h })
    exec (.kvHeldApply p) s = .next ((t.kvApply h.word).1.kvAnswer h.core (t.kvApply h.word).2)) ∧
  (∀ (s : State) (p l : Nat) (h : KvWait),
    s.kv.armed.find? (fun h => decide (h.part = p) && decide (bits h.word 41 38 = l) && decide (h.sounds < s.sounds p l)) = some h →
    let t := s.setKv (fun k => { k with armed := k.armed.erase h })
    exec (.kvArmedHandoffApply p l) s = .next ((t.kvApply h.word).1.kvAnswer h.core (t.kvApply h.word).2)) ∧
  (∀ (s : State) (i slot word : Nat) (w : Word), s.canWrite i = true → slot < 2 ^ 14 → word < 5 → s.kvState slot = kvFree →
    exec (.kvTableWrite i slot word w) s = .next (s.putKvW slot word (if word = 0 then setBits w.toNat 62 2 0 else w.toNat))) ∧
  (∀ (s : State) (i k : Nat) (w : Word), s.canWrite i = true → s.kitLive k = true → (s.kit k).pages = [] →
    let t := s.setRg .KIT_KV_STAGE k 0 (writeFields (RegName.KIT_KV_STAGE).fields (s.rg .KIT_KV_STAGE k 0) w)
    exec (.kvStageWrite i k w) s = .next
      (if stageInvalid (t.rg .KIT_KV_STAGE k 0) then t.log (srcKit k) Ev.KV_STAGE_INVALID [] (t.partOfKit k) else t)) ∧
  (∀ (s : State) (k g : Nat), (s.page k g).live = true → (s.page k g).flush = true → s.owes (kvStream k) = false →
    s.boot.refclkLost = false → ∃ t, exec (.kvPageFlushDone k g) s = .next t ∧ t.page k g = {}) ∧
  (∀ (s : State) (slot layer : Nat) (h h' : KvHand),
    s.kv.hands.find? (fun h => decide (h.slot = slot) && decide (h.layer = layer)) = some h → h.submitted = false →
    (s.kit (s.kvOwner slot)).pages.any (fun q => q.2.live && decide (q.2.slot = slot) && decide (q.2.layer = layer)) = false →
    let t := State.handSubmit 1024 s slot layer h.sent
    t.kv.hands.find? (fun h => decide (h.slot = slot) && decide (h.layer = layer)) = some h' → h'.submitted = true →
    exec (.kvHandoffSubmit slot layer) s = .next ((t.putKvW slot 1 (setBits (t.kvW slot 1) 0 9 (t.kvHanded slot + 1))).setKv
      (fun q => { q with hands := q.hands.filter (fun h => !(h.submitted && h.failed && decide (h.left = 0))) }))) ∧
  (∀ (s : State) (slot layer : Nat) (h : KvHand),
    s.kv.hands.find? (fun h => decide (h.slot = slot) && decide (h.layer = layer)) = some h → h.submitted = true → h.left = 0 →
    h.failed = false → s.canIssue (s.kvPart slot) (s.kvDstWord slot) 8 = true →
    let closes := s.kv.closes.map (fun c => if c.slot = slot then { c with left := c.left - 1 } else c)
    let t := s.setKv (fun k => { k with hands := k.hands.erase h, counted := mupd 0 k.counted slot (· + 1), closes := closes })
    exec (.kvHandoffLayerDone slot layer) s = .next (t.issue (s.kvPart slot)
      (some (t.f F.MEM_PART_CHARGE_SUBSCRIBER (s.kvPart slot) 0)) (.handoff slot layer) none 1
      { op := opAtomic, size := 1, addr := s.kvDstWord slot, payload := 1 })) ∧
  (∀ (s : State) (slot : Nat) (c : KvClose), s.kv.closes.find? (fun c => decide (c.slot = slot)) = some c → s.kvHanding slot = false →
    let t := s.setKv (fun k => { k with closes := k.closes.erase c })
    (c.left = 0 → exec (.kvHandoffClose slot) s = .next t) ∧
    (c.left ≠ 0 → s.canIssue c.part c.addr 8 = true →
      exec (.kvHandoffClose slot) s = .next (t.issue c.part (some (t.f F.MEM_PART_CHARGE_SUBSCRIBER c.part 0)) (.closed slot) none 1
        { op := opAtomic, size := 1, addr := c.addr, payload := 2 ^ 32 }))) ∧
  (∀ (s : State) (slot : Nat), slot < 2 ^ 14 → s.kvState slot = kvDraining →
    (s.kit (s.kvOwner slot)).pages.any (fun q => q.2.live && decide (q.2.slot = slot)) = false → s.kvHanding slot = false →
    (nmem s.kv.receivers slot = true → s.kvLayersIn slot = s.kvLayers slot ∨ s.kvClosed slot ≠ 0) →
    exec (.kvDrainDone slot) s = .next ((s.setKv (fun k =>
      { k with receivers := ndel k.receivers slot,
               closes := k.closes.filter (fun c => !(decide (c.slot = slot) && decide (c.left = 0))) })).setKvState slot kvFree))

/-- The router's tokens, records and directory, the ring registers and doorbells, and the tree configuration complete.
(05_conditional_computation.md, 06_attention_and_kv.md, 18_host_port_and_control_map.md) -/
def Obligations.RouterAndRingCommandsComplete : Prop :=
  (∀ (s : State) (k : Nat) (t : RouteTok) (rest : List RouteTok), (s.kit k).presented = t :: rest → (s.kit k).taken.length < 64 →
    s.finishable t.scores = true → s.finishable t.act = true →
    (s.tokCancelled k t = true → exec (.routerTakeToken k) s = .next
      (((((s.endXfer t.scores).endXfer t.act).flagDown (ctxOfKey t.u) t.flag).setKit k (fun x => { x with presented := rest })).count
        F.KIT_ROUTER_CANCELLED_COUNT k 0 1)) ∧
    (s.tokCancelled k t = false →
      let all := fun (q : Piece) => !q.rem
      let a := (s.gather t.scores (some (k, t.drum)) all).gather t.act (some (k, t.drum)) all
      let sc := (a.xfer t.scores).data
      let score := fun i => sc.v / 2 ^ (32 * i) % 2 ^ 32
      let sel := topExperts (fun i => scoreKey (score i)) t.e t.k
      let gates := gateWeights (decide (a.rtr k F.KIT_ROUTER_CONFIG_GATE = 1)) (sel.map score)
      let b := (((a.endXfer t.scores).endXfer t.act).flagDown (ctxOfKey t.u) t.flag).setKit k (fun x => { x with presented := rest })
      let c := if gates.any isNaN32 then b.count F.KIT_ROUTER_GATE_NAN_COUNT k 0 1 else b
      exec (.routerTakeToken k) s = .next (c.setKit k (fun x => { x with taken := x.taken ++
        [{ tok := t, sel := sel.zip gates, hdrPoison := decide (sc.p ≠ 0), actV := (a.xfer t.act).data.v, actP := (a.xfer t.act).data.p,
           step := (c.rg .PAR_STEP_SEQ (c.partOf (ctxOfKey t.u)) 0).toNat }] })))) ∧
  (∀ (s : State) (k : Nat) (x : RouteTaken) (rest : List RouteTaken), (s.kit k).taken = x :: rest →
    (x.sel.filter (fun q => decide (bits (s.dirWord k x.tok.layer q.1 0) 63 62 = 3) && !dirUnmapped k (s.dirWord k x.tok.layer q.1 0) &&
      decide (s.rtr k F.KIT_ROUTER_CONFIG_ENABLE ≠ 0))).any
      (fun q => !s.canIssue (s.partOf (ctxOfKey x.tok.u)) (bits (s.dirWord k x.tok.layer q.1 0) 31 16 * 2 ^ 48) (64 + s.actBytes k)) = false →
    exec (.routerDispatch k) s = .next ((List.range x.sel.length).foldl
      (fun s i => s.sendRecord k x i (x.sel.getD i (0, 0)).1 (x.sel.getD i (0, 0)).2) (s.setKit k (fun q => { q with taken := rest })))) ∧
  (∀ (s : State) (k d r : Nat) (q : RouteRec) (rest : List RouteRec), (s.kit r).records = q :: rest →
    (List.range 8).find? (fun r => (s.kit r).records.head?.elim false (fun q => decide (q.kit = k ∧ q.drum = d))) = some r →
    (s.drum k d).inboxEn = true → s.actBytes k + 64 = q.len →
    let rel := s.readMem (unitDrum k d) (slotAddr k d (s.drum k d).inboxBase) 8
    let n := (s.drum k d).inboxHead
    rel.2.p = 0 → (n + 2 ^ 64 - rel.2.v) % 2 ^ 64 < 2 ^ (s.drum k d).inboxLog →
    let off := (s.drum k d).inboxBase + 64 + n % 2 ^ (s.drum k d).inboxLog * q.len
    let a := (rel.1.writeAll (unitDrum k d) (slotAddr k d off) q.len { v := q.v, p := q.p }).setDrum k d
      (fun x => { x with inboxHead := (n + 1) % 2 ^ 64, inbox := x.inbox ++ [{ q.entry with off := off }] })
    exec (.inboxRecordWritten k d) s = .next (((a.setF F.DRM_INBOX_PENDING k d (a.f F.DRM_INBOX_PENDING k d + 1)).setKit r
      (fun x => { x with records := rest })).journalDrum (s.partOf (ctxOfKey q.tok.u)) r q.tok.drum (slotAddr k d off) q.len)) ∧
  (∀ (s : State) (i k e : Nat) (w : Word), RegName.KIT_ROUTER_DIR.has k e = true → s.kitLive k = true → s.canWrite i = true →
    (∀ p, s.partOfKit k = some p → s.stepState p ≠ stRunning ∧ s.stepState p ≠ stStopping) →
    exec (.routerDirWrite i k e w) s = .next (s.setRg .KIT_ROUTER_DIR k e w)) ∧
  (∀ (s : State) (i off r : Nat) (w : Word), ringAt off = some (false, r) → s.canWrite i = true →
    let a := s.forward i (ringCfgReg r) (ringIdx r) 0 w
    let old := a.ringCfg r
    let new := writeFields (ringCfgReg r).fields old w
    new ≠ old → (ringOn old = true → a.ringHead r = a.ringTail r) → (ringOn new = true → ringValid new = true) →
    exec (.ringConfigWrite i off w) s = .next
      (if ringOn new && !ringOn old then (a.setRg (ringCfgReg r) (ringIdx r) 0 new).setRingHead r
        ((a.setRg (ringCfgReg r) (ringIdx r) 0 new).ringTail r)
       else a.setRg (ringCfgReg r) (ringIdx r) 0 new)) ∧
  (∀ (s : State) (i off r : Nat) (w : Word), ringAt off = some (true, r) → s.canWrite i = true →
    let a := s.forward i (ringBellReg r) (ringIdx r) 0 w
    let tail := F.SRV_PW_DOORBELL_TAIL.of w
    let n := (tail + 2 ^ 32 - a.ringHead r) % 2 ^ 32
    n ≤ ringSlots (a.ringCfg r) → a.ringWaiting r ≤ n →
    exec (.ringDoorbell i off w) s = .next (a.setRg (ringBellReg r) (ringIdx r) 0 (F.SRV_PW_DOORBELL_TAIL.put (a.ringBell r) tail))) ∧
  (∀ (s : State) (i off t : Nat) (r : RegName) (w : Word), treeAt off = some (r, t) → s.canWrite i = true → s.treeBusy t = false →
    exec (.treeConfigWrite i off w) s = .next (s.setRg r t 0 (writeFields r.fields (s.rg r t 0) w)))

/-- LOOKUP, INSERT, DELETE, COMMIT, UNLINK and RELEASE of a prefix tree complete with the results of Table 6.9. (06_attention_and_kv.md) -/
def Obligations.PrefixTreeOperationsComplete : Prop :=
  ∀ (s : State) (w v : Nat), w < 4 → s.fb F.HUB_STATUS_READY 0 0 = true → s.owes (walkerStream w) = false → s.boot.refclkLost = false →
    let fr := (s.pwSettle w).ringFront w
    fr.2 = some v → (fr.1.ringJob w).begun = false → pwBadOp v = false →
    let a := fr.1.beginJob w
    let t := pwTree v
    let act := pwActor w v
    fr.1.treeOn t w = true → fr.1.pwSpanBad v = false →
    (pwOp v = 1 → (a.ringJob w).snap = 0 → ∀ d : Data,
      let g := if wordOf v 4 = 0 then a.treeGen t else wordOf v 4
      let q := ((a.treeReg t g true).useSnap w g true).fetchVia w act (wordOf v 1) (256 * pwCount v)
      g ≤ a.treeGen t → a.treeGen t ≤ g + 63 → q.2 = some d →
      let sh := xwOff (wordOf v 1) % 32
      let tok := fun b => (d.v / 256 ^ (256 * b) % 2 ^ 2048,
        (List.range 9).any (fun i => d.p.testBit ((sh + 256 * b) / 32 + i) && decide (32 * i < sh + 256 * b % 32 + 256)))
      let r := q.1.pwWalk act t g (pwService v) tok (wordOf v 1 % 2 ^ 46) (pwCount v) ((q.1.rg .SRV_TREE_SALT t 0).toNat ^^^ pwService v)
      r.2.bad = none →
      exec (.pwLookup w) s = .next ((r.2.hits.foldl (fun s m =>
          (s.treeWrite act (s.nodeAddr t m.1 + 40) 4 (min (ndHits m.2 + 1) (2 ^ 32 - 1))).treeWrite act (s.nodeAddr t m.1 + 48) 8 s.time)
        r.1).pwComplete w v 0 r.2.hits.length g (r.2.hits.map (fun m => (m.1, ndKv m.2))))) ∧
    (pwOp v = 2 → ∀ d : Data,
      let g := a.treeGen t + 1
      let q := a.fetchVia w act (wordOf v 1) 256
      wordOf v 5 ≠ 0 → wordOf v 5 < a.treeNodes t → (pwCount v ≠ 0 → pwCount v < a.treeNodes t) → q.2 = some d → d.p = 0 →
      let pr := if pwCount v = 0 then (q.1, ({} : Data)) else q.1.treeRead act (q.1.nodeAddr t (pwCount v)) 256
      pr.2.p = 0 → (pwCount v ≠ 0 → ndVisible pr.2.v g = true) →
      let h := blockHash (if pwCount v = 0 then (pr.1.rg .SRV_TREE_SALT t 0).toNat ^^^ pwService v else ndHash pr.2.v) d.v
      let r := pr.1.bucketFind act t h (fun _ x => decide (ndDelete x = 2 ^ 64 - 1) && decide (ndParent x = pwCount v) &&
        decide (ndService x = pwService v) && ndTokens x d.v)
      exec (.pwInsert w) s = .next (r.1.pwInsertAt w v t (wordOf v 5) (pwCount v) g h d.v r.2)) ∧
    (pwCount v ≠ 0 → pwCount v < a.treeNodes t → (a.treeRead act (a.nodeAddr t (pwCount v)) 256).2.p = 0 →
      let b := (a.treeRead act (a.nodeAddr t (pwCount v)) 256).1
      let x := (a.treeRead act (a.nodeAddr t (pwCount v)) 256).2.v
      (pwOp v = 3 → ndDelete x = 2 ^ 64 - 1 →
        exec (.pwDelete w) s = .next
          ((b.treeWrite act (b.nodeAddr t (pwCount v) + 32) 8 (b.treeGen t + 1)).pwComplete w v 0 0 (b.treeGen t + 1))) ∧
      (pwOp v = 5 → ndDelete x ≠ 2 ^ 64 - 1 → ndDelete x ≤ b.treeGen t → ndDelete x ≤ b.treeOldest t →
        (b.treeRead act (b.bucketAddr t (ndHash x)) 4).2.p = 0 → (b.treeRead act (b.bucketAddr t (ndHash x)) 4).2.v = pwCount v →
        exec (.pwUnlink w) s = .next (((b.treeRead act (b.bucketAddr t (ndHash x)) 4).1.treeWrite act (b.bucketAddr t (ndHash x)) 4
          (ndNext x)).pwComplete w v 0 0 (b.treeGen t)))) ∧
    (pwOp v = 4 → a.treeQ t (a.treeGen t + 1) = 0 →
      exec (.pwCommit w) s = .next (((a.setRg .SRV_TREE_GEN t 0 (BitVec.ofNat 64 (a.treeGen t + 1))).treeRefresh t).pwComplete w v 0 0
        (a.treeGen t + 1))) ∧
    (pwOp v = 6 → wordOf v 4 ≤ a.treeGen t → a.treeGen t ≤ wordOf v 4 + 63 → a.treeQ t (wordOf v 4) ≠ 0 →
      exec (.pwRelease w) s = .next ((a.treeReg t (wordOf v 4) false).pwComplete w v 0 0 0))

/-- SUBMIT, ATTACH, QUERY, CANCEL and NOTICE records of the admission queues complete as chapter 7 says. Which code the LAST field then
reads (4 or 6) is a free value of the model (finish below), so the clause holds for both. (07_serving_engine.md) -/
def Obligations.ServingRequestsComplete : Prop :=
  (∀ (s : State) (p n : Nat) (r : ReqRec) (rest : List ReqRec), s.serve.canQ = [] → s.serve.reqQ = r :: rest → r.part = p →
    let a := s.setServe (fun v => { v with reqQ := v.reqQ.tail })
    let b := a.policeDebit r.sub (r.w 5 / 2 ^ 32)
    (a.admitCode r = 0 → ¬ (b.f F.SRV_SUB_CFG_MAX_SLOTS r.sub 0 ≠ 0 ∧ b.f F.SRV_SUB_CFG_SLOTS r.sub 0 = b.f F.SRV_SUB_CFG_MAX_SLOTS r.sub 0) →
      b.freeSlot r.part = some n → (b.hubRead 1 (reqSlotAddr n) 128).2.p = 0 →
      (r.op ≠ 3 → r.op ≠ 5 → exec (.submit p) s = .next ((b.hubRead 1 (reqSlotAddr n) 128).1.accept r n)) ∧
      (r.op = 3 → exec (.attach p) s = .next ((b.hubRead 1 (reqSlotAddr n) 128).1.accept r n))) ∧
    (r.op = 5 → r.p = 0 → a.foreign (some p) (r.w 1) = false → (a.hubRead 1 (reqSlotAddr (handleSlot (r.w 1))) 128).2.p = 0 →
      let q := (a.hubRead 1 (reqSlotAddr (handleSlot (r.w 1))) 128).1
      q.stale (some p) (r.w 1) = false →
      exec (.query p) s = .next (q.putResult p r.src (r.w 3) 4 (q.slState (handleSlot (r.w 1))) (q.slGenerated (handleSlot (r.w 1)))))) ∧
  (∀ (s : State) (p : Nat) (r : ReqRec) (rest : List ReqRec), s.serve.canQ = r :: rest → r.part = p → r.p = 0 →
    let a := s.setServe (fun v => { v with canQ := rest })
    let n := handleSlot (r.w 1)
    a.foreign (some p) (r.w 1) = false → (a.hubRead 1 (reqSlotAddr n) 128).2.p = 0 →
    let b := (a.hubRead 1 (reqSlotAddr n) 128).1
    b.stale (some p) (r.w 1) = false →
    (r.op = 2 → b.slState n = slRemote → exec (.cancel p) s = .next (b.cancelForward n r.src (r.w 3) (bit (r.w 0) 35))) ∧
    (r.op = 2 → b.slState n ≠ slRemote → b.slState n ≠ slFree → b.slState n ≠ slClosing → b.slState n ≠ slCancelling →
      exec (.cancel p) s = .next (b.cancelHere n r.src (r.w 3) (bit (r.w 0) 35))) ∧
    (r.op = 4 → b.slState n = slRemote → bits (r.w 0) 55 48 = 0 →
      ∃ finish : Nat, (finish = 4 ∨ finish = 6) ∧ exec (.notice p) s = .next
        (((b.fresh.setSlState n slClosing).setSlotX n (fun x => { x with term := finish, termDone := true })).releaseKv n)))

/-- REMOTE, PARK, UNPARK, SET_TALLY and SET_TALLY2 of a request slot complete with the effects of Table 7.9 and answer code 0.
(07_serving_engine.md) -/
def Obligations.SlotCommandsComplete : Prop :=
  ∀ (s : State) (c : Nat) (w : Word), c < 8 → s.canWrite c = true →
    let n := bits w.toNat 59 46
    let a := s.forward c .SRV_SLOT_CMD c 0 w
    (a.hubRead 1 (reqSlotAddr n) 128).2.p = 0 →
    let b := (a.hubRead 1 (reqSlotAddr n) 128).1
    let arg := (b.rg .SRV_SLOT_ARG c 0).toNat
    b.slGen n = bits w.toNat 45 15 → bits w.toNat 45 15 ≠ 0 →
    (bits w.toNat 63 60 = 1 → (b.slState n = slPrefill ∨ b.slState n = slDecode) →
      exec (.slotRemote c w) s = .next (((b.putSlotW n 15 arg).setSlState n slRemote).slotAnswer c 0)) ∧
    (bits w.toNat 63 60 = 2 → (b.slState n = slQueued ∨ b.slState n = slPrefill ∨ b.slState n = slDecode) →
      exec (.slotPark c w) s = .next ((b.setSlState n slParked).slotAnswer c 0)) ∧
    (bits w.toNat 63 60 = 3 → b.slState n = slParked →
      exec (.slotUnpark c w) s = .next ((b.setSlState n slQueued).slotAnswer c 0)) ∧
    ((b.slState n = slQueued ∨ b.slState n = slParked) → arg % 64 = 0 →
      (bits w.toNat 63 60 = 4 → exec (.slotSetTally c w) s = .next ((b.putSlotW n 12 arg).slotAnswer c 0)) ∧
      (bits w.toNat 63 60 = 5 → 12 ≤ bits w.toNat 14 10 → bits w.toNat 14 10 ≤ 24 →
        exec (.slotSetTally2 c w) s = .next (((b.putSlotW n 13 arg).putSlotW n 9
          (setBits (b.slotW n 9) 15 5 (bits w.toNat 14 10))).slotAnswer c 0)))

/-- Response records, emit lists, a slot's return to FREE and the police register complete as chapter 7 says. (07_serving_engine.md) -/
def Obligations.ResponsesAndEmitListsComplete : Prop :=
  (∀ (z : State) (slot : Nat) (r : Resp) (rest : List Resp), slot < 2 ^ 14 →
    let s := z.pumpOwed
    (s.slotX slot).queue = r :: rest → (s.slotX slot).flight = 0 → (s.slotX slot).hostQ = 0 → r.kind = 3 →
    let p := s.slPartField slot
    let seq := s.slSeq slot
    let addr := s.slotW slot 3 + 64 * (seq % 2 ^ bits (s.slotW slot 9) 24 20)
    s.compares p = false → s.canIssue p addr 64 = true → r.code ≠ 0x10 → (s.hubRead 1 (reqSlotAddr slot) 128).2.p = 0 →
    let g := (s.hubRead 1 (reqSlotAddr slot) 128).1
    let home := if g.slWork slot then g.slotW slot 15 else g.handleOf slot
    let v := respRecord 3 r.code g.serveNode seq home (g.slotW slot 2) r.index r.token (g.slotW slot 5 / 2 ^ 32) r.generated g.time
    let a := (g.putSlotW slot 1 (setBits (g.slotW slot 1) 32 32 ((seq + 1) % 2 ^ 32))).setSlotX slot
      (fun x => { x with queue := rest, flight := 3, sent := (addr, v) })
    let b := a.count F.SRV_TOKENS_OUT_COUNT 0 0 1
    let k : Pkt := { op := opStore, size := 4, addr := addr, payload := v }
    let hk := 2 ^ 32 * slot + seq
    b.compares p = false →
    exec (.responseIssue slot) z = .next ((b.issue p (some (b.slSub slot)) (.resp slot) none 1 k).noteRelease
      { kind := 2, part := p, key := hk, hash := pairHash hk v 64 0 0, closed := true, pkts := [k], record := slot + 1,
        step := (b.rg .PAR_STEP_SEQ p 0).toNat })) ∧
  (∀ (s : State) (slot : Nat), slot < 2 ^ 14 → (s.slState slot = slClosing ∨ s.slState slot = slCancelling) →
    (s.slotX slot).termDone = true → (s.slotX slot).flight = 0 → (s.slotX slot).awaiting = false → s.kvState slot = kvFree →
    (s.hubRead 1 (reqSlotAddr slot) 128).2.p = 0 →
    let b := (s.hubRead 1 (reqSlotAddr slot) 128).1
    let a := b.putSlotW slot 0 (setBits (setBits (b.slotW slot 0) 60 4 slFree) 20 4 (s.slotX slot).term)
    exec (.slotFree slot) s = .next ((a.setF F.SRV_SUB_CFG_SLOTS (b.slSub slot) 0 (a.f F.SRV_SUB_CFG_SLOTS (b.slSub slot) 0 - 1)).setServe
      (fun v => { v with slots := mdel v.slots slot, freed := nins v.freed slot }))) ∧
  (∀ (s : State) (i u : Nat) (w : Word), s.canWrite i = true → RegName.SRV_SUB_POLICE.has u 0 = true →
    exec (.subPoliceWrite i u w) s = .next ((s.setRg .SRV_SUB_POLICE u 0 w).fillBuckets u)) ∧
  (∀ (s : State) (p : Nat) (w : Word), p < 8 → s.fb F.HUB_STATUS_READY 0 0 = true → s.fb F.SRV_EMIT_SUBMIT_PENDING p 0 = false →
    let j : EmitJob := { list := F.SRV_EMIT_SUBMIT_LIST.of w * 64, count := F.SRV_EMIT_SUBMIT_COUNT_M1.of w + 1 }
    exec (.emitSubmit p w) s = .next (((s.forward 0 .SRV_EMIT_SUBMIT p 0 w).setF F.SRV_EMIT_SUBMIT_PENDING p 0 1).setServe
      (fun v => { v with emits := mput {} v.emits p j }))) ∧
  (∀ (s : State) (p : Nat), s.fb F.SRV_EMIT_SUBMIT_PENDING p 0 = true →
    let j := mget {} s.serve.emits p
    let at_ := hubBase + j.list + 16 * j.next
    let r := s.hubRead 1 at_ 16
    let n := handleSlot (wordOf r.2.v 0)
    j.next + 1 < j.count → r.2.p = 0 → emitFormOk (wordOf r.2.v 1) = true → r.1.foreign none (wordOf r.2.v 0) = false →
    (s.slotX n).queue.length < 64 → (r.1.hubRead 1 (reqSlotAddr n) 128).2.p = 0 →
    (r.1.hubRead 1 (reqSlotAddr n) 128).1.stale none (wordOf r.2.v 0) = false →
    let x := (r.1.hubRead 1 (reqSlotAddr n) 128).1.emitApply n (wordOf r.2.v 1)
    x.2 = 0 →
    exec (.emitEntryApply p) s = .next ((x.1.putWord (at_ + 8) (setBits (wordOf r.2.v 1) 56 8 0)).setServe
      (fun v => { v with emits := mput {} v.emits p { j with next := j.next + 1 } })))

/-- Submission, abort, activation, release and handoff of transit entries complete as chapter 9 says. (09_transit_and_scheduling.md,
06_attention_and_kv.md) -/
def Obligations.TransitSubmissionComplete : Prop :=
  (∀ (s : State) (c : Nat) (w : Word), c < 8 → s.canWrite c = true → s.fb F.TRN_SUBMIT_RESULT_DONE c 0 = true →
    let a := s.forward c .TRN_SUBMIT c 0 w
    let p := bits w.toNat 63 61
    let q := bits w.toNat 60 58
    let d := bits w.toNat 47 0
    let r := a.readMem trnUnit d 64
    a.qOn p q = true → a.qFull p q = false → d % 64 = 0 → (a.region (a.canon d) = .hbm ∨ a.region (a.canon d) = .hub) →
    r.2.p = 0 → r.1.tdCheck p r.2.v = 0 →
    exec (.trnSubmit c w) s = .next ((r.1.enqueue p q r.2.v 0 (issuerCore c) none none).trnAnswer c trnOk (a.qTail p q))) ∧
  (∀ (s : State) (c : Nat) (w : Word) (e : TrnEntry), c < 8 → s.canWrite c = true →
    let a := s.forward c .TRN_ABORT c 0 w
    a.entry (bits w.toNat 63 61) (bits w.toNat 60 58) (w.toNat % 2 ^ 32) = some e →
    exec (.trnAbort c w) s = .next
      (((a.abortEntry e).1.setF F.TRN_ABORT_RESULT_DONE c 0 1).setF F.TRN_ABORT_RESULT_CODE c 0 (a.abortEntry e).2)) ∧
  (∀ (s : State) (p q : Nat) (e : TrnEntry),
    let es := s.trn.entries.filter (fun e => decide (e.part = p) && decide (e.queue = q))
    es.find? (fun e => decide (e.st = 0)) = some e → (s.preempted p = false ∨ s.flagBehind e = true) →
    (∀ x : TrnEntry, x ∈ es.takeWhile (fun x => decide (x.st ≠ 0)) →
      x.st = 4 ∨ (tdOrder e.desc = false ∧ (x.st = 1 ∨ x.st = 2) ∧ s.allIssued x = true)) →
    exec (.trnEntryActive p q) s = .next ((s.setEntry { e with st := 1 }).pumpQueue p q)) ∧
  (∀ (s : State) (x : Nat), (s.parcel x).live = true → (s.parcel x).stage = .wheel → (s.parcel x).release ≤ s.time →
    s.trn.parcels.any (fun q => decide (q.2.stage = .wheel) && decide (q.2.release = (s.parcel x).release) &&
      decide (q.2.rank < (s.parcel x).rank)) = false →
    exec (.trnWheelRelease x) s = .next ((s.release x).pumpQueue (s.parcel x).part (s.parcel x).queue)) ∧
  (∀ s : State, exec .trnFarScan s = .next (s.trn.parcels.foldl (fun s q =>
    if q.2.stage = .far ∧ q.2.release ≤ 1024000 + s.time then (s.setParcel q.1 { q.2 with stage := .wheel, rank := s.trn.nextRank }).rankUp
    else s) s)) ∧
  (∀ (s : State) (slot layer : Nat) (h t : KvHand), s.kv.hands.find? (fun h => decide (h.slot = slot) && decide (h.layer = layer)) = some h →
    h.submitted = false →
    (s.kit (s.kvOwner slot)).pages.any (fun q => q.2.live && decide (q.2.slot = slot) && decide (q.2.layer = layer)) = false →
    let a := State.handSubmit 1024 s slot layer h.sent
    a.kv.hands.find? (fun h => decide (h.slot = slot) && decide (h.layer = layer)) = some t → t.submitted = true →
    exec (.kvHandoffSubmit slot layer) s = .next ((a.putKvW slot 1 (setBits (a.kvW slot 1) 0 9 (a.kvHanded slot + 1))).setKv
      (fun q => { q with hands := q.hands.filter (fun h => !(h.submitted && h.failed && decide (h.left = 0))) })))

/-- Parcels start, are acknowledged, fail, are sent again and time out as chapter 9 says. (09_transit_and_scheduling.md, 11_fefen_fabric.md)
-/
def Obligations.TransitParcelsComplete : Prop :=
  (∀ (s : State) (x : Nat) (e : TrnEntry), s.entry (s.parcel x).part (s.parcel x).queue (s.parcel x).seq = some e →
    s.startableParcel x (s.parcel x) e = true →
    ((s.parcel x).begun = true → exec (.trnParcelStart x) s = .next (s.startPiece x e.desc)) ∧
    (∀ h : DrrHead, (s.parcel x).begun = false → (s.parcel x).stage ≠ .codecWait →
      let k := s.parcel x
      let d := e.desc
      let o := s.outputOf d k
      let c := s.choose o
      let r := if tdDstG d then s.parcelData x d else (s, true)
      let m := r.1.parcel x
      c.1 = some h → h.parcel = x → s.tdSpans k.part d k.off (k.off + k.len / 64) = none →
      (s.tdToFlash k.part d && s.fb F.FLS_STATUS_WRITE_LOCK 0 0) = false → r.2 = true →
      (tdDstG d && decide (m.compared = 0) && r.1.compares m.part) = false →
      let a := (r.1.setTrn (fun t => { t with deficit := c.2.1, turn := mput 0 t.turn (o * 4 + c.2.2) (h.service + 1) })).startPiece x d
      (a.parcel x).begun = true →
      exec (.trnParcelStart x) s = .next ((a.pumpQueue m.part m.queue).debit (drrKey o c.2.2 h.service) m.len))) ∧
  (∀ (s : State) (x : Nat), (s.parcel x).live = true → (s.parcel x).stage = .flight → s.halted = false →
    let d := ((s.entry (s.parcel x).part (s.parcel x).queue (s.parcel x).seq).getD {}).desc
    (tdDstG d = true → (s.parcel x).outcome = some 0 → exec (.trnParcelAck x) s = .next (s.ackParcel x)) ∧
    (tdDstG d = false → (s.parcel x).outcome = none → (s.parcelData x d).2 = true →
      let a := (s.parcelData x d).1
      let k := a.parcel x
      (a.dstPieces d k).any (fun q => q.2.inFlash) = false → (a.dstPieces d k).all (fun q => !q.2.rem) = true →
      exec (.trnParcelAck x) s = .next (((a.dstPieces d k).foldl (fun s q => if q.2.rem then s
        else s.writeMem trnUnit q.2.addr q.2.len (k.v / 256 ^ q.1) (ones q.2.len) (k.p / 2 ^ (q.1 / 32))) a).ackParcel x))) ∧
  (∀ (s : State) (x code : Nat) (e : TrnEntry), (s.parcel x).live = true →
    s.entry (s.parcel x).part (s.parcel x).queue (s.parcel x).seq = some e → (s.parcel x).outcome = some code → code ≠ 0 → code ≠ 256 →
    exec (.trnParcelFail x code) s = .next
      (((s.dropParcel x).failEntry e (s.parcel x).off code).pumpQueue (s.parcel x).part (s.parcel x).queue)) ∧
  (∀ (s : State) (x : Nat) (e : TrnEntry), (s.parcel x).live = true →
    s.entry (s.parcel x).part (s.parcel x).queue (s.parcel x).seq = some e → (s.parcel x).outcome = some 256 → (s.parcel x).stage = .flight →
    1000 + (s.parcel x).outcomeAt ≤ s.time → (s.freeTag (nodeOf (tdDst e.desc))).isNone = false →
    s.fenced (nodeOf (tdDst e.desc)) (parcelAddr e.desc (s.parcel x)) = false →
    let a := (s.setParcel x { s.parcel x with outcome := none }).count F.TRN_RX_FULL_COUNT 0 0 1
    let r := a.parcelTag x e.desc
    let b := r.1.sendPackets e.desc (r.1.parcel x) 0 (s.parcel x).wire
    r.2 = true → exec (.trnParcelReissue x) s = .next
      (if decide ((b.tag (nodeOf (tdDst e.desc)) (b.parcel x).tag).port ≠ portLoop)
        then (b.count F.TRN_BYTES_WIRE_COUNT 0 0 (s.parcel x).wire).acct (tdSub e.desc) 7 (s.parcel x).wire 1024 else b)) ∧
  (∀ (s : State) (src tag : Nat), (s.inPar src tag).isOpen = true → (s.inPar src tag).closed = false →
    (s.inPar src tag).lastPkt + s.deadBound ≤ s.time → exec (.trnParcelIncomplete src tag) s = .next (s.incomplete src tag))

/-- The delta codec's units take, encode and decode parcels as chapter 10 says. (10_delta_codec.md, 09_transit_and_scheduling.md) -/
def Obligations.CodecParcelsComplete : Prop :=
  (∀ (s : State) (x u : Nat), (s.parcel x).live = true → (s.parcel x).stage = .codecWait → s.freeEncoder (s.parcel x).part = some u →
    s.trn.parcels.any (fun q => decide (q.2.stage = .codecWait) && decide (q.2.rank < (s.parcel x).rank) && (s.freeEncoder q.2.part).isSome) = false →
    let a := (s.abandonChecks (unitCodec u)).setTrn (fun t => { t with encoders := mput 0 t.encoders u (x + 1) })
    exec (.codecEncodeStart x) s = .next
      (a.setParcel x { s.parcel x with stage := .coding, unit := u + 1, cfg := a.rg .CDC_PART_CFG (s.parcel x).part 0 })) ∧
  (∀ (s : State) (x : Nat) (raw rf : Data), (s.parcel x).live = true → (s.parcel x).stage = .coding →
    let k := s.parcel x
    let d := ((s.entry k.part k.queue k.seq).getD {}).desc
    let a := trnActor k.part
    let r := s.fetchPieces (parcelKey x 0) a (s.srcPieces d k) k.len (xwSpan (tdSrc d)) (xwOff (tdSrc d)) (tdSub d + 1)
    let ref := if tdCodec d = 1 then
        r.1.fetchPieces (parcelKey x 1) { a with stream := ownStream } (r.1.tdPieces k.part (tdRef d) false (64 * k.off) k.len) k.len (xwSpan (tdRef d)) (xwOff (tdRef d)) (tdSub d + 1)
      else (r.1, some {})
    r.2 = some raw → ref.2 = some rf →
    let b := buildStream (ref.1.streamCfg d k) raw.v raw.p k.len rf.v rf.p
    exec (.codecEncodeDone x) s = .next ((ref.1.setTrn (fun t => { t with encoders := mput 0 t.encoders (k.unit - 1) 0 })).setParcel x
      { k with stage := .atOutput, ready := true, v := b.1.v, p := 0, wire := b.1.n, codedBlocks := b.2,
               blocks := (4095 + k.len) / 4096, hash := parcelHash d k raw.v raw.p })) ∧
  (∀ (s : State) (src tag b u : Nat),
    let o := s.inPar src tag
    o.isOpen = true → o.coded = true → o.waitingBlock = some b → s.freeDecoder o.part = some u →
    exec (.codecDecodeStart src tag) s = .next ((s.abandonChecks (unitCodec u)).setInPar src tag { o with units := mput 0 o.units b (u + 1) })) ∧
  (∀ (s : State) (src tag b : Nat),
    let o := s.inPar src tag
    o.isOpen = true → o.laneBlock = some b →
    exec (.codecDecodeDone src tag) s = .next (s.setInPar src tag { o with decoded := nins o.decoded b }).pumpInb) ∧
  (∀ (s : State) (p : Pkt) (z : Reply),
    let o := s.inPar p.src p.tag
    let t := if o.reply.isSome then s else s.finishDecode p.src p.tag
    o.closed = true → o.refused = 0 → (List.range o.blocks).all (fun b => nmem o.decoded b) = true → (t.inPar p.src p.tag).reply = some z →
    s.cparcelEnd p = ((t.closeInPar p.src p.tag).relay p o.part z, true)) ∧
  (∀ (s : State) (src tag : Nat) (rd : Data),
    let o := s.inPar src tag
    let w := s.view o.old
    let len := min 65536 (hdrRawLen o.v)
    let ref := mget 0 o.refs (hdrRefId o.v)
    let rs := F.CDC_REF_SPAN.of ref
    let act := { deviceActor (F.CDC_REF_PARTITION.of ref) trnUnit with transit := true, stream := ownStream }
    let bs := o.refBlocks
    let refOk := fun (b : Nat) => decide (F.CDC_REF_VALID.of ref = 1) && decide (F.CDC_REF_PARTITION.of ref = o.part) &&
      (w.spanCheck act rs ((hdrRefOff o.v + 4096 * b : Nat) : Int) 4096 rRead).isNone
    let ps := bs.flatMap (fun b => (w.spanPieces act rs (hdrRefOff o.v + 4096 * b) 4096).map (fun q => (4096 * b + q.1, q.2)))
    let sub := s.f F.MEM_EXPORT_CTL_CHARGE (o.addr / 2 ^ 40 % 256) 0 + 1
    let r := if !bs.isEmpty && bs.all refOk then s.fetchPieces (inParKey src tag) act ps 65536 rs (hdrRefOff o.v) sub else (s, some {})
    o.p = 0 → r.2 = some rd →
    let d := decodeStream o.v o.n o.rawLen refOk (fun b => (rd.v / 256 ^ (4096 * b) % 256 ^ 4096, rd.p / 2 ^ (128 * b) % 2 ^ 128))
    let h := w.exportHit src o.addr len rWrite
    let dst := w.spanPieces (deviceActor o.part trnUnit) h.span h.off len
    let q := r.1.newXfer
      { part := o.part, unit := o.unitOf 0, dst := dst, len := len, buf := cellsOf 0 d.v len, bufP := ninsMask [] 0 d.p (granules 0 len),
        stored := true, sub := sub, stream := ownStream }
    let x := if o.store = 0 then q.2 else o.store - 1
    let c := if o.store = 0 then (q.1.advance q.2).setInPar src tag { o with store := q.2 + 1 } else r.1.advance (o.store - 1)
    d.reason = 0 → d.badRef = [] → h.status = 0 → h.kind = 0 → c.finishable x = true → (localOf dst).any (fun z => r.1.asleep z.1) = false →
    let e := (c.spread x { v := d.v, p := d.p }).endXfer x
    s.finishDecode src tag = e.setInPar src tag { e.inPar src tag with reply := some {} })

/-- LOAD, STORE, STOREM, PEAL, ATOMIC and RED packets from the fabric complete and are answered OK. (11_fefen_fabric.md,
08_memory_spans_and_tiers.md, 07_serving_engine.md) -/
def Obligations.FabricDataRequestsComplete : Prop :=
  ∀ (s : State) (p : Pkt), s.arrives p = true →
    let a := s.arrived p
    let n := sizeBytes p.size
    let hit := fun (n need : Nat) => a.exportHit p.src p.addr n need
    let at_ := fun (n need : Nat) => (a.hitPiece (hit n need) n).addr
    let paid := fun (n need rd wr : Nat) => (a.spanGate p n need rd wr).1
    let ok := fun (b : State) (n need size : Nat) (d : Data) => (b.answer p ansOk size d 0 0 (some (hit n need).part)).departed s p
    (p.op = opLoad → p.sized = true → a.spanOpen p n rRead 1 0 n = true →
      let r := (paid n rRead 1 0).readMem p.inUnit (at_ n rRead) n
      exec (.fabLoad p) s = .next (ok r.1 n rRead p.size r.2)) ∧
    (p.op = opStore → p.sized = true → a.spanOpen p n rWrite 0 1 0 = true →
      exec (.fabStore p) s = .next (ok ((paid n rWrite 0 1).writeMem p.inUnit (at_ n rWrite) n p.payload (ones n) p.poison) n rWrite 0 {})) ∧
    (p.op = opStore → p.size = 5 → p.addr % 128 = 0 → (hit n rWrite).status = 0 → (hit n rWrite).kind = 1 →
      let b := a.chargeIn (some (a.f F.MEM_EXPORT_CTL_CHARGE p.exp 0)) p.port 128
      exec (.fabStore p) s = .next (ok (b.deliver { v := p.payload, p := p.poison, part := (hit n rWrite).part }) n rWrite 0 {})) ∧
    (p.op = opStorem → p.sized = true → a.spanOpen p n rWrite 0 1 0 = true →
      exec (.fabStorem p) s = .next (ok ((paid n rWrite 0 1).writeMem p.inUnit (at_ n rWrite) n p.payload p.mask p.poison) n rWrite 0 {})) ∧
    (p.op = opPeal → p.size = 4 → p.addr % 64 = 0 → a.spanOpen p n rWrite 0 1 0 = true →
      exec (.fabPeal p) s = .next (ok ((paid n rWrite 0 1).writeMem p.inUnit (at_ n rWrite) n p.payload (ones 64) p.poison) n rWrite 0 {})) ∧
    (p.op = opAtomic → (p.size = 1 ∨ p.size = 2) → p.addr % 8 = 0 → a.spanOpen p 8 rAtomic 1 1 8 = true →
      let m := at_ 8 rAtomic
      let r := (paid 8 rAtomic 1 1).atomicMem p.inUnit m (decide (p.size = 2)) (p.payload % 2 ^ 64) (p.payload / 2 ^ 64 % 2 ^ 64)
      exec (.fabAtomic p) s = .next (ok (if p.poison = 0 then r.1 else r.1.poisonRange (m / 32 * 32) 32) 8 rAtomic 1 r.2)) ∧
    (p.op = opRed → redForm p ≤ 4 → bits p.red 28 26 = 0 → (redForm p ≠ 0 → redAnchor p = 0) →
      p.size = (if redForm p = 0 then 6 else 4) → p.addr % n = 0 → a.spanOpen p n rReduce 1 1 0 = true →
      (redForm p = 0 → a.fb F.FAB_EXPORT_RED_CHECK p.exp 0 = true → a.f F.FAB_EXPORT_RED_ANCHOR p.exp 0 = redAnchor p) →
      exec (.fabRed p) s = .next (ok ((paid n rReduce 1 1).redMem p.inUnit (at_ n rReduce) n (redForm p) (p.red % 2 ^ 16) { v := p.payload, p := p.poison })
        n rReduce 0 {}))

/-- FENCE, gong, TAINT and parcel packets, order records, PENDING and abandonment complete as chapter 11 says. (11_fefen_fabric.md,
09_transit_and_scheduling.md, 15_pair_mode_and_fault_tolerance.md) -/
def Obligations.FabricControlRequestsComplete : Prop :=
  (∀ (s : State) (p : Pkt), s.arrives p = true →
    let a := s.arrived p
    (p.op = opFence → p.size = 0 → s.fab.inb.any (fun q => decide (q.pkt.src = p.src)) = false →
      exec (.fabFence p) s = .next ((a.answer p ansOk).departed s p)) ∧
    (∀ q l : Nat, p.op = opGong → p.size = 1 → bits p.payload 45 24 = 0 → p.payload < 2 ^ 64 → p.addr % 2 ^ 48 = 0 →
      a.lineOf (gongLineId p.payload) = some (q, l) →
      (p.payload.testBit 47 = false → a.countsLine q l = true → gongPhase p.payload = a.f F.PAR_GONG_LINE_PHASE q l →
        exec (.fabGongArrive p) s = .next
          (((a.countArrivals (gongCount p.payload + 1) q l (gongCount p.payload)).answer p ansOk).departed s p)) ∧
      (p.payload.testBit 47 = true → gongCount p.payload = 0 → exec (.fabGongSound p) s = .next
        (((if gongPhase p.payload = a.f F.PAR_GONG_LINE_PHASE q l then a else a.soundRemote q l (gongPhase p.payload)).answer p ansOk).departed s p))) ∧
    (p.op = opTaint → p.size = 2 → bits (p.payload / 2 ^ 64) 42 32 = 0 → taintAddr p % 32 = 0 → p.payload < 2 ^ 128 → a.follows1 p = false →
      let n := taintLen p
      let h := if (a.exportHit p.src (taintAddr p) n rWrite).status = ansRights then a.exportHit p.src (taintAddr p) n rReduce
        else a.exportHit p.src (taintAddr p) n rWrite
      let b := a.setInb p.src p.key (fun x => { x with hit := some (h, {}) })
      ∀ c : State, h.status = 0 → h.kind = 0 →
      b.passTaint p (b.spanPieces (deviceActor h.part trnUnit) h.span h.off n) (taintSeq p) = (c, true) →
      exec (.fabTaint p) s = .next ((((c.log (srcPort p.port) Ev.TAINT_RECEIVED [p.src, taintSeq p, taintAddr p, n] (some h.part)
        (some p.inUnit)).count F.FAB_TAINT_IN_COUNT 0 0 1).answer p ansOk).departed s p)) ∧
    (p.parSized = true → (a.parNow p.src p.tag).refused = 0 → ((a.parNow p.src p.tag).isOpen = true ∨ a.openCount < 4096) →
      let o := a.parNow p.src p.tag
      let n := sizeBytes p.size
      let v := a.view o.old
      let h := v.exportHit p.src (p.addr + o.n) n rWrite
      let g := v.exportHit p.src p.addr 64 rWrite
      let pc := v.hitPiece h n
      let w := (a.inCharge p h.part pc.addr n 0 1).writeMem p.inUnit pc.addr n p.payload (ones n) p.poison
      let b := w.setInPar p.src p.tag
        { o with isOpen := true, src := p.src, tag := p.tag, addr := p.addr, rawLen := p.rawLen, part := h.part, port := p.port, coded := false,
                 n := o.n + n, v := 0, p := 0, lastPkt := w.time }
      let c := a.chargeIn (some (a.chargeOf p)) p.port n
      let x : OpenParcel :=
        { o with isOpen := true, src := p.src, tag := p.tag, addr := p.addr, rawLen := p.rawLen, part := g.part, port := p.port, coded := true,
                 n := o.n + n, v := o.v + p.payload % 256 ^ n * 256 ^ o.n, p := o.p ||| (p.poison * 2 ^ (o.n / 32)), lastPkt := c.time,
                 refs := if !o.isOpen then c.refsNow else o.refs }
      (p.op = opParcel → h.status = 0 → h.kind = 0 → pc.rem = false → a.asleep pc.addr = false → a.inCredit p h.part pc.addr n 0 1 0 = true →
        exec (.fabParcel p) s = .next (b.departed s p)) ∧
      (p.op = opCparcel → g.status = 0 → g.kind = 0 → exec (.fabCparcel p) s = .next ((c.setInPar p.src p.tag x).departed s p)) ∧
      (p.op = opCparcelEnd → g.status = 0 → g.kind = 0 → (a.inPar p.src p.tag).closed = false →
        (List.range x.blocks).all (fun b => nmem x.decoded b) = false →
        exec (.fabCparcelEnd p) s = .next ((c.setInPar p.src p.tag x).setInPar p.src p.tag { x with closed := true }))) ∧
    (∀ b : State, p.op = opParcelEnd → (a.inPar p.src p.tag).closed = false → a.parcelPacket p false = (b, true) →
      (b.inPar p.src p.tag).refused = 0 →
      let o := { b.inPar p.src p.tag with closed := true }
      let c := b.setInPar p.src p.tag o
      let w := c.view o.old
      let h := w.exportHit p.src p.addr o.n rWrite
      (w.spanPieces (deviceActor o.part trnUnit) h.span h.off o.n).all (fun q => !q.2.rem) = true →
      exec (.fabParcelEnd p) s = .next (((c.closeInPar p.src p.tag).answer p ansOk 0 {} 0 0 (some o.part)).departed s p))) ∧
  (∀ (s : State) (r : OrderRec), s.follows = true → s.pair.orders.any (fun q => decide (q.num = r.num)) = false →
    exec (.orderRecord r) s = .next (s.setPair (fun x =>
      { x with orders := x.orders ++ [r], orderAt := mput 0 x.orderAt r.num (s.time + 1) })).follow) ∧
  (∀ (s : State) (p : Pkt) (r : OrderRec), s.follows = true → s.toPair p = true →
    s.pair.orders.find? (fun r => decide (r.node = p.src) && decide (r.tag = p.tag) && s.lacksPacket r) = some r →
    mget 0 s.pair.orderAt r.num + 2000 ≤ s.time + 1 →
    exec (.orderPacketFetch p) s = .next (s.setPair (fun x => { x with packets := x.packets ++ [p] })).follow) ∧
  (∀ (s : State) (src tag : Nat) (q : Inbound),
    (∀ port : Nat, s.inbDue src tag (fun q => decide (1000 + q.pendingAt ≤ s.time) && q.pkt.answered) = some q →
      let a := s.setInb src q.pkt.key (fun x => { x with pendingAt := s.time })
      (a.sends = true ∨ q.pkt.port = portLoop) → src ≠ 0xFFFF → a.backPort q.pkt = some port →
      exec (.fabPendingSend src tag) s = .next (a.putOut { op := opPending, tag := tag,
                                                           src := if a.toPair q.pkt then a.f F.HUB_PAIR_CFG_PAIR_NODE 0 0 else a.node,
                                                           dst := src, port := port })) ∧
    (let o := s.inPar src tag
     let parcel := fun (q : Inbound) => decide (opParcel ≤ q.pkt.op) && decide (q.pkt.op ≤ opCparcelEnd)
     s.inbDue src tag (fun q => decide (1000000 + q.time ≤ s.time) && !q.begun && !(parcel q && (decide (o.store ≠ 0) || o.reply.isSome))) = some q →
     parcel q = false → exec (.fabReqAbandoned src tag) s = .next
      (((s.leaveIn q).log (srcPort q.pkt.port) Ev.FAB_REQ_ABANDONED [src, tag] none (some q.pkt.inUnit)).answer q.pkt ansAbandoned)))

/-- Answers, PENDING, dead targets, quarantined tags, waiting loads and asynchronous transfers complete. (11_fefen_fabric.md,
03_zmi_instruction_set.md) -/
def Obligations.FabricAnswersComplete : Prop :=
  (∀ (s : State) (p : Pkt) (n : Nat), p.op = opRsp → p.dst = s.node → p.port ≠ portLoop → p.status = 0 →
    let a := (s.creditRsp p).learn p.src p.port
    let g := a.tag n p.tag
    a.answerTag p.src p.tag = some n → g.st = .out →
    let left := g.left - 1
    let b := a.setTag n p.tag (if left = 0 then {} else { g with left := left })
    let c := (b.chargeIn (b.answerSub g) p.port (sizeBytes p.size)).forwardOld g p
    exec (.fabRsp p) s = .next (c.endRequest g { status := 0, d := { v := p.payload, p := p.poison }, reason := p.reason, block := p.block }
      (decide (left = 0)) p.size g.asks)) ∧
  (∀ (s : State) (p : Pkt) (n : Nat), p.op = opPending → p.dst = s.node →
    let a := s.creditRsp p
    a.answerTag p.src p.tag = some n → (a.tag n p.tag).st = .out →
    exec (.fabPending p) s = .next (a.setTag n p.tag { a.tag n p.tag with time := a.time })) ∧
  (∀ (s : State) (node tag : Nat), (s.tag node tag).st = .out → (s.tag node tag).time + s.deadBound ≤ s.time →
    (∀ p l, (s.tag node tag).issuer ≠ .gong p l) →
    let g := s.tag node tag
    let a := s.setTag node tag { g with st := .quarantined, time := s.time }
    exec (.fabTargetDead node tag) s = .next (((a.logLimited (limNodeDead node) 1000000 (srcHub 0) Ev.FAB_TARGET_DEAD [node, g.addr]
      (partOpt g.part)).count F.FAB_TARGET_DEAD_COUNT_COUNT 0 0 1).endRequest g { dead := true } true 0 g.asks)) ∧
  (∀ (s : State) (node tag : Nat), (s.tag node tag).st = .quarantined → 1500000 + (s.tag node tag).time ≤ s.time →
    exec (.fabTagRelease node tag) s = .next (s.setTag node tag {})) ∧
  (∀ (s : State) (u : CtxId) (x v word : Nat), (s.ctx u).wait = .load x →
    let a := s.advance x
    let t := a.xfer x
    t.kind = .load v word → a.finishable x = true →
    exec (.loadDataReturn u) s = .next (((a.endXfer x).setCtx u (fun c => { c with wait := .none })).finishLoad u word t.first
      { v := t.data.v / 256 ^ (if word / 2 ^ 56 = 0xC2 then 0 else t.off), p := t.data.p })) ∧
  (∀ (s : State) (x u flag : Nat),
    let a := s.advance x
    let t := a.xfer x
    a.finishable x = true →
    (∀ d n : Nat, t.kind = .aldt u d n flag →
      exec (.asyncComplete x) s = .next (((a.landTiles (ctxOfKey u) d n t.data).flagDown (ctxOfKey u) flag).endXfer x)) ∧
    (t.kind = .copy u flag ∨ t.kind = .kvrd u flag →
      exec (.asyncComplete x) s = .next (((a.spread x t.data).flagDown (ctxOfKey u) flag).endXfer x)) ∧
    (∀ slot sel pos : Nat, t.kind = .kvapp u flag slot sel pos →
      let b := a.askAppend x (ctxOfKey u).kit slot sel pos
      b.xferOwes x = false → exec (.asyncComplete x) s = .next
        (((b.kvAppend (ctxOfKey u) slot sel pos (b.xfer x).data).flagDown (ctxOfKey u) flag).endXfer x)))

/-- Link training and loss, frames, control frames and the egress hold-off complete as Tables 11.1 to 11.12 say. (11_fefen_fabric.md) -/
def Obligations.LinksAndEgressComplete : Prop :=
  (∀ (s : State) (link cause : Nat), (cause = 1 ∨ cause = 5) → exec (.linkDown link cause) s = .next (s.takeDown link cause)) ∧
  (∀ (s : State) (link width : Nat), s.canTrain link width = true → exec (.linkTrained link width) s = .next (s.linkTrained link width)) ∧
  (∀ (s : State) (link f n : Nat), s.linkUp link = true → f < 2 ^ 24 → (s.link link).expected < 2 ^ 24 →
    let e := (s.link link).expected
    let a := s.count F.FAB_FEC_CORRECTED_COUNT link 0 n
    (f = e → exec (.frameReceive link f n false) s = .next (a.setLink link (fun l => { l with expected := (e + 1) % 2 ^ 24, badFrom := none }))) ∧
    (f < e → e ≤ f + 2048 → exec (.frameReceive link f n false) s = .next a) ∧
    ((s.link link).badFrom = none → e < f → f + 2048 < e + 2 ^ 24 →
      exec (.frameReceive link f n false) s = .next (a.takeDown link downSequence)) ∧
    ((s.link link).badFrom = none → exec (.frameReceive link f n true) s = .next
      ((a.setLink link (fun l => { l with badFrom := some e })).sendCtl link (some e)))) ∧
  (∀ (s : State) (link : Nat) (c : ControlFrame), s.linkUp link = true →
    let a := (s.count F.FAB_FEC_CORRECTED_COUNT link 0 c.corrected).setLink link (fun l =>
      { (l.accept c.accepted) with useReq := l.useReq - c.req, useRsp := l.useRsp - c.rsp, useCtl := l.useCtl - c.ctl })
    (c.retry = none → exec (.frameControl link c) s = .next a) ∧
    (∀ n : Nat, c.retry = some n → (a.link link).resends = [] → exec (.frameControl link c) s = .next
      ((a.setLink link (fun l => { l with resends := l.resends ++ [((a.link link).before n, (a.link link).frames)] })).count F.FAB_FRAME_RESENT_COUNT link 0
        (min 2048 ((a.link link).frames - (a.link link).before n))))) ∧
  (∀ (s : State) (n : Nat), s.f F.FAB_EGRESS_STATE n 0 = egHold → (s.egress n).holdEnd ≤ s.time → (s.egress n).writePending = false →
    (s.egress n).downPending = false → (s.egress n).heldAlt = none → s.fb F.FAB_EGRESS_LEARNED_ALT_VALID n 0 = false →
    exec (.egressHoldoffEnd n) s = .next ((s.setF F.FAB_EGRESS_STATE n 0 egFixed).setEgress n (fun e => { e with holdEnd := 0 })))

/-- Flash media operations, page discards and the account latch complete as chapter 8 says. Which pages of a discard are cleared at once is
a free value of the model (now below); the statement holds for whichever. (08_memory_spans_and_tiers.md) -/
def Obligations.FlashAndPageCommandsComplete : Prop :=
  (∀ (s : State) (r : FlashRead) (l : Nat), s.askedAt r.codeword = some l →
    let b := (mget {} s.flash.locs l).block
    let bad := decide (r.soft = some false)
    let c := (s.countReads b (1 + r.retries + (if r.soft.isSome then 2 else 0))).setFlash (fun x =>
      { x with badCodewords := nset x.badCodewords (l * 16 + r.codeword % 16) bad })
    let d := c.log (srcHub 4) Ev.FLS_READ_RETRY [r.retries] none (some (unitHub 4))
    let lost := fun (x : State) => (x.log (srcHub 4) Ev.FLS_UNCORRECTABLE [r.codeword / 16, r.codeword % 16] none (some (unitHub 4))).queueReloc b
    (bad = false → r.retries ≤ 1 → exec (.flashReadDone r) s = .next (c.serveCodeword r.codeword l false)) ∧
    (bad = false → 2 ≤ r.retries → r.retries ≤ 3 → exec (.flashReadDone r) s = .next (d.serveCodeword r.codeword l false)) ∧
    (bad = false → 4 ≤ r.retries → r.retries ≤ 7 → exec (.flashReadDone r) s = .next ((d.queueReloc b).serveCodeword r.codeword l false)) ∧
    (bad = true → r.retries ≤ 1 → exec (.flashReadDone r) s = .next ((lost c).serveCodeword r.codeword l true)) ∧
    (bad = true → 2 ≤ r.retries → r.retries ≤ 7 → exec (.flashReadDone r) s = .next ((lost d).serveCodeword r.codeword l true))) ∧
  (∀ (s : State) (r : FlashProg), (s.parcel r.parcel).live = true → (s.parcel r.parcel).stage = .flight →
    (s.parcel r.parcel).programmed = false → s.flash.gives r.block = true → s.fb F.FLS_STATUS_READY 0 0 = true → s.boot.refclkLost = false →
    let d := ((s.entry (s.parcel r.parcel).part (s.parcel r.parcel).queue (s.parcel r.parcel).seq).getD {}).desc
    s.tdToFlash (s.parcel r.parcel).part d = true →
    (r.ok = false → exec (.flashProgramDone r) s = .next (s.retireBlock r.block)) ∧
    (∀ (o b : Nat) (pc : Piece) (rest : List (Nat × Piece)), r.ok = true → (s.parcelData r.parcel d).2 = true →
      let a := (s.parcelData r.parcel d).1
      let k := a.parcel r.parcel
      a.dstPieces d k = (o, pc) :: rest → a.flashByte pc.addr = some b →
      exec (.flashProgramDone r) s = .next (((a.setFlash (fun f =>
        ({ (f.place (b / 65536) r.block (f.seq + 1) k.v k.p) with seq := f.seq + 1 }).switch (b / 65536) a.flash.nextLoc)).setParcel r.parcel
          { k with programmed := true }).acct (tdSub d) 10 65536 1024))) ∧
  (∀ (s : State) (block : Nat), (s.block block).retired = false → s.flash.liveIn block = [] →
    s.flash.reloc.any (fun r => decide (r.src = block) || decide (r.dst = block)) = false →
    s.xfers.any (fun q => (q.2.nand.getD []).any (fun e => decide ((mget {} s.flash.locs e.2.1).block = block))) = false →
    (exec (.flashEraseDone block false) s = .next (s.retireBlock block)) ∧
    (let keep := fun (a : Nat) => !((s.flash.locs.filter (fun q => decide (q.2.block = block))).map Prod.fst).contains a
     exec (.flashEraseDone block true) s = .next ((s.setFlash (fun x => { x with
      cells := x.cells.filter (fun c => keep (c.1 / 65536)), poison := x.poison.filter (fun g => keep (g / 2048)),
      badCodewords := x.badCodewords.filter (fun c => keep (c / 16)), locs := x.locs.filter (fun q => keep q.1),
      queue := x.queue.filter (fun b => decide (b ≠ block)) })).setBlock block
        (fun x => { x with erases := x.erases + 1, reads := 0, eraseDue := false })))) ∧
  (∀ (s : State) (r : FlashSpace),
    let dead := s.flash.locs.any (fun q => decide (q.2.block = r.victim) && !q.2.live)
    let done := fun (q : State) =>
      let a := (q.forceReclaim r.channel).setB F.FLS_STATUS_WRITE_LOCK 0 0 q.flashShort
      if a.flashShort && !s.fb F.FLS_STATUS_WRITE_LOCK 0 0 then a.log (srcHub 4) Ev.FLS_WRITE_LOCK [] none (some (unitHub 4)) else a
    (blockChannel r.victim = r.channel → dead = true → (s.block r.victim).retired = false →
      s.flash.reloc.any (fun q => decide (q.src = r.victim) || decide (q.dst = r.victim)) = false →
      exec (.flashReclaim r) s = .next (done (s.queueReloc r.victim))) ∧
    (dead = false → exec (.flashReclaim r) s = .next (done s))) ∧
  (∀ (s : State) (src dst : Nat), src ≠ dst → (s.flash.queue.contains src || s.wearCold src) = true → s.flash.unitsIn dst = 0 →
    s.flash.gives dst = true → s.flash.reloc.any (fun r => decide (r.src = src) || decide (r.dst = dst) || decide (r.dst = src)) = false →
    ∃ (f : Flash) (copies : List (Nat × Nat)), exec (.flashRelocateStart src dst) s = .next ((s.setFlash (fun _ => { f with
      reloc := s.flash.reloc ++ [{ src := src, dst := dst, phase := .begun, copies := copies }] })).countReads src (16 * copies.length)) ∧
      copies.map Prod.fst = (s.flash.liveIn src).map Prod.fst ∧ f.map = s.flash.map ∧ f.queue = s.flash.queue) ∧
  (∀ (s : State) (src : Nat) (r : Reloc), s.flash.reloc.find? (fun r => decide (r.src = src) && decide (r.phase = .begun)) = some r →
    let c : Reloc := { r with phase := .copied }
    let a := s.setFlash (fun f => { f with reloc := f.reloc.map (fun q => if q = r then c else q) })
    (s.fb F.FLS_STATUS_READY 0 0 = false → exec (.flashRelocateCopied src) s = .next a) ∧
    (s.fb F.FLS_STATUS_READY 0 0 = true → s.boot.refclkLost = false → exec (.flashRelocateCopied src) s = .next
      ((a.setFlash (fun f => { (f.switchCopies c) with reloc := f.reloc.erase c, queue := f.queue.filter (fun b => decide (b ≠ c.src)) })).setBlock
        c.src (fun x => { x with eraseDue := true })))) ∧
  (∀ s : State, s.fb F.FLS_STATUS_READY 0 0 = true → s.boot.refclkLost = false →
    exec .flashMapCheckpoint s = .next (s.setFlash (fun f => { f with checkpoint := f.map, checkpointSeq := f.seq }))) ∧
  (∀ s : State, s.fb F.FLS_CONFIG_ENABLE 0 0 = true → s.fb F.FLS_STATUS_READY 0 0 = false → s.mapHome = true →
    let a := (s.setFlash (fun f => { f with
      badMap := [], map := f.locs.foldl (fun m q => if q.2.live then mput 0 m q.2.unit (q.1 + 1) else m) [] })).cleanMap
    let b := ((s.flash.reloc.filter (fun r => decide (r.phase = .copied))).foldl (fun s r => s.finishReloc r) a).setF F.FLS_STATUS_READY 0 0 1
    exec .flashMapLoad s = .next
      (b.xfers.foldl (fun s q => if q.2.nand.isNone && q.2.src.any (fun c => c.2.inFlash) then s.advance q.1 else s) b)) ∧
  (∀ (s : State) (c : Nat) (w : Word), c < 8 → s.canWrite c = true → s.fb F.MEM_DISCARD_RESULT_DONE c 0 = true →
    let p := bits w.toNat 39 12
    let n := bits w.toNat 63 40 + 1
    s.discardOk p n = true →
    ∃ now : Nat, now ≤ n ∧ ∃ t : State, exec (.discard c w) s = .next t ∧
      t = { (s.fresh.setF F.MEM_DISCARD_RESULT_DONE c 0 0).discardPages p now with
        discards := mput (0, 0) ((s.fresh.setF F.MEM_DISCARD_RESULT_DONE c 0 0).discardPages p now).discards c (p + now, n - now) }) ∧
  (∀ (s : State) (c : Nat), c < 8 → s.fb F.MEM_DISCARD_RESULT_DONE c 0 = false → s.boot.refclkLost = false →
    let q := mget (0, 0) s.discards c
    let a := s.discardPages q.1 q.2
    exec (.discardDone c) s = .next ((({ a with discards := mput (0, 0) a.discards c (0, 0) } : State).setF F.MEM_DISCARD_RESULT_DONE c 0 1).setF
      F.MEM_DISCARD_RESULT_CODE c 0 0)) ∧
  (∀ (s : State) (c : Nat) (w : Word), c < 8 → s.canWrite c = true →
    exec (.acctLatch c w) s = .next
      ((List.range 16).foldl (fun s i => s.setRg .MEM_ACCT_SNAP c i (s.rg .MEM_ACCT (bits w.toNat 11 0) i)) s))

/-- The nearest-neighbour index: its configuration, SEARCH, INSERT, SETLIST, DELETE, COMMIT, RELEASE and settling complete as chapter 12
says. (12_vector_search.md) -/
def Obligations.SearchCommandsComplete : Prop :=
  (∀ (s : State) (i off n j : Nat) (r : RegName) (w : Word), srcAt off = some (r, n, j) → s.canWrite i = true → s.srcBusy n = false →
    let a := s.setRg r n j (writeFields r.fields (s.rg r n j) w)
    exec (.srcIndexWrite i off w) s = .next (if a.srcCfgOk n then a else a.setF F.SRC_INDEX_CFG_ENABLE n 0 0)) ∧
  (∀ (s : State) (i v : Nat), i < 16 → s.fb F.HUB_STATUS_READY 0 0 = true → s.boot.refclkLost = false → s.stepState (s.srcPart i) ≠ stSaved →
    s.coreRuns (s.f F.SRC_INDEX_CFG_CORE i 0) = true → s.owes (searchStream i) = false →
    ((s.sqSettle i).ringFront (i + 4)).2 = some v → s.fb F.SRC_INDEX_CFG_ENABLE i 0 = true →
    (((s.sqSettle i).ringFront (i + 4)).1.ringJob (i + 4)).begun = false → s.sqBad i v = false → s.sqSpanBad i v = false →
    let a := ((s.sqSettle i).ringFront (i + 4)).1.beginJob (i + 4)
    let g := srcNext (a.srcGen i)
    let h := a.srcHeader i (sqId v)
    let del := h.2.2.1 / 2 ^ 32
    (∀ (d : Data) (n : Nat), sqOp v = 1 → (a.ringJob (i + 4)).snap = 0 → a.srcServed i = true →
      (wordOf v 5 = 0 ∧ n = a.srcGen i) ∨
        (wordOf v 5 = n ∧ n ≠ 0 ∧ n < 2 ^ 32 ∧ srcAge (a.srcGen i) n ≤ 63 ∧ a.srcHeld i n = true) →
      let own := decide (wordOf v 5 = 0) || sqHold v
      let b := ((if own then a.srcReg i n true else a).count F.SRC_QUERIES_COUNT i 0 1).useSnap (i + 4) n own
      let q := b.fetchVia (srcKey i 0) (b.sqActor i) (wordOf v 1) (b.sqSourceLen i v)
      q.2 = some d → d.p = 0 →
      let t := q.1.srcTable i d.v
      t.2.1 = false → t.2.2.any Prod.snd = false →
      let codes := t.2.2.toArray
      let tab := fun n => (codes.getD n (0, false)).1
      let k := ((SrcWalk.mk t.1 [] [] {}).offer i tab (sqW v) (if t.1.srcNodes i ≤ t.1.srcEntry i then srcEmpty else t.1.srcEntry i)).run i tab
        (sqW v) n (sqEmax v)
      let ps := t.1.srcVectors i v k
      (b.fetchPieces (srcKey i 1) (t.1.sqActor i) ps (2 * t.1.srcD i * ps.length) 0 0
        (t.1.f F.MEM_PART_CHARGE_SUBSCRIBER (t.1.srcPart i) 0 + 1)).2.isSome = true →
      let r := k.s.srcReturn i v d.v k
      r.2.1.poisoned = 0 →
      exec (.srcSearch i) s = .next ((((r.1.count F.SRC_EVALUATIONS_COUNT i 0 r.2.1.evaluations).count F.SRC_EXPANSIONS_COUNT i 0
        r.2.1.expansions).count F.SRC_BAD_EDGE_COUNT i 0 r.2.1.badEdge).sqComplete i v 0 n r.2.1 r.2.2)) ∧
    (sqOp v = 2 → h.2.2.2 = false → del = 0 → sqList v < a.srcLists i →
      let act := a.sqActor i
      let b := (h.1.fetchStart (srcKey i 0) act (wordOf v 1) (a.srcM i)).fetchStart (srcKey i 1) act (wordOf v 4) (4 * a.srcDg i)
      (b.fetchReady (srcKey i 0) act (wordOf v 1) (b.srcM i) && b.fetchReady (srcKey i 1) act (wordOf v 4) (4 * b.srcDg i)) = true →
      let q := b.fetchVia (srcKey i 0) act (wordOf v 1) (b.srcM i)
      let r := q.1.fetchVia (srcKey i 1) act (wordOf v 4) (4 * b.srcDg i)
      let c := r.1.srcWrite i (b.srcBase i 0 + b.srcM i * sqId v) (b.srcM i) (q.2.getD {})
      let d := (c.putList i (sqList v) (r.2.getD {})).putBack i (sqList v) srcEmpty
      exec (.srcInsert i) s = .next (((d.putHeader i (sqId v) 1 (2 ^ 32 * srcEmpty)).putHeader i (sqId v) 0
        (2 ^ 32 * g + sqList v)).sqComplete i v 0 g)) ∧
    (∀ lst : Data, sqOp v = 3 → h.2.2.2 = false → del = srcEmpty → h.2.1 / 2 ^ 32 ≠ g → srcLe (h.2.1 / 2 ^ 32) (a.srcOldest i) = true →
      sqList v ≠ h.2.1 % 2 ^ 32 →
      let r := h.1.fetchVia (srcKey i 1) (a.sqActor i) (wordOf v 4) (4 * a.srcDg i)
      r.2 = some lst →
      exec (.srcSetlist i) s = .next ((((r.1.putList i (sqList v) lst).putBack i (sqList v) (h.2.1 % 2 ^ 32)).putHeader i (sqId v) 0
        (2 ^ 32 * g + sqList v)).sqComplete i v 0 g)) ∧
    (sqOp v = 4 → h.2.2.2 = false → del = srcEmpty → sqId v ≠ a.srcEntry i →
      exec (.srcDelete i) s = .next ((h.1.putHeader i (sqId v) 1 (2 ^ 32 * g)).sqComplete i v 0 g)) ∧
    (sqOp v = 5 → a.srcQ i g = 0 →
      (a.srcListed i).any (fun n => (a.srcUnsettled i n).any (fun x => srcLe x g && decide (2 ^ 30 ≤ srcAge g x))) = false →
      exec (.srcCommit i) s = .next (((a.setF F.SRC_INDEX_GEN_CURRENT i 0 g).srcRefresh i).sqComplete i v 0 g)) ∧
    (sqOp v = 6 → a.srcHeld i (wordOf v 5) = true →
      exec (.srcRelease i) s = .next ((a.srcReg i (wordOf v 5) false).sqComplete i v 0 0))) ∧
  (∀ (s : State) (i : Nat), i < 16 → s.fb F.SRC_INDEX_CFG_ENABLE i 0 = true → s.boot.refclkLost = false →
    s.coreRuns (s.f F.SRC_INDEX_CFG_CORE i 0) = true → exec (.srcSettle i) s = .next ((s.srcListed i).foldl (fun s v => s.settleOne i v) s))

/-- SAVE, RESTORE, ABANDON and WITHDRAW of a partition, and the phases of pre-emption, complete as chapter 13 says.
(13_partitions_and_preemption.md) -/
def Obligations.PreemptionCommandsComplete : Prop :=
  (∀ (s : State) (c : Nat) (w : Word), c < 8 → s.canWrite c = true →
    let a := s.forward c .PAR_PREEMPT c 0 w
    let p := F.PAR_PREEMPT_PARTITION.of w
    a.fb F.PAR_PREEMPT_RESULT_DONE c 0 = true → rsvSet (RegName.fields .PAR_PREEMPT) w = false → a.fb F.PAR_CONFIG_GUEST p 0 = false →
    (F.PAR_PREEMPT_OP.of w = 1 → F.PAR_PREEMPT_LEND.of w = 0 → a.phase p = phNone → a.fb F.PAR_CONFIG_ENABLE p 0 = true → a.isHeld p = false →
      let mid := decide (a.stepState p = stRunning)
      let v := (a.evalSave p mid).2
      let hold := fun (ph : Nat) =>
        ((((((a.evalSave p mid).1.setPhase p ph).setF F.PAR_PREEMPT_STATUS_GUEST p 0 (F.PAR_PREEMPT_GUEST.of w)).setF F.PAR_PREEMPT_STATUS_KIT_LOST
          p 0 0).setF F.PAR_PREEMPT_STATUS_IMAGE_BYTES p 0 v.bytes).setPre p (fun x => { x with lend := false }))
      v.code = preOk →
      (a.stepState p ≠ stRunning → exec (.preemptSave c w) s = .next ((hold phWaiting).preAnswer c preOk v.bytes)) ∧
      (a.stepState p = stRunning →
        exec (.preemptSave c w) s = .next (((hold phSaving).enterSaving p true v.bytes).preAnswer c preOk v.bytes))) ∧
    (F.PAR_PREEMPT_OP.of w = 2 → a.returnable p = true → a.fb F.PAR_PREEMPT_STATUS_KIT_LOST p 0 = false → (a.imagesOk p).2 = true →
      exec (.preemptRestore c w) s = .next (((a.imagesOk p).1.goBack p false).preAnswer c preOk 0)) ∧
    (F.PAR_PREEMPT_OP.of w = 3 → a.returnable p = true →
      exec (.preemptAbandon c w) s = .next ((a.goBack p true).preAnswer c preOk 0)) ∧
    (F.PAR_PREEMPT_OP.of w = 4 → a.phase p = phWaiting →
      exec (.preemptWithdraw c w) s = .next
        (((a.setPhase p phNone).setPre p (fun x => { x with boundary := false })).preAnswer c preOk 0))) ∧
  (∀ (s : State) (p : Nat), p < 8 →
    (let u := s.suspendEntries p
     s.phase p = phSaving → (s.part p).pre.imaged = false → (∀ k, k ∈ s.ownKits p → u.kitDrained k = true ∧ u.parcelOnSlots k = false) →
      let r := u.liveList p
      exec (.preemptDrainDone p) s = .next (((s.ownKits p).foldl (fun s k =>
        let g := s.imageOf p k (r.2.getD []) (s.part p).pre.mid
        let s := { (s.writeImage p k g) with saves := mput {} s.saves (p * 8 + k) g }
        (List.range 156).foldl (fun s d => s.zeroDrum k d) s) r.1).setPre p (fun x => { x with imaged := true }))) ∧
    (s.phase p = phSaving → (s.part p).pre.imaged = true →
      let a := (s.setF F.PAR_PREEMPT_STATUS_SAVE_US p 0 (min 0x1FFFF ((s.time - (s.part p).pre.since) / 1000))).log (srcHub 1)
        Ev.PREEMPT_SAVED [] (some p)
      ((s.part p).pre.lend = false → exec (.preemptSaveDone p) s = .next (a.setPhase p phSaved)) ∧
      ((s.part p).pre.lend = true → exec (.preemptSaveDone p) s = .next
        (((a.ownKits p).foldl (fun s k => (s.wipeKit k).setKit k (fun y => { y with lentTo := s.guestOf p + 1 })) a).setPhase p phLent))) ∧
    (s.phase p = phReturning → (∀ k, k ∈ s.ownKits p → s.kitDrained k = true) →
      exec (.preemptReturnDone p) s = .next (((s.ownKits p).foldl (fun s k =>
        let s := s.wipeKit k
        if s.fb F.PAR_LEND_VALID p k then
          s.discardPages ((hbmKit * k + 65536 * s.f F.PAR_LEND_BASE p k) / 4096) (s.f F.PAR_LEND_COUNT p k * 16)
        else s) s).setPhase p phRestoring)) ∧
    (s.phase p = phRestoring →
      let a := (s.ownKits p).foldl (fun t k => t.restoreKit p k (s.part p).pre.abandon) s
      ∀ b : State, b = { a with saves := a.saves.filter (fun q => decide (q.1 / 8 ≠ p)) } →
      let c := ((b.setPhase p phNone).setStep p stRunning).setPre p (fun _ => {})
      exec (.preemptRestoreDone p) s = .next ((c.lowerFloor p (c.partFloor p)).resumeEntries p)))

/-- The regulator window, kit retirement, bridge failure, rail faults, merge ageing and drum commands of the integrity unit complete.
(13_partitions_and_preemption.md, 14_data_integrity.md, 19_electrical_and_package.md, 08_memory_spans_and_tiers.md) -/
def Obligations.RegulatorAndRetirementComplete : Prop :=
  (∀ y z : State, y.boot.regWindow < y.time / 1000 → z = { y with boot := { y.boot with regWindow := y.time / 1000 } } →
    let s := (List.range 8).foldl (fun s p => (List.range 7).foldl (fun s r =>
      s.setF F.PAR_REG_STAT_LAST p r (min (2 ^ 32 - 1) (s.regLast p r))) s) z
    ∀ b : State, b = { s with used := [] } →
    let a := [2, 3, 4, 5, 6].foldl (fun s r => s.checkShort r) b
    exec .regulatorWindow y = .next ((a.grantDue.refillBuckets.refillPolicers.setTrn (fun t => { t with
      parcels := t.parcels.map (fun (q : Nat × Parcel) => (q.1, { q.2 with deferred := false })) })).pumpOwed.pumpTaint.pumpTransit)) ∧
  (∀ (s : State) (k : Nat), s.kitLive k = true → exec (.kitRetire k) s = .next (s.retireKit k)) ∧
  (∀ (s : State) (k b : Nat), s.kitLive k = true → b < 2 → nmem (s.kit k).bridgeDown b = false →
    exec (.bridgeLinkFail k b) s = .next (s.failBridge k b)) ∧
  (∀ (s : State) (k : Nat), s.kitLive k = true → s.power.gone = false → s.boot.resetHeld = false →
    exec (.railFault k) s = .next ((s.setF F.PWR_STATUS_RAIL_FAULT 0 0 1).retireKit k)) ∧
  (∀ (s : State) (k d line : Nat), s.boot.refclkLost = false →
    (s.drum k d).merge.any (fun e => decide (e.line = line) && decide (e.since + s.mergeAge k d ≤ s.time)) = true →
    exec (.mergeAgeFlush k d line) s = .next (s.flushMerge k d (fun e => decide (e.line = line))))

/-- The scrubbers, sound checks and the observation list complete as chapter 14 says. (14_data_integrity.md) -/
def Obligations.ScrubAndSoundChecksComplete : Prop :=
  (∀ (s : State) (u : Nat) (e : Upsets), u < 9 → s.fb F.INT_SCRUB_CFG_ENABLE u 0 = true →
    (u < 8 → s.kitLive u = true ∧ s.boot.refclkLost = false) → s.scrubUsed u < max 1 (s.f F.INT_SCRUB_CFG_RATE u 0) →
    let a := s.strike e
    let b := if a.fb F.INT_SCRUB_STATUS_RUNNING u 0 then a else a.lapBegin u
    let n := b.scrubNext u (mget 0 b.integ.scrubPos u)
    let r := b.scrubRead u n
    let c := r.setInteg (fun x => { x with scrubPos := mput 0 x.scrubPos u (n + 64),
                                           scrubUse := mput (0, 0) x.scrubUse u (r.time / 1000, r.scrubUsed u + 1) })
    exec (.scrubAccess u e) s = .next (if scrubEnd u ≤ n + 64 then c.lapEnd u else c)) ∧
  (∀ (s : State) (u : Nat), u < 9 → s.fb F.INT_SCRUB_STATUS_RUNNING u 0 = true → s.fb F.INT_SCRUB_STATUS_OVERDUE u 0 = false →
    3600000 * max 1 (s.f F.INT_SCRUB_CFG_OVERDUE_H u 0) ≤ s.lapMs u →
    exec (.scrubOverdue u) s = .next ((s.setF F.INT_SCRUB_STATUS_OVERDUE u 0 1).log (if u < 8 then srcKit u else srcHub 8) Ev.SCRUB_OVERDUE)) ∧
  (∀ (s : State) (c b : Nat) (w : Word), c < 8 → s.fb F.HUB_STATUS_READY 0 0 = true → s.fb F.INT_SCHECK_RESULT_DONE c 0 = true →
    let a := F.INT_SCHECK_UNIT.of w
    let good := fun (u : Nat) => unitExists u = true ∧ s.unitRetired u = false ∧ unitKind u = F.INT_SCHECK_KIND.of w ∧ s.underTest u = false
    (if F.INT_SCHECK_PARTNER.of w = 0xFFFFFF then s.autoPartner a [a] else some (F.INT_SCHECK_PARTNER.of w)) = some b →
    good a → good b → a ≠ b →
    exec (.scheckRequest c w) s = .next ((s.setF F.INT_SCHECK_RESULT_DONE c 0 0).setCheck c
      { live := true, a := a, b := b, seed := (s.rg .INT_SCHECK_SEED c 0).toNat, since := s.time })) ∧
  (∀ (s : State) (c : Nat) (k : SCheck), s.withPartner (s.check c) = some k → k.live = true → k.running = false →
    k.tests.all (fun u => s.inGap u && !s.underTest u) = true →
    exec (.scheckRun c) s = .next (s.setCheck c { k with running := true, forced := false })) ∧
  (∀ (s : State) (c : Nat) (k : SCheck),
    let n := s.f F.INT_OBS_CFG_FORCE_S 0 0
    s.withPartner (s.check c) = some k → k.live = true → k.running = false → unitKind k.a ≠ 4 →
    k.since + (if 10 ≤ n ∧ n ≤ 600 then n else 600) * 1000000000 ≤ s.time →
    (∀ u ∈ k.tests, s.underTest u = false ∧ (unitKind u = 3 → s.codecBusy (bits u 20 18) = false)) →
    (∀ u ∈ k.tests, unitKind u < 2 → let x := s.drum (unitKit u) (unitNum u)
      x.inStep = false ∧ x.calibrating = false ∧ x.rebindFrom = 0 ∧ s.mustForce (unitKit u) (unitNum u) = false) →
    let run := fun (a : State) => (a.setCheck c { k with running := true, forced := true }).log (srcHub 8) Ev.SCHECK_FORCED [] none (some k.a)
    (unitKind k.a = 3 → exec (.scheckForced c) s = .next (run s)) ∧
    (unitKind k.a ≠ 3 → s.heldKits k ≠ [] → (∀ q ∈ s.heldKits k, (s.kit q).forcedCalib = false ∧ (List.range 156).any (s.mustForce q) = false) →
      exec (.scheckForced c) s = .next (run ((s.heldKits k).foldl (fun s q =>
        let p := (s.partOfKit q).getD 0
        let ns := k.tests.foldl (fun n u => if unitKit u = q then max n (s.testNs u) else n) 0
        let s := ((s.setKit q (fun x => { x with forcedCalib := true })).extendD p ns).setF F.PAR_STEP_STATUS_CALIB_FORCED p 0 1
        s.setPart p (fun x => { x with run := { x.run with calibForced := true } })) s)))) ∧
  (∀ (s : State) (c : Nat) (r : CheckResult), (s.check c).live = true → (s.check c).running = true →
    let k := s.check c
    let a := s.count F.INT_CHECKS_COUNT 0 0 1
    let b := a.setCheck c { k with running := false, forced := false }
    (k.refereeing = false → r.agree = true → exec (.scheckEnd c r) s = .next (a.checkPass c k)) ∧
    (∀ v : Nat, k.refereeing = false → r.agree = false → b.autoPartner k.a [k.a, k.b] = some v →
      exec (.scheckEnd c r) s = .next (b.setCheck c { k with running := false, forced := false, refereeing := true, referee := v })) ∧
    (k.refereeing = false → r.agree = false → b.autoPartner k.a [k.a, k.b] = none → exec (.scheckEnd c r) s = .next (b.checkUnresolved c k)) ∧
    (k.refereeing = true → r.refA = true → r.refB = false → exec (.scheckEnd c r) s = .next (a.checkBad c 2 k.b k)) ∧
    (k.refereeing = true → r.refA = false → r.refB = true → exec (.scheckEnd c r) s = .next (a.checkBad c 1 k.a k)) ∧
    (k.refereeing = true → r.refA = r.refB → exec (.scheckEnd c r) s = .next (a.checkUnresolved c k))) ∧
  (∀ (s : State) (e : Nat), e < 256 → s.fb F.INT_OBS_VALID e 0 = true → (s.check (8 + e)).live = false →
    let n := s.f F.INT_OBS_CFG_PERIOD_S 0 0
    mget 0 s.integ.retests e + 1000000000 * (if 1 ≤ n ∧ n ≤ 600 then n else 600) ≤ s.time + 1 →
    exec (.obsRetest e) s = .next (s.queueCheck (8 + e) (s.f F.INT_OBS_UNIT e 0))) ∧
  (∀ (s : State) (c : Nat) (w : Word), c < 8 → s.fb F.HUB_STATUS_READY 0 0 = true →
    (F.INT_OBS_ADD_REASON.of w = 1 ∨ F.INT_OBS_ADD_REASON.of w = 2) → unitExists (F.INT_OBS_ADD_UNIT.of w) = true →
    s.unitRetired (F.INT_OBS_ADD_UNIT.of w) = false →
    exec (.obsAdd c w) s = .next (s.observe (F.INT_OBS_ADD_UNIT.of w) (F.INT_OBS_ADD_REASON.of w)))

/-- Pair mode: replay, forwarded writes, comparison, diagnosis, heartbeats, partner loss and joining complete as chapter 15 says.
(15_pair_mode_and_fault_tolerance.md) -/
def Obligations.PairModeComplete : Prop :=
  (∀ (s : State) (c : Nat) (w : Word), c < 8 → s.fb F.HUB_STATUS_READY 0 0 = true →
    let a := s.forward c .PAR_REPLAY c 0 w
    let p := F.PAR_REPLAY_PARTITION.of w
    let r := a.replayCode p (F.PAR_REPLAY_SEQ.of w)
    let b := (r.1.setF F.PAR_REPLAY_RESULT_CODE c 0 r.2).setF F.PAR_REPLAY_RESULT_DONE c 0 1
    exec (.replay c w) s = .next (if r.2 = 0 then b.replayStep p else b)) ∧
  (∀ (s : State) (i off : Nat) (w : Word), s.follows = true →
    ∃ u : State, exec (.forwardedWrite i off w) s = .next u ∧ u.pair.applying = false ∧
      ∀ j k : Nat, s.alive = true → s.regOf off = some (.EVT_READ, j, k) →
        u.rg .EVT_READ j k = newWord .EVT_READ (s.rg .EVT_READ j k) w ∧ u.pair = { s.pair with applying := false } ∧ u.mem = s.mem ∧
        u.fab = s.fab) ∧
  (∀ (s : State) (m : CompareMsg), s.compares m.part = true → m.part < 8 →
    (1 ≤ m.kind → m.kind ≤ 4 →
      exec (.compareMessage m) s = .next (s.setPair (fun x => { x with theirs := x.theirs ++ [(m, s.time)] })).settlePair) ∧
    (m.kind = 5 → exec (.compareMessage m) s = .next (s.diverge m))) ∧
  (∀ (s : State) (p outcome : Nat), p < 8 → s.diagnosed p = true →
    let own := nmem s.pair.ownBad p
    let a := s.setPair (fun x => { x with diverged := ndel x.diverged p, ownBad := ndel x.ownBad p })
    let lead := decide (a.role = roleLead)
    let leadBad := if lead then own else decide (outcome = 1)
    let shadowBad := if lead then decide (outcome = 1) else own
    let full := if lead then a.pair.partnerFull else decide (a.role = roleFull)
    (a.role = roleAlone → exec (.pairDiagnosisDone p outcome) s = .next (a.tryReplay p)) ∧
    (a.role ≠ roleAlone → leadBad = true → shadowBad = false → full = true → exec (.pairDiagnosisDone p outcome) s = .next (a.promote p)) ∧
    (a.role ≠ roleAlone → leadBad = true → (shadowBad = true ∨ full = false) →
      exec (.pairDiagnosisDone p outcome) s = .next (a.leadReplays p)) ∧
    (a.role ≠ roleAlone → leadBad = false → (shadowBad = true ∨ nmem a.pair.runs p = true) →
      exec (.pairDiagnosisDone p outcome) s = .next (a.leadReplays p)) ∧
    (a.role ≠ roleAlone → leadBad = false → shadowBad = false → nmem a.pair.runs p = false →
      exec (.pairDiagnosisDone p outcome) s = .next (((a.setPair (fun x => { x with runs := nins x.runs p })).compareAgain p).tryReplay p))) ∧
  (∀ s : State, s.paired = true → exec .heartbeatSend s = .next ([16, 17].foldl (fun s l =>
    if s.linkUp l && decide (mget 0 s.pair.sentBeats l + 999 ≤ s.time) then s.setPair (fun x => { x with sentBeats := mput 0 x.sentBeats l (s.time + 1) })
    else s) s)) ∧
  (∀ (s : State) (link : Nat), s.paired = true → s.role ≠ roleAlone → (link = 16 ∨ link = 17) → s.linkUp link = true →
    exec (.heartbeat link) s = .next ((s.setPair (fun x => { x with beats := mput 0 x.beats link (s.time + 1) })).setF
      F.HUB_PAIR_STATUS_PARTNER_UP 0 0 1)) ∧
  (∀ s : State, s.paired = true → s.fb F.HUB_PAIR_STATUS_PARTNER_UP 0 0 = true → s.role ≠ roleAlone →
    mget 0 s.pair.beats 16 + 10000 ≤ s.time + 1 → mget 0 s.pair.beats 17 + 10000 ≤ s.time + 1 →
    let a := (s.setF F.HUB_PAIR_STATUS_PARTNER_UP 0 0 0).log (srcHub 8) Ev.PAIR_PARTNER_LOST [] none none true
    a.role = s.role ∧
    (s.role = roleLead → exec .pairPartnerLost s = .next ((a.setRole roleAlone).settlePair)) ∧
    (s.role = roleFull → exec .pairPartnerLost s = .next a.sendProbe) ∧
    (s.role ≠ roleLead → s.role ≠ roleFull → exec .pairPartnerLost s = .next a.standDown)) ∧
  (∀ (s : State) (p left kits : Nat), s.paired = true → p < 8 → s.role ≠ roleAlone → bit (s.f F.HUB_PAIR_STATUS_RESYNC 0 0) p = true →
    let lead := decide (s.role = roleLead)
    let need := if lead then s.kitUnion else kits
    need &&& (if lead then kits else bitField 8 (fun k => s.kitLive k)) = need →
    (0x4000000 ≤ left → exec (.pairJoinPassDone p left kits) s = .next (s.setPair (fun x => { x with dirty := [] }))) ∧
    (left < 0x4000000 → lead = true → s.stepState p ≠ stIdle →
      exec (.pairJoinPassDone p left kits) s = .next (s.setPair (fun x => { x with joinHold := nins x.joinHold p }))) ∧
    (left < 0x4000000 → (lead = false ∨ s.stepState p = stIdle) →
      let a := (s.setResync p false).setPair (fun x => { x with joinHold := ndel x.joinHold p, dirty := [] })
      exec (.pairJoinPassDone p left kits) s = .next
        (if a.role = roleJoining ∧ a.f F.HUB_PAIR_STATUS_RESYNC 0 0 = 0 then a.setRole roleProbation else a)))

/-- The event log, its spill and window, lost banks, and the control cores' watchdogs and restarts complete as chapters 16 to 18 say. The
item of CC_HANG is a free value of the model (pc below). (16_events_and_counters.md, 17_bringup_and_configuration.md,
18_host_port_and_control_map.md) -/
def Obligations.EventLogAndCoresComplete : Prop :=
  (∀ (s : State) (src : Nat) (r : EvRec) (rest : List EvRec), mget [] s.ev.queues src = r :: rest → s.ev.running = true →
    s.ev.next = some src → s.ev.free ≤ s.time →
    ∀ a : State, a = { s with ev := { s.ev with
      queues := mput [] s.ev.queues src rest, drops := ndel s.ev.drops src, last := src + 1, free := s.time + 10 * r.records } } →
    exec (.eventAccept src) s = .next (a.acceptEv r (nmem s.ev.drops src))) ∧
  (∀ (s : State) (b v : Nat), s.spilling = true → s.banksLost = false → s.spillPtr < s.evtHead → s.asleep (s.spillAddr s.spillPtr) = false →
    (s.fromBanks s.spillPtr).2 = some (b, v) →
    let r := s.fromBanks s.spillPtr
    let a := r.1.writeAll evtUnit (r.1.spillAddr s.spillPtr) 64 { v := v, p := 0 }
    a.spillSlots ≥ s.spillPtr → exec .eventSpill s = .next (a.setRg .EVT_SPILL_PTR 0 0 (BitVec.ofNat 64 (s.spillPtr + 1)))) ∧
  (∀ (s : State) (i b v : Nat), (s.fromBanks (s.rg .EVT_READ 0 0).toNat).2 = some (b, v) →
    let a := (List.range 8).foldl (fun s w => s.setRg .EVT_WINDOW w 0 (BitVec.ofNat 64 (v / 2 ^ (64 * w))))
      (s.fromBanks (s.rg .EVT_READ 0 0).toNat).1
    let c := (a.setF F.EVT_WINDOW_SRC_SOURCE 0 0 (b + 1)).setB F.EVT_WINDOW_SRC_OLDER 0 0 false
    ∃ t : State, exec (.evtWindowLatch i) s = .next t ∧ t.regs = c.regs ∧ t.mem = c.mem ∧ t.out.rdata = v % 2 ^ 64 ∧ t.out.ep = false) ∧
  (∀ (s : State) (bank cause : Nat), bank < 2 → (cause = 3 ∨ (cause = 2 ∧ 16 ≤ (if bank = 0 then s.ev.bad0 else s.ev.bad1).length)) →
    exec (.logBankLost bank cause) s = .next (s.loseBank bank cause)) ∧
  (∀ (s : State) (i c : Nat) (w : Word), c < 8 → s.canWrite i = true → F.HUB_CC_WATCHDOG_KICK.of w = 1 →
    exec (.ccWatchdogKick i c w) s = .next (s.watchdogWrite c w)) ∧
  (∀ (s : State) (c : Nat), s.coreRuns c = true → s.fb F.HUB_CC_WATCHDOG_ENABLE c 0 = true →
    mget 0 s.boot.kicks c - 1 + s.watchdogNs c ≤ s.time →
    ∃ pc : Nat, pc < 2 ^ 64 ∧
      let a := ((s.log (srcCore c) Ev.CC_HANG [pc] none (some (unitCore c)) true).fresh).kickCore c
      exec (.ccHang c) s = .next (if a.fb F.HUB_CC_WATCHDOG_RESTART c 0 then a.restartCore c else a)) ∧
  (∀ (s : State) (i : Nat) (w : Word), s.canWrite i = true → exec (.ccRestart i w) s = .next
    ((List.range 8).foldl (fun s c => if bit (F.HUB_CC_RESTART_CORES.of w) c && s.coreRuns c then s.restartCore c else s) s)) ∧
  (∀ (s : State) (c : Nat), nmem s.boot.restarting c = true → exec (.ccRestarted c) s = .next (s.releaseCore c))

/-- Resets, power and clock events, tempo windows and the host port's events complete as chapters 17 to 19 say.
(17_bringup_and_configuration.md, 18_host_port_and_control_map.md, 19_electrical_and_package.md) -/
def Obligations.ResetPowerAndPortComplete : Prop :=
  (∀ (s : State) (aon : Bool), exec (.coldReset aon) s = .next (s.coldReset (aon || s.power.gone))) ∧
  (∀ (s : State) (i : Nat) (w : Word), (s.resetWord i w 2 = true → exec (.hubResetCold i w) s = .next (s.coldReset false)) ∧
    (s.resetWord i w 1 = true → exec (.hubResetWarm i w) s = .next s.warmReset)) ∧
  (∀ s : State, s.power.gone = false →
    (exec .fixedRailOutOfTolerance s = .next (s.coldReset false)) ∧
    (s.boot.resetHeld = false → exec .warmResetRequest s = .next s.warmReset) ∧
    (s.boot.resetHeld = false → s.boot.refclkLost = false → ∀ a : State, a = { s with boot := { s.boot with refclkLost := true } } →
      exec .refclkLost s = .next ((List.range 18).foldl (fun s i => s.takeDown i downSignal) (a.log (srcHub 0) Ev.REFCLK_LOST [] none none true))) ∧
    (∀ a : State, a = { s with power := { s.power with tripped := true, thermTripLow := true }, boot := { s.boot with coresRun := 0 } } →
      exec .thermalTrip s = .next a.checkService) ∧
    (∀ (w : WindowReading) (a : State), s.boot.resetHeld = false → s.boot.tempoWindow < s.time / 1000000 →
      a = { s with boot := { s.boot with tempoWindow := s.time / 1000000 } } →
      (a.tempoRuns = true → exec (.tempoWindowClose w) s = .next (a.closeWindow w false)) ∧
      (a.tempoRuns = false →
        exec (.tempoWindowClose w) s = .next (((w.kits.foldl (fun s r => s.notePast r) a).readPower w).chargeTiers))) ∧
    (∀ (node : BitVec 16) (n : Bool) (a : State), s.boot.resetHeld = true →
      a = { s with boot := { s.boot with resetHeld := false, warmHeld := false, releasedAt := s.time, nodeStrap := node, defaultN := n } } →
      exec (.resetRelease node n) s = .next (((a.setF F.FAB_CONFIG_NODE 0 0 node.toNat).setStage 1).setB F.HUB_BOOT_WARM 0 0 false)) ∧
    (∀ (node : BitVec 16) (n : Bool) (a : State), s.boot.resetHeld = false → s.boot.warmHeld = true →
      a = { s with boot := { s.boot with warmHeld := false, releasedAt := s.time } } →
      exec (.resetRelease node n) s = .next ((a.setStage 1).setB F.HUB_BOOT_WARM 0 0 true)) ∧
    (s.boot.resetHeld = false → exec .hostPortTrained s = .next (s.setHost (fun h => { h with trained := true })))) ∧
  (∀ s : State, s.boot.refclkLost = true → exec .refclkReturn s = .next s.warmReset) ∧
  (∀ s : State, ∃ t : State, exec .powerLoss s = .next t ∧ t.power = { gone := true } ∧ t.mgmt = { rbLow := false } ∧
    t.regs = (s.coldReset true).regs ∧ t.mem = (s.coldReset true).mem ∧ t.boot = (s.coldReset true).boot) ∧
  (∀ s : State, exec .hostPerst s = .next (s.portReset.log (srcHub 9) Ev.HOST_PERST [s.portDrops])) ∧
  (∀ s : State, s.host.trained = true → exec .hostLinkDown s = .next (s.portReset.log (srcHub 9) Ev.HOST_LINK_DOWN [s.portDrops]))

/-- OPEN, staged writes, VALIDATE, COMMIT, ABANDON, ROLLBACK, CANCEL and the phases of an epoch switch complete as chapter 17 says.
(17_bringup_and_configuration.md) -/
def Obligations.ConfigurationEpochsComplete : Prop :=
  (∀ (s : State) (i : Nat) (w : Word), s.canWrite i = true → s.follows = false → rsvSet (RegName.fields .HUB_CFG_CMD) w = false →
    (s.cfgPhase = cfgIdle ∨ s.f F.HUB_CFG_STATUS_OWNER 0 0 = i) →
    let a := s.forward i .HUB_CFG_CMD 0 0 w
    let p := decide (F.HUB_CFG_CMD_PERSIST.of w = 1)
    (∀ b : State, F.HUB_CFG_CMD_OP.of w = 1 → a.cfgPhase = cfgIdle → b = { a with staged := a.epochNow } →
      exec (.cfgOpen i w) s = .next
        ((((b.setF F.HUB_CFG_STATUS_OWNER 0 0 i).setCfgPhase cfgOpened).unmark stagedBase imageMax).cfgAnswer cfgOk 0)) ∧
    (F.HUB_CFG_CMD_OP.of w = 2 → a.cfgStaging = true → a.validateStaged.2 = true →
      exec (.cfgValidate i w) s = .next (a.validateStaged.1.cfgAnswer cfgOk 0)) ∧
    (F.HUB_CFG_CMD_OP.of w = 3 → a.cfgStaging = true → a.cfgPhase = cfgValidated →
      exec (.cfgCommit i w) s = .next (a.beginSwitch a.staged a.nextNumber false p p (F.HUB_CFG_CMD_HOLD_LIMIT_US.of w))) ∧
    (F.HUB_CFG_CMD_OP.of w = 4 → a.cfgStaging = true → exec (.cfgAbandon i w) s = .next (a.endSession.cfgAnswer cfgOk 0)) ∧
    (F.HUB_CFG_CMD_OP.of w = 5 → a.cfgPhase = cfgIdle → a.fb F.HUB_CFG_STATUS_PREV_VALID 0 0 = true →
      (a.validateEpoch a.previous false).1 = cfgOk →
      exec (.cfgRollback i w) s = .next ((a.setF F.HUB_CFG_STATUS_OWNER 0 0 i).beginSwitch a.previous (a.f F.HUB_CFG_PREVIOUS_NUMBER 0 0) true
        p (p && !a.norHoldsPrevious) (F.HUB_CFG_CMD_HOLD_LIMIT_US.of w))) ∧
    (F.HUB_CFG_CMD_OP.of w = 6 → a.cfgPhase = cfgHolding →
      exec (.cfgCancel i w) s = .next (a.cfgBack.cfgAnswer cfgCancelled 0))) ∧
  (∀ (s : State) (i off j k : Nat) (r : RegName) (w : Word), regAt off = some (r, j, k) → r.info.epoch = true → s.canWrite i = true →
    s.cfgStaging = true → s.f F.HUB_CFG_STATUS_OWNER 0 0 = i → s.follows = false →
    let a := s.forward i r j k w
    ∀ b : State, b = { a with staged := storePut a.staged r j k (mixCfg r.fields (storeGet a.staged r j k) w) } →
    exec (.cfgStagedWrite i off w) s = .next (b.setCfgPhase cfgOpened)) ∧
  (∀ s : State, s.cfgPhase = cfgPersisting →
    let a := s.setNorSlot s.otherSlot { (s.norSlot s.otherSlot) with ok := true }
    exec (.cfgPersistDone true) s = .next (((a.cfgJournal 2 s.otherSlot a.cfg.targetNum a.cfg.target).copyToNor).enterHolding) ∧
    exec (.cfgPersistDone false) s = .next ((s.cfgBack.log (srcHub 8) Ev.CFG_NOR_FAIL).cfgAnswer cfgNorFail 0)) ∧
  (∀ s : State, s.cfgPhase = cfgHolding →
    (s.allHeld = true → (s.under (takeEpoch s.regs s.cfg.target)).badQuotas = [] → exec .cfgHoldComplete s = .next s.soundGong) ∧
    (s.cfg.limitAt ≤ s.time → exec .cfgTimeout s = .next ((s.cfgBack.log (srcHub 8) Ev.CFG_TIMEOUT).cfgAnswer cfgTimeout 0))) ∧
  (∀ s : State, s.cfgPhase = cfgSwitching → s.switchDrained = true → s.cfg.isRollback = false → s.cfg.persist = false →
    let n := s.otherSlot
    let a := (s.setSlot n { num := s.cfg.targetNum, regs := s.epochNow, ok := true }).cfgJournal 3 n s.cfg.targetNum s.epochNow
    let b := (a.setF F.HUB_CFG_PREVIOUS_NUMBER 0 0 (a.f F.HUB_CFG_STATUS_CURRENT 0 0)).setF F.HUB_CFG_STATUS_PREV_VALID 0 0 1
    let c := (b.setF F.HUB_CFG_STATUS_CURRENT 0 0 s.cfg.targetNum).setCfg (fun c => { c with curSlot := n })
    let cores := (List.range 8).filter (fun c => decide (storeGet s.cfg.old .HUB_CC_IMAGE c 0 ≠ s.rg .HUB_CC_IMAGE c 0))
    ∀ d : State, d = { c with previous := epochOf c.cfg.old } →
    let e := ((d.discardOld.endSession.fixDurable).log (srcHub 8) Ev.CFG_SWITCHED).cfgAnswer cfgOk 0
    exec .cfgSwitchDone s = .next ((e.setCfg (fun c => { c with restartCores := c.restartCores ++ cores })).nextRestart
      (if e.cfg.restartCores.isEmpty then 9 else 0))) ∧
  (∀ s : State, s.cfg.norOwed.isEmpty = false → exec .cfgNorSwitchWritten s = .next s.writeOwed)

/-- The seven stages of boot complete as Table 17.4 says. (17_bringup_and_configuration.md) -/
def Obligations.BootStagesComplete : Prop :=
  (∀ (s : State) (r : RomReport), s.stage = 1 →
    (r.selfOk = false → exec (.bootRom r) s = .next (s.bootFail 1)) ∧
    (r.selfOk = true → r.refclk = true → r.norOk = true → norLeast ≤ s.boot.norSize → s.isWarm = true →
      exec (.bootRom r) s = .next ((s.setBoot (fun b => { b with tries := s.bootTries })).setStage 2))) ∧
  (∀ (s : State) (n : Nat) (h : BootHead), s.stage = 2 →
    s.boot.tries.find? (fun n => (s.bootSlot n).any (fun h => decide (sha384 (s.bootBody n h) h.len = h.digest))) = some n →
    s.boot.tries.head? = some n → s.bootSlot n = some h →
    exec .bootVerify s = .next (((s.takeImage h (s.bootBody n h)).setF F.HUB_BOOT_SLOT 0 0 n).setStage 3)) ∧
  (∀ (s : State) (r : FillReport), s.stage = 3 →
    (s.isWarm = true → exec (.bootFill r) s = .next (s.startLog.setStage 4)) ∧
    (s.isWarm = false → r.other = false → r.bank0 = false → r.bank1 = false →
      let a := (r.drums.foldl (fun s q => s.fillDrum q.1 q.2) (s.fillZeros (s.boot.aonLost || r.aonLost)).applyRetired).fixKits.fillGranules r.granules
      exec (.bootFill r) s = .next ((a.setBoot (fun b => { b with fillDone := true })).startLog.setStage 4))) ∧
  (∀ (s : State) (failed : List Nat), s.stage = 4 →
    let a := failed.foldl (fun s k => s.retireKit k) s
    (List.range 8).any (fun k => a.kitLive k && !(a.activeDrums k).isEmpty) = true →
    exec (.bootHbm failed) s = .next (a.setStage 5)) ∧
  (∀ (s : State) (trained : List (Nat × Nat)), s.stage = 5 →
    let a := trained.foldl (fun s q => if s.canTrain q.1 q.2 then s.linkTrained q.1 q.2 else s) s
    let b := (List.range 18).foldl (fun s i =>
      if s.fb F.FAB_PORT_CFG_ENABLE i 0 && !s.linkUp i then s.log (srcLink i) Ev.BOOT_LINK_LATE [] none (some (unitLink i)) else s) a
    let c := b.setBoot (fun x => { x with seedPort := ((List.range 16).find? (fun i => b.linkUp i)).getD 0 })
    exec (.bootLink trained) s = .next (((List.range 8).foldl (fun s k => if s.kitLive k then (List.range 156).foldl (fun s d =>
      if (s.drum k d).retired then s else s.setDrum k d (fun x => { x with calibrating := true })) s else s) c).setStage 6)) ∧
  (∀ (s : State) (w : WindowReading), s.stage = 6 → exec (.bootTempo w) s = .next ((((List.range 8).foldl (fun s k =>
    (List.range 156).foldl (fun s d => s.calibrated k d) s) s).closeWindow w true).setStage 7)) ∧
  (∀ s : State, s.stage = 7 →
    let q := ((List.range 8).filter (fun k => !s.kitLive k)).foldl editPick s.pickEpoch
    exec .bootConfig s = .next (((List.range 8).foldl (fun s c => s.startCore c) ((q.2.applyEpoch q.1).closeTransit)).bootDone q.1.src))

/-- Host queue registers, doorbells, the five host commands and their completions complete as chapter 18 says.
(18_host_port_and_control_map.md) -/
def Obligations.HostQueuesComplete : Prop :=
  (∀ (s : State) (i q : Nat) (w : Word), s.canQueue i q = true →
    let old := s.rg .HUB_HQ_CFG q 0
    let new := writeFields (RegName.fields .HUB_HQ_CFG) old w
    F.HUB_HQ_CFG_ENABLE.of old = 0 →
    (F.HUB_HQ_CFG_ENABLE.of new = 0 → exec (.hqCfgWrite i q w) s = .next (s.setRg .HUB_HQ_CFG q 0 new)) ∧
    (F.HUB_HQ_CFG_ENABLE.of new ≠ 0 → exec (.hqCfgWrite i q w) s = .next ((((s.setRg .HUB_HQ_CFG q 0 new).setRg .HUB_HQ_STATUS q 0
      (RegName.resetWord .HUB_HQ_STATUS q 0)).setRg .HUB_HQ_SQ_TAIL q 0 0).setRg .HUB_HQ_CQ_HEAD q 0 0))) ∧
  (∀ (s : State) (i q : Nat) (w : Word) (es : List HostEntry), s.canQueue i q = true → s.hqOn q = true →
    let n := diff16 (F.HUB_HQ_SQ_TAIL_TAIL.of w) (s.f F.HUB_HQ_STATUS_SQ_HEAD q 0)
    n ≤ 2 ^ s.f F.HUB_HQ_CFG_SQ_LOG2 q 0 →
    exec (.hqSqDoorbell i q w es) s = .next
      ((es.take n).foldl (fun s e => s.takeEntry q e) (s.setF F.HUB_HQ_SQ_TAIL_TAIL q 0 (F.HUB_HQ_SQ_TAIL_TAIL.of w)))) ∧
  (∀ (s : State) (i q : Nat) (w : Word), s.canQueue i q = true → s.hqOn q = true →
    diff16 (F.HUB_HQ_CQ_HEAD_HEAD.of w) (s.f F.HUB_HQ_CQ_HEAD_HEAD q 0) ≤
      diff16 (s.f F.HUB_HQ_STATUS_CQ_TAIL q 0) (s.f F.HUB_HQ_CQ_HEAD_HEAD q 0) →
    exec (.hqCqDoorbell i q w) s = .next (s.setF F.HUB_HQ_CQ_HEAD_HEAD q 0 (F.HUB_HQ_CQ_HEAD_HEAD.of w))) ∧
  (∀ (s : State) (q : Nat) (c : HostCmd) (d : HostData), s.hostFront q c.opc = some c → c.bad = false → s.follows = false → d.dmaError = false →
    let a := s.hostPop q
    let n := c.arg1
    let b := 1 - a.f F.HUB_BOOT_SLOT 0 0
    (let r : ReqRec := { v := hostVal d 128, p := 0, part := a.f F.HUB_HQ_CFG_PARTITION q 0, src := .host q a.host.nextNum }
     c.opc = 1 → c.drop = false → c.arg0 = 0 → c.arg1 = 0 → hostMask d 128 = 0 → (r.op = 1 ∨ r.op = 2 ∨ r.op = 5) → r.w 3 = 0 →
      a.follows = false → a.fb F.HUB_STATUS_READY 0 0 = true →
      let k : HostCompl := { num := a.host.nextNum, cid := c.cid, head := c.head, serve := true, ready := false }
      let w := mget [] a.host.waiting q
      exec (.serve q d) s = .next
        ((a.setHost (fun h => { h with nextNum := h.nextNum + 1, waiting := mput [] h.waiting q (w ++ [k]) })).deliver r)) ∧
    (c.opc = 2 → 64 ≤ n → n ≤ 0x4000000 → n % 64 = 0 → c.data % 64 = 0 → c.arg0 % 64 = 0 → s.fb F.HUB_STATUS_READY 0 0 = true →
      s.reserves c.arg0 n = false → s.asleep (s.canon c.arg0) = false →
      (c.dir = 0 → exec (.hqCopy q d) s = .next ((a.softWrite c.arg0 n { v := hostVal d n, p := hostMask d n }).hostEnd q c
        (if hostMask d n = 0 then 0 else 5) [] false)) ∧
      (∀ t : State, c.dir ≠ 0 →
        let g := s.flashGate (hqKey q) 4097 c.arg0 n
        g.2 = true →
        let r := (g.1.hostPop q).readMem noUnit c.arg0 n
        t = { r.1 with out := { r.1.out with host := r.1.out.host ++ hostWrites c.data r.2 n } } →
        exec (.hqCopy q d) s = .next (t.hostEnd q c (if r.2.p = 0 then 0 else 5) [] false))) ∧
    (a.follows = false → a.fb F.HUB_STATUS_READY 0 0 = true → a.host.norBusy = false → hostMask d n = 0 → d.norOk = true → 512 ≤ n →
      (∀ (h : ProgHead) (m : Nat), c.opc = 3 → c.arg0 < 256 → n ≤ 0x80000 → c.arg0 < a.storeEntries → a.entryInUse c.arg0 = false →
        let t := a.norWrite (entryOff c.arg0) n (hostVal d n) true
        t.program c.arg0 = some (h, m) →
        exec (.install q d) s = .next ((t.log (srcHub 9) Ev.HOST_INSTALL [q]).hostEnd q c 0 [h.digest / 2 ^ 336] true)) ∧
      (∀ h : BootHead, c.opc = 4 → c.arg0 = 0 → n ≤ 0x400000 →
        let t := a.norWrite (bootOff b) n (hostVal d n) true
        t.bootImage b = some h →
        exec (.bootWrite q d) s = .next ((t.log (srcHub 9) Ev.HOST_BOOT_WRITE [q]).hostEnd q c 0 [b * 2 ^ 32 + h.version] true))) ∧
    (∀ h : BootHead, c.opc = 5 → q = 0 → c.arg0 = 0 → 512 ≤ n → n ≤ 0x400000 → a.stage = stageFailed → a.f F.HUB_BOOT_FAIL 0 0 = 4 →
      a.follows = false → a.host.norBusy = false → hostMask d n = 0 → (bootHead (hostVal d n % 2 ^ 4096)).filter a.headOk = some h →
      sha384 (hostVal d n / 2 ^ 4096 % 256 ^ h.len) h.len = h.digest →
      let e := ((a.takeImage h (hostVal d n / 2 ^ 4096 % 256 ^ h.len)).setStage 3).setF F.HUB_BOOT_FAIL 0 0 0
      ∀ t : State, t = { e with mgmt := { e.mgmt with rbLow := true, inPulse := false } } →
      exec (.recover q d) s = .next ((t.log (srcHub 9) Ev.HOST_RECOVER [q]).hostEnd q c 0 [] true))) ∧
  (∀ (s : State) (q : Nat) (c : HostCompl), s.hqOn q = true → nextCompl (mget [] s.host.waiting q) false = some c →
    diff16 (s.f F.HUB_HQ_STATUS_CQ_TAIL q 0) (s.f F.HUB_HQ_CQ_HEAD_HEAD q 0) ≠ 2 ^ s.f F.HUB_HQ_CFG_CQ_LOG2 q 0 →
    exec (.hqCommandComplete q) s = .next (s.writeCompl q c))

/-- Attention pulses, the management bus and SPDM requests complete as chapter 18 says. The PID, BCR, DCR, status, certificate and
signatures are values that the spec leaves open: opaque Config fields. (18_host_port_and_control_map.md) -/
def Obligations.AttentionAndManagementComplete : Prop :=
  (∀ (s : State) (i : Nat) (w : Word), s.alive = true → i ≤ 8 → F.HUB_ATTN_CFG_RAISE.of w = 1 → exec (.attnRaise i w) s = .next
    ((s.setRg .HUB_ATTN_CFG 0 0 (writeFields (RegName.fields .HUB_ATTN_CFG) (s.rg .HUB_ATTN_CFG 0 0) w)).cause F.HUB_STATUS_CAUSE_RAISE)) ∧
  (∀ (s t : State), s.fb F.HUB_STATUS_ATTN 0 0 = true → s.mgmt.rbLow = false → s.mgmt.inPulse = false → s.pulseSpaced = true →
    t = { s with mgmt := { s.mgmt with inPulse := true, pulseStart := s.time, pulseDue := false } } →
    (s.mgmt.pulseDue = true → exec .attnPulseStart s = .next t) ∧
    (s.mgmt.pulseDue = false → s.f F.HUB_ATTN_CFG_RENOTIFY_MS 0 0 ≠ 0 →
      s.mgmt.pulseStart + 1000000 * s.f F.HUB_ATTN_CFG_RENOTIFY_MS 0 0 ≤ s.time → exec .attnRenotify s = .next t)) ∧
  (∀ s t : State, s.mgmt.inPulse = true → 2000 + s.mgmt.pulseStart ≤ s.time →
    t = { s with mgmt := { s.mgmt with inPulse := false, released := s.time + 1 } } → exec .attnPulseRelease s = .next t) ∧
  (∀ s : State, s.mgmtUp = true →
    (∀ (m : MgmtXfer) (r : RegName) (j k : Nat), m.write = false → m.smbus = s.mgmt.dynAddr.isNone → m.pecOk = true →
      s.regOf m.off = some (r, j, k) → mgmtReads r = true →
      exec (.mgmtTransfer m) s = .next ((s.readWide 9 m.off).1.mgmtAnswer (some (s.readWide 9 m.off).2.1))) ∧
    (∀ (a : Nat) (t : State), a < 128 → s.mgmt.dynAddr = none → t = { s with mgmt := { s.mgmt with dynAddr := some a } } →
      exec (.entdaa a) s = .next t ∧ exec (.setdasa 0x5A a) s = .next t) ∧
    (∀ t : State, t = { s with mgmt := { s.mgmt with dynAddr := none } } → exec .rstdaa s = .next t) ∧
    (s.mgmt.dynAddr.isSome = true →
      exec .getpid s = .next (s.mgmtAnswer (some Sys2Proof.Config.provisionalId.toNat)) ∧
      exec .getbcr s = .next (s.mgmtAnswer (some Sys2Proof.Config.busCharacteristics.toNat)) ∧
      exec .getdcr s = .next (s.mgmtAnswer (some Sys2Proof.Config.deviceCharacteristics.toNat)) ∧
      ∃ v : Nat, exec .getstatus s = .next (s.fresh.mgmtAnswer (some v))) ∧
    (∀ (r : SpdmReq) (t u v : State),
      exec (.doeDiscovery r) s = .next (s.doeAnswer (.protocols 1 [0, 1])) ∧
      (t = { s with mgmt := { s.mgmt with spdmVersion := 0, spdmCaps := false, spdmAlgs := false } } →
        exec (.getVersion r) s = .next (t.doeAnswer (.versions [0x12, 0x13]))) ∧
      ((r.version = 0x12 ∨ r.version = 0x13) → u = { s with mgmt := { s.mgmt with spdmVersion := r.version, spdmCaps := true } } →
        exec (.getCapabilities r) s = .next (u.doeAnswer (.capabilities 18 true true true true))) ∧
      (s.mgmt.spdmCaps = true → r.version = s.mgmt.spdmVersion → v = { s with mgmt := { s.mgmt with spdmAlgs := true } } →
        exec (.negotiateAlgorithms r) s = .next (v.doeAnswer (.algorithms 0x80 2 1))) ∧
      (s.mgmt.spdmAlgs = true → r.version = s.mgmt.spdmVersion →
        exec (.getDigests r) s = .next (s.doeAnswer (.digests 1 chainDigest)) ∧
        (r.param1 = 0 → r.offset < Sys2Proof.Config.certificateBytes →
          let n := min r.length (Sys2Proof.Config.certificateBytes - r.offset)
          exec (.getCertificate r) s = .next
            (s.doeAnswer (.certificate 0 (Sys2Proof.Config.certificateChain / 256 ^ r.offset % 256 ^ n) n))) ∧
        (r.param1 = 0 → ∃ (m : BitVec 384) (g : BitVec 768),
          exec (.challenge r) s = .next (s.fresh.fresh.doeAnswer (.challenge chainDigest m g))) ∧
        (r.param1 % 2 = 0 →
          (r.param2 = 0 → exec (.getMeasurements r) s = .next (s.doeAnswer (.measurements [(0, 12)] none))) ∧
          (1 ≤ r.param2 → r.param2 ≤ 12 →
            exec (.getMeasurements r) s = .next (s.doeAnswer (.measurements [(r.param2, s.measurement r.param2)] none)))))))

/-- Register reads and writes, the host window and control-core accesses complete as R12, R14, R441 and R535 say. (R12, R14,
18_host_port_and_control_map.md, 14_data_integrity.md) -/
def Obligations.RegisterAccessComplete : Prop :=
  (∀ (s : State) (i off j k : Nat) (r : RegName), s.regOf off = some (r, j, k) → s.answers i r j = true →
    let q := (s.readPrep i r j).wordOf i r j k
    let a := q.1.setRg r j k (clearRc r.fields (q.1.rg r j k))
    (q.2.2 = false → exec (.rcRead i off true) s = .next (a.answerRead q.2.1 false)) ∧
    (∀ b : State, q.2.2 = false → isCounter r = true → off % 8 = 0 → b = { a with latchHi := mput 0 a.latchHi (r.off j k) (q.2.1 / 2 ^ 32 + 1) } →
      exec (.halfReadLatch i off) s = .next (b.answerRead (q.2.1 % 2 ^ 32) false)) ∧
    (∀ (v : Nat) (b : State), off % 8 = 0 → mget 0 s.latchHi (r.off j k) = v + 1 → b = { s with latchHi := mput 0 s.latchHi (r.off j k) 0 } →
      exec (.halfReadLatch i (off + 4)) s = .next (b.answerRead v false))) ∧
  (∀ (s : State) (i off j k : Nat) (w : Word), i ≤ 8 → s.alive = true →
    (s.regOf off = some (.HUB_STATUS, j, k) → exec (.registerWrite i off w) s =
      .next (s.setRg .HUB_STATUS j k (writeFields (RegName.fields .HUB_STATUS) (s.rg .HUB_STATUS j k) w)).fixAttn) ∧
    (s.regOf off = some (.EVT_READ, j, k) → exec (.registerWrite i off w) s =
      .next (s.setRg .EVT_READ j k (writeFields (RegName.fields .EVT_READ) (s.rg .EVT_READ j k) w))) ∧
    (s.regOf off = some (.PWR_CAP, j, k) →
      let v := writeFields (RegName.fields .PWR_CAP) (s.rg .PWR_CAP j k) w
      exec (.registerWrite i off w) s = .next (s.setRg .PWR_CAP j k (F.PWR_CAP_CAP_W.put v (max 300 (min 1800 (F.PWR_CAP_CAP_W.of v)))))) ∧
    (s.canWrite i = true →
      (s.regOf off = some (.INT_SCHECK_SEED, j, k) → exec (.registerWrite i off w) s =
        .next (s.setRg .INT_SCHECK_SEED j k (writeFields (RegName.fields .INT_SCHECK_SEED) (s.rg .INT_SCHECK_SEED j k) w))) ∧
      (s.regOf off = some (.MEM_ACCT_LATCH, j, k) → exec (.registerWrite i off w) s = exec (.acctLatch j w) s) ∧
      (s.regOf off = some (.MEM_DISCARD, j, k) → exec (.registerWrite i off w) s = exec (.discard j w) s) ∧
      (s.regOf off = some (.TRN_SUBMIT, j, k) → exec (.registerWrite i off w) s = exec (.trnSubmit j w) s) ∧
      (s.regOf off = some (.TRN_ABORT, j, k) → exec (.registerWrite i off w) s = exec (.trnAbort j w) s) ∧
      (s.regOf off = some (.INT_SCHECK, j, k) → exec (.registerWrite i off w) s = exec (.scheckRequest j w) s) ∧
      (s.regOf off = some (.INT_OBS_ADD, j, k) → exec (.registerWrite i off w) s = exec (.obsAdd j w) s) ∧
      (s.regOf off = some (.PAR_REPLAY, j, k) → exec (.registerWrite i off w) s = exec (.replay j w) s))) ∧
  (∀ (s : State) (a : HostAccess), 1 ≤ a.size → a.off + a.size ≤ 2 ^ 32 → s.fb F.HUB_STATUS_READY 0 0 = true →
    s.fb F.HUB_HOST_WINDOW_ENABLE 0 0 = true →
    let addr := 2 ^ 32 * s.f F.HUB_HOST_WINDOW_BASE 0 0 + a.off
    let g := s.flashGate hostKey 4097 addr a.size
    let r := g.1.readMem noUnit addr a.size
    s.reserves addr a.size = false → s.asleep (s.canon addr) = false →
    (a.write = true → exec (.hostWindowAccess a) s =
      .next (s.softWrite addr a.size { v := a.data, p := if a.ep then ones (granules addr a.size) else 0 })) ∧
    (a.write = false → g.2 = true → r.2.p = 0 → exec (.hostWindowAccess a) s = .next (r.1.answerRead (r.2.v % 256 ^ a.size) false)) ∧
    (a.write = false → g.2 = true → r.2.p ≠ 0 → exec (.hostWindowAccess a) s =
      .next ((r.1.log (srcHub 9) Ev.HOST_POISON).answerRead (r.2.v % 256 ^ a.size) true))) ∧
  (∀ (s : State) (x : CoreAccess), s.coreRuns x.core = true → 1 ≤ x.size → ¬ (coreControl ≤ x.addr ∧ x.addr < 2 * coreControl) →
    s.reserves x.addr x.size = false → s.asleep (s.canon x.addr) = false →
    let g := s.flashGate (2 ^ 59 + 1 + x.core) 4097 x.addr x.size
    let r := g.1.readMem noUnit x.addr x.size
    (x.op = .store → exec (.controlCoreAccess x) s = .next ((s.softWrite x.addr x.size { v := x.data, p := 0 }).coreAnswer 0 none)) ∧
    (x.op = .load ∨ x.op = .fetch → g.2 = true → r.2.p = 0 →
      exec (.controlCoreAccess x) s = .next (r.1.coreAnswer (r.2.v % 256 ^ x.size) none)) ∧
    (x.op = .amo → g.2 = true → r.2.p = 0 → exec (.controlCoreAccess x) s =
      .next ((r.1.coreAnswer (r.2.v % 256 ^ x.size) none).softWrite x.addr x.size { v := x.data, p := 0 })) ∧
    (x.op ≠ .store → g.2 = true → r.2.p ≠ 0 → exec (.controlCoreAccess x) s =
      .next ((r.1.log (srcCore x.core) Ev.CC_POISON [] none (some (unitCore x.core))).coreAnswer 0
        (some (trapCause x.op, trapAddr x.addr x.size r.2.p)))))

/-- A step takes the command at the front of the queue and is exec of it with the queue's rest; with no command waiting, time passes. That
an empty queue is 1 ns of time is the model's choice (log entry 2). (01_architecture.md, 00_scope.md) -/
def Obligations.StepRunsTheFrontCommand : Prop :=
  (∀ (s : State) (c : Instr) (rest : List Instr), s.pending = c :: rest → step s = exec c { s with pending := rest }) ∧
  (∀ s : State, s.pending = [] → step s = .next s.tick) ∧
  (∀ s : State, s.pending = [] → s.power.gone = true ∨ s.boot.resetHeld = true → step s = .next s) ∧
  (∀ s : State, s.pending = [] → s.power.gone = false → s.boot.resetHeld = false →
    (∀ p < 8, s.stepState p ≠ stRunning ∧ s.stepState p ≠ stStopping ∧ (s.part p).pre.boundary = false) →
    step s = .next ((s.setF F.HUB_TIME_NS 0 0 (s.time + 1)).settlePair.pumpFabric).settleJobs)

/-- At cold reset local memory is in its canonical form, every byte of it reads zero, and no granule is poisoned.
(08_memory_spans_and_tiers.md, 14_data_integrity.md) -/
def Obligations.ResetMemoryIsCanonical : Prop :=
  Memory.wf State.reset.mem = true ∧ (∀ a, State.reset.mem.byteAt a = 0) ∧ (∀ a, State.reset.mem.isWritten a = false) ∧
    (∀ g, nmem State.reset.mem.poison g = false) ∧ State.reset.mem.ue = [] ∧ State.reset.mem.ce = [] ∧ State.reset.pending = []

/-- Every step keeps local memory in its canonical form. (08_memory_spans_and_tiers.md, 14_data_integrity.md) -/
def Obligations.StepsKeepMemoryCanonical : Prop :=
  ∀ s t : State, Memory.wf s.mem = true → step s = .next t → Memory.wf t.mem = true

/-- Every command is carried out in every state, and leaves the commands that wait behind it. That a command out of its place is carried out
as no effect is the model's choice (log entry 1). (00_scope.md, 03_zmi_instruction_set.md, 18_host_port_and_control_map.md) -/
def Obligations.CommandsAreCarriedOut : Prop :=
  ∀ (c : Instr) (s : State), ∃ t, exec c s = .next t ∧ t.pending = s.pending

/-- A register write and read act on every field of every register as its access code says, and nonzero bits outside the fields are dropped.
(00_scope.md) -/
def Obligations.RegisterFieldsFollowAccessCodes : Prop :=
  ∀ r : RegName, (r.fields).Pairwise (fun f g => f.apart g = true) ∧
    ∀ f ∈ r.fields, f.reg = r ∧ 0 < f.width ∧ f.lo + f.width ≤ 64 ∧
      (∀ old w : BitVec 64,
        (f.acc = .rw → f.of (writeFields r.fields old w) = f.of w) ∧
        (f.acc = .w1c → ∀ n, (f.of (writeFields r.fields old w)).testBit n = ((f.of old).testBit n && !(f.of w).testBit n)) ∧
        (f.acc = .w1s → ∀ n, (f.of (writeFields r.fields old w)).testBit n = ((f.of old).testBit n || (f.of w).testBit n)) ∧
        (f.acc = .ro ∨ f.acc = .rc → f.of (writeFields r.fields old w) = f.of old) ∧
        (f.acc ≠ .wo → f.of (readFields r.fields old) = f.of old) ∧
        (f.acc = .wo → f.of (readFields r.fields old) = 0) ∧
        (f.acc = .rc → f.of (clearRc r.fields old) = 0) ∧
        (f.acc ≠ .rc → f.of (clearRc r.fields old) = f.of old) ∧
        (∀ n, (∀ g ∈ r.fields, n < g.lo ∨ g.lo + g.width ≤ n) →
          (readFields r.fields old).getLsbD n = false ∧ (writeFields r.fields old w).getLsbD n = old.getLsbD n))

/-- At reset every field of every register holds the reset value of its table, and every floor entry the one of its step and band. Values of
fields for which the spec gives no reset value are the model's choice (log entries 5 and 6). (00_scope.md, 19_electrical_and_package.md) -/
def Obligations.RegistersAtReset : Prop :=
  (∀ (r : RegName) (i j : Nat), r ≠ .HUB_FLOOR_TABLE → ∀ f ∈ r.fields, State.reset.f f i j = f.reset) ∧
  (∀ n < 341, State.reset.rg .HUB_FLOOR_TABLE n 0 = BitVec.ofNat 64 (n / 11 * 2 ^ 24 + n % 11 * 2 ^ 20 + floorEntry (n / 11) (n % 11)))

/-- The fetch of an instruction leaves every byte, mallet, kit, partition and packet as it was. (03_zmi_instruction_set.md,
08_memory_spans_and_tiers.md, 14_data_integrity.md) -/
def Obligations.FetchLeavesTheMachine : Prop :=
  ∀ (s : State) (u : CtxId), (s.fetched u).mallets = s.mallets ∧ (s.fetched u).kits = s.kits ∧ (s.fetched u).parts = s.parts ∧
    (s.fetched u).fab = s.fab ∧ (s.fetched u).xfers = s.xfers ∧ (s.fetched u).pair = s.pair ∧ (s.fetched u).pending = s.pending ∧
    ∀ b, Memory.wf s.mem = true → nmem s.mem.wpbUe (b / 262144) = false → (s.fetched u).mem.byteAt b = s.mem.byteAt b

/-- Control, scalar and address-register instructions change only their destination, PC and the fields that a fault sets.
(03_zmi_instruction_set.md) -/
def Obligations.RegisterInstructionsFrame : Prop :=
  ∀ (s t : State) (u : CtxId) (f : Fields),
    let sd := some f.D
    let list : List (Instr × Option Nat × Option Nat) :=
      [(.nop u f, none, none), (.br u f, none, none), (.brc u f, none, none), (.loop u f, some f.A, none), (.cswrd u f, sd, none),
       (.cswclr u f, none, none), (.sadd u f, sd, none), (.ssub u f, sd, none), (.smul u f, sd, none), (.sand u f, sd, none),
       (.sor u f, sd, none), (.sxor u f, sd, none), (.sshl u f, sd, none), (.sshr u f, sd, none), (.ssar u f, sd, none),
       (.smin u f, sd, none), (.smax u f, sd, none), (.scmp u f, sd, none), (.smovi u f, sd, none), (.xset u f, none, sd),
       (.xadd u f, none, sd), (.xmov u f, if f.modN = 0 then sd else none, if f.modN = 0 then none else sd)]
    ∀ p ∈ list, exec p.1 s = .next t →
      (∀ b, Memory.wf s.mem = true → nmem s.mem.wpbUe (b / 262144) = false → t.mem.byteAt b = s.mem.byteAt b) ∧
      t.kits = s.kits ∧ t.parts = s.parts ∧ t.fab = s.fab ∧ t.xfers = s.xfers ∧ t.pair = s.pair ∧ t.pending = s.pending ∧
      (∀ w : CtxId, malletKey w.kit w.drum w.mallet ≠ malletKey u.kit u.drum u.mallet ∨ w.ctx ≠ u.ctx → t.ctx w = s.ctx w) ∧
      (∀ (w : CtxId) (n : Nat), t.tile w n = s.tile w n ∧ t.acc w n = s.acc w n) ∧
      (∀ n, p.2.1 ≠ some n → (t.ctx u).S n = (s.ctx u).S n) ∧ (∀ n, p.2.2 ≠ some n → (t.ctx u).X n = (s.ctx u).X n) ∧
      (t.ctx u).m = (s.ctx u).m ∧ (t.ctx u).af = (s.ctx u).af ∧ (t.ctx u).bind = (s.ctx u).bind ∧ (t.ctx u).rot = (s.ctx u).rot ∧
      (t.ctx u).posted = (s.ctx u).posted ∧
      (p.1 ≠ .cswclr u f → (t.ctx u).accOvf = (s.ctx u).accOvf ∧ (t.ctx u).accInv = (s.ctx u).accInv ∧
        (t.ctx u).cnvOvf = (s.ctx u).cnvOvf ∧ (t.ctx u).vecInv = (s.ctx u).vecInv)

/-- TST, SCST, SST and AST change no byte of local memory outside the bytes at their address. (03_zmi_instruction_set.md,
08_memory_spans_and_tiers.md, 14_data_integrity.md) -/
def Obligations.StoresLeaveOtherBytes : Prop :=
  ∀ (s t : State) (u : CtxId) (f : Fields) (b : Nat), Memory.wf s.mem = true → nmem s.mem.wpbUe (b / 262144) = false →
    (∀ e ∈ (s.drum u.kit u.drum).merge, s.canon (64 * e.line) ≤ b → b < s.canon (64 * e.line) + 64 →
      e.valid.testBit (b - s.canon (64 * e.line)) = false) →
    ∀ p ∈ ([(.tst u f, 64), (.scst u f, 8), (.sst u f, Fields.scalarSize f), (.ast u f, astSize f)] : List (Instr × Nat)),
      (∀ q ∈ (s.fetched u).memPieces u f p.2, q.2.rem = false → b < s.canon q.2.addr ∨ s.canon q.2.addr + q.2.len ≤ b) →
      exec p.1 s = .next t → t.mem.byteAt b = s.mem.byteAt b

/-- An SST to skin, scratch or hub SRAM writes the low bytes of S[rd], little-endian, at its address. (03_zmi_instruction_set.md,
00_scope.md, 08_memory_spans_and_tiers.md) -/
def Obligations.ScalarStoresReachMemory : Prop :=
  ∀ (s : State) (u : CtxId) (f : Fields) (pc : Piece), s.fetches u = true → Fields.memLegal f 3 false = true → f.D < 16 →
    Memory.wf s.mem = true →
    let t := s.fetched u
    let n := Fields.scalarSize f
    noFault (t.memConds u f n n rWrite) = true → t.storesNow u (t.memPieces u f n) (ones n) = true → t.memPieces u f n = [(0, pc)] →
    pc.rem = false → t.region (t.canon pc.addr) = .skin ∨ t.region (t.canon pc.addr) = .scratch ∨ t.region (t.canon pc.addr) = .hub →
    t.canon pc.addr % 4096 + n ≤ 4096 →
    ∃ x, exec (.sst u f) s = .next x ∧
      ∀ i < n, x.mem.byteAt (t.canon pc.addr + i) = BitVec.ofNat 8 ((t.S u f.D).v.toNat / 256 ^ i)

/-- A product with a zero operand contributes exactly 0 and no flag; one of an infinity or NaN without a zero sets INV. (R62, R63) -/
def Obligations.ZeroProductsAndSpecialProducts : Prop :=
  (∀ (e : AccElem) (A : Int) (a b : Sys2Proof.Machine.Num), isZeroNum a = true ∨ isZeroNum b = true → e.addNum A (prodNum a b) = e) ∧
  (∀ (e : AccElem) (A : Int) (a b : Sys2Proof.Machine.Num), isZeroNum a = true →
    e.addNum A (prodNum a (scaled b 255)) = e ∧ e.addNum A (prodNum (scaled b 255) a) = e) ∧
  (∀ (e : AccElem) (A : Int) (a b : Sys2Proof.Machine.Num), isZeroNum a = false → isZeroNum b = false →
    (a = .nan ∨ b = .nan ∨ (∃ n, a = .inf n) ∨ ∃ n, b = .inf n) → e.addNum A (prodNum a b) = { e with inv := true }) ∧
  (∀ (e : AccElem) (A : Int) (a b : Sys2Proof.Machine.Num), isZeroNum a = false →
    e.addNum A (prodNum a (scaled b 255)) = { e with inv := true } ∧ e.addNum A (prodNum (scaled b 255) a) = { e with inv := true }) ∧
  (∀ (q : TmacIn) (A : Int) (i j : Nat) (e : AccElem),
    (∀ k < q.K, isZeroNum (q.aVal i k) = true ∨ isZeroNum (q.bVal k j) = true) →
    (q.elemOut A i j e).v = e.v ∧ (q.elemOut A i j e).inv = e.inv ∧ (q.elemOut A i j e).ovf = e.ovf) ∧
  (∀ (q : TmacIn) (A : Int) (i j k : Nat) (e : AccElem), k < q.K → isZeroNum (q.aVal i k) = false → isZeroNum (q.bVal k j) = false →
    (q.aVal i k = .nan ∨ q.bVal k j = .nan ∨ (∃ n, q.aVal i k = .inf n) ∨ ∃ n, q.bVal k j = .inf n) → (q.elemOut A i j e).inv = true)

/-- Terms of magnitude 2^127 or more are replaced and set OVF; V is the true sum modulo 2^144, and exactly it for up to 65,536 terms. (R71,
R72) -/
def Obligations.SumsOfTermsAreExact : Prop :=
  (∀ (e : AccElem) (t : Int), e.addTerm t =
    { e with v := e.v + BitVec.ofInt 144 (term127 t), ovf := e.ovf || decide (2 ^ 127 ≤ t) || decide (t ≤ -2 ^ 127) }) ∧
  (∀ (A : BitVec 10) (n : Nat) (ts : List Int),
    let e := ts.foldl AccElem.addTerm ((Acc.opened A).el n)
    let sum := (ts.map term127).sum
    e.v = BitVec.ofInt 144 sum ∧ e.ovf = ts.any (fun t => decide (2 ^ 127 ≤ t) || decide (t ≤ -2 ^ 127)) ∧
    (-2 ^ 143 ≤ sum → sum < 2 ^ 143 → e.v.toInt = sum) ∧
    (ts.length ≤ 65536 → -2 ^ 143 ≤ sum ∧ sum < 2 ^ 143))

/-- ACOMB adds V modulo 2^144 and ORs POISON, INV and OVF element by element; unequal anchors fault and change neither accumulator. (R76) -/
def Obligations.CombiningAccumulators : Prop :=
  ∀ (s : State) (u : CtxId) (f : Fields), s.fetches u = true →
    f.zeroBut false false true false true true false false false = true → f.D < 8 → f.A < 8 →
    (s.acc u f.D).isOpen = true → (s.acc u f.A).isOpen = true →
    ((s.acc u f.D).anchor = (s.acc u f.A).anchor → ∃ t, exec (.acomb u f) s = .next t ∧
      (t.acc u f.D).anchor = (s.acc u f.D).anchor ∧ (∀ k, k ≠ f.D → t.acc u k = s.acc u k) ∧
      (∀ n < 16, bit ((s.fetched u).maskE u f) n = true → (t.acc u f.D).el n =
        ⟨((s.acc u f.D).el n).v + ((s.acc u f.A).el n).v, ((s.acc u f.D).el n).poison || ((s.acc u f.A).el n).poison,
         ((s.acc u f.D).el n).inv || ((s.acc u f.A).el n).inv, ((s.acc u f.D).el n).ovf || ((s.acc u f.A).el n).ovf⟩) ∧
      (∀ n < 16, bit ((s.fetched u).maskE u f) n = false → (t.acc u f.D).el n = (s.acc u f.D).el n)) ∧
    ((s.acc u f.D).anchor ≠ (s.acc u f.A).anchor → ∃ t, exec (.acomb u f) s = .next t ∧
      (t.ctx u).fault = 0xD ∧ (t.ctx u).stopped = true ∧ ∀ k, t.acc u k = s.acc u k)

/-- AREANC replaces each V with floor(V × 2^(A − A')), saturating a left shift at ±(2^143 − 1) with OVF. (R77) -/
def Obligations.ReanchoringIsExact : Prop :=
  ∀ (s : State) (u : CtxId) (f : Fields), s.fetches u = true →
    f.zeroBut false false false false true false false false true = true → f.D < 8 → f.immN < 2 ^ 10 → (s.acc u f.D).isOpen = true →
    ∃ t, exec (.areanc u f) s = .next t ∧ (t.acc u f.D).anchor = BitVec.ofNat 10 f.immN ∧
      ∀ n < 16, let e := (s.acc u f.D).el n
        let r := (t.acc u f.D).el n
        let k := (s.acc u f.D).A - (BitVec.ofNat 10 f.immN).toInt
        r.poison = e.poison ∧ r.inv = e.inv ∧
        (k < 0 → r.v.toInt = ⌊(e.v.toInt : ℚ) / 2 ^ (-k).toNat⌋ ∧ r.ovf = e.ovf) ∧
        (0 ≤ k → let z := e.v.toInt * 2 ^ k.toNat
          (-2 ^ 143 ≤ z → z < 2 ^ 143 → r.v.toInt = z ∧ r.ovf = e.ovf) ∧
          (2 ^ 143 ≤ z → r.v.toInt = 2 ^ 143 - 1 ∧ r.ovf = true) ∧
          (z < -2 ^ 143 → r.v.toInt = -(2 ^ 143 - 1) ∧ r.ovf = true))

/-- Scalar arithmetic wraps modulo 2^64, shifts use bits [5:0], MOD[0] selects sext(IMM), and MOD[3:1] is zero except in SCMP. (R112) -/
def Obligations.ScalarArithmeticWraps : Prop :=
  ∀ (s : State) (u : CtxId) (f : Fields), s.fetches u = true →
    let a := ((s.ctx u).S f.A).v
    let b := if f.modBit 0 then BitVec.ofInt 64 f.simm else ((s.ctx u).S f.B).v
    let plain : List (Instr × BitVec 64) :=
      [(.sadd u f, BitVec.ofNat 64 (a.toNat + b.toNat)), (.ssub u f, BitVec.ofInt 64 (a.toNat - b.toNat)),
       (.smul u f, BitVec.ofNat 64 (a.toNat * b.toNat)), (.sand u f, a &&& b), (.sor u f, a ||| b), (.sxor u f, a ^^^ b),
       (.sshl u f, BitVec.ofNat 64 (a.toNat * 2 ^ (b.toNat % 64))), (.sshr u f, BitVec.ofNat 64 (a.toNat / 2 ^ (b.toNat % 64))),
       (.ssar u f, BitVec.ofInt 64 (a.toInt / 2 ^ (b.toNat % 64))), (.smin u f, BitVec.ofInt 64 (min a.toInt b.toInt)),
       (.smax u f, BitVec.ofInt 64 (max a.toInt b.toInt))]
    (∀ p ∈ plain, (Fields.scalarLegal f 1 = true → ∃ t, exec p.1 s = .next t ∧ ((t.ctx u).S f.D).v = p.2 ∧
        ∀ n, n ≠ f.D → (t.ctx u).S n = (s.ctx u).S n) ∧
      (2 ≤ f.modN → ∃ t, exec p.1 s = .next t ∧ (t.ctx u).fault = 2 ∧ (t.ctx u).stopped = true ∧
        ∀ n, (t.ctx u).S n = (s.ctx u).S n)) ∧
    (Fields.scalarLegal f 6 = true → ∃ t, exec (.scmp u f) s = .next t ∧
      ((t.ctx u).S f.D).v = if scmpHolds (f.modN / 2) a b then 1 else 0)

/-- After a cold reset all of HBM reads zero; a warm reset keeps the written-page bitmaps and the HBM contents. (R282) -/
def Obligations.ColdResetClearsTheBitmaps : Prop :=
  (∀ (s t : State) (c : Instr) (lost : Bool) (i : Nat) (w : Word),
    c = .coldReset lost ∨ (c = .hubResetCold i w ∧ s.resetWord i w 2 = true) ∨ (c = .fixedRailOutOfTolerance ∧ s.power.gone = false) →
    exec c s = .next t → t.mem.written = [] ∧ ∀ unit a n, a + n ≤ hbmEnd → (t.readMem unit a n).2 = {}) ∧
  (∀ (s t : State) (i : Nat) (w : Word), s.resetWord i w 1 = true → s.boot.fillDone = true → exec (.hubResetWarm i w) s = .next t →
    t.mem.written = s.mem.written ∧ (∀ a < hbmEnd, t.mem.byteAt a = s.mem.byteAt a) ∧
    ∀ g, 32 * g < hbmEnd → nmem t.mem.poison g = nmem s.mem.poison g)
end

