-- ==== Sys2Proof/Laws/Memory.lean ====
section
/-!
SUPPORT. Sys2Proof/Laws/Memory.lean: every operation on local memory keeps its canonical form.
-/
namespace Sys2Proof.Machine

/-- Canonical memory, part by part. -/
theorem memory_wf_iff (m : Mem) : Memory.wf m = true ↔
    mwf (0 : BitVec 8) m.cells = true ∧ nwf m.poison = true ∧ nwf m.ue = true ∧ nwf m.ce = true ∧ nwf m.written = true ∧
      nwf m.wpbUe = true := by
  simp [Memory.wf, and_assoc]

theorem mark_wf (m : Mem) (g : Nat) (h : Memory.wf m = true) : Memory.wf (m.mark g) = true := by
  rw [memory_wf_iff] at *
  obtain ⟨a, b, c, d, e, f⟩ := h
  exact ⟨a, nins_wf _ _ b, ndelRange_wf _ _ _ c, ndelRange_wf _ _ _ d, e, f⟩

theorem clean_wf (m : Mem) (g : Nat) (h : Memory.wf m = true) : Memory.wf (m.clean g) = true := by
  rw [memory_wf_iff] at *
  obtain ⟨a, b, c, d, e, f⟩ := h
  exact ⟨a, ndel_wf _ _ b, ndelRange_wf _ _ _ c, ndelRange_wf _ _ _ d, e, f⟩

theorem markRange_wf (m : Mem) (lo n : Nat) (h : Memory.wf m = true) : Memory.wf (m.markRange lo n) = true := by
  rw [memory_wf_iff] at *
  obtain ⟨a, b, c, d, e, f⟩ := h
  exact ⟨a, ninsRange_wf _ _ _ b, ndelRange_wf _ _ _ c, ndelRange_wf _ _ _ d, e, f⟩

/-- Ranges of marks dropped. -/
theorem unmark_wf (m : Mem) (p q u v c d : Nat) (h : Memory.wf m = true) :
    Memory.wf { m with poison := ndelRange m.poison p q, ue := ndelRange m.ue u v, ce := ndelRange m.ce c d } = true := by
  rw [memory_wf_iff] at *
  obtain ⟨a, b, c, d, e, f⟩ := h
  exact ⟨a, ndelRange_wf _ _ _ b, ndelRange_wf _ _ _ c, ndelRange_wf _ _ _ d, e, f⟩

/-- Bytes written. -/
theorem cells_wf (m : Mem) (a n v : Nat) (h : Memory.wf m = true) : Memory.wf { m with cells := cellsWrite m.cells a n v } = true := by
  rw [memory_wf_iff] at *
  exact ⟨cellsWrite_wf _ _ _ _ h.1, h.2⟩

/-- Bytes left out. -/
theorem cells_filter_wf (m : Mem) (p : Host.Cell → Bool) (h : Memory.wf m = true) : Memory.wf { m with cells := m.cells.filter p } = true := by
  rw [memory_wf_iff] at *
  exact ⟨filter_cells_wf _ _ h.1, h.2⟩

/-- Pages marked written. -/
theorem written_wf (m : Mem) (k : Nat) (h : Memory.wf m = true) : Memory.wf { m with written := nins m.written k } = true := by
  rw [memory_wf_iff] at *
  obtain ⟨a, b, c, d, e, f⟩ := h
  exact ⟨a, b, c, d, nins_wf _ _ e, f⟩

theorem written_range_wf (m : Mem) (lo n : Nat) (h : Memory.wf m = true) : Memory.wf { m with written := ninsRange m.written lo n } = true := by
  rw [memory_wf_iff] at *
  obtain ⟨a, b, c, d, e, f⟩ := h
  exact ⟨a, b, c, d, ninsRange_wf _ _ _ e, f⟩

theorem unwritten_wf (m : Mem) (lo n : Nat) (h : Memory.wf m = true) : Memory.wf { m with written := ndelRange m.written lo n } = true := by
  rw [memory_wf_iff] at *
  obtain ⟨a, b, c, d, e, f⟩ := h
  exact ⟨a, b, c, d, ndelRange_wf _ _ _ e, f⟩

/-- Upsets put right, or struck. -/
theorem ce_range_wf (m : Mem) (lo n : Nat) (h : Memory.wf m = true) : Memory.wf { m with ce := ndelRange m.ce lo n } = true := by
  rw [memory_wf_iff] at *
  obtain ⟨a, b, c, d, e, f⟩ := h
  exact ⟨a, b, c, ndelRange_wf _ _ _ d, e, f⟩

theorem ue_ins_wf (m : Mem) (k : Nat) (h : Memory.wf m = true) : Memory.wf { m with ue := nins m.ue k } = true := by
  rw [memory_wf_iff] at *
  obtain ⟨a, b, c, d, e, f⟩ := h
  exact ⟨a, b, nins_wf _ _ c, d, e, f⟩

theorem strikes_wf (m : Mem) (l k : List Nat) (h : Memory.wf m = true) :
    Memory.wf { m with ce := l.foldl nins m.ce, wpbUe := k.foldl nins m.wpbUe } = true := by
  rw [memory_wf_iff] at *
  obtain ⟨a, b, c, d, e, f⟩ := h
  exact ⟨a, b, c, nins_foldl_wf _ _ d, e, nins_foldl_wf _ _ f⟩

theorem upsets_del_wf (m : Mem) (w : Nat) (h : Memory.wf m = true) : Memory.wf { m with ue := ndel m.ue w, ce := ndel m.ce w } = true := by
  rw [memory_wf_iff] at *
  obtain ⟨a, b, c, d, e, f⟩ := h
  exact ⟨a, b, ndel_wf _ _ c, ndel_wf _ _ d, e, f⟩

theorem wpb_del_wf (m : Mem) (w : Nat) (h : Memory.wf m = true) : Memory.wf { m with wpbUe := ndel m.wpbUe w } = true := by
  rw [memory_wf_iff] at *
  obtain ⟨a, b, c, d, e, f⟩ := h
  exact ⟨a, b, c, d, e, ndel_wf _ _ f⟩

/-- What a cold reset leaves of memory. -/
theorem cold_wf (m : Mem) (lost : Bool) (h : Memory.wf m = true) : Memory.wf (m.cold lost) = true := by
  rw [memory_wf_iff] at *
  obtain ⟨a, b, c, d, e, f⟩ := h
  unfold Mem.cold
  split
  · decide
  · exact ⟨filter_cells_wf _ _ a, filter_nwf _ _ b, filter_nwf _ _ c, filter_nwf _ _ d, rfl, rfl⟩

end Sys2Proof.Machine
end

