-- ==== Sys2Proof/Laws/Issue.lean ====
section
/-!
SUPPORT. Sys2Proof/Laws/Issue.lean: what issuing one mallet instruction can do, said once: the five ways a call of State.run ends, and what the
fetch leaves alone.
-/
namespace Sys2Proof.Machine

open Sys2Proof (CtxId Fields)

theorem lowest_of_noFault : ∀ (l : List (Option (Nat × Nat))), noFault l = true → lowest l = none
  | [], _ => rfl
  | none :: r, h => by
      have : noFault r = true := by simpa [noFault] using h
      simpa [lowest] using lowest_of_noFault r this
  | some a :: r, h => by simp [noFault] at h

/-- A context that may not issue leaves the state as it is. -/
theorem run_of_not_issuing {s : State} {u : CtxId} {f : Fields} {op : Nat} {legal : Bool} {conds : State → List (Option (Nat × Nat))}
    {effect : State → State} (h : s.issuing u = false) : s.run u f op legal conds effect = s := by
  simp [State.run, h]

/-- A fetch outside the program area faults with code 1. -/
theorem run_of_fetchBad {s : State} {u : CtxId} {f : Fields} {op : Nat} {legal : Bool} {conds : State → List (Option (Nat × Nat))}
    {effect : State → State} (h : s.issuing u = true) (hb : s.fetchBad u = true) :
    s.run u f op legal conds effect = s.faults u (Fields.word f op) (1, 0) := by
  simp [State.run, h, hb]

/-- A reserved encoding faults with code 2. -/
theorem run_of_illegal {s : State} {u : CtxId} {f : Fields} {op : Nat} {conds : State → List (Option (Nat × Nat))}
    {effect : State → State} (h : s.issuing u = true) (hb : s.fetchBad u = false) :
    s.run u f op false conds effect = (s.fetched u).faults u (Fields.word f op) (2, 0) := by
  simp [State.run, State.fetched, h, hb]

/-- A legal instruction that is fetched whole and has no fault condition has its effect. -/
theorem run_of_fetches {s : State} {u : CtxId} {f : Fields} {op : Nat} {legal : Bool} {conds : State → List (Option (Nat × Nat))}
    {effect : State → State} (h : s.fetches u = true) (hl : legal = true) (hc : noFault (conds (s.fetched u)) = true) :
    s.run u f op legal conds effect = effect (s.fetched u) := by
  have h' := h
  simp only [State.fetches, Bool.and_eq_true, Bool.not_eq_true'] at h'
  obtain ⟨⟨h1, h2⟩, h3⟩ := h'
  have hc' := lowest_of_noFault _ hc
  simp only [State.fetched] at hc'
  simp [State.run, h1, h2, h3, hl, hc', State.fetched]

/-- A legal instruction that is fetched whole with a fault condition takes the lowest one. -/
theorem run_of_fault {s : State} {u : CtxId} {f : Fields} {op : Nat} {legal : Bool} {conds : State → List (Option (Nat × Nat))}
    {effect : State → State} {q : Nat × Nat} (h : s.fetches u = true) (hl : legal = true)
    (hc : lowest (conds (s.fetched u)) = some q) :
    s.run u f op legal conds effect = (s.fetched u).faults u (Fields.word f op) q := by
  have h' := h
  simp only [State.fetches, Bool.and_eq_true, Bool.not_eq_true'] at h'
  obtain ⟨⟨h1, h2⟩, h3⟩ := h'
  simp only [State.fetched] at hc
  simp [State.run, h1, h2, h3, hl, hc, State.fetched]

/-- A load of local pieces with credit completes at once with their data. -/
theorem load_of_loadsNow {s : State} {u : CtxId} {word sp : Nat} {ps : List (Nat × Piece)} {len : Nat} {fin : State → Data → State}
    {fst : FirstTurn} (h : s.loadsNow u ps = true) : s.load u word sp ps len fin fst = fin (s.loaded u ps).1 (s.loaded u ps).2 := by
  simp only [State.loadsNow, Bool.and_eq_true] at h
  unfold State.load
  rw [if_pos h.1, if_pos h.2]
  rfl

/-- A load of local pieces without credit waits for the next window. -/
theorem load_of_noCredit {s : State} {u : CtxId} {word sp : Nat} {ps : List (Nat × Piece)} {len : Nat} {fin : State → Data → State}
    {fst : FirstTurn} (h : localNow ps = true) (hc : s.ctxCredit u false (localOf ps) = false) :
    s.load u word sp ps len fin fst = s.deferCtx u false := by
  unfold State.load
  rw [if_pos h, if_neg (by simp [hc])]

/-- A store with tags, hold room and credit is sent at once. -/
theorem store_of_storesNow {s : State} {u : CtxId} {sp : Nat} {ps : List (Nat × Piece)} {v en p : Nat} {fin : State → State}
    (h : s.storesNow u ps en = true) : s.store u sp ps v en p fin = fin (s.stored u sp ps v en p) := by
  simp only [State.storesNow, Bool.and_eq_true, Bool.not_eq_true'] at h
  obtain ⟨⟨h1, h2⟩, h3⟩ := h
  simp only [State.store, h1, h2, h3, State.stored]
  rfl

/-- An effect whose tiles are not pending happens. -/
theorem onTiles_free {s : State} {u : CtxId} {ts : List Nat} {k : State → State} (h : ts.any (fun n => s.tilePending u n) = false) :
    s.onTiles u ts k = k s := by simp only [State.onTiles, h]; rfl

/-- An effect with a pending tile waits. -/
theorem onTiles_pending {s : State} {u : CtxId} {ts : List Nat} {k : State → State} (h : ts.any (fun n => s.tilePending u n) = true) :
    s.onTiles u ts k = s.waits u .tile := by simp only [State.onTiles, h]; rfl

/-- Parts of the state that reading memory never changes. -/
structure Still (a b : State) : Prop where
  mallets : b.mallets = a.mallets
  kits : b.kits = a.kits
  parts : b.parts = a.parts
  fab : b.fab = a.fab
  xfers : b.xfers = a.xfers
  pair : b.pair = a.pair
  pending : b.pending = a.pending

theorem Still.refl (s : State) : Still s s := ⟨rfl, rfl, rfl, rfl, rfl, rfl, rfl⟩
theorem Still.trans {a b c : State} (h : Still a b) (g : Still b c) : Still a c :=
  ⟨g.1.trans h.1, g.2.trans h.2, g.3.trans h.3, g.4.trans h.4, g.5.trans h.5, g.6.trans h.6, g.7.trans h.7⟩

theorem still_foldl {α : Type} {f : State → α → State} (h : ∀ s x, Still s (f s x)) :
    ∀ (l : List α) (s : State), Still s (l.foldl f s)
  | [], s => Still.refl s
  | x :: r, s => (h s x).trans (still_foldl h r (f s x))

theorem still_setRg (s : State) (r : RegName) (i j : Nat) (w : BitVec 64) : Still s (s.setRg r i j w) := ⟨rfl, rfl, rfl, rfl, rfl, rfl, rfl⟩
theorem still_setF (s : State) (f : Fld) (i j v : Nat) : Still s (s.setF f i j v) := ⟨rfl, rfl, rfl, rfl, rfl, rfl, rfl⟩
theorem still_count (s : State) (f : Fld) (i j n : Nat) : Still s (s.count f i j n) := still_setF _ _ _ _ _
theorem still_setDrum (s : State) (k d : Nat) (f : Drum → Drum) : Still s (s.setDrum k d f) := ⟨rfl, rfl, rfl, rfl, rfl, rfl, rfl⟩

theorem still_pushEv (s : State) (src : Nat) (r : EvRec) : Still s (s.pushEv src r) := by
  simp only [State.pushEv]
  split <;> exact ⟨rfl, rfl, rfl, rfl, rfl, rfl, rfl⟩

theorem still_log (s : State) (src : Nat) (e : EvName) (items : List Nat) (part unit : Option Nat) (attn : Bool) :
    Still s (s.log src e items part unit attn) := still_pushEv _ _ _

theorem still_queueCheck (s : State) (key unit : Nat) : Still s (s.queueCheck key unit) := ⟨rfl, rfl, rfl, rfl, rfl, rfl, rfl⟩

theorem Still.mem {a b : State} (h : Still a b) (m : Mem) : Still a { b with mem := m } := ⟨h.1, h.2, h.3, h.4, h.5, h.6, h.7⟩
theorem Still.ev {a b : State} (h : Still a b) (e : EvLog) : Still a { b with ev := e } := ⟨h.1, h.2, h.3, h.4, h.5, h.6, h.7⟩
theorem Still.integ {a b : State} (h : Still a b) (e : Integ) : Still a { b with integ := e } := ⟨h.1, h.2, h.3, h.4, h.5, h.6, h.7⟩
theorem Still.freeCtr {a b : State} (h : Still a b) (n : Nat) : Still a { b with freeCtr := n } := ⟨h.1, h.2, h.3, h.4, h.5, h.6, h.7⟩
theorem Still.setF {a b : State} (h : Still a b) (f : Fld) (i j v : Nat) : Still a (b.setF f i j v) := h.trans (still_setF _ _ _ _ _)
theorem Still.setRg {a b : State} (h : Still a b) (r : RegName) (i j : Nat) (w : BitVec 64) : Still a (b.setRg r i j w) :=
  h.trans (still_setRg _ _ _ _ _)
theorem Still.count {a b : State} (h : Still a b) (f : Fld) (i j n : Nat) : Still a (b.count f i j n) := h.trans (still_count _ _ _ _ _)
theorem Still.setDrum {a b : State} (h : Still a b) (k d : Nat) (f : Drum → Drum) : Still a (b.setDrum k d f) :=
  h.trans (still_setDrum _ _ _ _)
theorem Still.log {a b : State} (h : Still a b) (src : Nat) (e : EvName) (items : List Nat) (part unit : Option Nat) (attn : Bool) :
    Still a (b.log src e items part unit attn) := h.trans (still_log _ _ _ _ _ _ _)
theorem Still.queueCheck {a b : State} (h : Still a b) (key unit : Nat) : Still a (b.queueCheck key unit) :=
  h.trans (still_queueCheck _ _ _)

theorem still_observe (s : State) (unit reason : Nat) : Still s (s.observe unit reason) := by
  simp only [State.observe]
  split
  · exact still_log _ _ _ _ _ _ _
  · split
    · exact ((((((Still.refl s).setRg _ _ _ _).setF _ _ _ _).setF _ _ _ _).setF _ _ _ _).setRg _ _ _ _ |>.log _ _ _ _ _ _ |>.queueCheck _ _)
    · exact ((Still.refl s).log _ _ _ _ _ _).queueCheck _ _

theorem Still.observe {a b : State} (h : Still a b) (unit reason : Nat) : Still a (b.observe unit reason) := h.trans (still_observe _ _ _)

theorem still_countCe (s : State) (a n : Nat) : Still s (s.countCe a n) := by
  simp only [State.countCe]
  have h := (Still.refl s).count F.INT_ECC_CE (memOf a) 0 n
  split
  · split
    · exact (h.setDrum _ _ _).observe _ _
    · exact h.setDrum _ _ _
  · split
    · split
      · exact (h.integ _).log _ _ _ _ _ _
      · exact h.integ _
    · exact h

theorem still_badSlot (s : State) (a : Nat) : Still s (s.badSlot a) := by
  simp only [State.badSlot]
  split
  · exact (Still.refl s).ev _
  · split
    · exact (Still.refl s).ev _
    · exact Still.refl s

theorem still_touchGranule (s : State) (unit g : Nat) : Still s (s.touchGranule unit g) := by
  have h0 : Still s (if (s.mem.ce.filter (fun w => decide (w / 4 = g))).length = 0 then s else
      { (s.countCe (32 * g) (s.mem.ce.filter (fun w => decide (w / 4 = g))).length) with
        mem := { s.mem with ce := ndelRange s.mem.ce (4 * g) 4 } }) := by
    split
    · exact Still.refl s
    · exact (still_countCe _ _ _).mem _
  simp only [State.touchGranule]
  generalize (if (s.mem.ce.filter (fun w => decide (w / 4 = g))).length = 0 then s else _) = b at *
  split
  · exact ((((h0.mem _).count _ _ _ _).trans (still_badSlot _ _)).log _ _ _ _ _ _)
  · exact h0

theorem still_touch (s : State) (unit a n : Nat) : Still s (s.touch unit a n) := by
  simp only [State.touch]
  exact still_foldl (f := fun s g => s.touchGranule unit g) (fun s g => still_touchGranule s unit g) _ s

theorem still_touchBitmap (s : State) (a : Nat) : Still s (s.touchBitmap a) := by
  simp only [State.touchBitmap]
  split
  · refine Still.trans ?_ (still_log _ _ _ _ _ _ _)
    constructor <;> rfl
  · exact Still.refl s

theorem still_touchMap (s : State) (u : Nat) : Still s (s.touchMap u) := by
  have h := still_touch s (unitHub 4) (s.f F.FLS_MAP_BASE_BASE 0 0 + 8 * u) 8
  simp only [State.touchMap]
  split
  · refine Still.log (h.trans ?_) _ _ _ _ _ _
    constructor <;> rfl
  · exact h

theorem still_readPage (s : State) (unit a n : Nat) : Still s (s.readPage unit a n).1 := by
  simp only [State.readPage]
  split
  · exact Still.refl s
  · split
    · exact still_touchMap _ _
    · exact Still.refl s
  · have h0 : Still s (if s.region a = Region.hbm then s.touchBitmap a else s) := by
      split
      · exact still_touchBitmap _ _
      · exact Still.refl s
    generalize (if s.region a = Region.hbm then s.touchBitmap a else s) = b at *
    split
    · exact h0
    · exact h0.trans (still_touch _ _ _ _)

theorem still_foldl_fst {α β : Type} {f : State × β → α → State × β} (h : ∀ q x, Still q.1 (f q x).1) :
    ∀ (l : List α) (q : State × β), Still q.1 (l.foldl f q).1
  | [], _ => Still.refl _
  | x :: r, q => (h q x).trans (still_foldl_fst h r (f q x))

theorem still_readMem (s : State) (unit a n : Nat) : Still s (s.readMem unit a n).1 :=
  still_foldl_fst (f := fun (q : State × Data) (c : Nat × Nat) =>
    ((q.1.readPage unit c.1 c.2).1, q.2.join (s.canon a) (c.1 - s.canon a) (q.1.readPage unit c.1 c.2).2))
    (fun q c => still_readPage q.1 unit c.1 c.2) _ (s, {})

/-- The fetch of an instruction word leaves every mallet, kit and partition as it was. -/
theorem still_fetched (s : State) (u : CtxId) : Still s (s.fetched u) := by
  unfold State.fetched State.fetch
  dsimp only
  split
  · exact Still.refl s
  · exact (still_readMem _ _ _ _).setDrum _ _ _

end Sys2Proof.Machine
end

