-- ==== Sys2Proof/Laws/State.lean ====
section
/-!
SUPPORT. Sys2Proof/Laws/State.lean: what each update of the state leaves as it was, field by field, and what reads find after writes of the
same unit or register.
-/
namespace Sys2Proof.Machine

open Sys2Proof (CtxId)

variable (s : State)

-- ===== State.setRg =====

@[simp] theorem State.setRg_pending (r : RegName) (i j : Nat) (w : BitVec 64) : (s.setRg r i j w).pending = s.pending := rfl
@[simp] theorem State.setRg_staged (r : RegName) (i j : Nat) (w : BitVec 64) : (s.setRg r i j w).staged = s.staged := rfl
@[simp] theorem State.setRg_previous (r : RegName) (i j : Nat) (w : BitVec 64) : (s.setRg r i j w).previous = s.previous := rfl
@[simp] theorem State.setRg_mem (r : RegName) (i j : Nat) (w : BitVec 64) : (s.setRg r i j w).mem = s.mem := rfl
@[simp] theorem State.setRg_flash (r : RegName) (i j : Nat) (w : BitVec 64) : (s.setRg r i j w).flash = s.flash := rfl
@[simp] theorem State.setRg_ev (r : RegName) (i j : Nat) (w : BitVec 64) : (s.setRg r i j w).ev = s.ev := rfl
@[simp] theorem State.setRg_boot (r : RegName) (i j : Nat) (w : BitVec 64) : (s.setRg r i j w).boot = s.boot := rfl
@[simp] theorem State.setRg_cfg (r : RegName) (i j : Nat) (w : BitVec 64) : (s.setRg r i j w).cfg = s.cfg := rfl
@[simp] theorem State.setRg_host (r : RegName) (i j : Nat) (w : BitVec 64) : (s.setRg r i j w).host = s.host := rfl
@[simp] theorem State.setRg_mgmt (r : RegName) (i j : Nat) (w : BitVec 64) : (s.setRg r i j w).mgmt = s.mgmt := rfl
@[simp] theorem State.setRg_power (r : RegName) (i j : Nat) (w : BitVec 64) : (s.setRg r i j w).power = s.power := rfl
@[simp] theorem State.setRg_kits (r : RegName) (i j : Nat) (w : BitVec 64) : (s.setRg r i j w).kits = s.kits := rfl
@[simp] theorem State.setRg_drums (r : RegName) (i j : Nat) (w : BitVec 64) : (s.setRg r i j w).drums = s.drums := rfl
@[simp] theorem State.setRg_mallets (r : RegName) (i j : Nat) (w : BitVec 64) : (s.setRg r i j w).mallets = s.mallets := rfl
@[simp] theorem State.setRg_parts (r : RegName) (i j : Nat) (w : BitVec 64) : (s.setRg r i j w).parts = s.parts := rfl
@[simp] theorem State.setRg_xfers (r : RegName) (i j : Nat) (w : BitVec 64) : (s.setRg r i j w).xfers = s.xfers := rfl
@[simp] theorem State.setRg_nextXfer (r : RegName) (i j : Nat) (w : BitVec 64) : (s.setRg r i j w).nextXfer = s.nextXfer := rfl
@[simp] theorem State.setRg_fab (r : RegName) (i j : Nat) (w : BitVec 64) : (s.setRg r i j w).fab = s.fab := rfl
@[simp] theorem State.setRg_out (r : RegName) (i j : Nat) (w : BitVec 64) : (s.setRg r i j w).out = s.out := rfl
@[simp] theorem State.setRg_freeCtr (r : RegName) (i j : Nat) (w : BitVec 64) : (s.setRg r i j w).freeCtr = s.freeCtr := rfl
@[simp] theorem State.setRg_integ (r : RegName) (i j : Nat) (w : BitVec 64) : (s.setRg r i j w).integ = s.integ := rfl
@[simp] theorem State.setRg_pair (r : RegName) (i j : Nat) (w : BitVec 64) : (s.setRg r i j w).pair = s.pair := rfl
@[simp] theorem State.setRg_used (r : RegName) (i j : Nat) (w : BitVec 64) : (s.setRg r i j w).used = s.used := rfl
@[simp] theorem State.setRg_due (r : RegName) (i j : Nat) (w : BitVec 64) : (s.setRg r i j w).due = s.due := rfl
@[simp] theorem State.setRg_streamEnd (r : RegName) (i j : Nat) (w : BitVec 64) : (s.setRg r i j w).streamEnd = s.streamEnd := rfl
@[simp] theorem State.setRg_shortCap (r : RegName) (i j : Nat) (w : BitVec 64) : (s.setRg r i j w).shortCap = s.shortCap := rfl
@[simp] theorem State.setRg_latchHi (r : RegName) (i j : Nat) (w : BitVec 64) : (s.setRg r i j w).latchHi = s.latchHi := rfl
@[simp] theorem State.setRg_acctRem (r : RegName) (i j : Nat) (w : BitVec 64) : (s.setRg r i j w).acctRem = s.acctRem := rfl
@[simp] theorem State.setRg_polls (r : RegName) (i j : Nat) (w : BitVec 64) : (s.setRg r i j w).polls = s.polls := rfl
@[simp] theorem State.setRg_jobs (r : RegName) (i j : Nat) (w : BitVec 64) : (s.setRg r i j w).jobs = s.jobs := rfl
@[simp] theorem State.setRg_kv (r : RegName) (i j : Nat) (w : BitVec 64) : (s.setRg r i j w).kv = s.kv := rfl
@[simp] theorem State.setRg_serve (r : RegName) (i j : Nat) (w : BitVec 64) : (s.setRg r i j w).serve = s.serve := rfl
@[simp] theorem State.setRg_trn (r : RegName) (i j : Nat) (w : BitVec 64) : (s.setRg r i j w).trn = s.trn := rfl
@[simp] theorem State.setRg_discards (r : RegName) (i j : Nat) (w : BitVec 64) : (s.setRg r i j w).discards = s.discards := rfl
@[simp] theorem State.setRg_saves (r : RegName) (i j : Nat) (w : BitVec 64) : (s.setRg r i j w).saves = s.saves := rfl

-- ===== State.setF =====

@[simp] theorem State.setF_pending (f : Fld) (i j v : Nat) : (s.setF f i j v).pending = s.pending := rfl
@[simp] theorem State.setF_staged (f : Fld) (i j v : Nat) : (s.setF f i j v).staged = s.staged := rfl
@[simp] theorem State.setF_previous (f : Fld) (i j v : Nat) : (s.setF f i j v).previous = s.previous := rfl
@[simp] theorem State.setF_mem (f : Fld) (i j v : Nat) : (s.setF f i j v).mem = s.mem := rfl
@[simp] theorem State.setF_flash (f : Fld) (i j v : Nat) : (s.setF f i j v).flash = s.flash := rfl
@[simp] theorem State.setF_ev (f : Fld) (i j v : Nat) : (s.setF f i j v).ev = s.ev := rfl
@[simp] theorem State.setF_boot (f : Fld) (i j v : Nat) : (s.setF f i j v).boot = s.boot := rfl
@[simp] theorem State.setF_cfg (f : Fld) (i j v : Nat) : (s.setF f i j v).cfg = s.cfg := rfl
@[simp] theorem State.setF_host (f : Fld) (i j v : Nat) : (s.setF f i j v).host = s.host := rfl
@[simp] theorem State.setF_mgmt (f : Fld) (i j v : Nat) : (s.setF f i j v).mgmt = s.mgmt := rfl
@[simp] theorem State.setF_power (f : Fld) (i j v : Nat) : (s.setF f i j v).power = s.power := rfl
@[simp] theorem State.setF_kits (f : Fld) (i j v : Nat) : (s.setF f i j v).kits = s.kits := rfl
@[simp] theorem State.setF_drums (f : Fld) (i j v : Nat) : (s.setF f i j v).drums = s.drums := rfl
@[simp] theorem State.setF_mallets (f : Fld) (i j v : Nat) : (s.setF f i j v).mallets = s.mallets := rfl
@[simp] theorem State.setF_parts (f : Fld) (i j v : Nat) : (s.setF f i j v).parts = s.parts := rfl
@[simp] theorem State.setF_xfers (f : Fld) (i j v : Nat) : (s.setF f i j v).xfers = s.xfers := rfl
@[simp] theorem State.setF_nextXfer (f : Fld) (i j v : Nat) : (s.setF f i j v).nextXfer = s.nextXfer := rfl
@[simp] theorem State.setF_fab (f : Fld) (i j v : Nat) : (s.setF f i j v).fab = s.fab := rfl
@[simp] theorem State.setF_out (f : Fld) (i j v : Nat) : (s.setF f i j v).out = s.out := rfl
@[simp] theorem State.setF_freeCtr (f : Fld) (i j v : Nat) : (s.setF f i j v).freeCtr = s.freeCtr := rfl
@[simp] theorem State.setF_integ (f : Fld) (i j v : Nat) : (s.setF f i j v).integ = s.integ := rfl
@[simp] theorem State.setF_pair (f : Fld) (i j v : Nat) : (s.setF f i j v).pair = s.pair := rfl
@[simp] theorem State.setF_used (f : Fld) (i j v : Nat) : (s.setF f i j v).used = s.used := rfl
@[simp] theorem State.setF_due (f : Fld) (i j v : Nat) : (s.setF f i j v).due = s.due := rfl
@[simp] theorem State.setF_streamEnd (f : Fld) (i j v : Nat) : (s.setF f i j v).streamEnd = s.streamEnd := rfl
@[simp] theorem State.setF_shortCap (f : Fld) (i j v : Nat) : (s.setF f i j v).shortCap = s.shortCap := rfl
@[simp] theorem State.setF_latchHi (f : Fld) (i j v : Nat) : (s.setF f i j v).latchHi = s.latchHi := rfl
@[simp] theorem State.setF_acctRem (f : Fld) (i j v : Nat) : (s.setF f i j v).acctRem = s.acctRem := rfl
@[simp] theorem State.setF_polls (f : Fld) (i j v : Nat) : (s.setF f i j v).polls = s.polls := rfl
@[simp] theorem State.setF_jobs (f : Fld) (i j v : Nat) : (s.setF f i j v).jobs = s.jobs := rfl
@[simp] theorem State.setF_kv (f : Fld) (i j v : Nat) : (s.setF f i j v).kv = s.kv := rfl
@[simp] theorem State.setF_serve (f : Fld) (i j v : Nat) : (s.setF f i j v).serve = s.serve := rfl
@[simp] theorem State.setF_trn (f : Fld) (i j v : Nat) : (s.setF f i j v).trn = s.trn := rfl
@[simp] theorem State.setF_discards (f : Fld) (i j v : Nat) : (s.setF f i j v).discards = s.discards := rfl
@[simp] theorem State.setF_saves (f : Fld) (i j v : Nat) : (s.setF f i j v).saves = s.saves := rfl

-- ===== State.setB =====

@[simp] theorem State.setB_pending (f : Fld) (i j : Nat) (b : Bool) : (s.setB f i j b).pending = s.pending := rfl
@[simp] theorem State.setB_staged (f : Fld) (i j : Nat) (b : Bool) : (s.setB f i j b).staged = s.staged := rfl
@[simp] theorem State.setB_previous (f : Fld) (i j : Nat) (b : Bool) : (s.setB f i j b).previous = s.previous := rfl
@[simp] theorem State.setB_mem (f : Fld) (i j : Nat) (b : Bool) : (s.setB f i j b).mem = s.mem := rfl
@[simp] theorem State.setB_flash (f : Fld) (i j : Nat) (b : Bool) : (s.setB f i j b).flash = s.flash := rfl
@[simp] theorem State.setB_ev (f : Fld) (i j : Nat) (b : Bool) : (s.setB f i j b).ev = s.ev := rfl
@[simp] theorem State.setB_boot (f : Fld) (i j : Nat) (b : Bool) : (s.setB f i j b).boot = s.boot := rfl
@[simp] theorem State.setB_cfg (f : Fld) (i j : Nat) (b : Bool) : (s.setB f i j b).cfg = s.cfg := rfl
@[simp] theorem State.setB_host (f : Fld) (i j : Nat) (b : Bool) : (s.setB f i j b).host = s.host := rfl
@[simp] theorem State.setB_mgmt (f : Fld) (i j : Nat) (b : Bool) : (s.setB f i j b).mgmt = s.mgmt := rfl
@[simp] theorem State.setB_power (f : Fld) (i j : Nat) (b : Bool) : (s.setB f i j b).power = s.power := rfl
@[simp] theorem State.setB_kits (f : Fld) (i j : Nat) (b : Bool) : (s.setB f i j b).kits = s.kits := rfl
@[simp] theorem State.setB_drums (f : Fld) (i j : Nat) (b : Bool) : (s.setB f i j b).drums = s.drums := rfl
@[simp] theorem State.setB_mallets (f : Fld) (i j : Nat) (b : Bool) : (s.setB f i j b).mallets = s.mallets := rfl
@[simp] theorem State.setB_parts (f : Fld) (i j : Nat) (b : Bool) : (s.setB f i j b).parts = s.parts := rfl
@[simp] theorem State.setB_xfers (f : Fld) (i j : Nat) (b : Bool) : (s.setB f i j b).xfers = s.xfers := rfl
@[simp] theorem State.setB_nextXfer (f : Fld) (i j : Nat) (b : Bool) : (s.setB f i j b).nextXfer = s.nextXfer := rfl
@[simp] theorem State.setB_fab (f : Fld) (i j : Nat) (b : Bool) : (s.setB f i j b).fab = s.fab := rfl
@[simp] theorem State.setB_out (f : Fld) (i j : Nat) (b : Bool) : (s.setB f i j b).out = s.out := rfl
@[simp] theorem State.setB_freeCtr (f : Fld) (i j : Nat) (b : Bool) : (s.setB f i j b).freeCtr = s.freeCtr := rfl
@[simp] theorem State.setB_integ (f : Fld) (i j : Nat) (b : Bool) : (s.setB f i j b).integ = s.integ := rfl
@[simp] theorem State.setB_pair (f : Fld) (i j : Nat) (b : Bool) : (s.setB f i j b).pair = s.pair := rfl
@[simp] theorem State.setB_used (f : Fld) (i j : Nat) (b : Bool) : (s.setB f i j b).used = s.used := rfl
@[simp] theorem State.setB_due (f : Fld) (i j : Nat) (b : Bool) : (s.setB f i j b).due = s.due := rfl
@[simp] theorem State.setB_streamEnd (f : Fld) (i j : Nat) (b : Bool) : (s.setB f i j b).streamEnd = s.streamEnd := rfl
@[simp] theorem State.setB_shortCap (f : Fld) (i j : Nat) (b : Bool) : (s.setB f i j b).shortCap = s.shortCap := rfl
@[simp] theorem State.setB_latchHi (f : Fld) (i j : Nat) (b : Bool) : (s.setB f i j b).latchHi = s.latchHi := rfl
@[simp] theorem State.setB_acctRem (f : Fld) (i j : Nat) (b : Bool) : (s.setB f i j b).acctRem = s.acctRem := rfl
@[simp] theorem State.setB_polls (f : Fld) (i j : Nat) (b : Bool) : (s.setB f i j b).polls = s.polls := rfl
@[simp] theorem State.setB_jobs (f : Fld) (i j : Nat) (b : Bool) : (s.setB f i j b).jobs = s.jobs := rfl
@[simp] theorem State.setB_kv (f : Fld) (i j : Nat) (b : Bool) : (s.setB f i j b).kv = s.kv := rfl
@[simp] theorem State.setB_serve (f : Fld) (i j : Nat) (b : Bool) : (s.setB f i j b).serve = s.serve := rfl
@[simp] theorem State.setB_trn (f : Fld) (i j : Nat) (b : Bool) : (s.setB f i j b).trn = s.trn := rfl
@[simp] theorem State.setB_discards (f : Fld) (i j : Nat) (b : Bool) : (s.setB f i j b).discards = s.discards := rfl
@[simp] theorem State.setB_saves (f : Fld) (i j : Nat) (b : Bool) : (s.setB f i j b).saves = s.saves := rfl

-- ===== State.count =====

@[simp] theorem State.count_pending (f : Fld) (i j n : Nat) : (s.count f i j n).pending = s.pending := rfl
@[simp] theorem State.count_staged (f : Fld) (i j n : Nat) : (s.count f i j n).staged = s.staged := rfl
@[simp] theorem State.count_previous (f : Fld) (i j n : Nat) : (s.count f i j n).previous = s.previous := rfl
@[simp] theorem State.count_mem (f : Fld) (i j n : Nat) : (s.count f i j n).mem = s.mem := rfl
@[simp] theorem State.count_flash (f : Fld) (i j n : Nat) : (s.count f i j n).flash = s.flash := rfl
@[simp] theorem State.count_ev (f : Fld) (i j n : Nat) : (s.count f i j n).ev = s.ev := rfl
@[simp] theorem State.count_boot (f : Fld) (i j n : Nat) : (s.count f i j n).boot = s.boot := rfl
@[simp] theorem State.count_cfg (f : Fld) (i j n : Nat) : (s.count f i j n).cfg = s.cfg := rfl
@[simp] theorem State.count_host (f : Fld) (i j n : Nat) : (s.count f i j n).host = s.host := rfl
@[simp] theorem State.count_mgmt (f : Fld) (i j n : Nat) : (s.count f i j n).mgmt = s.mgmt := rfl
@[simp] theorem State.count_power (f : Fld) (i j n : Nat) : (s.count f i j n).power = s.power := rfl
@[simp] theorem State.count_kits (f : Fld) (i j n : Nat) : (s.count f i j n).kits = s.kits := rfl
@[simp] theorem State.count_drums (f : Fld) (i j n : Nat) : (s.count f i j n).drums = s.drums := rfl
@[simp] theorem State.count_mallets (f : Fld) (i j n : Nat) : (s.count f i j n).mallets = s.mallets := rfl
@[simp] theorem State.count_parts (f : Fld) (i j n : Nat) : (s.count f i j n).parts = s.parts := rfl
@[simp] theorem State.count_xfers (f : Fld) (i j n : Nat) : (s.count f i j n).xfers = s.xfers := rfl
@[simp] theorem State.count_nextXfer (f : Fld) (i j n : Nat) : (s.count f i j n).nextXfer = s.nextXfer := rfl
@[simp] theorem State.count_fab (f : Fld) (i j n : Nat) : (s.count f i j n).fab = s.fab := rfl
@[simp] theorem State.count_out (f : Fld) (i j n : Nat) : (s.count f i j n).out = s.out := rfl
@[simp] theorem State.count_freeCtr (f : Fld) (i j n : Nat) : (s.count f i j n).freeCtr = s.freeCtr := rfl
@[simp] theorem State.count_integ (f : Fld) (i j n : Nat) : (s.count f i j n).integ = s.integ := rfl
@[simp] theorem State.count_pair (f : Fld) (i j n : Nat) : (s.count f i j n).pair = s.pair := rfl
@[simp] theorem State.count_used (f : Fld) (i j n : Nat) : (s.count f i j n).used = s.used := rfl
@[simp] theorem State.count_due (f : Fld) (i j n : Nat) : (s.count f i j n).due = s.due := rfl
@[simp] theorem State.count_streamEnd (f : Fld) (i j n : Nat) : (s.count f i j n).streamEnd = s.streamEnd := rfl
@[simp] theorem State.count_shortCap (f : Fld) (i j n : Nat) : (s.count f i j n).shortCap = s.shortCap := rfl
@[simp] theorem State.count_latchHi (f : Fld) (i j n : Nat) : (s.count f i j n).latchHi = s.latchHi := rfl
@[simp] theorem State.count_acctRem (f : Fld) (i j n : Nat) : (s.count f i j n).acctRem = s.acctRem := rfl
@[simp] theorem State.count_polls (f : Fld) (i j n : Nat) : (s.count f i j n).polls = s.polls := rfl
@[simp] theorem State.count_jobs (f : Fld) (i j n : Nat) : (s.count f i j n).jobs = s.jobs := rfl
@[simp] theorem State.count_kv (f : Fld) (i j n : Nat) : (s.count f i j n).kv = s.kv := rfl
@[simp] theorem State.count_serve (f : Fld) (i j n : Nat) : (s.count f i j n).serve = s.serve := rfl
@[simp] theorem State.count_trn (f : Fld) (i j n : Nat) : (s.count f i j n).trn = s.trn := rfl
@[simp] theorem State.count_discards (f : Fld) (i j n : Nat) : (s.count f i j n).discards = s.discards := rfl
@[simp] theorem State.count_saves (f : Fld) (i j n : Nat) : (s.count f i j n).saves = s.saves := rfl

-- ===== State.setKit =====

@[simp] theorem State.setKit_pending (k : Nat) (g : Kit → Kit) : (s.setKit k g).pending = s.pending := rfl
@[simp] theorem State.setKit_regs (k : Nat) (g : Kit → Kit) : (s.setKit k g).regs = s.regs := rfl
@[simp] theorem State.setKit_staged (k : Nat) (g : Kit → Kit) : (s.setKit k g).staged = s.staged := rfl
@[simp] theorem State.setKit_previous (k : Nat) (g : Kit → Kit) : (s.setKit k g).previous = s.previous := rfl
@[simp] theorem State.setKit_mem (k : Nat) (g : Kit → Kit) : (s.setKit k g).mem = s.mem := rfl
@[simp] theorem State.setKit_flash (k : Nat) (g : Kit → Kit) : (s.setKit k g).flash = s.flash := rfl
@[simp] theorem State.setKit_ev (k : Nat) (g : Kit → Kit) : (s.setKit k g).ev = s.ev := rfl
@[simp] theorem State.setKit_boot (k : Nat) (g : Kit → Kit) : (s.setKit k g).boot = s.boot := rfl
@[simp] theorem State.setKit_cfg (k : Nat) (g : Kit → Kit) : (s.setKit k g).cfg = s.cfg := rfl
@[simp] theorem State.setKit_host (k : Nat) (g : Kit → Kit) : (s.setKit k g).host = s.host := rfl
@[simp] theorem State.setKit_mgmt (k : Nat) (g : Kit → Kit) : (s.setKit k g).mgmt = s.mgmt := rfl
@[simp] theorem State.setKit_power (k : Nat) (g : Kit → Kit) : (s.setKit k g).power = s.power := rfl
@[simp] theorem State.setKit_drums (k : Nat) (g : Kit → Kit) : (s.setKit k g).drums = s.drums := rfl
@[simp] theorem State.setKit_mallets (k : Nat) (g : Kit → Kit) : (s.setKit k g).mallets = s.mallets := rfl
@[simp] theorem State.setKit_parts (k : Nat) (g : Kit → Kit) : (s.setKit k g).parts = s.parts := rfl
@[simp] theorem State.setKit_xfers (k : Nat) (g : Kit → Kit) : (s.setKit k g).xfers = s.xfers := rfl
@[simp] theorem State.setKit_nextXfer (k : Nat) (g : Kit → Kit) : (s.setKit k g).nextXfer = s.nextXfer := rfl
@[simp] theorem State.setKit_fab (k : Nat) (g : Kit → Kit) : (s.setKit k g).fab = s.fab := rfl
@[simp] theorem State.setKit_out (k : Nat) (g : Kit → Kit) : (s.setKit k g).out = s.out := rfl
@[simp] theorem State.setKit_freeCtr (k : Nat) (g : Kit → Kit) : (s.setKit k g).freeCtr = s.freeCtr := rfl
@[simp] theorem State.setKit_integ (k : Nat) (g : Kit → Kit) : (s.setKit k g).integ = s.integ := rfl
@[simp] theorem State.setKit_pair (k : Nat) (g : Kit → Kit) : (s.setKit k g).pair = s.pair := rfl
@[simp] theorem State.setKit_used (k : Nat) (g : Kit → Kit) : (s.setKit k g).used = s.used := rfl
@[simp] theorem State.setKit_due (k : Nat) (g : Kit → Kit) : (s.setKit k g).due = s.due := rfl
@[simp] theorem State.setKit_streamEnd (k : Nat) (g : Kit → Kit) : (s.setKit k g).streamEnd = s.streamEnd := rfl
@[simp] theorem State.setKit_shortCap (k : Nat) (g : Kit → Kit) : (s.setKit k g).shortCap = s.shortCap := rfl
@[simp] theorem State.setKit_latchHi (k : Nat) (g : Kit → Kit) : (s.setKit k g).latchHi = s.latchHi := rfl
@[simp] theorem State.setKit_acctRem (k : Nat) (g : Kit → Kit) : (s.setKit k g).acctRem = s.acctRem := rfl
@[simp] theorem State.setKit_polls (k : Nat) (g : Kit → Kit) : (s.setKit k g).polls = s.polls := rfl
@[simp] theorem State.setKit_jobs (k : Nat) (g : Kit → Kit) : (s.setKit k g).jobs = s.jobs := rfl
@[simp] theorem State.setKit_kv (k : Nat) (g : Kit → Kit) : (s.setKit k g).kv = s.kv := rfl
@[simp] theorem State.setKit_serve (k : Nat) (g : Kit → Kit) : (s.setKit k g).serve = s.serve := rfl
@[simp] theorem State.setKit_trn (k : Nat) (g : Kit → Kit) : (s.setKit k g).trn = s.trn := rfl
@[simp] theorem State.setKit_discards (k : Nat) (g : Kit → Kit) : (s.setKit k g).discards = s.discards := rfl
@[simp] theorem State.setKit_saves (k : Nat) (g : Kit → Kit) : (s.setKit k g).saves = s.saves := rfl

-- ===== State.setDrum =====

@[simp] theorem State.setDrum_pending (k d : Nat) (g : Drum → Drum) : (s.setDrum k d g).pending = s.pending := rfl
@[simp] theorem State.setDrum_regs (k d : Nat) (g : Drum → Drum) : (s.setDrum k d g).regs = s.regs := rfl
@[simp] theorem State.setDrum_staged (k d : Nat) (g : Drum → Drum) : (s.setDrum k d g).staged = s.staged := rfl
@[simp] theorem State.setDrum_previous (k d : Nat) (g : Drum → Drum) : (s.setDrum k d g).previous = s.previous := rfl
@[simp] theorem State.setDrum_mem (k d : Nat) (g : Drum → Drum) : (s.setDrum k d g).mem = s.mem := rfl
@[simp] theorem State.setDrum_flash (k d : Nat) (g : Drum → Drum) : (s.setDrum k d g).flash = s.flash := rfl
@[simp] theorem State.setDrum_ev (k d : Nat) (g : Drum → Drum) : (s.setDrum k d g).ev = s.ev := rfl
@[simp] theorem State.setDrum_boot (k d : Nat) (g : Drum → Drum) : (s.setDrum k d g).boot = s.boot := rfl
@[simp] theorem State.setDrum_cfg (k d : Nat) (g : Drum → Drum) : (s.setDrum k d g).cfg = s.cfg := rfl
@[simp] theorem State.setDrum_host (k d : Nat) (g : Drum → Drum) : (s.setDrum k d g).host = s.host := rfl
@[simp] theorem State.setDrum_mgmt (k d : Nat) (g : Drum → Drum) : (s.setDrum k d g).mgmt = s.mgmt := rfl
@[simp] theorem State.setDrum_power (k d : Nat) (g : Drum → Drum) : (s.setDrum k d g).power = s.power := rfl
@[simp] theorem State.setDrum_kits (k d : Nat) (g : Drum → Drum) : (s.setDrum k d g).kits = s.kits := rfl
@[simp] theorem State.setDrum_mallets (k d : Nat) (g : Drum → Drum) : (s.setDrum k d g).mallets = s.mallets := rfl
@[simp] theorem State.setDrum_parts (k d : Nat) (g : Drum → Drum) : (s.setDrum k d g).parts = s.parts := rfl
@[simp] theorem State.setDrum_xfers (k d : Nat) (g : Drum → Drum) : (s.setDrum k d g).xfers = s.xfers := rfl
@[simp] theorem State.setDrum_nextXfer (k d : Nat) (g : Drum → Drum) : (s.setDrum k d g).nextXfer = s.nextXfer := rfl
@[simp] theorem State.setDrum_fab (k d : Nat) (g : Drum → Drum) : (s.setDrum k d g).fab = s.fab := rfl
@[simp] theorem State.setDrum_out (k d : Nat) (g : Drum → Drum) : (s.setDrum k d g).out = s.out := rfl
@[simp] theorem State.setDrum_freeCtr (k d : Nat) (g : Drum → Drum) : (s.setDrum k d g).freeCtr = s.freeCtr := rfl
@[simp] theorem State.setDrum_integ (k d : Nat) (g : Drum → Drum) : (s.setDrum k d g).integ = s.integ := rfl
@[simp] theorem State.setDrum_pair (k d : Nat) (g : Drum → Drum) : (s.setDrum k d g).pair = s.pair := rfl
@[simp] theorem State.setDrum_used (k d : Nat) (g : Drum → Drum) : (s.setDrum k d g).used = s.used := rfl
@[simp] theorem State.setDrum_due (k d : Nat) (g : Drum → Drum) : (s.setDrum k d g).due = s.due := rfl
@[simp] theorem State.setDrum_streamEnd (k d : Nat) (g : Drum → Drum) : (s.setDrum k d g).streamEnd = s.streamEnd := rfl
@[simp] theorem State.setDrum_shortCap (k d : Nat) (g : Drum → Drum) : (s.setDrum k d g).shortCap = s.shortCap := rfl
@[simp] theorem State.setDrum_latchHi (k d : Nat) (g : Drum → Drum) : (s.setDrum k d g).latchHi = s.latchHi := rfl
@[simp] theorem State.setDrum_acctRem (k d : Nat) (g : Drum → Drum) : (s.setDrum k d g).acctRem = s.acctRem := rfl
@[simp] theorem State.setDrum_polls (k d : Nat) (g : Drum → Drum) : (s.setDrum k d g).polls = s.polls := rfl
@[simp] theorem State.setDrum_jobs (k d : Nat) (g : Drum → Drum) : (s.setDrum k d g).jobs = s.jobs := rfl
@[simp] theorem State.setDrum_kv (k d : Nat) (g : Drum → Drum) : (s.setDrum k d g).kv = s.kv := rfl
@[simp] theorem State.setDrum_serve (k d : Nat) (g : Drum → Drum) : (s.setDrum k d g).serve = s.serve := rfl
@[simp] theorem State.setDrum_trn (k d : Nat) (g : Drum → Drum) : (s.setDrum k d g).trn = s.trn := rfl
@[simp] theorem State.setDrum_discards (k d : Nat) (g : Drum → Drum) : (s.setDrum k d g).discards = s.discards := rfl
@[simp] theorem State.setDrum_saves (k d : Nat) (g : Drum → Drum) : (s.setDrum k d g).saves = s.saves := rfl

-- ===== State.setMallet =====

@[simp] theorem State.setMallet_pending (k d m : Nat) (g : Mallet → Mallet) : (s.setMallet k d m g).pending = s.pending := rfl
@[simp] theorem State.setMallet_regs (k d m : Nat) (g : Mallet → Mallet) : (s.setMallet k d m g).regs = s.regs := rfl
@[simp] theorem State.setMallet_staged (k d m : Nat) (g : Mallet → Mallet) : (s.setMallet k d m g).staged = s.staged := rfl
@[simp] theorem State.setMallet_previous (k d m : Nat) (g : Mallet → Mallet) : (s.setMallet k d m g).previous = s.previous := rfl
@[simp] theorem State.setMallet_mem (k d m : Nat) (g : Mallet → Mallet) : (s.setMallet k d m g).mem = s.mem := rfl
@[simp] theorem State.setMallet_flash (k d m : Nat) (g : Mallet → Mallet) : (s.setMallet k d m g).flash = s.flash := rfl
@[simp] theorem State.setMallet_ev (k d m : Nat) (g : Mallet → Mallet) : (s.setMallet k d m g).ev = s.ev := rfl
@[simp] theorem State.setMallet_boot (k d m : Nat) (g : Mallet → Mallet) : (s.setMallet k d m g).boot = s.boot := rfl
@[simp] theorem State.setMallet_cfg (k d m : Nat) (g : Mallet → Mallet) : (s.setMallet k d m g).cfg = s.cfg := rfl
@[simp] theorem State.setMallet_host (k d m : Nat) (g : Mallet → Mallet) : (s.setMallet k d m g).host = s.host := rfl
@[simp] theorem State.setMallet_mgmt (k d m : Nat) (g : Mallet → Mallet) : (s.setMallet k d m g).mgmt = s.mgmt := rfl
@[simp] theorem State.setMallet_power (k d m : Nat) (g : Mallet → Mallet) : (s.setMallet k d m g).power = s.power := rfl
@[simp] theorem State.setMallet_kits (k d m : Nat) (g : Mallet → Mallet) : (s.setMallet k d m g).kits = s.kits := rfl
@[simp] theorem State.setMallet_drums (k d m : Nat) (g : Mallet → Mallet) : (s.setMallet k d m g).drums = s.drums := rfl
@[simp] theorem State.setMallet_parts (k d m : Nat) (g : Mallet → Mallet) : (s.setMallet k d m g).parts = s.parts := rfl
@[simp] theorem State.setMallet_xfers (k d m : Nat) (g : Mallet → Mallet) : (s.setMallet k d m g).xfers = s.xfers := rfl
@[simp] theorem State.setMallet_nextXfer (k d m : Nat) (g : Mallet → Mallet) : (s.setMallet k d m g).nextXfer = s.nextXfer := rfl
@[simp] theorem State.setMallet_fab (k d m : Nat) (g : Mallet → Mallet) : (s.setMallet k d m g).fab = s.fab := rfl
@[simp] theorem State.setMallet_out (k d m : Nat) (g : Mallet → Mallet) : (s.setMallet k d m g).out = s.out := rfl
@[simp] theorem State.setMallet_freeCtr (k d m : Nat) (g : Mallet → Mallet) : (s.setMallet k d m g).freeCtr = s.freeCtr := rfl
@[simp] theorem State.setMallet_integ (k d m : Nat) (g : Mallet → Mallet) : (s.setMallet k d m g).integ = s.integ := rfl
@[simp] theorem State.setMallet_pair (k d m : Nat) (g : Mallet → Mallet) : (s.setMallet k d m g).pair = s.pair := rfl
@[simp] theorem State.setMallet_used (k d m : Nat) (g : Mallet → Mallet) : (s.setMallet k d m g).used = s.used := rfl
@[simp] theorem State.setMallet_due (k d m : Nat) (g : Mallet → Mallet) : (s.setMallet k d m g).due = s.due := rfl
@[simp] theorem State.setMallet_streamEnd (k d m : Nat) (g : Mallet → Mallet) : (s.setMallet k d m g).streamEnd = s.streamEnd := rfl
@[simp] theorem State.setMallet_shortCap (k d m : Nat) (g : Mallet → Mallet) : (s.setMallet k d m g).shortCap = s.shortCap := rfl
@[simp] theorem State.setMallet_latchHi (k d m : Nat) (g : Mallet → Mallet) : (s.setMallet k d m g).latchHi = s.latchHi := rfl
@[simp] theorem State.setMallet_acctRem (k d m : Nat) (g : Mallet → Mallet) : (s.setMallet k d m g).acctRem = s.acctRem := rfl
@[simp] theorem State.setMallet_polls (k d m : Nat) (g : Mallet → Mallet) : (s.setMallet k d m g).polls = s.polls := rfl
@[simp] theorem State.setMallet_jobs (k d m : Nat) (g : Mallet → Mallet) : (s.setMallet k d m g).jobs = s.jobs := rfl
@[simp] theorem State.setMallet_kv (k d m : Nat) (g : Mallet → Mallet) : (s.setMallet k d m g).kv = s.kv := rfl
@[simp] theorem State.setMallet_serve (k d m : Nat) (g : Mallet → Mallet) : (s.setMallet k d m g).serve = s.serve := rfl
@[simp] theorem State.setMallet_trn (k d m : Nat) (g : Mallet → Mallet) : (s.setMallet k d m g).trn = s.trn := rfl
@[simp] theorem State.setMallet_discards (k d m : Nat) (g : Mallet → Mallet) : (s.setMallet k d m g).discards = s.discards := rfl
@[simp] theorem State.setMallet_saves (k d m : Nat) (g : Mallet → Mallet) : (s.setMallet k d m g).saves = s.saves := rfl

-- ===== State.setPart =====

@[simp] theorem State.setPart_pending (p : Nat) (g : Part → Part) : (s.setPart p g).pending = s.pending := rfl
@[simp] theorem State.setPart_regs (p : Nat) (g : Part → Part) : (s.setPart p g).regs = s.regs := rfl
@[simp] theorem State.setPart_staged (p : Nat) (g : Part → Part) : (s.setPart p g).staged = s.staged := rfl
@[simp] theorem State.setPart_previous (p : Nat) (g : Part → Part) : (s.setPart p g).previous = s.previous := rfl
@[simp] theorem State.setPart_mem (p : Nat) (g : Part → Part) : (s.setPart p g).mem = s.mem := rfl
@[simp] theorem State.setPart_flash (p : Nat) (g : Part → Part) : (s.setPart p g).flash = s.flash := rfl
@[simp] theorem State.setPart_ev (p : Nat) (g : Part → Part) : (s.setPart p g).ev = s.ev := rfl
@[simp] theorem State.setPart_boot (p : Nat) (g : Part → Part) : (s.setPart p g).boot = s.boot := rfl
@[simp] theorem State.setPart_cfg (p : Nat) (g : Part → Part) : (s.setPart p g).cfg = s.cfg := rfl
@[simp] theorem State.setPart_host (p : Nat) (g : Part → Part) : (s.setPart p g).host = s.host := rfl
@[simp] theorem State.setPart_mgmt (p : Nat) (g : Part → Part) : (s.setPart p g).mgmt = s.mgmt := rfl
@[simp] theorem State.setPart_power (p : Nat) (g : Part → Part) : (s.setPart p g).power = s.power := rfl
@[simp] theorem State.setPart_kits (p : Nat) (g : Part → Part) : (s.setPart p g).kits = s.kits := rfl
@[simp] theorem State.setPart_drums (p : Nat) (g : Part → Part) : (s.setPart p g).drums = s.drums := rfl
@[simp] theorem State.setPart_mallets (p : Nat) (g : Part → Part) : (s.setPart p g).mallets = s.mallets := rfl
@[simp] theorem State.setPart_xfers (p : Nat) (g : Part → Part) : (s.setPart p g).xfers = s.xfers := rfl
@[simp] theorem State.setPart_nextXfer (p : Nat) (g : Part → Part) : (s.setPart p g).nextXfer = s.nextXfer := rfl
@[simp] theorem State.setPart_fab (p : Nat) (g : Part → Part) : (s.setPart p g).fab = s.fab := rfl
@[simp] theorem State.setPart_out (p : Nat) (g : Part → Part) : (s.setPart p g).out = s.out := rfl
@[simp] theorem State.setPart_freeCtr (p : Nat) (g : Part → Part) : (s.setPart p g).freeCtr = s.freeCtr := rfl
@[simp] theorem State.setPart_integ (p : Nat) (g : Part → Part) : (s.setPart p g).integ = s.integ := rfl
@[simp] theorem State.setPart_pair (p : Nat) (g : Part → Part) : (s.setPart p g).pair = s.pair := rfl
@[simp] theorem State.setPart_used (p : Nat) (g : Part → Part) : (s.setPart p g).used = s.used := rfl
@[simp] theorem State.setPart_due (p : Nat) (g : Part → Part) : (s.setPart p g).due = s.due := rfl
@[simp] theorem State.setPart_streamEnd (p : Nat) (g : Part → Part) : (s.setPart p g).streamEnd = s.streamEnd := rfl
@[simp] theorem State.setPart_shortCap (p : Nat) (g : Part → Part) : (s.setPart p g).shortCap = s.shortCap := rfl
@[simp] theorem State.setPart_latchHi (p : Nat) (g : Part → Part) : (s.setPart p g).latchHi = s.latchHi := rfl
@[simp] theorem State.setPart_acctRem (p : Nat) (g : Part → Part) : (s.setPart p g).acctRem = s.acctRem := rfl
@[simp] theorem State.setPart_polls (p : Nat) (g : Part → Part) : (s.setPart p g).polls = s.polls := rfl
@[simp] theorem State.setPart_jobs (p : Nat) (g : Part → Part) : (s.setPart p g).jobs = s.jobs := rfl
@[simp] theorem State.setPart_kv (p : Nat) (g : Part → Part) : (s.setPart p g).kv = s.kv := rfl
@[simp] theorem State.setPart_serve (p : Nat) (g : Part → Part) : (s.setPart p g).serve = s.serve := rfl
@[simp] theorem State.setPart_trn (p : Nat) (g : Part → Part) : (s.setPart p g).trn = s.trn := rfl
@[simp] theorem State.setPart_discards (p : Nat) (g : Part → Part) : (s.setPart p g).discards = s.discards := rfl
@[simp] theorem State.setPart_saves (p : Nat) (g : Part → Part) : (s.setPart p g).saves = s.saves := rfl

-- ===== State.setCtx =====

@[simp] theorem State.setCtx_pending (u : CtxId) (g : Ctx → Ctx) : (s.setCtx u g).pending = s.pending := rfl
@[simp] theorem State.setCtx_regs (u : CtxId) (g : Ctx → Ctx) : (s.setCtx u g).regs = s.regs := rfl
@[simp] theorem State.setCtx_staged (u : CtxId) (g : Ctx → Ctx) : (s.setCtx u g).staged = s.staged := rfl
@[simp] theorem State.setCtx_previous (u : CtxId) (g : Ctx → Ctx) : (s.setCtx u g).previous = s.previous := rfl
@[simp] theorem State.setCtx_mem (u : CtxId) (g : Ctx → Ctx) : (s.setCtx u g).mem = s.mem := rfl
@[simp] theorem State.setCtx_flash (u : CtxId) (g : Ctx → Ctx) : (s.setCtx u g).flash = s.flash := rfl
@[simp] theorem State.setCtx_ev (u : CtxId) (g : Ctx → Ctx) : (s.setCtx u g).ev = s.ev := rfl
@[simp] theorem State.setCtx_boot (u : CtxId) (g : Ctx → Ctx) : (s.setCtx u g).boot = s.boot := rfl
@[simp] theorem State.setCtx_cfg (u : CtxId) (g : Ctx → Ctx) : (s.setCtx u g).cfg = s.cfg := rfl
@[simp] theorem State.setCtx_host (u : CtxId) (g : Ctx → Ctx) : (s.setCtx u g).host = s.host := rfl
@[simp] theorem State.setCtx_mgmt (u : CtxId) (g : Ctx → Ctx) : (s.setCtx u g).mgmt = s.mgmt := rfl
@[simp] theorem State.setCtx_power (u : CtxId) (g : Ctx → Ctx) : (s.setCtx u g).power = s.power := rfl
@[simp] theorem State.setCtx_kits (u : CtxId) (g : Ctx → Ctx) : (s.setCtx u g).kits = s.kits := rfl
@[simp] theorem State.setCtx_drums (u : CtxId) (g : Ctx → Ctx) : (s.setCtx u g).drums = s.drums := rfl
@[simp] theorem State.setCtx_parts (u : CtxId) (g : Ctx → Ctx) : (s.setCtx u g).parts = s.parts := rfl
@[simp] theorem State.setCtx_xfers (u : CtxId) (g : Ctx → Ctx) : (s.setCtx u g).xfers = s.xfers := rfl
@[simp] theorem State.setCtx_nextXfer (u : CtxId) (g : Ctx → Ctx) : (s.setCtx u g).nextXfer = s.nextXfer := rfl
@[simp] theorem State.setCtx_fab (u : CtxId) (g : Ctx → Ctx) : (s.setCtx u g).fab = s.fab := rfl
@[simp] theorem State.setCtx_out (u : CtxId) (g : Ctx → Ctx) : (s.setCtx u g).out = s.out := rfl
@[simp] theorem State.setCtx_freeCtr (u : CtxId) (g : Ctx → Ctx) : (s.setCtx u g).freeCtr = s.freeCtr := rfl
@[simp] theorem State.setCtx_integ (u : CtxId) (g : Ctx → Ctx) : (s.setCtx u g).integ = s.integ := rfl
@[simp] theorem State.setCtx_pair (u : CtxId) (g : Ctx → Ctx) : (s.setCtx u g).pair = s.pair := rfl
@[simp] theorem State.setCtx_used (u : CtxId) (g : Ctx → Ctx) : (s.setCtx u g).used = s.used := rfl
@[simp] theorem State.setCtx_due (u : CtxId) (g : Ctx → Ctx) : (s.setCtx u g).due = s.due := rfl
@[simp] theorem State.setCtx_streamEnd (u : CtxId) (g : Ctx → Ctx) : (s.setCtx u g).streamEnd = s.streamEnd := rfl
@[simp] theorem State.setCtx_shortCap (u : CtxId) (g : Ctx → Ctx) : (s.setCtx u g).shortCap = s.shortCap := rfl
@[simp] theorem State.setCtx_latchHi (u : CtxId) (g : Ctx → Ctx) : (s.setCtx u g).latchHi = s.latchHi := rfl
@[simp] theorem State.setCtx_acctRem (u : CtxId) (g : Ctx → Ctx) : (s.setCtx u g).acctRem = s.acctRem := rfl
@[simp] theorem State.setCtx_polls (u : CtxId) (g : Ctx → Ctx) : (s.setCtx u g).polls = s.polls := rfl
@[simp] theorem State.setCtx_jobs (u : CtxId) (g : Ctx → Ctx) : (s.setCtx u g).jobs = s.jobs := rfl
@[simp] theorem State.setCtx_kv (u : CtxId) (g : Ctx → Ctx) : (s.setCtx u g).kv = s.kv := rfl
@[simp] theorem State.setCtx_serve (u : CtxId) (g : Ctx → Ctx) : (s.setCtx u g).serve = s.serve := rfl
@[simp] theorem State.setCtx_trn (u : CtxId) (g : Ctx → Ctx) : (s.setCtx u g).trn = s.trn := rfl
@[simp] theorem State.setCtx_discards (u : CtxId) (g : Ctx → Ctx) : (s.setCtx u g).discards = s.discards := rfl
@[simp] theorem State.setCtx_saves (u : CtxId) (g : Ctx → Ctx) : (s.setCtx u g).saves = s.saves := rfl

-- ===== State.setTile =====

@[simp] theorem State.setTile_pending (u : CtxId) (n : Nat) (x : Tile) : (s.setTile u n x).pending = s.pending := rfl
@[simp] theorem State.setTile_regs (u : CtxId) (n : Nat) (x : Tile) : (s.setTile u n x).regs = s.regs := rfl
@[simp] theorem State.setTile_staged (u : CtxId) (n : Nat) (x : Tile) : (s.setTile u n x).staged = s.staged := rfl
@[simp] theorem State.setTile_previous (u : CtxId) (n : Nat) (x : Tile) : (s.setTile u n x).previous = s.previous := rfl
@[simp] theorem State.setTile_mem (u : CtxId) (n : Nat) (x : Tile) : (s.setTile u n x).mem = s.mem := rfl
@[simp] theorem State.setTile_flash (u : CtxId) (n : Nat) (x : Tile) : (s.setTile u n x).flash = s.flash := rfl
@[simp] theorem State.setTile_ev (u : CtxId) (n : Nat) (x : Tile) : (s.setTile u n x).ev = s.ev := rfl
@[simp] theorem State.setTile_boot (u : CtxId) (n : Nat) (x : Tile) : (s.setTile u n x).boot = s.boot := rfl
@[simp] theorem State.setTile_cfg (u : CtxId) (n : Nat) (x : Tile) : (s.setTile u n x).cfg = s.cfg := rfl
@[simp] theorem State.setTile_host (u : CtxId) (n : Nat) (x : Tile) : (s.setTile u n x).host = s.host := rfl
@[simp] theorem State.setTile_mgmt (u : CtxId) (n : Nat) (x : Tile) : (s.setTile u n x).mgmt = s.mgmt := rfl
@[simp] theorem State.setTile_power (u : CtxId) (n : Nat) (x : Tile) : (s.setTile u n x).power = s.power := rfl
@[simp] theorem State.setTile_kits (u : CtxId) (n : Nat) (x : Tile) : (s.setTile u n x).kits = s.kits := rfl
@[simp] theorem State.setTile_drums (u : CtxId) (n : Nat) (x : Tile) : (s.setTile u n x).drums = s.drums := rfl
@[simp] theorem State.setTile_parts (u : CtxId) (n : Nat) (x : Tile) : (s.setTile u n x).parts = s.parts := rfl
@[simp] theorem State.setTile_xfers (u : CtxId) (n : Nat) (x : Tile) : (s.setTile u n x).xfers = s.xfers := rfl
@[simp] theorem State.setTile_nextXfer (u : CtxId) (n : Nat) (x : Tile) : (s.setTile u n x).nextXfer = s.nextXfer := rfl
@[simp] theorem State.setTile_fab (u : CtxId) (n : Nat) (x : Tile) : (s.setTile u n x).fab = s.fab := rfl
@[simp] theorem State.setTile_out (u : CtxId) (n : Nat) (x : Tile) : (s.setTile u n x).out = s.out := rfl
@[simp] theorem State.setTile_freeCtr (u : CtxId) (n : Nat) (x : Tile) : (s.setTile u n x).freeCtr = s.freeCtr := rfl
@[simp] theorem State.setTile_integ (u : CtxId) (n : Nat) (x : Tile) : (s.setTile u n x).integ = s.integ := rfl
@[simp] theorem State.setTile_pair (u : CtxId) (n : Nat) (x : Tile) : (s.setTile u n x).pair = s.pair := rfl
@[simp] theorem State.setTile_used (u : CtxId) (n : Nat) (x : Tile) : (s.setTile u n x).used = s.used := rfl
@[simp] theorem State.setTile_due (u : CtxId) (n : Nat) (x : Tile) : (s.setTile u n x).due = s.due := rfl
@[simp] theorem State.setTile_streamEnd (u : CtxId) (n : Nat) (x : Tile) : (s.setTile u n x).streamEnd = s.streamEnd := rfl
@[simp] theorem State.setTile_shortCap (u : CtxId) (n : Nat) (x : Tile) : (s.setTile u n x).shortCap = s.shortCap := rfl
@[simp] theorem State.setTile_latchHi (u : CtxId) (n : Nat) (x : Tile) : (s.setTile u n x).latchHi = s.latchHi := rfl
@[simp] theorem State.setTile_acctRem (u : CtxId) (n : Nat) (x : Tile) : (s.setTile u n x).acctRem = s.acctRem := rfl
@[simp] theorem State.setTile_polls (u : CtxId) (n : Nat) (x : Tile) : (s.setTile u n x).polls = s.polls := rfl
@[simp] theorem State.setTile_jobs (u : CtxId) (n : Nat) (x : Tile) : (s.setTile u n x).jobs = s.jobs := rfl
@[simp] theorem State.setTile_kv (u : CtxId) (n : Nat) (x : Tile) : (s.setTile u n x).kv = s.kv := rfl
@[simp] theorem State.setTile_serve (u : CtxId) (n : Nat) (x : Tile) : (s.setTile u n x).serve = s.serve := rfl
@[simp] theorem State.setTile_trn (u : CtxId) (n : Nat) (x : Tile) : (s.setTile u n x).trn = s.trn := rfl
@[simp] theorem State.setTile_discards (u : CtxId) (n : Nat) (x : Tile) : (s.setTile u n x).discards = s.discards := rfl
@[simp] theorem State.setTile_saves (u : CtxId) (n : Nat) (x : Tile) : (s.setTile u n x).saves = s.saves := rfl

-- ===== State.setAcc =====

@[simp] theorem State.setAcc_pending (u : CtxId) (n : Nat) (x : Acc) : (s.setAcc u n x).pending = s.pending := rfl
@[simp] theorem State.setAcc_regs (u : CtxId) (n : Nat) (x : Acc) : (s.setAcc u n x).regs = s.regs := rfl
@[simp] theorem State.setAcc_staged (u : CtxId) (n : Nat) (x : Acc) : (s.setAcc u n x).staged = s.staged := rfl
@[simp] theorem State.setAcc_previous (u : CtxId) (n : Nat) (x : Acc) : (s.setAcc u n x).previous = s.previous := rfl
@[simp] theorem State.setAcc_mem (u : CtxId) (n : Nat) (x : Acc) : (s.setAcc u n x).mem = s.mem := rfl
@[simp] theorem State.setAcc_flash (u : CtxId) (n : Nat) (x : Acc) : (s.setAcc u n x).flash = s.flash := rfl
@[simp] theorem State.setAcc_ev (u : CtxId) (n : Nat) (x : Acc) : (s.setAcc u n x).ev = s.ev := rfl
@[simp] theorem State.setAcc_boot (u : CtxId) (n : Nat) (x : Acc) : (s.setAcc u n x).boot = s.boot := rfl
@[simp] theorem State.setAcc_cfg (u : CtxId) (n : Nat) (x : Acc) : (s.setAcc u n x).cfg = s.cfg := rfl
@[simp] theorem State.setAcc_host (u : CtxId) (n : Nat) (x : Acc) : (s.setAcc u n x).host = s.host := rfl
@[simp] theorem State.setAcc_mgmt (u : CtxId) (n : Nat) (x : Acc) : (s.setAcc u n x).mgmt = s.mgmt := rfl
@[simp] theorem State.setAcc_power (u : CtxId) (n : Nat) (x : Acc) : (s.setAcc u n x).power = s.power := rfl
@[simp] theorem State.setAcc_kits (u : CtxId) (n : Nat) (x : Acc) : (s.setAcc u n x).kits = s.kits := rfl
@[simp] theorem State.setAcc_drums (u : CtxId) (n : Nat) (x : Acc) : (s.setAcc u n x).drums = s.drums := rfl
@[simp] theorem State.setAcc_parts (u : CtxId) (n : Nat) (x : Acc) : (s.setAcc u n x).parts = s.parts := rfl
@[simp] theorem State.setAcc_xfers (u : CtxId) (n : Nat) (x : Acc) : (s.setAcc u n x).xfers = s.xfers := rfl
@[simp] theorem State.setAcc_nextXfer (u : CtxId) (n : Nat) (x : Acc) : (s.setAcc u n x).nextXfer = s.nextXfer := rfl
@[simp] theorem State.setAcc_fab (u : CtxId) (n : Nat) (x : Acc) : (s.setAcc u n x).fab = s.fab := rfl
@[simp] theorem State.setAcc_out (u : CtxId) (n : Nat) (x : Acc) : (s.setAcc u n x).out = s.out := rfl
@[simp] theorem State.setAcc_freeCtr (u : CtxId) (n : Nat) (x : Acc) : (s.setAcc u n x).freeCtr = s.freeCtr := rfl
@[simp] theorem State.setAcc_integ (u : CtxId) (n : Nat) (x : Acc) : (s.setAcc u n x).integ = s.integ := rfl
@[simp] theorem State.setAcc_pair (u : CtxId) (n : Nat) (x : Acc) : (s.setAcc u n x).pair = s.pair := rfl
@[simp] theorem State.setAcc_used (u : CtxId) (n : Nat) (x : Acc) : (s.setAcc u n x).used = s.used := rfl
@[simp] theorem State.setAcc_due (u : CtxId) (n : Nat) (x : Acc) : (s.setAcc u n x).due = s.due := rfl
@[simp] theorem State.setAcc_streamEnd (u : CtxId) (n : Nat) (x : Acc) : (s.setAcc u n x).streamEnd = s.streamEnd := rfl
@[simp] theorem State.setAcc_shortCap (u : CtxId) (n : Nat) (x : Acc) : (s.setAcc u n x).shortCap = s.shortCap := rfl
@[simp] theorem State.setAcc_latchHi (u : CtxId) (n : Nat) (x : Acc) : (s.setAcc u n x).latchHi = s.latchHi := rfl
@[simp] theorem State.setAcc_acctRem (u : CtxId) (n : Nat) (x : Acc) : (s.setAcc u n x).acctRem = s.acctRem := rfl
@[simp] theorem State.setAcc_polls (u : CtxId) (n : Nat) (x : Acc) : (s.setAcc u n x).polls = s.polls := rfl
@[simp] theorem State.setAcc_jobs (u : CtxId) (n : Nat) (x : Acc) : (s.setAcc u n x).jobs = s.jobs := rfl
@[simp] theorem State.setAcc_kv (u : CtxId) (n : Nat) (x : Acc) : (s.setAcc u n x).kv = s.kv := rfl
@[simp] theorem State.setAcc_serve (u : CtxId) (n : Nat) (x : Acc) : (s.setAcc u n x).serve = s.serve := rfl
@[simp] theorem State.setAcc_trn (u : CtxId) (n : Nat) (x : Acc) : (s.setAcc u n x).trn = s.trn := rfl
@[simp] theorem State.setAcc_discards (u : CtxId) (n : Nat) (x : Acc) : (s.setAcc u n x).discards = s.discards := rfl
@[simp] theorem State.setAcc_saves (u : CtxId) (n : Nat) (x : Acc) : (s.setAcc u n x).saves = s.saves := rfl

-- ===== State.fresh =====

@[simp] theorem State.fresh_pending : (s.fresh).pending = s.pending := rfl
@[simp] theorem State.fresh_regs : (s.fresh).regs = s.regs := rfl
@[simp] theorem State.fresh_staged : (s.fresh).staged = s.staged := rfl
@[simp] theorem State.fresh_previous : (s.fresh).previous = s.previous := rfl
@[simp] theorem State.fresh_mem : (s.fresh).mem = s.mem := rfl
@[simp] theorem State.fresh_flash : (s.fresh).flash = s.flash := rfl
@[simp] theorem State.fresh_ev : (s.fresh).ev = s.ev := rfl
@[simp] theorem State.fresh_boot : (s.fresh).boot = s.boot := rfl
@[simp] theorem State.fresh_cfg : (s.fresh).cfg = s.cfg := rfl
@[simp] theorem State.fresh_host : (s.fresh).host = s.host := rfl
@[simp] theorem State.fresh_mgmt : (s.fresh).mgmt = s.mgmt := rfl
@[simp] theorem State.fresh_power : (s.fresh).power = s.power := rfl
@[simp] theorem State.fresh_kits : (s.fresh).kits = s.kits := rfl
@[simp] theorem State.fresh_drums : (s.fresh).drums = s.drums := rfl
@[simp] theorem State.fresh_mallets : (s.fresh).mallets = s.mallets := rfl
@[simp] theorem State.fresh_parts : (s.fresh).parts = s.parts := rfl
@[simp] theorem State.fresh_xfers : (s.fresh).xfers = s.xfers := rfl
@[simp] theorem State.fresh_nextXfer : (s.fresh).nextXfer = s.nextXfer := rfl
@[simp] theorem State.fresh_fab : (s.fresh).fab = s.fab := rfl
@[simp] theorem State.fresh_out : (s.fresh).out = s.out := rfl
@[simp] theorem State.fresh_integ : (s.fresh).integ = s.integ := rfl
@[simp] theorem State.fresh_pair : (s.fresh).pair = s.pair := rfl
@[simp] theorem State.fresh_used : (s.fresh).used = s.used := rfl
@[simp] theorem State.fresh_due : (s.fresh).due = s.due := rfl
@[simp] theorem State.fresh_streamEnd : (s.fresh).streamEnd = s.streamEnd := rfl
@[simp] theorem State.fresh_shortCap : (s.fresh).shortCap = s.shortCap := rfl
@[simp] theorem State.fresh_latchHi : (s.fresh).latchHi = s.latchHi := rfl
@[simp] theorem State.fresh_acctRem : (s.fresh).acctRem = s.acctRem := rfl
@[simp] theorem State.fresh_polls : (s.fresh).polls = s.polls := rfl
@[simp] theorem State.fresh_jobs : (s.fresh).jobs = s.jobs := rfl
@[simp] theorem State.fresh_kv : (s.fresh).kv = s.kv := rfl
@[simp] theorem State.fresh_serve : (s.fresh).serve = s.serve := rfl
@[simp] theorem State.fresh_trn : (s.fresh).trn = s.trn := rfl
@[simp] theorem State.fresh_discards : (s.fresh).discards = s.discards := rfl
@[simp] theorem State.fresh_saves : (s.fresh).saves = s.saves := rfl

-- ===== State.setXfer =====

@[simp] theorem State.setXfer_pending (n : Nat) (x : Xfer) : (s.setXfer n x).pending = s.pending := rfl
@[simp] theorem State.setXfer_regs (n : Nat) (x : Xfer) : (s.setXfer n x).regs = s.regs := rfl
@[simp] theorem State.setXfer_staged (n : Nat) (x : Xfer) : (s.setXfer n x).staged = s.staged := rfl
@[simp] theorem State.setXfer_previous (n : Nat) (x : Xfer) : (s.setXfer n x).previous = s.previous := rfl
@[simp] theorem State.setXfer_mem (n : Nat) (x : Xfer) : (s.setXfer n x).mem = s.mem := rfl
@[simp] theorem State.setXfer_flash (n : Nat) (x : Xfer) : (s.setXfer n x).flash = s.flash := rfl
@[simp] theorem State.setXfer_ev (n : Nat) (x : Xfer) : (s.setXfer n x).ev = s.ev := rfl
@[simp] theorem State.setXfer_boot (n : Nat) (x : Xfer) : (s.setXfer n x).boot = s.boot := rfl
@[simp] theorem State.setXfer_cfg (n : Nat) (x : Xfer) : (s.setXfer n x).cfg = s.cfg := rfl
@[simp] theorem State.setXfer_host (n : Nat) (x : Xfer) : (s.setXfer n x).host = s.host := rfl
@[simp] theorem State.setXfer_mgmt (n : Nat) (x : Xfer) : (s.setXfer n x).mgmt = s.mgmt := rfl
@[simp] theorem State.setXfer_power (n : Nat) (x : Xfer) : (s.setXfer n x).power = s.power := rfl
@[simp] theorem State.setXfer_kits (n : Nat) (x : Xfer) : (s.setXfer n x).kits = s.kits := rfl
@[simp] theorem State.setXfer_drums (n : Nat) (x : Xfer) : (s.setXfer n x).drums = s.drums := rfl
@[simp] theorem State.setXfer_mallets (n : Nat) (x : Xfer) : (s.setXfer n x).mallets = s.mallets := rfl
@[simp] theorem State.setXfer_parts (n : Nat) (x : Xfer) : (s.setXfer n x).parts = s.parts := rfl
@[simp] theorem State.setXfer_nextXfer (n : Nat) (x : Xfer) : (s.setXfer n x).nextXfer = s.nextXfer := rfl
@[simp] theorem State.setXfer_fab (n : Nat) (x : Xfer) : (s.setXfer n x).fab = s.fab := rfl
@[simp] theorem State.setXfer_out (n : Nat) (x : Xfer) : (s.setXfer n x).out = s.out := rfl
@[simp] theorem State.setXfer_freeCtr (n : Nat) (x : Xfer) : (s.setXfer n x).freeCtr = s.freeCtr := rfl
@[simp] theorem State.setXfer_integ (n : Nat) (x : Xfer) : (s.setXfer n x).integ = s.integ := rfl
@[simp] theorem State.setXfer_pair (n : Nat) (x : Xfer) : (s.setXfer n x).pair = s.pair := rfl
@[simp] theorem State.setXfer_used (n : Nat) (x : Xfer) : (s.setXfer n x).used = s.used := rfl
@[simp] theorem State.setXfer_due (n : Nat) (x : Xfer) : (s.setXfer n x).due = s.due := rfl
@[simp] theorem State.setXfer_streamEnd (n : Nat) (x : Xfer) : (s.setXfer n x).streamEnd = s.streamEnd := rfl
@[simp] theorem State.setXfer_shortCap (n : Nat) (x : Xfer) : (s.setXfer n x).shortCap = s.shortCap := rfl
@[simp] theorem State.setXfer_latchHi (n : Nat) (x : Xfer) : (s.setXfer n x).latchHi = s.latchHi := rfl
@[simp] theorem State.setXfer_acctRem (n : Nat) (x : Xfer) : (s.setXfer n x).acctRem = s.acctRem := rfl
@[simp] theorem State.setXfer_polls (n : Nat) (x : Xfer) : (s.setXfer n x).polls = s.polls := rfl
@[simp] theorem State.setXfer_jobs (n : Nat) (x : Xfer) : (s.setXfer n x).jobs = s.jobs := rfl
@[simp] theorem State.setXfer_kv (n : Nat) (x : Xfer) : (s.setXfer n x).kv = s.kv := rfl
@[simp] theorem State.setXfer_serve (n : Nat) (x : Xfer) : (s.setXfer n x).serve = s.serve := rfl
@[simp] theorem State.setXfer_trn (n : Nat) (x : Xfer) : (s.setXfer n x).trn = s.trn := rfl
@[simp] theorem State.setXfer_discards (n : Nat) (x : Xfer) : (s.setXfer n x).discards = s.discards := rfl
@[simp] theorem State.setXfer_saves (n : Nat) (x : Xfer) : (s.setXfer n x).saves = s.saves := rfl

-- ===== State.setTag =====

@[simp] theorem State.setTag_pending (n q : Nat) (x : Tag) : (s.setTag n q x).pending = s.pending := rfl
@[simp] theorem State.setTag_regs (n q : Nat) (x : Tag) : (s.setTag n q x).regs = s.regs := rfl
@[simp] theorem State.setTag_staged (n q : Nat) (x : Tag) : (s.setTag n q x).staged = s.staged := rfl
@[simp] theorem State.setTag_previous (n q : Nat) (x : Tag) : (s.setTag n q x).previous = s.previous := rfl
@[simp] theorem State.setTag_mem (n q : Nat) (x : Tag) : (s.setTag n q x).mem = s.mem := rfl
@[simp] theorem State.setTag_flash (n q : Nat) (x : Tag) : (s.setTag n q x).flash = s.flash := rfl
@[simp] theorem State.setTag_ev (n q : Nat) (x : Tag) : (s.setTag n q x).ev = s.ev := rfl
@[simp] theorem State.setTag_boot (n q : Nat) (x : Tag) : (s.setTag n q x).boot = s.boot := rfl
@[simp] theorem State.setTag_cfg (n q : Nat) (x : Tag) : (s.setTag n q x).cfg = s.cfg := rfl
@[simp] theorem State.setTag_host (n q : Nat) (x : Tag) : (s.setTag n q x).host = s.host := rfl
@[simp] theorem State.setTag_mgmt (n q : Nat) (x : Tag) : (s.setTag n q x).mgmt = s.mgmt := rfl
@[simp] theorem State.setTag_power (n q : Nat) (x : Tag) : (s.setTag n q x).power = s.power := rfl
@[simp] theorem State.setTag_kits (n q : Nat) (x : Tag) : (s.setTag n q x).kits = s.kits := rfl
@[simp] theorem State.setTag_drums (n q : Nat) (x : Tag) : (s.setTag n q x).drums = s.drums := rfl
@[simp] theorem State.setTag_mallets (n q : Nat) (x : Tag) : (s.setTag n q x).mallets = s.mallets := rfl
@[simp] theorem State.setTag_parts (n q : Nat) (x : Tag) : (s.setTag n q x).parts = s.parts := rfl
@[simp] theorem State.setTag_xfers (n q : Nat) (x : Tag) : (s.setTag n q x).xfers = s.xfers := rfl
@[simp] theorem State.setTag_nextXfer (n q : Nat) (x : Tag) : (s.setTag n q x).nextXfer = s.nextXfer := rfl
@[simp] theorem State.setTag_out (n q : Nat) (x : Tag) : (s.setTag n q x).out = s.out := rfl
@[simp] theorem State.setTag_freeCtr (n q : Nat) (x : Tag) : (s.setTag n q x).freeCtr = s.freeCtr := rfl
@[simp] theorem State.setTag_integ (n q : Nat) (x : Tag) : (s.setTag n q x).integ = s.integ := rfl
@[simp] theorem State.setTag_pair (n q : Nat) (x : Tag) : (s.setTag n q x).pair = s.pair := rfl
@[simp] theorem State.setTag_used (n q : Nat) (x : Tag) : (s.setTag n q x).used = s.used := rfl
@[simp] theorem State.setTag_due (n q : Nat) (x : Tag) : (s.setTag n q x).due = s.due := rfl
@[simp] theorem State.setTag_streamEnd (n q : Nat) (x : Tag) : (s.setTag n q x).streamEnd = s.streamEnd := rfl
@[simp] theorem State.setTag_shortCap (n q : Nat) (x : Tag) : (s.setTag n q x).shortCap = s.shortCap := rfl
@[simp] theorem State.setTag_latchHi (n q : Nat) (x : Tag) : (s.setTag n q x).latchHi = s.latchHi := rfl
@[simp] theorem State.setTag_acctRem (n q : Nat) (x : Tag) : (s.setTag n q x).acctRem = s.acctRem := rfl
@[simp] theorem State.setTag_polls (n q : Nat) (x : Tag) : (s.setTag n q x).polls = s.polls := rfl
@[simp] theorem State.setTag_jobs (n q : Nat) (x : Tag) : (s.setTag n q x).jobs = s.jobs := rfl
@[simp] theorem State.setTag_kv (n q : Nat) (x : Tag) : (s.setTag n q x).kv = s.kv := rfl
@[simp] theorem State.setTag_serve (n q : Nat) (x : Tag) : (s.setTag n q x).serve = s.serve := rfl
@[simp] theorem State.setTag_trn (n q : Nat) (x : Tag) : (s.setTag n q x).trn = s.trn := rfl
@[simp] theorem State.setTag_discards (n q : Nat) (x : Tag) : (s.setTag n q x).discards = s.discards := rfl
@[simp] theorem State.setTag_saves (n q : Nat) (x : Tag) : (s.setTag n q x).saves = s.saves := rfl

-- ===== State.setFab =====

@[simp] theorem State.setFab_pending (g : Fabric → Fabric) : (s.setFab g).pending = s.pending := rfl
@[simp] theorem State.setFab_regs (g : Fabric → Fabric) : (s.setFab g).regs = s.regs := rfl
@[simp] theorem State.setFab_staged (g : Fabric → Fabric) : (s.setFab g).staged = s.staged := rfl
@[simp] theorem State.setFab_previous (g : Fabric → Fabric) : (s.setFab g).previous = s.previous := rfl
@[simp] theorem State.setFab_mem (g : Fabric → Fabric) : (s.setFab g).mem = s.mem := rfl
@[simp] theorem State.setFab_flash (g : Fabric → Fabric) : (s.setFab g).flash = s.flash := rfl
@[simp] theorem State.setFab_ev (g : Fabric → Fabric) : (s.setFab g).ev = s.ev := rfl
@[simp] theorem State.setFab_boot (g : Fabric → Fabric) : (s.setFab g).boot = s.boot := rfl
@[simp] theorem State.setFab_cfg (g : Fabric → Fabric) : (s.setFab g).cfg = s.cfg := rfl
@[simp] theorem State.setFab_host (g : Fabric → Fabric) : (s.setFab g).host = s.host := rfl
@[simp] theorem State.setFab_mgmt (g : Fabric → Fabric) : (s.setFab g).mgmt = s.mgmt := rfl
@[simp] theorem State.setFab_power (g : Fabric → Fabric) : (s.setFab g).power = s.power := rfl
@[simp] theorem State.setFab_kits (g : Fabric → Fabric) : (s.setFab g).kits = s.kits := rfl
@[simp] theorem State.setFab_drums (g : Fabric → Fabric) : (s.setFab g).drums = s.drums := rfl
@[simp] theorem State.setFab_mallets (g : Fabric → Fabric) : (s.setFab g).mallets = s.mallets := rfl
@[simp] theorem State.setFab_parts (g : Fabric → Fabric) : (s.setFab g).parts = s.parts := rfl
@[simp] theorem State.setFab_xfers (g : Fabric → Fabric) : (s.setFab g).xfers = s.xfers := rfl
@[simp] theorem State.setFab_nextXfer (g : Fabric → Fabric) : (s.setFab g).nextXfer = s.nextXfer := rfl
@[simp] theorem State.setFab_out (g : Fabric → Fabric) : (s.setFab g).out = s.out := rfl
@[simp] theorem State.setFab_freeCtr (g : Fabric → Fabric) : (s.setFab g).freeCtr = s.freeCtr := rfl
@[simp] theorem State.setFab_integ (g : Fabric → Fabric) : (s.setFab g).integ = s.integ := rfl
@[simp] theorem State.setFab_pair (g : Fabric → Fabric) : (s.setFab g).pair = s.pair := rfl
@[simp] theorem State.setFab_used (g : Fabric → Fabric) : (s.setFab g).used = s.used := rfl
@[simp] theorem State.setFab_due (g : Fabric → Fabric) : (s.setFab g).due = s.due := rfl
@[simp] theorem State.setFab_streamEnd (g : Fabric → Fabric) : (s.setFab g).streamEnd = s.streamEnd := rfl
@[simp] theorem State.setFab_shortCap (g : Fabric → Fabric) : (s.setFab g).shortCap = s.shortCap := rfl
@[simp] theorem State.setFab_latchHi (g : Fabric → Fabric) : (s.setFab g).latchHi = s.latchHi := rfl
@[simp] theorem State.setFab_acctRem (g : Fabric → Fabric) : (s.setFab g).acctRem = s.acctRem := rfl
@[simp] theorem State.setFab_polls (g : Fabric → Fabric) : (s.setFab g).polls = s.polls := rfl
@[simp] theorem State.setFab_jobs (g : Fabric → Fabric) : (s.setFab g).jobs = s.jobs := rfl
@[simp] theorem State.setFab_kv (g : Fabric → Fabric) : (s.setFab g).kv = s.kv := rfl
@[simp] theorem State.setFab_serve (g : Fabric → Fabric) : (s.setFab g).serve = s.serve := rfl
@[simp] theorem State.setFab_trn (g : Fabric → Fabric) : (s.setFab g).trn = s.trn := rfl
@[simp] theorem State.setFab_discards (g : Fabric → Fabric) : (s.setFab g).discards = s.discards := rfl
@[simp] theorem State.setFab_saves (g : Fabric → Fabric) : (s.setFab g).saves = s.saves := rfl

-- ===== State.setFlash =====

@[simp] theorem State.setFlash_pending (g : Flash → Flash) : (s.setFlash g).pending = s.pending := rfl
@[simp] theorem State.setFlash_regs (g : Flash → Flash) : (s.setFlash g).regs = s.regs := rfl
@[simp] theorem State.setFlash_staged (g : Flash → Flash) : (s.setFlash g).staged = s.staged := rfl
@[simp] theorem State.setFlash_previous (g : Flash → Flash) : (s.setFlash g).previous = s.previous := rfl
@[simp] theorem State.setFlash_mem (g : Flash → Flash) : (s.setFlash g).mem = s.mem := rfl
@[simp] theorem State.setFlash_ev (g : Flash → Flash) : (s.setFlash g).ev = s.ev := rfl
@[simp] theorem State.setFlash_boot (g : Flash → Flash) : (s.setFlash g).boot = s.boot := rfl
@[simp] theorem State.setFlash_cfg (g : Flash → Flash) : (s.setFlash g).cfg = s.cfg := rfl
@[simp] theorem State.setFlash_host (g : Flash → Flash) : (s.setFlash g).host = s.host := rfl
@[simp] theorem State.setFlash_mgmt (g : Flash → Flash) : (s.setFlash g).mgmt = s.mgmt := rfl
@[simp] theorem State.setFlash_power (g : Flash → Flash) : (s.setFlash g).power = s.power := rfl
@[simp] theorem State.setFlash_kits (g : Flash → Flash) : (s.setFlash g).kits = s.kits := rfl
@[simp] theorem State.setFlash_drums (g : Flash → Flash) : (s.setFlash g).drums = s.drums := rfl
@[simp] theorem State.setFlash_mallets (g : Flash → Flash) : (s.setFlash g).mallets = s.mallets := rfl
@[simp] theorem State.setFlash_parts (g : Flash → Flash) : (s.setFlash g).parts = s.parts := rfl
@[simp] theorem State.setFlash_xfers (g : Flash → Flash) : (s.setFlash g).xfers = s.xfers := rfl
@[simp] theorem State.setFlash_nextXfer (g : Flash → Flash) : (s.setFlash g).nextXfer = s.nextXfer := rfl
@[simp] theorem State.setFlash_fab (g : Flash → Flash) : (s.setFlash g).fab = s.fab := rfl
@[simp] theorem State.setFlash_out (g : Flash → Flash) : (s.setFlash g).out = s.out := rfl
@[simp] theorem State.setFlash_freeCtr (g : Flash → Flash) : (s.setFlash g).freeCtr = s.freeCtr := rfl
@[simp] theorem State.setFlash_integ (g : Flash → Flash) : (s.setFlash g).integ = s.integ := rfl
@[simp] theorem State.setFlash_pair (g : Flash → Flash) : (s.setFlash g).pair = s.pair := rfl
@[simp] theorem State.setFlash_used (g : Flash → Flash) : (s.setFlash g).used = s.used := rfl
@[simp] theorem State.setFlash_due (g : Flash → Flash) : (s.setFlash g).due = s.due := rfl
@[simp] theorem State.setFlash_streamEnd (g : Flash → Flash) : (s.setFlash g).streamEnd = s.streamEnd := rfl
@[simp] theorem State.setFlash_shortCap (g : Flash → Flash) : (s.setFlash g).shortCap = s.shortCap := rfl
@[simp] theorem State.setFlash_latchHi (g : Flash → Flash) : (s.setFlash g).latchHi = s.latchHi := rfl
@[simp] theorem State.setFlash_acctRem (g : Flash → Flash) : (s.setFlash g).acctRem = s.acctRem := rfl
@[simp] theorem State.setFlash_polls (g : Flash → Flash) : (s.setFlash g).polls = s.polls := rfl
@[simp] theorem State.setFlash_jobs (g : Flash → Flash) : (s.setFlash g).jobs = s.jobs := rfl
@[simp] theorem State.setFlash_kv (g : Flash → Flash) : (s.setFlash g).kv = s.kv := rfl
@[simp] theorem State.setFlash_serve (g : Flash → Flash) : (s.setFlash g).serve = s.serve := rfl
@[simp] theorem State.setFlash_trn (g : Flash → Flash) : (s.setFlash g).trn = s.trn := rfl
@[simp] theorem State.setFlash_discards (g : Flash → Flash) : (s.setFlash g).discards = s.discards := rfl
@[simp] theorem State.setFlash_saves (g : Flash → Flash) : (s.setFlash g).saves = s.saves := rfl

-- ===== State.setKv =====

@[simp] theorem State.setKv_pending (g : Kv → Kv) : (s.setKv g).pending = s.pending := rfl
@[simp] theorem State.setKv_regs (g : Kv → Kv) : (s.setKv g).regs = s.regs := rfl
@[simp] theorem State.setKv_staged (g : Kv → Kv) : (s.setKv g).staged = s.staged := rfl
@[simp] theorem State.setKv_previous (g : Kv → Kv) : (s.setKv g).previous = s.previous := rfl
@[simp] theorem State.setKv_mem (g : Kv → Kv) : (s.setKv g).mem = s.mem := rfl
@[simp] theorem State.setKv_flash (g : Kv → Kv) : (s.setKv g).flash = s.flash := rfl
@[simp] theorem State.setKv_ev (g : Kv → Kv) : (s.setKv g).ev = s.ev := rfl
@[simp] theorem State.setKv_boot (g : Kv → Kv) : (s.setKv g).boot = s.boot := rfl
@[simp] theorem State.setKv_cfg (g : Kv → Kv) : (s.setKv g).cfg = s.cfg := rfl
@[simp] theorem State.setKv_host (g : Kv → Kv) : (s.setKv g).host = s.host := rfl
@[simp] theorem State.setKv_mgmt (g : Kv → Kv) : (s.setKv g).mgmt = s.mgmt := rfl
@[simp] theorem State.setKv_power (g : Kv → Kv) : (s.setKv g).power = s.power := rfl
@[simp] theorem State.setKv_kits (g : Kv → Kv) : (s.setKv g).kits = s.kits := rfl
@[simp] theorem State.setKv_drums (g : Kv → Kv) : (s.setKv g).drums = s.drums := rfl
@[simp] theorem State.setKv_mallets (g : Kv → Kv) : (s.setKv g).mallets = s.mallets := rfl
@[simp] theorem State.setKv_parts (g : Kv → Kv) : (s.setKv g).parts = s.parts := rfl
@[simp] theorem State.setKv_xfers (g : Kv → Kv) : (s.setKv g).xfers = s.xfers := rfl
@[simp] theorem State.setKv_nextXfer (g : Kv → Kv) : (s.setKv g).nextXfer = s.nextXfer := rfl
@[simp] theorem State.setKv_fab (g : Kv → Kv) : (s.setKv g).fab = s.fab := rfl
@[simp] theorem State.setKv_out (g : Kv → Kv) : (s.setKv g).out = s.out := rfl
@[simp] theorem State.setKv_freeCtr (g : Kv → Kv) : (s.setKv g).freeCtr = s.freeCtr := rfl
@[simp] theorem State.setKv_integ (g : Kv → Kv) : (s.setKv g).integ = s.integ := rfl
@[simp] theorem State.setKv_pair (g : Kv → Kv) : (s.setKv g).pair = s.pair := rfl
@[simp] theorem State.setKv_used (g : Kv → Kv) : (s.setKv g).used = s.used := rfl
@[simp] theorem State.setKv_due (g : Kv → Kv) : (s.setKv g).due = s.due := rfl
@[simp] theorem State.setKv_streamEnd (g : Kv → Kv) : (s.setKv g).streamEnd = s.streamEnd := rfl
@[simp] theorem State.setKv_shortCap (g : Kv → Kv) : (s.setKv g).shortCap = s.shortCap := rfl
@[simp] theorem State.setKv_latchHi (g : Kv → Kv) : (s.setKv g).latchHi = s.latchHi := rfl
@[simp] theorem State.setKv_acctRem (g : Kv → Kv) : (s.setKv g).acctRem = s.acctRem := rfl
@[simp] theorem State.setKv_polls (g : Kv → Kv) : (s.setKv g).polls = s.polls := rfl
@[simp] theorem State.setKv_jobs (g : Kv → Kv) : (s.setKv g).jobs = s.jobs := rfl
@[simp] theorem State.setKv_serve (g : Kv → Kv) : (s.setKv g).serve = s.serve := rfl
@[simp] theorem State.setKv_trn (g : Kv → Kv) : (s.setKv g).trn = s.trn := rfl
@[simp] theorem State.setKv_discards (g : Kv → Kv) : (s.setKv g).discards = s.discards := rfl
@[simp] theorem State.setKv_saves (g : Kv → Kv) : (s.setKv g).saves = s.saves := rfl

-- ===== State.setServe =====

@[simp] theorem State.setServe_pending (g : Serve → Serve) : (s.setServe g).pending = s.pending := rfl
@[simp] theorem State.setServe_regs (g : Serve → Serve) : (s.setServe g).regs = s.regs := rfl
@[simp] theorem State.setServe_staged (g : Serve → Serve) : (s.setServe g).staged = s.staged := rfl
@[simp] theorem State.setServe_previous (g : Serve → Serve) : (s.setServe g).previous = s.previous := rfl
@[simp] theorem State.setServe_mem (g : Serve → Serve) : (s.setServe g).mem = s.mem := rfl
@[simp] theorem State.setServe_flash (g : Serve → Serve) : (s.setServe g).flash = s.flash := rfl
@[simp] theorem State.setServe_ev (g : Serve → Serve) : (s.setServe g).ev = s.ev := rfl
@[simp] theorem State.setServe_boot (g : Serve → Serve) : (s.setServe g).boot = s.boot := rfl
@[simp] theorem State.setServe_cfg (g : Serve → Serve) : (s.setServe g).cfg = s.cfg := rfl
@[simp] theorem State.setServe_host (g : Serve → Serve) : (s.setServe g).host = s.host := rfl
@[simp] theorem State.setServe_mgmt (g : Serve → Serve) : (s.setServe g).mgmt = s.mgmt := rfl
@[simp] theorem State.setServe_power (g : Serve → Serve) : (s.setServe g).power = s.power := rfl
@[simp] theorem State.setServe_kits (g : Serve → Serve) : (s.setServe g).kits = s.kits := rfl
@[simp] theorem State.setServe_drums (g : Serve → Serve) : (s.setServe g).drums = s.drums := rfl
@[simp] theorem State.setServe_mallets (g : Serve → Serve) : (s.setServe g).mallets = s.mallets := rfl
@[simp] theorem State.setServe_parts (g : Serve → Serve) : (s.setServe g).parts = s.parts := rfl
@[simp] theorem State.setServe_xfers (g : Serve → Serve) : (s.setServe g).xfers = s.xfers := rfl
@[simp] theorem State.setServe_nextXfer (g : Serve → Serve) : (s.setServe g).nextXfer = s.nextXfer := rfl
@[simp] theorem State.setServe_fab (g : Serve → Serve) : (s.setServe g).fab = s.fab := rfl
@[simp] theorem State.setServe_out (g : Serve → Serve) : (s.setServe g).out = s.out := rfl
@[simp] theorem State.setServe_freeCtr (g : Serve → Serve) : (s.setServe g).freeCtr = s.freeCtr := rfl
@[simp] theorem State.setServe_integ (g : Serve → Serve) : (s.setServe g).integ = s.integ := rfl
@[simp] theorem State.setServe_pair (g : Serve → Serve) : (s.setServe g).pair = s.pair := rfl
@[simp] theorem State.setServe_used (g : Serve → Serve) : (s.setServe g).used = s.used := rfl
@[simp] theorem State.setServe_due (g : Serve → Serve) : (s.setServe g).due = s.due := rfl
@[simp] theorem State.setServe_streamEnd (g : Serve → Serve) : (s.setServe g).streamEnd = s.streamEnd := rfl
@[simp] theorem State.setServe_shortCap (g : Serve → Serve) : (s.setServe g).shortCap = s.shortCap := rfl
@[simp] theorem State.setServe_latchHi (g : Serve → Serve) : (s.setServe g).latchHi = s.latchHi := rfl
@[simp] theorem State.setServe_acctRem (g : Serve → Serve) : (s.setServe g).acctRem = s.acctRem := rfl
@[simp] theorem State.setServe_polls (g : Serve → Serve) : (s.setServe g).polls = s.polls := rfl
@[simp] theorem State.setServe_jobs (g : Serve → Serve) : (s.setServe g).jobs = s.jobs := rfl
@[simp] theorem State.setServe_kv (g : Serve → Serve) : (s.setServe g).kv = s.kv := rfl
@[simp] theorem State.setServe_trn (g : Serve → Serve) : (s.setServe g).trn = s.trn := rfl
@[simp] theorem State.setServe_discards (g : Serve → Serve) : (s.setServe g).discards = s.discards := rfl
@[simp] theorem State.setServe_saves (g : Serve → Serve) : (s.setServe g).saves = s.saves := rfl

-- ===== State.setTrn =====

@[simp] theorem State.setTrn_pending (g : Transit → Transit) : (s.setTrn g).pending = s.pending := rfl
@[simp] theorem State.setTrn_regs (g : Transit → Transit) : (s.setTrn g).regs = s.regs := rfl
@[simp] theorem State.setTrn_staged (g : Transit → Transit) : (s.setTrn g).staged = s.staged := rfl
@[simp] theorem State.setTrn_previous (g : Transit → Transit) : (s.setTrn g).previous = s.previous := rfl
@[simp] theorem State.setTrn_mem (g : Transit → Transit) : (s.setTrn g).mem = s.mem := rfl
@[simp] theorem State.setTrn_flash (g : Transit → Transit) : (s.setTrn g).flash = s.flash := rfl
@[simp] theorem State.setTrn_ev (g : Transit → Transit) : (s.setTrn g).ev = s.ev := rfl
@[simp] theorem State.setTrn_boot (g : Transit → Transit) : (s.setTrn g).boot = s.boot := rfl
@[simp] theorem State.setTrn_cfg (g : Transit → Transit) : (s.setTrn g).cfg = s.cfg := rfl
@[simp] theorem State.setTrn_host (g : Transit → Transit) : (s.setTrn g).host = s.host := rfl
@[simp] theorem State.setTrn_mgmt (g : Transit → Transit) : (s.setTrn g).mgmt = s.mgmt := rfl
@[simp] theorem State.setTrn_power (g : Transit → Transit) : (s.setTrn g).power = s.power := rfl
@[simp] theorem State.setTrn_kits (g : Transit → Transit) : (s.setTrn g).kits = s.kits := rfl
@[simp] theorem State.setTrn_drums (g : Transit → Transit) : (s.setTrn g).drums = s.drums := rfl
@[simp] theorem State.setTrn_mallets (g : Transit → Transit) : (s.setTrn g).mallets = s.mallets := rfl
@[simp] theorem State.setTrn_parts (g : Transit → Transit) : (s.setTrn g).parts = s.parts := rfl
@[simp] theorem State.setTrn_xfers (g : Transit → Transit) : (s.setTrn g).xfers = s.xfers := rfl
@[simp] theorem State.setTrn_nextXfer (g : Transit → Transit) : (s.setTrn g).nextXfer = s.nextXfer := rfl
@[simp] theorem State.setTrn_fab (g : Transit → Transit) : (s.setTrn g).fab = s.fab := rfl
@[simp] theorem State.setTrn_out (g : Transit → Transit) : (s.setTrn g).out = s.out := rfl
@[simp] theorem State.setTrn_freeCtr (g : Transit → Transit) : (s.setTrn g).freeCtr = s.freeCtr := rfl
@[simp] theorem State.setTrn_integ (g : Transit → Transit) : (s.setTrn g).integ = s.integ := rfl
@[simp] theorem State.setTrn_pair (g : Transit → Transit) : (s.setTrn g).pair = s.pair := rfl
@[simp] theorem State.setTrn_used (g : Transit → Transit) : (s.setTrn g).used = s.used := rfl
@[simp] theorem State.setTrn_due (g : Transit → Transit) : (s.setTrn g).due = s.due := rfl
@[simp] theorem State.setTrn_streamEnd (g : Transit → Transit) : (s.setTrn g).streamEnd = s.streamEnd := rfl
@[simp] theorem State.setTrn_shortCap (g : Transit → Transit) : (s.setTrn g).shortCap = s.shortCap := rfl
@[simp] theorem State.setTrn_latchHi (g : Transit → Transit) : (s.setTrn g).latchHi = s.latchHi := rfl
@[simp] theorem State.setTrn_acctRem (g : Transit → Transit) : (s.setTrn g).acctRem = s.acctRem := rfl
@[simp] theorem State.setTrn_polls (g : Transit → Transit) : (s.setTrn g).polls = s.polls := rfl
@[simp] theorem State.setTrn_jobs (g : Transit → Transit) : (s.setTrn g).jobs = s.jobs := rfl
@[simp] theorem State.setTrn_kv (g : Transit → Transit) : (s.setTrn g).kv = s.kv := rfl
@[simp] theorem State.setTrn_serve (g : Transit → Transit) : (s.setTrn g).serve = s.serve := rfl
@[simp] theorem State.setTrn_discards (g : Transit → Transit) : (s.setTrn g).discards = s.discards := rfl
@[simp] theorem State.setTrn_saves (g : Transit → Transit) : (s.setTrn g).saves = s.saves := rfl

-- ===== State.setPair =====

@[simp] theorem State.setPair_pending (g : Pair → Pair) : (s.setPair g).pending = s.pending := rfl
@[simp] theorem State.setPair_regs (g : Pair → Pair) : (s.setPair g).regs = s.regs := rfl
@[simp] theorem State.setPair_staged (g : Pair → Pair) : (s.setPair g).staged = s.staged := rfl
@[simp] theorem State.setPair_previous (g : Pair → Pair) : (s.setPair g).previous = s.previous := rfl
@[simp] theorem State.setPair_mem (g : Pair → Pair) : (s.setPair g).mem = s.mem := rfl
@[simp] theorem State.setPair_flash (g : Pair → Pair) : (s.setPair g).flash = s.flash := rfl
@[simp] theorem State.setPair_ev (g : Pair → Pair) : (s.setPair g).ev = s.ev := rfl
@[simp] theorem State.setPair_boot (g : Pair → Pair) : (s.setPair g).boot = s.boot := rfl
@[simp] theorem State.setPair_cfg (g : Pair → Pair) : (s.setPair g).cfg = s.cfg := rfl
@[simp] theorem State.setPair_host (g : Pair → Pair) : (s.setPair g).host = s.host := rfl
@[simp] theorem State.setPair_mgmt (g : Pair → Pair) : (s.setPair g).mgmt = s.mgmt := rfl
@[simp] theorem State.setPair_power (g : Pair → Pair) : (s.setPair g).power = s.power := rfl
@[simp] theorem State.setPair_kits (g : Pair → Pair) : (s.setPair g).kits = s.kits := rfl
@[simp] theorem State.setPair_drums (g : Pair → Pair) : (s.setPair g).drums = s.drums := rfl
@[simp] theorem State.setPair_mallets (g : Pair → Pair) : (s.setPair g).mallets = s.mallets := rfl
@[simp] theorem State.setPair_parts (g : Pair → Pair) : (s.setPair g).parts = s.parts := rfl
@[simp] theorem State.setPair_xfers (g : Pair → Pair) : (s.setPair g).xfers = s.xfers := rfl
@[simp] theorem State.setPair_nextXfer (g : Pair → Pair) : (s.setPair g).nextXfer = s.nextXfer := rfl
@[simp] theorem State.setPair_fab (g : Pair → Pair) : (s.setPair g).fab = s.fab := rfl
@[simp] theorem State.setPair_out (g : Pair → Pair) : (s.setPair g).out = s.out := rfl
@[simp] theorem State.setPair_freeCtr (g : Pair → Pair) : (s.setPair g).freeCtr = s.freeCtr := rfl
@[simp] theorem State.setPair_integ (g : Pair → Pair) : (s.setPair g).integ = s.integ := rfl
@[simp] theorem State.setPair_used (g : Pair → Pair) : (s.setPair g).used = s.used := rfl
@[simp] theorem State.setPair_due (g : Pair → Pair) : (s.setPair g).due = s.due := rfl
@[simp] theorem State.setPair_streamEnd (g : Pair → Pair) : (s.setPair g).streamEnd = s.streamEnd := rfl
@[simp] theorem State.setPair_shortCap (g : Pair → Pair) : (s.setPair g).shortCap = s.shortCap := rfl
@[simp] theorem State.setPair_latchHi (g : Pair → Pair) : (s.setPair g).latchHi = s.latchHi := rfl
@[simp] theorem State.setPair_acctRem (g : Pair → Pair) : (s.setPair g).acctRem = s.acctRem := rfl
@[simp] theorem State.setPair_polls (g : Pair → Pair) : (s.setPair g).polls = s.polls := rfl
@[simp] theorem State.setPair_jobs (g : Pair → Pair) : (s.setPair g).jobs = s.jobs := rfl
@[simp] theorem State.setPair_kv (g : Pair → Pair) : (s.setPair g).kv = s.kv := rfl
@[simp] theorem State.setPair_serve (g : Pair → Pair) : (s.setPair g).serve = s.serve := rfl
@[simp] theorem State.setPair_trn (g : Pair → Pair) : (s.setPair g).trn = s.trn := rfl
@[simp] theorem State.setPair_discards (g : Pair → Pair) : (s.setPair g).discards = s.discards := rfl
@[simp] theorem State.setPair_saves (g : Pair → Pair) : (s.setPair g).saves = s.saves := rfl

-- ===== State.setInteg =====

@[simp] theorem State.setInteg_pending (g : Integ → Integ) : (s.setInteg g).pending = s.pending := rfl
@[simp] theorem State.setInteg_regs (g : Integ → Integ) : (s.setInteg g).regs = s.regs := rfl
@[simp] theorem State.setInteg_staged (g : Integ → Integ) : (s.setInteg g).staged = s.staged := rfl
@[simp] theorem State.setInteg_previous (g : Integ → Integ) : (s.setInteg g).previous = s.previous := rfl
@[simp] theorem State.setInteg_mem (g : Integ → Integ) : (s.setInteg g).mem = s.mem := rfl
@[simp] theorem State.setInteg_flash (g : Integ → Integ) : (s.setInteg g).flash = s.flash := rfl
@[simp] theorem State.setInteg_ev (g : Integ → Integ) : (s.setInteg g).ev = s.ev := rfl
@[simp] theorem State.setInteg_boot (g : Integ → Integ) : (s.setInteg g).boot = s.boot := rfl
@[simp] theorem State.setInteg_cfg (g : Integ → Integ) : (s.setInteg g).cfg = s.cfg := rfl
@[simp] theorem State.setInteg_host (g : Integ → Integ) : (s.setInteg g).host = s.host := rfl
@[simp] theorem State.setInteg_mgmt (g : Integ → Integ) : (s.setInteg g).mgmt = s.mgmt := rfl
@[simp] theorem State.setInteg_power (g : Integ → Integ) : (s.setInteg g).power = s.power := rfl
@[simp] theorem State.setInteg_kits (g : Integ → Integ) : (s.setInteg g).kits = s.kits := rfl
@[simp] theorem State.setInteg_drums (g : Integ → Integ) : (s.setInteg g).drums = s.drums := rfl
@[simp] theorem State.setInteg_mallets (g : Integ → Integ) : (s.setInteg g).mallets = s.mallets := rfl
@[simp] theorem State.setInteg_parts (g : Integ → Integ) : (s.setInteg g).parts = s.parts := rfl
@[simp] theorem State.setInteg_xfers (g : Integ → Integ) : (s.setInteg g).xfers = s.xfers := rfl
@[simp] theorem State.setInteg_nextXfer (g : Integ → Integ) : (s.setInteg g).nextXfer = s.nextXfer := rfl
@[simp] theorem State.setInteg_fab (g : Integ → Integ) : (s.setInteg g).fab = s.fab := rfl
@[simp] theorem State.setInteg_out (g : Integ → Integ) : (s.setInteg g).out = s.out := rfl
@[simp] theorem State.setInteg_freeCtr (g : Integ → Integ) : (s.setInteg g).freeCtr = s.freeCtr := rfl
@[simp] theorem State.setInteg_pair (g : Integ → Integ) : (s.setInteg g).pair = s.pair := rfl
@[simp] theorem State.setInteg_used (g : Integ → Integ) : (s.setInteg g).used = s.used := rfl
@[simp] theorem State.setInteg_due (g : Integ → Integ) : (s.setInteg g).due = s.due := rfl
@[simp] theorem State.setInteg_streamEnd (g : Integ → Integ) : (s.setInteg g).streamEnd = s.streamEnd := rfl
@[simp] theorem State.setInteg_shortCap (g : Integ → Integ) : (s.setInteg g).shortCap = s.shortCap := rfl
@[simp] theorem State.setInteg_latchHi (g : Integ → Integ) : (s.setInteg g).latchHi = s.latchHi := rfl
@[simp] theorem State.setInteg_acctRem (g : Integ → Integ) : (s.setInteg g).acctRem = s.acctRem := rfl
@[simp] theorem State.setInteg_polls (g : Integ → Integ) : (s.setInteg g).polls = s.polls := rfl
@[simp] theorem State.setInteg_jobs (g : Integ → Integ) : (s.setInteg g).jobs = s.jobs := rfl
@[simp] theorem State.setInteg_kv (g : Integ → Integ) : (s.setInteg g).kv = s.kv := rfl
@[simp] theorem State.setInteg_serve (g : Integ → Integ) : (s.setInteg g).serve = s.serve := rfl
@[simp] theorem State.setInteg_trn (g : Integ → Integ) : (s.setInteg g).trn = s.trn := rfl
@[simp] theorem State.setInteg_discards (g : Integ → Integ) : (s.setInteg g).discards = s.discards := rfl
@[simp] theorem State.setInteg_saves (g : Integ → Integ) : (s.setInteg g).saves = s.saves := rfl

-- ===== State.setHost =====

@[simp] theorem State.setHost_pending (g : HostPort → HostPort) : (s.setHost g).pending = s.pending := rfl
@[simp] theorem State.setHost_regs (g : HostPort → HostPort) : (s.setHost g).regs = s.regs := rfl
@[simp] theorem State.setHost_staged (g : HostPort → HostPort) : (s.setHost g).staged = s.staged := rfl
@[simp] theorem State.setHost_previous (g : HostPort → HostPort) : (s.setHost g).previous = s.previous := rfl
@[simp] theorem State.setHost_mem (g : HostPort → HostPort) : (s.setHost g).mem = s.mem := rfl
@[simp] theorem State.setHost_flash (g : HostPort → HostPort) : (s.setHost g).flash = s.flash := rfl
@[simp] theorem State.setHost_ev (g : HostPort → HostPort) : (s.setHost g).ev = s.ev := rfl
@[simp] theorem State.setHost_boot (g : HostPort → HostPort) : (s.setHost g).boot = s.boot := rfl
@[simp] theorem State.setHost_cfg (g : HostPort → HostPort) : (s.setHost g).cfg = s.cfg := rfl
@[simp] theorem State.setHost_mgmt (g : HostPort → HostPort) : (s.setHost g).mgmt = s.mgmt := rfl
@[simp] theorem State.setHost_power (g : HostPort → HostPort) : (s.setHost g).power = s.power := rfl
@[simp] theorem State.setHost_kits (g : HostPort → HostPort) : (s.setHost g).kits = s.kits := rfl
@[simp] theorem State.setHost_drums (g : HostPort → HostPort) : (s.setHost g).drums = s.drums := rfl
@[simp] theorem State.setHost_mallets (g : HostPort → HostPort) : (s.setHost g).mallets = s.mallets := rfl
@[simp] theorem State.setHost_parts (g : HostPort → HostPort) : (s.setHost g).parts = s.parts := rfl
@[simp] theorem State.setHost_xfers (g : HostPort → HostPort) : (s.setHost g).xfers = s.xfers := rfl
@[simp] theorem State.setHost_nextXfer (g : HostPort → HostPort) : (s.setHost g).nextXfer = s.nextXfer := rfl
@[simp] theorem State.setHost_fab (g : HostPort → HostPort) : (s.setHost g).fab = s.fab := rfl
@[simp] theorem State.setHost_out (g : HostPort → HostPort) : (s.setHost g).out = s.out := rfl
@[simp] theorem State.setHost_freeCtr (g : HostPort → HostPort) : (s.setHost g).freeCtr = s.freeCtr := rfl
@[simp] theorem State.setHost_integ (g : HostPort → HostPort) : (s.setHost g).integ = s.integ := rfl
@[simp] theorem State.setHost_pair (g : HostPort → HostPort) : (s.setHost g).pair = s.pair := rfl
@[simp] theorem State.setHost_used (g : HostPort → HostPort) : (s.setHost g).used = s.used := rfl
@[simp] theorem State.setHost_due (g : HostPort → HostPort) : (s.setHost g).due = s.due := rfl
@[simp] theorem State.setHost_streamEnd (g : HostPort → HostPort) : (s.setHost g).streamEnd = s.streamEnd := rfl
@[simp] theorem State.setHost_shortCap (g : HostPort → HostPort) : (s.setHost g).shortCap = s.shortCap := rfl
@[simp] theorem State.setHost_latchHi (g : HostPort → HostPort) : (s.setHost g).latchHi = s.latchHi := rfl
@[simp] theorem State.setHost_acctRem (g : HostPort → HostPort) : (s.setHost g).acctRem = s.acctRem := rfl
@[simp] theorem State.setHost_polls (g : HostPort → HostPort) : (s.setHost g).polls = s.polls := rfl
@[simp] theorem State.setHost_jobs (g : HostPort → HostPort) : (s.setHost g).jobs = s.jobs := rfl
@[simp] theorem State.setHost_kv (g : HostPort → HostPort) : (s.setHost g).kv = s.kv := rfl
@[simp] theorem State.setHost_serve (g : HostPort → HostPort) : (s.setHost g).serve = s.serve := rfl
@[simp] theorem State.setHost_trn (g : HostPort → HostPort) : (s.setHost g).trn = s.trn := rfl
@[simp] theorem State.setHost_discards (g : HostPort → HostPort) : (s.setHost g).discards = s.discards := rfl
@[simp] theorem State.setHost_saves (g : HostPort → HostPort) : (s.setHost g).saves = s.saves := rfl

-- ===== State.setBoot =====

@[simp] theorem State.setBoot_pending (g : Boot → Boot) : (s.setBoot g).pending = s.pending := rfl
@[simp] theorem State.setBoot_regs (g : Boot → Boot) : (s.setBoot g).regs = s.regs := rfl
@[simp] theorem State.setBoot_staged (g : Boot → Boot) : (s.setBoot g).staged = s.staged := rfl
@[simp] theorem State.setBoot_previous (g : Boot → Boot) : (s.setBoot g).previous = s.previous := rfl
@[simp] theorem State.setBoot_mem (g : Boot → Boot) : (s.setBoot g).mem = s.mem := rfl
@[simp] theorem State.setBoot_flash (g : Boot → Boot) : (s.setBoot g).flash = s.flash := rfl
@[simp] theorem State.setBoot_ev (g : Boot → Boot) : (s.setBoot g).ev = s.ev := rfl
@[simp] theorem State.setBoot_cfg (g : Boot → Boot) : (s.setBoot g).cfg = s.cfg := rfl
@[simp] theorem State.setBoot_host (g : Boot → Boot) : (s.setBoot g).host = s.host := rfl
@[simp] theorem State.setBoot_mgmt (g : Boot → Boot) : (s.setBoot g).mgmt = s.mgmt := rfl
@[simp] theorem State.setBoot_power (g : Boot → Boot) : (s.setBoot g).power = s.power := rfl
@[simp] theorem State.setBoot_kits (g : Boot → Boot) : (s.setBoot g).kits = s.kits := rfl
@[simp] theorem State.setBoot_drums (g : Boot → Boot) : (s.setBoot g).drums = s.drums := rfl
@[simp] theorem State.setBoot_mallets (g : Boot → Boot) : (s.setBoot g).mallets = s.mallets := rfl
@[simp] theorem State.setBoot_parts (g : Boot → Boot) : (s.setBoot g).parts = s.parts := rfl
@[simp] theorem State.setBoot_xfers (g : Boot → Boot) : (s.setBoot g).xfers = s.xfers := rfl
@[simp] theorem State.setBoot_nextXfer (g : Boot → Boot) : (s.setBoot g).nextXfer = s.nextXfer := rfl
@[simp] theorem State.setBoot_fab (g : Boot → Boot) : (s.setBoot g).fab = s.fab := rfl
@[simp] theorem State.setBoot_out (g : Boot → Boot) : (s.setBoot g).out = s.out := rfl
@[simp] theorem State.setBoot_freeCtr (g : Boot → Boot) : (s.setBoot g).freeCtr = s.freeCtr := rfl
@[simp] theorem State.setBoot_integ (g : Boot → Boot) : (s.setBoot g).integ = s.integ := rfl
@[simp] theorem State.setBoot_pair (g : Boot → Boot) : (s.setBoot g).pair = s.pair := rfl
@[simp] theorem State.setBoot_used (g : Boot → Boot) : (s.setBoot g).used = s.used := rfl
@[simp] theorem State.setBoot_due (g : Boot → Boot) : (s.setBoot g).due = s.due := rfl
@[simp] theorem State.setBoot_streamEnd (g : Boot → Boot) : (s.setBoot g).streamEnd = s.streamEnd := rfl
@[simp] theorem State.setBoot_shortCap (g : Boot → Boot) : (s.setBoot g).shortCap = s.shortCap := rfl
@[simp] theorem State.setBoot_latchHi (g : Boot → Boot) : (s.setBoot g).latchHi = s.latchHi := rfl
@[simp] theorem State.setBoot_acctRem (g : Boot → Boot) : (s.setBoot g).acctRem = s.acctRem := rfl
@[simp] theorem State.setBoot_polls (g : Boot → Boot) : (s.setBoot g).polls = s.polls := rfl
@[simp] theorem State.setBoot_jobs (g : Boot → Boot) : (s.setBoot g).jobs = s.jobs := rfl
@[simp] theorem State.setBoot_kv (g : Boot → Boot) : (s.setBoot g).kv = s.kv := rfl
@[simp] theorem State.setBoot_serve (g : Boot → Boot) : (s.setBoot g).serve = s.serve := rfl
@[simp] theorem State.setBoot_trn (g : Boot → Boot) : (s.setBoot g).trn = s.trn := rfl
@[simp] theorem State.setBoot_discards (g : Boot → Boot) : (s.setBoot g).discards = s.discards := rfl
@[simp] theorem State.setBoot_saves (g : Boot → Boot) : (s.setBoot g).saves = s.saves := rfl

-- ===== State.setCfg =====

@[simp] theorem State.setCfg_pending (g : Cfg → Cfg) : (s.setCfg g).pending = s.pending := rfl
@[simp] theorem State.setCfg_regs (g : Cfg → Cfg) : (s.setCfg g).regs = s.regs := rfl
@[simp] theorem State.setCfg_staged (g : Cfg → Cfg) : (s.setCfg g).staged = s.staged := rfl
@[simp] theorem State.setCfg_previous (g : Cfg → Cfg) : (s.setCfg g).previous = s.previous := rfl
@[simp] theorem State.setCfg_mem (g : Cfg → Cfg) : (s.setCfg g).mem = s.mem := rfl
@[simp] theorem State.setCfg_flash (g : Cfg → Cfg) : (s.setCfg g).flash = s.flash := rfl
@[simp] theorem State.setCfg_ev (g : Cfg → Cfg) : (s.setCfg g).ev = s.ev := rfl
@[simp] theorem State.setCfg_boot (g : Cfg → Cfg) : (s.setCfg g).boot = s.boot := rfl
@[simp] theorem State.setCfg_host (g : Cfg → Cfg) : (s.setCfg g).host = s.host := rfl
@[simp] theorem State.setCfg_mgmt (g : Cfg → Cfg) : (s.setCfg g).mgmt = s.mgmt := rfl
@[simp] theorem State.setCfg_power (g : Cfg → Cfg) : (s.setCfg g).power = s.power := rfl
@[simp] theorem State.setCfg_kits (g : Cfg → Cfg) : (s.setCfg g).kits = s.kits := rfl
@[simp] theorem State.setCfg_drums (g : Cfg → Cfg) : (s.setCfg g).drums = s.drums := rfl
@[simp] theorem State.setCfg_mallets (g : Cfg → Cfg) : (s.setCfg g).mallets = s.mallets := rfl
@[simp] theorem State.setCfg_parts (g : Cfg → Cfg) : (s.setCfg g).parts = s.parts := rfl
@[simp] theorem State.setCfg_xfers (g : Cfg → Cfg) : (s.setCfg g).xfers = s.xfers := rfl
@[simp] theorem State.setCfg_nextXfer (g : Cfg → Cfg) : (s.setCfg g).nextXfer = s.nextXfer := rfl
@[simp] theorem State.setCfg_fab (g : Cfg → Cfg) : (s.setCfg g).fab = s.fab := rfl
@[simp] theorem State.setCfg_out (g : Cfg → Cfg) : (s.setCfg g).out = s.out := rfl
@[simp] theorem State.setCfg_freeCtr (g : Cfg → Cfg) : (s.setCfg g).freeCtr = s.freeCtr := rfl
@[simp] theorem State.setCfg_integ (g : Cfg → Cfg) : (s.setCfg g).integ = s.integ := rfl
@[simp] theorem State.setCfg_pair (g : Cfg → Cfg) : (s.setCfg g).pair = s.pair := rfl
@[simp] theorem State.setCfg_used (g : Cfg → Cfg) : (s.setCfg g).used = s.used := rfl
@[simp] theorem State.setCfg_due (g : Cfg → Cfg) : (s.setCfg g).due = s.due := rfl
@[simp] theorem State.setCfg_streamEnd (g : Cfg → Cfg) : (s.setCfg g).streamEnd = s.streamEnd := rfl
@[simp] theorem State.setCfg_shortCap (g : Cfg → Cfg) : (s.setCfg g).shortCap = s.shortCap := rfl
@[simp] theorem State.setCfg_latchHi (g : Cfg → Cfg) : (s.setCfg g).latchHi = s.latchHi := rfl
@[simp] theorem State.setCfg_acctRem (g : Cfg → Cfg) : (s.setCfg g).acctRem = s.acctRem := rfl
@[simp] theorem State.setCfg_polls (g : Cfg → Cfg) : (s.setCfg g).polls = s.polls := rfl
@[simp] theorem State.setCfg_jobs (g : Cfg → Cfg) : (s.setCfg g).jobs = s.jobs := rfl
@[simp] theorem State.setCfg_kv (g : Cfg → Cfg) : (s.setCfg g).kv = s.kv := rfl
@[simp] theorem State.setCfg_serve (g : Cfg → Cfg) : (s.setCfg g).serve = s.serve := rfl
@[simp] theorem State.setCfg_trn (g : Cfg → Cfg) : (s.setCfg g).trn = s.trn := rfl
@[simp] theorem State.setCfg_discards (g : Cfg → Cfg) : (s.setCfg g).discards = s.discards := rfl
@[simp] theorem State.setCfg_saves (g : Cfg → Cfg) : (s.setCfg g).saves = s.saves := rfl

-- ===== State.setJob =====

@[simp] theorem State.setJob_pending (r : Nat) (j : RingJob) : (s.setJob r j).pending = s.pending := rfl
@[simp] theorem State.setJob_regs (r : Nat) (j : RingJob) : (s.setJob r j).regs = s.regs := rfl
@[simp] theorem State.setJob_staged (r : Nat) (j : RingJob) : (s.setJob r j).staged = s.staged := rfl
@[simp] theorem State.setJob_previous (r : Nat) (j : RingJob) : (s.setJob r j).previous = s.previous := rfl
@[simp] theorem State.setJob_mem (r : Nat) (j : RingJob) : (s.setJob r j).mem = s.mem := rfl
@[simp] theorem State.setJob_flash (r : Nat) (j : RingJob) : (s.setJob r j).flash = s.flash := rfl
@[simp] theorem State.setJob_ev (r : Nat) (j : RingJob) : (s.setJob r j).ev = s.ev := rfl
@[simp] theorem State.setJob_boot (r : Nat) (j : RingJob) : (s.setJob r j).boot = s.boot := rfl
@[simp] theorem State.setJob_host (r : Nat) (j : RingJob) : (s.setJob r j).host = s.host := rfl
@[simp] theorem State.setJob_mgmt (r : Nat) (j : RingJob) : (s.setJob r j).mgmt = s.mgmt := rfl
@[simp] theorem State.setJob_power (r : Nat) (j : RingJob) : (s.setJob r j).power = s.power := rfl
@[simp] theorem State.setJob_kits (r : Nat) (j : RingJob) : (s.setJob r j).kits = s.kits := rfl
@[simp] theorem State.setJob_drums (r : Nat) (j : RingJob) : (s.setJob r j).drums = s.drums := rfl
@[simp] theorem State.setJob_mallets (r : Nat) (j : RingJob) : (s.setJob r j).mallets = s.mallets := rfl
@[simp] theorem State.setJob_parts (r : Nat) (j : RingJob) : (s.setJob r j).parts = s.parts := rfl
@[simp] theorem State.setJob_xfers (r : Nat) (j : RingJob) : (s.setJob r j).xfers = s.xfers := rfl
@[simp] theorem State.setJob_nextXfer (r : Nat) (j : RingJob) : (s.setJob r j).nextXfer = s.nextXfer := rfl
@[simp] theorem State.setJob_fab (r : Nat) (j : RingJob) : (s.setJob r j).fab = s.fab := rfl
@[simp] theorem State.setJob_out (r : Nat) (j : RingJob) : (s.setJob r j).out = s.out := rfl
@[simp] theorem State.setJob_freeCtr (r : Nat) (j : RingJob) : (s.setJob r j).freeCtr = s.freeCtr := rfl
@[simp] theorem State.setJob_integ (r : Nat) (j : RingJob) : (s.setJob r j).integ = s.integ := rfl
@[simp] theorem State.setJob_pair (r : Nat) (j : RingJob) : (s.setJob r j).pair = s.pair := rfl
@[simp] theorem State.setJob_used (r : Nat) (j : RingJob) : (s.setJob r j).used = s.used := rfl
@[simp] theorem State.setJob_due (r : Nat) (j : RingJob) : (s.setJob r j).due = s.due := rfl
@[simp] theorem State.setJob_streamEnd (r : Nat) (j : RingJob) : (s.setJob r j).streamEnd = s.streamEnd := rfl
@[simp] theorem State.setJob_shortCap (r : Nat) (j : RingJob) : (s.setJob r j).shortCap = s.shortCap := rfl
@[simp] theorem State.setJob_latchHi (r : Nat) (j : RingJob) : (s.setJob r j).latchHi = s.latchHi := rfl
@[simp] theorem State.setJob_acctRem (r : Nat) (j : RingJob) : (s.setJob r j).acctRem = s.acctRem := rfl
@[simp] theorem State.setJob_polls (r : Nat) (j : RingJob) : (s.setJob r j).polls = s.polls := rfl
@[simp] theorem State.setJob_kv (r : Nat) (j : RingJob) : (s.setJob r j).kv = s.kv := rfl
@[simp] theorem State.setJob_serve (r : Nat) (j : RingJob) : (s.setJob r j).serve = s.serve := rfl
@[simp] theorem State.setJob_trn (r : Nat) (j : RingJob) : (s.setJob r j).trn = s.trn := rfl
@[simp] theorem State.setJob_discards (r : Nat) (j : RingJob) : (s.setJob r j).discards = s.discards := rfl
@[simp] theorem State.setJob_saves (r : Nat) (j : RingJob) : (s.setJob r j).saves = s.saves := rfl
@[simp] theorem State.setJob_cfg (r : Nat) (j : RingJob) : (s.setJob r j).cfg = s.cfg := rfl

-- ===== What the units read after an update of something else =====

@[simp] theorem State.drum_setRg_o (r : RegName) (i j : Nat) (w : BitVec 64) (k1 d1 : Nat) : (s.setRg r i j w).drum k1 d1 = s.drum k1 d1 := rfl
@[simp] theorem State.drum_setF_o (f : Fld) (i j v : Nat) (k1 d1 : Nat) : (s.setF f i j v).drum k1 d1 = s.drum k1 d1 := rfl
@[simp] theorem State.drum_setB_o (f : Fld) (i j : Nat) (b : Bool) (k1 d1 : Nat) : (s.setB f i j b).drum k1 d1 = s.drum k1 d1 := rfl
@[simp] theorem State.drum_count_o (f : Fld) (i j n : Nat) (k1 d1 : Nat) : (s.count f i j n).drum k1 d1 = s.drum k1 d1 := rfl
@[simp] theorem State.drum_setKit_o (k : Nat) (g : Kit → Kit) (k1 d1 : Nat) : (s.setKit k g).drum k1 d1 = s.drum k1 d1 := rfl
@[simp] theorem State.drum_setMallet_o (k d m : Nat) (g : Mallet → Mallet) (k1 d1 : Nat) : (s.setMallet k d m g).drum k1 d1 = s.drum k1 d1 := rfl
@[simp] theorem State.drum_setPart_o (p : Nat) (g : Part → Part) (k1 d1 : Nat) : (s.setPart p g).drum k1 d1 = s.drum k1 d1 := rfl
@[simp] theorem State.drum_setCtx_o (u : CtxId) (g : Ctx → Ctx) (k1 d1 : Nat) : (s.setCtx u g).drum k1 d1 = s.drum k1 d1 := rfl
@[simp] theorem State.drum_setTile_o (u : CtxId) (n : Nat) (x : Tile) (k1 d1 : Nat) : (s.setTile u n x).drum k1 d1 = s.drum k1 d1 := rfl
@[simp] theorem State.drum_setAcc_o (u : CtxId) (n : Nat) (x : Acc) (k1 d1 : Nat) : (s.setAcc u n x).drum k1 d1 = s.drum k1 d1 := rfl
@[simp] theorem State.drum_fresh_o (k1 d1 : Nat) : (s.fresh).drum k1 d1 = s.drum k1 d1 := rfl
@[simp] theorem State.drum_setXfer_o (n : Nat) (x : Xfer) (k1 d1 : Nat) : (s.setXfer n x).drum k1 d1 = s.drum k1 d1 := rfl
@[simp] theorem State.drum_setTag_o (n q : Nat) (x : Tag) (k1 d1 : Nat) : (s.setTag n q x).drum k1 d1 = s.drum k1 d1 := rfl
@[simp] theorem State.drum_setFab_o (g : Fabric → Fabric) (k1 d1 : Nat) : (s.setFab g).drum k1 d1 = s.drum k1 d1 := rfl
@[simp] theorem State.drum_setFlash_o (g : Flash → Flash) (k1 d1 : Nat) : (s.setFlash g).drum k1 d1 = s.drum k1 d1 := rfl
@[simp] theorem State.drum_setKv_o (g : Kv → Kv) (k1 d1 : Nat) : (s.setKv g).drum k1 d1 = s.drum k1 d1 := rfl
@[simp] theorem State.drum_setServe_o (g : Serve → Serve) (k1 d1 : Nat) : (s.setServe g).drum k1 d1 = s.drum k1 d1 := rfl
@[simp] theorem State.drum_setTrn_o (g : Transit → Transit) (k1 d1 : Nat) : (s.setTrn g).drum k1 d1 = s.drum k1 d1 := rfl
@[simp] theorem State.drum_setPair_o (g : Pair → Pair) (k1 d1 : Nat) : (s.setPair g).drum k1 d1 = s.drum k1 d1 := rfl
@[simp] theorem State.drum_setInteg_o (g : Integ → Integ) (k1 d1 : Nat) : (s.setInteg g).drum k1 d1 = s.drum k1 d1 := rfl
@[simp] theorem State.drum_setHost_o (g : HostPort → HostPort) (k1 d1 : Nat) : (s.setHost g).drum k1 d1 = s.drum k1 d1 := rfl
@[simp] theorem State.drum_setBoot_o (g : Boot → Boot) (k1 d1 : Nat) : (s.setBoot g).drum k1 d1 = s.drum k1 d1 := rfl
@[simp] theorem State.drum_setCfg_o (g : Cfg → Cfg) (k1 d1 : Nat) : (s.setCfg g).drum k1 d1 = s.drum k1 d1 := rfl
@[simp] theorem State.kit_setRg_o (r : RegName) (i j : Nat) (w : BitVec 64) (k1 : Nat) : (s.setRg r i j w).kit k1 = s.kit k1 := rfl
@[simp] theorem State.kit_setF_o (f : Fld) (i j v : Nat) (k1 : Nat) : (s.setF f i j v).kit k1 = s.kit k1 := rfl
@[simp] theorem State.kit_setB_o (f : Fld) (i j : Nat) (b : Bool) (k1 : Nat) : (s.setB f i j b).kit k1 = s.kit k1 := rfl
@[simp] theorem State.kit_count_o (f : Fld) (i j n : Nat) (k1 : Nat) : (s.count f i j n).kit k1 = s.kit k1 := rfl
@[simp] theorem State.kit_setDrum_o (k d : Nat) (g : Drum → Drum) (k1 : Nat) : (s.setDrum k d g).kit k1 = s.kit k1 := rfl
@[simp] theorem State.kit_setMallet_o (k d m : Nat) (g : Mallet → Mallet) (k1 : Nat) : (s.setMallet k d m g).kit k1 = s.kit k1 := rfl
@[simp] theorem State.kit_setPart_o (p : Nat) (g : Part → Part) (k1 : Nat) : (s.setPart p g).kit k1 = s.kit k1 := rfl
@[simp] theorem State.kit_setCtx_o (u : CtxId) (g : Ctx → Ctx) (k1 : Nat) : (s.setCtx u g).kit k1 = s.kit k1 := rfl
@[simp] theorem State.kit_setTile_o (u : CtxId) (n : Nat) (x : Tile) (k1 : Nat) : (s.setTile u n x).kit k1 = s.kit k1 := rfl
@[simp] theorem State.kit_setAcc_o (u : CtxId) (n : Nat) (x : Acc) (k1 : Nat) : (s.setAcc u n x).kit k1 = s.kit k1 := rfl
@[simp] theorem State.kit_fresh_o (k1 : Nat) : (s.fresh).kit k1 = s.kit k1 := rfl
@[simp] theorem State.kit_setXfer_o (n : Nat) (x : Xfer) (k1 : Nat) : (s.setXfer n x).kit k1 = s.kit k1 := rfl
@[simp] theorem State.kit_setTag_o (n q : Nat) (x : Tag) (k1 : Nat) : (s.setTag n q x).kit k1 = s.kit k1 := rfl
@[simp] theorem State.kit_setFab_o (g : Fabric → Fabric) (k1 : Nat) : (s.setFab g).kit k1 = s.kit k1 := rfl
@[simp] theorem State.kit_setFlash_o (g : Flash → Flash) (k1 : Nat) : (s.setFlash g).kit k1 = s.kit k1 := rfl
@[simp] theorem State.kit_setKv_o (g : Kv → Kv) (k1 : Nat) : (s.setKv g).kit k1 = s.kit k1 := rfl
@[simp] theorem State.kit_setServe_o (g : Serve → Serve) (k1 : Nat) : (s.setServe g).kit k1 = s.kit k1 := rfl
@[simp] theorem State.kit_setTrn_o (g : Transit → Transit) (k1 : Nat) : (s.setTrn g).kit k1 = s.kit k1 := rfl
@[simp] theorem State.kit_setPair_o (g : Pair → Pair) (k1 : Nat) : (s.setPair g).kit k1 = s.kit k1 := rfl
@[simp] theorem State.kit_setInteg_o (g : Integ → Integ) (k1 : Nat) : (s.setInteg g).kit k1 = s.kit k1 := rfl
@[simp] theorem State.kit_setHost_o (g : HostPort → HostPort) (k1 : Nat) : (s.setHost g).kit k1 = s.kit k1 := rfl
@[simp] theorem State.kit_setBoot_o (g : Boot → Boot) (k1 : Nat) : (s.setBoot g).kit k1 = s.kit k1 := rfl
@[simp] theorem State.kit_setCfg_o (g : Cfg → Cfg) (k1 : Nat) : (s.setCfg g).kit k1 = s.kit k1 := rfl
@[simp] theorem State.part_setRg_o (r : RegName) (i j : Nat) (w : BitVec 64) (p1 : Nat) : (s.setRg r i j w).part p1 = s.part p1 := rfl
@[simp] theorem State.part_setF_o (f : Fld) (i j v : Nat) (p1 : Nat) : (s.setF f i j v).part p1 = s.part p1 := rfl
@[simp] theorem State.part_setB_o (f : Fld) (i j : Nat) (b : Bool) (p1 : Nat) : (s.setB f i j b).part p1 = s.part p1 := rfl
@[simp] theorem State.part_count_o (f : Fld) (i j n : Nat) (p1 : Nat) : (s.count f i j n).part p1 = s.part p1 := rfl
@[simp] theorem State.part_setKit_o (k : Nat) (g : Kit → Kit) (p1 : Nat) : (s.setKit k g).part p1 = s.part p1 := rfl
@[simp] theorem State.part_setDrum_o (k d : Nat) (g : Drum → Drum) (p1 : Nat) : (s.setDrum k d g).part p1 = s.part p1 := rfl
@[simp] theorem State.part_setMallet_o (k d m : Nat) (g : Mallet → Mallet) (p1 : Nat) : (s.setMallet k d m g).part p1 = s.part p1 := rfl
@[simp] theorem State.part_setCtx_o (u : CtxId) (g : Ctx → Ctx) (p1 : Nat) : (s.setCtx u g).part p1 = s.part p1 := rfl
@[simp] theorem State.part_setTile_o (u : CtxId) (n : Nat) (x : Tile) (p1 : Nat) : (s.setTile u n x).part p1 = s.part p1 := rfl
@[simp] theorem State.part_setAcc_o (u : CtxId) (n : Nat) (x : Acc) (p1 : Nat) : (s.setAcc u n x).part p1 = s.part p1 := rfl
@[simp] theorem State.part_fresh_o (p1 : Nat) : (s.fresh).part p1 = s.part p1 := rfl
@[simp] theorem State.part_setXfer_o (n : Nat) (x : Xfer) (p1 : Nat) : (s.setXfer n x).part p1 = s.part p1 := rfl
@[simp] theorem State.part_setTag_o (n q : Nat) (x : Tag) (p1 : Nat) : (s.setTag n q x).part p1 = s.part p1 := rfl
@[simp] theorem State.part_setFab_o (g : Fabric → Fabric) (p1 : Nat) : (s.setFab g).part p1 = s.part p1 := rfl
@[simp] theorem State.part_setFlash_o (g : Flash → Flash) (p1 : Nat) : (s.setFlash g).part p1 = s.part p1 := rfl
@[simp] theorem State.part_setKv_o (g : Kv → Kv) (p1 : Nat) : (s.setKv g).part p1 = s.part p1 := rfl
@[simp] theorem State.part_setServe_o (g : Serve → Serve) (p1 : Nat) : (s.setServe g).part p1 = s.part p1 := rfl
@[simp] theorem State.part_setTrn_o (g : Transit → Transit) (p1 : Nat) : (s.setTrn g).part p1 = s.part p1 := rfl
@[simp] theorem State.part_setPair_o (g : Pair → Pair) (p1 : Nat) : (s.setPair g).part p1 = s.part p1 := rfl
@[simp] theorem State.part_setInteg_o (g : Integ → Integ) (p1 : Nat) : (s.setInteg g).part p1 = s.part p1 := rfl
@[simp] theorem State.part_setHost_o (g : HostPort → HostPort) (p1 : Nat) : (s.setHost g).part p1 = s.part p1 := rfl
@[simp] theorem State.part_setBoot_o (g : Boot → Boot) (p1 : Nat) : (s.setBoot g).part p1 = s.part p1 := rfl
@[simp] theorem State.part_setCfg_o (g : Cfg → Cfg) (p1 : Nat) : (s.setCfg g).part p1 = s.part p1 := rfl
@[simp] theorem State.mallet_setRg_o (r : RegName) (i j : Nat) (w : BitVec 64) (k1 d1 m1 : Nat) : (s.setRg r i j w).mallet k1 d1 m1 = s.mallet k1 d1 m1 := rfl
@[simp] theorem State.mallet_setF_o (f : Fld) (i j v : Nat) (k1 d1 m1 : Nat) : (s.setF f i j v).mallet k1 d1 m1 = s.mallet k1 d1 m1 := rfl
@[simp] theorem State.mallet_setB_o (f : Fld) (i j : Nat) (b : Bool) (k1 d1 m1 : Nat) : (s.setB f i j b).mallet k1 d1 m1 = s.mallet k1 d1 m1 := rfl
@[simp] theorem State.mallet_count_o (f : Fld) (i j n : Nat) (k1 d1 m1 : Nat) : (s.count f i j n).mallet k1 d1 m1 = s.mallet k1 d1 m1 := rfl
@[simp] theorem State.mallet_setKit_o (k : Nat) (g : Kit → Kit) (k1 d1 m1 : Nat) : (s.setKit k g).mallet k1 d1 m1 = s.mallet k1 d1 m1 := rfl
@[simp] theorem State.mallet_setDrum_o (k d : Nat) (g : Drum → Drum) (k1 d1 m1 : Nat) : (s.setDrum k d g).mallet k1 d1 m1 = s.mallet k1 d1 m1 := rfl
@[simp] theorem State.mallet_setPart_o (p : Nat) (g : Part → Part) (k1 d1 m1 : Nat) : (s.setPart p g).mallet k1 d1 m1 = s.mallet k1 d1 m1 := rfl
@[simp] theorem State.mallet_fresh_o (k1 d1 m1 : Nat) : (s.fresh).mallet k1 d1 m1 = s.mallet k1 d1 m1 := rfl
@[simp] theorem State.mallet_setXfer_o (n : Nat) (x : Xfer) (k1 d1 m1 : Nat) : (s.setXfer n x).mallet k1 d1 m1 = s.mallet k1 d1 m1 := rfl
@[simp] theorem State.mallet_setTag_o (n q : Nat) (x : Tag) (k1 d1 m1 : Nat) : (s.setTag n q x).mallet k1 d1 m1 = s.mallet k1 d1 m1 := rfl
@[simp] theorem State.mallet_setFab_o (g : Fabric → Fabric) (k1 d1 m1 : Nat) : (s.setFab g).mallet k1 d1 m1 = s.mallet k1 d1 m1 := rfl
@[simp] theorem State.mallet_setFlash_o (g : Flash → Flash) (k1 d1 m1 : Nat) : (s.setFlash g).mallet k1 d1 m1 = s.mallet k1 d1 m1 := rfl
@[simp] theorem State.mallet_setKv_o (g : Kv → Kv) (k1 d1 m1 : Nat) : (s.setKv g).mallet k1 d1 m1 = s.mallet k1 d1 m1 := rfl
@[simp] theorem State.mallet_setServe_o (g : Serve → Serve) (k1 d1 m1 : Nat) : (s.setServe g).mallet k1 d1 m1 = s.mallet k1 d1 m1 := rfl
@[simp] theorem State.mallet_setTrn_o (g : Transit → Transit) (k1 d1 m1 : Nat) : (s.setTrn g).mallet k1 d1 m1 = s.mallet k1 d1 m1 := rfl
@[simp] theorem State.mallet_setPair_o (g : Pair → Pair) (k1 d1 m1 : Nat) : (s.setPair g).mallet k1 d1 m1 = s.mallet k1 d1 m1 := rfl
@[simp] theorem State.mallet_setInteg_o (g : Integ → Integ) (k1 d1 m1 : Nat) : (s.setInteg g).mallet k1 d1 m1 = s.mallet k1 d1 m1 := rfl
@[simp] theorem State.mallet_setHost_o (g : HostPort → HostPort) (k1 d1 m1 : Nat) : (s.setHost g).mallet k1 d1 m1 = s.mallet k1 d1 m1 := rfl
@[simp] theorem State.mallet_setBoot_o (g : Boot → Boot) (k1 d1 m1 : Nat) : (s.setBoot g).mallet k1 d1 m1 = s.mallet k1 d1 m1 := rfl
@[simp] theorem State.mallet_setCfg_o (g : Cfg → Cfg) (k1 d1 m1 : Nat) : (s.setCfg g).mallet k1 d1 m1 = s.mallet k1 d1 m1 := rfl
@[simp] theorem State.ctx_setRg_o (r : RegName) (i j : Nat) (w : BitVec 64) (u1 : CtxId) : (s.setRg r i j w).ctx u1 = s.ctx u1 := rfl
@[simp] theorem State.ctx_setF_o (f : Fld) (i j v : Nat) (u1 : CtxId) : (s.setF f i j v).ctx u1 = s.ctx u1 := rfl
@[simp] theorem State.ctx_setB_o (f : Fld) (i j : Nat) (b : Bool) (u1 : CtxId) : (s.setB f i j b).ctx u1 = s.ctx u1 := rfl
@[simp] theorem State.ctx_count_o (f : Fld) (i j n : Nat) (u1 : CtxId) : (s.count f i j n).ctx u1 = s.ctx u1 := rfl
@[simp] theorem State.ctx_setKit_o (k : Nat) (g : Kit → Kit) (u1 : CtxId) : (s.setKit k g).ctx u1 = s.ctx u1 := rfl
@[simp] theorem State.ctx_setDrum_o (k d : Nat) (g : Drum → Drum) (u1 : CtxId) : (s.setDrum k d g).ctx u1 = s.ctx u1 := rfl
@[simp] theorem State.ctx_setPart_o (p : Nat) (g : Part → Part) (u1 : CtxId) : (s.setPart p g).ctx u1 = s.ctx u1 := rfl
@[simp] theorem State.ctx_fresh_o (u1 : CtxId) : (s.fresh).ctx u1 = s.ctx u1 := rfl
@[simp] theorem State.ctx_setXfer_o (n : Nat) (x : Xfer) (u1 : CtxId) : (s.setXfer n x).ctx u1 = s.ctx u1 := rfl
@[simp] theorem State.ctx_setTag_o (n q : Nat) (x : Tag) (u1 : CtxId) : (s.setTag n q x).ctx u1 = s.ctx u1 := rfl
@[simp] theorem State.ctx_setFab_o (g : Fabric → Fabric) (u1 : CtxId) : (s.setFab g).ctx u1 = s.ctx u1 := rfl
@[simp] theorem State.ctx_setFlash_o (g : Flash → Flash) (u1 : CtxId) : (s.setFlash g).ctx u1 = s.ctx u1 := rfl
@[simp] theorem State.ctx_setKv_o (g : Kv → Kv) (u1 : CtxId) : (s.setKv g).ctx u1 = s.ctx u1 := rfl
@[simp] theorem State.ctx_setServe_o (g : Serve → Serve) (u1 : CtxId) : (s.setServe g).ctx u1 = s.ctx u1 := rfl
@[simp] theorem State.ctx_setTrn_o (g : Transit → Transit) (u1 : CtxId) : (s.setTrn g).ctx u1 = s.ctx u1 := rfl
@[simp] theorem State.ctx_setPair_o (g : Pair → Pair) (u1 : CtxId) : (s.setPair g).ctx u1 = s.ctx u1 := rfl
@[simp] theorem State.ctx_setInteg_o (g : Integ → Integ) (u1 : CtxId) : (s.setInteg g).ctx u1 = s.ctx u1 := rfl
@[simp] theorem State.ctx_setHost_o (g : HostPort → HostPort) (u1 : CtxId) : (s.setHost g).ctx u1 = s.ctx u1 := rfl
@[simp] theorem State.ctx_setBoot_o (g : Boot → Boot) (u1 : CtxId) : (s.setBoot g).ctx u1 = s.ctx u1 := rfl
@[simp] theorem State.ctx_setCfg_o (g : Cfg → Cfg) (u1 : CtxId) : (s.setCfg g).ctx u1 = s.ctx u1 := rfl
@[simp] theorem State.tile_setRg_o (r : RegName) (i j : Nat) (w : BitVec 64) (u1 : CtxId) (n1 : Nat) : (s.setRg r i j w).tile u1 n1 = s.tile u1 n1 := rfl
@[simp] theorem State.tile_setF_o (f : Fld) (i j v : Nat) (u1 : CtxId) (n1 : Nat) : (s.setF f i j v).tile u1 n1 = s.tile u1 n1 := rfl
@[simp] theorem State.tile_setB_o (f : Fld) (i j : Nat) (b : Bool) (u1 : CtxId) (n1 : Nat) : (s.setB f i j b).tile u1 n1 = s.tile u1 n1 := rfl
@[simp] theorem State.tile_count_o (f : Fld) (i j n : Nat) (u1 : CtxId) (n1 : Nat) : (s.count f i j n).tile u1 n1 = s.tile u1 n1 := rfl
@[simp] theorem State.tile_setKit_o (k : Nat) (g : Kit → Kit) (u1 : CtxId) (n1 : Nat) : (s.setKit k g).tile u1 n1 = s.tile u1 n1 := rfl
@[simp] theorem State.tile_setDrum_o (k d : Nat) (g : Drum → Drum) (u1 : CtxId) (n1 : Nat) : (s.setDrum k d g).tile u1 n1 = s.tile u1 n1 := rfl
@[simp] theorem State.tile_setPart_o (p : Nat) (g : Part → Part) (u1 : CtxId) (n1 : Nat) : (s.setPart p g).tile u1 n1 = s.tile u1 n1 := rfl
@[simp] theorem State.tile_fresh_o (u1 : CtxId) (n1 : Nat) : (s.fresh).tile u1 n1 = s.tile u1 n1 := rfl
@[simp] theorem State.tile_setXfer_o (n : Nat) (x : Xfer) (u1 : CtxId) (n1 : Nat) : (s.setXfer n x).tile u1 n1 = s.tile u1 n1 := rfl
@[simp] theorem State.tile_setTag_o (n q : Nat) (x : Tag) (u1 : CtxId) (n1 : Nat) : (s.setTag n q x).tile u1 n1 = s.tile u1 n1 := rfl
@[simp] theorem State.tile_setFab_o (g : Fabric → Fabric) (u1 : CtxId) (n1 : Nat) : (s.setFab g).tile u1 n1 = s.tile u1 n1 := rfl
@[simp] theorem State.tile_setFlash_o (g : Flash → Flash) (u1 : CtxId) (n1 : Nat) : (s.setFlash g).tile u1 n1 = s.tile u1 n1 := rfl
@[simp] theorem State.tile_setKv_o (g : Kv → Kv) (u1 : CtxId) (n1 : Nat) : (s.setKv g).tile u1 n1 = s.tile u1 n1 := rfl
@[simp] theorem State.tile_setServe_o (g : Serve → Serve) (u1 : CtxId) (n1 : Nat) : (s.setServe g).tile u1 n1 = s.tile u1 n1 := rfl
@[simp] theorem State.tile_setTrn_o (g : Transit → Transit) (u1 : CtxId) (n1 : Nat) : (s.setTrn g).tile u1 n1 = s.tile u1 n1 := rfl
@[simp] theorem State.tile_setPair_o (g : Pair → Pair) (u1 : CtxId) (n1 : Nat) : (s.setPair g).tile u1 n1 = s.tile u1 n1 := rfl
@[simp] theorem State.tile_setInteg_o (g : Integ → Integ) (u1 : CtxId) (n1 : Nat) : (s.setInteg g).tile u1 n1 = s.tile u1 n1 := rfl
@[simp] theorem State.tile_setHost_o (g : HostPort → HostPort) (u1 : CtxId) (n1 : Nat) : (s.setHost g).tile u1 n1 = s.tile u1 n1 := rfl
@[simp] theorem State.tile_setBoot_o (g : Boot → Boot) (u1 : CtxId) (n1 : Nat) : (s.setBoot g).tile u1 n1 = s.tile u1 n1 := rfl
@[simp] theorem State.tile_setCfg_o (g : Cfg → Cfg) (u1 : CtxId) (n1 : Nat) : (s.setCfg g).tile u1 n1 = s.tile u1 n1 := rfl
@[simp] theorem State.acc_setRg_o (r : RegName) (i j : Nat) (w : BitVec 64) (u1 : CtxId) (n1 : Nat) : (s.setRg r i j w).acc u1 n1 = s.acc u1 n1 := rfl
@[simp] theorem State.acc_setF_o (f : Fld) (i j v : Nat) (u1 : CtxId) (n1 : Nat) : (s.setF f i j v).acc u1 n1 = s.acc u1 n1 := rfl
@[simp] theorem State.acc_setB_o (f : Fld) (i j : Nat) (b : Bool) (u1 : CtxId) (n1 : Nat) : (s.setB f i j b).acc u1 n1 = s.acc u1 n1 := rfl
@[simp] theorem State.acc_count_o (f : Fld) (i j n : Nat) (u1 : CtxId) (n1 : Nat) : (s.count f i j n).acc u1 n1 = s.acc u1 n1 := rfl
@[simp] theorem State.acc_setKit_o (k : Nat) (g : Kit → Kit) (u1 : CtxId) (n1 : Nat) : (s.setKit k g).acc u1 n1 = s.acc u1 n1 := rfl
@[simp] theorem State.acc_setDrum_o (k d : Nat) (g : Drum → Drum) (u1 : CtxId) (n1 : Nat) : (s.setDrum k d g).acc u1 n1 = s.acc u1 n1 := rfl
@[simp] theorem State.acc_setPart_o (p : Nat) (g : Part → Part) (u1 : CtxId) (n1 : Nat) : (s.setPart p g).acc u1 n1 = s.acc u1 n1 := rfl
@[simp] theorem State.acc_fresh_o (u1 : CtxId) (n1 : Nat) : (s.fresh).acc u1 n1 = s.acc u1 n1 := rfl
@[simp] theorem State.acc_setXfer_o (n : Nat) (x : Xfer) (u1 : CtxId) (n1 : Nat) : (s.setXfer n x).acc u1 n1 = s.acc u1 n1 := rfl
@[simp] theorem State.acc_setTag_o (n q : Nat) (x : Tag) (u1 : CtxId) (n1 : Nat) : (s.setTag n q x).acc u1 n1 = s.acc u1 n1 := rfl
@[simp] theorem State.acc_setFab_o (g : Fabric → Fabric) (u1 : CtxId) (n1 : Nat) : (s.setFab g).acc u1 n1 = s.acc u1 n1 := rfl
@[simp] theorem State.acc_setFlash_o (g : Flash → Flash) (u1 : CtxId) (n1 : Nat) : (s.setFlash g).acc u1 n1 = s.acc u1 n1 := rfl
@[simp] theorem State.acc_setKv_o (g : Kv → Kv) (u1 : CtxId) (n1 : Nat) : (s.setKv g).acc u1 n1 = s.acc u1 n1 := rfl
@[simp] theorem State.acc_setServe_o (g : Serve → Serve) (u1 : CtxId) (n1 : Nat) : (s.setServe g).acc u1 n1 = s.acc u1 n1 := rfl
@[simp] theorem State.acc_setTrn_o (g : Transit → Transit) (u1 : CtxId) (n1 : Nat) : (s.setTrn g).acc u1 n1 = s.acc u1 n1 := rfl
@[simp] theorem State.acc_setPair_o (g : Pair → Pair) (u1 : CtxId) (n1 : Nat) : (s.setPair g).acc u1 n1 = s.acc u1 n1 := rfl
@[simp] theorem State.acc_setInteg_o (g : Integ → Integ) (u1 : CtxId) (n1 : Nat) : (s.setInteg g).acc u1 n1 = s.acc u1 n1 := rfl
@[simp] theorem State.acc_setHost_o (g : HostPort → HostPort) (u1 : CtxId) (n1 : Nat) : (s.setHost g).acc u1 n1 = s.acc u1 n1 := rfl
@[simp] theorem State.acc_setBoot_o (g : Boot → Boot) (u1 : CtxId) (n1 : Nat) : (s.setBoot g).acc u1 n1 = s.acc u1 n1 := rfl
@[simp] theorem State.acc_setCfg_o (g : Cfg → Cfg) (u1 : CtxId) (n1 : Nat) : (s.setCfg g).acc u1 n1 = s.acc u1 n1 := rfl
@[simp] theorem State.rg_setKit_o (k : Nat) (g : Kit → Kit) (q1 : RegName) (i1 j1 : Nat) : (s.setKit k g).rg q1 i1 j1 = s.rg q1 i1 j1 := rfl
@[simp] theorem State.rg_setDrum_o (k d : Nat) (g : Drum → Drum) (q1 : RegName) (i1 j1 : Nat) : (s.setDrum k d g).rg q1 i1 j1 = s.rg q1 i1 j1 := rfl
@[simp] theorem State.rg_setMallet_o (k d m : Nat) (g : Mallet → Mallet) (q1 : RegName) (i1 j1 : Nat) : (s.setMallet k d m g).rg q1 i1 j1 = s.rg q1 i1 j1 := rfl
@[simp] theorem State.rg_setPart_o (p : Nat) (g : Part → Part) (q1 : RegName) (i1 j1 : Nat) : (s.setPart p g).rg q1 i1 j1 = s.rg q1 i1 j1 := rfl
@[simp] theorem State.rg_setCtx_o (u : CtxId) (g : Ctx → Ctx) (q1 : RegName) (i1 j1 : Nat) : (s.setCtx u g).rg q1 i1 j1 = s.rg q1 i1 j1 := rfl
@[simp] theorem State.rg_setTile_o (u : CtxId) (n : Nat) (x : Tile) (q1 : RegName) (i1 j1 : Nat) : (s.setTile u n x).rg q1 i1 j1 = s.rg q1 i1 j1 := rfl
@[simp] theorem State.rg_setAcc_o (u : CtxId) (n : Nat) (x : Acc) (q1 : RegName) (i1 j1 : Nat) : (s.setAcc u n x).rg q1 i1 j1 = s.rg q1 i1 j1 := rfl
@[simp] theorem State.rg_fresh_o (q1 : RegName) (i1 j1 : Nat) : (s.fresh).rg q1 i1 j1 = s.rg q1 i1 j1 := rfl
@[simp] theorem State.rg_setXfer_o (n : Nat) (x : Xfer) (q1 : RegName) (i1 j1 : Nat) : (s.setXfer n x).rg q1 i1 j1 = s.rg q1 i1 j1 := rfl
@[simp] theorem State.rg_setTag_o (n q : Nat) (x : Tag) (q1 : RegName) (i1 j1 : Nat) : (s.setTag n q x).rg q1 i1 j1 = s.rg q1 i1 j1 := rfl
@[simp] theorem State.rg_setFab_o (g : Fabric → Fabric) (q1 : RegName) (i1 j1 : Nat) : (s.setFab g).rg q1 i1 j1 = s.rg q1 i1 j1 := rfl
@[simp] theorem State.rg_setFlash_o (g : Flash → Flash) (q1 : RegName) (i1 j1 : Nat) : (s.setFlash g).rg q1 i1 j1 = s.rg q1 i1 j1 := rfl
@[simp] theorem State.rg_setKv_o (g : Kv → Kv) (q1 : RegName) (i1 j1 : Nat) : (s.setKv g).rg q1 i1 j1 = s.rg q1 i1 j1 := rfl
@[simp] theorem State.rg_setServe_o (g : Serve → Serve) (q1 : RegName) (i1 j1 : Nat) : (s.setServe g).rg q1 i1 j1 = s.rg q1 i1 j1 := rfl
@[simp] theorem State.rg_setTrn_o (g : Transit → Transit) (q1 : RegName) (i1 j1 : Nat) : (s.setTrn g).rg q1 i1 j1 = s.rg q1 i1 j1 := rfl
@[simp] theorem State.rg_setPair_o (g : Pair → Pair) (q1 : RegName) (i1 j1 : Nat) : (s.setPair g).rg q1 i1 j1 = s.rg q1 i1 j1 := rfl
@[simp] theorem State.rg_setInteg_o (g : Integ → Integ) (q1 : RegName) (i1 j1 : Nat) : (s.setInteg g).rg q1 i1 j1 = s.rg q1 i1 j1 := rfl
@[simp] theorem State.rg_setHost_o (g : HostPort → HostPort) (q1 : RegName) (i1 j1 : Nat) : (s.setHost g).rg q1 i1 j1 = s.rg q1 i1 j1 := rfl
@[simp] theorem State.rg_setBoot_o (g : Boot → Boot) (q1 : RegName) (i1 j1 : Nat) : (s.setBoot g).rg q1 i1 j1 = s.rg q1 i1 j1 := rfl
@[simp] theorem State.rg_setCfg_o (g : Cfg → Cfg) (q1 : RegName) (i1 j1 : Nat) : (s.setCfg g).rg q1 i1 j1 = s.rg q1 i1 j1 := rfl
@[simp] theorem State.f_setKit_o (k : Nat) (g : Kit → Kit) (f1 : Fld) (i1 j1 : Nat) : (s.setKit k g).f f1 i1 j1 = s.f f1 i1 j1 := rfl
@[simp] theorem State.f_setDrum_o (k d : Nat) (g : Drum → Drum) (f1 : Fld) (i1 j1 : Nat) : (s.setDrum k d g).f f1 i1 j1 = s.f f1 i1 j1 := rfl
@[simp] theorem State.f_setMallet_o (k d m : Nat) (g : Mallet → Mallet) (f1 : Fld) (i1 j1 : Nat) : (s.setMallet k d m g).f f1 i1 j1 = s.f f1 i1 j1 := rfl
@[simp] theorem State.f_setPart_o (p : Nat) (g : Part → Part) (f1 : Fld) (i1 j1 : Nat) : (s.setPart p g).f f1 i1 j1 = s.f f1 i1 j1 := rfl
@[simp] theorem State.f_setCtx_o (u : CtxId) (g : Ctx → Ctx) (f1 : Fld) (i1 j1 : Nat) : (s.setCtx u g).f f1 i1 j1 = s.f f1 i1 j1 := rfl
@[simp] theorem State.f_setTile_o (u : CtxId) (n : Nat) (x : Tile) (f1 : Fld) (i1 j1 : Nat) : (s.setTile u n x).f f1 i1 j1 = s.f f1 i1 j1 := rfl
@[simp] theorem State.f_setAcc_o (u : CtxId) (n : Nat) (x : Acc) (f1 : Fld) (i1 j1 : Nat) : (s.setAcc u n x).f f1 i1 j1 = s.f f1 i1 j1 := rfl
@[simp] theorem State.f_fresh_o (f1 : Fld) (i1 j1 : Nat) : (s.fresh).f f1 i1 j1 = s.f f1 i1 j1 := rfl
@[simp] theorem State.f_setXfer_o (n : Nat) (x : Xfer) (f1 : Fld) (i1 j1 : Nat) : (s.setXfer n x).f f1 i1 j1 = s.f f1 i1 j1 := rfl
@[simp] theorem State.f_setTag_o (n q : Nat) (x : Tag) (f1 : Fld) (i1 j1 : Nat) : (s.setTag n q x).f f1 i1 j1 = s.f f1 i1 j1 := rfl
@[simp] theorem State.f_setFab_o (g : Fabric → Fabric) (f1 : Fld) (i1 j1 : Nat) : (s.setFab g).f f1 i1 j1 = s.f f1 i1 j1 := rfl
@[simp] theorem State.f_setFlash_o (g : Flash → Flash) (f1 : Fld) (i1 j1 : Nat) : (s.setFlash g).f f1 i1 j1 = s.f f1 i1 j1 := rfl
@[simp] theorem State.f_setKv_o (g : Kv → Kv) (f1 : Fld) (i1 j1 : Nat) : (s.setKv g).f f1 i1 j1 = s.f f1 i1 j1 := rfl
@[simp] theorem State.f_setServe_o (g : Serve → Serve) (f1 : Fld) (i1 j1 : Nat) : (s.setServe g).f f1 i1 j1 = s.f f1 i1 j1 := rfl
@[simp] theorem State.f_setTrn_o (g : Transit → Transit) (f1 : Fld) (i1 j1 : Nat) : (s.setTrn g).f f1 i1 j1 = s.f f1 i1 j1 := rfl
@[simp] theorem State.f_setPair_o (g : Pair → Pair) (f1 : Fld) (i1 j1 : Nat) : (s.setPair g).f f1 i1 j1 = s.f f1 i1 j1 := rfl
@[simp] theorem State.f_setInteg_o (g : Integ → Integ) (f1 : Fld) (i1 j1 : Nat) : (s.setInteg g).f f1 i1 j1 = s.f f1 i1 j1 := rfl
@[simp] theorem State.f_setHost_o (g : HostPort → HostPort) (f1 : Fld) (i1 j1 : Nat) : (s.setHost g).f f1 i1 j1 = s.f f1 i1 j1 := rfl
@[simp] theorem State.f_setBoot_o (g : Boot → Boot) (f1 : Fld) (i1 j1 : Nat) : (s.setBoot g).f f1 i1 j1 = s.f f1 i1 j1 := rfl
@[simp] theorem State.f_setCfg_o (g : Cfg → Cfg) (f1 : Fld) (i1 j1 : Nat) : (s.setCfg g).f f1 i1 j1 = s.f f1 i1 j1 := rfl
@[simp] theorem State.fb_setKit_o (k : Nat) (g : Kit → Kit) (f1 : Fld) (i1 j1 : Nat) : (s.setKit k g).fb f1 i1 j1 = s.fb f1 i1 j1 := rfl
@[simp] theorem State.fb_setDrum_o (k d : Nat) (g : Drum → Drum) (f1 : Fld) (i1 j1 : Nat) : (s.setDrum k d g).fb f1 i1 j1 = s.fb f1 i1 j1 := rfl
@[simp] theorem State.fb_setMallet_o (k d m : Nat) (g : Mallet → Mallet) (f1 : Fld) (i1 j1 : Nat) : (s.setMallet k d m g).fb f1 i1 j1 = s.fb f1 i1 j1 := rfl
@[simp] theorem State.fb_setPart_o (p : Nat) (g : Part → Part) (f1 : Fld) (i1 j1 : Nat) : (s.setPart p g).fb f1 i1 j1 = s.fb f1 i1 j1 := rfl
@[simp] theorem State.fb_setCtx_o (u : CtxId) (g : Ctx → Ctx) (f1 : Fld) (i1 j1 : Nat) : (s.setCtx u g).fb f1 i1 j1 = s.fb f1 i1 j1 := rfl
@[simp] theorem State.fb_setTile_o (u : CtxId) (n : Nat) (x : Tile) (f1 : Fld) (i1 j1 : Nat) : (s.setTile u n x).fb f1 i1 j1 = s.fb f1 i1 j1 := rfl
@[simp] theorem State.fb_setAcc_o (u : CtxId) (n : Nat) (x : Acc) (f1 : Fld) (i1 j1 : Nat) : (s.setAcc u n x).fb f1 i1 j1 = s.fb f1 i1 j1 := rfl
@[simp] theorem State.fb_fresh_o (f1 : Fld) (i1 j1 : Nat) : (s.fresh).fb f1 i1 j1 = s.fb f1 i1 j1 := rfl
@[simp] theorem State.fb_setXfer_o (n : Nat) (x : Xfer) (f1 : Fld) (i1 j1 : Nat) : (s.setXfer n x).fb f1 i1 j1 = s.fb f1 i1 j1 := rfl
@[simp] theorem State.fb_setTag_o (n q : Nat) (x : Tag) (f1 : Fld) (i1 j1 : Nat) : (s.setTag n q x).fb f1 i1 j1 = s.fb f1 i1 j1 := rfl
@[simp] theorem State.fb_setFab_o (g : Fabric → Fabric) (f1 : Fld) (i1 j1 : Nat) : (s.setFab g).fb f1 i1 j1 = s.fb f1 i1 j1 := rfl
@[simp] theorem State.fb_setFlash_o (g : Flash → Flash) (f1 : Fld) (i1 j1 : Nat) : (s.setFlash g).fb f1 i1 j1 = s.fb f1 i1 j1 := rfl
@[simp] theorem State.fb_setKv_o (g : Kv → Kv) (f1 : Fld) (i1 j1 : Nat) : (s.setKv g).fb f1 i1 j1 = s.fb f1 i1 j1 := rfl
@[simp] theorem State.fb_setServe_o (g : Serve → Serve) (f1 : Fld) (i1 j1 : Nat) : (s.setServe g).fb f1 i1 j1 = s.fb f1 i1 j1 := rfl
@[simp] theorem State.fb_setTrn_o (g : Transit → Transit) (f1 : Fld) (i1 j1 : Nat) : (s.setTrn g).fb f1 i1 j1 = s.fb f1 i1 j1 := rfl
@[simp] theorem State.fb_setPair_o (g : Pair → Pair) (f1 : Fld) (i1 j1 : Nat) : (s.setPair g).fb f1 i1 j1 = s.fb f1 i1 j1 := rfl
@[simp] theorem State.fb_setInteg_o (g : Integ → Integ) (f1 : Fld) (i1 j1 : Nat) : (s.setInteg g).fb f1 i1 j1 = s.fb f1 i1 j1 := rfl
@[simp] theorem State.fb_setHost_o (g : HostPort → HostPort) (f1 : Fld) (i1 j1 : Nat) : (s.setHost g).fb f1 i1 j1 = s.fb f1 i1 j1 := rfl
@[simp] theorem State.fb_setBoot_o (g : Boot → Boot) (f1 : Fld) (i1 j1 : Nat) : (s.setBoot g).fb f1 i1 j1 = s.fb f1 i1 j1 := rfl
@[simp] theorem State.fb_setCfg_o (g : Cfg → Cfg) (f1 : Fld) (i1 j1 : Nat) : (s.setCfg g).fb f1 i1 j1 = s.fb f1 i1 j1 := rfl
@[simp] theorem State.tag_setRg_o (r : RegName) (i j : Nat) (w : BitVec 64) (n1 q1 : Nat) : (s.setRg r i j w).tag n1 q1 = s.tag n1 q1 := rfl
@[simp] theorem State.tag_setF_o (f : Fld) (i j v : Nat) (n1 q1 : Nat) : (s.setF f i j v).tag n1 q1 = s.tag n1 q1 := rfl
@[simp] theorem State.tag_setB_o (f : Fld) (i j : Nat) (b : Bool) (n1 q1 : Nat) : (s.setB f i j b).tag n1 q1 = s.tag n1 q1 := rfl
@[simp] theorem State.tag_count_o (f : Fld) (i j n : Nat) (n1 q1 : Nat) : (s.count f i j n).tag n1 q1 = s.tag n1 q1 := rfl
@[simp] theorem State.tag_setKit_o (k : Nat) (g : Kit → Kit) (n1 q1 : Nat) : (s.setKit k g).tag n1 q1 = s.tag n1 q1 := rfl
@[simp] theorem State.tag_setDrum_o (k d : Nat) (g : Drum → Drum) (n1 q1 : Nat) : (s.setDrum k d g).tag n1 q1 = s.tag n1 q1 := rfl
@[simp] theorem State.tag_setMallet_o (k d m : Nat) (g : Mallet → Mallet) (n1 q1 : Nat) : (s.setMallet k d m g).tag n1 q1 = s.tag n1 q1 := rfl
@[simp] theorem State.tag_setPart_o (p : Nat) (g : Part → Part) (n1 q1 : Nat) : (s.setPart p g).tag n1 q1 = s.tag n1 q1 := rfl
@[simp] theorem State.tag_setCtx_o (u : CtxId) (g : Ctx → Ctx) (n1 q1 : Nat) : (s.setCtx u g).tag n1 q1 = s.tag n1 q1 := rfl
@[simp] theorem State.tag_setTile_o (u : CtxId) (n : Nat) (x : Tile) (n1 q1 : Nat) : (s.setTile u n x).tag n1 q1 = s.tag n1 q1 := rfl
@[simp] theorem State.tag_setAcc_o (u : CtxId) (n : Nat) (x : Acc) (n1 q1 : Nat) : (s.setAcc u n x).tag n1 q1 = s.tag n1 q1 := rfl
@[simp] theorem State.tag_fresh_o (n1 q1 : Nat) : (s.fresh).tag n1 q1 = s.tag n1 q1 := rfl
@[simp] theorem State.tag_setXfer_o (n : Nat) (x : Xfer) (n1 q1 : Nat) : (s.setXfer n x).tag n1 q1 = s.tag n1 q1 := rfl
@[simp] theorem State.tag_setFlash_o (g : Flash → Flash) (n1 q1 : Nat) : (s.setFlash g).tag n1 q1 = s.tag n1 q1 := rfl
@[simp] theorem State.tag_setKv_o (g : Kv → Kv) (n1 q1 : Nat) : (s.setKv g).tag n1 q1 = s.tag n1 q1 := rfl
@[simp] theorem State.tag_setServe_o (g : Serve → Serve) (n1 q1 : Nat) : (s.setServe g).tag n1 q1 = s.tag n1 q1 := rfl
@[simp] theorem State.tag_setTrn_o (g : Transit → Transit) (n1 q1 : Nat) : (s.setTrn g).tag n1 q1 = s.tag n1 q1 := rfl
@[simp] theorem State.tag_setPair_o (g : Pair → Pair) (n1 q1 : Nat) : (s.setPair g).tag n1 q1 = s.tag n1 q1 := rfl
@[simp] theorem State.tag_setInteg_o (g : Integ → Integ) (n1 q1 : Nat) : (s.setInteg g).tag n1 q1 = s.tag n1 q1 := rfl
@[simp] theorem State.tag_setHost_o (g : HostPort → HostPort) (n1 q1 : Nat) : (s.setHost g).tag n1 q1 = s.tag n1 q1 := rfl
@[simp] theorem State.tag_setBoot_o (g : Boot → Boot) (n1 q1 : Nat) : (s.setBoot g).tag n1 q1 = s.tag n1 q1 := rfl
@[simp] theorem State.tag_setCfg_o (g : Cfg → Cfg) (n1 q1 : Nat) : (s.setCfg g).tag n1 q1 = s.tag n1 q1 := rfl
@[simp] theorem State.xfer_setRg_o (r : RegName) (i j : Nat) (w : BitVec 64) (x1 : Nat) : (s.setRg r i j w).xfer x1 = s.xfer x1 := rfl
@[simp] theorem State.xfer_setF_o (f : Fld) (i j v : Nat) (x1 : Nat) : (s.setF f i j v).xfer x1 = s.xfer x1 := rfl
@[simp] theorem State.xfer_setB_o (f : Fld) (i j : Nat) (b : Bool) (x1 : Nat) : (s.setB f i j b).xfer x1 = s.xfer x1 := rfl
@[simp] theorem State.xfer_count_o (f : Fld) (i j n : Nat) (x1 : Nat) : (s.count f i j n).xfer x1 = s.xfer x1 := rfl
@[simp] theorem State.xfer_setKit_o (k : Nat) (g : Kit → Kit) (x1 : Nat) : (s.setKit k g).xfer x1 = s.xfer x1 := rfl
@[simp] theorem State.xfer_setDrum_o (k d : Nat) (g : Drum → Drum) (x1 : Nat) : (s.setDrum k d g).xfer x1 = s.xfer x1 := rfl
@[simp] theorem State.xfer_setMallet_o (k d m : Nat) (g : Mallet → Mallet) (x1 : Nat) : (s.setMallet k d m g).xfer x1 = s.xfer x1 := rfl
@[simp] theorem State.xfer_setPart_o (p : Nat) (g : Part → Part) (x1 : Nat) : (s.setPart p g).xfer x1 = s.xfer x1 := rfl
@[simp] theorem State.xfer_setCtx_o (u : CtxId) (g : Ctx → Ctx) (x1 : Nat) : (s.setCtx u g).xfer x1 = s.xfer x1 := rfl
@[simp] theorem State.xfer_setTile_o (u : CtxId) (n : Nat) (x : Tile) (x1 : Nat) : (s.setTile u n x).xfer x1 = s.xfer x1 := rfl
@[simp] theorem State.xfer_setAcc_o (u : CtxId) (n : Nat) (x : Acc) (x1 : Nat) : (s.setAcc u n x).xfer x1 = s.xfer x1 := rfl
@[simp] theorem State.xfer_fresh_o (x1 : Nat) : (s.fresh).xfer x1 = s.xfer x1 := rfl
@[simp] theorem State.xfer_setTag_o (n q : Nat) (x : Tag) (x1 : Nat) : (s.setTag n q x).xfer x1 = s.xfer x1 := rfl
@[simp] theorem State.xfer_setFab_o (g : Fabric → Fabric) (x1 : Nat) : (s.setFab g).xfer x1 = s.xfer x1 := rfl
@[simp] theorem State.xfer_setFlash_o (g : Flash → Flash) (x1 : Nat) : (s.setFlash g).xfer x1 = s.xfer x1 := rfl
@[simp] theorem State.xfer_setKv_o (g : Kv → Kv) (x1 : Nat) : (s.setKv g).xfer x1 = s.xfer x1 := rfl
@[simp] theorem State.xfer_setServe_o (g : Serve → Serve) (x1 : Nat) : (s.setServe g).xfer x1 = s.xfer x1 := rfl
@[simp] theorem State.xfer_setTrn_o (g : Transit → Transit) (x1 : Nat) : (s.setTrn g).xfer x1 = s.xfer x1 := rfl
@[simp] theorem State.xfer_setPair_o (g : Pair → Pair) (x1 : Nat) : (s.setPair g).xfer x1 = s.xfer x1 := rfl
@[simp] theorem State.xfer_setInteg_o (g : Integ → Integ) (x1 : Nat) : (s.setInteg g).xfer x1 = s.xfer x1 := rfl
@[simp] theorem State.xfer_setHost_o (g : HostPort → HostPort) (x1 : Nat) : (s.setHost g).xfer x1 = s.xfer x1 := rfl
@[simp] theorem State.xfer_setBoot_o (g : Boot → Boot) (x1 : Nat) : (s.setBoot g).xfer x1 = s.xfer x1 := rfl
@[simp] theorem State.xfer_setCfg_o (g : Cfg → Cfg) (x1 : Nat) : (s.setCfg g).xfer x1 = s.xfer x1 := rfl
@[simp] theorem State.node_setKit_o (k : Nat) (g : Kit → Kit) : (s.setKit k g).node = s.node := rfl
@[simp] theorem State.node_setDrum_o (k d : Nat) (g : Drum → Drum) : (s.setDrum k d g).node = s.node := rfl
@[simp] theorem State.node_setMallet_o (k d m : Nat) (g : Mallet → Mallet) : (s.setMallet k d m g).node = s.node := rfl
@[simp] theorem State.node_setPart_o (p : Nat) (g : Part → Part) : (s.setPart p g).node = s.node := rfl
@[simp] theorem State.node_setCtx_o (u : CtxId) (g : Ctx → Ctx) : (s.setCtx u g).node = s.node := rfl
@[simp] theorem State.node_setTile_o (u : CtxId) (n : Nat) (x : Tile) : (s.setTile u n x).node = s.node := rfl
@[simp] theorem State.node_setAcc_o (u : CtxId) (n : Nat) (x : Acc) : (s.setAcc u n x).node = s.node := rfl
@[simp] theorem State.node_fresh_o : (s.fresh).node = s.node := rfl
@[simp] theorem State.node_setXfer_o (n : Nat) (x : Xfer) : (s.setXfer n x).node = s.node := rfl
@[simp] theorem State.node_setTag_o (n q : Nat) (x : Tag) : (s.setTag n q x).node = s.node := rfl
@[simp] theorem State.node_setFab_o (g : Fabric → Fabric) : (s.setFab g).node = s.node := rfl
@[simp] theorem State.node_setFlash_o (g : Flash → Flash) : (s.setFlash g).node = s.node := rfl
@[simp] theorem State.node_setKv_o (g : Kv → Kv) : (s.setKv g).node = s.node := rfl
@[simp] theorem State.node_setServe_o (g : Serve → Serve) : (s.setServe g).node = s.node := rfl
@[simp] theorem State.node_setTrn_o (g : Transit → Transit) : (s.setTrn g).node = s.node := rfl
@[simp] theorem State.node_setPair_o (g : Pair → Pair) : (s.setPair g).node = s.node := rfl
@[simp] theorem State.node_setInteg_o (g : Integ → Integ) : (s.setInteg g).node = s.node := rfl
@[simp] theorem State.node_setHost_o (g : HostPort → HostPort) : (s.setHost g).node = s.node := rfl
@[simp] theorem State.node_setBoot_o (g : Boot → Boot) : (s.setBoot g).node = s.node := rfl
@[simp] theorem State.node_setCfg_o (g : Cfg → Cfg) : (s.setCfg g).node = s.node := rfl
@[simp] theorem State.time_setKit_o (k : Nat) (g : Kit → Kit) : (s.setKit k g).time = s.time := rfl
@[simp] theorem State.time_setDrum_o (k d : Nat) (g : Drum → Drum) : (s.setDrum k d g).time = s.time := rfl
@[simp] theorem State.time_setMallet_o (k d m : Nat) (g : Mallet → Mallet) : (s.setMallet k d m g).time = s.time := rfl
@[simp] theorem State.time_setPart_o (p : Nat) (g : Part → Part) : (s.setPart p g).time = s.time := rfl
@[simp] theorem State.time_setCtx_o (u : CtxId) (g : Ctx → Ctx) : (s.setCtx u g).time = s.time := rfl
@[simp] theorem State.time_setTile_o (u : CtxId) (n : Nat) (x : Tile) : (s.setTile u n x).time = s.time := rfl
@[simp] theorem State.time_setAcc_o (u : CtxId) (n : Nat) (x : Acc) : (s.setAcc u n x).time = s.time := rfl
@[simp] theorem State.time_fresh_o : (s.fresh).time = s.time := rfl
@[simp] theorem State.time_setXfer_o (n : Nat) (x : Xfer) : (s.setXfer n x).time = s.time := rfl
@[simp] theorem State.time_setTag_o (n q : Nat) (x : Tag) : (s.setTag n q x).time = s.time := rfl
@[simp] theorem State.time_setFab_o (g : Fabric → Fabric) : (s.setFab g).time = s.time := rfl
@[simp] theorem State.time_setFlash_o (g : Flash → Flash) : (s.setFlash g).time = s.time := rfl
@[simp] theorem State.time_setKv_o (g : Kv → Kv) : (s.setKv g).time = s.time := rfl
@[simp] theorem State.time_setServe_o (g : Serve → Serve) : (s.setServe g).time = s.time := rfl
@[simp] theorem State.time_setTrn_o (g : Transit → Transit) : (s.setTrn g).time = s.time := rfl
@[simp] theorem State.time_setPair_o (g : Pair → Pair) : (s.setPair g).time = s.time := rfl
@[simp] theorem State.time_setInteg_o (g : Integ → Integ) : (s.setInteg g).time = s.time := rfl
@[simp] theorem State.time_setHost_o (g : HostPort → HostPort) : (s.setHost g).time = s.time := rfl
@[simp] theorem State.time_setBoot_o (g : Boot → Boot) : (s.setBoot g).time = s.time := rfl
@[simp] theorem State.time_setCfg_o (g : Cfg → Cfg) : (s.setCfg g).time = s.time := rfl
@[simp] theorem State.stepState_setKit_o (k : Nat) (g : Kit → Kit) (p1 : Nat) : (s.setKit k g).stepState p1 = s.stepState p1 := rfl
@[simp] theorem State.stepState_setDrum_o (k d : Nat) (g : Drum → Drum) (p1 : Nat) : (s.setDrum k d g).stepState p1 = s.stepState p1 := rfl
@[simp] theorem State.stepState_setMallet_o (k d m : Nat) (g : Mallet → Mallet) (p1 : Nat) : (s.setMallet k d m g).stepState p1 = s.stepState p1 := rfl
@[simp] theorem State.stepState_setPart_o (p : Nat) (g : Part → Part) (p1 : Nat) : (s.setPart p g).stepState p1 = s.stepState p1 := rfl
@[simp] theorem State.stepState_setCtx_o (u : CtxId) (g : Ctx → Ctx) (p1 : Nat) : (s.setCtx u g).stepState p1 = s.stepState p1 := rfl
@[simp] theorem State.stepState_setTile_o (u : CtxId) (n : Nat) (x : Tile) (p1 : Nat) : (s.setTile u n x).stepState p1 = s.stepState p1 := rfl
@[simp] theorem State.stepState_setAcc_o (u : CtxId) (n : Nat) (x : Acc) (p1 : Nat) : (s.setAcc u n x).stepState p1 = s.stepState p1 := rfl
@[simp] theorem State.stepState_fresh_o (p1 : Nat) : (s.fresh).stepState p1 = s.stepState p1 := rfl
@[simp] theorem State.stepState_setXfer_o (n : Nat) (x : Xfer) (p1 : Nat) : (s.setXfer n x).stepState p1 = s.stepState p1 := rfl
@[simp] theorem State.stepState_setTag_o (n q : Nat) (x : Tag) (p1 : Nat) : (s.setTag n q x).stepState p1 = s.stepState p1 := rfl
@[simp] theorem State.stepState_setFab_o (g : Fabric → Fabric) (p1 : Nat) : (s.setFab g).stepState p1 = s.stepState p1 := rfl
@[simp] theorem State.stepState_setFlash_o (g : Flash → Flash) (p1 : Nat) : (s.setFlash g).stepState p1 = s.stepState p1 := rfl
@[simp] theorem State.stepState_setKv_o (g : Kv → Kv) (p1 : Nat) : (s.setKv g).stepState p1 = s.stepState p1 := rfl
@[simp] theorem State.stepState_setServe_o (g : Serve → Serve) (p1 : Nat) : (s.setServe g).stepState p1 = s.stepState p1 := rfl
@[simp] theorem State.stepState_setTrn_o (g : Transit → Transit) (p1 : Nat) : (s.setTrn g).stepState p1 = s.stepState p1 := rfl
@[simp] theorem State.stepState_setPair_o (g : Pair → Pair) (p1 : Nat) : (s.setPair g).stepState p1 = s.stepState p1 := rfl
@[simp] theorem State.stepState_setInteg_o (g : Integ → Integ) (p1 : Nat) : (s.setInteg g).stepState p1 = s.stepState p1 := rfl
@[simp] theorem State.stepState_setHost_o (g : HostPort → HostPort) (p1 : Nat) : (s.setHost g).stepState p1 = s.stepState p1 := rfl
@[simp] theorem State.stepState_setBoot_o (g : Boot → Boot) (p1 : Nat) : (s.setBoot g).stepState p1 = s.stepState p1 := rfl
@[simp] theorem State.stepState_setCfg_o (g : Cfg → Cfg) (p1 : Nat) : (s.setCfg g).stepState p1 = s.stepState p1 := rfl

-- ===== Events =====

@[simp] theorem State.pushEv_pending (src : Nat) (e : EvRec) : (s.pushEv src e).pending = s.pending := by
  simp only [State.pushEv]; split <;> rfl
@[simp] theorem State.log_pending (src : Nat) (e : EvName) (l : List Nat) (p u : Option Nat) (b : Bool) : (s.log src e l p u b).pending = s.pending := s.pushEv_pending _ _
@[simp] theorem State.pushEv_staged (src : Nat) (e : EvRec) : (s.pushEv src e).staged = s.staged := by
  simp only [State.pushEv]; split <;> rfl
@[simp] theorem State.log_staged (src : Nat) (e : EvName) (l : List Nat) (p u : Option Nat) (b : Bool) : (s.log src e l p u b).staged = s.staged := s.pushEv_staged _ _
@[simp] theorem State.pushEv_previous (src : Nat) (e : EvRec) : (s.pushEv src e).previous = s.previous := by
  simp only [State.pushEv]; split <;> rfl
@[simp] theorem State.log_previous (src : Nat) (e : EvName) (l : List Nat) (p u : Option Nat) (b : Bool) : (s.log src e l p u b).previous = s.previous := s.pushEv_previous _ _
@[simp] theorem State.pushEv_mem (src : Nat) (e : EvRec) : (s.pushEv src e).mem = s.mem := by
  simp only [State.pushEv]; split <;> rfl
@[simp] theorem State.log_mem (src : Nat) (e : EvName) (l : List Nat) (p u : Option Nat) (b : Bool) : (s.log src e l p u b).mem = s.mem := s.pushEv_mem _ _
@[simp] theorem State.pushEv_flash (src : Nat) (e : EvRec) : (s.pushEv src e).flash = s.flash := by
  simp only [State.pushEv]; split <;> rfl
@[simp] theorem State.log_flash (src : Nat) (e : EvName) (l : List Nat) (p u : Option Nat) (b : Bool) : (s.log src e l p u b).flash = s.flash := s.pushEv_flash _ _
@[simp] theorem State.pushEv_boot (src : Nat) (e : EvRec) : (s.pushEv src e).boot = s.boot := by
  simp only [State.pushEv]; split <;> rfl
@[simp] theorem State.log_boot (src : Nat) (e : EvName) (l : List Nat) (p u : Option Nat) (b : Bool) : (s.log src e l p u b).boot = s.boot := s.pushEv_boot _ _
@[simp] theorem State.pushEv_cfg (src : Nat) (e : EvRec) : (s.pushEv src e).cfg = s.cfg := by
  simp only [State.pushEv]; split <;> rfl
@[simp] theorem State.log_cfg (src : Nat) (e : EvName) (l : List Nat) (p u : Option Nat) (b : Bool) : (s.log src e l p u b).cfg = s.cfg := s.pushEv_cfg _ _
@[simp] theorem State.pushEv_host (src : Nat) (e : EvRec) : (s.pushEv src e).host = s.host := by
  simp only [State.pushEv]; split <;> rfl
@[simp] theorem State.log_host (src : Nat) (e : EvName) (l : List Nat) (p u : Option Nat) (b : Bool) : (s.log src e l p u b).host = s.host := s.pushEv_host _ _
@[simp] theorem State.pushEv_mgmt (src : Nat) (e : EvRec) : (s.pushEv src e).mgmt = s.mgmt := by
  simp only [State.pushEv]; split <;> rfl
@[simp] theorem State.log_mgmt (src : Nat) (e : EvName) (l : List Nat) (p u : Option Nat) (b : Bool) : (s.log src e l p u b).mgmt = s.mgmt := s.pushEv_mgmt _ _
@[simp] theorem State.pushEv_power (src : Nat) (e : EvRec) : (s.pushEv src e).power = s.power := by
  simp only [State.pushEv]; split <;> rfl
@[simp] theorem State.log_power (src : Nat) (e : EvName) (l : List Nat) (p u : Option Nat) (b : Bool) : (s.log src e l p u b).power = s.power := s.pushEv_power _ _
@[simp] theorem State.pushEv_kits (src : Nat) (e : EvRec) : (s.pushEv src e).kits = s.kits := by
  simp only [State.pushEv]; split <;> rfl
@[simp] theorem State.log_kits (src : Nat) (e : EvName) (l : List Nat) (p u : Option Nat) (b : Bool) : (s.log src e l p u b).kits = s.kits := s.pushEv_kits _ _
@[simp] theorem State.pushEv_drums (src : Nat) (e : EvRec) : (s.pushEv src e).drums = s.drums := by
  simp only [State.pushEv]; split <;> rfl
@[simp] theorem State.log_drums (src : Nat) (e : EvName) (l : List Nat) (p u : Option Nat) (b : Bool) : (s.log src e l p u b).drums = s.drums := s.pushEv_drums _ _
@[simp] theorem State.pushEv_mallets (src : Nat) (e : EvRec) : (s.pushEv src e).mallets = s.mallets := by
  simp only [State.pushEv]; split <;> rfl
@[simp] theorem State.log_mallets (src : Nat) (e : EvName) (l : List Nat) (p u : Option Nat) (b : Bool) : (s.log src e l p u b).mallets = s.mallets := s.pushEv_mallets _ _
@[simp] theorem State.pushEv_parts (src : Nat) (e : EvRec) : (s.pushEv src e).parts = s.parts := by
  simp only [State.pushEv]; split <;> rfl
@[simp] theorem State.log_parts (src : Nat) (e : EvName) (l : List Nat) (p u : Option Nat) (b : Bool) : (s.log src e l p u b).parts = s.parts := s.pushEv_parts _ _
@[simp] theorem State.pushEv_xfers (src : Nat) (e : EvRec) : (s.pushEv src e).xfers = s.xfers := by
  simp only [State.pushEv]; split <;> rfl
@[simp] theorem State.log_xfers (src : Nat) (e : EvName) (l : List Nat) (p u : Option Nat) (b : Bool) : (s.log src e l p u b).xfers = s.xfers := s.pushEv_xfers _ _
@[simp] theorem State.pushEv_nextXfer (src : Nat) (e : EvRec) : (s.pushEv src e).nextXfer = s.nextXfer := by
  simp only [State.pushEv]; split <;> rfl
@[simp] theorem State.log_nextXfer (src : Nat) (e : EvName) (l : List Nat) (p u : Option Nat) (b : Bool) : (s.log src e l p u b).nextXfer = s.nextXfer := s.pushEv_nextXfer _ _
@[simp] theorem State.pushEv_fab (src : Nat) (e : EvRec) : (s.pushEv src e).fab = s.fab := by
  simp only [State.pushEv]; split <;> rfl
@[simp] theorem State.log_fab (src : Nat) (e : EvName) (l : List Nat) (p u : Option Nat) (b : Bool) : (s.log src e l p u b).fab = s.fab := s.pushEv_fab _ _
@[simp] theorem State.pushEv_out (src : Nat) (e : EvRec) : (s.pushEv src e).out = s.out := by
  simp only [State.pushEv]; split <;> rfl
@[simp] theorem State.log_out (src : Nat) (e : EvName) (l : List Nat) (p u : Option Nat) (b : Bool) : (s.log src e l p u b).out = s.out := s.pushEv_out _ _
@[simp] theorem State.pushEv_freeCtr (src : Nat) (e : EvRec) : (s.pushEv src e).freeCtr = s.freeCtr := by
  simp only [State.pushEv]; split <;> rfl
@[simp] theorem State.log_freeCtr (src : Nat) (e : EvName) (l : List Nat) (p u : Option Nat) (b : Bool) : (s.log src e l p u b).freeCtr = s.freeCtr := s.pushEv_freeCtr _ _
@[simp] theorem State.pushEv_integ (src : Nat) (e : EvRec) : (s.pushEv src e).integ = s.integ := by
  simp only [State.pushEv]; split <;> rfl
@[simp] theorem State.log_integ (src : Nat) (e : EvName) (l : List Nat) (p u : Option Nat) (b : Bool) : (s.log src e l p u b).integ = s.integ := s.pushEv_integ _ _
@[simp] theorem State.pushEv_pair (src : Nat) (e : EvRec) : (s.pushEv src e).pair = s.pair := by
  simp only [State.pushEv]; split <;> rfl
@[simp] theorem State.log_pair (src : Nat) (e : EvName) (l : List Nat) (p u : Option Nat) (b : Bool) : (s.log src e l p u b).pair = s.pair := s.pushEv_pair _ _
@[simp] theorem State.pushEv_used (src : Nat) (e : EvRec) : (s.pushEv src e).used = s.used := by
  simp only [State.pushEv]; split <;> rfl
@[simp] theorem State.log_used (src : Nat) (e : EvName) (l : List Nat) (p u : Option Nat) (b : Bool) : (s.log src e l p u b).used = s.used := s.pushEv_used _ _
@[simp] theorem State.pushEv_due (src : Nat) (e : EvRec) : (s.pushEv src e).due = s.due := by
  simp only [State.pushEv]; split <;> rfl
@[simp] theorem State.log_due (src : Nat) (e : EvName) (l : List Nat) (p u : Option Nat) (b : Bool) : (s.log src e l p u b).due = s.due := s.pushEv_due _ _
@[simp] theorem State.pushEv_streamEnd (src : Nat) (e : EvRec) : (s.pushEv src e).streamEnd = s.streamEnd := by
  simp only [State.pushEv]; split <;> rfl
@[simp] theorem State.log_streamEnd (src : Nat) (e : EvName) (l : List Nat) (p u : Option Nat) (b : Bool) : (s.log src e l p u b).streamEnd = s.streamEnd := s.pushEv_streamEnd _ _
@[simp] theorem State.pushEv_shortCap (src : Nat) (e : EvRec) : (s.pushEv src e).shortCap = s.shortCap := by
  simp only [State.pushEv]; split <;> rfl
@[simp] theorem State.log_shortCap (src : Nat) (e : EvName) (l : List Nat) (p u : Option Nat) (b : Bool) : (s.log src e l p u b).shortCap = s.shortCap := s.pushEv_shortCap _ _
@[simp] theorem State.pushEv_latchHi (src : Nat) (e : EvRec) : (s.pushEv src e).latchHi = s.latchHi := by
  simp only [State.pushEv]; split <;> rfl
@[simp] theorem State.log_latchHi (src : Nat) (e : EvName) (l : List Nat) (p u : Option Nat) (b : Bool) : (s.log src e l p u b).latchHi = s.latchHi := s.pushEv_latchHi _ _
@[simp] theorem State.pushEv_acctRem (src : Nat) (e : EvRec) : (s.pushEv src e).acctRem = s.acctRem := by
  simp only [State.pushEv]; split <;> rfl
@[simp] theorem State.log_acctRem (src : Nat) (e : EvName) (l : List Nat) (p u : Option Nat) (b : Bool) : (s.log src e l p u b).acctRem = s.acctRem := s.pushEv_acctRem _ _
@[simp] theorem State.pushEv_polls (src : Nat) (e : EvRec) : (s.pushEv src e).polls = s.polls := by
  simp only [State.pushEv]; split <;> rfl
@[simp] theorem State.pushEv_jobs (src : Nat) (e : EvRec) : (s.pushEv src e).jobs = s.jobs := by
  simp only [State.pushEv]; split <;> rfl
@[simp] theorem State.log_polls (src : Nat) (e : EvName) (l : List Nat) (p u : Option Nat) (b : Bool) : (s.log src e l p u b).polls = s.polls := s.pushEv_polls _ _
@[simp] theorem State.log_jobs (src : Nat) (e : EvName) (l : List Nat) (p u : Option Nat) (b : Bool) : (s.log src e l p u b).jobs = s.jobs := s.pushEv_jobs _ _
@[simp] theorem State.pushEv_kv (src : Nat) (e : EvRec) : (s.pushEv src e).kv = s.kv := by
  simp only [State.pushEv]; split <;> rfl
@[simp] theorem State.log_kv (src : Nat) (e : EvName) (l : List Nat) (p u : Option Nat) (b : Bool) : (s.log src e l p u b).kv = s.kv := s.pushEv_kv _ _
@[simp] theorem State.pushEv_serve (src : Nat) (e : EvRec) : (s.pushEv src e).serve = s.serve := by
  simp only [State.pushEv]; split <;> rfl
@[simp] theorem State.log_serve (src : Nat) (e : EvName) (l : List Nat) (p u : Option Nat) (b : Bool) : (s.log src e l p u b).serve = s.serve := s.pushEv_serve _ _
@[simp] theorem State.pushEv_trn (src : Nat) (e : EvRec) : (s.pushEv src e).trn = s.trn := by
  simp only [State.pushEv]; split <;> rfl
@[simp] theorem State.log_trn (src : Nat) (e : EvName) (l : List Nat) (p u : Option Nat) (b : Bool) : (s.log src e l p u b).trn = s.trn := s.pushEv_trn _ _
@[simp] theorem State.pushEv_discards (src : Nat) (e : EvRec) : (s.pushEv src e).discards = s.discards := by
  simp only [State.pushEv]; split <;> rfl
@[simp] theorem State.log_discards (src : Nat) (e : EvName) (l : List Nat) (p u : Option Nat) (b : Bool) : (s.log src e l p u b).discards = s.discards := s.pushEv_discards _ _
@[simp] theorem State.pushEv_saves (src : Nat) (e : EvRec) : (s.pushEv src e).saves = s.saves := by
  simp only [State.pushEv]; split <;> rfl
@[simp] theorem State.log_saves (src : Nat) (e : EvName) (l : List Nat) (p u : Option Nat) (b : Bool) : (s.log src e l p u b).saves = s.saves := s.pushEv_saves _ _
@[simp] theorem State.drum_log (k1 d1 : Nat) (src : Nat) (e : EvName) (l : List Nat) (p u : Option Nat) (b : Bool) : (s.log src e l p u b).drum k1 d1 = s.drum k1 d1 := by
  simp only [State.drum, State.log_drums]
@[simp] theorem State.drum_pushEv (k1 d1 : Nat) (src : Nat) (e : EvRec) : (s.pushEv src e).drum k1 d1 = s.drum k1 d1 := by
  simp only [State.drum, State.pushEv_drums]
@[simp] theorem State.kit_log (k1 : Nat) (src : Nat) (e : EvName) (l : List Nat) (p u : Option Nat) (b : Bool) : (s.log src e l p u b).kit k1 = s.kit k1 := by
  simp only [State.kit, State.log_kits]
@[simp] theorem State.kit_pushEv (k1 : Nat) (src : Nat) (e : EvRec) : (s.pushEv src e).kit k1 = s.kit k1 := by
  simp only [State.kit, State.pushEv_kits]
@[simp] theorem State.part_log (p1 : Nat) (src : Nat) (e : EvName) (l : List Nat) (p u : Option Nat) (b : Bool) : (s.log src e l p u b).part p1 = s.part p1 := by
  simp only [State.part, State.log_parts]
@[simp] theorem State.part_pushEv (p1 : Nat) (src : Nat) (e : EvRec) : (s.pushEv src e).part p1 = s.part p1 := by
  simp only [State.part, State.pushEv_parts]
@[simp] theorem State.mallet_log (k1 d1 m1 : Nat) (src : Nat) (e : EvName) (l : List Nat) (p u : Option Nat) (b : Bool) : (s.log src e l p u b).mallet k1 d1 m1 = s.mallet k1 d1 m1 := by
  simp only [State.mallet, State.log_mallets]
@[simp] theorem State.mallet_pushEv (k1 d1 m1 : Nat) (src : Nat) (e : EvRec) : (s.pushEv src e).mallet k1 d1 m1 = s.mallet k1 d1 m1 := by
  simp only [State.mallet, State.pushEv_mallets]
@[simp] theorem State.ctx_log (u1 : CtxId) (src : Nat) (e : EvName) (l : List Nat) (p u : Option Nat) (b : Bool) : (s.log src e l p u b).ctx u1 = s.ctx u1 := by
  simp only [State.ctx, State.mallet, State.log_mallets]
@[simp] theorem State.ctx_pushEv (u1 : CtxId) (src : Nat) (e : EvRec) : (s.pushEv src e).ctx u1 = s.ctx u1 := by
  simp only [State.ctx, State.mallet, State.pushEv_mallets]
@[simp] theorem State.tile_log (u1 : CtxId) (n1 : Nat) (src : Nat) (e : EvName) (l : List Nat) (p u : Option Nat) (b : Bool) : (s.log src e l p u b).tile u1 n1 = s.tile u1 n1 := by
  simp only [State.tile, State.mallet, State.log_mallets]
@[simp] theorem State.tile_pushEv (u1 : CtxId) (n1 : Nat) (src : Nat) (e : EvRec) : (s.pushEv src e).tile u1 n1 = s.tile u1 n1 := by
  simp only [State.tile, State.mallet, State.pushEv_mallets]
@[simp] theorem State.acc_log (u1 : CtxId) (n1 : Nat) (src : Nat) (e : EvName) (l : List Nat) (p u : Option Nat) (b : Bool) : (s.log src e l p u b).acc u1 n1 = s.acc u1 n1 := by
  simp only [State.acc, State.mallet, State.log_mallets]
@[simp] theorem State.acc_pushEv (u1 : CtxId) (n1 : Nat) (src : Nat) (e : EvRec) : (s.pushEv src e).acc u1 n1 = s.acc u1 n1 := by
  simp only [State.acc, State.mallet, State.pushEv_mallets]
@[simp] theorem State.tag_log (n1 q1 : Nat) (src : Nat) (e : EvName) (l : List Nat) (p u : Option Nat) (b : Bool) : (s.log src e l p u b).tag n1 q1 = s.tag n1 q1 := by
  simp only [State.tag, State.log_fab]
@[simp] theorem State.tag_pushEv (n1 q1 : Nat) (src : Nat) (e : EvRec) : (s.pushEv src e).tag n1 q1 = s.tag n1 q1 := by
  simp only [State.tag, State.pushEv_fab]
@[simp] theorem State.xfer_log (x1 : Nat) (src : Nat) (e : EvName) (l : List Nat) (p u : Option Nat) (b : Bool) : (s.log src e l p u b).xfer x1 = s.xfer x1 := by
  simp only [State.xfer, State.log_xfers]
@[simp] theorem State.xfer_pushEv (x1 : Nat) (src : Nat) (e : EvRec) : (s.pushEv src e).xfer x1 = s.xfer x1 := by
  simp only [State.xfer, State.pushEv_xfers]

-- ===== Units =====

@[simp] theorem State.fresh_freeCtr : s.fresh.freeCtr = s.freeCtr + 1 := rfl

@[simp] theorem State.kit_setKit (k j : Nat) (g : Kit → Kit) : (s.setKit k g).kit j = if j = k then g (s.kit k) else s.kit j := by
  simp only [State.kit, State.setKit, mupd, mget_mput]

@[simp] theorem State.part_setPart (p q : Nat) (g : Part → Part) :
    (s.setPart p g).part q = if q = p then g (s.part p) else s.part q := by
  simp only [State.part, State.setPart, mupd, mget_mput]

@[simp] theorem State.drum_setDrum (k d : Nat) (g : Drum → Drum) : (s.setDrum k d g).drum k d = g (s.drum k d) := by
  simp [State.drum, State.setDrum, mupd]

theorem State.drum_setDrum_ne (k d k' d' : Nat) (g : Drum → Drum) (h : drumKey k' d' ≠ drumKey k d) :
    (s.setDrum k d g).drum k' d' = s.drum k' d' := by
  simp [State.drum, State.setDrum, mupd, h]

@[simp] theorem State.mallet_setMallet (k d m : Nat) (g : Mallet → Mallet) : (s.setMallet k d m g).mallet k d m = g (s.mallet k d m) := by
  simp [State.mallet, State.setMallet, mupd]

@[simp] theorem State.ctx_setCtx (u : CtxId) (g : Ctx → Ctx) : (s.setCtx u g).ctx u = g (s.ctx u) := by
  simp [State.ctx, State.setCtx, mupd]

@[simp] theorem State.tile_setCtx (u : CtxId) (g : Ctx → Ctx) (n : Nat) : (s.setCtx u g).tile u n = s.tile u n := by
  simp [State.tile, State.setCtx]

@[simp] theorem State.acc_setCtx (u : CtxId) (g : Ctx → Ctx) (n : Nat) : (s.setCtx u g).acc u n = s.acc u n := by
  simp [State.acc, State.setCtx]

@[simp] theorem State.ctx_setTile (u : CtxId) (n : Nat) (x : Tile) : (s.setTile u n x).ctx u = s.ctx u := by
  simp [State.ctx, State.setTile]

@[simp] theorem State.tile_setTile (u : CtxId) (n j : Nat) (x : Tile) : (s.setTile u n x).tile u j = if j = n then x else s.tile u j := by
  simp [State.tile, State.setTile]

@[simp] theorem State.acc_setTile (u : CtxId) (n j : Nat) (x : Tile) : (s.setTile u n x).acc u j = s.acc u j := by
  simp [State.acc, State.setTile]

@[simp] theorem State.ctx_setAcc (u : CtxId) (n : Nat) (x : Acc) : (s.setAcc u n x).ctx u = s.ctx u := by
  simp [State.ctx, State.setAcc]

@[simp] theorem State.tile_setAcc (u : CtxId) (n j : Nat) (x : Acc) : (s.setAcc u n x).tile u j = s.tile u j := by
  simp [State.tile, State.setAcc]

@[simp] theorem State.acc_setAcc (u : CtxId) (n j : Nat) (x : Acc) : (s.setAcc u n x).acc u j = if j = n then x else s.acc u j := by
  simp [State.acc, State.setAcc]

-- ===== Words and fields =====

/-- Replacing bits [lo + n - 1 : lo], bit by bit. -/
theorem testBit_setBits (w lo n v i : Nat) :
    (setBits w lo n v).testBit i = if lo ≤ i ∧ i < lo + n then v.testBit (i - lo) else w.testBit i := by
  have e : setBits w lo n v = (w / 2 ^ (lo + n)) * 2 ^ (lo + n) + ((v % 2 ^ n) * 2 ^ lo + w % 2 ^ lo) := by
    unfold setBits
    have h1 := Nat.div_add_mod w (2 ^ lo)
    have h2 := Nat.div_add_mod (w / 2 ^ lo) (2 ^ n)
    rw [Nat.div_div_eq_div_mul, ← Nat.pow_add] at h2
    have h3 : w = w / 2 ^ (lo + n) * 2 ^ (lo + n) + (w / 2 ^ lo % 2 ^ n * 2 ^ lo + w % 2 ^ lo) := by
      calc w = 2 ^ lo * (w / 2 ^ lo) + w % 2 ^ lo := h1.symm
        _ = 2 ^ lo * (2 ^ n * (w / 2 ^ (lo + n)) + w / 2 ^ lo % 2 ^ n) + w % 2 ^ lo := by rw [h2]
        _ = _ := by rw [Nat.pow_add]; ring
    generalize w / 2 ^ lo % 2 ^ n * 2 ^ lo = a at h3 ⊢
    generalize w / 2 ^ (lo + n) * 2 ^ (lo + n) = q at h3 ⊢
    generalize v % 2 ^ n * 2 ^ lo = c
    generalize w % 2 ^ lo = l at h3 ⊢
    clear h1 h2
    omega
  have b1 : w % 2 ^ lo < 2 ^ lo := Nat.mod_lt _ (Nat.two_pow_pos _)
  have b2 : v % 2 ^ n * 2 ^ lo + w % 2 ^ lo < 2 ^ (lo + n) := by
    have : v % 2 ^ n < 2 ^ n := Nat.mod_lt _ (Nat.two_pow_pos _)
    rw [Nat.pow_add]
    have := Nat.mul_le_mul_right (2 ^ lo) (Nat.succ_le_of_lt this)
    rw [Nat.succ_mul] at this
    rw [Nat.mul_comm (2 ^ lo) (2 ^ n)]
    omega
  rw [e, Nat.mul_comm, Nat.testBit_two_pow_mul_add _ b2, Nat.mul_comm (v % 2 ^ n), Nat.testBit_two_pow_mul_add _ b1]
  by_cases h1 : i < lo + n
  · by_cases h2 : i < lo
    · have : ¬ lo ≤ i := by omega
      simp [h1, h2, this, Nat.testBit_mod_two_pow]
    · have : lo ≤ i := by omega
      have h3 : i - lo < n := by omega
      simp [h1, h2, this, h3, Nat.testBit_mod_two_pow]
  · have : ¬ (lo ≤ i ∧ i < lo + n) := by omega
    simp only [h1, if_false]
    simp [Nat.testBit_div_two_pow, Nat.sub_add_cancel (Nat.le_of_not_lt h1)]

/-- A field reads what was put into it, cut to its width. -/
theorem Fld.of_put (f : Fld) (w : BitVec 64) (v : Nat) (h : f.lo + f.width ≤ 64) : f.of (f.put w v) = v % 2 ^ f.width := by
  apply Nat.eq_of_testBit_eq
  intro i
  simp only [Fld.of, Fld.put, BitVec.toNat_ofNat, Nat.testBit_mod_two_pow, Nat.testBit_div_two_pow, testBit_setBits]
  by_cases hi : i < f.width
  · have a : i + f.lo < 64 := by omega
    have b : f.lo ≤ i + f.lo ∧ i + f.lo < f.lo + f.width := by omega
    simp [hi, a, b]
  · simp [hi]

/-- A field keeps its value when one that shares no bit with it is written. -/
theorem Fld.of_put_ne (f g : Fld) (w : BitVec 64) (v : Nat) (h : f.lo + f.width ≤ g.lo ∨ g.lo + g.width ≤ f.lo) :
    f.of (g.put w v) = f.of w := by
  apply Nat.eq_of_testBit_eq
  intro i
  simp only [Fld.of, Fld.put, BitVec.toNat_ofNat, Nat.testBit_mod_two_pow, Nat.testBit_div_two_pow, testBit_setBits]
  by_cases hi : i < f.width
  · have b : ¬ (g.lo ≤ i + f.lo ∧ i + f.lo < g.lo + g.width) := by omega
    simp only [hi, b, if_false, decide_true, Bool.true_and]
    by_cases a : i + f.lo < 64
    · simp [a]
    · simp only [a, decide_false, Bool.false_and]
      exact (Nat.testBit_lt_two_pow (Nat.lt_of_lt_of_le w.isLt (Nat.pow_le_pow_right (by omega) (by omega)))).symm
  · simp [hi]

-- ===== Registers =====

@[simp] theorem State.rg_setRg (r : RegName) (i j : Nat) (w : BitVec 64) : (s.setRg r i j w).rg r i j = w := by
  simp [State.rg, State.setRg, storeGet, storePut]

theorem State.rg_setRg_ne (r q : RegName) (i j k l : Nat) (w : BitVec 64) (h : q.off k l ≠ r.off i j) :
    (s.setRg r i j w).rg q k l = s.rg q k l := by
  unfold State.rg State.setRg storeGet storePut mput
  dsimp only
  split
  · rw [mget_mdel, if_neg h]
  · rw [mget_mins, if_neg h]

theorem State.rg_setF_ne (f : Fld) (q : RegName) (i j k l v : Nat) (h : q.off k l ≠ f.reg.off i j) :
    (s.setF f i j v).rg q k l = s.rg q k l := State.rg_setRg_ne _ _ _ _ _ _ _ _ h

/-- A field of a register reads what was written to it. -/
theorem State.f_setF (f : Fld) (i j v : Nat) (h : f.lo + f.width ≤ 64) : (s.setF f i j v).f f i j = v % 2 ^ f.width := by
  simp only [State.f, State.setF, State.rg_setRg]
  exact Fld.of_put _ _ _ h

/-- Another field of the same register keeps its value. -/
theorem State.f_setF_ne (f g : Fld) (i j v : Nat) (e : f.reg = g.reg) (h : f.lo + f.width ≤ g.lo ∨ g.lo + g.width ≤ f.lo) :
    (s.setF g i j v).f f i j = s.f f i j := by
  simp only [State.f, State.setF, e, State.rg_setRg]
  exact Fld.of_put_ne _ _ _ _ h

/-- A field of another register keeps its value. -/
theorem State.f_setF_off (f g : Fld) (i j k l v : Nat) (h : f.reg.off k l ≠ g.reg.off i j) : (s.setF g i j v).f f k l = s.f f k l := by
  simp only [State.f]
  rw [State.rg_setF_ne _ _ _ _ _ _ _ _ h]

/-- A counter adds, and stays at all ones (R501). -/
theorem State.f_count (f : Fld) (i j n : Nat) (h : f.lo + f.width ≤ 64) :
    (s.count f i j n).f f i j = min (s.f f i j + n) (2 ^ f.width - 1) := by
  simp only [State.count]
  rw [State.f_setF _ _ _ _ _ h]
  exact Nat.mod_eq_of_lt (by have := Nat.two_pow_pos f.width; omega)

/-- An event changes no register but the count of lost events (R492). -/
theorem State.rg_pushEv (src : Nat) (e : EvRec) (q : RegName) (i j : Nat) (h : q.off i j ≠ RegName.EVT_LOST.off 0 0) :
    (s.pushEv src e).rg q i j = s.rg q i j := by
  simp only [State.pushEv]
  split
  · exact State.rg_setF_ne s F.EVT_LOST_COUNT q 0 0 i j _ h
  · rfl

theorem State.rg_log (src : Nat) (e : EvName) (l : List Nat) (p u : Option Nat) (b : Bool) (q : RegName) (i j : Nat)
    (h : q.off i j ≠ RegName.EVT_LOST.off 0 0) : (s.log src e l p u b).rg q i j = s.rg q i j := State.rg_pushEv _ _ _ _ _ _ h

theorem State.f_log (src : Nat) (e : EvName) (l : List Nat) (p u : Option Nat) (b : Bool) (f : Fld) (i j : Nat)
    (h : f.reg.off i j ≠ RegName.EVT_LOST.off 0 0) : (s.log src e l p u b).f f i j = s.f f i j := by
  simp only [State.f, State.rg_log s src e l p u b f.reg i j h]

end Sys2Proof.Machine
end

