-- ==== Sys2Proof/Laws/Units.lean ====
section
/-!
SUPPORT. Sys2Proof/Laws/Units.lean: what a read of a mallet, a context, a tile or an accumulator finds after a write of one, and what a fault leaves.
-/
namespace Sys2Proof.Machine

open Sys2Proof (CtxId Fields)

variable (s : State)

theorem State.mallet_setMallet_any (k d m i j n : Nat) (g : Mallet → Mallet) :
    (s.setMallet k d m g).mallet i j n = if malletKey i j n = malletKey k d m then g (s.mallet k d m) else s.mallet i j n := by
  simp only [State.mallet, State.setMallet, mupd, mget_mput]

/-- A part of a mallet that an update keeps reads the same in every mallet. -/
theorem State.mallet_part {α : Type} (p : Mallet → α) (k d m i j n : Nat) (g : Mallet → Mallet) (h : ∀ x, p (g x) = p x) :
    p ((s.setMallet k d m g).mallet i j n) = p (s.mallet i j n) := by
  rw [State.mallet_setMallet_any]
  split
  · next e => rw [h]; simp only [State.mallet, e]
  · rfl

/-- A write of one context leaves the other contexts of its mallet. -/
theorem State.ctx_setCtx_ne (u w : CtxId) (g : Ctx → Ctx) (h : malletKey w.kit w.drum w.mallet ≠ malletKey u.kit u.drum u.mallet ∨ w.ctx ≠ u.ctx) :
    (s.setCtx u g).ctx w = s.ctx w := by
  simp only [State.ctx, State.setCtx]
  rw [State.mallet_setMallet_any]
  split
  · next e =>
    have hc : w.ctx ≠ u.ctx := by rcases h with h | h; exact absurd e h; exact h
    simp only [mupd, mget_mput, if_neg hc, State.mallet, e]
  · rfl

theorem State.acc_setCtx_any (u w : CtxId) (g : Ctx → Ctx) (n : Nat) : (s.setCtx u g).acc w n = s.acc w n := by
  simp only [State.acc, State.setCtx]
  rw [State.mallet_part s Mallet.a]
  exact fun _ => rfl

theorem State.tile_setCtx_any (u w : CtxId) (g : Ctx → Ctx) (n : Nat) : (s.setCtx u g).tile w n = s.tile w n := by
  simp only [State.tile, State.setCtx]
  rw [State.mallet_part s Mallet.t]
  exact fun _ => rfl

@[simp] theorem State.ctx_putS (u : CtxId) (n : Nat) (v : BitVec 64) (p : Bool) : (s.putS u n v p).ctx u = (s.ctx u).setS n ⟨v, p⟩ :=
  State.ctx_setCtx s u _

@[simp] theorem Ctx.S_setS (c : Ctx) (n k : Nat) (r : SReg) : (c.setS n r).S k = if k = n then r else c.S k := by
  simp [Ctx.S, Ctx.setS]

@[simp] theorem State.ctx_done (u : CtxId) : (s.done u).ctx u = { s.ctx u with pc := (s.ctx u).pc + 8, wait := .none } :=
  State.ctx_setCtx s u _

@[simp] theorem State.acc_done (u w : CtxId) (n : Nat) : (s.done u).acc w n = s.acc w n := State.acc_setCtx_any s u w _ n

/-- A record of a fault leaves every mallet. -/
theorem State.mallets_faultRecord (u : CtxId) (code pc word : Nat) (extra : List Nat) : (s.faultRecord u code pc word extra).mallets = s.mallets :=
  (still_pushEv s _ _).mallets

/-- Contexts are read from mallets. -/
theorem State.ctx_of_mallets {a b : State} (h : b.mallets = a.mallets) (u : CtxId) : b.ctx u = a.ctx u := by
  simp only [State.ctx, State.mallet, h]

theorem State.acc_of_mallets {a b : State} (h : b.mallets = a.mallets) (u : CtxId) (n : Nat) : b.acc u n = a.acc u n := by
  simp only [State.acc, State.mallet, h]

/-- A fault sets FAULT and STOPPED of its context and nothing else of it (R144). -/
@[simp] theorem State.ctx_faults (u : CtxId) (word : Nat) (q : Nat × Nat) :
    (s.faults u word q).ctx u = { s.ctx u with fault := q.1, stopped := true, wait := .none } := by
  rw [State.faults, State.ctx_of_mallets (State.mallets_faultRecord _ _ _ _ _ _), State.ctx_setCtx]

/-- A fault changes no accumulator (R144). -/
@[simp] theorem State.acc_faults (u w : CtxId) (word : Nat) (q : Nat × Nat) (n : Nat) : (s.faults u word q).acc w n = s.acc w n := by
  rw [State.faults, State.acc_of_mallets (State.mallets_faultRecord _ _ _ _ _ _), State.acc_setCtx_any]

/-- How a call of State.run ends: not issued, a fault before or after the fetch, or the effect. -/
theorem run_cases {u : CtxId} {f : Fields} {op : Nat} {legal : Bool} {conds : State → List (Option (Nat × Nat))} {effect : State → State} :
    s.run u f op legal conds effect = s ∨ (∃ w q, s.run u f op legal conds effect = s.faults u w q) ∨
      (∃ w q, s.run u f op legal conds effect = (s.fetched u).faults u w q) ∨ s.run u f op legal conds effect = effect (s.fetched u) := by
  unfold State.run State.fetched
  dsimp only
  repeat' split
  · exact .inl rfl
  · exact .inr (.inl ⟨_, _, rfl⟩)
  on_goal 4 => exact .inr (.inr (.inr rfl))
  all_goals exact .inr (.inr (.inl ⟨_, _, rfl⟩))

/-- The fetch leaves every context and accumulator. -/
@[simp] theorem State.ctx_fetched (u w : CtxId) : (s.fetched u).ctx w = s.ctx w := State.ctx_of_mallets (still_fetched s u).mallets w
@[simp] theorem State.acc_fetched (u w : CtxId) (n : Nat) : (s.fetched u).acc w n = s.acc w n := State.acc_of_mallets (still_fetched s u).mallets w n

@[simp] theorem Acc.el_setEl (a : Acc) (n k : Nat) (e : AccElem) : (a.setEl n e).el k = if k = n then e else a.el k := by
  simp [Acc.el, Acc.setEl]

theorem mapEnabled_fold (mask : Nat) (g : Nat → AccElem → AccElem) (l : List Nat) (a : Acc) (hl : l.Nodup) :
    let r := l.foldl (fun a n => if bit mask n then a.setEl n (g n (a.el n)) else a) a
    r.isOpen = a.isOpen ∧ r.anchor = a.anchor ∧ ∀ k, r.el k = if k ∈ l ∧ bit mask k = true then g k (a.el k) else a.el k := by
  induction l generalizing a with
  | nil => simp
  | cons n l ih =>
    rw [List.nodup_cons] at hl
    rw [List.foldl_cons]
    obtain ⟨h1, h2, h3⟩ := ih (if bit mask n then a.setEl n (g n (a.el n)) else a) hl.2
    refine ⟨h1.trans (by split <;> rfl), h2.trans (by split <;> rfl), fun k => ?_⟩
    rw [h3 k]
    by_cases hk : k = n
    · subst hk
      by_cases hb : bit mask k = true
      · simp [hl.1, hb]
      · simp [hl.1, hb]
    · by_cases hb : bit mask n = true
      · simp [hb, hk]
      · simp [hb, hk]

/-- An operation under a mask changes the enabled elements of 0 to 15 (R78, R109). -/
theorem Acc.el_mapEnabled (a : Acc) (mask k : Nat) (g : Nat → AccElem → AccElem) (hk : k < 16) :
    (a.mapEnabled mask g).el k = if bit mask k = true then g k (a.el k) else a.el k := by
  have := (mapEnabled_fold mask g (List.range 16) a List.nodup_range).2.2 k
  simpa [Acc.mapEnabled, hk] using this

@[simp] theorem Acc.anchor_mapEnabled (a : Acc) (mask : Nat) (g : Nat → AccElem → AccElem) : (a.mapEnabled mask g).anchor = a.anchor :=
  (mapEnabled_fold mask g (List.range 16) a List.nodup_range).2.1

theorem Acc.el_anchor (a : Acc) (x : BitVec 10) (n : Nat) : ({ a with anchor := x } : Acc).el n = a.el n := rfl

/-- Re-anchoring changes each of the 16 elements by itself (R77). -/
theorem Acc.el_reanchor (a : Acc) (x : BitVec 10) (n : Nat) (hn : n < 16) : (a.reanchor x).el n = (a.el n).reanchor (a.A - x.toInt) := by
  have hb : bit 0xFFFF n = true := by interval_cases n <;> rfl
  rw [Acc.reanchor, Acc.el_anchor, Acc.el_mapEnabled _ _ _ _ hn, if_pos hb]

end Sys2Proof.Machine
end

