-- ==== Sys2Proof/Laws/SameMem.lean ====
section
/-!
SUPPORT. Sys2Proof/Laws/SameMem.lean: operations that leave local memory as it is: events, counts, packets, journals and what is owed.
-/
namespace Sys2Proof.Machine

open Sys2Proof (CtxId)

theorem mem_foldl {α : Type} (f : State → α → State) (h : ∀ s x, (f s x).mem = s.mem) : ∀ (l : List α) (s : State), (l.foldl f s).mem = s.mem
  | [], _ => rfl
  | x :: r, s => (mem_foldl f h r (f s x)).trans (h s x)

@[simp] theorem mem_acct (s : State) (sub i a u : Nat) : (s.acct sub i a u).mem = s.mem := by
  simp only [State.acct]; split <;> rfl

@[simp] theorem mem_regCharge (s : State) (p r inb n : Nat) : (s.regCharge p r inb n).mem = s.mem := by
  simp only [State.regCharge]

@[simp] theorem mem_chargeOut (s : State) (part : Nat) (sub : Option Nat) (port n : Nat) : (s.chargeOut part sub port n).mem = s.mem := by
  have h : (if part = noPart then s else s.regCharge part (s.portRes port) 0 (n + 16)).mem = s.mem := by
    split
    · rfl
    · exact mem_regCharge _ _ _ _ _
  simp only [State.chargeOut]
  split
  · rfl
  · split
    · exact (mem_acct _ _ _ _ _).trans h
    · exact h

@[simp] theorem mem_putOut (s : State) (p : Pkt) : (s.putOut p).mem = s.mem := by
  simp only [State.putOut]
  split
  · rfl
  · split <;> rfl

@[simp] theorem mem_sendOut (s : State) (part : Nat) (p : Pkt) : (s.sendOut part p).mem = s.mem := mem_putOut s p

@[simp] theorem mem_selfAnswer (s : State) (p : Pkt) : (s.selfAnswer p).mem = s.mem := by
  simp only [State.selfAnswer]
  split <;> rfl

@[simp] theorem mem_emit (s : State) (part : Nat) (seg : Option CtxId) (p : Pkt) : (s.emit part seg p).mem = s.mem := by
  simp only [State.emit]
  split
  · exact mem_putOut _ _
  · split
    · split
      · exact mem_putOut _ _
      · exact mem_selfAnswer _ _
    · split
      · refine (mem_selfAnswer _ _).trans ?_
        split
        · rfl
        · exact State.log_mem _ _ _ _ _ _ _
      · split
        · rfl
        · split
          · exact mem_sendOut _ _ _
          · exact mem_selfAnswer _ _

@[simp] theorem mem_logLimited (s : State) (key interval src : Nat) (e : EvName) (l : List Nat) (p u : Option Nat) :
    (s.logLimited key interval src e l p u).mem = s.mem := by
  simp only [State.logLimited]
  split
  · rfl
  · exact State.log_mem _ _ _ _ _ _ _

@[simp] theorem mem_killTag (s : State) (n t : Nat) : (s.killTag n t).mem = s.mem := by
  have h : ∀ (x : State) (k i q : Nat) (e : EvName) (l : List Nat) (p : Option Nat) (f : Fld),
      ((x.logLimited k i q e l p).count f 0 0 1).mem = x.mem := fun x k i q e l p _ => mem_logLimited x k i q e l p none
  simp only [State.killTag]
  split
  · exact (State.log_mem _ _ _ _ _ _ _).trans (h _ _ _ _ _ _ _ _)
  · exact h _ _ _ _ _ _ _ _

@[simp] theorem mem_noRoute (s : State) (n t : Nat) : (s.noRoute n t).mem = s.mem :=
  (mem_killTag _ _ _).trans (State.log_mem _ _ _ _ _ _ _)

@[simp] theorem mem_issue (s : State) (part : Nat) (sub : Option Nat) (iss : Issuer) (seg : Option CtxId) (answers : Nat) (q : Pkt) (draws : Bool) :
    (s.issue part sub iss seg answers q draws).mem = s.mem := by
  unfold State.issue
  dsimp only
  split
  · rfl
  · split
    · rw [State.count_mem, State.setTag_mem]
    · split
      · rw [mem_noRoute, State.setTag_mem]
      · rw [mem_emit, mem_chargeOut, State.setTag_mem]

@[simp] theorem mem_pumpOwed (s : State) : s.pumpOwed.mem = s.mem := by
  simp only [State.pumpOwed]
  refine mem_foldl _ (fun s o => ?_) _ s
  split
  · exact mem_issue _ _ _ _ _ _ _ _
  · rfl

@[simp] theorem mem_owePiece (s : State) (o : Owed) : (s.owePiece o).mem = s.mem := mem_pumpOwed _

@[simp] theorem mem_owe (s : State) (part addr v len slot kind : Nat) : (s.owe part addr v len slot kind).mem = s.mem := mem_owePiece _ _

@[simp] theorem mem_putResult (s : State) (part : Nat) (src : ReqSrc) (addr code st g : Nat) : (s.putResult part src addr code st g).mem = s.mem := by
  have h : (if code = 1 then s.count F.SRV_DONE_BEFORE_ABORT_COUNT 0 0 1
      else if code = 3 then s.count F.SRV_STALE_HANDLE_COUNT 0 0 1 else s).mem = s.mem := by
    split
    · rfl
    · split <;> rfl
  simp only [State.putResult]
  split
  · exact (mem_owe _ _ _ _ _ _ _).trans h
  · exact h

@[simp] theorem mem_sendNotice (s : State) (n code : Nat) : (s.sendNotice n code).mem = s.mem := mem_owe _ _ _ _ _ _ _

@[simp] theorem mem_decideForward (s : State) (n code : Nat) : (s.decideForward n code).mem = s.mem := by
  have h : (if (s.slotX n).fromHome = true then s.sendNotice n (code + 1) else s).mem = s.mem := by
    split
    · exact mem_sendNotice _ _ _
    · rfl
  simp only [State.decideForward]
  split
  · exact h
  · exact (mem_putResult _ _ _ _ _ _ _).trans h

@[simp] theorem mem_respDone (s : State) (n : Nat) (ok : Bool) : (s.respDone n ok).mem = s.mem := by
  simp only [State.respDone]
  split
  · exact mem_decideForward _ _ _
  · split
    · exact mem_decideForward _ _ _
    · split
      · exact mem_sendNotice _ _ _
      · rfl

@[simp] theorem mem_dropCompl (s : State) (c : HostCompl) : (s.dropCompl c).mem = s.mem := by
  simp only [State.dropCompl]
  split
  · split <;> rfl
  · rw [mem_respDone]; split <;> rfl

@[simp] theorem mem_stopQueue (s : State) (q : Nat) : (s.stopQueue q).mem = s.mem := by
  simp only [State.stopQueue]
  exact mem_foldl _ (fun s c => mem_dropCompl s c) _ _

/-- A reset of the host port leaves local memory. -/
@[simp] theorem mem_portReset (s : State) : s.portReset.mem = s.mem := by
  simp only [State.portReset, State.setHost]
  rw [mem_foldl _ (fun s q => mem_stopQueue s q)]

@[simp] theorem mem_post (s : State) (u : CtxId) (span answers : Nat) (q : Pkt) : (s.post u span answers q).mem = s.mem := by
  rw [State.post]
  rw [mem_issue, State.setCtx_mem]

@[simp] theorem mem_postPiece (s : State) (u : CtxId) (span : Nat) (pc : Piece) (v en p : Nat) : (s.postPiece u span pc v en p).mem = s.mem := by
  simp only [State.postPiece]
  split
  · exact mem_post _ _ _ _ _
  · split <;> exact mem_post _ _ _ _ _

theorem State.mem_mk (s : State) (x : Integ) : ({ s with integ := x } : State).mem = s.mem := rfl

@[simp] theorem mem_journalRoom (fuel : Nat) (s : State) : (State.journalRoom fuel s).mem = s.mem := by
  induction fuel generalizing s with
  | zero => rfl
  | succ fuel ih =>
    simp only [State.journalRoom]
    split
    · rfl
    · split
      · rfl
      · split
        · rfl
        · split
          · exact ih _
          · split
            · exact ih _
            · exact State.log_mem _ _ _ _ _ _ _

@[simp] theorem mem_journal (s : State) (p writer : Nat) (global : Bool) (addr n : Nat) : (s.journal p writer global addr n).mem = s.mem := by
  unfold State.journal
  split
  · rfl
  · exact (State.mem_mk _ _).trans (mem_journalRoom _ s)

@[simp] theorem mem_journalDrum (s : State) (p k d addr n : Nat) : (s.journalDrum p k d addr n).mem = s.mem := by
  simp only [State.journalDrum]
  split
  · rfl
  · exact mem_journal _ _ _ _ _ _

@[simp] theorem mem_journalRemote (s : State) (u : CtxId) (addr n : Nat) : (s.journalRemote u addr n).mem = s.mem := by
  simp only [State.journalRemote]
  split
  · rfl
  · exact mem_journal _ _ _ _ _ _

@[simp] theorem mem_present (s : State) (q : Due) : (s.present q).mem = s.mem := by
  simp only [State.present]
  split <;> rfl

@[simp] theorem mem_presentHbm (s : State) (stream xfer part : Nat) (wr : Bool) (l : List (Nat × Nat)) :
    (s.presentHbm stream xfer part wr l).mem = s.mem := by
  simp only [State.presentHbm]
  split
  · exact mem_foldl _ (fun s c => mem_present s _) _ s
  · exact mem_foldl _ (fun s c => mem_present s _) _ s

@[simp] theorem mem_ctxCharge (s : State) (u : CtxId) (wr : Bool) (l : List (Nat × Nat)) : (s.ctxCharge u wr l).mem = s.mem :=
  mem_presentHbm _ _ _ _ _ _

@[simp] theorem mem_faults (s : State) (u : CtxId) (word : Nat) (q : Nat × Nat) : (s.faults u word q).mem = s.mem := by
  rw [State.faults, State.faultRecord, State.pushEv_mem, State.setCtx_mem]

@[simp] theorem mem_deferCtx (s : State) (u : CtxId) (wr : Bool) : (s.deferCtx u wr).mem = s.mem := by
  simp only [State.deferCtx, State.waits, State.setCtx_mem]
  split <;> rfl

end Sys2Proof.Machine
end

