-- ==== Sys2Proof/Laws/Bytes.lean ====
section
/-!
SUPPORT. Sys2Proof/Laws/Bytes.lean: what a read of one byte of local memory finds after a write: the byte written, and every other byte as before.
-/
namespace Sys2Proof.Machine

-- ===== Byte lists =====

theorem mget_append {α : Type} (d : α) (l m : SMap α) (k : Nat) :
    mget d (l ++ m) k = if k ∈ l.map Prod.fst then mget d l k else mget d m k := by
  induction l with
  | nil => simp
  | cons e r ih =>
    obtain ⟨a, v⟩ := e
    by_cases h : a = k
    · simp [mget, h]
    · have : k ∈ ((a, v) :: r).map Prod.fst ↔ k ∈ r.map Prod.fst := by simp [Ne.symm h]
      simp only [List.cons_append, mget, if_neg h, ih, this]

theorem mget_not_mem {α : Type} (d : α) (l : SMap α) (k : Nat) (h : k ∉ l.map Prod.fst) : mget d l k = d := by
  induction l with
  | nil => rfl
  | cons e r ih =>
    obtain ⟨a, v⟩ := e
    simp only [List.map_cons, List.mem_cons, not_or] at h
    simp only [mget, if_neg (Ne.symm h.1)]
    exact ih h.2

theorem mget_filter_key {α : Type} (d : α) (l : SMap α) (p : Nat → Bool) (k : Nat) :
    mget d (l.filter (fun e => p e.1)) k = if p k = true then mget d l k else d := by
  induction l with
  | nil => simp [mget]
  | cons e r ih =>
    obtain ⟨a, v⟩ := e
    by_cases hp : p a = true
    · rw [List.filter_cons_of_pos (by simpa using hp)]
      simp only [mget, ih]
      by_cases h : a = k
      · subst h; simp [hp]
      · simp [h]
    · rw [List.filter_cons_of_neg (by simpa using hp), ih]
      by_cases h : a = k
      · subst h; simp [hp]
      · simp [mget, h]

theorem mget_cellsOf (a v n k : Nat) : mget (0 : BitVec 8) (cellsOf a v n) k =
    if a ≤ k ∧ k < a + n then BitVec.ofNat 8 (v / 256 ^ (k - a)) else 0 := by
  induction n generalizing a v with
  | zero => rw [if_neg (by omega)]; rfl
  | succ n ih =>
    have hs : ∀ j, v / 256 / 256 ^ j = v / 256 ^ (j + 1) := fun j => by rw [Nat.div_div_eq_div_mul, pow_succ']
    simp only [cellsOf]
    by_cases hk : k = a
    · subst hk
      rw [if_pos (show k ≤ k ∧ k < k + (n + 1) by omega), Nat.sub_self, pow_zero, Nat.div_one]
      by_cases h : v % 256 = 0
      · rw [if_pos h, ih, if_neg (by omega)]
        apply BitVec.eq_of_toNat_eq
        simp [h]
      · rw [if_neg h]
        simp [mget]
    · have h1 : (a ≤ k ∧ k < a + (n + 1)) ↔ (a + 1 ≤ k ∧ k < a + 1 + n) := by omega
      have h2 : mget (0 : BitVec 8) (cellsOf (a + 1) (v / 256) n) k = if a ≤ k ∧ k < a + (n + 1) then BitVec.ofNat 8 (v / 256 ^ (k - a)) else 0 := by
        rw [ih]
        simp only [h1]
        split
        · next h => rw [hs, show k - (a + 1) + 1 = k - a by omega]
        · rfl
      split
      · exact h2
      · simp only [mget, if_neg (Ne.symm hk)]; exact h2

/-- A byte of a byte list after a write: the byte written in the range, the old byte outside. -/
theorem mget_cellsWrite (l : List Host.Cell) (a n v k : Nat) : mget (0 : BitVec 8) (cellsWrite l a n v) k =
    if a ≤ k ∧ k < a + n then BitVec.ofNat 8 (v / 256 ^ (k - a)) else mget 0 l k := by
  have hm : ∀ p : Nat → Bool, ¬ p k = true → k ∉ (List.filter (fun c : Host.Cell => p c.1) l).map Prod.fst := by
    intro p hp h
    obtain ⟨e, he, rfl⟩ := List.mem_map.1 h
    exact hp (List.mem_filter.1 he).2
  unfold cellsWrite
  rw [mget_append, mget_append]
  have f1 := mget_filter_key (0 : BitVec 8) l (fun x => decide (x < a)) k
  have f2 := mget_filter_key (0 : BitVec 8) l (fun x => decide (a + n ≤ x)) k
  have hc := mget_cellsOf a v n k
  by_cases h1 : k < a
  · rw [if_neg (by omega : ¬ (a ≤ k ∧ k < a + n))]
    split
    · rw [f1]; simp [h1]
    · next h =>
      have hn : k ∉ l.map Prod.fst := by
        intro hk
        obtain ⟨e, he, rfl⟩ := List.mem_map.1 hk
        exact h (List.mem_map.2 ⟨e, List.mem_filter.2 ⟨he, by simpa using h1⟩, rfl⟩)
      have h2 : k ∉ (cellsOf a v n).map Prod.fst := by
        intro hk
        obtain ⟨e, he, rfl⟩ := List.mem_map.1 hk
        have := cellsOf_key _ _ _ e he; omega
      rw [if_neg h2, f2, mget_not_mem _ _ _ hn]
      simp
  · rw [if_neg (hm (fun x => decide (x < a)) (by simpa using h1))]
    by_cases h2 : k < a + n
    · rw [if_pos (by omega : a ≤ k ∧ k < a + n)]
      split
      · rw [hc, if_pos (by omega)]
      · next h =>
        have : mget (0 : BitVec 8) (cellsOf a v n) k = 0 := mget_not_mem _ _ _ h
        rw [hc, if_pos (by omega)] at this
        rw [f2, if_neg (by simp; omega), this]
    · rw [if_neg (by omega : ¬ (a ≤ k ∧ k < a + n))]
      have h3 : k ∉ (cellsOf a v n).map Prod.fst := by
        intro hk
        obtain ⟨e, he, rfl⟩ := List.mem_map.1 hk
        have := cellsOf_key _ _ _ e he; omega
      rw [if_neg h3, f2, if_pos (by simp; omega)]

theorem foldl_add_pow (l : List Host.Cell) (a v : Nat) :
    l.foldl (fun v c => v + c.2.toNat * 256 ^ (c.1 - a)) v = v + l.foldl (fun v c => v + c.2.toNat * 256 ^ (c.1 - a)) 0 := by
  induction l generalizing v with
  | nil => simp
  | cons c r ih => rw [List.foldl_cons, ih, List.foldl_cons, ih (0 + _)]; omega

theorem cells_sum (l : List Host.Cell) (a : Nat) (h : (l.map Prod.fst).Pairwise (· < ·)) (hl : ∀ c ∈ l, a ≤ c.1) (i : Nat) :
    l.foldl (fun v c => v + c.2.toNat * 256 ^ (c.1 - a)) 0 / 256 ^ i % 256 = (mget (0 : BitVec 8) l (a + i)).toNat := by
  induction l generalizing a i with
  | nil => simp [mget]
  | cons c r ih =>
    obtain ⟨k, v⟩ := c
    rw [List.map_cons, List.pairwise_cons] at h
    have hk : a ≤ k := hl (k, v) (by simp)
    have hr : ∀ c ∈ r, k + 1 ≤ c.1 := fun c hc => h.1 c.1 (List.mem_map.2 ⟨c, hc, rfl⟩)
    rw [List.foldl_cons, foldl_add_pow]
    -- the rest is a multiple of 256 ^ (k + 1 - a)
    have hrest : ∀ (m : List Host.Cell), (∀ c ∈ m, k + 1 ≤ c.1) →
        m.foldl (fun v c => v + c.2.toNat * 256 ^ (c.1 - a)) 0 = m.foldl (fun v c => v + c.2.toNat * 256 ^ (c.1 - (k + 1))) 0 * 256 ^ (k + 1 - a) := by
      intro m
      induction m with
      | nil => simp
      | cons c m ihm =>
        intro hm
        have hc := hm c (by simp)
        rw [List.foldl_cons, List.foldl_cons, foldl_add_pow, foldl_add_pow m (k + 1), ihm (fun x hx => hm x (by simp [hx]))]
        have : 256 ^ (c.1 - a) = 256 ^ (c.1 - (k + 1)) * 256 ^ (k + 1 - a) := by rw [← pow_add]; congr 1; omega
        rw [this]; ring
    rw [hrest r hr, Nat.zero_add]
    have ihr := ih (k + 1) h.2 hr
    generalize r.foldl (fun v c => v + c.2.toNat * 256 ^ (c.1 - (k + 1))) 0 = R at *
    have hv : v.toNat < 256 := v.isLt
    obtain ⟨j, rfl⟩ : ∃ j, k = a + j := ⟨k - a, by omega⟩
    rw [show a + j - a = j by omega, show a + j + 1 - a = j + 1 by omega]
    have e : v.toNat * 256 ^ j + R * 256 ^ (j + 1) = (v.toNat + R * 256) * 256 ^ j := by rw [pow_succ]; ring
    rw [e]
    rcases lt_trichotomy i j with hij | hij | hij
    · have : mget (0 : BitVec 8) ((a + j, v) :: r) (a + i) = 0 := by
        apply mget_not_mem
        simp only [List.map_cons, List.mem_cons, not_or]
        refine ⟨by omega, fun hm => ?_⟩
        obtain ⟨c, hc, he⟩ := List.mem_map.1 hm
        have := hr c hc; omega
      rw [this]
      obtain ⟨d, rfl⟩ : ∃ d, j = i + (d + 1) := ⟨j - i - 1, by omega⟩
      rw [pow_add, show ∀ x y z : Nat, x * (y * z) = (x * z) * y by intros; ring, Nat.mul_div_cancel _ (by positivity), pow_succ, ← Nat.mul_assoc,
        Nat.mul_mod_left]
      rfl
    · subst hij
      rw [Nat.mul_div_cancel _ (by positivity)]
      simp only [mget, if_pos]
      omega
    · have hne : ¬ (a + j = a + i) := by omega
      simp only [mget, if_neg hne]
      obtain ⟨d, rfl⟩ : ∃ d, i = j + 1 + d := ⟨i - j - 1, by omega⟩
      have := ihr d
      rw [show a + (j + 1 + d) = a + j + 1 + d by omega, ← this]
      rw [pow_add, pow_succ, Nat.mul_comm (256 ^ j), Nat.mul_assoc, ← Nat.div_div_eq_div_mul, ← Nat.div_div_eq_div_mul,
        show (v.toNat + R * 256) * 256 ^ j / 256 / 256 ^ j = R by
          rw [Nat.div_div_eq_div_mul, Nat.mul_comm 256, ← Nat.div_div_eq_div_mul, Nat.mul_div_cancel _ (by positivity)]; omega]

/-- Byte i of what a canonical byte list reads as. -/
theorem cellsRead_byte (l : List Host.Cell) (a n i : Nat) (h : mwf (0 : BitVec 8) l = true) (hi : i < n) :
    cellsRead l a n / 256 ^ i % 256 = (mget (0 : BitVec 8) l (a + i)).toNat := by
  rw [mwf_iff] at h
  unfold cellsRead
  rw [cells_sum _ a (h.1.sublist (List.filter_sublist.map Prod.fst)) (fun c hc => by have := (List.mem_filter.1 hc).2; simp at this; exact this.1)]
  have := mget_filter_key (0 : BitVec 8) l (fun x => decide (a ≤ x) && decide (x < a + n)) (a + i)
  rw [this, if_pos (by simp; omega)]

/-- Byte i of a blend: the new byte where it is enabled, the old byte elsewhere. -/
theorem blend_byte (n en v old i : Nat) (hi : i < n) :
    blend n en v old / 256 ^ i % 256 = if en.testBit i then v / 256 ^ i % 256 else old / 256 ^ i % 256 := by
  unfold blend
  have key : ∀ (g : Nat → Nat) (_ : ∀ i, g i < 256) (l : List Nat) (j : Nat) (hj : j < l.length),
      l.foldr (fun i w => w * 256 + g i) 0 / 256 ^ j % 256 = g (l[j]) := by
    intro g hg l
    induction l with
    | nil => intro j hj; simp at hj
    | cons x r ih =>
      intro j hj
      rw [List.foldr_cons]
      have hx := hg x
      cases j with
      | zero => simp only [pow_zero, Nat.div_one, List.getElem_cons_zero]; omega
      | succ j =>
        rw [pow_succ', ← Nat.div_div_eq_div_mul, show (r.foldr (fun i w => w * 256 + g i) 0 * 256 + g x) / 256 = r.foldr (fun i w => w * 256 + g i) 0 by omega]
        exact ih j (by simpa using hj)
  have := key (fun i => if en.testBit i then v / 256 ^ i % 256 else old / 256 ^ i % 256) (fun i => by split <;> exact Nat.mod_lt _ (by norm_num))
    (List.range n) i (by simpa using hi)
  simpa using this

end Sys2Proof.Machine
end

