-- ==== Sys2Proof/Laws/Exec.lean ====
section
/-!
SUPPORT. Sys2Proof/Laws/Exec.lean: which meaning each command dispatches to, one equation per command, so that no proof unfolds the dispatch.
-/
namespace Sys2Proof.Machine

open Sys2Proof

@[simp] theorem exec_coldReset (aonLost : Bool) (s : State) : exec (.coldReset aonLost) s = execColdReset aonLost s := rfl
@[simp] theorem exec_hubResetCold (i : Nat) (w : Word) (s : State) : exec (.hubResetCold i w) s = execHubResetCold i w s := rfl
@[simp] theorem exec_hubResetWarm (i : Nat) (w : Word) (s : State) : exec (.hubResetWarm i w) s = execHubResetWarm i w s := rfl
@[simp] theorem exec_warmResetRequest (s : State) : exec (.warmResetRequest) s = execWarmResetRequest s := rfl
@[simp] theorem exec_refclkLost (s : State) : exec (.refclkLost) s = execRefclkLost s := rfl
@[simp] theorem exec_refclkReturn (s : State) : exec (.refclkReturn) s = execRefclkReturn s := rfl
@[simp] theorem exec_powerLoss (s : State) : exec (.powerLoss) s = execPowerLoss s := rfl
@[simp] theorem exec_railFault (k : Nat) (s : State) : exec (.railFault k) s = execRailFault k s := rfl
@[simp] theorem exec_fixedRailOutOfTolerance (s : State) : exec (.fixedRailOutOfTolerance) s = execFixedRailOutOfTolerance s := rfl
@[simp] theorem exec_thermalTrip (s : State) : exec (.thermalTrip) s = execThermalTrip s := rfl
@[simp] theorem exec_bootRom (r : RomReport) (s : State) : exec (.bootRom r) s = execBootRom r s := rfl
@[simp] theorem exec_bootVerify (s : State) : exec (.bootVerify) s = execBootVerify s := rfl
@[simp] theorem exec_bootFill (r : FillReport) (s : State) : exec (.bootFill r) s = execBootFill r s := rfl
@[simp] theorem exec_bootHbm (failed : List Nat) (s : State) : exec (.bootHbm failed) s = execBootHbm failed s := rfl
@[simp] theorem exec_bootLink (trained : List (Nat × Nat)) (s : State) : exec (.bootLink trained) s = execBootLink trained s := rfl
@[simp] theorem exec_bootTempo (w : WindowReading) (s : State) : exec (.bootTempo w) s = execBootTempo w s := rfl
@[simp] theorem exec_bootConfig (s : State) : exec (.bootConfig) s = execBootConfig s := rfl
@[simp] theorem exec_tempoWindowClose (w : WindowReading) (s : State) : exec (.tempoWindowClose w) s = execTempoWindowClose w s := rfl
@[simp] theorem exec_regulatorWindow (s : State) : exec (.regulatorWindow) s = execRegulatorWindow s := rfl
@[simp] theorem exec_bridgeLinkFail (k b : Nat) (s : State) : exec (.bridgeLinkFail k b) s = execBridgeLinkFail k b s := rfl
@[simp] theorem exec_nop (u : CtxId) (f : Fields) (s : State) : exec (.nop u f) s = execNop u f s := rfl
@[simp] theorem exec_br (u : CtxId) (f : Fields) (s : State) : exec (.br u f) s = execBr u f s := rfl
@[simp] theorem exec_brc (u : CtxId) (f : Fields) (s : State) : exec (.brc u f) s = execBrc u f s := rfl
@[simp] theorem exec_loop (u : CtxId) (f : Fields) (s : State) : exec (.loop u f) s = execLoop u f s := rfl
@[simp] theorem exec_stop (u : CtxId) (f : Fields) (s : State) : exec (.stop u f) s = execStop u f s := rfl
@[simp] theorem exec_cswrd (u : CtxId) (f : Fields) (s : State) : exec (.cswrd u f) s = execCswrd u f s := rfl
@[simp] theorem exec_cswclr (u : CtxId) (f : Fields) (s : State) : exec (.cswclr u f) s = execCswclr u f s := rfl
@[simp] theorem exec_sbind (u : CtxId) (f : Fields) (s : State) : exec (.sbind u f) s = execSbind u f s := rfl
@[simp] theorem exec_sadd (u : CtxId) (f : Fields) (s : State) : exec (.sadd u f) s = execSadd u f s := rfl
@[simp] theorem exec_ssub (u : CtxId) (f : Fields) (s : State) : exec (.ssub u f) s = execSsub u f s := rfl
@[simp] theorem exec_smul (u : CtxId) (f : Fields) (s : State) : exec (.smul u f) s = execSmul u f s := rfl
@[simp] theorem exec_sand (u : CtxId) (f : Fields) (s : State) : exec (.sand u f) s = execSand u f s := rfl
@[simp] theorem exec_sor (u : CtxId) (f : Fields) (s : State) : exec (.sor u f) s = execSor u f s := rfl
@[simp] theorem exec_sxor (u : CtxId) (f : Fields) (s : State) : exec (.sxor u f) s = execSxor u f s := rfl
@[simp] theorem exec_sshl (u : CtxId) (f : Fields) (s : State) : exec (.sshl u f) s = execSshl u f s := rfl
@[simp] theorem exec_sshr (u : CtxId) (f : Fields) (s : State) : exec (.sshr u f) s = execSshr u f s := rfl
@[simp] theorem exec_ssar (u : CtxId) (f : Fields) (s : State) : exec (.ssar u f) s = execSsar u f s := rfl
@[simp] theorem exec_smin (u : CtxId) (f : Fields) (s : State) : exec (.smin u f) s = execSmin u f s := rfl
@[simp] theorem exec_smax (u : CtxId) (f : Fields) (s : State) : exec (.smax u f) s = execSmax u f s := rfl
@[simp] theorem exec_scmp (u : CtxId) (f : Fields) (s : State) : exec (.scmp u f) s = execScmp u f s := rfl
@[simp] theorem exec_smovi (u : CtxId) (f : Fields) (s : State) : exec (.smovi u f) s = execSmovi u f s := rfl
@[simp] theorem exec_xset (u : CtxId) (f : Fields) (s : State) : exec (.xset u f) s = execXset u f s := rfl
@[simp] theorem exec_xadd (u : CtxId) (f : Fields) (s : State) : exec (.xadd u f) s = execXadd u f s := rfl
@[simp] theorem exec_xmov (u : CtxId) (f : Fields) (s : State) : exec (.xmov u f) s = execXmov u f s := rfl
@[simp] theorem exec_tld (u : CtxId) (f : Fields) (e : Upsets) (s : State) : exec (.tld u f e) s = execTld u f e s := rfl
@[simp] theorem exec_tst (u : CtxId) (f : Fields) (s : State) : exec (.tst u f) s = execTst u f s := rfl
@[simp] theorem exec_scld (u : CtxId) (f : Fields) (s : State) : exec (.scld u f) s = execScld u f s := rfl
@[simp] theorem exec_scst (u : CtxId) (f : Fields) (s : State) : exec (.scst u f) s = execScst u f s := rfl
@[simp] theorem exec_sld (u : CtxId) (f : Fields) (s : State) : exec (.sld u f) s = execSld u f s := rfl
@[simp] theorem exec_sst (u : CtxId) (f : Fields) (s : State) : exec (.sst u f) s = execSst u f s := rfl
@[simp] theorem exec_ald (u : CtxId) (f : Fields) (s : State) : exec (.ald u f) s = execAld u f s := rfl
@[simp] theorem exec_ast (u : CtxId) (f : Fields) (s : State) : exec (.ast u f) s = execAst u f s := rfl
@[simp] theorem exec_aldt (u : CtxId) (f : Fields) (s : State) : exec (.aldt u f) s = execAldt u f s := rfl
@[simp] theorem exec_acpy (u : CtxId) (f : Fields) (s : State) : exec (.acpy u f) s = execAcpy u f s := rfl
@[simp] theorem exec_waitf (u : CtxId) (f : Fields) (s : State) : exec (.waitf u f) s = execWaitf u f s := rfl
@[simp] theorem exec_waitd (u : CtxId) (f : Fields) (s : State) : exec (.waitd u f) s = execWaitd u f s := rfl
@[simp] theorem exec_loadDataReturn (u : CtxId) (s : State) : exec (.loadDataReturn u) s = execLoadDataReturn u s := rfl
@[simp] theorem exec_asyncComplete (x : Nat) (s : State) : exec (.asyncComplete x) s = execAsyncComplete x s := rfl
@[simp] theorem exec_aopen (u : CtxId) (f : Fields) (s : State) : exec (.aopen u f) s = execAopen u f s := rfl
@[simp] theorem exec_tmac (u : CtxId) (f : Fields) (e : ParityErrs) (s : State) : exec (.tmac u f e) s = execTmac u f e s := rfl
@[simp] theorem exec_acomb (u : CtxId) (f : Fields) (s : State) : exec (.acomb u f) s = execAcomb u f s := rfl
@[simp] theorem exec_areanc (u : CtxId) (f : Fields) (s : State) : exec (.areanc u f) s = execAreanc u f s := rfl
@[simp] theorem exec_aadd (u : CtxId) (f : Fields) (s : State) : exec (.aadd u f) s = execAadd u f s := rfl
@[simp] theorem exec_acvt (u : CtxId) (f : Fields) (s : State) : exec (.acvt u f) s = execAcvt u f s := rfl
@[simp] theorem exec_acvtmx (u : CtxId) (f : Fields) (s : State) : exec (.acvtmx u f) s = execAcvtmx u f s := rfl
@[simp] theorem exec_vadd (u : CtxId) (f : Fields) (s : State) : exec (.vadd u f) s = execVadd u f s := rfl
@[simp] theorem exec_vsub (u : CtxId) (f : Fields) (s : State) : exec (.vsub u f) s = execVsub u f s := rfl
@[simp] theorem exec_vmul (u : CtxId) (f : Fields) (s : State) : exec (.vmul u f) s = execVmul u f s := rfl
@[simp] theorem exec_vfma (u : CtxId) (f : Fields) (s : State) : exec (.vfma u f) s = execVfma u f s := rfl
@[simp] theorem exec_vmin (u : CtxId) (f : Fields) (s : State) : exec (.vmin u f) s = execVmin u f s := rfl
@[simp] theorem exec_vmax (u : CtxId) (f : Fields) (s : State) : exec (.vmax u f) s = execVmax u f s := rfl
@[simp] theorem exec_vfn (u : CtxId) (f : Fields) (s : State) : exec (.vfn u f) s = execVfn u f s := rfl
@[simp] theorem exec_vsmx (u : CtxId) (f : Fields) (s : State) : exec (.vsmx u f) s = execVsmx u f s := rfl
@[simp] theorem exec_vcvt (u : CtxId) (f : Fields) (s : State) : exec (.vcvt u f) s = execVcvt u f s := rfl
@[simp] theorem exec_vred (u : CtxId) (f : Fields) (s : State) : exec (.vred u f) s = execVred u f s := rfl
@[simp] theorem exec_vbc (u : CtxId) (f : Fields) (s : State) : exec (.vbc u f) s = execVbc u f s := rfl
@[simp] theorem exec_vsel (u : CtxId) (f : Fields) (s : State) : exec (.vsel u f) s = execVsel u f s := rfl
@[simp] theorem exec_mset (u : CtxId) (f : Fields) (s : State) : exec (.mset u f) s = execMset u f s := rfl
@[simp] theorem exec_mop (u : CtxId) (f : Fields) (s : State) : exec (.mop u f) s = execMop u f s := rfl
@[simp] theorem exec_mcmp (u : CtxId) (f : Fields) (s : State) : exec (.mcmp u f) s = execMcmp u f s := rfl
@[simp] theorem exec_causal (u : CtxId) (f : Fields) (s : State) : exec (.causal u f) s = execCausal u f s := rfl
@[simp] theorem exec_causalb (u : CtxId) (f : Fields) (s : State) : exec (.causalb u f) s = execCausalb u f s := rfl
@[simp] theorem exec_mpop (u : CtxId) (f : Fields) (s : State) : exec (.mpop u f) s = execMpop u f s := rfl
@[simp] theorem exec_spchk (u : CtxId) (f : Fields) (s : State) : exec (.spchk u f) s = execSpchk u f s := rfl
@[simp] theorem exec_rdisp (u : CtxId) (f : Fields) (s : State) : exec (.rdisp u f) s = execRdisp u f s := rfl
@[simp] theorem exec_rrecv (u : CtxId) (f : Fields) (s : State) : exec (.rrecv u f) s = execRrecv u f s := rfl
@[simp] theorem exec_kvrd (u : CtxId) (f : Fields) (s : State) : exec (.kvrd u f) s = execKvrd u f s := rfl
@[simp] theorem exec_kvapp (u : CtxId) (f : Fields) (s : State) : exec (.kvapp u f) s = execKvapp u f s := rfl
@[simp] theorem exec_tpen (u : CtxId) (f : Fields) (s : State) : exec (.tpen u f) s = execTpen u f s := rfl
@[simp] theorem exec_topk (u : CtxId) (f : Fields) (s : State) : exec (.topk u f) s = execTopk u f s := rfl
@[simp] theorem exec_draw (u : CtxId) (f : Fields) (s : State) : exec (.draw u f) s = execDraw u f s := rfl
@[simp] theorem exec_tinc (u : CtxId) (f : Fields) (s : State) : exec (.tinc u f) s = execTinc u f s := rfl
@[simp] theorem exec_tga (u : CtxId) (f : Fields) (s : State) : exec (.tga u f) s = execTga u f s := rfl
@[simp] theorem exec_gong (u : CtxId) (f : Fields) (s : State) : exec (.gong u f) s = execGong u f s := rfl
@[simp] theorem exec_gongArrivalCounted (u : CtxId) (s : State) : exec (.gongArrivalCounted u) s = execGongArrivalCounted u s := rfl
@[simp] theorem exec_peal (u : CtxId) (f : Fields) (s : State) : exec (.peal u f) s = execPeal u f s := rfl
@[simp] theorem exec_atom (u : CtxId) (f : Fields) (s : State) : exec (.atom u f) s = execAtom u f s := rfl
@[simp] theorem exec_red (u : CtxId) (f : Fields) (s : State) : exec (.red u f) s = execRed u f s := rfl
@[simp] theorem exec_trig (u : CtxId) (f : Fields) (s : State) : exec (.trig u f) s = execTrig u f s := rfl
@[simp] theorem exec_ptest (u : CtxId) (f : Fields) (s : State) : exec (.ptest u f) s = execPtest u f s := rfl
@[simp] theorem exec_pmark (u : CtxId) (f : Fields) (s : State) : exec (.pmark u f) s = execPmark u f s := rfl
@[simp] theorem exec_fence (u : CtxId) (f : Fields) (s : State) : exec (.fence u f) s = execFence u f s := rfl
@[simp] theorem exec_retry (k n : Nat) (w : Word) (s : State) : exec (.retry k n w) s = execRetry k n w s := rfl
@[simp] theorem exec_skip (k n : Nat) (w : Word) (s : State) : exec (.skip k n w) s = execSkip k n w s := rfl
@[simp] theorem exec_resumeAt (k n : Nat) (w : Word) (s : State) : exec (.resumeAt k n w) s = execResumeAt k n w s := rfl
@[simp] theorem exec_halt (k n : Nat) (w : Word) (s : State) : exec (.halt k n w) s = execHalt k n w s := rfl
@[simp] theorem exec_stepSubmit (p : Nat) (w : Word) (s : State) : exec (.stepSubmit p w) s = execStepSubmit p w s := rfl
@[simp] theorem exec_stepStart (p : Nat) (s : State) : exec (.stepStart p) s = execStepStart p s := rfl
@[simp] theorem exec_drumStepStart (k d : Nat) (s : State) : exec (.drumStepStart k d) s = execDrumStepStart k d s := rfl
@[simp] theorem exec_drumRebindDone (k n : Nat) (s : State) : exec (.drumRebindDone k n) s = execDrumRebindDone k n s := rfl
@[simp] theorem exec_drumDone (k d : Nat) (s : State) : exec (.drumDone k d) s = execDrumDone k d s := rfl
@[simp] theorem exec_stepDone (p : Nat) (s : State) : exec (.stepDone p) s = execStepDone p s := rfl
@[simp] theorem exec_stepDeadlineMissed (p : Nat) (s : State) : exec (.stepDeadlineMissed p) s = execStepDeadlineMissed p s := rfl
@[simp] theorem exec_stepWatchdog (p : Nat) (s : State) : exec (.stepWatchdog p) s = execStepWatchdog p s := rfl
@[simp] theorem exec_prefetchCopy (k d : Nat) (s : State) : exec (.prefetchCopy k d) s = execPrefetchCopy k d s := rfl
@[simp] theorem exec_prefetchScatter (k d : Nat) (s : State) : exec (.prefetchScatter k d) s = execPrefetchScatter k d s := rfl
@[simp] theorem exec_prefetchClear (k d : Nat) (s : State) : exec (.prefetchClear k d) s = execPrefetchClear k d s := rfl
@[simp] theorem exec_prefetchWaitw (k d : Nat) (s : State) : exec (.prefetchWaitw k d) s = execPrefetchWaitw k d s := rfl
@[simp] theorem exec_prefetchEnd (k d : Nat) (s : State) : exec (.prefetchEnd k d) s = execPrefetchEnd k d s := rfl
@[simp] theorem exec_prefetchTransferDone (x : Nat) (s : State) : exec (.prefetchTransferDone x) s = execPrefetchTransferDone x s := rfl
@[simp] theorem exec_prefetchListStart (k d : Nat) (s : State) : exec (.prefetchListStart k d) s = execPrefetchListStart k d s := rfl
@[simp] theorem exec_latePrefetch (u : CtxId) (turns : Nat) (s : State) : exec (.latePrefetch u turns) s = execLatePrefetch u turns s := rfl
@[simp] theorem exec_calibStart (k d : Nat) (s : State) : exec (.calibStart k d) s = execCalibStart k d s := rfl
@[simp] theorem exec_calibComplete (k d ratio : Nat) (s : State) : exec (.calibComplete k d ratio) s = execCalibComplete k d ratio s := rfl
@[simp] theorem exec_tempoCalibForced (k d : Nat) (s : State) : exec (.tempoCalibForced k d) s = execTempoCalibForced k d s := rfl
@[simp] theorem exec_routerTakeToken (k : Nat) (s : State) : exec (.routerTakeToken k) s = execRouterTakeToken k s := rfl
@[simp] theorem exec_routerDispatch (k : Nat) (s : State) : exec (.routerDispatch k) s = execRouterDispatch k s := rfl
@[simp] theorem exec_inboxRecordWritten (k d : Nat) (s : State) : exec (.inboxRecordWritten k d) s = execInboxRecordWritten k d s := rfl
@[simp] theorem exec_routerDirWrite (i k e : Nat) (w : Word) (s : State) : exec (.routerDirWrite i k e w) s = execRouterDirWrite i k e w s := rfl
@[simp] theorem exec_kvTableWrite (i slot word : Nat) (w : Word) (s : State) : exec (.kvTableWrite i slot word w) s = execKvTableWrite i slot word w s := rfl
@[simp] theorem exec_kvStageWrite (i k : Nat) (w : Word) (s : State) : exec (.kvStageWrite i k w) s = execKvStageWrite i k w s := rfl
@[simp] theorem exec_kvReserve (c : Nat) (w : Word) (s : State) : exec (.kvReserve c w) s = execKvReserve c w s := rfl
@[simp] theorem exec_kvAdmit (c : Nat) (w : Word) (s : State) : exec (.kvAdmit c w) s = execKvAdmit c w s := rfl
@[simp] theorem exec_kvCommit (c : Nat) (w : Word) (s : State) : exec (.kvCommit c w) s = execKvCommit c w s := rfl
@[simp] theorem exec_kvHandoff (c : Nat) (w : Word) (s : State) : exec (.kvHandoff c w) s = execKvHandoff c w s := rfl
@[simp] theorem exec_kvFlush (c : Nat) (w : Word) (s : State) : exec (.kvFlush c w) s = execKvFlush c w s := rfl
@[simp] theorem exec_kvRelease (c : Nat) (w : Word) (s : State) : exec (.kvRelease c w) s = execKvRelease c w s := rfl
@[simp] theorem exec_kvForceFree (c : Nat) (w : Word) (s : State) : exec (.kvForceFree c w) s = execKvForceFree c w s := rfl
@[simp] theorem exec_kvHeldApply (p : Nat) (s : State) : exec (.kvHeldApply p) s = execKvHeldApply p s := rfl
@[simp] theorem exec_kvArmedHandoffApply (p l : Nat) (s : State) : exec (.kvArmedHandoffApply p l) s = execKvArmedHandoffApply p l s := rfl
@[simp] theorem exec_kvPageFlushDone (k page : Nat) (s : State) : exec (.kvPageFlushDone k page) s = execKvPageFlushDone k page s := rfl
@[simp] theorem exec_kvHandoffSubmit (slot layer : Nat) (s : State) : exec (.kvHandoffSubmit slot layer) s = execKvHandoffSubmit slot layer s := rfl
@[simp] theorem exec_kvHandoffLayerDone (slot layer : Nat) (s : State) : exec (.kvHandoffLayerDone slot layer) s = execKvHandoffLayerDone slot layer s := rfl
@[simp] theorem exec_kvHandoffClose (slot : Nat) (s : State) : exec (.kvHandoffClose slot) s = execKvHandoffClose slot s := rfl
@[simp] theorem exec_kvDrainDone (slot : Nat) (s : State) : exec (.kvDrainDone slot) s = execKvDrainDone slot s := rfl
@[simp] theorem exec_treeConfigWrite (i off : Nat) (w : Word) (s : State) : exec (.treeConfigWrite i off w) s = execTreeConfigWrite i off w s := rfl
@[simp] theorem exec_ringDoorbell (i off : Nat) (w : Word) (s : State) : exec (.ringDoorbell i off w) s = execRingDoorbell i off w s := rfl
@[simp] theorem exec_ringConfigWrite (i off : Nat) (w : Word) (s : State) : exec (.ringConfigWrite i off w) s = execRingConfigWrite i off w s := rfl
@[simp] theorem exec_pwLookup (w : Nat) (s : State) : exec (.pwLookup w) s = execPwLookup w s := rfl
@[simp] theorem exec_pwInsert (w : Nat) (s : State) : exec (.pwInsert w) s = execPwInsert w s := rfl
@[simp] theorem exec_pwDelete (w : Nat) (s : State) : exec (.pwDelete w) s = execPwDelete w s := rfl
@[simp] theorem exec_pwCommit (w : Nat) (s : State) : exec (.pwCommit w) s = execPwCommit w s := rfl
@[simp] theorem exec_pwUnlink (w : Nat) (s : State) : exec (.pwUnlink w) s = execPwUnlink w s := rfl
@[simp] theorem exec_pwRelease (w : Nat) (s : State) : exec (.pwRelease w) s = execPwRelease w s := rfl
@[simp] theorem exec_submit (p : Nat) (s : State) : exec (.submit p) s = execSubmit p s := rfl
@[simp] theorem exec_attach (p : Nat) (s : State) : exec (.attach p) s = execAttach p s := rfl
@[simp] theorem exec_cancel (p : Nat) (s : State) : exec (.cancel p) s = execCancel p s := rfl
@[simp] theorem exec_notice (p : Nat) (s : State) : exec (.notice p) s = execNotice p s := rfl
@[simp] theorem exec_query (p : Nat) (s : State) : exec (.query p) s = execQuery p s := rfl
@[simp] theorem exec_subPoliceWrite (i sub : Nat) (w : Word) (s : State) : exec (.subPoliceWrite i sub w) s = execSubPoliceWrite i sub w s := rfl
@[simp] theorem exec_slotRemote (c : Nat) (w : Word) (s : State) : exec (.slotRemote c w) s = execSlotRemote c w s := rfl
@[simp] theorem exec_slotPark (c : Nat) (w : Word) (s : State) : exec (.slotPark c w) s = execSlotPark c w s := rfl
@[simp] theorem exec_slotUnpark (c : Nat) (w : Word) (s : State) : exec (.slotUnpark c w) s = execSlotUnpark c w s := rfl
@[simp] theorem exec_slotSetTally (c : Nat) (w : Word) (s : State) : exec (.slotSetTally c w) s = execSlotSetTally c w s := rfl
@[simp] theorem exec_slotSetTally2 (c : Nat) (w : Word) (s : State) : exec (.slotSetTally2 c w) s = execSlotSetTally2 c w s := rfl
@[simp] theorem exec_emitSubmit (p : Nat) (w : Word) (s : State) : exec (.emitSubmit p w) s = execEmitSubmit p w s := rfl
@[simp] theorem exec_emitEntryApply (p : Nat) (s : State) : exec (.emitEntryApply p) s = execEmitEntryApply p s := rfl
@[simp] theorem exec_responseIssue (slot : Nat) (s : State) : exec (.responseIssue slot) s = execResponseIssue slot s := rfl
@[simp] theorem exec_slotFree (slot : Nat) (s : State) : exec (.slotFree slot) s = execSlotFree slot s := rfl
@[simp] theorem exec_discard (c : Nat) (w : Word) (s : State) : exec (.discard c w) s = execDiscard c w s := rfl
@[simp] theorem exec_discardDone (c : Nat) (s : State) : exec (.discardDone c) s = execDiscardDone c s := rfl
@[simp] theorem exec_acctLatch (c : Nat) (w : Word) (s : State) : exec (.acctLatch c w) s = execAcctLatch c w s := rfl
@[simp] theorem exec_flashReadDone (r : FlashRead) (s : State) : exec (.flashReadDone r) s = execFlashReadDone r s := rfl
@[simp] theorem exec_flashProgramDone (r : FlashProg) (s : State) : exec (.flashProgramDone r) s = execFlashProgramDone r s := rfl
@[simp] theorem exec_flashEraseDone (block : Nat) (ok : Bool) (s : State) : exec (.flashEraseDone block ok) s = execFlashEraseDone block ok s := rfl
@[simp] theorem exec_flashReclaim (r : FlashSpace) (s : State) : exec (.flashReclaim r) s = execFlashReclaim r s := rfl
@[simp] theorem exec_flashRelocateStart (src dst : Nat) (s : State) : exec (.flashRelocateStart src dst) s = execFlashRelocateStart src dst s := rfl
@[simp] theorem exec_flashRelocateCopied (src : Nat) (s : State) : exec (.flashRelocateCopied src) s = execFlashRelocateCopied src s := rfl
@[simp] theorem exec_flashMapCheckpoint (s : State) : exec (.flashMapCheckpoint) s = execFlashMapCheckpoint s := rfl
@[simp] theorem exec_flashMapLoad (s : State) : exec (.flashMapLoad) s = execFlashMapLoad s := rfl
@[simp] theorem exec_trnSubmit (c : Nat) (w : Word) (s : State) : exec (.trnSubmit c w) s = execTrnSubmit c w s := rfl
@[simp] theorem exec_trnAbort (c : Nat) (w : Word) (s : State) : exec (.trnAbort c w) s = execTrnAbort c w s := rfl
@[simp] theorem exec_trnEntryActive (p q : Nat) (s : State) : exec (.trnEntryActive p q) s = execTrnEntryActive p q s := rfl
@[simp] theorem exec_trnWheelRelease (x : Nat) (s : State) : exec (.trnWheelRelease x) s = execTrnWheelRelease x s := rfl
@[simp] theorem exec_trnFarScan (s : State) : exec (.trnFarScan) s = execTrnFarScan s := rfl
@[simp] theorem exec_trnParcelStart (x : Nat) (s : State) : exec (.trnParcelStart x) s = execTrnParcelStart x s := rfl
@[simp] theorem exec_trnParcelAck (x : Nat) (s : State) : exec (.trnParcelAck x) s = execTrnParcelAck x s := rfl
@[simp] theorem exec_trnParcelFail (x code : Nat) (s : State) : exec (.trnParcelFail x code) s = execTrnParcelFail x code s := rfl
@[simp] theorem exec_trnParcelIncomplete (src tag : Nat) (s : State) : exec (.trnParcelIncomplete src tag) s = execTrnParcelIncomplete src tag s := rfl
@[simp] theorem exec_trnParcelReissue (x : Nat) (s : State) : exec (.trnParcelReissue x) s = execTrnParcelReissue x s := rfl
@[simp] theorem exec_codecEncodeStart (x : Nat) (s : State) : exec (.codecEncodeStart x) s = execCodecEncodeStart x s := rfl
@[simp] theorem exec_codecEncodeDone (x : Nat) (s : State) : exec (.codecEncodeDone x) s = execCodecEncodeDone x s := rfl
@[simp] theorem exec_codecDecodeStart (src tag : Nat) (s : State) : exec (.codecDecodeStart src tag) s = execCodecDecodeStart src tag s := rfl
@[simp] theorem exec_codecDecodeDone (src tag : Nat) (s : State) : exec (.codecDecodeDone src tag) s = execCodecDecodeDone src tag s := rfl
@[simp] theorem exec_frameReceive (link f corrected : Nat) (bad : Bool) (s : State) : exec (.frameReceive link f corrected bad) s = execFrameReceive link f corrected bad s := rfl
@[simp] theorem exec_frameControl (link : Nat) (c : ControlFrame) (s : State) : exec (.frameControl link c) s = execFrameControl link c s := rfl
@[simp] theorem exec_linkDown (link cause : Nat) (s : State) : exec (.linkDown link cause) s = execLinkDown link cause s := rfl
@[simp] theorem exec_linkTrained (link width : Nat) (s : State) : exec (.linkTrained link width) s = execLinkTrained link width s := rfl
@[simp] theorem exec_fabLoad (p : Pkt) (s : State) : exec (.fabLoad p) s = execFabLoad p s := rfl
@[simp] theorem exec_fabStore (p : Pkt) (s : State) : exec (.fabStore p) s = execFabStore p s := rfl
@[simp] theorem exec_fabStorem (p : Pkt) (s : State) : exec (.fabStorem p) s = execFabStorem p s := rfl
@[simp] theorem exec_fabPeal (p : Pkt) (s : State) : exec (.fabPeal p) s = execFabPeal p s := rfl
@[simp] theorem exec_fabAtomic (p : Pkt) (s : State) : exec (.fabAtomic p) s = execFabAtomic p s := rfl
@[simp] theorem exec_fabRed (p : Pkt) (s : State) : exec (.fabRed p) s = execFabRed p s := rfl
@[simp] theorem exec_fabFence (p : Pkt) (s : State) : exec (.fabFence p) s = execFabFence p s := rfl
@[simp] theorem exec_fabGongArrive (p : Pkt) (s : State) : exec (.fabGongArrive p) s = execFabGongArrive p s := rfl
@[simp] theorem exec_fabGongSound (p : Pkt) (s : State) : exec (.fabGongSound p) s = execFabGongSound p s := rfl
@[simp] theorem exec_fabTaint (p : Pkt) (s : State) : exec (.fabTaint p) s = execFabTaint p s := rfl
@[simp] theorem exec_fabParcel (p : Pkt) (s : State) : exec (.fabParcel p) s = execFabParcel p s := rfl
@[simp] theorem exec_fabParcelEnd (p : Pkt) (s : State) : exec (.fabParcelEnd p) s = execFabParcelEnd p s := rfl
@[simp] theorem exec_fabCparcel (p : Pkt) (s : State) : exec (.fabCparcel p) s = execFabCparcel p s := rfl
@[simp] theorem exec_fabCparcelEnd (p : Pkt) (s : State) : exec (.fabCparcelEnd p) s = execFabCparcelEnd p s := rfl
@[simp] theorem exec_fabRsp (p : Pkt) (s : State) : exec (.fabRsp p) s = execFabRsp p s := rfl
@[simp] theorem exec_fabPending (p : Pkt) (s : State) : exec (.fabPending p) s = execFabPending p s := rfl
@[simp] theorem exec_fabPendingSend (src tag : Nat) (s : State) : exec (.fabPendingSend src tag) s = execFabPendingSend src tag s := rfl
@[simp] theorem exec_fabReqAbandoned (src tag : Nat) (s : State) : exec (.fabReqAbandoned src tag) s = execFabReqAbandoned src tag s := rfl
@[simp] theorem exec_fabTargetDead (node tag : Nat) (s : State) : exec (.fabTargetDead node tag) s = execFabTargetDead node tag s := rfl
@[simp] theorem exec_fabTagRelease (node tag : Nat) (s : State) : exec (.fabTagRelease node tag) s = execFabTagRelease node tag s := rfl
@[simp] theorem exec_egressHoldoffEnd (n : Nat) (s : State) : exec (.egressHoldoffEnd n) s = execEgressHoldoffEnd n s := rfl
@[simp] theorem exec_srcIndexWrite (i off : Nat) (w : Word) (s : State) : exec (.srcIndexWrite i off w) s = execSrcIndexWrite i off w s := rfl
@[simp] theorem exec_srcSearch (i : Nat) (s : State) : exec (.srcSearch i) s = execSrcSearch i s := rfl
@[simp] theorem exec_srcInsert (i : Nat) (s : State) : exec (.srcInsert i) s = execSrcInsert i s := rfl
@[simp] theorem exec_srcSetlist (i : Nat) (s : State) : exec (.srcSetlist i) s = execSrcSetlist i s := rfl
@[simp] theorem exec_srcDelete (i : Nat) (s : State) : exec (.srcDelete i) s = execSrcDelete i s := rfl
@[simp] theorem exec_srcCommit (i : Nat) (s : State) : exec (.srcCommit i) s = execSrcCommit i s := rfl
@[simp] theorem exec_srcRelease (i : Nat) (s : State) : exec (.srcRelease i) s = execSrcRelease i s := rfl
@[simp] theorem exec_srcSettle (i : Nat) (s : State) : exec (.srcSettle i) s = execSrcSettle i s := rfl
@[simp] theorem exec_preemptSave (c : Nat) (w : Word) (s : State) : exec (.preemptSave c w) s = execPreemptSave c w s := rfl
@[simp] theorem exec_preemptRestore (c : Nat) (w : Word) (s : State) : exec (.preemptRestore c w) s = execPreemptRestore c w s := rfl
@[simp] theorem exec_preemptAbandon (c : Nat) (w : Word) (s : State) : exec (.preemptAbandon c w) s = execPreemptAbandon c w s := rfl
@[simp] theorem exec_preemptWithdraw (c : Nat) (w : Word) (s : State) : exec (.preemptWithdraw c w) s = execPreemptWithdraw c w s := rfl
@[simp] theorem exec_preemptDrainDone (p : Nat) (s : State) : exec (.preemptDrainDone p) s = execPreemptDrainDone p s := rfl
@[simp] theorem exec_preemptSaveDone (p : Nat) (s : State) : exec (.preemptSaveDone p) s = execPreemptSaveDone p s := rfl
@[simp] theorem exec_preemptReturnDone (p : Nat) (s : State) : exec (.preemptReturnDone p) s = execPreemptReturnDone p s := rfl
@[simp] theorem exec_preemptRestoreDone (p : Nat) (s : State) : exec (.preemptRestoreDone p) s = execPreemptRestoreDone p s := rfl
@[simp] theorem exec_scrubAccess (u : Nat) (e : Upsets) (s : State) : exec (.scrubAccess u e) s = execScrubAccess u e s := rfl
@[simp] theorem exec_scrubOverdue (u : Nat) (s : State) : exec (.scrubOverdue u) s = execScrubOverdue u s := rfl
@[simp] theorem exec_mergeAgeFlush (k d line : Nat) (s : State) : exec (.mergeAgeFlush k d line) s = execMergeAgeFlush k d line s := rfl
@[simp] theorem exec_scheckRequest (c : Nat) (w : Word) (s : State) : exec (.scheckRequest c w) s = execScheckRequest c w s := rfl
@[simp] theorem exec_scheckRun (c : Nat) (s : State) : exec (.scheckRun c) s = execScheckRun c s := rfl
@[simp] theorem exec_scheckEnd (c : Nat) (r : CheckResult) (s : State) : exec (.scheckEnd c r) s = execScheckEnd c r s := rfl
@[simp] theorem exec_scheckForced (c : Nat) (s : State) : exec (.scheckForced c) s = execScheckForced c s := rfl
@[simp] theorem exec_obsRetest (e : Nat) (s : State) : exec (.obsRetest e) s = execObsRetest e s := rfl
@[simp] theorem exec_obsAdd (c : Nat) (w : Word) (s : State) : exec (.obsAdd c w) s = execObsAdd c w s := rfl
@[simp] theorem exec_kitRetire (k : Nat) (s : State) : exec (.kitRetire k) s = execKitRetire k s := rfl
@[simp] theorem exec_replay (c : Nat) (w : Word) (s : State) : exec (.replay c w) s = execReplay c w s := rfl
@[simp] theorem exec_orderRecord (r : OrderRec) (s : State) : exec (.orderRecord r) s = execOrderRecord r s := rfl
@[simp] theorem exec_orderPacketFetch (p : Pkt) (s : State) : exec (.orderPacketFetch p) s = execOrderPacketFetch p s := rfl
@[simp] theorem exec_forwardedWrite (i off : Nat) (w : Word) (s : State) : exec (.forwardedWrite i off w) s = execForwardedWrite i off w s := rfl
@[simp] theorem exec_compareMessage (m : CompareMsg) (s : State) : exec (.compareMessage m) s = execCompareMessage m s := rfl
@[simp] theorem exec_pairDiagnosisDone (p outcome : Nat) (s : State) : exec (.pairDiagnosisDone p outcome) s = execPairDiagnosisDone p outcome s := rfl
@[simp] theorem exec_heartbeatSend (s : State) : exec (.heartbeatSend) s = execHeartbeatSend s := rfl
@[simp] theorem exec_heartbeat (link : Nat) (s : State) : exec (.heartbeat link) s = execHeartbeat link s := rfl
@[simp] theorem exec_pairPartnerLost (s : State) : exec (.pairPartnerLost) s = execPairPartnerLost s := rfl
@[simp] theorem exec_pairJoinPassDone (p left kits : Nat) (s : State) : exec (.pairJoinPassDone p left kits) s = execPairJoinPassDone p left kits s := rfl
@[simp] theorem exec_ccWatchdogKick (i c : Nat) (w : Word) (s : State) : exec (.ccWatchdogKick i c w) s = execCcWatchdogKick i c w s := rfl
@[simp] theorem exec_ccHang (c : Nat) (s : State) : exec (.ccHang c) s = execCcHang c s := rfl
@[simp] theorem exec_ccRestart (i : Nat) (w : Word) (s : State) : exec (.ccRestart i w) s = execCcRestart i w s := rfl
@[simp] theorem exec_eventAccept (src : Nat) (s : State) : exec (.eventAccept src) s = execEventAccept src s := rfl
@[simp] theorem exec_eventSpill (s : State) : exec (.eventSpill) s = execEventSpill s := rfl
@[simp] theorem exec_evtWindowLatch (i : Nat) (s : State) : exec (.evtWindowLatch i) s = execEvtWindowLatch i s := rfl
@[simp] theorem exec_logBankLost (bank cause : Nat) (s : State) : exec (.logBankLost bank cause) s = execLogBankLost bank cause s := rfl
@[simp] theorem exec_cfgOpen (i : Nat) (w : Word) (s : State) : exec (.cfgOpen i w) s = execCfgOpen i w s := rfl
@[simp] theorem exec_cfgStagedWrite (i off : Nat) (w : Word) (s : State) : exec (.cfgStagedWrite i off w) s = execCfgStagedWrite i off w s := rfl
@[simp] theorem exec_cfgValidate (i : Nat) (w : Word) (s : State) : exec (.cfgValidate i w) s = execCfgValidate i w s := rfl
@[simp] theorem exec_cfgCommit (i : Nat) (w : Word) (s : State) : exec (.cfgCommit i w) s = execCfgCommit i w s := rfl
@[simp] theorem exec_cfgAbandon (i : Nat) (w : Word) (s : State) : exec (.cfgAbandon i w) s = execCfgAbandon i w s := rfl
@[simp] theorem exec_cfgRollback (i : Nat) (w : Word) (s : State) : exec (.cfgRollback i w) s = execCfgRollback i w s := rfl
@[simp] theorem exec_cfgCancel (i : Nat) (w : Word) (s : State) : exec (.cfgCancel i w) s = execCfgCancel i w s := rfl
@[simp] theorem exec_cfgPersistDone (ok : Bool) (s : State) : exec (.cfgPersistDone ok) s = execCfgPersistDone ok s := rfl
@[simp] theorem exec_cfgHoldComplete (s : State) : exec (.cfgHoldComplete) s = execCfgHoldComplete s := rfl
@[simp] theorem exec_cfgTimeout (s : State) : exec (.cfgTimeout) s = execCfgTimeout s := rfl
@[simp] theorem exec_cfgSwitchDone (s : State) : exec (.cfgSwitchDone) s = execCfgSwitchDone s := rfl
@[simp] theorem exec_cfgNorSwitchWritten (s : State) : exec (.cfgNorSwitchWritten) s = execCfgNorSwitchWritten s := rfl
@[simp] theorem exec_hqCfgWrite (i q : Nat) (w : Word) (s : State) : exec (.hqCfgWrite i q w) s = execHqCfgWrite i q w s := rfl
@[simp] theorem exec_hqSqDoorbell (i q : Nat) (w : Word) (es : List HostEntry) (s : State) : exec (.hqSqDoorbell i q w es) s = execHqSqDoorbell i q w es s := rfl
@[simp] theorem exec_hqCqDoorbell (i q : Nat) (w : Word) (s : State) : exec (.hqCqDoorbell i q w) s = execHqCqDoorbell i q w s := rfl
@[simp] theorem exec_serve (q : Nat) (d : HostData) (s : State) : exec (.serve q d) s = execServe q d s := rfl
@[simp] theorem exec_hqCopy (q : Nat) (d : HostData) (s : State) : exec (.hqCopy q d) s = execHqCopy q d s := rfl
@[simp] theorem exec_install (q : Nat) (d : HostData) (s : State) : exec (.install q d) s = execInstall q d s := rfl
@[simp] theorem exec_bootWrite (q : Nat) (d : HostData) (s : State) : exec (.bootWrite q d) s = execBootWrite q d s := rfl
@[simp] theorem exec_recover (q : Nat) (d : HostData) (s : State) : exec (.recover q d) s = execRecover q d s := rfl
@[simp] theorem exec_hqCommandComplete (q : Nat) (s : State) : exec (.hqCommandComplete q) s = execHqCommandComplete q s := rfl
@[simp] theorem exec_hostWindowAccess (a : HostAccess) (s : State) : exec (.hostWindowAccess a) s = execHostWindowAccess a s := rfl
@[simp] theorem exec_hostPerst (s : State) : exec (.hostPerst) s = execHostPerst s := rfl
@[simp] theorem exec_hostLinkDown (s : State) : exec (.hostLinkDown) s = execHostLinkDown s := rfl
@[simp] theorem exec_attnRaise (i : Nat) (w : Word) (s : State) : exec (.attnRaise i w) s = execAttnRaise i w s := rfl
@[simp] theorem exec_attnPulseStart (s : State) : exec (.attnPulseStart) s = execAttnPulseStart s := rfl
@[simp] theorem exec_attnPulseRelease (s : State) : exec (.attnPulseRelease) s = execAttnPulseRelease s := rfl
@[simp] theorem exec_attnRenotify (s : State) : exec (.attnRenotify) s = execAttnRenotify s := rfl
@[simp] theorem exec_mgmtTransfer (m : MgmtXfer) (s : State) : exec (.mgmtTransfer m) s = execMgmtTransfer m s := rfl
@[simp] theorem exec_entdaa (a : Nat) (s : State) : exec (.entdaa a) s = execEntdaa a s := rfl
@[simp] theorem exec_setdasa (static a : Nat) (s : State) : exec (.setdasa static a) s = execSetdasa static a s := rfl
@[simp] theorem exec_rstdaa (s : State) : exec (.rstdaa) s = execRstdaa s := rfl
@[simp] theorem exec_getpid (s : State) : exec (.getpid) s = execGetpid s := rfl
@[simp] theorem exec_getbcr (s : State) : exec (.getbcr) s = execGetbcr s := rfl
@[simp] theorem exec_getdcr (s : State) : exec (.getdcr) s = execGetdcr s := rfl
@[simp] theorem exec_getstatus (s : State) : exec (.getstatus) s = execGetstatus s := rfl
@[simp] theorem exec_doeDiscovery (r : SpdmReq) (s : State) : exec (.doeDiscovery r) s = execDoeDiscovery r s := rfl
@[simp] theorem exec_getVersion (r : SpdmReq) (s : State) : exec (.getVersion r) s = execGetVersion r s := rfl
@[simp] theorem exec_getCapabilities (r : SpdmReq) (s : State) : exec (.getCapabilities r) s = execGetCapabilities r s := rfl
@[simp] theorem exec_negotiateAlgorithms (r : SpdmReq) (s : State) : exec (.negotiateAlgorithms r) s = execNegotiateAlgorithms r s := rfl
@[simp] theorem exec_getDigests (r : SpdmReq) (s : State) : exec (.getDigests r) s = execGetDigests r s := rfl
@[simp] theorem exec_getCertificate (r : SpdmReq) (s : State) : exec (.getCertificate r) s = execGetCertificate r s := rfl
@[simp] theorem exec_challenge (r : SpdmReq) (s : State) : exec (.challenge r) s = execChallenge r s := rfl
@[simp] theorem exec_getMeasurements (r : SpdmReq) (s : State) : exec (.getMeasurements r) s = execGetMeasurements r s := rfl
@[simp] theorem exec_rcRead (i off : Nat) (wide : Bool) (s : State) : exec (.rcRead i off wide) s = execRcRead i off wide s := rfl
@[simp] theorem exec_halfReadLatch (i off : Nat) (s : State) : exec (.halfReadLatch i off) s = execHalfReadLatch i off s := rfl
@[simp] theorem exec_registerWrite (i off : Nat) (w : Word) (s : State) : exec (.registerWrite i off w) s = execRegisterWrite i off w s := rfl
@[simp] theorem exec_resetRelease (node : BitVec 16) (defaultN : Bool) (s : State) : exec (.resetRelease node defaultN) s = execResetRelease node defaultN s := rfl
@[simp] theorem exec_ccRestarted (c : Nat) (s : State) : exec (.ccRestarted c) s = execCcRestarted c s := rfl
@[simp] theorem exec_hostPortTrained (s : State) : exec (.hostPortTrained) s = execHostPortTrained s := rfl
@[simp] theorem exec_controlCoreAccess (a : CoreAccess) (s : State) : exec (.controlCoreAccess a) s = execControlCoreAccess a s := rfl

end Sys2Proof.Machine
end

