-- ==== Sys2Proof/Laws/Keep.lean ====
section
/-!
SUPPORT. Sys2Proof/Laws/Keep.lean: what every operation keeps: the queue of commands, and the canonical form of local memory.
-/
namespace Sys2Proof.Machine

/-- The queue is the same, and memory stays canonical. -/
structure Keep (a b : State) : Prop where
  queue : b.pending = a.pending
  mem : Memory.wf a.mem = true → Memory.wf b.mem = true

/-- Keep, of an outcome. -/
def KeepA (a : State) : Host.Outcome State Fault Refusal → Prop
  | .next b => Keep a b
  | _ => True

theorem Keep.refl (a : State) : Keep a a := ⟨rfl, id⟩
theorem Keep.trans {a b c : State} (h : Keep a b) (g : Keep b c) : Keep a c := ⟨g.queue.trans h.queue, fun w => g.mem (h.mem w)⟩
theorem keep_next {a b : State} (h : Keep a b) : KeepA a (.next b) := h
theorem keep_ite {a x y : State} {c : Prop} [Decidable c] (hx : Keep a x) (hy : Keep a y) : Keep a (if c then x else y) := by
  split <;> assumption
theorem keep_ite1 {α : Type} {a : State} {x y : State × α} {c : Prop} [Decidable c] (hx : Keep a x.1) (hy : Keep a y.1) :
    Keep a (if c then x else y).1 := by
  split <;> assumption
theorem keepA_ite {a : State} {x y : Host.Outcome State Fault Refusal} {c : Prop} [Decidable c] (hx : KeepA a x) (hy : KeepA a y) :
    KeepA a (if c then x else y) := by
  split <;> assumption
theorem keep_foldl {β : Type} {a s : State} {f : State → β → State} {l : List β} (h : Keep a s)
    (hf : ∀ t b, Keep a t → Keep a (f t b)) : Keep a (l.foldl f s) := by
  induction l generalizing s with
  | nil => exact h
  | cons b l ih => exact ih (hf _ _ h)
theorem keep_foldl1 {α β : Type} {a : State} {q : State × α} {f : State × α → β → State × α} {l : List β} (h : Keep a q.1)
    (hf : ∀ t b, Keep a t.1 → Keep a (f t b).1) : Keep a (l.foldl f q).1 := by
  induction l generalizing q with
  | nil => exact h
  | cons b l ih => exact ih (hf _ _ h)
theorem keep_mk {a s : State}
    (f_regs : SMap (BitVec 64)) (f_staged : SMap (BitVec 64)) (f_previous : SMap (BitVec 64)) (f_flash : Flash)
    (f_ev : EvLog) (f_boot : Boot) (f_cfg : Cfg) (f_host : HostPort) (f_mgmt : Mgmt) (f_power : Power) (f_kits :
    SMap Kit) (f_drums : SMap Drum) (f_mallets : SMap Mallet) (f_parts : SMap Part) (f_xfers : SMap Xfer)
    (f_nextXfer : Nat) (f_fab : Fabric) (f_out : Out) (f_freeCtr : Nat) (f_integ : Integ) (f_pair : Pair)
    (f_used : SMap Nat) (f_due : List Due) (f_streamEnd : SMap Nat) (f_shortCap : SMap Nat) (f_latchHi : SMap
    Nat) (f_acctRem : SMap Nat) (f_polls : SMap Nat) (f_jobs : SMap RingJob) (f_kv : Kv) (f_serve : Serve)
    (f_trn : Transit) (f_discards : SMap (Nat × Nat)) (f_saves : SMap KitImage) :
    Keep a (State.mk s.pending f_regs f_staged f_previous s.mem f_flash f_ev f_boot f_cfg f_host f_mgmt f_power
    f_kits f_drums f_mallets f_parts f_xfers f_nextXfer f_fab f_out f_freeCtr f_integ f_pair f_used f_due
    f_streamEnd f_shortCap f_latchHi f_acctRem f_polls f_jobs f_kv f_serve f_trn f_discards f_saves) ↔ Keep a s
    :=
  ⟨fun h => ⟨h.queue, h.mem⟩, fun h => ⟨h.queue, h.mem⟩⟩
/-- A new memory that is canonical if the old one is. -/
theorem keep_mem {a s : State} {m : Mem} (h : Keep a s) (hm : Memory.wf s.mem = true → Memory.wf m = true) :
    Keep a { s with mem := m } := ⟨h.queue, fun w => hm (h.mem w)⟩

open Sys2Proof (CtxId Fields Upsets ParityErrs)

-- ===== Sys2Proof/Machine/Ops.lean =====

theorem keep_State_setRg {s0 : State} (s : State) (r : RegName) (i j : Nat) (w : BitVec 64) (hs : Keep s0 s) :
    Keep s0 (State.setRg s r i j w) := by
  unfold State.setRg
  try dsimp only
  repeat' first
    | (with_reducible
        first
          | assumption | intro _)
    | simp only [keep_mk]

theorem keep_State_setF {s0 : State} (s : State) (f : Fld) (i j v : Nat) (hs : Keep s0 s) :
    Keep s0 (State.setF s f i j v) := by
  unfold State.setF
  try dsimp only
  repeat' first
    | (with_reducible
        first
          | assumption | intro _ | apply keep_State_setRg)

theorem keep_State_setB {s0 : State} (s : State) (f : Fld) (i j : Nat) (b : Bool) (hs : Keep s0 s) :
    Keep s0 (State.setB s f i j b) := by
  unfold State.setB
  try dsimp only
  repeat' first
    | (with_reducible
        first
          | assumption | intro _ | apply keep_State_setF)

theorem keep_State_count {s0 : State} (s : State) (f : Fld) (i j n : Nat) (hs : Keep s0 s) :
    Keep s0 (State.count s f i j n) := by
  unfold State.count
  try dsimp only
  repeat' first
    | (with_reducible
        first
          | assumption | intro _ | apply keep_State_setF)

theorem keep_State_setKit {s0 : State} (s : State) (k : Nat) (f : Kit → Kit) (hs : Keep s0 s) :
    Keep s0 (State.setKit s k f) := by
  unfold State.setKit
  try dsimp only
  repeat' first
    | (with_reducible
        first
          | assumption | intro _)
    | simp only [keep_mk]

theorem keep_State_setDrum {s0 : State} (s : State) (k d : Nat) (f : Drum → Drum) (hs : Keep s0 s) :
    Keep s0 (State.setDrum s k d f) := by
  unfold State.setDrum
  try dsimp only
  repeat' first
    | (with_reducible
        first
          | assumption | intro _)
    | simp only [keep_mk]

theorem keep_State_setMallet {s0 : State} (s : State) (k d m : Nat) (f : Mallet → Mallet) (hs : Keep s0 s) :
    Keep s0 (State.setMallet s k d m f) := by
  unfold State.setMallet
  try dsimp only
  repeat' first
    | (with_reducible
        first
          | assumption | intro _)
    | simp only [keep_mk]

theorem keep_State_setPart {s0 : State} (s : State) (p : Nat) (f : Part → Part) (hs : Keep s0 s) :
    Keep s0 (State.setPart s p f) := by
  unfold State.setPart
  try dsimp only
  repeat' first
    | (with_reducible
        first
          | assumption | intro _)
    | simp only [keep_mk]

theorem keep_State_setCtx {s0 : State} (s : State) (u : CtxId) (f : Ctx → Ctx) (hs : Keep s0 s) :
    Keep s0 (State.setCtx s u f) := by
  unfold State.setCtx
  try dsimp only
  repeat' first
    | (with_reducible
        first
          | assumption | intro _ | apply keep_State_setMallet)

theorem keep_State_setTile {s0 : State} (s : State) (u : CtxId) (n : Nat) (t : Tile) (hs : Keep s0 s) :
    Keep s0 (State.setTile s u n t) := by
  unfold State.setTile
  try dsimp only
  repeat' first
    | (with_reducible
        first
          | assumption | intro _ | apply keep_State_setMallet)

theorem keep_State_setAcc {s0 : State} (s : State) (u : CtxId) (n : Nat) (a : Acc) (hs : Keep s0 s) :
    Keep s0 (State.setAcc s u n a) := by
  unfold State.setAcc
  try dsimp only
  repeat' first
    | (with_reducible
        first
          | assumption | intro _ | apply keep_State_setMallet)

theorem keep_State_setStep {s0 : State} (s : State) (p v : Nat) (hs : Keep s0 s) :
    Keep s0 (State.setStep s p v) := by
  unfold State.setStep
  try dsimp only
  repeat' first
    | (with_reducible
        first
          | assumption | intro _ | apply keep_State_setF)

theorem keep_State_pushEv {s0 : State} (s : State) (src : Nat) (r : EvRec) (hs : Keep s0 s) :
    Keep s0 (State.pushEv s src r) := by
  unfold State.pushEv
  try dsimp only
  repeat' first
    | (with_reducible
        first
          | assumption | intro _ | apply keep_State_count | apply keep_ite | apply keep_ite1)
    | simp only [keep_mk]

theorem keep_State_log {s0 : State} (s : State) (src : Nat) (e : EvName) (items : List Nat) (part : Option Nat) (unit : Option Nat) (attn : Bool) (hs : Keep s0 s) :
    Keep s0 (State.log s src e items part unit attn) := by
  unfold State.log
  try dsimp only
  repeat' first
    | (with_reducible
        first
          | assumption | intro _ | apply keep_State_pushEv)

theorem keep_State_logLimited {s0 : State} (s : State) (key interval : Nat) (src : Nat) (e : EvName) (items : List Nat) (part : Option Nat) (unit : Option Nat) (hs : Keep s0 s) :
    Keep s0 (State.logLimited s key interval src e items part unit) := by
  unfold State.logLimited
  try dsimp only
  repeat' first
    | (with_reducible
        first
          | assumption | intro _ | apply keep_State_log | apply keep_ite | apply keep_ite1)
    | simp only [keep_mk]

theorem keep_State_cause {s0 : State} (s : State) (f : Fld) (hs : Keep s0 s) :
    Keep s0 (State.cause s f) := by
  unfold State.cause
  try dsimp only
  repeat' first
    | (with_reducible
        first
          | assumption | intro _ | apply keep_State_setF)
    | simp only [keep_mk]

theorem keep_State_fixAttn {s0 : State} (s : State) (hs : Keep s0 s) :
    Keep s0 (State.fixAttn s) := by
  unfold State.fixAttn
  try dsimp only
  repeat' first
    | (with_reducible
        first
          | assumption | intro _ | apply keep_State_setB)
    | simp only [keep_mk]

theorem keep_State_fresh {s0 : State} (s : State) (hs : Keep s0 s) :
    Keep s0 (State.fresh s) := by
  unfold State.fresh
  try dsimp only
  repeat' first
    | (with_reducible
        first
          | assumption | intro _)
    | simp only [keep_mk]

theorem keep_State_queueCheck {s0 : State} (s : State) (key unit : Nat) (hs : Keep s0 s) :
    Keep s0 (State.queueCheck s key unit) := by
  unfold State.queueCheck
  try dsimp only
  repeat' first
    | (with_reducible
        first
          | assumption | intro _ | apply keep_State_fresh | apply keep_ite | apply keep_ite1)
    | simp only [keep_mk]

theorem keep_State_observe {s0 : State} (s : State) (unit reason : Nat) (hs : Keep s0 s) :
    Keep s0 (State.observe s unit reason) := by
  unfold State.observe
  try dsimp only
  repeat' first
    | (with_reducible
        first
          | assumption | intro _ | apply keep_State_log | apply keep_State_setRg | apply keep_State_setF
          | apply keep_State_queueCheck)
    | dsimp only | split

theorem keep_State_acct {s0 : State} (s : State) (sub i amount unit : Nat) (hs : Keep s0 s) :
    Keep s0 (State.acct s sub i amount unit) := by
  unfold State.acct
  try dsimp only
  repeat' first
    | (with_reducible
        first
          | assumption | intro _ | apply keep_State_setRg | apply keep_State_setF | apply keep_ite | apply keep_ite1)
    | simp only [keep_mk]

-- ===== Sys2Proof/Machine/Memory.lean =====

theorem keep_State_strike {s0 : State} (s : State) (e : Sys2Proof.Upsets) (h : Keep s0 s) : Keep s0 (State.strike s e) := by
  unfold State.strike
  refine keep_mem (keep_foldl h (fun t q ht => keep_State_setDrum _ _ _ _ ht)) (fun w => strikes_wf _ _ _ ?_)
  exact foldl_keeps (fun m => Memory.wf m = true) _ (fun m q hm => ue_ins_wf _ _ (cells_wf _ _ _ _ hm)) e.ue _ w

theorem keep_State_countCe {s0 : State} (s : State) (a n : Nat) (hs : Keep s0 s) :
    Keep s0 (State.countCe s a n) := by
  unfold State.countCe
  try dsimp only
  repeat' first
    | (with_reducible
        first
          | assumption | intro _ | apply keep_State_count | apply keep_State_setDrum | apply keep_State_observe
          | apply keep_State_log | apply keep_ite | apply keep_ite1)
    | simp only [keep_mk]
    | dsimp only | split

theorem keep_State_badSlot {s0 : State} (s : State) (a : Nat) (hs : Keep s0 s) :
    Keep s0 (State.badSlot s a) := by
  unfold State.badSlot
  try dsimp only
  repeat' first
    | (with_reducible
        first
          | assumption | intro _ | apply keep_ite | apply keep_ite1)
    | simp only [keep_mk]

theorem keep_State_touchGranule {s0 : State} (s : State) (unit g : Nat) (h : Keep s0 s) : Keep s0 (State.touchGranule s unit g) := by
  unfold State.touchGranule
  have h1 : Keep s0 (if (s.mem.ce.filter (fun w => decide (w / 4 = g))).length = 0 then s else
      { (s.countCe (32 * g) (s.mem.ce.filter (fun w => decide (w / 4 = g))).length) with
          mem := { s.mem with ce := ndelRange s.mem.ce (4 * g) 4 } }) := by
    refine keep_ite h ⟨(keep_State_countCe s _ _ h).queue, fun w => ce_range_wf _ _ _ (h.mem w)⟩
  dsimp only
  refine keep_ite (keep_State_log _ _ _ _ _ _ _ (keep_State_badSlot _ _ (keep_State_count _ _ _ _ _ ?_))) h1
  exact keep_mem h1 (fun w => mark_wf _ _ w)

theorem keep_State_touch {s0 : State} (s : State) (unit a n : Nat) (hs : Keep s0 s) :
    Keep s0 (State.touch s unit a n) := by
  unfold State.touch
  try dsimp only
  repeat' first
    | (with_reducible
        first
          | assumption | intro _ | apply keep_State_touchGranule | apply keep_foldl)

theorem bitmap_wf (m : Mem) (a n v w x k y l : Nat) (h : Memory.wf m = true) :
    Memory.wf (({ m with cells := cellsWrite m.cells a n v, written := ninsRange m.written x k,
                         wpbUe := ndel m.wpbUe w } : Mem).markRange y l) = true := by
  apply markRange_wf
  rw [memory_wf_iff] at *
  obtain ⟨a, b, c, d, e, f⟩ := h
  exact ⟨cellsWrite_wf _ _ _ _ a, b, c, d, ninsRange_wf _ _ _ e, ndel_wf _ _ f⟩

theorem keep_State_touchBitmap {s0 : State} (s : State) (a : Nat) (h : Keep s0 s) : Keep s0 (State.touchBitmap s a) := by
  unfold State.touchBitmap
  refine keep_ite (keep_State_log _ _ _ _ _ _ _ ?_) h
  constructor
  · exact h.queue
  · intro w
    exact bitmap_wf s.mem _ 262144 (Config.freeValue s.freeCtr) _ _ 64 _ 8192 (h.mem w)

theorem keep_State_regCharge {s0 : State} (s : State) (p r k n : Nat) (hs : Keep s0 s) :
    Keep s0 (State.regCharge s p r k n) := by
  unfold State.regCharge
  try dsimp only
  repeat' first
    | (with_reducible
        first
          | assumption | intro _)
    | simp only [keep_mk]

theorem keep_State_regDefer {s0 : State} (s : State) (p r : Nat) (hs : Keep s0 s) :
    Keep s0 (State.regDefer s p r) := by
  unfold State.regDefer
  try dsimp only
  repeat' first
    | (with_reducible
        first
          | assumption | intro _ | apply keep_State_count)

theorem keep_State_present {s0 : State} (s : State) (q : Due) (hs : Keep s0 s) :
    Keep s0 (State.present s q) := by
  unfold State.present
  try dsimp only
  repeat' first
    | (with_reducible
        first
          | assumption | intro _ | apply keep_State_regCharge | apply keep_State_regDefer | apply keep_ite
          | apply keep_ite1)
    | simp only [keep_mk]

theorem keep_State_grant {s0 : State} (s : State) (q : Due) (hs : Keep s0 s) : Keep s0 (State.grant s q) := by
  unfold State.grant
  apply keep_State_regCharge
  simpa only [keep_mk] using hs

theorem keep_State_grantGuaranteed {s0 : State} (s : State) (hs : Keep s0 s) : Keep s0 (State.grantGuaranteed s) := by
  unfold State.grantGuaranteed
  repeat' first
    | (with_reducible first | assumption | intro _ | apply keep_State_grant | apply keep_ite | apply keep_foldl)

theorem keep_State_grantTurn {s0 : State} (s : State) (r k p : Nat) (hs : Keep s0 s) : Keep s0 (State.grantTurn s r k p) := by
  unfold State.grantTurn
  split
  · exact keep_State_grant _ _ hs
  · exact hs

theorem keep_State_grantRounds {s0 : State} (n : Nat) (s : State) (hs : Keep s0 s) : Keep s0 (State.grantRounds n s) := by
  induction n generalizing s with
  | zero => exact hs
  | succ n ih =>
    unfold State.grantRounds
    apply ih
    repeat' first
      | (with_reducible first | assumption | intro _ | apply keep_State_grantTurn | apply keep_foldl)

theorem keep_State_grantDue {s0 : State} (s : State) (hs : Keep s0 s) : Keep s0 (State.grantDue s) :=
  keep_State_grantRounds _ _ (keep_State_grantGuaranteed _ hs)

theorem keep_State_presentHbm {s0 : State} (s : State) (stream xfer part : Nat) (wr : Bool) (l : List (Nat × Nat)) (hs : Keep s0 s) :
    Keep s0 (State.presentHbm s stream xfer part wr l) := by
  unfold State.presentHbm
  try dsimp only
  repeat' first
    | (with_reducible
        first
          | assumption | intro _ | apply keep_State_present | apply keep_foldl | apply keep_foldl1)
    | simp only [keep_mk]
    | dsimp only | split

theorem keep_State_presentFlash {s0 : State} (s : State) (stream xfer part : Nat) (l : List (Nat × Nat)) (hs : Keep s0 s) :
    Keep s0 (State.presentFlash s stream xfer part l) := by
  unfold State.presentFlash
  try dsimp only
  repeat' first
    | (with_reducible
        first
          | assumption | intro _ | apply keep_State_present | apply keep_foldl)

theorem keep_State_touchMap {s0 : State} (s : State) (u : Nat) (hs : Keep s0 s) :
    Keep s0 (State.touchMap s u) := by
  unfold State.touchMap
  try dsimp only
  repeat' first
    | (with_reducible
        first
          | assumption | intro _ | apply keep_State_touch | apply keep_State_log | apply keep_ite | apply keep_ite1)
    | simp only [keep_mk]

theorem keep_State_readPage {s0 : State} (s : State) (unit a n : Nat) (hs : Keep s0 s) :
    Keep s0 (State.readPage s unit a n).1 := by
  unfold State.readPage
  try dsimp only
  repeat' first
    | (with_reducible
        first
          | assumption | intro _ | apply keep_State_touchMap | apply keep_State_touchBitmap | apply keep_State_touch
          | apply keep_ite | apply keep_ite1)
    | dsimp only | split

theorem keep_State_readMem {s0 : State} (s : State) (unit a n : Nat) (hs : Keep s0 s) :
    Keep s0 (State.readMem s unit a n).1 := by
  unfold State.readMem
  try dsimp only
  repeat' first
    | (with_reducible
        first
          | assumption | intro _ | apply keep_State_readPage | apply keep_foldl | apply keep_foldl1)

theorem keep_State_writeGranule {s0 : State} (s : State) (unit a n en p g : Nat) (h : Keep s0 s) :
    Keep s0 (State.writeGranule s unit a n en p g) := by
  unfold State.writeGranule
  dsimp only
  refine keep_ite h (keep_ite (keep_mem h (mark_wf _ _)) (keep_ite (keep_mem h (clean_wf _ _)) (keep_mem ?_ ?_)))
  · exact keep_ite (keep_State_touchGranule _ _ _ h) h
  · refine foldl_keeps (fun m => Memory.wf m = true) _ (fun m q hm => ?_) _ _
    split
    · exact upsets_del_wf _ _ hm
    · exact hm

theorem keep_State_dirtied {s0 : State} (s : State) (a n : Nat) (hs : Keep s0 s) :
    Keep s0 (State.dirtied s a n) := by
  unfold State.dirtied
  try dsimp only
  repeat' first
    | (with_reducible
        first
          | assumption | intro _ | apply keep_ite | apply keep_ite1)
    | simp only [keep_mk]

theorem keep_State_writePage {s0 : State} (s : State) (unit a n v en p : Nat) (h : Keep s0 s) :
    Keep s0 (State.writePage s unit a n v en p) := by
  unfold State.writePage
  split
  · exact h
  · exact h
  · refine keep_ite h (keep_State_dirtied _ _ _ (keep_mem ?_ (cells_wf _ _ _ _)))
    refine keep_foldl ?_ (fun t i ht => keep_State_writeGranule _ _ _ _ _ _ _ ht)
    have h1 := keep_ite (c := s.region a = .hbm) (keep_State_touchBitmap s a h) h
    generalize (if s.region a = .hbm then s.touchBitmap a else s) = t at h1 ⊢
    exact keep_ite (keep_mem h1 (fun w => written_wf _ _ (unmark_wf _ _ _ _ _ _ _ (cells_wf _ _ _ _ w)))) h1

theorem keep_State_writeMem {s0 : State} (s : State) (unit a n v en p : Nat) (hs : Keep s0 s) :
    Keep s0 (State.writeMem s unit a n v en p) := by
  unfold State.writeMem
  try dsimp only
  repeat' first
    | (with_reducible
        first
          | assumption | intro _ | apply keep_State_writePage | apply keep_foldl)

theorem keep_State_writeAll {s0 : State} (s : State) (unit a n : Nat) (d : Data) (hs : Keep s0 s) :
    Keep s0 (State.writeAll s unit a n d) := by
  unfold State.writeAll
  try dsimp only
  repeat' first
    | (with_reducible
        first
          | assumption | intro _ | apply keep_State_writeMem)

theorem keep_State_poisonRange {s0 : State} (s : State) (a n : Nat) (h : Keep s0 s) : Keep s0 (State.poisonRange s a n) := by
  unfold State.poisonRange
  refine keep_foldl h (fun t c ht => ?_)
  split
  · exact ht
  · repeat' first | with_reducible assumption | simp only [keep_mk] | split
  · refine keep_State_dirtied _ _ _ ?_
    have h1 := keep_ite (c := t.region c.1 = .hbm) (keep_State_touchBitmap t c.1 ht) ht
    generalize (if t.region c.1 = .hbm then t.touchBitmap c.1 else t) = u at h1 ⊢
    refine keep_mem h1 (fun w => markRange_wf _ _ _ ?_)
    split
    · exact written_wf _ _ w
    · exact w

theorem keep_State_touchWords {s0 : State} (s : State) (p n : Nat) (hs : Keep s0 s) :
    Keep s0 (State.touchWords s p n) := by
  unfold State.touchWords
  try dsimp only
  repeat' first
    | (with_reducible
        first
          | assumption | intro _ | apply keep_State_touchBitmap | apply keep_foldl)

theorem keep_State_discardPages {s0 : State} (s : State) (p n : Nat) (h : Keep s0 s) : Keep s0 (State.discardPages s p n) := by
  unfold State.discardPages
  refine keep_State_dirtied _ _ _ (keep_mem (keep_State_touchWords _ _ _ h) (fun w => ?_))
  exact unwritten_wf _ _ _ (unmark_wf _ _ _ _ _ _ _ (cells_filter_wf _ _ w))

theorem keep_State_zeroRange {s0 : State} (s : State) (a n : Nat) (h : Keep s0 s) : Keep s0 (State.zeroRange s a n) := by
  unfold State.zeroRange
  exact keep_mem h (fun w => unmark_wf _ _ _ _ _ _ _ (cells_filter_wf _ _ w))

theorem keep_State_putWord {s0 : State} (s : State) (a w : Nat) (hs : Keep s0 s) :
    Keep s0 (State.putWord s a w) := by
  unfold State.putWord
  try dsimp only
  repeat' first
    | (with_reducible
        first
          | assumption | intro _ | apply keep_State_writeMem)

theorem keep_State_readDrum {s0 : State} (s : State) (k d unit a n : Nat) (hs : Keep s0 s) :
    Keep s0 (State.readDrum s k d unit a n).1 := by
  unfold State.readDrum
  try dsimp only
  repeat' first
    | (with_reducible
        first
          | assumption | intro _ | apply keep_State_readMem | apply keep_ite | apply keep_ite1)

theorem keep_State_flushEntry {s0 : State} (s : State) (unit : Nat) (e : MergeEntry) (hs : Keep s0 s) :
    Keep s0 (State.flushEntry s unit e) := by
  unfold State.flushEntry
  try dsimp only
  repeat' first
    | (with_reducible
        first
          | assumption | intro _ | apply keep_State_log | apply keep_State_presentHbm | apply keep_State_touch
          | apply keep_State_writeMem | apply keep_ite)

theorem keep_State_flushMerge {s0 : State} (s : State) (k d : Nat) (pick : MergeEntry → Bool) (hs : Keep s0 s) :
    Keep s0 (State.flushMerge s k d pick) := by
  unfold State.flushMerge
  try dsimp only
  repeat' first
    | (with_reducible
        first
          | assumption | intro _ | apply keep_State_flushEntry | apply keep_State_setDrum | apply keep_foldl)

theorem keep_State_writeLine {s0 : State} (s : State) (k d part unit a n v en p : Nat) (hs : Keep s0 s) :
    Keep s0 (State.writeLine s k d part unit a n v en p) := by
  unfold State.writeLine
  try dsimp only
  repeat' first
    | (with_reducible
        first
          | assumption | intro _ | apply keep_State_flushMerge | apply keep_State_setDrum | apply keep_State_writeMem
          | apply keep_ite | apply keep_ite1)
    | dsimp only | split

theorem keep_State_writeDrum {s0 : State} (s : State) (k d part unit a n v en p : Nat) (hs : Keep s0 s) :
    Keep s0 (State.writeDrum s k d part unit a n v en p) := by
  unfold State.writeDrum
  try dsimp only
  repeat' first
    | (with_reducible
        first
          | assumption | intro _ | apply keep_State_writeLine | apply keep_State_writeMem | apply keep_ite
          | apply keep_ite1 | apply keep_foldl)

-- ===== Sys2Proof/Machine/Journal.lean =====

theorem keep_State_journalRoom {s0 : State} (n : Nat) (s : State)  (hs : Keep s0 s) : Keep s0 (State.journalRoom n s ) := by
  induction n generalizing s  with
  | zero => exact hs
  | succ n ih =>
    unfold State.journalRoom
    try dsimp only
    repeat' first
      | (with_reducible
          first
            | assumption | intro _ | apply ih | apply keep_State_log | apply keep_ite)
      | simp only [keep_mk] | dsimp only | split

theorem keep_State_journal {s0 : State} (s : State) (p writer : Nat) (global : Bool) (addr n : Nat) (hs : Keep s0 s) :
    Keep s0 (State.journal s p writer global addr n) := by
  unfold State.journal
  try dsimp only
  repeat' first
    | (with_reducible
        first
          | assumption | intro _ | apply keep_State_journalRoom | apply keep_ite | apply keep_ite1)
    | simp only [keep_mk]

theorem keep_State_journalDrum {s0 : State} (s : State) (p k d addr n : Nat) (hs : Keep s0 s) :
    Keep s0 (State.journalDrum s p k d addr n) := by
  unfold State.journalDrum
  try dsimp only
  repeat' first
    | (with_reducible
        first
          | assumption | intro _ | apply keep_State_journal | apply keep_ite)

-- ===== Sys2Proof/Machine/Span.lean =====

theorem keep_State_presentFor {s0 : State} (s : State) (a : Actor) (wr : Bool) (ad n : Nat) (hs : Keep s0 s) :
    Keep s0 (State.presentFor s a wr ad n) := by
  unfold State.presentFor
  try dsimp only
  repeat' first
    | (with_reducible
        first
          | assumption | intro _ | apply keep_State_presentHbm | apply keep_ite)

-- ===== Sys2Proof/Machine/FabricOps.lean =====

theorem keep_State_forward {s0 : State} (s : State) (i : Nat) (r : RegName) (j k : Nat) (w : BitVec 64) (hs : Keep s0 s) :
    Keep s0 (State.forward s i r j k w) := by
  unfold State.forward
  try dsimp only
  repeat' first
    | (with_reducible
        first
          | assumption | intro _ | apply keep_ite | apply keep_ite1)
    | simp only [keep_mk]

theorem keep_State_stepItem {s0 : State} (s : State) (p h : Nat) (hs : Keep s0 s) :
    Keep s0 (State.stepItem s p h) := by
  unfold State.stepItem
  try dsimp only
  repeat' first
    | (with_reducible
        first
          | assumption | intro _ | apply keep_ite | apply keep_ite1)
    | simp only [keep_mk]

theorem keep_State_sendCtl {s0 : State} (s : State) (i : Nat) (retry : Option Nat) (hs : Keep s0 s) :
    Keep s0 (State.sendCtl s i retry) := by
  unfold State.sendCtl
  try dsimp only
  repeat' first
    | (with_reducible
        first
          | assumption | intro _)
    | simp only [keep_mk]

theorem keep_State_putOut {s0 : State} (s : State) (p : Pkt) (hs : Keep s0 s) :
    Keep s0 (State.putOut s p) := by
  unfold State.putOut
  try dsimp only
  repeat' first
    | (with_reducible
        first
          | assumption | intro _ | apply keep_State_sendCtl | apply keep_ite | apply keep_ite1)
    | simp only [keep_mk]

theorem keep_State_setTag {s0 : State} (s : State) (n t : Nat) (x : Tag) (hs : Keep s0 s) :
    Keep s0 (State.setTag s n t x) := by
  unfold State.setTag
  try dsimp only
  repeat' first
    | (with_reducible
        first
          | assumption | intro _)
    | simp only [keep_mk]

theorem keep_State_chargeOut {s0 : State} (s : State) (part : Nat) (sub : Option Nat) (port bytes : Nat) (hs : Keep s0 s) :
    Keep s0 (State.chargeOut s part sub port bytes) := by
  unfold State.chargeOut
  try dsimp only
  repeat' first
    | (with_reducible
        first
          | assumption | intro _ | apply keep_State_regCharge | apply keep_State_acct | apply keep_ite
          | apply keep_ite1)
    | dsimp only | split

theorem keep_State_chargeIn {s0 : State} (s : State) (sub : Option Nat) (port bytes : Nat) (hs : Keep s0 s) :
    Keep s0 (State.chargeIn s sub port bytes) := by
  unfold State.chargeIn
  try dsimp only
  repeat' first
    | (with_reducible
        first
          | assumption | intro _ | apply keep_State_acct | apply keep_ite | apply keep_ite1)
    | dsimp only | split

theorem keep_State_noteRelease {s0 : State} (s : State) (h : Held) (hs : Keep s0 s) :
    Keep s0 (State.noteRelease s h) := by
  unfold State.noteRelease
  try dsimp only
  repeat' first
    | (with_reducible
        first
          | assumption | intro _)
    | simp only [keep_mk]

theorem keep_State_sendOut {s0 : State} (s : State) (part : Nat) (p : Pkt) (hs : Keep s0 s) :
    Keep s0 (State.sendOut s part p) := by
  unfold State.sendOut
  try dsimp only
  repeat' first
    | (with_reducible
        first
          | assumption | intro _ | apply keep_State_putOut | apply keep_State_noteRelease)

theorem keep_State_selfAnswer {s0 : State} (s : State) (p : Pkt) (hs : Keep s0 s) :
    Keep s0 (State.selfAnswer s p) := by
  unfold State.selfAnswer
  try dsimp only
  repeat' first
    | (with_reducible
        first
          | assumption | intro _ | apply keep_State_fresh | apply keep_ite | apply keep_ite1)
    | simp only [keep_mk]

theorem keep_State_emit {s0 : State} (s : State) (part : Nat) (seg : Option Sys2Proof.CtxId) (p : Pkt) (hs : Keep s0 s) :
    Keep s0 (State.emit s part seg p) := by
  unfold State.emit
  try dsimp only
  repeat' first
    | (with_reducible
        first
          | assumption | intro _ | apply keep_State_putOut | apply keep_State_selfAnswer | apply keep_State_log
          | apply keep_State_sendOut | apply keep_ite | apply keep_ite1)
    | simp only [keep_mk]
    | dsimp only | split

theorem keep_State_killTag {s0 : State} (s : State) (n t : Nat) (hs : Keep s0 s) :
    Keep s0 (State.killTag s n t) := by
  unfold State.killTag
  try dsimp only
  repeat' first
    | (with_reducible
        first
          | assumption | intro _ | apply keep_State_setTag | apply keep_State_logLimited | apply keep_State_count
          | apply keep_State_log)
    | dsimp only | split

theorem keep_State_noRoute {s0 : State} (s : State) (n t : Nat) (hs : Keep s0 s) :
    Keep s0 (State.noRoute s n t) := by
  unfold State.noRoute
  try dsimp only
  repeat' first
    | (with_reducible
        first
          | assumption | intro _ | apply keep_State_log | apply keep_State_killTag)
    | simp only [keep_mk]

theorem keep_State_issue {s0 : State} (s : State) (part : Nat) (sub : Option Nat) (iss : Issuer) (seg : Option Sys2Proof.CtxId) (answers : Nat) (q : Pkt) (draws : Bool) (hs : Keep s0 s) :
    Keep s0 (State.issue s part sub iss seg answers q draws) := by
  unfold State.issue
  try dsimp only
  repeat' first
    | (with_reducible
        first
          | assumption | intro _ | apply keep_State_setTag | apply keep_State_count | apply keep_State_noRoute
          | apply keep_State_chargeOut | apply keep_State_emit | apply keep_ite | apply keep_ite1)
    | dsimp only | split

theorem keep_State_setInteg {s0 : State} (s : State) (f : Integ → Integ) (hs : Keep s0 s) :
    Keep s0 (State.setInteg s f) := by
  unfold State.setInteg
  try dsimp only
  repeat' first
    | (with_reducible
        first
          | assumption | intro _)
    | simp only [keep_mk]

theorem keep_State_pumpTaint {s0 : State} (s : State) (hs : Keep s0 s) :
    Keep s0 (State.pumpTaint s) := by
  unfold State.pumpTaint
  try dsimp only
  repeat' first
    | (with_reducible
        first
          | assumption | intro _ | apply keep_State_issue | apply keep_State_setInteg | apply keep_State_count
          | apply keep_State_taint | apply keep_ite | apply keep_ite1 | apply keep_foldl)

theorem keep_State_taintRange {s0 : State} (n : Nat) (s : State) (a0 : Nat) (a1 : Nat) (hs : Keep s0 s) : Keep s0 (State.taintRange n s a0 a1) := by
  induction n generalizing s a0 a1 with
  | zero => exact hs
  | succ n ih =>
    unfold State.taintRange
    try dsimp only
    repeat' first
      | (with_reducible
          first
            | assumption | intro _ | apply ih | apply keep_State_setInteg | apply keep_ite)

theorem keep_State_poisonPieces {s0 : State} (s : State) (ps : List (Nat × Piece)) (hs : Keep s0 s) :
    Keep s0 (State.poisonPieces s ps) := by
  unfold State.poisonPieces
  try dsimp only
  repeat' first
    | (with_reducible
        first
          | assumption | intro _ | apply keep_State_taintRange | apply keep_State_pumpTaint
          | apply keep_State_poisonRange | apply keep_ite | apply keep_ite1 | apply keep_foldl)

theorem keep_State_setXfer {s0 : State} (s : State) (x : Nat) (t : Xfer) (hs : Keep s0 s) :
    Keep s0 (State.setXfer s x t) := by
  unfold State.setXfer
  try dsimp only
  repeat' first
    | (with_reducible
        first
          | assumption | intro _)
    | simp only [keep_mk]

theorem keep_State_presentXfer {s0 : State} (s : State) (x : Nat) (t : Xfer) (hs : Keep s0 s) :
    Keep s0 (State.presentXfer s x t) := by
  unfold State.presentXfer
  try dsimp only
  repeat' first
    | (with_reducible
        first
          | assumption | intro _ | apply keep_State_presentHbm | apply keep_State_presentFlash | apply keep_ite)

theorem keep_State_newXfer {s0 : State} (s : State) (t : Xfer) (hs : Keep s0 s) :
    Keep s0 (State.newXfer s t).1 := by
  unfold State.newXfer
  try dsimp only
  repeat' first
    | (with_reducible
        first
          | assumption | intro _ | apply keep_State_setXfer | apply keep_State_presentXfer)
    | simp only [keep_mk]

theorem keep_pumpLoads {s0 : State} (n : Nat) (s : State) (a0 : Nat) (hs : Keep s0 s) : Keep s0 (pumpLoads n s a0) := by
  induction n generalizing s a0 with
  | zero => exact hs
  | succ n ih =>
    unfold pumpLoads
    try dsimp only
    repeat' first
      | (with_reducible
          first
            | assumption | intro _ | apply ih | apply keep_State_setXfer | apply keep_State_issue | apply keep_ite)
      | dsimp only | split

theorem keep_pumpStores {s0 : State} (n : Nat) (s : State) (a0 : Nat) (hs : Keep s0 s) : Keep s0 (pumpStores n s a0) := by
  induction n generalizing s a0 with
  | zero => exact hs
  | succ n ih =>
    unfold pumpStores
    try dsimp only
    repeat' first
      | (with_reducible
          first
            | assumption | intro _ | apply ih | apply keep_State_setXfer | apply keep_State_issue | apply keep_ite)
      | dsimp only | split

theorem keep_State_gather {s0 : State} (s : State) (x : Nat) (drum : Option (Nat × Nat)) (pick : Piece → Bool) (hs : Keep s0 s) :
    Keep s0 (State.gather s x drum pick) := by
  unfold State.gather
  try dsimp only
  repeat' first
    | (with_reducible
        first
          | assumption | intro _ | apply keep_State_readDrum | apply keep_State_readMem | apply keep_State_setXfer
          | apply keep_ite | apply keep_ite1 | apply keep_foldl | apply keep_foldl1)
    | dsimp only | split

theorem keep_State_askFlash {s0 : State} (s : State) (x : Nat) (hs : Keep s0 s) :
    Keep s0 (State.askFlash s x) := by
  unfold State.askFlash
  try dsimp only
  repeat' first
    | (with_reducible
        first
          | assumption | intro _ | apply keep_State_touchMap | apply keep_State_setXfer | apply keep_ite
          | apply keep_ite1 | apply keep_foldl | apply keep_foldl1)
    | dsimp only | split

theorem keep_State_advance {s0 : State} (s : State) (x : Nat) (hs : Keep s0 s) :
    Keep s0 (State.advance s x) := by
  unfold State.advance
  try dsimp only
  repeat' first
    | (with_reducible
        first
          | assumption | intro _ | apply keep_pumpLoads | apply keep_State_askFlash | apply keep_pumpStores
          | apply keep_State_setXfer | apply keep_ite)

theorem keep_State_launch {s0 : State} (s : State) (x : Nat) (drum : Option (Nat × Nat)) (hs : Keep s0 s) :
    Keep s0 (State.launch s x drum) := by
  unfold State.launch
  try dsimp only
  repeat' first
    | (with_reducible
        first
          | assumption | intro _ | apply keep_State_gather | apply keep_State_advance)

theorem keep_State_landed {s0 : State} (s : State) (x o n : Nat) (d : Data) (hs : Keep s0 s) :
    Keep s0 (State.landed s x o n d) := by
  unfold State.landed
  try dsimp only
  repeat' first
    | (with_reducible
        first
          | assumption | intro _ | apply keep_State_setXfer)

theorem keep_State_endXfer {s0 : State} (s : State) (x : Nat) (hs : Keep s0 s) :
    Keep s0 (State.endXfer s x) := by
  unfold State.endXfer
  try dsimp only
  repeat' first
    | (with_reducible
        first
          | assumption | intro _)
    | simp only [keep_mk]

theorem keep_State_abandonXfer {s0 : State} (s : State) (x : Nat) (hs : Keep s0 s) :
    Keep s0 (State.abandonXfer s x) := by
  unfold State.abandonXfer
  try dsimp only
  repeat' first
    | (with_reducible
        first
          | assumption | intro _ | apply keep_State_endXfer | apply keep_State_setXfer | apply keep_ite)

theorem keep_State_onward {s0 : State} (s : State) (x : Nat) (hs : Keep s0 s) :
    Keep s0 (State.onward s x) := by
  unfold State.onward
  try dsimp only
  repeat' first
    | (with_reducible
        first
          | assumption | intro _ | apply keep_State_load | apply keep_State_advance | apply keep_State_endXfer
          | apply keep_ite | apply keep_ite1)
    | dsimp only | split

theorem keep_State_spread {s0 : State} (s : State) (x : Nat) (d : Data) (hs : Keep s0 s) :
    Keep s0 (State.spread s x d) := by
  unfold State.spread
  try dsimp only
  repeat' first
    | (with_reducible
        first
          | assumption | intro _ | apply keep_State_writeMem | apply keep_ite | apply keep_ite1 | apply keep_foldl)

-- ===== Sys2Proof/Machine/ZmiOps.lean =====

theorem keep_State_done {s0 : State} (s : State) (u : CtxId) (hs : Keep s0 s) :
    Keep s0 (State.done s u) := by
  unfold State.done
  try dsimp only
  repeat' first
    | (with_reducible
        first
          | assumption | intro _ | apply keep_State_setCtx)

theorem keep_State_waits {s0 : State} (s : State) (u : CtxId) (w : Wait) (hs : Keep s0 s) :
    Keep s0 (State.waits s u w) := by
  unfold State.waits
  try dsimp only
  repeat' first
    | (with_reducible
        first
          | assumption | intro _ | apply keep_State_setCtx)

theorem keep_State_faultRecord {s0 : State} (s : State) (u : CtxId) (code pc word : Nat) (extra : List Nat) (hs : Keep s0 s) :
    Keep s0 (State.faultRecord s u code pc word extra) := by
  unfold State.faultRecord
  try dsimp only
  repeat' first
    | (with_reducible
        first
          | assumption | intro _ | apply keep_State_pushEv)

theorem keep_State_faults {s0 : State} (s : State) (u : CtxId) (word : Nat) (q : Nat × Nat) (hs : Keep s0 s) :
    Keep s0 (State.faults s u word q) := by
  unfold State.faults
  try dsimp only
  repeat' first
    | (with_reducible
        first
          | assumption | intro _ | apply keep_State_setCtx | apply keep_State_faultRecord)

theorem keep_State_fetch {s0 : State} (s : State) (u : CtxId) (hs : Keep s0 s) :
    Keep s0 (State.fetch s u).1 := by
  unfold State.fetch
  try dsimp only
  repeat' first
    | (with_reducible
        first
          | assumption | intro _ | apply keep_State_readMem | apply keep_State_setDrum | apply keep_ite
          | apply keep_ite1)
    | dsimp only | split

theorem keep_State_run {s0 : State} (s : State) (u : CtxId) (f : Fields) (op : Nat) (legal : Bool) (conds : State → List (Option (Nat × Nat))) (effect : State → State) (hs : Keep s0 s) (heffect : ∀ t, Keep s0 t → Keep s0 (effect t)) :
    Keep s0 (State.run s u f op legal conds effect) := by
  unfold State.run
  try dsimp only
  repeat' first
    | (with_reducible
        first
          | assumption | intro _ | apply heffect | apply keep_State_faults | apply keep_State_fetch | apply keep_ite
          | apply keep_ite1)
    | dsimp only | split

theorem keep_State_run1 {s0 : State} (s : State) (u : CtxId) (f : Fields) (op : Nat) (legal : Bool) (conds : State → List (Option (Nat × Nat))) (effect : State → State) (hs : Keep s0 s) (heffect : ∀ t, Keep s0 t → Keep s0 (effect t)) :
    Keep s0 (State.run1 s u f op legal conds effect) := by
  unfold State.run1
  try dsimp only
  repeat' first
    | (with_reducible
        first
          | assumption | intro _ | apply heffect | apply keep_State_run | apply keep_State_done)

theorem keep_State_putS {s0 : State} (s : State) (u : CtxId) (n : Nat) (v : BitVec 64) (p : Bool) (hs : Keep s0 s) :
    Keep s0 (State.putS s u n v p) := by
  unfold State.putS
  try dsimp only
  repeat' first
    | (with_reducible
        first
          | assumption | intro _ | apply keep_State_setCtx)

theorem keep_State_putX {s0 : State} (s : State) (u : CtxId) (n : Nat) (x : XReg) (hs : Keep s0 s) :
    Keep s0 (State.putX s u n x) := by
  unfold State.putX
  try dsimp only
  repeat' first
    | (with_reducible
        first
          | assumption | intro _ | apply keep_State_setCtx)

theorem keep_State_putTile {s0 : State} (s : State) (u : CtxId) (n : Nat) (data : Nat) (pLo pHi : Bool) (hs : Keep s0 s) :
    Keep s0 (State.putTile s u n data pLo pHi) := by
  unfold State.putTile
  try dsimp only
  repeat' first
    | (with_reducible
        first
          | assumption | intro _ | apply keep_State_setTile)

theorem keep_State_setFlags {s0 : State} (s : State) (u : CtxId) (accOvf accInv cnv vec : Bool) (hs : Keep s0 s) :
    Keep s0 (State.setFlags s u accOvf accInv cnv vec) := by
  unfold State.setFlags
  try dsimp only
  repeat' first
    | (with_reducible
        first
          | assumption | intro _ | apply keep_State_setCtx)

theorem keep_State_ctxCharge {s0 : State} (s : State) (u : CtxId) (wr : Bool) (l : List (Nat × Nat)) (hs : Keep s0 s) :
    Keep s0 (State.ctxCharge s u wr l) := by
  unfold State.ctxCharge
  try dsimp only
  repeat' first
    | (with_reducible
        first
          | assumption | intro _ | apply keep_State_presentHbm)

theorem keep_State_deferCtx {s0 : State} (s : State) (u : CtxId) (wr : Bool) (hs : Keep s0 s) :
    Keep s0 (State.deferCtx s u wr) := by
  unfold State.deferCtx
  try dsimp only
  repeat' first
    | (with_reducible
        first
          | assumption | intro _ | apply keep_State_regDefer | apply keep_State_waits | apply keep_ite)

theorem keep_State_readPieces {s0 : State} (s : State) (u : CtxId) (ps : List (Nat × Piece)) (hs : Keep s0 s) :
    Keep s0 (State.readPieces s u ps).1 := by
  unfold State.readPieces
  try dsimp only
  repeat' first
    | (with_reducible
        first
          | assumption | intro _ | apply keep_State_readDrum | apply keep_foldl | apply keep_foldl1)

theorem keep_State_load {s0 : State} (s : State) (u : CtxId) (word span : Nat) (ps : List (Nat × Piece)) (len : Nat) (fin : State → Data → State) (first : FirstTurn) (hs : Keep s0 s) (hfin : ∀ t x1, Keep s0 t → Keep s0 (fin t x1)) :
    Keep s0 (State.load s u word span ps len fin first) := by
  unfold State.load
  try dsimp only
  repeat' first
    | (with_reducible
        first
          | assumption | intro _ | apply hfin | apply keep_State_ctxCharge | apply keep_State_readPieces
          | apply keep_State_deferCtx | apply keep_State_newXfer | apply keep_State_launch | apply keep_State_waits
          | apply keep_ite)

theorem keep_State_flushLines {s0 : State} (s : State) (u : CtxId) (a n : Nat) (hs : Keep s0 s) :
    Keep s0 (State.flushLines s u a n) := by
  unfold State.flushLines
  try dsimp only
  repeat' first
    | (with_reducible
        first
          | assumption | intro _ | apply keep_State_flushMerge)

theorem keep_State_flushPieces {s0 : State} (s : State) (u : CtxId) (ps : List (Nat × Piece)) (hs : Keep s0 s) :
    Keep s0 (State.flushPieces s u ps) := by
  unfold State.flushPieces
  try dsimp only
  repeat' first
    | (with_reducible
        first
          | assumption | intro _ | apply keep_State_flushLines | apply keep_ite | apply keep_ite1 | apply keep_foldl)

theorem keep_State_post {s0 : State} (s : State) (u : CtxId) (span answers : Nat) (q : Pkt) (hs : Keep s0 s) :
    Keep s0 (State.post s u span answers q) := by
  unfold State.post
  try dsimp only
  repeat' first
    | (with_reducible
        first
          | assumption | intro _ | apply keep_State_issue | apply keep_State_setCtx)

theorem keep_State_postPiece {s0 : State} (s : State) (u : CtxId) (span : Nat) (pc : Piece) (v en p : Nat) (hs : Keep s0 s) :
    Keep s0 (State.postPiece s u span pc v en p) := by
  unfold State.postPiece
  try dsimp only
  repeat' first
    | (with_reducible
        first
          | assumption | intro _ | apply keep_State_post | apply keep_ite)

theorem keep_State_journalRemote {s0 : State} (s : State) (u : CtxId) (addr n : Nat) (hs : Keep s0 s) :
    Keep s0 (State.journalRemote s u addr n) := by
  unfold State.journalRemote
  try dsimp only
  repeat' first
    | (with_reducible
        first
          | assumption | intro _ | apply keep_State_journal | apply keep_ite)

theorem keep_State_storePieces {s0 : State} (s : State) (u : CtxId) (span : Nat) (ps : List (Nat × Piece)) (v en p : Nat) (hs : Keep s0 s) :
    Keep s0 (State.storePieces s u span ps v en p) := by
  unfold State.storePieces
  try dsimp only
  repeat' first
    | (with_reducible
        first
          | assumption | intro _ | apply keep_State_postPiece | apply keep_State_journalRemote
          | apply keep_State_writeDrum | apply keep_State_journalDrum | apply keep_ite | apply keep_ite1
          | apply keep_foldl)

theorem keep_State_store {s0 : State} (s : State) (u : CtxId) (span : Nat) (ps : List (Nat × Piece)) (v en p : Nat) (fin : State → State) (hs : Keep s0 s) (hfin : ∀ t, Keep s0 t → Keep s0 (fin t)) :
    Keep s0 (State.store s u span ps v en p fin) := by
  unfold State.store
  try dsimp only
  repeat' first
    | (with_reducible
        first
          | assumption | intro _ | apply hfin | apply keep_State_waits | apply keep_State_ctxCharge
          | apply keep_State_storePieces | apply keep_State_deferCtx | apply keep_ite)

end Sys2Proof.Machine
end

