-- ==== Sys2Proof/Laws/KeepInstr.lean ====
section
/-!
SUPPORT. Sys2Proof/Laws/KeepInstr.lean: what the operations of the instructions of a mallet keep.
-/
namespace Sys2Proof.Machine

open Sys2Proof (CtxId Fields Upsets ParityErrs)

-- ===== Sys2Proof/Machine/Control.lean =====

theorem keep_execNop {s0 : State} (u : CtxId) (f : Fields) (s : State) (hs : Keep s0 s) : KeepA s0 (execNop u f s) :=
  keep_next (keep_State_run1 _ _ _ _ _ _ _ hs (fun _ h => h))

theorem keep_State_branch {s0 : State} (s : State) (u : CtxId) (f : Fields) (hs : Keep s0 s) :
    Keep s0 (State.branch s u f) := by
  unfold State.branch
  try dsimp only
  repeat' first
    | (with_reducible
        first
          | assumption | intro _ | apply keep_State_setCtx)

theorem keep_execBr {s0 : State} (u : CtxId) (f : Fields) (s : State) (hs : Keep s0 s) :
    KeepA s0 (execBr u f s) := by
  unfold execBr
  try dsimp only
  repeat' first
    | (with_reducible
        first
          | assumption | intro _ | apply keep_next | apply keep_State_run | apply keep_State_branch)

theorem keep_execBrc {s0 : State} (u : CtxId) (f : Fields) (s : State) (hs : Keep s0 s) :
    KeepA s0 (execBrc u f s) := by
  unfold execBrc
  try dsimp only
  repeat' first
    | (with_reducible
        first
          | assumption | intro _ | apply keepA_ite | apply keep_next | apply keep_State_run | apply keep_State_branch
          | apply keep_State_done | apply keep_SrcWalk_run | apply keep_ite)

theorem keep_execLoop {s0 : State} (u : CtxId) (f : Fields) (s : State) (hs : Keep s0 s) :
    KeepA s0 (execLoop u f s) := by
  unfold execLoop
  try dsimp only
  repeat' first
    | (with_reducible
        first
          | assumption | intro _ | apply keepA_ite | apply keep_next | apply keep_State_run | apply keep_State_putS
          | apply keep_State_branch | apply keep_State_done | apply keep_SrcWalk_run | apply keep_ite)

theorem keep_State_closeSegment {s0 : State} (s : State) (u : CtxId) (hs : Keep s0 s) :
    Keep s0 (State.closeSegment s u) := by
  unfold State.closeSegment
  try dsimp only
  repeat' first
    | (with_reducible
        first
          | assumption | intro _ | apply keep_ite | apply keep_ite1)
    | simp only [keep_mk]

theorem keep_execStop {s0 : State} (u : CtxId) (f : Fields) (s : State) (hs : Keep s0 s) :
    KeepA s0 (execStop u f s) := by
  unfold execStop
  try dsimp only
  repeat' first
    | (with_reducible
        first
          | assumption | intro _ | apply keep_next | apply keep_State_run1 | apply keep_State_closeSegment
          | apply keep_State_setCtx)

theorem keep_execCswrd {s0 : State} (u : CtxId) (f : Fields) (s : State) (hs : Keep s0 s) :
    KeepA s0 (execCswrd u f s) := by
  unfold execCswrd
  try dsimp only
  repeat' first
    | (with_reducible
        first
          | assumption | intro _ | apply keep_next | apply keep_State_run1 | apply keep_State_putS)

theorem keep_execCswclr {s0 : State} (u : CtxId) (f : Fields) (s : State) (hs : Keep s0 s) :
    KeepA s0 (execCswclr u f s) := by
  unfold execCswclr
  try dsimp only
  repeat' first
    | (with_reducible
        first
          | assumption | intro _ | apply keep_next | apply keep_State_run1 | apply keep_State_setCtx)

theorem keep_execSbind {s0 : State} (u : CtxId) (f : Fields) (s : State) (hs : Keep s0 s) :
    KeepA s0 (execSbind u f s) := by
  unfold execSbind
  try dsimp only
  repeat' first
    | (with_reducible
        first
          | assumption | intro _ | apply keepA_ite | apply keep_next | apply keep_State_run1
          | apply keep_State_setCtx)

theorem keep_State_scalar {s0 : State} (s : State) (u : CtxId) (f : Fields) (op n : Nat) (g : BitVec 64 → BitVec 64 → BitVec 64) (hs : Keep s0 s) :
    Keep s0 (State.scalar s u f op n g) := by
  unfold State.scalar
  try dsimp only
  repeat' first
    | (with_reducible
        first
          | assumption | intro _ | apply keep_State_run1 | apply keep_State_putS)

theorem keep_execSadd {s0 : State} (u : CtxId) (f : Fields) (s : State) (hs : Keep s0 s) :
    KeepA s0 (execSadd u f s) := by
  unfold execSadd
  try dsimp only
  repeat' first
    | (with_reducible
        first
          | assumption | intro _ | apply keep_next | apply keep_State_scalar)

theorem keep_execSsub {s0 : State} (u : CtxId) (f : Fields) (s : State) (hs : Keep s0 s) :
    KeepA s0 (execSsub u f s) := by
  unfold execSsub
  try dsimp only
  repeat' first
    | (with_reducible
        first
          | assumption | intro _ | apply keep_next | apply keep_State_scalar)

theorem keep_execSmul {s0 : State} (u : CtxId) (f : Fields) (s : State) (hs : Keep s0 s) :
    KeepA s0 (execSmul u f s) := by
  unfold execSmul
  try dsimp only
  repeat' first
    | (with_reducible
        first
          | assumption | intro _ | apply keep_next | apply keep_State_scalar)

theorem keep_execSand {s0 : State} (u : CtxId) (f : Fields) (s : State) (hs : Keep s0 s) :
    KeepA s0 (execSand u f s) := by
  unfold execSand
  try dsimp only
  repeat' first
    | (with_reducible
        first
          | assumption | intro _ | apply keep_next | apply keep_State_scalar)

theorem keep_execSor {s0 : State} (u : CtxId) (f : Fields) (s : State) (hs : Keep s0 s) :
    KeepA s0 (execSor u f s) := by
  unfold execSor
  try dsimp only
  repeat' first
    | (with_reducible
        first
          | assumption | intro _ | apply keep_next | apply keep_State_scalar)

theorem keep_execSxor {s0 : State} (u : CtxId) (f : Fields) (s : State) (hs : Keep s0 s) :
    KeepA s0 (execSxor u f s) := by
  unfold execSxor
  try dsimp only
  repeat' first
    | (with_reducible
        first
          | assumption | intro _ | apply keep_next | apply keep_State_scalar)

theorem keep_execSshl {s0 : State} (u : CtxId) (f : Fields) (s : State) (hs : Keep s0 s) :
    KeepA s0 (execSshl u f s) := by
  unfold execSshl
  try dsimp only
  repeat' first
    | (with_reducible
        first
          | assumption | intro _ | apply keep_next | apply keep_State_scalar)

theorem keep_execSshr {s0 : State} (u : CtxId) (f : Fields) (s : State) (hs : Keep s0 s) :
    KeepA s0 (execSshr u f s) := by
  unfold execSshr
  try dsimp only
  repeat' first
    | (with_reducible
        first
          | assumption | intro _ | apply keep_next | apply keep_State_scalar)

theorem keep_execSsar {s0 : State} (u : CtxId) (f : Fields) (s : State) (hs : Keep s0 s) :
    KeepA s0 (execSsar u f s) := by
  unfold execSsar
  try dsimp only
  repeat' first
    | (with_reducible
        first
          | assumption | intro _ | apply keep_next | apply keep_State_scalar)

theorem keep_execSmin {s0 : State} (u : CtxId) (f : Fields) (s : State) (hs : Keep s0 s) :
    KeepA s0 (execSmin u f s) := by
  unfold execSmin
  try dsimp only
  repeat' first
    | (with_reducible
        first
          | assumption | intro _ | apply keepA_ite | apply keep_next | apply keep_State_scalar)

theorem keep_execSmax {s0 : State} (u : CtxId) (f : Fields) (s : State) (hs : Keep s0 s) :
    KeepA s0 (execSmax u f s) := by
  unfold execSmax
  try dsimp only
  repeat' first
    | (with_reducible
        first
          | assumption | intro _ | apply keepA_ite | apply keep_next | apply keep_State_scalar)

theorem keep_execScmp {s0 : State} (u : CtxId) (f : Fields) (s : State) (hs : Keep s0 s) :
    KeepA s0 (execScmp u f s) := by
  unfold execScmp
  try dsimp only
  repeat' first
    | (with_reducible
        first
          | assumption | intro _ | apply keepA_ite | apply keep_next | apply keep_State_scalar)

theorem keep_execSmovi {s0 : State} (u : CtxId) (f : Fields) (s : State) (hs : Keep s0 s) :
    KeepA s0 (execSmovi u f s) := by
  unfold execSmovi
  try dsimp only
  repeat' first
    | (with_reducible
        first
          | assumption | intro _ | apply keep_next | apply keep_State_run1 | apply keep_State_putS)

theorem keep_execXset {s0 : State} (u : CtxId) (f : Fields) (s : State) (hs : Keep s0 s) :
    KeepA s0 (execXset u f s) := by
  unfold execXset
  try dsimp only
  repeat' first
    | (with_reducible
        first
          | assumption | intro _ | apply keep_next | apply keep_State_run1 | apply keep_State_putX)

theorem keep_execXadd {s0 : State} (u : CtxId) (f : Fields) (s : State) (hs : Keep s0 s) :
    KeepA s0 (execXadd u f s) := by
  unfold execXadd
  try dsimp only
  repeat' first
    | (with_reducible
        first
          | assumption | intro _ | apply keep_next | apply keep_State_run1 | apply keep_State_putX)

theorem keep_execXmov {s0 : State} (u : CtxId) (f : Fields) (s : State) (hs : Keep s0 s) :
    KeepA s0 (execXmov u f s) := by
  unfold execXmov
  try dsimp only
  repeat' first
    | (with_reducible
        first
          | assumption | intro _ | apply keepA_ite | apply keep_next | apply keep_State_run1 | apply keep_State_putS
          | apply keep_State_putX | apply keep_ite)

-- ===== Sys2Proof/Machine/GongOps.lean =====

theorem keep_State_mapCtx {s0 : State} (s : State) (k : Nat) (g : CtxId → Ctx → Ctx) (hs : Keep s0 s) :
    Keep s0 (State.mapCtx s k g) := by
  unfold State.mapCtx
  try dsimp only
  repeat' first
    | (with_reducible
        first
          | assumption | intro _ | apply keep_ite | apply keep_ite1 | apply keep_foldl | apply keep_foldl1)
    | simp only [keep_mk]

theorem keep_State_releaseGong {s0 : State} (s : State) (p l : Nat) (hs : Keep s0 s) :
    Keep s0 (State.releaseGong s p l) := by
  unfold State.releaseGong
  try dsimp only
  repeat' first
    | (with_reducible
        first
          | assumption | intro _ | apply keep_State_mapCtx | apply keep_ite | apply keep_ite1 | apply keep_foldl)

theorem keep_State_advanceLayers {s0 : State} (s : State) (p l : Nat) (hs : Keep s0 s) :
    Keep s0 (State.advanceLayers s p l) := by
  unfold State.advanceLayers
  try dsimp only
  repeat' first
    | (with_reducible
        first
          | assumption | intro _ | apply keep_State_setF | apply keep_ite | apply keep_ite1 | apply keep_foldl)

theorem keep_State_soundLocal {s0 : State} (s : State) (p l : Nat) (hs : Keep s0 s) :
    Keep s0 (State.soundLocal s p l) := by
  unfold State.soundLocal
  try dsimp only
  repeat' first
    | (with_reducible
        first
          | assumption | intro _ | apply keep_State_setPart | apply keep_State_releaseGong
          | apply keep_State_advanceLayers)

theorem keep_State_pumpArrive {s0 : State} (s : State) (p l : Nat) (hs : Keep s0 s) :
    Keep s0 (State.pumpArrive s p l) := by
  unfold State.pumpArrive
  try dsimp only
  repeat' first
    | (with_reducible
        first
          | assumption | intro _ | apply keep_State_issue | apply keep_ite | apply keep_ite1)
    | simp only [keep_mk]

theorem keep_State_pumpSounds {s0 : State} (s : State) (hs : Keep s0 s) :
    Keep s0 (State.pumpSounds s) := by
  unfold State.pumpSounds
  try dsimp only
  repeat' first
    | (with_reducible
        first
          | assumption | intro _ | apply keep_State_issue | apply keep_State_log | apply keep_ite | apply keep_ite1
          | apply keep_foldl | apply keep_foldl1)
    | simp only [keep_mk]

theorem keep_State_sendSound {s0 : State} (s : State) (p l phase : Nat) (hs : Keep s0 s) :
    Keep s0 (State.sendSound s p l phase) := by
  unfold State.sendSound
  try dsimp only
  repeat' first
    | (with_reducible
        first
          | assumption | intro _ | apply keep_State_pumpSounds)
    | simp only [keep_mk]

theorem keep_State_countArrivals {s0 : State} (n : Nat) (s : State) (a0 : Nat) (a1 : Nat) (a2 : Nat) (hs : Keep s0 s) : Keep s0 (State.countArrivals n s a0 a1 a2) := by
  induction n generalizing s a0 a1 a2 with
  | zero => exact hs
  | succ n ih =>
    unfold State.countArrivals
    try dsimp only
    repeat' first
      | (with_reducible
          first
            | assumption | intro _ | apply ih | apply keep_State_setF | apply keep_State_soundLocal | apply keep_State_sendSound
            | apply keep_ite)

theorem keep_State_arriveAt {s0 : State} (s : State) (p l : Nat) (hs : Keep s0 s) :
    Keep s0 (State.arriveAt s p l) := by
  unfold State.arriveAt
  try dsimp only
  repeat' first
    | (with_reducible
        first
          | assumption | intro _ | apply keep_State_countArrivals | apply keep_State_pumpArrive | apply keep_ite
          | apply keep_ite1)
    | simp only [keep_mk]

theorem keep_State_soundRemote {s0 : State} (s : State) (p l phase : Nat) (hs : Keep s0 s) :
    Keep s0 (State.soundRemote s p l phase) := by
  unfold State.soundRemote
  try dsimp only
  repeat' first
    | (with_reducible
        first
          | assumption | intro _ | apply keep_State_setF | apply keep_State_soundLocal | apply keep_State_pumpArrive)
    | simp only [keep_mk]

theorem keep_State_contextArrives {s0 : State} (s : State) (u : CtxId) (p l : Nat) (hs : Keep s0 s) :
    Keep s0 (State.contextArrives s u p l).1 := by
  unfold State.contextArrives
  try dsimp only
  repeat' first
    | (with_reducible
        first
          | assumption | intro _ | apply keep_State_fresh | apply keep_State_setPart | apply keep_ite
          | apply keep_ite1)

-- ===== Sys2Proof/Machine/MemInstr.lean =====

theorem keep_State_finishTld {s0 : State} (s : State) (u : CtxId) (f : Fields) (d : Data) (hs : Keep s0 s) :
    Keep s0 (State.finishTld s u f d) := by
  unfold State.finishTld
  try dsimp only
  repeat' first
    | (with_reducible
        first
          | assumption | intro _ | apply keep_State_putTile | apply keep_State_done)

theorem keep_State_xbarParity {s0 : State} (s : State) (u : CtxId) (seg : Option Nat) (d : Data) (n : Nat) (hs : Keep s0 s) :
    Keep s0 (State.xbarParity s u seg d n).1 := by
  unfold State.xbarParity
  try dsimp only
  repeat' first
    | (with_reducible
        first
          | assumption | intro _ | apply keep_State_count | apply keep_State_log | apply keep_State_observe)
    | dsimp only | split

theorem keep_State_onTiles {s0 : State} (s : State) (u : CtxId) (ts : List Nat) (k : State → State) (hs : Keep s0 s) (hk : ∀ t, Keep s0 t → Keep s0 (k t)) :
    Keep s0 (State.onTiles s u ts k) := by
  unfold State.onTiles
  try dsimp only
  repeat' first
    | (with_reducible
        first
          | assumption | intro _ | apply hk | apply keep_State_waits | apply keep_ite)

theorem keep_execTld {s0 : State} (u : CtxId) (f : Fields) (e : Upsets) (s : State) (hs : Keep s0 s) :
    KeepA s0 (execTld u f e s) := by
  unfold execTld
  try dsimp only
  repeat' first
    | (with_reducible
        first
          | assumption | intro _ | apply keep_next | apply keep_State_strike | apply keep_State_run
          | apply keep_State_onTiles | apply keep_State_load | apply keep_State_xbarParity
          | apply keep_State_finishTld)

theorem keep_State_finishScld {s0 : State} (s : State) (u : CtxId) (f : Fields) (d : Data) (hs : Keep s0 s) :
    Keep s0 (State.finishScld s u f d) := by
  unfold State.finishScld
  try dsimp only
  repeat' first
    | (with_reducible
        first
          | assumption | intro _ | apply keep_State_setTile | apply keep_State_done)

theorem keep_execScld {s0 : State} (u : CtxId) (f : Fields) (s : State) (hs : Keep s0 s) :
    KeepA s0 (execScld u f s) := by
  unfold execScld
  try dsimp only
  repeat' first
    | (with_reducible
        first
          | assumption | intro _ | apply keep_next | apply keep_State_run | apply keep_State_onTiles
          | apply keep_State_load | apply keep_State_finishScld)

theorem keep_State_finishSld {s0 : State} (s : State) (u : CtxId) (f : Fields) (d : Data) (hs : Keep s0 s) :
    Keep s0 (State.finishSld s u f d) := by
  unfold State.finishSld
  try dsimp only
  repeat' first
    | (with_reducible
        first
          | assumption | intro _ | apply keep_State_putS | apply keep_State_done)

theorem keep_execSld {s0 : State} (u : CtxId) (f : Fields) (s : State) (hs : Keep s0 s) :
    KeepA s0 (execSld u f s) := by
  unfold execSld
  try dsimp only
  repeat' first
    | (with_reducible
        first
          | assumption | intro _ | apply keep_next | apply keep_State_run | apply keep_State_load
          | apply keep_State_finishSld)

theorem keep_State_finishAld {s0 : State} (s : State) (u : CtxId) (f : Fields) (t : FirstTurn) (d : Data) (hs : Keep s0 s) :
    Keep s0 (State.finishAld s u f t d) := by
  unfold State.finishAld
  try dsimp only
  repeat' first
    | (with_reducible
        first
          | assumption | intro _ | apply keep_State_setAcc | apply keep_State_done)

theorem keep_execAld {s0 : State} (u : CtxId) (f : Fields) (s : State) (hs : Keep s0 s) :
    KeepA s0 (execAld u f s) := by
  unfold execAld
  try dsimp only
  repeat' first
    | (with_reducible
        first
          | assumption | intro _ | apply keep_next | apply keep_State_run | apply keep_State_load
          | apply keep_State_finishAld)

theorem keep_execTst {s0 : State} (u : CtxId) (f : Fields) (s : State) (hs : Keep s0 s) :
    KeepA s0 (execTst u f s) := by
  unfold execTst
  try dsimp only
  repeat' first
    | (with_reducible
        first
          | assumption | intro _ | apply keep_next | apply keep_State_run | apply keep_State_onTiles
          | apply keep_State_store | apply keep_State_done)

theorem keep_execScst {s0 : State} (u : CtxId) (f : Fields) (s : State) (hs : Keep s0 s) :
    KeepA s0 (execScst u f s) := by
  unfold execScst
  try dsimp only
  repeat' first
    | (with_reducible
        first
          | assumption | intro _ | apply keep_next | apply keep_State_run | apply keep_State_onTiles
          | apply keep_State_store | apply keep_State_done)

theorem keep_execSst {s0 : State} (u : CtxId) (f : Fields) (s : State) (hs : Keep s0 s) :
    KeepA s0 (execSst u f s) := by
  unfold execSst
  try dsimp only
  repeat' first
    | (with_reducible
        first
          | assumption | intro _ | apply keep_next | apply keep_State_run | apply keep_State_store
          | apply keep_State_done)

theorem keep_State_readoutFlags {s0 : State} (s : State) (u : CtxId) (a : Acc) (e : Nat) (hs : Keep s0 s) :
    Keep s0 (State.readoutFlags s u a e) := by
  unfold State.readoutFlags
  try dsimp only
  repeat' first
    | (with_reducible
        first
          | assumption | intro _ | apply keep_State_setFlags)

theorem keep_execAst {s0 : State} (u : CtxId) (f : Fields) (s : State) (hs : Keep s0 s) :
    KeepA s0 (execAst u f s) := by
  unfold execAst
  try dsimp only
  repeat' first
    | (with_reducible
        first
          | assumption | intro _ | apply keepA_ite | apply keep_next | apply keep_State_run | apply keep_State_store
          | apply keep_State_done | apply keep_State_readoutFlags | apply keep_SrcWalk_run | apply keep_ite)

theorem keep_State_flagUp {s0 : State} (s : State) (u : CtxId) (n : Nat) (hs : Keep s0 s) :
    Keep s0 (State.flagUp s u n) := by
  unfold State.flagUp
  try dsimp only
  repeat' first
    | (with_reducible
        first
          | assumption | intro _ | apply keep_State_setCtx)

theorem keep_State_flagDown {s0 : State} (s : State) (u : CtxId) (n : Nat) (hs : Keep s0 s) :
    Keep s0 (State.flagDown s u n) := by
  unfold State.flagDown
  try dsimp only
  repeat' first
    | (with_reducible
        first
          | assumption | intro _ | apply keep_State_setCtx)

theorem keep_execAldt {s0 : State} (u : CtxId) (f : Fields) (s : State) (hs : Keep s0 s) :
    KeepA s0 (execAldt u f s) := by
  unfold execAldt
  try dsimp only
  repeat' first
    | (with_reducible
        first
          | assumption | intro _ | apply keepA_ite | apply keep_next | apply keep_State_run
          | apply keep_State_onTiles | apply keep_State_waits | apply keep_State_newXfer | apply keep_State_setTile
          | apply keep_State_flagUp | apply keep_State_launch | apply keep_State_done | apply keep_SrcWalk_run
          | apply keep_ite | apply keep_ite1 | apply keep_foldl)

theorem keep_execAcpy {s0 : State} (u : CtxId) (f : Fields) (s : State) (hs : Keep s0 s) :
    KeepA s0 (execAcpy u f s) := by
  unfold execAcpy
  try dsimp only
  repeat' first
    | (with_reducible
        first
          | assumption | intro _ | apply keepA_ite | apply keep_next | apply keep_State_run | apply keep_State_waits
          | apply keep_State_flushPieces | apply keep_State_newXfer | apply keep_State_flagUp
          | apply keep_State_launch | apply keep_State_done | apply keep_SrcWalk_run | apply keep_ite)

theorem keep_execWaitf {s0 : State} (u : CtxId) (f : Fields) (s : State) (hs : Keep s0 s) :
    KeepA s0 (execWaitf u f s) := by
  unfold execWaitf
  try dsimp only
  repeat' first
    | (with_reducible
        first
          | assumption | intro _ | apply keepA_ite | apply keep_next | apply keep_State_run | apply keep_State_done
          | apply keep_State_waits | apply keep_SrcWalk_run | apply keep_ite)

theorem keep_execWaitd {s0 : State} (u : CtxId) (f : Fields) (s : State) (hs : Keep s0 s) :
    KeepA s0 (execWaitd u f s) := by
  unfold execWaitd
  try dsimp only
  repeat' first
    | (with_reducible
        first
          | assumption | intro _ | apply keepA_ite | apply keep_next | apply keep_State_run | apply keep_State_done
          | apply keep_State_setCtx | apply keep_State_waits | apply keep_SrcWalk_run | apply keep_ite)

theorem keep_State_landTiles {s0 : State} (s : State) (u : CtxId) (rd n : Nat) (d : Data) (hs : Keep s0 s) :
    Keep s0 (State.landTiles s u rd n d) := by
  unfold State.landTiles
  try dsimp only
  repeat' first
    | (with_reducible
        first
          | assumption | intro _ | apply keep_State_setTile | apply keep_foldl)

theorem keep_State_finishAsync {s0 : State} (s : State) (x : Nat) (d : Data) (hs : Keep s0 s) :
    Keep s0 (State.finishAsync s x d) := by
  unfold State.finishAsync
  try dsimp only
  repeat' first
    | (with_reducible
        first
          | assumption | intro _ | apply keep_State_landTiles | apply keep_State_flagDown | apply keep_State_endXfer
          | apply keep_State_spread)
    | dsimp only | split

-- ===== Sys2Proof/Machine/FabInstr.lean =====

theorem keep_State_atomicMem {s0 : State} (s : State) (unit a : Nat) (cas : Bool) (v c : Nat) (hs : Keep s0 s) :
    Keep s0 (State.atomicMem s unit a cas v c).1 := by
  unfold State.atomicMem
  try dsimp only
  repeat' first
    | (with_reducible
        first
          | assumption | intro _ | apply keep_State_readMem | apply keep_State_writeMem | apply keep_ite
          | apply keep_ite1)

theorem keep_State_redMem {s0 : State} (s : State) (unit a n form en : Nat) (d : Data) (hs : Keep s0 s) :
    Keep s0 (State.redMem s unit a n form en d) := by
  unfold State.redMem
  try dsimp only
  repeat' first
    | (with_reducible
        first
          | assumption | intro _ | apply keep_State_readMem | apply keep_State_writeMem)

theorem keep_execPeal {s0 : State} (u : CtxId) (f : Fields) (s : State) (hs : Keep s0 s) :
    KeepA s0 (execPeal u f s) := by
  unfold execPeal
  try dsimp only
  repeat' first
    | (with_reducible
        first
          | assumption | intro _ | apply keepA_ite | apply keep_next | apply keep_State_run
          | apply keep_State_onTiles | apply keep_State_log | apply keep_State_done | apply keep_State_fresh
          | apply keep_State_post | apply keep_State_journalRemote | apply keep_State_waits | apply keep_SrcWalk_run
          | apply keep_ite)

theorem keep_State_finishAtom {s0 : State} (s : State) (u : CtxId) (f : Fields) (d : Data) (hs : Keep s0 s) :
    Keep s0 (State.finishAtom s u f d) := by
  unfold State.finishAtom
  try dsimp only
  repeat' first
    | (with_reducible
        first
          | assumption | intro _ | apply keep_State_putS | apply keep_State_done)

theorem keep_State_rmwCharge {s0 : State} (s : State) (u : CtxId) (a n : Nat) (hs : Keep s0 s) :
    Keep s0 (State.rmwCharge s u a n) := by
  unfold State.rmwCharge
  try dsimp only
  repeat' first
    | (with_reducible
        first
          | assumption | intro _ | apply keep_State_ctxCharge)

theorem keep_execAtom {s0 : State} (u : CtxId) (f : Fields) (s : State) (hs : Keep s0 s) :
    KeepA s0 (execAtom u f s) := by
  unfold execAtom
  try dsimp only
  repeat' first
    | (with_reducible
        first
          | assumption | intro _ | apply keepA_ite | apply keep_next | apply keep_State_issue | apply keep_State_run
          | apply keep_State_newXfer | apply keep_State_load | apply keep_State_journalRemote
          | apply keep_State_closeSegment | apply keep_State_waits | apply keep_State_deferCtx
          | apply keep_State_flushLines | apply keep_State_rmwCharge | apply keep_State_atomicMem
          | apply keep_State_journalDrum | apply keep_State_finishAtom | apply keep_SrcWalk_run | apply keep_ite
          | apply keep_ite1)
    | dsimp only | split

theorem keep_execRed {s0 : State} (u : CtxId) (f : Fields) (s : State) (hs : Keep s0 s) :
    KeepA s0 (execRed u f s) := by
  unfold execRed
  try dsimp only
  repeat' first
    | (with_reducible
        first
          | assumption | intro _ | apply keepA_ite | apply keep_next | apply keep_State_run
          | apply keep_State_onTiles | apply keep_State_readoutFlags | apply keep_State_done
          | apply keep_State_deferCtx | apply keep_State_flushLines | apply keep_State_rmwCharge
          | apply keep_State_redMem | apply keep_State_journalDrum | apply keep_State_post
          | apply keep_State_journalRemote | apply keep_State_waits | apply keep_SrcWalk_run | apply keep_ite
          | apply keep_ite1 | apply keep_foldl | apply keep_foldl1)
    | dsimp only | split

theorem keep_execFence {s0 : State} (u : CtxId) (f : Fields) (s : State) (hs : Keep s0 s) :
    KeepA s0 (execFence u f s) := by
  unfold execFence
  try dsimp only
  repeat' first
    | (with_reducible
        first
          | assumption | intro _ | apply keepA_ite | apply keep_next | apply keep_State_run
          | apply keep_State_flushMerge | apply keep_State_closeSegment | apply keep_State_waits
          | apply keep_State_done | apply keep_SrcWalk_run | apply keep_ite)

theorem keep_execGong {s0 : State} (u : CtxId) (f : Fields) (s : State) (hs : Keep s0 s) :
    KeepA s0 (execGong u f s) := by
  unfold execGong
  try dsimp only
  repeat' first
    | (with_reducible
        first
          | assumption | intro _ | apply keepA_ite | apply keep_next | apply keep_State_run
          | apply keep_State_soundLocal | apply keep_State_done | apply keep_State_waits
          | apply keep_State_flushMerge | apply keep_State_closeSegment | apply keep_SrcWalk_run | apply keep_ite)

theorem keep_execGongArrivalCounted {s0 : State} (u : CtxId) (s : State) (hs : Keep s0 s) :
    KeepA s0 (execGongArrivalCounted u s) := by
  unfold execGongArrivalCounted
  try dsimp only
  repeat' first
    | (with_reducible
        first
          | assumption | intro _ | apply keepA_ite | apply keep_next | apply keep_State_contextArrives
          | apply keep_State_waits | apply keep_State_done | apply keep_State_arriveAt | apply keep_ite
          | apply keep_ite1)
    | dsimp only | split

-- ===== Sys2Proof/Machine/TileInstr.lean =====

theorem keep_execAopen {s0 : State} (u : CtxId) (f : Fields) (s : State) (hs : Keep s0 s) :
    KeepA s0 (execAopen u f s) := by
  unfold execAopen
  try dsimp only
  repeat' first
    | (with_reducible
        first
          | assumption | intro _ | apply keep_next | apply keep_State_run1 | apply keep_State_setAcc)

theorem keep_State_regParity {s0 : State} (s : State) (u : CtxId) (f : Fields) (e : ParityErrs) (hs : Keep s0 s) :
    Keep s0 (State.regParity s u f e) := by
  unfold State.regParity
  try dsimp only
  repeat' first
    | (with_reducible
        first
          | assumption | intro _ | apply keep_State_count | apply keep_State_log | apply keep_foldl)

theorem keep_State_countTmac {s0 : State} (s : State) (u : CtxId) (q : TmacIn) (hs : Keep s0 s) :
    Keep s0 (State.countTmac s u q) := by
  unfold State.countTmac
  try dsimp only
  repeat' first
    | (with_reducible
        first
          | assumption | intro _ | apply keep_State_count | apply keep_ite)

theorem keep_execTmac {s0 : State} (u : CtxId) (f : Fields) (e : ParityErrs) (s : State) (hs : Keep s0 s) :
    KeepA s0 (execTmac u f e s) := by
  unfold execTmac
  try dsimp only
  repeat' first
    | (with_reducible
        first
          | assumption | intro _ | apply keepA_ite | apply keep_next | apply keep_State_run
          | apply keep_State_onTiles | apply keep_State_regParity | apply keep_State_countTmac
          | apply keep_State_setAcc | apply keep_State_done)

theorem keep_execAcomb {s0 : State} (u : CtxId) (f : Fields) (s : State) (hs : Keep s0 s) :
    KeepA s0 (execAcomb u f s) := by
  unfold execAcomb
  try dsimp only
  repeat' first
    | (with_reducible
        first
          | assumption | intro _ | apply keep_next | apply keep_State_run1 | apply keep_State_setAcc)

theorem keep_execAreanc {s0 : State} (u : CtxId) (f : Fields) (s : State) (hs : Keep s0 s) :
    KeepA s0 (execAreanc u f s) := by
  unfold execAreanc
  try dsimp only
  repeat' first
    | (with_reducible
        first
          | assumption | intro _ | apply keep_next | apply keep_State_run1 | apply keep_State_setAcc)

theorem keep_execAadd {s0 : State} (u : CtxId) (f : Fields) (s : State) (hs : Keep s0 s) :
    KeepA s0 (execAadd u f s) := by
  unfold execAadd
  try dsimp only
  repeat' first
    | (with_reducible
        first
          | assumption | intro _ | apply keep_next | apply keep_State_run | apply keep_State_onTiles
          | apply keep_State_setAcc | apply keep_State_done)

theorem keep_execAcvt {s0 : State} (u : CtxId) (f : Fields) (s : State) (hs : Keep s0 s) :
    KeepA s0 (execAcvt u f s) := by
  unfold execAcvt
  try dsimp only
  repeat' first
    | (with_reducible
        first
          | assumption | intro _ | apply keep_next | apply keep_State_run | apply keep_State_onTiles
          | apply keep_State_setFlags | apply keep_State_setTile | apply keep_State_done)

theorem keep_execAcvtmx {s0 : State} (u : CtxId) (f : Fields) (s : State) (hs : Keep s0 s) :
    KeepA s0 (execAcvtmx u f s) := by
  unfold execAcvtmx
  try dsimp only
  repeat' first
    | (with_reducible
        first
          | assumption | intro _ | apply keep_next | apply keep_State_run | apply keep_State_onTiles
          | apply keep_State_setFlags | apply keep_State_setTile | apply keep_State_done)

theorem keep_State_finishTga {s0 : State} (s : State) (u : CtxId) (f : Fields) (ft : FirstTurn) (d : Data) (hs : Keep s0 s) :
    Keep s0 (State.finishTga s u f ft d) := by
  unfold State.finishTga
  try dsimp only
  repeat' first
    | (with_reducible
        first
          | assumption | intro _ | apply keep_State_setAcc | apply keep_State_done)

theorem keep_execTga {s0 : State} (u : CtxId) (f : Fields) (s : State) (hs : Keep s0 s) :
    KeepA s0 (execTga u f s) := by
  unfold execTga
  try dsimp only
  repeat' first
    | (with_reducible
        first
          | assumption | intro _ | apply keep_next | apply keep_State_run | apply keep_State_onTiles
          | apply keep_State_load | apply keep_State_finishTga)

-- ===== Sys2Proof/Machine/VecInstr.lean =====

theorem keep_State_vecOut {s0 : State} (s : State) (u : CtxId) (f : Fields) (e : Nat) (r : Nat → Nat × VFlags) (p : Nat → Bool) (hs : Keep s0 s) :
    Keep s0 (State.vecOut s u f e r p) := by
  unfold State.vecOut
  try dsimp only
  repeat' first
    | (with_reducible
        first
          | assumption | intro _ | apply keep_State_setFlags | apply keep_State_setTile | apply keep_State_done)

theorem keep_State_vec2 {s0 : State} (s : State) (u : CtxId) (f : Fields) (op : Nat) (g : Nat → Nat → Nat × VFlags) (hs : Keep s0 s) :
    Keep s0 (State.vec2 s u f op g) := by
  unfold State.vec2
  try dsimp only
  repeat' first
    | (with_reducible
        first
          | assumption | intro _ | apply keep_State_run | apply keep_State_onTiles | apply keep_State_vecOut)

theorem keep_execVadd {s0 : State} (u : CtxId) (f : Fields) (s : State) (hs : Keep s0 s) :
    KeepA s0 (execVadd u f s) := by
  unfold execVadd
  try dsimp only
  repeat' first
    | (with_reducible
        first
          | assumption | intro _ | apply keep_next | apply keep_State_vec2)

theorem keep_execVsub {s0 : State} (u : CtxId) (f : Fields) (s : State) (hs : Keep s0 s) :
    KeepA s0 (execVsub u f s) := by
  unfold execVsub
  try dsimp only
  repeat' first
    | (with_reducible
        first
          | assumption | intro _ | apply keep_next | apply keep_State_vec2)

theorem keep_execVmul {s0 : State} (u : CtxId) (f : Fields) (s : State) (hs : Keep s0 s) :
    KeepA s0 (execVmul u f s) := by
  unfold execVmul
  try dsimp only
  repeat' first
    | (with_reducible
        first
          | assumption | intro _ | apply keep_next | apply keep_State_vec2)

theorem keep_execVmin {s0 : State} (u : CtxId) (f : Fields) (s : State) (hs : Keep s0 s) :
    KeepA s0 (execVmin u f s) := by
  unfold execVmin
  try dsimp only
  repeat' first
    | (with_reducible
        first
          | assumption | intro _ | apply keep_next | apply keep_State_vec2)

theorem keep_execVmax {s0 : State} (u : CtxId) (f : Fields) (s : State) (hs : Keep s0 s) :
    KeepA s0 (execVmax u f s) := by
  unfold execVmax
  try dsimp only
  repeat' first
    | (with_reducible
        first
          | assumption | intro _ | apply keep_next | apply keep_State_vec2)

theorem keep_execVfma {s0 : State} (u : CtxId) (f : Fields) (s : State) (hs : Keep s0 s) :
    KeepA s0 (execVfma u f s) := by
  unfold execVfma
  try dsimp only
  repeat' first
    | (with_reducible
        first
          | assumption | intro _ | apply keepA_ite | apply keep_next | apply keep_State_run
          | apply keep_State_onTiles | apply keep_State_vecOut)

theorem keep_execVfn {s0 : State} (u : CtxId) (f : Fields) (s : State) (hs : Keep s0 s) :
    KeepA s0 (execVfn u f s) := by
  unfold execVfn
  try dsimp only
  repeat' first
    | (with_reducible
        first
          | assumption | intro _ | apply keep_next | apply keep_State_run | apply keep_State_onTiles
          | apply keep_State_vecOut)

theorem keep_execVsmx {s0 : State} (u : CtxId) (f : Fields) (s : State) (hs : Keep s0 s) :
    KeepA s0 (execVsmx u f s) := by
  unfold execVsmx
  try dsimp only
  repeat' first
    | (with_reducible
        first
          | assumption | intro _ | apply keep_next | apply keep_State_run | apply keep_State_onTiles
          | apply keep_State_vecOut)

theorem keep_execVcvt {s0 : State} (u : CtxId) (f : Fields) (s : State) (hs : Keep s0 s) :
    KeepA s0 (execVcvt u f s) := by
  unfold execVcvt
  try dsimp only
  repeat' first
    | (with_reducible
        first
          | assumption | intro _ | apply keep_next | apply keep_State_run | apply keep_State_onTiles
          | apply keep_State_setFlags | apply keep_State_setTile | apply keep_State_done)

theorem keep_execVred {s0 : State} (u : CtxId) (f : Fields) (s : State) (hs : Keep s0 s) :
    KeepA s0 (execVred u f s) := by
  unfold execVred
  try dsimp only
  repeat' first
    | (with_reducible
        first
          | assumption | intro _ | apply keepA_ite | apply keep_next | apply keep_State_run
          | apply keep_State_onTiles | apply keep_State_setFlags | apply keep_State_putS | apply keep_State_done)

theorem keep_execVbc {s0 : State} (u : CtxId) (f : Fields) (s : State) (hs : Keep s0 s) :
    KeepA s0 (execVbc u f s) := by
  unfold execVbc
  try dsimp only
  repeat' first
    | (with_reducible
        first
          | assumption | intro _ | apply keep_next | apply keep_State_run | apply keep_State_onTiles
          | apply keep_State_vecOut)

theorem keep_execVsel {s0 : State} (u : CtxId) (f : Fields) (s : State) (hs : Keep s0 s) :
    KeepA s0 (execVsel u f s) := by
  unfold execVsel
  try dsimp only
  repeat' first
    | (with_reducible
        first
          | assumption | intro _ | apply keepA_ite | apply keep_next | apply keep_State_run
          | apply keep_State_onTiles | apply keep_State_vecOut)

-- ===== Sys2Proof/Machine/MaskInstr.lean =====

theorem keep_State_putM {s0 : State} (s : State) (u : CtxId) (n v : Nat) (hs : Keep s0 s) :
    Keep s0 (State.putM s u n v) := by
  unfold State.putM
  try dsimp only
  repeat' first
    | (with_reducible
        first
          | assumption | intro _ | apply keep_State_setCtx)

theorem keep_execMset {s0 : State} (u : CtxId) (f : Fields) (s : State) (hs : Keep s0 s) :
    KeepA s0 (execMset u f s) := by
  unfold execMset
  try dsimp only
  repeat' first
    | (with_reducible
        first
          | assumption | intro _ | apply keep_next | apply keep_State_run1 | apply keep_State_putM)

theorem keep_execMop {s0 : State} (u : CtxId) (f : Fields) (s : State) (hs : Keep s0 s) :
    KeepA s0 (execMop u f s) := by
  unfold execMop
  try dsimp only
  repeat' first
    | (with_reducible
        first
          | assumption | intro _ | apply keep_next | apply keep_State_run1 | apply keep_State_putM)

theorem keep_execMcmp {s0 : State} (u : CtxId) (f : Fields) (s : State) (hs : Keep s0 s) :
    KeepA s0 (execMcmp u f s) := by
  unfold execMcmp
  try dsimp only
  repeat' first
    | (with_reducible
        first
          | assumption | intro _ | apply keepA_ite | apply keep_next | apply keep_State_run
          | apply keep_State_onTiles | apply keep_State_putM | apply keep_State_done)

theorem keep_execCausal {s0 : State} (u : CtxId) (f : Fields) (s : State) (hs : Keep s0 s) :
    KeepA s0 (execCausal u f s) := by
  unfold execCausal
  try dsimp only
  repeat' first
    | (with_reducible
        first
          | assumption | intro _ | apply keep_next | apply keep_State_run1 | apply keep_State_putM)

theorem keep_execCausalb {s0 : State} (u : CtxId) (f : Fields) (s : State) (hs : Keep s0 s) :
    KeepA s0 (execCausalb u f s) := by
  unfold execCausalb
  try dsimp only
  repeat' first
    | (with_reducible
        first
          | assumption | intro _ | apply keepA_ite | apply keep_next | apply keep_State_run1 | apply keep_State_count
          | apply keep_State_putS)

theorem keep_execMpop {s0 : State} (u : CtxId) (f : Fields) (s : State) (hs : Keep s0 s) :
    KeepA s0 (execMpop u f s) := by
  unfold execMpop
  try dsimp only
  repeat' first
    | (with_reducible
        first
          | assumption | intro _ | apply keep_next | apply keep_State_run1 | apply keep_State_putS)

theorem keep_execSpchk {s0 : State} (u : CtxId) (f : Fields) (s : State) (hs : Keep s0 s) :
    KeepA s0 (execSpchk u f s) := by
  unfold execSpchk
  try dsimp only
  repeat' first
    | (with_reducible
        first
          | assumption | intro _ | apply keep_next | apply keep_State_run | apply keep_State_onTiles
          | apply keep_State_putS | apply keep_State_done)

theorem keep_execDraw {s0 : State} (u : CtxId) (f : Fields) (s : State) (hs : Keep s0 s) :
    KeepA s0 (execDraw u f s) := by
  unfold execDraw
  try dsimp only
  repeat' first
    | (with_reducible
        first
          | assumption | intro _ | apply keep_next | apply keep_State_run1 | apply keep_State_putS)

theorem keep_execPtest {s0 : State} (u : CtxId) (f : Fields) (s : State) (hs : Keep s0 s) :
    KeepA s0 (execPtest u f s) := by
  unfold execPtest
  try dsimp only
  repeat' first
    | (with_reducible
        first
          | assumption | intro _ | apply keepA_ite | apply keep_next | apply keep_State_run
          | apply keep_State_onTiles | apply keep_State_putS | apply keep_State_done)

theorem keep_State_pmark {s0 : State} (s : State) (u : CtxId) (f : Fields) (hs : Keep s0 s) :
    Keep s0 (State.pmark s u f) := by
  unfold State.pmark
  try dsimp only
  repeat' first
    | (with_reducible
        first
          | assumption | intro _ | apply keep_State_setTile | apply keep_State_setAcc | apply keep_State_putS
          | apply keep_State_putX | apply keep_ite | apply keep_ite1 | apply keep_foldl | apply keep_foldl1)
    | dsimp only | split

theorem keep_execPmark {s0 : State} (u : CtxId) (f : Fields) (s : State) (hs : Keep s0 s) :
    KeepA s0 (execPmark u f s) := by
  unfold execPmark
  try dsimp only
  repeat' first
    | (with_reducible
        first
          | assumption | intro _ | apply keepA_ite | apply keep_next | apply keep_State_run
          | apply keep_State_onTiles | apply keep_State_pmark | apply keep_State_done)

end Sys2Proof.Machine
end

