-- ==== Sys2Proof/Laws/KeepServe.lean ====
section
/-!
SUPPORT. Sys2Proof/Laws/KeepServe.lean: what the operations of slots, caches, transit and serving keep.
-/
namespace Sys2Proof.Machine

open Sys2Proof (CtxId Fields Upsets ParityErrs)

-- ===== Sys2Proof/Machine/Owed.lean =====

theorem keep_State_setServe {s0 : State} (s : State) (f : Serve → Serve) (hs : Keep s0 s) :
    Keep s0 (State.setServe s f) := by
  unfold State.setServe
  try dsimp only
  repeat' first
    | (with_reducible
        first
          | assumption | intro _)
    | simp only [keep_mk]

theorem keep_State_pumpOwed {s0 : State} (s : State) (hs : Keep s0 s) :
    Keep s0 (State.pumpOwed s) := by
  unfold State.pumpOwed
  try dsimp only
  repeat' first
    | (with_reducible
        first
          | assumption | intro _ | apply keep_State_issue | apply keep_State_setServe | apply keep_ite
          | apply keep_ite1 | apply keep_foldl)

theorem keep_State_owePiece {s0 : State} (s : State) (o : Owed) (hs : Keep s0 s) :
    Keep s0 (State.owePiece s o) := by
  unfold State.owePiece
  try dsimp only
  repeat' first
    | (with_reducible
        first
          | assumption | intro _ | apply keep_State_setServe | apply keep_State_pumpOwed)

theorem keep_State_owe {s0 : State} (s : State) (part addr v len : Nat) (slot : Nat) (kind : Nat) (hs : Keep s0 s) :
    Keep s0 (State.owe s part addr v len slot kind) := by
  unfold State.owe
  try dsimp only
  repeat' first
    | (with_reducible
        first
          | assumption | intro _ | apply keep_State_owePiece)

theorem keep_State_oweRecord {s0 : State} (s : State) (part addr v : Nat) (hs : Keep s0 s) :
    Keep s0 (State.oweRecord s part addr v) := by
  unfold State.oweRecord
  try dsimp only
  repeat' first
    | (with_reducible
        first
          | assumption | intro _ | apply keep_State_owePiece | apply keep_ite)

theorem keep_State_fetchLaunch {s0 : State} (s : State) (key : Nat) (a : Actor) (ps : List (Nat × Piece)) (n span off sub : Nat) (hs : Keep s0 s) :
    Keep s0 (State.fetchLaunch s key a ps n span off sub).1 := by
  unfold State.fetchLaunch
  try dsimp only
  repeat' first
    | (with_reducible
        first
          | assumption | intro _ | apply keep_State_newXfer | apply keep_State_launch)
    | simp only [keep_mk]

theorem keep_State_fetchMore {s0 : State} (s : State) (key t : Nat) (hs : Keep s0 s) :
    Keep s0 (State.fetchMore s key t).1 := by
  unfold State.fetchMore
  try dsimp only
  repeat' first
    | (with_reducible
        first
          | assumption | intro _ | apply keep_State_endXfer | apply keep_ite | apply keep_ite1)
    | simp only [keep_mk]

theorem keep_State_fetchPieces {s0 : State} (s : State) (key : Nat) (a : Actor) (ps : List (Nat × Piece)) (n span off sub : Nat) (hs : Keep s0 s) :
    Keep s0 (State.fetchPieces s key a ps n span off sub).1 := by
  unfold State.fetchPieces
  try dsimp only
  repeat' first
    | (with_reducible
        first
          | assumption | intro _ | apply keep_State_readMem | apply keep_State_fetchLaunch
          | apply keep_State_fetchMore | apply keep_State_advance | apply keep_ite | apply keep_ite1
          | apply keep_foldl | apply keep_foldl1)
    | dsimp only | split

theorem keep_State_dropFetch {s0 : State} (s : State) (key : Nat) (hs : Keep s0 s) :
    Keep s0 (State.dropFetch s key) := by
  unfold State.dropFetch
  try dsimp only
  repeat' first
    | (with_reducible
        first
          | assumption | intro _ | apply keep_State_abandonXfer)
    | simp only [keep_mk]
    | dsimp only | split

theorem keep_State_flashGate {s0 : State} (s : State) (key chargee a n : Nat) (hs : Keep s0 s) :
    Keep s0 (State.flashGate s key chargee a n).1 := by
  unfold State.flashGate
  try dsimp only
  repeat' first
    | (with_reducible
        first
          | assumption | intro _ | apply keep_State_newXfer | apply keep_State_advance | apply keep_State_endXfer
          | apply keep_ite | apply keep_ite1)
    | simp only [keep_mk]
    | dsimp only | split

theorem keep_State_fetchVia {s0 : State} (s : State) (key : Nat) (a : Actor) (x n : Nat) (hs : Keep s0 s) :
    Keep s0 (State.fetchVia s key a x n).1 := by
  unfold State.fetchVia
  try dsimp only
  repeat' first
    | (with_reducible
        first
          | assumption | intro _ | apply keep_State_fetchPieces)

theorem keep_State_fetchStart {s0 : State} (s : State) (key : Nat) (a : Actor) (x n : Nat) (hs : Keep s0 s) :
    Keep s0 (State.fetchStart s key a x n) := by
  unfold State.fetchStart
  try dsimp only
  repeat' first
    | (with_reducible
        first
          | assumption | intro _ | apply keep_State_fetchLaunch | apply keep_State_advance | apply keep_ite
          | apply keep_ite1)
    | dsimp only | split

theorem keep_State_addDone {s0 : State} (s : State) (a : Actor) (ring x : Nat) (hs : Keep s0 s) :
    Keep s0 (State.addDone s a ring x) := by
  unfold State.addDone
  try dsimp only
  repeat' first
    | (with_reducible
        first
          | assumption | intro _ | apply keep_State_owe | apply keep_State_presentFor | apply keep_State_atomicMem
          | apply keep_ite | apply keep_ite1)
    | dsimp only | split

theorem keep_State_unitResult {s0 : State} (s : State) (a : Actor) (ring x done : Nat) (resOk doneOk : Bool) (v : Nat) (parts : List (Nat × Nat)) (hs : Keep s0 s) :
    Keep s0 (State.unitResult s a ring x done resOk doneOk v parts) := by
  unfold State.unitResult
  try dsimp only
  repeat' first
    | (with_reducible
        first
          | assumption | intro _ | apply keep_State_addDone | apply keep_State_done | apply keep_State_presentFor
          | apply keep_State_writeMem | apply keep_State_newXfer | apply keep_State_advance | apply keep_ite
          | apply keep_ite1 | apply keep_foldl)

theorem keep_State_unitOutDone {s0 : State} (s : State) (x : Nat) (hs : Keep s0 s) :
    Keep s0 (State.unitOutDone s x) := by
  unfold State.unitOutDone
  try dsimp only
  repeat' first
    | (with_reducible
        first
          | assumption | intro _ | apply keep_State_done | apply keep_State_endXfer | apply keep_State_addDone
          | apply keep_ite | apply keep_ite1)
    | dsimp only | split

-- ===== Sys2Proof/Machine/Slots.lean =====

theorem keep_State_hubRead {s0 : State} (s : State) (unit a n : Nat) (hs : Keep s0 s) :
    Keep s0 (State.hubRead s unit a n).1 := by
  unfold State.hubRead
  try dsimp only
  repeat' first
    | (with_reducible
        first
          | assumption | intro _ | apply keep_State_readMem)

theorem keep_State_putSlotW {s0 : State} (s : State) (n i w : Nat) (hs : Keep s0 s) :
    Keep s0 (State.putSlotW s n i w) := by
  unfold State.putSlotW
  try dsimp only
  repeat' first
    | (with_reducible
        first
          | assumption | intro _ | apply keep_State_putWord)

theorem keep_State_putKvW {s0 : State} (s : State) (n i w : Nat) (hs : Keep s0 s) :
    Keep s0 (State.putKvW s n i w) := by
  unfold State.putKvW
  try dsimp only
  repeat' first
    | (with_reducible
        first
          | assumption | intro _ | apply keep_State_putWord)

theorem keep_State_setSlState {s0 : State} (s : State) (n st : Nat) (hs : Keep s0 s) :
    Keep s0 (State.setSlState s n st) := by
  unfold State.setSlState
  try dsimp only
  repeat' first
    | (with_reducible
        first
          | assumption | intro _ | apply keep_State_putSlotW)

theorem keep_State_setGenerated {s0 : State} (s : State) (n g : Nat) (hs : Keep s0 s) :
    Keep s0 (State.setGenerated s n g) := by
  unfold State.setGenerated
  try dsimp only
  repeat' first
    | (with_reducible
        first
          | assumption | intro _ | apply keep_State_putSlotW)

theorem keep_State_setKvState {s0 : State} (s : State) (n st : Nat) (hs : Keep s0 s) :
    Keep s0 (State.setKvState s n st) := by
  unfold State.setKvState
  try dsimp only
  repeat' first
    | (with_reducible
        first
          | assumption | intro _ | apply keep_State_putKvW)

theorem keep_State_shadowPush {s0 : State} (s : State) (n v : Nat) (hs : Keep s0 s) :
    Keep s0 (State.shadowPush s n v) := by
  unfold State.shadowPush
  try dsimp only
  repeat' first
    | (with_reducible
        first
          | assumption | intro _ | apply keep_State_writeMem | apply keep_State_putKvW)

theorem keep_State_tallyProbe {s0 : State} (s : State) (a : Actor) (need x v k h : Nat) (q : TallyHit) (n i : Nat) (hs : Keep s0 s) :
    Keep s0 (State.tallyProbe s a need x v k h q n i).1 := by
  induction n generalizing s q i with
  | zero => exact hs
  | succ n ih =>
    unfold State.tallyProbe
    try dsimp only
    repeat' first
      | (with_reducible
          first
            | assumption | intro _ | apply keep_State_presentFor | apply ih | apply keep_State_readMem | apply keep_ite1)
      | dsimp only | split

theorem keep_State_tallyFind {s0 : State} (s : State) (a : Actor) (need slot v : Nat) (hs : Keep s0 s) :
    Keep s0 (State.tallyFind s a need slot v).1 := by
  unfold State.tallyFind
  try dsimp only
  repeat' first
    | (with_reducible
        first
          | assumption | intro _ | apply keep_State_tallyProbe | apply keep_ite | apply keep_ite1)

theorem keep_State_tallyInc {s0 : State} (s : State) (a : Actor) (slot v : Nat) (hs : Keep s0 s) :
    Keep s0 (State.tallyInc s a slot v) := by
  unfold State.tallyInc
  try dsimp only
  repeat' first
    | (with_reducible
        first
          | assumption | intro _ | apply keep_State_tallyFind | apply keep_State_count | apply keep_State_log
          | apply keep_State_presentFor | apply keep_State_writeMem | apply keep_ite | apply keep_ite1)
    | simp only [keep_mk]
    | dsimp only | split

theorem keep_execTinc {s0 : State} (u : CtxId) (f : Fields) (s : State) (hs : Keep s0 s) :
    KeepA s0 (execTinc u f s) := by
  unfold execTinc
  try dsimp only
  repeat' first
    | (with_reducible
        first
          | assumption | intro _ | apply keepA_ite | apply keep_next | apply keep_State_run | apply keep_State_waits
          | apply keep_State_stepItem | apply keep_State_shadowPush | apply keep_State_tallyInc
          | apply keep_State_done | apply keep_SrcWalk_run | apply keep_ite)

theorem keep_execTpen {s0 : State} (u : CtxId) (f : Fields) (s : State) (hs : Keep s0 s) :
    KeepA s0 (execTpen u f s) := by
  unfold execTpen
  try dsimp only
  repeat' first
    | (with_reducible
        first
          | assumption | intro _ | apply keepA_ite | apply keep_next | apply keep_State_run
          | apply keep_State_onTiles | apply keep_State_waits | apply keep_State_tallyFind | apply keep_State_putTile
          | apply keep_State_setFlags | apply keep_State_done | apply keep_SrcWalk_run | apply keep_ite
          | apply keep_ite1 | apply keep_foldl | apply keep_foldl1)

theorem keep_State_finishTopk {s0 : State} (s : State) (u : CtxId) (f : Fields) (ft : FirstTurn) (d : Data) (hs : Keep s0 s) :
    Keep s0 (State.finishTopk s u f ft d) := by
  unfold State.finishTopk
  try dsimp only
  repeat' first
    | (with_reducible
        first
          | assumption | intro _ | apply keep_State_store | apply keep_State_setFlags | apply keep_State_done)

theorem keep_execTopk {s0 : State} (u : CtxId) (f : Fields) (s : State) (hs : Keep s0 s) :
    KeepA s0 (execTopk u f s) := by
  unfold execTopk
  try dsimp only
  repeat' first
    | (with_reducible
        first
          | assumption | intro _ | apply keepA_ite | apply keep_next | apply keep_State_run
          | apply keep_State_onTiles | apply keep_State_done | apply keep_State_load | apply keep_State_finishTopk
          | apply keep_SrcWalk_run | apply keep_ite)

-- ===== Sys2Proof/Machine/TransitOps.lean =====

theorem keep_State_setTrn {s0 : State} (s : State) (f : Transit → Transit) (hs : Keep s0 s) :
    Keep s0 (State.setTrn s f) := by
  unfold State.setTrn
  try dsimp only
  repeat' first
    | (with_reducible
        first
          | assumption | intro _)
    | simp only [keep_mk]

theorem keep_State_setEntry {s0 : State} (s : State) (e : TrnEntry) (hs : Keep s0 s) :
    Keep s0 (State.setEntry s e) := by
  unfold State.setEntry
  try dsimp only
  repeat' first
    | (with_reducible
        first
          | assumption | intro _ | apply keep_State_setTrn | apply keep_State_putWord)

theorem keep_State_retire {s0 : State} (n : Nat) (s : State) (a0 : Nat) (a1 : Nat) (hs : Keep s0 s) : Keep s0 (State.retire n s a0 a1) := by
  induction n generalizing s a0 a1 with
  | zero => exact hs
  | succ n ih =>
    unfold State.retire
    try dsimp only
    repeat' first
      | (with_reducible
          first
            | assumption | intro _ | apply ih | apply keep_State_setF | apply keep_State_setTrn | apply keep_ite)
      | dsimp only | split

theorem keep_State_cmplLost {s0 : State} (s : State) (p q seq addr : Nat) (hs : Keep s0 s) :
    Keep s0 (State.cmplLost s p q seq addr) := by
  unfold State.cmplLost
  try dsimp only
  repeat' first
    | (with_reducible
        first
          | assumption | intro _ | apply keep_State_log)

theorem keep_State_oweCmpl {s0 : State} (s : State) (p q seq addr v len : Nat) (entry : Bool) (gaddr : Nat) (hs : Keep s0 s) :
    Keep s0 (State.oweCmpl s p q seq addr v len entry gaddr) := by
  unfold State.oweCmpl
  try dsimp only
  repeat' first
    | (with_reducible
        first
          | assumption | intro _ | apply keep_State_setTrn | apply keep_State_owe)

theorem keep_State_cmplWrite {s0 : State} (s : State) (p q seq d code sent progress : Nat) (entry : Bool) (hs : Keep s0 s) :
    Keep s0 (State.cmplWrite s p q seq d code sent progress entry) := by
  unfold State.cmplWrite
  try dsimp only
  repeat' first
    | (with_reducible
        first
          | assumption | intro _ | apply keep_State_cmplLost | apply keep_State_wordOf | apply keep_State_oweCmpl
          | apply keep_State_writeAll | apply keep_State_atomicMem | apply keep_ite | apply keep_ite1)
    | dsimp only | split

theorem keep_State_trnFlag {s0 : State} (s : State) (flag : Option (Nat × Nat)) (hs : Keep s0 s) :
    Keep s0 (State.trnFlag s flag) := by
  unfold State.trnFlag
  try dsimp only
  repeat' first
    | (with_reducible
        first
          | assumption | intro _ | apply keep_State_setCtx)
    | dsimp only | split

theorem keep_State_handDone {s0 : State} (s : State) (hand : Option (Nat × Nat)) (ok : Bool) (hs : Keep s0 s) :
    Keep s0 (State.handDone s hand ok) := by
  unfold State.handDone
  try dsimp only
  repeat' first
    | (with_reducible
        first
          | assumption | intro _ | apply keep_ite | apply keep_ite1)
    | simp only [keep_mk]
    | dsimp only | split

theorem keep_State_cmplTail {s0 : State} (s : State) (e : TrnEntry) (hs : Keep s0 s) :
    Keep s0 (State.cmplTail s e) := by
  unfold State.cmplTail
  try dsimp only
  repeat' first
    | (with_reducible
        first
          | assumption | intro _ | apply keep_State_trnFlag | apply keep_State_handDone | apply keep_State_retire)

theorem keep_State_complete {s0 : State} (s : State) (e : TrnEntry) (code : Nat) (hs : Keep s0 s) :
    Keep s0 (State.complete s e code) := by
  unfold State.complete
  try dsimp only
  repeat' first
    | (with_reducible
        first
          | assumption | intro _ | apply keep_State_setEntry | apply keep_State_cmplWrite | apply keep_State_cmplTail
          | apply keep_ite)

theorem keep_State_cmplDone {s0 : State} (s : State) (num : Nat) (ok : Bool) (hs : Keep s0 s) :
    Keep s0 (State.cmplDone s num ok) := by
  unfold State.cmplDone
  try dsimp only
  repeat' first
    | (with_reducible
        first
          | assumption | intro _ | apply keep_State_setTrn | apply keep_State_cmplLost | apply keep_State_cmplTail
          | apply keep_ite | apply keep_ite1)
    | dsimp only | split

theorem keep_State_enqueue {s0 : State} (s : State) (p q d code issuer : Nat) (flag hand : Option (Nat × Nat)) (hs : Keep s0 s) :
    Keep s0 (State.enqueue s p q d code issuer flag hand) := by
  unfold State.enqueue
  try dsimp only
  repeat' first
    | (with_reducible
        first
          | assumption | intro _ | apply keep_State_count | apply keep_State_setTrn | apply keep_State_setF
          | apply keep_State_writeAll | apply keep_State_setEntry | apply keep_State_complete | apply keep_ite)

theorem keep_State_setParcel {s0 : State} (s : State) (x : Nat) (k : Parcel) (hs : Keep s0 s) :
    Keep s0 (State.setParcel s x k) := by
  unfold State.setParcel
  try dsimp only
  repeat' first
    | (with_reducible
        first
          | assumption | intro _ | apply keep_State_setTrn)

theorem keep_State_spansFor {s0 : State} (s : State) (k : Parcel) (hs : Keep s0 s) :
    Keep s0 (State.spansFor s k) := by
  unfold State.spansFor
  try dsimp only
  repeat' first
    | (with_reducible
        first
          | assumption | intro _ | apply keep_ite | apply keep_ite1)
    | simp only [keep_mk]

theorem keep_State_settleDeficit {s0 : State} (s : State) (key : Nat) (hs : Keep s0 s) :
    Keep s0 (State.settleDeficit s key) := by
  unfold State.settleDeficit
  try dsimp only
  repeat' first
    | (with_reducible
        first
          | assumption | intro _ | apply keep_State_setTrn | apply keep_ite)

theorem keep_State_dropParcel {s0 : State} (s : State) (x : Nat) (hs : Keep s0 s) :
    Keep s0 (State.dropParcel s x) := by
  unfold State.dropParcel
  try dsimp only
  repeat' first
    | (with_reducible
        first
          | assumption | intro _ | apply keep_State_setTrn | apply keep_State_endXfer | apply keep_State_abandonXfer
          | apply keep_State_settleDeficit | apply keep_ite | apply keep_ite1 | apply keep_foldl | apply keep_foldl1)
    | simp only [keep_mk]
    | dsimp only | split

theorem keep_State_stopIssue {s0 : State} (s : State) (e : TrnEntry) (hs : Keep s0 s) :
    Keep s0 (State.stopIssue s e).1 := by
  unfold State.stopIssue
  try dsimp only
  repeat' first
    | (with_reducible
        first
          | assumption | intro _ | apply keep_State_dropParcel | apply keep_foldl)

theorem keep_State_settleEntry {s0 : State} (s : State) (e : TrnEntry) (hs : Keep s0 s) :
    Keep s0 (State.settleEntry s e) := by
  unfold State.settleEntry
  try dsimp only
  repeat' first
    | (with_reducible
        first
          | assumption | intro _ | apply keep_State_setEntry | apply keep_State_complete | apply keep_ite)

theorem keep_State_failEntry {s0 : State} (s : State) (e : TrnEntry) (off code : Nat) (hs : Keep s0 s) :
    Keep s0 (State.failEntry s e off code) := by
  unfold State.failEntry
  try dsimp only
  repeat' first
    | (with_reducible
        first
          | assumption | intro _ | apply keep_State_stopIssue | apply keep_State_settleEntry)

theorem keep_State_abortEntry {s0 : State} (s : State) (e : TrnEntry) (hs : Keep s0 s) :
    Keep s0 (State.abortEntry s e).1 := by
  unfold State.abortEntry
  try dsimp only
  repeat' first
    | (with_reducible
        first
          | assumption | intro _ | apply keep_State_complete | apply keep_State_stopIssue
          | apply keep_State_settleEntry | apply keep_ite | apply keep_ite1)
    | dsimp only | split

theorem keep_State_abortHands {s0 : State} (s : State) (slot : Nat) (hs : Keep s0 s) :
    Keep s0 (State.abortHands s slot) := by
  unfold State.abortHands
  try dsimp only
  repeat' first
    | (with_reducible
        first
          | assumption | intro _ | apply keep_State_abortEntry | apply keep_foldl | apply keep_foldl1)
    | dsimp only | split

theorem keep_State_suspendEntries {s0 : State} (s : State) (p : Nat) (hs : Keep s0 s) :
    Keep s0 (State.suspendEntries s p) := by
  unfold State.suspendEntries
  try dsimp only
  repeat' first
    | (with_reducible
        first
          | assumption | intro _ | apply keep_State_stopIssue | apply keep_State_settleEntry | apply keep_foldl)

theorem keep_State_resumeEntries {s0 : State} (s : State) (p : Nat) (hs : Keep s0 s) :
    Keep s0 (State.resumeEntries s p) := by
  unfold State.resumeEntries
  try dsimp only
  repeat' first
    | (with_reducible
        first
          | assumption | intro _ | apply keep_State_complete | apply keep_State_setEntry | apply keep_ite
          | apply keep_ite1 | apply keep_foldl)

-- ===== Sys2Proof/Machine/Kv.lean =====

theorem keep_State_setPage {s0 : State} (s : State) (k g : Nat) (p : KvPage) (hs : Keep s0 s) :
    Keep s0 (State.setPage s k g p) := by
  unfold State.setPage
  try dsimp only
  repeat' first
    | (with_reducible
        first
          | assumption | intro _ | apply keep_State_setKit)

theorem keep_State_flushPages {s0 : State} (s : State) (k : Nat) (counter : Fld) (pick : KvPage → Bool) (hs : Keep s0 s) :
    Keep s0 (State.flushPages s k counter pick) := by
  unfold State.flushPages
  try dsimp only
  repeat' first
    | (with_reducible
        first
          | assumption | intro _ | apply keep_State_setPage | apply keep_State_presentHbm | apply keep_State_count
          | apply keep_ite | apply keep_ite1 | apply keep_foldl)

theorem keep_State_dropStaged {s0 : State} (s : State) (k slot limit : Nat) (hs : Keep s0 s) :
    Keep s0 (State.dropStaged s k slot limit) := by
  unfold State.dropStaged
  try dsimp only
  repeat' first
    | (with_reducible
        first
          | assumption | intro _ | apply keep_State_count | apply keep_State_setPage | apply keep_ite
          | apply keep_ite1 | apply keep_foldl)

theorem keep_State_freePages {s0 : State} (s : State) (k slot : Nat) (flushing : Bool) (hs : Keep s0 s) :
    Keep s0 (State.freePages s k slot flushing) := by
  unfold State.freePages
  try dsimp only
  repeat' first
    | (with_reducible
        first
          | assumption | intro _ | apply keep_State_setKit)

theorem keep_execKvPageFlushDone {s0 : State} (k page : Nat) (s : State) (hs : Keep s0 s) :
    KeepA s0 (execKvPageFlushDone k page s) := by
  unfold execKvPageFlushDone
  try dsimp only
  repeat' first
    | (with_reducible
        first
          | assumption | intro _ | apply keepA_ite | apply keep_next | apply keep_State_readMem
          | apply keep_State_writeAll | apply keep_State_setPage | apply keep_ite | apply keep_ite1
          | apply keep_foldl)

theorem keep_execKvapp {s0 : State} (u : CtxId) (f : Fields) (s : State) (hs : Keep s0 s) :
    KeepA s0 (execKvapp u f s) := by
  unfold execKvapp
  try dsimp only
  repeat' first
    | (with_reducible
        first
          | assumption | intro _ | apply keepA_ite | apply keep_next | apply keep_State_run | apply keep_State_waits
          | apply keep_State_flushPieces | apply keep_State_newXfer | apply keep_State_flagUp
          | apply keep_State_launch | apply keep_State_done | apply keep_SrcWalk_run | apply keep_ite)

theorem keep_State_askAppend {s0 : State} (s : State) (x k slot sel pos : Nat) (hs : Keep s0 s) :
    Keep s0 (State.askAppend s x k slot sel pos) := by
  unfold State.askAppend
  try dsimp only
  repeat' first
    | (with_reducible
        first
          | assumption | intro _ | apply keep_State_setXfer | apply keep_State_presentHbm | apply keep_ite
          | apply keep_ite1)
    | dsimp only | split

theorem keep_State_kvAppend {s0 : State} (s : State) (u : CtxId) (slot sel pos : Nat) (d : Data) (hs : Keep s0 s) :
    Keep s0 (State.kvAppend s u slot sel pos d) := by
  unfold State.kvAppend
  try dsimp only
  repeat' first
    | (with_reducible
        first
          | assumption | intro _ | apply keep_State_stepItem | apply keep_State_journal | apply keep_State_writeAll
          | apply keep_State_count | apply keep_State_setPage | apply keep_State_flushPages | apply keep_ite
          | apply keep_ite1)
    | dsimp only | split

theorem keep_State_kvRead {s0 : State} (s : State) (u : CtxId) (slot sel pos : Nat) (hs : Keep s0 s) :
    Keep s0 (State.kvRead s u slot sel pos).1 := by
  unfold State.kvRead
  try dsimp only
  repeat' first
    | (with_reducible
        first
          | assumption | intro _ | apply keep_State_readMem | apply keep_State_readDrum | apply keep_ite
          | apply keep_ite1)
    | dsimp only | split

theorem keep_execKvrd {s0 : State} (u : CtxId) (f : Fields) (s : State) (hs : Keep s0 s) :
    KeepA s0 (execKvrd u f s) := by
  unfold execKvrd
  try dsimp only
  repeat' first
    | (with_reducible
        first
          | assumption | intro _ | apply keepA_ite | apply keep_next | apply keep_State_run | apply keep_State_waits
          | apply keep_State_kvRead | apply keep_State_presentHbm | apply keep_State_flushPieces
          | apply keep_State_newXfer | apply keep_State_flagUp | apply keep_State_advance | apply keep_State_done
          | apply keep_SrcWalk_run | apply keep_ite | apply keep_ite1 | apply keep_foldl | apply keep_foldl1)

theorem keep_execKvTableWrite {s0 : State} (i slot word : Nat) (w : Word) (s : State) (hs : Keep s0 s) :
    KeepA s0 (execKvTableWrite i slot word w s) := by
  unfold execKvTableWrite
  try dsimp only
  repeat' first
    | (with_reducible
        first
          | assumption | intro _ | apply keepA_ite | apply keep_next | apply keep_State_log | apply keep_State_putKvW)

theorem keep_execKvStageWrite {s0 : State} (i k : Nat) (w : Word) (s : State) (hs : Keep s0 s) :
    KeepA s0 (execKvStageWrite i k w s) := by
  unfold execKvStageWrite
  try dsimp only
  repeat' first
    | (with_reducible
        first
          | assumption | intro _ | apply keepA_ite | apply keep_next | apply keep_State_log | apply keep_State_setRg
          | apply keep_ite)

theorem keep_State_setKv {s0 : State} (s : State) (f : Kv → Kv) (hs : Keep s0 s) :
    Keep s0 (State.setKv s f) := by
  unfold State.setKv
  try dsimp only
  repeat' first
    | (with_reducible
        first
          | assumption | intro _)
    | simp only [keep_mk]

theorem keep_State_kvAnswer {s0 : State} (s : State) (c code : Nat) (hs : Keep s0 s) :
    Keep s0 (State.kvAnswer s c code) := by
  unfold State.kvAnswer
  try dsimp only
  repeat' first
    | (with_reducible
        first
          | assumption | intro _ | apply keep_State_setF | apply keep_ite)

theorem keep_State_kvDisarm {s0 : State} (s : State) (n : Nat) (hs : Keep s0 s) :
    Keep s0 (State.kvDisarm s n) := by
  unfold State.kvDisarm
  try dsimp only
  repeat' first
    | (with_reducible
        first
          | assumption | intro _ | apply keep_State_setKv | apply keep_State_kvAnswer | apply keep_foldl)

theorem keep_State_kvReserve {s0 : State} (s : State) (w : Nat) (hs : Keep s0 s) :
    Keep s0 (State.kvReserve s w).1 := by
  unfold State.kvReserve
  try dsimp only
  repeat' first
    | (with_reducible
        first
          | assumption | intro _ | apply keep_State_putKvW | apply keep_State_setKv | apply keep_ite
          | apply keep_ite1)

theorem keep_State_kvCommit {s0 : State} (s : State) (n cnt t : Nat) (hs : Keep s0 s) :
    Keep s0 (State.kvCommit s n cnt t) := by
  unfold State.kvCommit
  try dsimp only
  repeat' first
    | (with_reducible
        first
          | assumption | intro _ | apply keep_State_putKvW | apply keep_State_dropStaged | apply keep_State_readMem
          | apply keep_State_tallyInc | apply keep_State_flushPages | apply keep_foldl)

theorem keep_State_kvRelease {s0 : State} (s : State) (n : Nat) (hs : Keep s0 s) :
    Keep s0 (State.kvRelease s n) := by
  unfold State.kvRelease
  try dsimp only
  repeat' first
    | (with_reducible
        first
          | assumption | intro _ | apply keep_State_setKvState | apply keep_State_setKv | apply keep_State_freePages
          | apply keep_State_kvDisarm | apply keep_State_abortHands | apply keep_ite)

theorem keep_State_kvForceFree {s0 : State} (s : State) (n : Nat) (hs : Keep s0 s) :
    Keep s0 (State.kvForceFree s n) := by
  unfold State.kvForceFree
  try dsimp only
  repeat' first
    | (with_reducible
        first
          | assumption | intro _ | apply keep_State_freePages | apply keep_State_kvDisarm
          | apply keep_State_abortHands | apply keep_State_setKv | apply keep_State_setKvState
          | apply keep_State_log)

theorem keep_State_kvHandoff {s0 : State} (s : State) (n l : Nat) (hs : Keep s0 s) :
    Keep s0 (State.kvHandoff s n l) := by
  unfold State.kvHandoff
  try dsimp only
  repeat' first
    | (with_reducible
        first
          | assumption | intro _ | apply keep_State_flushPages | apply keep_State_setKv)

theorem keep_State_kvApply {s0 : State} (s : State) (w : Nat) (hs : Keep s0 s) :
    Keep s0 (State.kvApply s w).1 := by
  unfold State.kvApply
  try dsimp only
  repeat' first
    | (with_reducible
        first
          | assumption | intro _ | apply keep_State_hubRead | apply keep_State_log | apply keep_State_kvReserve
          | apply keep_State_putKvW | apply keep_State_dropStaged | apply keep_State_kvCommit
          | apply keep_State_kvHandoff | apply keep_State_flushPages | apply keep_State_kvRelease
          | apply keep_State_kvForceFree | apply keep_ite | apply keep_ite1)
    | dsimp only | split

theorem keep_State_kvSubmit {s0 : State} (s : State) (c w : Nat) (hs : Keep s0 s) :
    Keep s0 (State.kvSubmit s c w) := by
  unfold State.kvSubmit
  try dsimp only
  repeat' first
    | (with_reducible
        first
          | assumption | intro _ | apply keep_State_setKv | apply keep_State_setF | apply keep_State_kvApply
          | apply keep_State_kvAnswer | apply keep_ite)

theorem keep_State_kvCmd {s0 : State} (s : State) (c w : Nat) (hs : Keep s0 s) :
    Keep s0 (State.kvCmd s c w) := by
  unfold State.kvCmd
  try dsimp only
  repeat' first
    | (with_reducible
        first
          | assumption | intro _ | apply keep_State_forward | apply keep_State_setF | apply keep_State_kvSubmit
          | apply keep_ite)

theorem keep_State_kvRow {s0 : State} (s : State) (op c : Nat) (w : Word) (hs : Keep s0 s) :
    Keep s0 (State.kvRow s op c w) := by
  unfold State.kvRow
  try dsimp only
  repeat' first
    | (with_reducible
        first
          | assumption | intro _ | apply keep_State_kvCmd | apply keep_ite)

theorem keep_execKvReserve {s0 : State} (c : Nat) (w : Word) (s : State) (hs : Keep s0 s) :
    KeepA s0 (execKvReserve c w s) := by
  unfold execKvReserve
  try dsimp only
  repeat' first
    | (with_reducible
        first
          | assumption | intro _ | apply keep_next | apply keep_State_kvRow)

theorem keep_execKvAdmit {s0 : State} (c : Nat) (w : Word) (s : State) (hs : Keep s0 s) :
    KeepA s0 (execKvAdmit c w s) := by
  unfold execKvAdmit
  try dsimp only
  repeat' first
    | (with_reducible
        first
          | assumption | intro _ | apply keep_next | apply keep_State_kvRow)

theorem keep_execKvCommit {s0 : State} (c : Nat) (w : Word) (s : State) (hs : Keep s0 s) :
    KeepA s0 (execKvCommit c w s) := by
  unfold execKvCommit
  try dsimp only
  repeat' first
    | (with_reducible
        first
          | assumption | intro _ | apply keep_next | apply keep_State_kvRow)

theorem keep_execKvHandoff {s0 : State} (c : Nat) (w : Word) (s : State) (hs : Keep s0 s) :
    KeepA s0 (execKvHandoff c w s) := by
  unfold execKvHandoff
  try dsimp only
  repeat' first
    | (with_reducible
        first
          | assumption | intro _ | apply keep_next | apply keep_State_kvRow)

theorem keep_execKvFlush {s0 : State} (c : Nat) (w : Word) (s : State) (hs : Keep s0 s) :
    KeepA s0 (execKvFlush c w s) := by
  unfold execKvFlush
  try dsimp only
  repeat' first
    | (with_reducible
        first
          | assumption | intro _ | apply keep_next | apply keep_State_kvRow)

theorem keep_execKvRelease {s0 : State} (c : Nat) (w : Word) (s : State) (hs : Keep s0 s) :
    KeepA s0 (execKvRelease c w s) := by
  unfold execKvRelease
  try dsimp only
  repeat' first
    | (with_reducible
        first
          | assumption | intro _ | apply keep_next | apply keep_State_kvRow)

theorem keep_execKvForceFree {s0 : State} (c : Nat) (w : Word) (s : State) (hs : Keep s0 s) :
    KeepA s0 (execKvForceFree c w s) := by
  unfold execKvForceFree
  try dsimp only
  repeat' first
    | (with_reducible
        first
          | assumption | intro _ | apply keep_next | apply keep_State_kvRow)

theorem keep_execKvHeldApply {s0 : State} (p : Nat) (s : State) (hs : Keep s0 s) :
    KeepA s0 (execKvHeldApply p s) := by
  unfold execKvHeldApply
  try dsimp only
  repeat' first
    | (with_reducible
        first
          | assumption | intro _ | apply keepA_ite | apply keep_next | apply keep_State_setKv
          | apply keep_State_kvApply | apply keep_State_kvAnswer | apply keep_ite | apply keep_ite1)
    | dsimp only | split

theorem keep_execKvArmedHandoffApply {s0 : State} (p l : Nat) (s : State) (hs : Keep s0 s) :
    KeepA s0 (execKvArmedHandoffApply p l s) := by
  unfold execKvArmedHandoffApply
  try dsimp only
  repeat' first
    | (with_reducible
        first
          | assumption | intro _ | apply keep_next | apply keep_State_setKv | apply keep_State_kvApply
          | apply keep_State_kvAnswer)
    | dsimp only | split

theorem keep_State_kvFetchAdd {s0 : State} (s : State) (n v : Nat) (hs : Keep s0 s) :
    Keep s0 (State.kvFetchAdd s n v).1 := by
  unfold State.kvFetchAdd
  try dsimp only
  repeat' first
    | (with_reducible
        first
          | assumption | intro _ | apply keep_State_log | apply keep_State_putKvW | apply keep_State_setKvState
          | apply keep_ite | apply keep_ite1)

theorem keep_execKvHandoffLayerDone {s0 : State} (slot layer : Nat) (s : State) (hs : Keep s0 s) :
    KeepA s0 (execKvHandoffLayerDone slot layer s) := by
  unfold execKvHandoffLayerDone
  try dsimp only
  repeat' first
    | (with_reducible
        first
          | assumption | intro _ | apply keepA_ite | apply keep_next | apply keep_State_issue
          | apply keep_State_setKv | apply keep_ite | apply keep_ite1)
    | dsimp only | split

set_option maxRecDepth 8192 in
theorem keep_execKvHandoffClose {s0 : State} (slot : Nat) (s : State) (hs : Keep s0 s) :
    KeepA s0 (execKvHandoffClose slot s) := by
  unfold execKvHandoffClose
  try dsimp only
  repeat' first
    | (with_reducible
        first
          | assumption | intro _ | apply keepA_ite | apply keep_next | apply keep_State_issue
          | apply keep_State_setKv | apply keep_ite | apply keep_ite1)
    | dsimp only | split

theorem keep_execKvDrainDone {s0 : State} (slot : Nat) (s : State) (hs : Keep s0 s) :
    KeepA s0 (execKvDrainDone slot s) := by
  unfold execKvDrainDone
  try dsimp only
  repeat' first
    | (with_reducible
        first
          | assumption | intro _ | apply keepA_ite | apply keep_next | apply keep_State_setKv
          | apply keep_State_setKvState)

-- ===== Sys2Proof/Machine/Transit.lean =====

theorem keep_State_finishTrig {s0 : State} (s : State) (u : CtxId) (f : Fields) (d : Data) (hs : Keep s0 s) :
    Keep s0 (State.finishTrig s u f d) := by
  unfold State.finishTrig
  try dsimp only
  repeat' first
    | (with_reducible
        first
          | assumption | intro _ | apply keep_State_cmplWrite | apply keep_State_done | apply keep_State_waits
          | apply keep_State_flagUp | apply keep_State_enqueue | apply keep_ite)

theorem keep_execTrig {s0 : State} (u : CtxId) (f : Fields) (s : State) (hs : Keep s0 s) :
    KeepA s0 (execTrig u f s) := by
  unfold execTrig
  try dsimp only
  repeat' first
    | (with_reducible
        first
          | assumption | intro _ | apply keepA_ite | apply keep_next | apply keep_State_run | apply keep_State_waits
          | apply keep_State_load | apply keep_State_finishTrig | apply keep_SrcWalk_run | apply keep_ite)

theorem keep_State_trnAnswer {s0 : State} (s : State) (c code seq : Nat) (hs : Keep s0 s) :
    Keep s0 (State.trnAnswer s c code seq) := by
  unfold State.trnAnswer
  try dsimp only
  repeat' first
    | (with_reducible
        first
          | assumption | intro _ | apply keep_State_setF)

theorem keep_execTrnSubmit {s0 : State} (c : Nat) (w : Word) (s : State) (hs : Keep s0 s) :
    KeepA s0 (execTrnSubmit c w s) := by
  unfold execTrnSubmit
  try dsimp only
  repeat' first
    | (with_reducible
        first
          | assumption | intro _ | apply keepA_ite | apply keep_next | apply keep_State_log
          | apply keep_State_forward | apply keep_State_trnAnswer | apply keep_State_readMem
          | apply keep_State_enqueue)

theorem keep_State_setHand {s0 : State} (s : State) (slot layer : Nat) (f : KvHand → KvHand) (hs : Keep s0 s) :
    Keep s0 (State.setHand s slot layer f) := by
  unfold State.setHand
  try dsimp only
  repeat' first
    | (with_reducible
        first
          | assumption | intro _ | apply keep_State_setKv)

theorem keep_State_handSubmit {s0 : State} (n : Nat) (s : State) (a0 : Nat) (a1 : Nat) (a2 : Nat) (hs : Keep s0 s) : Keep s0 (State.handSubmit n s a0 a1 a2) := by
  induction n generalizing s a0 a1 a2 with
  | zero => exact hs
  | succ n ih =>
    unfold State.handSubmit
    try dsimp only
    repeat' first
      | (with_reducible
          first
            | assumption | intro _ | apply ih | apply keep_State_setHand | apply keep_State_enqueue | apply keep_State_count
            | apply keep_ite)
      | dsimp only | split

theorem keep_execKvHandoffSubmit {s0 : State} (slot layer : Nat) (s : State) (hs : Keep s0 s) :
    KeepA s0 (execKvHandoffSubmit slot layer s) := by
  unfold execKvHandoffSubmit
  try dsimp only
  repeat' first
    | (with_reducible
        first
          | assumption | intro _ | apply keepA_ite | apply keep_next | apply keep_State_handSubmit
          | apply keep_State_putKvW | apply keep_State_setKv | apply keep_ite | apply keep_ite1)
    | dsimp only | split

theorem keep_execTrnAbort {s0 : State} (c : Nat) (w : Word) (s : State) (hs : Keep s0 s) :
    KeepA s0 (execTrnAbort c w s) := by
  unfold execTrnAbort
  try dsimp only
  repeat' first
    | (with_reducible
        first
          | assumption | intro _ | apply keepA_ite | apply keep_next | apply keep_State_forward
          | apply keep_State_abortEntry | apply keep_State_setF | apply keep_ite | apply keep_ite1)
    | dsimp only | split

theorem keep_State_rankUp {s0 : State} (s : State) (hs : Keep s0 s) :
    Keep s0 (State.rankUp s) := by
  unfold State.rankUp
  try dsimp only
  repeat' first
    | (with_reducible
        first
          | assumption | intro _ | apply keep_State_setTrn)

theorem keep_State_release {s0 : State} (s : State) (x : Nat) (hs : Keep s0 s) :
    Keep s0 (State.release s x) := by
  unfold State.release
  try dsimp only
  repeat' first
    | (with_reducible
        first
          | assumption | intro _ | apply keep_State_setParcel | apply keep_State_rankUp)

theorem keep_State_formOne {s0 : State} (s : State) (e : TrnEntry) (hs : Keep s0 s) :
    Keep s0 (State.formOne s e) := by
  unfold State.formOne
  try dsimp only
  repeat' first
    | (with_reducible
        first
          | assumption | intro _ | apply keep_State_parcelEnd | apply keep_State_count | apply keep_State_failEntry
          | apply keep_State_setTrn | apply keep_State_setEntry | apply keep_State_setParcel
          | apply keep_State_release | apply keep_State_rankUp | apply keep_ite)

theorem keep_State_pump {s0 : State} (n : Nat) (s : State) (a0 : Nat) (a1 : Nat) (hs : Keep s0 s) : Keep s0 (State.pump n s a0 a1) := by
  induction n generalizing s a0 a1 with
  | zero => exact hs
  | succ n ih =>
    unfold State.pump
    try dsimp only
    repeat' first
      | (with_reducible
          first
            | assumption | intro _ | apply ih | apply keep_State_formOne | apply keep_ite)
      | dsimp only | split

theorem keep_State_pumpQueue {s0 : State} (s : State) (p q : Nat) (hs : Keep s0 s) :
    Keep s0 (State.pumpQueue s p q) := by
  unfold State.pumpQueue
  try dsimp only
  repeat' first
    | (with_reducible
        first
          | assumption | intro _ | apply keep_State_pump)

theorem keep_State_pumpTransit {s0 : State} (s : State) (hs : Keep s0 s) :
    Keep s0 (State.pumpTransit s) := by
  unfold State.pumpTransit
  try dsimp only
  repeat' first
    | (with_reducible
        first
          | assumption | intro _ | apply keep_State_pumpQueue | apply keep_ite | apply keep_ite1 | apply keep_foldl)

theorem keep_execTrnEntryActive {s0 : State} (p q : Nat) (s : State) (hs : Keep s0 s) :
    KeepA s0 (execTrnEntryActive p q s) := by
  unfold execTrnEntryActive
  try dsimp only
  repeat' first
    | (with_reducible
        first
          | assumption | intro _ | apply keepA_ite | apply keep_next | apply keep_State_setEntry
          | apply keep_State_pumpQueue | apply keep_ite | apply keep_ite1)
    | dsimp only | split

theorem keep_execTrnWheelRelease {s0 : State} (x : Nat) (s : State) (hs : Keep s0 s) :
    KeepA s0 (execTrnWheelRelease x s) := by
  unfold execTrnWheelRelease
  try dsimp only
  repeat' first
    | (with_reducible
        first
          | assumption | intro _ | apply keepA_ite | apply keep_next | apply keep_State_release
          | apply keep_State_pumpQueue)

theorem keep_execTrnFarScan {s0 : State} (s : State) (hs : Keep s0 s) :
    KeepA s0 (execTrnFarScan s) := by
  unfold execTrnFarScan
  try dsimp only
  repeat' first
    | (with_reducible
        first
          | assumption | intro _ | apply keepA_ite | apply keep_next | apply keep_State_release
          | apply keep_State_setParcel | apply keep_State_rankUp | apply keep_ite | apply keep_ite1
          | apply keep_foldl)

theorem keep_State_abandonChecks {s0 : State} (s : State) (unit : Nat) (hs : Keep s0 s) :
    Keep s0 (State.abandonChecks s unit) := by
  unfold State.abandonChecks
  try dsimp only
  repeat' first
    | (with_reducible
        first
          | assumption | intro _ | apply keep_ite | apply keep_ite1)
    | simp only [keep_mk]

theorem keep_execCodecEncodeStart {s0 : State} (x : Nat) (s : State) (hs : Keep s0 s) :
    KeepA s0 (execCodecEncodeStart x s) := by
  unfold execCodecEncodeStart
  try dsimp only
  repeat' first
    | (with_reducible
        first
          | assumption | intro _ | apply keepA_ite | apply keep_next | apply keep_State_abandonChecks
          | apply keep_State_setTrn | apply keep_State_setParcel | apply keep_ite | apply keep_ite1)
    | simp only [keep_mk]
    | dsimp only | split

theorem keep_execCodecEncodeDone {s0 : State} (x : Nat) (s : State) (hs : Keep s0 s) :
    KeepA s0 (execCodecEncodeDone x s) := by
  unfold execCodecEncodeDone
  try dsimp only
  repeat' first
    | (with_reducible
        first
          | assumption | intro _ | apply keepA_ite | apply keep_next | apply keep_State_fetchPieces
          | apply keep_State_setTrn | apply keep_State_setParcel | apply keep_ite | apply keep_ite1)
    | dsimp only | split

theorem keep_State_parcelData {s0 : State} (s : State) (x : Nat) (d : Nat) (hs : Keep s0 s) :
    Keep s0 (State.parcelData s x d).1 := by
  unfold State.parcelData
  try dsimp only
  repeat' first
    | (with_reducible
        first
          | assumption | intro _ | apply keep_State_fetchPieces | apply keep_State_setParcel | apply keep_ite
          | apply keep_ite1)
    | dsimp only | split

theorem keep_State_sendPackets {s0 : State} (s : State) (d : Nat) (k : Parcel) (a b : Nat) (hs : Keep s0 s) :
    Keep s0 (State.sendPackets s d k a b) := by
  unfold State.sendPackets
  try dsimp only
  repeat' first
    | (with_reducible
        first
          | assumption | intro _ | apply keep_State_putOut | apply keep_ite | apply keep_ite1 | apply keep_foldl)

theorem keep_State_parcelTag {s0 : State} (s : State) (x : Nat) (d : Nat) (hs : Keep s0 s) :
    Keep s0 (State.parcelTag s x d).1 := by
  unfold State.parcelTag
  try dsimp only
  repeat' first
    | (with_reducible
        first
          | assumption | intro _ | apply keep_State_setTag | apply keep_State_setParcel | apply keep_State_count
          | apply keep_State_noRoute | apply keep_ite | apply keep_ite1)
    | dsimp only | split

theorem keep_State_parcelPort {s0 : State} (s : State) (x : Nat) (hs : Keep s0 s) :
    Keep s0 (State.parcelPort s x).1 := by
  unfold State.parcelPort
  try dsimp only
  repeat' first
    | (with_reducible
        first
          | assumption | intro _ | apply keep_State_setTag | apply keep_ite | apply keep_ite1)
    | dsimp only | split

theorem keep_State_chargeFill {s0 : State} (s : State) (d : Nat) (k : Parcel) (hs : Keep s0 s) :
    Keep s0 (State.chargeFill s d k) := by
  unfold State.chargeFill
  try dsimp only
  repeat' first
    | (with_reducible
        first
          | assumption | intro _ | apply keep_State_regCharge | apply keep_ite | apply keep_ite1 | apply keep_foldl)

theorem keep_State_journalStream {s0 : State} (s : State) (d : Nat) (k : Parcel) (hs : Keep s0 s) :
    Keep s0 (State.journalStream s d k) := by
  unfold State.journalStream
  split
  · exact keep_State_journal _ _ _ _ _ _ hs
  · exact hs

theorem keep_State_movePiece {s0 : State} (s : State) (x : Nat) (d : Nat) (n : Nat × Nat) (hs : Keep s0 s) :
    Keep s0 (State.movePiece s x d n) := by
  unfold State.movePiece
  try dsimp only
  repeat' first
    | (with_reducible
        first
          | assumption | intro _ | apply keep_State_regCharge | apply keep_State_chargeFill | apply keep_State_count
          | apply keep_State_setTrn | apply keep_State_setParcel | apply keep_State_noteRelease
          | apply keep_State_parcelTag | apply keep_State_parcelPort | apply keep_State_sendPackets
          | apply keep_State_journalStream | apply keep_State_acct | apply keep_State_setEntry | apply keep_ite | apply keep_ite1 | apply keep_foldl
          | apply keep_foldl1)
    | dsimp only | split

theorem keep_State_compareParcel {s0 : State} (s : State) (x : Nat) (e : TrnEntry) (hs : Keep s0 s) :
    Keep s0 (State.compareParcel s x e) := by
  unfold State.compareParcel
  try dsimp only
  repeat' first
    | (with_reducible
        first
          | assumption | intro _ | apply keep_State_count | apply keep_State_setParcel)
    | simp only [keep_mk]

theorem keep_State_startPiece {s0 : State} (s : State) (x : Nat) (d : Nat) (hs : Keep s0 s) :
    Keep s0 (State.startPiece s x d) := by
  unfold State.startPiece
  try dsimp only
  repeat' first
    | (with_reducible
        first
          | assumption | intro _ | apply keep_State_setParcel | apply keep_State_count | apply keep_State_regDefer
          | apply keep_State_movePiece)
    | dsimp only | split

theorem keep_State_debit {s0 : State} (s : State) (key n : Nat) (hs : Keep s0 s) :
    Keep s0 (State.debit s key n) := by
  unfold State.debit
  try dsimp only
  repeat' first
    | (with_reducible
        first
          | assumption | intro _ | apply keep_State_setTrn | apply keep_State_settleDeficit)

theorem keep_execTrnParcelStart {s0 : State} (x : Nat) (s : State) (hs : Keep s0 s) :
    KeepA s0 (execTrnParcelStart x s) := by
  unfold execTrnParcelStart
  try dsimp only
  repeat' first
    | (with_reducible
        first
          | assumption | intro _ | apply keepA_ite | apply keep_next | apply keep_State_startPiece
          | apply keep_State_dropParcel | apply keep_State_failEntry | apply keep_State_setParcel
          | apply keep_State_parcelData | apply keep_State_compareParcel | apply keep_State_setTrn
          | apply keep_State_pumpQueue | apply keep_State_debit | apply keep_ite | apply keep_ite1)
    | dsimp only | split

theorem keep_State_ackParcel {s0 : State} (s : State) (x : Nat) (hs : Keep s0 s) :
    Keep s0 (State.ackParcel s x) := by
  unfold State.ackParcel
  try dsimp only
  repeat' first
    | (with_reducible
        first
          | assumption | intro _ | apply keep_State_dropParcel | apply keep_State_count | apply keep_State_setEntry
          | apply keep_State_complete | apply keep_State_settleEntry | apply keep_State_pumpQueue | apply keep_ite
          | apply keep_ite1)
    | dsimp only | split

theorem keep_execTrnParcelAck {s0 : State} (x : Nat) (s : State) (hs : Keep s0 s) :
    KeepA s0 (execTrnParcelAck x s) := by
  unfold execTrnParcelAck
  try dsimp only
  repeat' first
    | (with_reducible
        first
          | assumption | intro _ | apply keepA_ite | apply keep_next | apply keep_State_ackParcel
          | apply keep_State_parcelData | apply keep_State_writeMem | apply keep_State_newXfer
          | apply keep_State_advance | apply keep_State_endXfer | apply keep_ite | apply keep_ite1 | apply keep_foldl
          | apply keep_foldl1)
    | simp only [keep_mk]
    | dsimp only | split

theorem keep_execTrnParcelFail {s0 : State} (x code : Nat) (s : State) (hs : Keep s0 s) :
    KeepA s0 (execTrnParcelFail x code s) := by
  unfold execTrnParcelFail
  try dsimp only
  repeat' first
    | (with_reducible
        first
          | assumption | intro _ | apply keepA_ite | apply keep_next | apply keep_State_dropParcel
          | apply keep_State_failEntry | apply keep_State_pumpQueue | apply keep_ite | apply keep_ite1)
    | dsimp only | split

theorem keep_execTrnParcelReissue {s0 : State} (x : Nat) (s : State) (hs : Keep s0 s) :
    KeepA s0 (execTrnParcelReissue x s) := by
  unfold execTrnParcelReissue
  try dsimp only
  repeat' first
    | (with_reducible
        first
          | assumption | intro _ | apply keepA_ite | apply keep_next | apply keep_State_setParcel
          | apply keep_State_count | apply keep_State_parcelTag | apply keep_State_sendPackets
          | apply keep_State_acct | apply keep_ite | apply keep_ite1)
    | dsimp only | split

-- ===== Sys2Proof/Machine/Flash.lean =====

theorem keep_execDiscard {s0 : State} (c : Nat) (w : Word) (s : State) (hs : Keep s0 s) :
    KeepA s0 (execDiscard c w s) := by
  unfold execDiscard
  try dsimp only
  repeat' first
    | (with_reducible
        first
          | assumption | intro _ | apply keepA_ite | apply keep_next | apply keep_State_setF | apply keep_State_fresh
          | apply keep_State_discardPages | apply keep_ite | apply keep_ite1)
    | simp only [keep_mk]

theorem keep_execDiscardDone {s0 : State} (c : Nat) (s : State) (hs : Keep s0 s) :
    KeepA s0 (execDiscardDone c s) := by
  unfold execDiscardDone
  try dsimp only
  repeat' first
    | (with_reducible
        first
          | assumption | intro _ | apply keepA_ite | apply keep_next | apply keep_State_discardPages
          | apply keep_State_setF | apply keep_ite | apply keep_ite1)
    | simp only [keep_mk]

theorem keep_execAcctLatch {s0 : State} (c : Nat) (w : Word) (s : State) (hs : Keep s0 s) :
    KeepA s0 (execAcctLatch c w s) := by
  unfold execAcctLatch
  try dsimp only
  repeat' first
    | (with_reducible
        first
          | assumption | intro _ | apply keepA_ite | apply keep_next | apply keep_State_setRg | apply keep_ite
          | apply keep_ite1 | apply keep_foldl)

theorem keep_State_setFlash {s0 : State} (s : State) (f : Flash → Flash) (hs : Keep s0 s) :
    Keep s0 (State.setFlash s f) := by
  unfold State.setFlash
  try dsimp only
  repeat' first
    | (with_reducible
        first
          | assumption | intro _)
    | simp only [keep_mk]

theorem keep_State_setBlock {s0 : State} (s : State) (b : Nat) (f : FlashBlock → FlashBlock) (hs : Keep s0 s) :
    Keep s0 (State.setBlock s b f) := by
  unfold State.setBlock
  try dsimp only
  repeat' first
    | (with_reducible
        first
          | assumption | intro _ | apply keep_State_setFlash)

theorem keep_State_queueReloc {s0 : State} (s : State) (b : Nat) (hs : Keep s0 s) :
    Keep s0 (State.queueReloc s b) := by
  unfold State.queueReloc
  try dsimp only
  repeat' first
    | (with_reducible
        first
          | assumption | intro _ | apply keep_State_setFlash | apply keep_ite)

theorem keep_State_retireBlock {s0 : State} (s : State) (b : Nat) (hs : Keep s0 s) :
    Keep s0 (State.retireBlock s b) := by
  unfold State.retireBlock
  try dsimp only
  repeat' first
    | (with_reducible
        first
          | assumption | intro _ | apply keep_State_setBlock | apply keep_State_log | apply keep_ite)

theorem keep_State_countReads {s0 : State} (s : State) (b n : Nat) (hs : Keep s0 s) :
    Keep s0 (State.countReads s b n) := by
  unfold State.countReads
  try dsimp only
  repeat' first
    | (with_reducible
        first
          | assumption | intro _ | apply keep_State_setBlock | apply keep_State_queueReloc | apply keep_State_log
          | apply keep_ite)

theorem keep_State_serveCodeword {s0 : State} (s : State) (c l : Nat) (bad : Bool) (hs : Keep s0 s) :
    Keep s0 (State.serveCodeword s c l bad) := by
  unfold State.serveCodeword
  try dsimp only
  repeat' first
    | (with_reducible
        first
          | assumption | intro _ | apply keep_State_acct | apply keep_State_setXfer | apply keep_State_onward
          | apply keep_ite | apply keep_ite1 | apply keep_foldl)

theorem keep_execFlashReadDone {s0 : State} (r : FlashRead) (s : State) (hs : Keep s0 s) :
    KeepA s0 (execFlashReadDone r s) := by
  unfold execFlashReadDone
  try dsimp only
  repeat' first
    | (with_reducible
        first
          | assumption | intro _ | apply keepA_ite | apply keep_next | apply keep_State_countReads
          | apply keep_State_setFlash | apply keep_State_log | apply keep_State_queueReloc
          | apply keep_State_serveCodeword | apply keep_ite | apply keep_ite1)
    | dsimp only | split

theorem keep_execFlashProgramDone {s0 : State} (r : FlashProg) (s : State) (hs : Keep s0 s) :
    KeepA s0 (execFlashProgramDone r s) := by
  unfold execFlashProgramDone
  try dsimp only
  repeat' first
    | (with_reducible
        first
          | assumption | intro _ | apply keepA_ite | apply keep_next | apply keep_State_retireBlock
          | apply keep_State_parcelData | apply keep_State_setFlash | apply keep_State_setParcel
          | apply keep_State_acct | apply keep_ite | apply keep_ite1)
    | dsimp only | split

theorem keep_execFlashEraseDone {s0 : State} (block : Nat) (ok : Bool) (s : State) (hs : Keep s0 s) :
    KeepA s0 (execFlashEraseDone block ok s) := by
  unfold execFlashEraseDone
  try dsimp only
  repeat' first
    | (with_reducible
        first
          | assumption | intro _ | apply keepA_ite | apply keep_next | apply keep_State_retireBlock
          | apply keep_State_setFlash | apply keep_State_setBlock)

theorem keep_State_forceReclaim {s0 : State} (s : State) (c : Nat) (hs : Keep s0 s) :
    Keep s0 (State.forceReclaim s c) := by
  unfold State.forceReclaim
  try dsimp only
  repeat' first
    | (with_reducible
        first
          | assumption | intro _ | apply keep_State_setFlash)

theorem keep_execFlashReclaim {s0 : State} (r : FlashSpace) (s : State) (hs : Keep s0 s) :
    KeepA s0 (execFlashReclaim r s) := by
  unfold execFlashReclaim
  try dsimp only
  repeat' first
    | (with_reducible
        first
          | assumption | intro _ | apply keepA_ite | apply keep_next | apply keep_State_queueReloc
          | apply keep_State_forceReclaim | apply keep_State_setB | apply keep_State_log | apply keep_ite)

theorem keep_execFlashRelocateStart {s0 : State} (src dst : Nat) (s : State) (hs : Keep s0 s) :
    KeepA s0 (execFlashRelocateStart src dst s) := by
  unfold execFlashRelocateStart
  try dsimp only
  repeat' first
    | (with_reducible
        first
          | assumption | intro _ | apply keepA_ite | apply keep_next | apply keep_State_setFlash
          | apply keep_State_countReads)

theorem keep_State_finishReloc {s0 : State} (s : State) (r : Reloc) (hs : Keep s0 s) :
    Keep s0 (State.finishReloc s r) := by
  unfold State.finishReloc
  try dsimp only
  repeat' first
    | (with_reducible
        first
          | assumption | intro _ | apply keep_State_setFlash | apply keep_State_setBlock)

theorem keep_execFlashRelocateCopied {s0 : State} (src : Nat) (s : State) (hs : Keep s0 s) :
    KeepA s0 (execFlashRelocateCopied src s) := by
  unfold execFlashRelocateCopied
  try dsimp only
  repeat' first
    | (with_reducible
        first
          | assumption | intro _ | apply keepA_ite | apply keep_next | apply keep_State_setFlash
          | apply keep_State_finishReloc | apply keep_ite | apply keep_ite1)
    | dsimp only | split

theorem keep_execFlashMapCheckpoint {s0 : State} (s : State) (hs : Keep s0 s) :
    KeepA s0 (execFlashMapCheckpoint s) := by
  unfold execFlashMapCheckpoint
  try dsimp only
  repeat' first
    | (with_reducible
        first
          | assumption | intro _ | apply keepA_ite | apply keep_next | apply keep_State_setFlash)

theorem keep_State_cleanMap {s0 : State} (s : State) (h : Keep s0 s) : Keep s0 (State.cleanMap s) := by
  unfold State.cleanMap
  exact keep_mem h (fun w => unmark_wf _ _ _ _ _ _ _ w)

theorem keep_execFlashMapLoad {s0 : State} (s : State) (hs : Keep s0 s) :
    KeepA s0 (execFlashMapLoad s) := by
  unfold execFlashMapLoad
  try dsimp only
  repeat' first
    | (with_reducible
        first
          | assumption | intro _ | apply keepA_ite | apply keep_next | apply keep_State_setFlash
          | apply keep_State_finishReloc | apply keep_State_cleanMap | apply keep_State_setF
          | apply keep_State_advance | apply keep_ite | apply keep_ite1 | apply keep_foldl)

-- ===== Sys2Proof/Machine/Serve.lean =====

theorem keep_State_setSlotX {s0 : State} (s : State) (n : Nat) (f : SlotX → SlotX) (hs : Keep s0 s) :
    Keep s0 (State.setSlotX s n f) := by
  unfold State.setSlotX
  try dsimp only
  repeat' first
    | (with_reducible
        first
          | assumption | intro _ | apply keep_State_setServe)

theorem keep_State_hostServeDone {s0 : State} (s : State) (q num : Nat) (payload : List Nat) (hs : Keep s0 s) :
    Keep s0 (State.hostServeDone s q num payload) := by
  unfold State.hostServeDone
  try dsimp only
  repeat' first
    | (with_reducible
        first
          | assumption | intro _ | apply keep_ite | apply keep_ite1)
    | simp only [keep_mk]

theorem keep_State_answerRecord {s0 : State} (s : State) (r : ReqRec) (addr v : Nat) (hs : Keep s0 s) :
    Keep s0 (State.answerRecord s r addr v) := by
  unfold State.answerRecord
  try dsimp only
  repeat' first
    | (with_reducible
        first
          | assumption | intro _ | apply keep_State_oweRecord | apply keep_State_hostServeDone)
    | dsimp only | split

theorem keep_State_putResult {s0 : State} (s : State) (part : Nat) (src : ReqSrc) (addr code slotState generated : Nat) (hs : Keep s0 s) :
    Keep s0 (State.putResult s part src addr code slotState generated) := by
  unfold State.putResult
  try dsimp only
  repeat' first
    | (with_reducible
        first
          | assumption | intro _ | apply keep_State_count | apply keep_State_owe | apply keep_State_hostServeDone
          | apply keep_ite | apply keep_ite1)
    | dsimp only | split

theorem keep_State_releaseKv {s0 : State} (s : State) (n : Nat) (hs : Keep s0 s) :
    Keep s0 (State.releaseKv s n) := by
  unfold State.releaseKv
  try dsimp only
  repeat' first
    | (with_reducible
        first
          | assumption | intro _ | apply keep_State_kvSubmit | apply keep_ite)

theorem keep_State_pushResp {s0 : State} (s : State) (n : Nat) (r : Resp) (hs : Keep s0 s) :
    Keep s0 (State.pushResp s n r) := by
  unfold State.pushResp
  try dsimp only
  repeat' first
    | (with_reducible
        first
          | assumption | intro _ | apply keep_State_setSlotX)

theorem keep_State_closeSlot {s0 : State} (s : State) (n : Nat) (r : Resp) (hs : Keep s0 s) :
    Keep s0 (State.closeSlot s n r) := by
  unfold State.closeSlot
  try dsimp only
  repeat' first
    | (with_reducible
        first
          | assumption | intro _ | apply keep_State_setSlState | apply keep_State_pushResp
          | apply keep_State_setSlotX | apply keep_State_releaseKv)

theorem keep_State_setCancel {s0 : State} (s : State) (p n : Nat) (b : Bool) (hs : Keep s0 s) :
    Keep s0 (State.setCancel s p n b) := by
  unfold State.setCancel
  try dsimp only
  repeat' first
    | (with_reducible
        first
          | assumption | intro _ | apply keep_State_setDrum | apply keep_ite | apply keep_ite1 | apply keep_foldl)

theorem keep_State_sendNotice {s0 : State} (s : State) (n code : Nat) (hs : Keep s0 s) :
    Keep s0 (State.sendNotice s n code) := by
  unfold State.sendNotice
  try dsimp only
  repeat' first
    | (with_reducible
        first
          | assumption | intro _ | apply keep_State_owe)

theorem keep_State_decideForward {s0 : State} (s : State) (n code : Nat) (hs : Keep s0 s) :
    Keep s0 (State.decideForward s n code) := by
  unfold State.decideForward
  try dsimp only
  repeat' first
    | (with_reducible
        first
          | assumption | intro _ | apply keep_State_sendNotice | apply keep_State_putResult
          | apply keep_State_setSlotX | apply keep_ite | apply keep_ite1)
    | dsimp only | split

theorem keep_State_respDone {s0 : State} (s : State) (n : Nat) (ok : Bool) (hs : Keep s0 s) :
    Keep s0 (State.respDone s n ok) := by
  unfold State.respDone
  try dsimp only
  repeat' first
    | (with_reducible
        first
          | assumption | intro _ | apply keep_State_setSlotX | apply keep_State_decideForward
          | apply keep_State_sendNotice | apply keep_ite)

theorem keep_State_slotPoisoned {s0 : State} (s : State) (n : Nat) (reply : Bool) (hs : Keep s0 s) :
    Keep s0 (State.slotPoisoned s n reply) := by
  unfold State.slotPoisoned
  try dsimp only
  repeat' first
    | (with_reducible
        first
          | assumption | intro _ | apply keep_State_setSlState | apply keep_State_setSlotX
          | apply keep_State_closeSlot | apply keep_State_releaseKv | apply keep_State_decideForward | apply keep_ite)

theorem keep_State_slotRead {s0 : State} (s : State) (n bytes : Nat) (hs : Keep s0 s) :
    Keep s0 (State.slotRead s n bytes).1 := by
  unfold State.slotRead
  try dsimp only
  repeat' first
    | (with_reducible
        first
          | assumption | intro _ | apply keep_State_hubRead | apply keep_State_log | apply keep_State_slotPoisoned
          | apply keep_ite | apply keep_ite1)

theorem keep_State_slotGate {s0 : State} (s : State) (n : Nat) (hs : Keep s0 s) :
    Keep s0 (State.slotGate s n).1 := by
  unfold State.slotGate
  try dsimp only
  repeat' first
    | (with_reducible
        first
          | assumption | intro _ | apply keep_State_slotRead)

theorem keep_State_findHandle {s0 : State} (s : State) (p : Option Nat) (h : Nat) (hs : Keep s0 s) :
    Keep s0 (State.findHandle s p h).1 := by
  unfold State.findHandle
  try dsimp only
  repeat' first
    | (with_reducible
        first
          | assumption | intro _ | apply keep_State_slotGate | apply keep_ite | apply keep_ite1)

theorem keep_execResponseIssue {s0 : State} (slot : Nat) (s : State) (hs : Keep s0 s) :
    KeepA s0 (execResponseIssue slot s) := by
  unfold execResponseIssue
  try dsimp only
  repeat' first
    | (with_reducible
        first
          | assumption | intro _ | apply keepA_ite | apply keep_next | apply keep_State_issue
          | apply keep_State_pumpOwed | apply keep_State_slotGate | apply keep_State_putSlotW
          | apply keep_State_setSlotX | apply keep_State_count | apply keep_State_respDone
          | apply keep_State_noteRelease | apply keep_ite | apply keep_ite1)
    | simp only [keep_mk]
    | dsimp only | split

theorem keep_State_fillBuckets {s0 : State} (s : State) (u : Nat) (hs : Keep s0 s) :
    Keep s0 (State.fillBuckets s u) := by
  unfold State.fillBuckets
  try dsimp only
  repeat' first
    | (with_reducible
        first
          | assumption | intro _ | apply keep_State_setServe)

theorem keep_State_refillBuckets {s0 : State} (s : State) (hs : Keep s0 s) :
    Keep s0 (State.refillBuckets s) := by
  unfold State.refillBuckets
  try dsimp only
  repeat' first
    | (with_reducible
        first
          | assumption | intro _ | apply keep_State_setServe | apply keep_foldl | apply keep_foldl1)
    | dsimp only | split

theorem keep_State_policeDebit {s0 : State} (s : State) (u n : Nat) (hs : Keep s0 s) :
    Keep s0 (State.policeDebit s u n) := by
  unfold State.policeDebit
  try dsimp only
  repeat' first
    | (with_reducible
        first
          | assumption | intro _ | apply keep_State_setServe)

theorem keep_State_refuse {s0 : State} (s : State) (r : ReqRec) (code : Nat) (hs : Keep s0 s) :
    Keep s0 (State.refuse s r code) := by
  unfold State.refuse
  try dsimp only
  repeat' first
    | (with_reducible
        first
          | assumption | intro _ | apply keep_State_count | apply keep_State_answerRecord | apply keep_State_log
          | apply keep_ite)

theorem keep_State_deliver {s0 : State} (s : State) (r : ReqRec) (hs : Keep s0 s) :
    Keep s0 (State.deliver s r) := by
  unfold State.deliver
  try dsimp only
  repeat' first
    | (with_reducible
        first
          | assumption | intro _ | apply keep_State_fresh | apply keep_State_hostServeDone
          | apply keep_State_setServe | apply keep_State_refuse | apply keep_ite | apply keep_ite1)
    | dsimp only | split

theorem keep_State_fillSlot {s0 : State} (s : State) (n : Nat) (r : ReqRec) (hs : Keep s0 s) :
    Keep s0 (State.fillSlot s n r) := by
  unfold State.fillSlot
  try dsimp only
  repeat' first
    | (with_reducible
        first
          | assumption | intro _ | apply keep_State_writeAll | apply keep_State_setSlotX)

theorem keep_State_accept {s0 : State} (s : State) (r : ReqRec) (n : Nat) (hs : Keep s0 s) :
    Keep s0 (State.accept s r n) := by
  unfold State.accept
  try dsimp only
  repeat' first
    | (with_reducible
        first
          | assumption | intro _ | apply keep_State_fillSlot | apply keep_State_count | apply keep_State_setF
          | apply keep_State_acct | apply keep_State_answerRecord | apply keep_State_pushResp | apply keep_ite
          | apply keep_ite1)
    | dsimp only | split

theorem keep_State_admitReq {s0 : State} (s : State) (r : ReqRec) (hs : Keep s0 s) :
    Keep s0 (State.admitReq s r) := by
  unfold State.admitReq
  try dsimp only
  repeat' first
    | (with_reducible
        first
          | assumption | intro _ | apply keep_State_refuse | apply keep_State_policeDebit | apply keep_State_slotGate
          | apply keep_State_accept | apply keep_ite | apply keep_ite1)
    | dsimp only | split

theorem keep_execSubmit {s0 : State} (p : Nat) (s : State) (hs : Keep s0 s) :
    KeepA s0 (execSubmit p s) := by
  unfold execSubmit
  try dsimp only
  repeat' first
    | (with_reducible
        first
          | assumption | intro _ | apply keep_next | apply keep_State_setServe | apply keep_State_admitReq)
    | dsimp only | split

theorem keep_execAttach {s0 : State} (p : Nat) (s : State) (hs : Keep s0 s) :
    KeepA s0 (execAttach p s) := by
  unfold execAttach
  try dsimp only
  repeat' first
    | (with_reducible
        first
          | assumption | intro _ | apply keep_next | apply keep_State_setServe | apply keep_State_admitReq)
    | dsimp only | split

theorem keep_State_dropPoisoned {s0 : State} (s : State) (r : ReqRec) (hs : Keep s0 s) :
    Keep s0 (State.dropPoisoned s r) := by
  unfold State.dropPoisoned
  try dsimp only
  repeat' first
    | (with_reducible
        first
          | assumption | intro _ | apply keep_State_log)

theorem keep_execQuery {s0 : State} (p : Nat) (s : State) (hs : Keep s0 s) :
    KeepA s0 (execQuery p s) := by
  unfold execQuery
  try dsimp only
  repeat' first
    | (with_reducible
        first
          | assumption | intro _ | apply keepA_ite | apply keep_next | apply keep_State_setServe
          | apply keep_State_dropPoisoned | apply keep_State_findHandle | apply keep_State_putResult | apply keep_ite
          | apply keep_ite1)
    | dsimp only | split

theorem keep_State_cancelHere {s0 : State} (s : State) (n : Nat) (src : ReqSrc) (addr : Nat) (fwd : Bool) (hs : Keep s0 s) :
    Keep s0 (State.cancelHere s n src addr fwd) := by
  unfold State.cancelHere
  try dsimp only
  repeat' first
    | (with_reducible
        first
          | assumption | intro _ | apply keep_State_setGenerated | apply keep_State_setSlState
          | apply keep_State_setSlotX | apply keep_State_setCancel | apply keep_State_releaseKv)

theorem keep_State_cancelForward {s0 : State} (s : State) (n : Nat) (src : ReqSrc) (addr : Nat) (fwd : Bool) (hs : Keep s0 s) :
    Keep s0 (State.cancelForward s n src addr fwd) := by
  unfold State.cancelForward
  try dsimp only
  repeat' first
    | (with_reducible
        first
          | assumption | intro _ | apply keep_State_fresh | apply keep_State_setSlState | apply keep_State_setSlotX
          | apply keep_State_owe)

theorem keep_State_cancelAnswer {s0 : State} (s : State) (r : ReqRec) (n code : Nat) (hs : Keep s0 s) :
    Keep s0 (State.cancelAnswer s r n code) := by
  unfold State.cancelAnswer
  try dsimp only
  repeat' first
    | (with_reducible
        first
          | assumption | intro _ | apply keep_State_count | apply keep_State_sendNotice | apply keep_State_fresh
          | apply keep_State_owe | apply keep_State_putResult | apply keep_ite)

theorem keep_execCancel {s0 : State} (p : Nat) (s : State) (hs : Keep s0 s) :
    KeepA s0 (execCancel p s) := by
  unfold execCancel
  try dsimp only
  repeat' first
    | (with_reducible
        first
          | assumption | intro _ | apply keepA_ite | apply keep_next | apply keep_State_setServe
          | apply keep_State_dropPoisoned | apply keep_State_findHandle | apply keep_State_cancelAnswer
          | apply keep_State_cancelForward | apply keep_State_cancelHere | apply keep_ite | apply keep_ite1)
    | dsimp only | split

theorem keep_State_workLost {s0 : State} (s : State) (n : Nat) (hs : Keep s0 s) :
    Keep s0 (State.workLost s n) := by
  unfold State.workLost
  try dsimp only
  repeat' first
    | (with_reducible
        first
          | assumption | intro _ | apply keep_State_setSlotX | apply keep_State_pushResp | apply keep_ite)

theorem keep_State_noticeDone {s0 : State} (s : State) (n : Nat) (ok : Bool) (hs : Keep s0 s) :
    Keep s0 (State.noticeDone s n ok) := by
  unfold State.noticeDone
  try dsimp only
  repeat' first
    | (with_reducible
        first
          | assumption | intro _ | apply keep_State_workLost | apply keep_ite)

theorem keep_execNotice {s0 : State} (p : Nat) (s : State) (hs : Keep s0 s) :
    KeepA s0 (execNotice p s) := by
  unfold execNotice
  try dsimp only
  repeat' first
    | (with_reducible
        first
          | assumption | intro _ | apply keepA_ite | apply keep_next | apply keep_State_setServe
          | apply keep_State_dropPoisoned | apply keep_State_findHandle | apply keep_State_log
          | apply keep_State_fresh | apply keep_State_setSlState | apply keep_State_setSlotX
          | apply keep_State_releaseKv | apply keep_State_decideForward | apply keep_State_workLost | apply keep_ite
          | apply keep_ite1)
    | dsimp only | split

theorem keep_State_slotAnswer {s0 : State} (s : State) (c code : Nat) (hs : Keep s0 s) :
    Keep s0 (State.slotAnswer s c code) := by
  unfold State.slotAnswer
  try dsimp only
  repeat' first
    | (with_reducible
        first
          | assumption | intro _ | apply keep_State_setF)

theorem keep_State_slotRow {s0 : State} (s : State) (op c : Nat) (w : Word) (act : Nat → Nat → State → State × Nat) (hs : Keep s0 s) (hact : ∀ x0 x1 t, Keep s0 t → Keep s0 (act x0 x1 t).1) :
    Keep s0 (State.slotRow s op c w act) := by
  unfold State.slotRow
  try dsimp only
  repeat' first
    | (with_reducible
        first
          | assumption | intro _ | apply hact | apply keep_State_forward | apply keep_State_slotGate
          | apply keep_State_slotAnswer | apply keep_State_count | apply keep_ite)

theorem keep_execSlotRemote {s0 : State} (c : Nat) (w : Word) (s : State) (hs : Keep s0 s) :
    KeepA s0 (execSlotRemote c w s) := by
  unfold execSlotRemote
  try dsimp only
  repeat' first
    | (with_reducible
        first
          | assumption | intro _ | apply keepA_ite | apply keep_next | apply keep_State_slotRow
          | apply keep_State_putSlotW | apply keep_State_setSlState | apply keep_ite | apply keep_ite1)

theorem keep_execSlotPark {s0 : State} (c : Nat) (w : Word) (s : State) (hs : Keep s0 s) :
    KeepA s0 (execSlotPark c w s) := by
  unfold execSlotPark
  try dsimp only
  repeat' first
    | (with_reducible
        first
          | assumption | intro _ | apply keepA_ite | apply keep_next | apply keep_State_slotRow
          | apply keep_State_setSlState | apply keep_ite | apply keep_ite1)

theorem keep_execSlotUnpark {s0 : State} (c : Nat) (w : Word) (s : State) (hs : Keep s0 s) :
    KeepA s0 (execSlotUnpark c w s) := by
  unfold execSlotUnpark
  try dsimp only
  repeat' first
    | (with_reducible
        first
          | assumption | intro _ | apply keepA_ite | apply keep_next | apply keep_State_slotRow
          | apply keep_State_setSlState | apply keep_ite | apply keep_ite1)

theorem keep_execSlotSetTally {s0 : State} (c : Nat) (w : Word) (s : State) (hs : Keep s0 s) :
    KeepA s0 (execSlotSetTally c w s) := by
  unfold execSlotSetTally
  try dsimp only
  repeat' first
    | (with_reducible
        first
          | assumption | intro _ | apply keepA_ite | apply keep_next | apply keep_State_slotRow
          | apply keep_State_putSlotW | apply keep_ite | apply keep_ite1)

theorem keep_execSlotSetTally2 {s0 : State} (c : Nat) (w : Word) (s : State) (hs : Keep s0 s) :
    KeepA s0 (execSlotSetTally2 c w s) := by
  unfold execSlotSetTally2
  try dsimp only
  repeat' first
    | (with_reducible
        first
          | assumption | intro _ | apply keepA_ite | apply keep_next | apply keep_State_slotRow
          | apply keep_State_putSlotW | apply keep_ite | apply keep_ite1)

theorem keep_execSlotFree {s0 : State} (slot : Nat) (s : State) (hs : Keep s0 s) :
    KeepA s0 (execSlotFree slot s) := by
  unfold execSlotFree
  try dsimp only
  repeat' first
    | (with_reducible
        first
          | assumption | intro _ | apply keepA_ite | apply keep_next | apply keep_State_slotRead
          | apply keep_State_putSlotW | apply keep_State_setF | apply keep_State_setServe)

theorem keep_execSubPoliceWrite {s0 : State} (i u : Nat) (w : Word) (s : State) (hs : Keep s0 s) :
    KeepA s0 (execSubPoliceWrite i u w s) := by
  unfold execSubPoliceWrite
  try dsimp only
  repeat' first
    | (with_reducible
        first
          | assumption | intro _ | apply keepA_ite | apply keep_next | apply keep_State_setRg
          | apply keep_State_fillBuckets)

theorem keep_execEmitSubmit {s0 : State} (p : Nat) (w : Word) (s : State) (hs : Keep s0 s) :
    KeepA s0 (execEmitSubmit p w s) := by
  unfold execEmitSubmit
  try dsimp only
  repeat' first
    | (with_reducible
        first
          | assumption | intro _ | apply keepA_ite | apply keep_next | apply keep_State_log
          | apply keep_State_forward | apply keep_State_setF | apply keep_State_count | apply keep_State_setServe)

theorem keep_State_emitApply {s0 : State} (s : State) (n w : Nat) (hs : Keep s0 s) :
    Keep s0 (State.emitApply s n w).1 := by
  unfold State.emitApply
  try dsimp only
  repeat' first
    | (with_reducible
        first
          | assumption | intro _ | apply keep_State_run | apply keep_State_closeSlot | apply keep_State_setGenerated
          | apply keep_State_acct | apply keep_State_pushResp | apply keep_ite | apply keep_ite1)

theorem keep_execEmitEntryApply {s0 : State} (p : Nat) (s : State) (hs : Keep s0 s) :
    KeepA s0 (execEmitEntryApply p s) := by
  unfold execEmitEntryApply
  try dsimp only
  repeat' first
    | (with_reducible
        first
          | assumption | intro _ | apply keepA_ite | apply keep_next | apply keep_State_count
          | apply keep_State_hubRead | apply keep_State_wordOf | apply keep_State_putWord | apply keep_State_setServe
          | apply keep_State_setF | apply keep_State_log | apply keep_State_findHandle | apply keep_State_emitApply
          | apply keep_ite | apply keep_ite1)
    | dsimp only | split

end Sys2Proof.Machine
end

