-- ==== Sys2Proof/Laws/KeepFabric.lean ====
section
/-!
SUPPORT. Sys2Proof/Laws/KeepFabric.lean: what the operations of the fabric, routers and steps keep.
-/
namespace Sys2Proof.Machine

open Sys2Proof (CtxId Fields Upsets ParityErrs)

-- ===== Sys2Proof/Machine/Router.lean =====

theorem keep_execRdisp {s0 : State} (u : CtxId) (f : Fields) (s : State) (hs : Keep s0 s) :
    KeepA s0 (execRdisp u f s) := by
  unfold execRdisp
  try dsimp only
  repeat' first
    | (with_reducible
        first
          | assumption | intro _ | apply keepA_ite | apply keep_next | apply keep_State_run | apply keep_State_waits
          | apply keep_State_newXfer | apply keep_State_advance | apply keep_State_setKit | apply keep_State_flagUp
          | apply keep_State_done | apply keep_SrcWalk_run | apply keep_ite)

theorem keep_execRouterTakeToken {s0 : State} (k : Nat) (s : State) (hs : Keep s0 s) :
    KeepA s0 (execRouterTakeToken k s) := by
  unfold execRouterTakeToken
  try dsimp only
  repeat' first
    | (with_reducible
        first
          | assumption | intro _ | apply keepA_ite | apply keep_next | apply keep_State_gather
          | apply keep_State_endXfer | apply keep_State_flagDown | apply keep_State_setKit | apply keep_State_count
          | apply keep_ite | apply keep_ite1)
    | dsimp only | split

theorem keep_State_poisonRow {s0 : State} (s : State) (k : Nat) (t : RouteTok) (e : EvName) (hs : Keep s0 s) :
    Keep s0 (State.poisonRow s k t e) := by
  unfold State.poisonRow
  try dsimp only
  repeat' first
    | (with_reducible
        first
          | assumption | intro _ | apply keep_State_poisonPieces | apply keep_State_log | apply keep_State_setKit
          | apply keep_State_count | apply keep_ite)

theorem keep_State_sendRecord {s0 : State} (s : State) (k : Nat) (x : RouteTaken) (i e gate : Nat) (hs : Keep s0 s) :
    Keep s0 (State.sendRecord s k x i e gate) := by
  unfold State.sendRecord
  try dsimp only
  repeat' first
    | (with_reducible
        first
          | assumption | intro _ | apply keep_State_issue | apply keep_State_poisonRow | apply keep_State_setKit
          | apply keep_State_count | apply keep_ite | apply keep_ite1)
    | dsimp only | split

theorem keep_execRouterDispatch {s0 : State} (k : Nat) (s : State) (hs : Keep s0 s) :
    KeepA s0 (execRouterDispatch k s) := by
  unfold execRouterDispatch
  try dsimp only
  repeat' first
    | (with_reducible
        first
          | assumption | intro _ | apply keepA_ite | apply keep_next | apply keep_State_setKit
          | apply keep_State_sendRecord | apply keep_ite | apply keep_ite1 | apply keep_foldl | apply keep_foldl1)
    | dsimp only | split

theorem keep_State_writeInbox {s0 : State} (s : State) (k d : Nat) (q : RouteRec) (hs : Keep s0 s) :
    Keep s0 (State.writeInbox s k d q).1 := by
  unfold State.writeInbox
  try dsimp only
  repeat' first
    | (with_reducible
        first
          | assumption | intro _ | apply keep_State_readMem | apply keep_State_setDrum | apply keep_State_writeAll
          | apply keep_State_setF | apply keep_ite | apply keep_ite1)

theorem keep_execInboxRecordWritten {s0 : State} (k d : Nat) (s : State) (hs : Keep s0 s) :
    KeepA s0 (execInboxRecordWritten k d s) := by
  unfold execInboxRecordWritten
  try dsimp only
  repeat' first
    | (with_reducible
        first
          | assumption | intro _ | apply keepA_ite | apply keep_next | apply keep_State_setKit
          | apply keep_State_poisonRow | apply keep_State_writeInbox | apply keep_State_journalDrum | apply keep_ite | apply keep_ite1)
    | dsimp only | split

theorem keep_execRrecv {s0 : State} (u : CtxId) (f : Fields) (s : State) (hs : Keep s0 s) :
    KeepA s0 (execRrecv u f s) := by
  unfold execRrecv
  try dsimp only
  repeat' first
    | (with_reducible
        first
          | assumption | intro _ | apply keepA_ite | apply keep_next | apply keep_State_run | apply keep_State_waits
          | apply keep_State_setDrum | apply keep_State_setF | apply keep_State_count | apply keep_State_log
          | apply keep_State_setKit | apply keep_State_putS | apply keep_State_done | apply keep_SrcWalk_run
          | apply keep_ite | apply keep_ite1)
    | dsimp only | split

theorem keep_execRouterDirWrite {s0 : State} (i k e : Nat) (w : Sys2Proof.Word) (s : State) (hs : Keep s0 s) :
    KeepA s0 (execRouterDirWrite i k e w s) := by
  unfold execRouterDirWrite
  try dsimp only
  repeat' first
    | (with_reducible
        first
          | assumption | intro _ | apply keepA_ite | apply keep_next | apply keep_State_log | apply keep_State_setRg)

-- ===== Sys2Proof/Machine/FabTarget.lean =====

theorem keep_State_answer {s0 : State} (s : State) (p : Pkt) (status : Nat) (size : Nat) (d : Data) (reason : Nat) (block : Nat) (part : Option Nat) (hs : Keep s0 s) :
    Keep s0 (State.answer s p status size d reason block part) := by
  unfold State.answer
  try dsimp only
  repeat' first
    | (with_reducible
        first
          | assumption | intro _ | apply keep_State_count | apply keep_State_chargeOut | apply keep_State_putOut
          | apply keep_ite | apply keep_ite1)
    | dsimp only | split

theorem keep_State_refuseAt {s0 : State} (s : State) (p : Pkt) (status : Nat) (hs : Keep s0 s) :
    Keep s0 (State.refuseAt s p status) := by
  unfold State.refuseAt
  try dsimp only
  repeat' first
    | (with_reducible
        first
          | assumption | intro _ | apply keep_State_logLimited | apply keep_State_answer)

theorem keep_State_setFab {s0 : State} (s : State) (f : Fabric → Fabric) (hs : Keep s0 s) :
    Keep s0 (State.setFab s f) := by
  unfold State.setFab
  try dsimp only
  repeat' first
    | (with_reducible
        first
          | assumption | intro _)
    | simp only [keep_mk]

theorem keep_State_setInb {s0 : State} (s : State) (src key : Nat) (f : Inbound → Inbound) (hs : Keep s0 s) :
    Keep s0 (State.setInb s src key f) := by
  unfold State.setInb
  try dsimp only
  repeat' first
    | (with_reducible
        first
          | assumption | intro _ | apply keep_State_setFab)

theorem keep_State_takeIn {s0 : State} (s : State) (p : Pkt) (o : Option OrderRec) (hs : Keep s0 s) :
    Keep s0 (State.takeIn s p o) := by
  unfold State.takeIn
  try dsimp only
  repeat' first
    | (with_reducible
        first
          | assumption | intro _ | apply keep_State_setFab)

theorem keep_State_view {s0 : State} (s : State) (old : Bool) (hs : Keep s0 s) :
    Keep s0 (State.view s old) := by
  unfold State.view
  try dsimp only
  repeat' first
    | (with_reducible
        first
          | assumption | intro _ | apply keep_ite | apply keep_ite1)
    | simp only [keep_mk]

theorem keep_State_relay {s0 : State} (s : State) (p : Pkt) (part : Nat) (r : Reply) (hs : Keep s0 s) :
    Keep s0 (State.relay s p part r) := by
  unfold State.relay
  try dsimp only
  repeat' first
    | (with_reducible
        first
          | assumption | intro _ | apply keep_State_answer)

theorem keep_State_passOn {s0 : State} (s : State) (p : Pkt) (part : Nat) (pc : Piece) (hs : Keep s0 s) :
    Keep s0 (State.passOn s p part pc).1 := by
  unfold State.passOn
  try dsimp only
  repeat' first
    | (with_reducible
        first
          | assumption | intro _ | apply keep_State_issue | apply keep_State_relay | apply keep_State_chargeIn
          | apply keep_State_setInb | apply keep_ite | apply keep_ite1)
    | dsimp only | split

theorem keep_State_passTaint {s0 : State} (s : State) (p : Pkt) (ps : List (Nat × Piece)) (seq : Nat) (hs : Keep s0 s) :
    Keep s0 (State.passTaint s p ps seq).1 := by
  unfold State.passTaint
  try dsimp only
  repeat' first
    | (with_reducible
        first
          | assumption | intro _ | apply keep_State_issue | apply keep_State_poisonRange | apply keep_State_setInb
          | apply keep_ite | apply keep_ite1 | apply keep_foldl)

theorem keep_State_inCharge {s0 : State} (s : State) (p : Pkt) (part a n rd wr : Nat) (hs : Keep s0 s) :
    Keep s0 (State.inCharge s p part a n rd wr) := by
  unfold State.inCharge
  try dsimp only
  repeat' first
    | (with_reducible
        first
          | assumption | intro _ | apply keep_State_presentHbm | apply keep_State_presentFlash
          | apply keep_State_chargeIn | apply keep_ite)

theorem keep_State_inDefer {s0 : State} (s : State) (p : Pkt) (part r : Nat) (hs : Keep s0 s) :
    Keep s0 (State.inDefer s p part r) := by
  unfold State.inDefer
  try dsimp only
  repeat' first
    | (with_reducible
        first
          | assumption | intro _ | apply keep_State_regDefer | apply keep_State_setInb | apply keep_ite)

theorem keep_State_atHit {s0 : State} (s : State) (p : Pkt) (h : ExpHit) (pc : Piece) (n rd wr ans : Nat) (act : State → ExpHit → Nat → State) (hs : Keep s0 s) (hact : ∀ t x1 x2, Keep s0 t → Keep s0 (act t x1 x2)) :
    Keep s0 (State.atHit s p h pc n rd wr ans act).1 := by
  unfold State.atHit
  try dsimp only
  repeat' first
    | (with_reducible
        first
          | assumption | intro _ | apply hact | apply keep_State_passOn | apply keep_State_flashGate
          | apply keep_State_answer | apply keep_State_inDefer | apply keep_State_inCharge | apply keep_ite
          | apply keep_ite1)

theorem keep_State_throughSpan {s0 : State} (s : State) (p : Pkt) (n need rd wr ans : Nat) (act : State → ExpHit → Nat → State) (hs : Keep s0 s) (hact : ∀ t x1 x2, Keep s0 t → Keep s0 (act t x1 x2)) :
    Keep s0 (State.throughSpan s p n need rd wr ans act).1 := by
  unfold State.throughSpan
  try dsimp only
  repeat' first
    | (with_reducible
        first
          | assumption | intro _ | apply hact | apply keep_State_atHit | apply keep_State_refuseAt
          | apply keep_State_setInb | apply keep_ite | apply keep_ite1)
    | dsimp only | split

theorem keep_State_performLoad {s0 : State} (s : State) (p : Pkt) (hs : Keep s0 s) :
    Keep s0 (State.performLoad s p).1 := by
  unfold State.performLoad
  try dsimp only
  repeat' first
    | (with_reducible
        first
          | assumption | intro _ | apply keep_State_answer | apply keep_State_throughSpan | apply keep_State_readMem
          | apply keep_ite | apply keep_ite1)

theorem keep_State_storeSpan {s0 : State} (s : State) (p : Pkt) (en : Nat) (hs : Keep s0 s) :
    Keep s0 (State.storeSpan s p en).1 := by
  unfold State.storeSpan
  try dsimp only
  repeat' first
    | (with_reducible
        first
          | assumption | intro _ | apply keep_State_throughSpan | apply keep_State_writeMem
          | apply keep_State_answer)

theorem keep_State_performStore {s0 : State} (s : State) (p : Pkt) (hs : Keep s0 s) :
    Keep s0 (State.performStore s p).1 := by
  unfold State.performStore
  try dsimp only
  repeat' first
    | (with_reducible
        first
          | assumption | intro _ | apply keep_State_log | apply keep_State_refuseAt | apply keep_State_chargeIn
          | apply keep_State_deliver | apply keep_State_answer | apply keep_State_storeSpan | apply keep_ite
          | apply keep_ite1)

theorem keep_State_performStorem {s0 : State} (s : State) (p : Pkt) (hs : Keep s0 s) :
    Keep s0 (State.performStorem s p).1 := by
  unfold State.performStorem
  try dsimp only
  repeat' first
    | (with_reducible
        first
          | assumption | intro _ | apply keep_State_answer | apply keep_State_storeSpan | apply keep_ite
          | apply keep_ite1)

theorem keep_State_performPeal {s0 : State} (s : State) (p : Pkt) (hs : Keep s0 s) :
    Keep s0 (State.performPeal s p).1 := by
  unfold State.performPeal
  try dsimp only
  repeat' first
    | (with_reducible
        first
          | assumption | intro _ | apply keep_State_answer | apply keep_State_storeSpan | apply keep_ite
          | apply keep_ite1)

theorem keep_State_kvTableAtomic {s0 : State} (s : State) (p : Pkt) (o : Nat) (hs : Keep s0 s) :
    Keep s0 (State.kvTableAtomic s p o).1 := by
  unfold State.kvTableAtomic
  try dsimp only
  repeat' first
    | (with_reducible
        first
          | assumption | intro _ | apply keep_State_refuseAt | apply keep_State_chargeIn | apply keep_State_log
          | apply keep_State_answer | apply keep_State_kvFetchAdd | apply keep_ite | apply keep_ite1)

theorem keep_State_performAtomic {s0 : State} (s : State) (p : Pkt) (hs : Keep s0 s) :
    Keep s0 (State.performAtomic s p).1 := by
  unfold State.performAtomic
  try dsimp only
  repeat' first
    | (with_reducible
        first
          | assumption | intro _ | apply keep_State_answer | apply keep_State_kvTableAtomic
          | apply keep_State_throughSpan | apply keep_State_atomicMem | apply keep_State_poisonRange | apply keep_ite
          | apply keep_ite1)

theorem keep_State_performRed {s0 : State} (s : State) (p : Pkt) (hs : Keep s0 s) :
    Keep s0 (State.performRed s p).1 := by
  unfold State.performRed
  try dsimp only
  repeat' first
    | (with_reducible
        first
          | assumption | intro _ | apply keep_State_answer | apply keep_State_passTaint | apply keep_State_chargeIn
          | apply keep_State_throughSpan | apply keep_State_redMem | apply keep_ite | apply keep_ite1)

theorem keep_State_performFence {s0 : State} (s : State) (p : Pkt) (hs : Keep s0 s) :
    Keep s0 (State.performFence s p).1 := by
  unfold State.performFence
  try dsimp only
  repeat' first
    | (with_reducible
        first
          | assumption | intro _ | apply keep_State_answer | apply keep_ite | apply keep_ite1)

theorem keep_State_gongLine {s0 : State} (s : State) (p : Pkt) (hs : Keep s0 s) :
    Keep s0 (State.gongLine s p).1 := by
  unfold State.gongLine
  try dsimp only
  repeat' first
    | (with_reducible
        first
          | assumption | intro _ | apply keep_State_answer | apply keep_State_log | apply keep_ite | apply keep_ite1)
    | dsimp only | split

theorem keep_State_performArrive {s0 : State} (s : State) (p : Pkt) (hs : Keep s0 s) :
    Keep s0 (State.performArrive s p).1 := by
  unfold State.performArrive
  try dsimp only
  repeat' first
    | (with_reducible
        first
          | assumption | intro _ | apply keep_State_gongLine | apply keep_State_answer | apply keep_State_log
          | apply keep_State_countArrivals | apply keep_ite | apply keep_ite1)
    | dsimp only | split

theorem keep_State_performSound {s0 : State} (s : State) (p : Pkt) (hs : Keep s0 s) :
    Keep s0 (State.performSound s p).1 := by
  unfold State.performSound
  try dsimp only
  repeat' first
    | (with_reducible
        first
          | assumption | intro _ | apply keep_State_gongLine | apply keep_State_soundRemote | apply keep_State_answer
          | apply keep_ite | apply keep_ite1)
    | dsimp only | split

theorem keep_State_performTaint {s0 : State} (s : State) (p : Pkt) (hs : Keep s0 s) :
    Keep s0 (State.performTaint s p).1 := by
  unfold State.performTaint
  try dsimp only
  repeat' first
    | (with_reducible
        first
          | assumption | intro _ | apply keep_State_answer | apply keep_State_refuseAt | apply keep_State_setInb
          | apply keep_State_passTaint | apply keep_State_relay | apply keep_State_log | apply keep_State_count
          | apply keep_ite | apply keep_ite1)
    | dsimp only | split

theorem keep_State_performRecord {s0 : State} (s : State) (p : Pkt) (hs : Keep s0 s) :
    Keep s0 (State.performRecord s p).1 := by
  unfold State.performRecord
  try dsimp only
  repeat' first
    | (with_reducible
        first
          | assumption | intro _ | apply keep_State_answer | apply keep_State_writeInbox | apply keep_State_chargeIn
          | apply keep_ite | apply keep_ite1)
    | dsimp only | split

theorem keep_State_setInPar {s0 : State} (s : State) (src tag : Nat) (o : OpenParcel) (hs : Keep s0 s) :
    Keep s0 (State.setInPar s src tag o) := by
  unfold State.setInPar
  try dsimp only
  repeat' first
    | (with_reducible
        first
          | assumption | intro _ | apply keep_State_setFab)

theorem keep_State_parcelPacket {s0 : State} (s : State) (p : Pkt) (coded : Bool) (hs : Keep s0 s) :
    Keep s0 (State.parcelPacket s p coded).1 := by
  unfold State.parcelPacket
  try dsimp only
  repeat' first
    | (with_reducible
        first
          | assumption | intro _ | apply keep_State_setInPar | apply keep_State_view | apply keep_State_logLimited
          | apply keep_State_inDefer | apply keep_State_setInb | apply keep_State_chargeIn
          | apply keep_State_inCharge | apply keep_State_writeMem | apply keep_ite | apply keep_ite1)

theorem keep_State_closeInPar {s0 : State} (s : State) (src tag : Nat) (hs : Keep s0 s) :
    Keep s0 (State.closeInPar s src tag) := by
  unfold State.closeInPar
  try dsimp only
  repeat' first
    | (with_reducible
        first
          | assumption | intro _ | apply keep_State_setInPar)

theorem keep_State_lastPacket {s0 : State} (s : State) (p : Pkt) (coded : Bool) (hs : Keep s0 s) :
    Keep s0 (State.lastPacket s p coded).1 := by
  unfold State.lastPacket
  try dsimp only
  repeat' first
    | (with_reducible
        first
          | assumption | intro _ | apply keep_State_parcelPacket | apply keep_State_setInPar | apply keep_ite
          | apply keep_ite1)

theorem keep_State_endRefused {s0 : State} (s : State) (p : Pkt) (st : Nat) (hs : Keep s0 s) :
    Keep s0 (State.endRefused s p st) := by
  unfold State.endRefused
  try dsimp only
  repeat' first
    | (with_reducible
        first
          | assumption | intro _ | apply keep_State_closeInPar | apply keep_State_answer | apply keep_ite)

theorem keep_State_parcelEnd {s0 : State} (s : State) (p : Pkt) (hs : Keep s0 s) :
    Keep s0 (State.parcelEnd s p).1 := by
  unfold State.parcelEnd
  try dsimp only
  repeat' first
    | (with_reducible
        first
          | assumption | intro _ | apply keep_State_lastPacket | apply keep_State_endRefused | apply keep_State_view
          | apply keep_State_closeInPar | apply keep_State_answer | apply keep_State_store | apply keep_State_newXfer
          | apply keep_State_advance | apply keep_State_setInPar | apply keep_State_endXfer | apply keep_ite
          | apply keep_ite1)
    | dsimp only | split

theorem keep_State_poisonInPar {s0 : State} (s : State) (o : OpenParcel) (hs : Keep s0 s) :
    Keep s0 (State.poisonInPar s o) := by
  unfold State.poisonInPar
  try dsimp only
  repeat' first
    | (with_reducible
        first
          | assumption | intro _ | apply keep_State_view | apply keep_State_poisonPieces | apply keep_ite)

theorem keep_State_discardPar {s0 : State} (s : State) (src tag : Nat) (hs : Keep s0 s) :
    Keep s0 (State.discardPar s src tag) := by
  unfold State.discardPar
  try dsimp only
  repeat' first
    | (with_reducible
        first
          | assumption | intro _ | apply keep_State_setInPar)

theorem keep_State_incomplete {s0 : State} (s : State) (src tag : Nat) (hs : Keep s0 s) :
    Keep s0 (State.incomplete s src tag) := by
  unfold State.incomplete
  try dsimp only
  repeat' first
    | (with_reducible
        first
          | assumption | intro _ | apply keep_State_poisonInPar | apply keep_State_discardPar | apply keep_State_log
          | apply keep_State_count)

theorem keep_execTrnParcelIncomplete {s0 : State} (src tag : Nat) (s : State) (hs : Keep s0 s) :
    KeepA s0 (execTrnParcelIncomplete src tag s) := by
  unfold execTrnParcelIncomplete
  try dsimp only
  repeat' first
    | (with_reducible
        first
          | assumption | intro _ | apply keepA_ite | apply keep_next | apply keep_State_incomplete)

theorem keep_execCodecDecodeStart {s0 : State} (src tag : Nat) (s : State) (hs : Keep s0 s) :
    KeepA s0 (execCodecDecodeStart src tag s) := by
  unfold execCodecDecodeStart
  try dsimp only
  repeat' first
    | (with_reducible
        first
          | assumption | intro _ | apply keepA_ite | apply keep_next | apply keep_State_abandonChecks
          | apply keep_State_setInPar | apply keep_ite | apply keep_ite1)
    | dsimp only | split

theorem keep_State_damaged {s0 : State} (s : State) (src tag reason block : Nat) (hs : Keep s0 s) :
    Keep s0 (State.damaged s src tag reason block) := by
  unfold State.damaged
  try dsimp only
  repeat' first
    | (with_reducible
        first
          | assumption | intro _ | apply keep_State_poisonInPar | apply keep_State_log | apply keep_State_count
          | apply keep_State_observe | apply keep_State_setInPar | apply keep_ite)

theorem keep_State_journalBlocks {s0 : State} (s : State) (o : OpenParcel) (dst : List (Nat × Piece)) (hs : Keep s0 s) :
    Keep s0 (State.journalBlocks s o dst) := by
  unfold State.journalBlocks
  try dsimp only
  repeat' first
    | (with_reducible
        first
          | assumption | intro _ | apply keep_State_journal | apply keep_foldl)

theorem keep_State_finishDecode {s0 : State} (s : State) (src tag : Nat) (hs : Keep s0 s) :
    Keep s0 (State.finishDecode s src tag) := by
  unfold State.finishDecode
  try dsimp only
  repeat' first
    | (with_reducible
        first
          | assumption | intro _ | apply keep_State_journalBlocks | apply keep_State_damaged | apply keep_State_view | apply keep_State_fetchPieces
          | apply keep_State_logLimited | apply keep_State_setInPar | apply keep_State_store
          | apply keep_State_newXfer | apply keep_State_advance | apply keep_State_spread | apply keep_State_endXfer
          | apply keep_State_log | apply keep_State_count | apply keep_ite | apply keep_ite1 | apply keep_foldl
          | apply keep_foldl1)
    | dsimp only | split

theorem keep_State_cparcelEnd {s0 : State} (s : State) (p : Pkt) (hs : Keep s0 s) :
    Keep s0 (State.cparcelEnd s p).1 := by
  unfold State.cparcelEnd
  try dsimp only
  repeat' first
    | (with_reducible
        first
          | assumption | intro _ | apply keep_State_lastPacket | apply keep_State_endRefused
          | apply keep_State_finishDecode | apply keep_State_closeInPar | apply keep_State_relay | apply keep_ite
          | apply keep_ite1)
    | dsimp only | split

theorem keep_State_perform {s0 : State} (s : State) (p : Pkt) (hs : Keep s0 s) :
    Keep s0 (State.perform s p).1 := by
  unfold State.perform
  try dsimp only
  repeat' first
    | (with_reducible
        first
          | assumption | intro _ | apply keep_State_performLoad | apply keep_State_performStore
          | apply keep_State_performStorem | apply keep_State_performPeal | apply keep_State_performAtomic
          | apply keep_State_performRed | apply keep_State_performFence | apply keep_State_performSound
          | apply keep_State_performArrive | apply keep_State_performTaint | apply keep_State_performRecord
          | apply keep_State_parcelPacket | apply keep_State_parcelEnd | apply keep_State_cparcelEnd
          | apply keep_State_answer | apply keep_ite | apply keep_ite1)

theorem keep_execFabPendingSend {s0 : State} (src tag : Nat) (s : State) (hs : Keep s0 s) :
    KeepA s0 (execFabPendingSend src tag s) := by
  unfold execFabPendingSend
  try dsimp only
  repeat' first
    | (with_reducible
        first
          | assumption | intro _ | apply keepA_ite | apply keep_next | apply keep_State_setInb
          | apply keep_State_count | apply keep_State_putOut | apply keep_ite | apply keep_ite1)
    | dsimp only | split

theorem keep_State_leaveIn {s0 : State} (s : State) (q : Inbound) (hs : Keep s0 s) :
    Keep s0 (State.leaveIn s q) := by
  unfold State.leaveIn
  try dsimp only
  repeat' first
    | (with_reducible
        first
          | assumption | intro _ | apply keep_State_dropFetch | apply keep_State_setFab)

theorem keep_execFabReqAbandoned {s0 : State} (src tag : Nat) (s : State) (hs : Keep s0 s) :
    KeepA s0 (execFabReqAbandoned src tag s) := by
  unfold execFabReqAbandoned
  try dsimp only
  repeat' first
    | (with_reducible
        first
          | assumption | intro _ | apply keepA_ite | apply keep_next | apply keep_State_store
          | apply keep_State_leaveIn | apply keep_State_log | apply keep_State_answer | apply keep_State_poisonInPar
          | apply keep_State_closeInPar | apply keep_State_setInPar | apply keep_ite | apply keep_ite1)
    | dsimp only | split

-- ===== Sys2Proof/Machine/Steps.lean =====

theorem keep_State_ctxAction {s0 : State} (s : State) (k n : Nat) (w : Word) (act : Nat) (g : Ctx → Ctx) (hs : Keep s0 s) :
    Keep s0 (State.ctxAction s k n w act g) := by
  unfold State.ctxAction
  try dsimp only
  repeat' first
    | (with_reducible
        first
          | assumption | intro _ | apply keep_State_setCtx | apply keep_ite)

theorem keep_execRetry {s0 : State} (k n : Nat) (w : Word) (s : State) (hs : Keep s0 s) :
    KeepA s0 (execRetry k n w s) := by
  unfold execRetry
  try dsimp only
  repeat' first
    | (with_reducible
        first
          | assumption | intro _ | apply keep_next | apply keep_State_ctxAction)

theorem keep_execSkip {s0 : State} (k n : Nat) (w : Word) (s : State) (hs : Keep s0 s) :
    KeepA s0 (execSkip k n w s) := by
  unfold execSkip
  try dsimp only
  repeat' first
    | (with_reducible
        first
          | assumption | intro _ | apply keep_next | apply keep_State_ctxAction)

theorem keep_execResumeAt {s0 : State} (k n : Nat) (w : Word) (s : State) (hs : Keep s0 s) :
    KeepA s0 (execResumeAt k n w s) := by
  unfold execResumeAt
  try dsimp only
  repeat' first
    | (with_reducible
        first
          | assumption | intro _ | apply keep_next | apply keep_State_ctxAction)

theorem keep_execHalt {s0 : State} (k n : Nat) (w : Word) (s : State) (hs : Keep s0 s) :
    KeepA s0 (execHalt k n w s) := by
  unfold execHalt
  try dsimp only
  repeat' first
    | (with_reducible
        first
          | assumption | intro _ | apply keep_next | apply keep_State_ctxAction)

theorem keep_State_lowerFloor {s0 : State} (s : State) (p f : Nat) (hs : Keep s0 s) :
    Keep s0 (State.lowerFloor s p f) := by
  unfold State.lowerFloor
  try dsimp only
  repeat' first
    | (with_reducible
        first
          | assumption | intro _ | apply keep_State_setPart | apply keep_State_setF)

theorem keep_State_extendD {s0 : State} (s : State) (p ns : Nat) (hs : Keep s0 s) :
    Keep s0 (State.extendD s p ns) := by
  unfold State.extendD
  try dsimp only
  repeat' first
    | (with_reducible
        first
          | assumption | intro _ | apply keep_State_setPart | apply keep_State_run | apply keep_State_setF)

theorem keep_execStepSubmit {s0 : State} (p : Nat) (w : Word) (s : State) (hs : Keep s0 s) :
    KeepA s0 (execStepSubmit p w s) := by
  unfold execStepSubmit
  try dsimp only
  repeat' first
    | (with_reducible
        first
          | assumption | intro _ | apply keepA_ite | apply keep_next | apply keep_State_log
          | apply keep_State_forward | apply keep_State_setF | apply keep_State_setPart)

theorem keep_State_stepEvent {s0 : State} (s : State) (p n phase : Nat) (hs : Keep s0 s) :
    Keep s0 (State.stepEvent s p n phase).1 := by
  unfold State.stepEvent
  try dsimp only
  repeat' first
    | (with_reducible
        first
          | assumption | intro _ | apply keep_State_slotGate | apply keep_State_setSlState
          | apply keep_State_putSlotW | apply keep_ite | apply keep_ite1)

theorem keep_State_validate {s0 : State} (s : State) (p list count : Nat) (hs : Keep s0 s) :
    Keep s0 (State.validate s p list count).1 := by
  unfold State.validate
  try dsimp only
  repeat' first
    | (with_reducible
        first
          | assumption | intro _ | apply keep_State_count | apply keep_State_hubRead | apply keep_State_stepEvent
          | apply keep_State_writeMem | apply keep_ite | apply keep_ite1 | apply keep_foldl | apply keep_foldl1)

theorem keep_State_writeSij {s0 : State} (s : State) (p n list count : Nat) (slots : List Nat) (replay : Bool) (hs : Keep s0 s) :
    Keep s0 (State.writeSij s p n list count slots replay) := by
  unfold State.writeSij
  try dsimp only
  repeat' first
    | (with_reducible
        first
          | assumption | intro _ | apply keep_State_count | apply keep_State_writeAll | apply keep_State_readMem
          | apply keep_State_setPart | apply keep_ite | apply keep_ite1 | apply keep_foldl | apply keep_foldl1)

theorem keep_State_clearFreed {s0 : State} (s : State) (p : Nat) (hs : Keep s0 s) :
    Keep s0 (State.clearFreed s p) := by
  unfold State.clearFreed
  try dsimp only
  repeat' first
    | (with_reducible
        first
          | assumption | intro _ | apply keep_State_setCancel | apply keep_State_setServe | apply keep_foldl)

theorem keep_State_latchLines {s0 : State} (s : State) (p : Nat) (hs : Keep s0 s) :
    Keep s0 (State.latchLines s p) := by
  unfold State.latchLines
  try dsimp only
  repeat' first
    | (with_reducible
        first
          | assumption | intro _ | apply keep_State_setPart | apply keep_State_setF | apply keep_State_setKit
          | apply keep_foldl)

theorem keep_State_sendStart {s0 : State} (s : State) (p n : Nat) (budget : BitVec 64) (applied skips : Nat) (replay : Bool) (hs : Keep s0 s) :
    Keep s0 (State.sendStart s p n budget applied skips replay) := by
  unfold State.sendStart
  try dsimp only
  repeat' first
    | (with_reducible
        first
          | assumption | intro _ | apply keep_State_setPart | apply keep_State_run | apply keep_State_setStep
          | apply keep_State_setF | apply keep_State_latchLines | apply keep_State_clearFreed
          | apply keep_State_setDrum | apply keep_ite | apply keep_ite1 | apply keep_foldl | apply keep_foldl1)
    | simp only [keep_mk]

theorem keep_State_startStep {s0 : State} (s : State) (p : Nat) (hs : Keep s0 s) :
    Keep s0 (State.startStep s p) := by
  unfold State.startStep
  try dsimp only
  repeat' first
    | (with_reducible
        first
          | assumption | intro _ | apply keep_State_count | apply keep_State_validate | apply keep_State_writeSij
          | apply keep_State_setRg | apply keep_State_setF | apply keep_State_setPart | apply keep_State_sendStart)
    | dsimp only | split

theorem keep_State_startList {s0 : State} (s : State) (k d : Nat) (hs : Keep s0 s) :
    Keep s0 (State.startList s k d) := by
  unfold State.startList
  try dsimp only
  repeat' first
    | (with_reducible
        first
          | assumption | intro _ | apply keep_State_setDrum | apply keep_State_count | apply keep_ite)

theorem keep_State_entryWords {s0 : State} (s : State) (k d : Nat) (hs : Keep s0 s) :
    Keep s0 (State.entryWords s k d).1 := by
  unfold State.entryWords
  try dsimp only
  repeat' first
    | (with_reducible
        first
          | assumption | intro _ | apply keep_State_readMem | apply keep_foldl | apply keep_foldl1)

theorem keep_State_latchDrum {s0 : State} (s : State) (k d : Nat) (hs : Keep s0 s) :
    Keep s0 (State.latchDrum s k d) := by
  unfold State.latchDrum
  try dsimp only
  repeat' first
    | (with_reducible
        first
          | assumption | intro _ | apply keep_State_setDrum | apply keep_State_log | apply keep_State_entryWords
          | apply keep_State_run | apply keep_State_setMallet | apply keep_State_faultRecord
          | apply keep_State_startList | apply keep_SrcWalk_run | apply keep_ite | apply keep_ite1 | apply keep_foldl)

theorem keep_execDrumDone {s0 : State} (k d : Nat) (s : State) (hs : Keep s0 s) :
    KeepA s0 (execDrumDone k d s) := by
  unfold execDrumDone
  try dsimp only
  repeat' first
    | (with_reducible
        first
          | assumption | intro _ | apply keepA_ite | apply keep_next | apply keep_State_flushMerge
          | apply keep_State_run | apply keep_State_setDrum | apply keep_State_setPart)

theorem keep_State_pairStepDone {s0 : State} (s : State) (p : Nat) (hs : Keep s0 s) :
    Keep s0 (State.pairStepDone s p) := by
  unfold State.pairStepDone
  try dsimp only
  repeat' first
    | (with_reducible
        first
          | assumption | intro _ | apply keep_State_run | apply keep_SrcWalk_run | apply keep_ite | apply keep_ite1)
    | simp only [keep_mk]

theorem keep_execStepDone {s0 : State} (p : Nat) (s : State) (hs : Keep s0 s) :
    KeepA s0 (execStepDone p s) := by
  unfold execStepDone
  try dsimp only
  repeat' first
    | (with_reducible
        first
          | assumption | intro _ | apply keepA_ite | apply keep_next | apply keep_State_run
          | apply keep_State_writeAll | apply keep_State_setStep | apply keep_State_setF
          | apply keep_State_pairStepDone)

theorem keep_execStepDeadlineMissed {s0 : State} (p : Nat) (s : State) (hs : Keep s0 s) :
    KeepA s0 (execStepDeadlineMissed p s) := by
  unfold execStepDeadlineMissed
  try dsimp only
  repeat' first
    | (with_reducible
        first
          | assumption | intro _ | apply keepA_ite | apply keep_next | apply keep_State_run | apply keep_State_setF
          | apply keep_State_setPart | apply keep_State_log)

theorem keep_State_stopAll {s0 : State} (s : State) (p : Nat) (hs : Keep s0 s) :
    Keep s0 (State.stopAll s p) := by
  unfold State.stopAll
  try dsimp only
  repeat' first
    | (with_reducible
        first
          | assumption | intro _ | apply keep_State_mapCtx | apply keep_State_flushMerge | apply keep_ite
          | apply keep_ite1 | apply keep_foldl)

theorem keep_State_queueDiag {s0 : State} (s : State) (key : Nat) (a b : Nat) (auto : Bool) (hs : Keep s0 s) :
    Keep s0 (State.queueDiag s key a b auto) := by
  unfold State.queueDiag
  try dsimp only
  repeat' first
    | (with_reducible
        first
          | assumption | intro _ | apply keep_State_fresh)
    | simp only [keep_mk]

theorem keep_State_forget {s0 : State} (s : State) (p : Pkt) (hs : Keep s0 s) :
    Keep s0 (State.forget s p) := by
  unfold State.forget
  try dsimp only
  repeat' first
    | (with_reducible
        first
          | assumption | intro _ | apply keep_State_setTag | apply keep_State_setCtx | apply keep_State_endXfer)
    | dsimp only | split

theorem keep_State_dropSegments {s0 : State} (s : State) (p : Nat) (hs : Keep s0 s) :
    Keep s0 (State.dropSegments s p) := by
  unfold State.dropSegments
  try dsimp only
  repeat' first
    | (with_reducible
        first
          | assumption | intro _ | apply keep_State_forget | apply keep_foldl | apply keep_foldl1)
    | simp only [keep_mk]

theorem keep_State_diverge {s0 : State} (s : State) (m : CompareMsg) (hs : Keep s0 s) :
    Keep s0 (State.diverge s m) := by
  unfold State.diverge
  try dsimp only
  repeat' first
    | (with_reducible
        first
          | assumption | intro _ | apply keep_State_log | apply keep_State_count | apply keep_State_setF
          | apply keep_State_stopAll | apply keep_State_setStep | apply keep_State_dropSegments
          | apply keep_State_queueDiag | apply keep_ite | apply keep_ite1 | apply keep_foldl | apply keep_foldl1)
    | simp only [keep_mk]

theorem keep_execStepWatchdog {s0 : State} (p : Nat) (s : State) (hs : Keep s0 s) :
    KeepA s0 (execStepWatchdog p s) := by
  unfold execStepWatchdog
  try dsimp only
  repeat' first
    | (with_reducible
        first
          | assumption | intro _ | apply keepA_ite | apply keep_next | apply keep_State_log
          | apply keep_State_stopAll | apply keep_State_setStep | apply keep_State_setF | apply keep_State_setPart
          | apply keep_State_run | apply keep_State_diverge | apply keep_SrcWalk_run | apply keep_ite
          | apply keep_ite1)
    | simp only [keep_mk]

theorem keep_State_pfEntry {s0 : State} (s : State) (k d : Nat) (hs : Keep s0 s) :
    Keep s0 (State.pfEntry s k d).1 := by
  unfold State.pfEntry
  try dsimp only
  repeat' first
    | (with_reducible
        first
          | assumption | intro _ | apply keep_State_readMem)

theorem keep_State_pfFault {s0 : State} (s : State) (k d code : Nat) (hs : Keep s0 s) :
    Keep s0 (State.pfFault s k d code) := by
  unfold State.pfFault
  try dsimp only
  repeat' first
    | (with_reducible
        first
          | assumption | intro _ | apply keep_State_setDrum | apply keep_State_log)

theorem keep_State_pfNext {s0 : State} (s : State) (k d : Nat) (hs : Keep s0 s) :
    Keep s0 (State.pfNext s k d) := by
  unfold State.pfNext
  try dsimp only
  repeat' first
    | (with_reducible
        first
          | assumption | intro _ | apply keep_State_setDrum)

theorem keep_State_pfRow {s0 : State} (s : State) (k d kind : Nat) (act : State → Nat → State) (hs : Keep s0 s) (hact : ∀ t x1, Keep s0 t → Keep s0 (act t x1)) :
    Keep s0 (State.pfRow s k d kind act) := by
  unfold State.pfRow
  try dsimp only
  repeat' first
    | (with_reducible
        first
          | assumption | intro _ | apply hact | apply keep_State_pfFault | apply keep_State_pfEntry | apply keep_ite)

theorem keep_State_pfIssue {s0 : State} (s : State) (k d v len : Nat) (dst : List (Nat × Piece)) (hs : Keep s0 s) :
    Keep s0 (State.pfIssue s k d v len dst) := by
  unfold State.pfIssue
  try dsimp only
  repeat' first
    | (with_reducible
        first
          | assumption | intro _ | apply keep_State_newXfer | apply keep_State_setDrum | apply keep_State_launch
          | apply keep_State_pfNext)

theorem keep_execPrefetchCopy {s0 : State} (k d : Nat) (s : State) (hs : Keep s0 s) :
    KeepA s0 (execPrefetchCopy k d s) := by
  unfold execPrefetchCopy
  try dsimp only
  repeat' first
    | (with_reducible
        first
          | assumption | intro _ | apply keepA_ite | apply keep_next | apply keep_State_pfRow
          | apply keep_State_pfFault | apply keep_State_pfIssue | apply keep_ite | apply keep_ite1)
    | dsimp only | split

theorem keep_execPrefetchScatter {s0 : State} (k d : Nat) (s : State) (hs : Keep s0 s) :
    KeepA s0 (execPrefetchScatter k d s) := by
  unfold execPrefetchScatter
  try dsimp only
  repeat' first
    | (with_reducible
        first
          | assumption | intro _ | apply keepA_ite | apply keep_next | apply keep_State_pfRow
          | apply keep_State_pfFault | apply keep_State_pfIssue | apply keep_ite | apply keep_ite1)
    | dsimp only | split

theorem keep_execPrefetchClear {s0 : State} (k d : Nat) (s : State) (hs : Keep s0 s) :
    KeepA s0 (execPrefetchClear k d s) := by
  unfold execPrefetchClear
  try dsimp only
  repeat' first
    | (with_reducible
        first
          | assumption | intro _ | apply keepA_ite | apply keep_next | apply keep_State_pfRow
          | apply keep_State_setDrum | apply keep_State_pfNext | apply keep_ite)

theorem keep_execPrefetchWaitw {s0 : State} (k d : Nat) (s : State) (hs : Keep s0 s) :
    KeepA s0 (execPrefetchWaitw k d s) := by
  unfold execPrefetchWaitw
  try dsimp only
  repeat' first
    | (with_reducible
        first
          | assumption | intro _ | apply keepA_ite | apply keep_next | apply keep_State_pfRow
          | apply keep_State_pfFault | apply keep_State_pfNext | apply keep_State_setDrum | apply keep_State_readMem
          | apply keep_State_advance | apply keep_State_newXfer | apply keep_State_launch | apply keep_State_endXfer
          | apply keep_ite | apply keep_ite1)
    | dsimp only | split

theorem keep_execPrefetchEnd {s0 : State} (k d : Nat) (s : State) (hs : Keep s0 s) :
    KeepA s0 (execPrefetchEnd k d s) := by
  unfold execPrefetchEnd
  try dsimp only
  repeat' first
    | (with_reducible
        first
          | assumption | intro _ | apply keep_next | apply keep_State_pfRow | apply keep_State_setDrum)

theorem keep_execPrefetchListStart {s0 : State} (k d : Nat) (s : State) (hs : Keep s0 s) :
    KeepA s0 (execPrefetchListStart k d s) := by
  unfold execPrefetchListStart
  try dsimp only
  repeat' first
    | (with_reducible
        first
          | assumption | intro _ | apply keepA_ite | apply keep_next | apply keep_State_setDrum)

theorem keep_State_finishPrefetch {s0 : State} (s : State) (x : Nat) (d : Data) (hs : Keep s0 s) :
    Keep s0 (State.finishPrefetch s x d) := by
  unfold State.finishPrefetch
  try dsimp only
  repeat' first
    | (with_reducible
        first
          | assumption | intro _ | apply keep_State_spread | apply keep_State_endXfer | apply keep_State_setDrum
          | apply keep_ite | apply keep_ite1)
    | dsimp only | split

theorem keep_execPrefetchTransferDone {s0 : State} (x : Nat) (s : State) (hs : Keep s0 s) :
    KeepA s0 (execPrefetchTransferDone x s) := by
  unfold execPrefetchTransferDone
  try dsimp only
  repeat' first
    | (with_reducible
        first
          | assumption | intro _ | apply keepA_ite | apply keep_next | apply keep_State_advance
          | apply keep_State_finishPrefetch | apply keep_ite | apply keep_ite1)
    | dsimp only | split

theorem keep_execLatePrefetch {s0 : State} (u : CtxId) (turns : Nat) (s : State) (hs : Keep s0 s) :
    KeepA s0 (execLatePrefetch u turns s) := by
  unfold execLatePrefetch
  try dsimp only
  repeat' first
    | (with_reducible
        first
          | assumption | intro _ | apply keepA_ite | apply keep_next | apply keep_State_setCtx
          | apply keep_State_setDrum | apply keep_State_count | apply keep_State_pushEv | apply keep_State_run
          | apply keep_SrcWalk_run | apply keep_ite | apply keep_ite1)
    | dsimp only | split

theorem keep_execCalibStart {s0 : State} (k d : Nat) (s : State) (hs : Keep s0 s) :
    KeepA s0 (execCalibStart k d s) := by
  unfold execCalibStart
  try dsimp only
  repeat' first
    | (with_reducible
        first
          | assumption | intro _ | apply keepA_ite | apply keep_next | apply keep_State_setDrum)

theorem keep_execCalibComplete {s0 : State} (k d ratio : Nat) (s : State) (hs : Keep s0 s) :
    KeepA s0 (execCalibComplete k d ratio s) := by
  unfold execCalibComplete
  try dsimp only
  repeat' first
    | (with_reducible
        first
          | assumption | intro _ | apply keepA_ite | apply keep_next | apply keep_State_setDrum
          | apply keep_State_setF | apply keep_State_setKit | apply keep_State_log | apply keep_State_observe
          | apply keep_ite)

theorem keep_execTempoCalibForced {s0 : State} (k d : Nat) (s : State) (hs : Keep s0 s) :
    KeepA s0 (execTempoCalibForced k d s) := by
  unfold execTempoCalibForced
  try dsimp only
  repeat' first
    | (with_reducible
        first
          | assumption | intro _ | apply keepA_ite | apply keep_next | apply keep_State_setDrum
          | apply keep_State_setKit | apply keep_State_extendD | apply keep_State_setF | apply keep_State_setPart
          | apply keep_State_run | apply keep_State_count | apply keep_State_log)

-- ===== Sys2Proof/Machine/PairOps.lean =====

theorem keep_State_setPair {s0 : State} (s : State) (f : Pair → Pair) (hs : Keep s0 s) :
    Keep s0 (State.setPair s f) := by
  unfold State.setPair
  try dsimp only
  repeat' first
    | (with_reducible
        first
          | assumption | intro _)
    | simp only [keep_mk]

theorem keep_State_releasePkt {s0 : State} (s : State) (p : Pkt) (hs : Keep s0 s) :
    Keep s0 (State.releasePkt s p) := by
  unfold State.releasePkt
  try dsimp only
  repeat' first
    | (with_reducible
        first
          | assumption | intro _ | apply keep_State_putOut | apply keep_State_selfAnswer | apply keep_ite)

theorem keep_State_releaseItem {s0 : State} (s : State) (h : Held) (hs : Keep s0 s) :
    Keep s0 (State.releaseItem s h) := by
  unfold State.releaseItem
  try dsimp only
  repeat' first
    | (with_reducible
        first
          | assumption | intro _ | apply keep_State_issue | apply keep_State_setPair | apply keep_State_setParcel
          | apply keep_State_noteRelease | apply keep_State_releasePkt | apply keep_ite | apply keep_ite1
          | apply keep_foldl | apply keep_foldl1)
    | dsimp only | split

theorem keep_State_tryRelease {s0 : State} (s : State) (h : Held) (hs : Keep s0 s) :
    Keep s0 (State.tryRelease s h) := by
  unfold State.tryRelease
  try dsimp only
  repeat' first
    | (with_reducible
        first
          | assumption | intro _ | apply keep_State_releaseItem | apply keep_ite)

theorem keep_State_journalHeld {s0 : State} (s : State) (h : Held) (hs : Keep s0 s) :
    Keep s0 (State.journalHeld s h) := by
  unfold State.journalHeld
  try dsimp only
  repeat' first
    | (with_reducible
        first
          | assumption | intro _ | apply keep_State_journal | apply keep_foldl)
    | dsimp only | split

theorem keep_State_releaseUnmatched {s0 : State} (s : State) (h : Held) (hs : Keep s0 s) :
    Keep s0 (State.releaseUnmatched s h) := by
  unfold State.releaseUnmatched
  split
  · exact keep_State_releaseItem _ _ (keep_State_journalHeld _ _ hs)
  · exact hs

theorem keep_State_releaseOpen {s0 : State} (s : State) (hs : Keep s0 s) :
    Keep s0 (State.releaseOpen s) := by
  unfold State.releaseOpen
  try dsimp only
  repeat' first
    | (with_reducible
        first
          | assumption | intro _ | apply keep_State_setPair | apply keep_State_releaseUnmatched | apply keep_foldl)

theorem keep_State_releaseFree {s0 : State} (s : State) (hs : Keep s0 s) :
    Keep s0 (State.releaseFree s) := by
  unfold State.releaseFree
  try dsimp only
  repeat' first
    | (with_reducible
        first
          | assumption | intro _ | apply keep_State_releaseOpen | apply keep_State_releaseUnmatched | apply keep_foldl)

theorem keep_State_pumpResend {s0 : State} (s : State) (hs : Keep s0 s) :
    Keep s0 (State.pumpResend s) := by
  unfold State.pumpResend
  try dsimp only
  repeat' first
    | (with_reducible
        first
          | assumption | intro _ | apply keep_State_issue | apply keep_State_setPair | apply keep_ite
          | apply keep_ite1 | apply keep_foldl)

theorem keep_State_cleanStep {s0 : State} (s : State) (h : Held) (t : Nat) (hs : Keep s0 s) :
    Keep s0 (State.cleanStep s h t) := by
  unfold State.cleanStep
  try dsimp only
  repeat' first
    | (with_reducible
        first
          | assumption | intro _ | apply keep_State_setF | apply keep_State_setPair | apply keep_State_count
          | apply keep_ite)

theorem keep_State_meet {s0 : State} (s : State) (q : CompareMsg × Nat) (hs : Keep s0 s) :
    Keep s0 (State.meet s q) := by
  unfold State.meet
  try dsimp only
  repeat' first
    | (with_reducible
        first
          | assumption | intro _ | apply keep_State_setPair | apply keep_State_diverge | apply keep_State_releaseItem
          | apply keep_State_cleanStep | apply keep_ite | apply keep_ite1)
    | dsimp only | split

theorem keep_State_settlePair {s0 : State} (s : State) (hs : Keep s0 s) :
    Keep s0 (State.settlePair s) := by
  unfold State.settlePair
  try dsimp only
  repeat' first
    | (with_reducible
        first
          | assumption | intro _ | apply keep_State_meet | apply keep_State_releaseFree | apply keep_State_pumpResend
          | apply keep_foldl)

theorem keep_State_setRole {s0 : State} (s : State) (r : Nat) (hs : Keep s0 s) :
    Keep s0 (State.setRole s r) := by
  unfold State.setRole
  try dsimp only
  repeat' first
    | (with_reducible
        first
          | assumption | intro _ | apply keep_State_setF)

theorem keep_State_stopParts {s0 : State} (s : State) (hs : Keep s0 s) :
    Keep s0 (State.stopParts s) := by
  unfold State.stopParts
  try dsimp only
  repeat' first
    | (with_reducible
        first
          | assumption | intro _ | apply keep_State_stopAll | apply keep_State_setStep | apply keep_ite
          | apply keep_ite1 | apply keep_foldl)

theorem keep_State_performRest {s0 : State} (s : State) (hs : Keep s0 s) :
    Keep s0 (State.performRest s) := by
  unfold State.performRest
  try dsimp only
  repeat' first
    | (with_reducible
        first
          | assumption | intro _ | apply keep_State_takeIn | apply keep_State_setPair | apply keep_foldl)

theorem keep_State_resendMatched {s0 : State} (s : State) (hs : Keep s0 s) :
    Keep s0 (State.resendMatched s) := by
  unfold State.resendMatched
  try dsimp only
  repeat' first
    | (with_reducible
        first
          | assumption | intro _ | apply keep_State_setPair)

theorem keep_State_takeOver {s0 : State} (s : State) (hs : Keep s0 s) :
    Keep s0 (State.takeOver s) := by
  unfold State.takeOver
  try dsimp only
  repeat' first
    | (with_reducible
        first
          | assumption | intro _ | apply keep_State_setRole | apply keep_State_setPair
          | apply keep_State_resendMatched | apply keep_State_releaseFree | apply keep_State_pumpResend
          | apply keep_State_performRest)

theorem keep_State_standDown {s0 : State} (s : State) (hs : Keep s0 s) :
    Keep s0 (State.standDown s) := by
  unfold State.standDown
  try dsimp only
  repeat' first
    | (with_reducible
        first
          | assumption | intro _ | apply keep_State_stopParts | apply keep_State_dropSegments
          | apply keep_State_tryRelease | apply keep_State_setRole | apply keep_State_setPair | apply keep_foldl)

theorem keep_State_probeDone {s0 : State} (s : State) (dead : Bool) (hs : Keep s0 s) :
    Keep s0 (State.probeDone s dead) := by
  unfold State.probeDone
  try dsimp only
  repeat' first
    | (with_reducible
        first
          | assumption | intro _ | apply keep_State_takeOver | apply keep_State_standDown | apply keep_State_log
          | apply keep_ite)

-- ===== Sys2Proof/Machine/FabAnswer.lean =====

theorem keep_State_setEgress {s0 : State} (s : State) (n : Nat) (f : Egress → Egress) (hs : Keep s0 s) :
    Keep s0 (State.setEgress s n f) := by
  unfold State.setEgress
  try dsimp only
  repeat' first
    | (with_reducible
        first
          | assumption | intro _ | apply keep_State_setFab)

theorem keep_State_pumpFences {s0 : State} (s : State) (n : Nat) (hs : Keep s0 s) :
    Keep s0 (State.pumpFences s n) := by
  unfold State.pumpFences
  try dsimp only
  repeat' first
    | (with_reducible
        first
          | assumption | intro _ | apply keep_State_setTag | apply keep_State_setEgress | apply keep_State_selfAnswer
          | apply keep_State_putOut | apply keep_ite | apply keep_ite1 | apply keep_foldl | apply keep_foldl1)
    | dsimp only | split

theorem keep_State_changePort {s0 : State} (s : State) (n q : Nat) (hs : Keep s0 s) :
    Keep s0 (State.changePort s n q) := by
  unfold State.changePort
  try dsimp only
  repeat' first
    | (with_reducible
        first
          | assumption | intro _ | apply keep_State_setF | apply keep_State_count | apply keep_State_setEgress
          | apply keep_State_pumpFences | apply keep_ite)

theorem keep_State_holdEgress {s0 : State} (s : State) (n : Nat) (hs : Keep s0 s) :
    Keep s0 (State.holdEgress s n) := by
  unfold State.holdEgress
  try dsimp only
  repeat' first
    | (with_reducible
        first
          | assumption | intro _ | apply keep_State_setF | apply keep_State_setEgress)

theorem keep_State_routeDown {s0 : State} (s : State) (n : Nat) (hs : Keep s0 s) :
    Keep s0 (State.routeDown s n) := by
  unfold State.routeDown
  try dsimp only
  repeat' first
    | (with_reducible
        first
          | assumption | intro _ | apply keep_State_changePort | apply keep_State_holdEgress | apply keep_State_setF
          | apply keep_State_setEgress)
    | dsimp only | split

theorem keep_State_routeWrite {s0 : State} (s : State) (n : Nat) (hs : Keep s0 s) :
    Keep s0 (State.routeWrite s n) := by
  unfold State.routeWrite
  try dsimp only
  repeat' first
    | (with_reducible
        first
          | assumption | intro _ | apply keep_State_changePort | apply keep_State_setF | apply keep_State_setEgress
          | apply keep_State_holdEgress | apply keep_ite)

theorem keep_State_egressWritten {s0 : State} (s : State) (n : Nat) (hs : Keep s0 s) :
    Keep s0 (State.egressWritten s n) := by
  unfold State.egressWritten
  try dsimp only
  repeat' first
    | (with_reducible
        first
          | assumption | intro _ | apply keep_State_setEgress | apply keep_State_routeWrite | apply keep_ite)

theorem keep_State_learn {s0 : State} (s : State) (n p : Nat) (hs : Keep s0 s) :
    Keep s0 (State.learn s n p) := by
  unfold State.learn
  try dsimp only
  repeat' first
    | (with_reducible
        first
          | assumption | intro _ | apply keep_State_changePort | apply keep_State_holdEgress
          | apply keep_State_setEgress | apply keep_State_setF | apply keep_ite)

theorem keep_execEgressHoldoffEnd {s0 : State} (n : Nat) (s : State) (hs : Keep s0 s) :
    KeepA s0 (execEgressHoldoffEnd n s) := by
  unfold execEgressHoldoffEnd
  try dsimp only
  repeat' first
    | (with_reducible
        first
          | assumption | intro _ | apply keepA_ite | apply keep_next | apply keep_State_setEgress
          | apply keep_State_routeWrite | apply keep_State_routeDown | apply keep_State_changePort
          | apply keep_State_setF | apply keep_State_log | apply keep_ite)

theorem keep_State_setLink {s0 : State} (s : State) (i : Nat) (f : Link → Link) (hs : Keep s0 s) :
    Keep s0 (State.setLink s i f) := by
  unfold State.setLink
  try dsimp only
  repeat' first
    | (with_reducible
        first
          | assumption | intro _ | apply keep_State_setFab)

theorem keep_State_pairLinks {s0 : State} (s : State) (hs : Keep s0 s) :
    Keep s0 (State.pairLinks s) := by
  unfold State.pairLinks
  try dsimp only
  repeat' first
    | (with_reducible
        first
          | assumption | intro _ | apply keep_State_setF)

theorem keep_State_takeDown {s0 : State} (s : State) (i cause : Nat) (hs : Keep s0 s) :
    Keep s0 (State.takeDown s i cause) := by
  unfold State.takeDown
  try dsimp only
  repeat' first
    | (with_reducible
        first
          | assumption | intro _ | apply keep_State_setF | apply keep_State_cause | apply keep_State_count
          | apply keep_State_setFab | apply keep_State_pairLinks | apply keep_State_log | apply keep_State_setEgress
          | apply keep_State_routeDown | apply keep_State_incomplete | apply keep_State_setParcel
          | apply keep_State_setTrn | apply keep_ite | apply keep_ite1 | apply keep_foldl)

theorem keep_execLinkDown {s0 : State} (link cause : Nat) (s : State) (hs : Keep s0 s) :
    KeepA s0 (execLinkDown link cause s) := by
  unfold execLinkDown
  try dsimp only
  repeat' first
    | (with_reducible
        first
          | assumption | intro _ | apply keepA_ite | apply keep_next | apply keep_State_cause
          | apply keep_State_takeDown)

theorem keep_State_linkTrained {s0 : State} (s : State) (link width : Nat) (hs : Keep s0 s) :
    Keep s0 (State.linkTrained s link width) := by
  unfold State.linkTrained
  try dsimp only
  repeat' first
    | (with_reducible
        first
          | assumption | intro _ | apply keep_State_setF | apply keep_State_count | apply keep_State_setFab
          | apply keep_State_pairLinks | apply keep_State_changePort | apply keep_State_holdEgress | apply keep_ite
          | apply keep_ite1 | apply keep_foldl)

theorem keep_execLinkTrained {s0 : State} (link width : Nat) (s : State) (hs : Keep s0 s) :
    KeepA s0 (execLinkTrained link width s) := by
  unfold execLinkTrained
  try dsimp only
  repeat' first
    | (with_reducible
        first
          | assumption | intro _ | apply keepA_ite | apply keep_next | apply keep_State_linkTrained | apply keep_ite)

theorem keep_execFrameReceive {s0 : State} (link f corrected : Nat) (bad : Bool) (s : State) (hs : Keep s0 s) :
    KeepA s0 (execFrameReceive link f corrected bad s) := by
  unfold execFrameReceive
  try dsimp only
  repeat' first
    | (with_reducible
        first
          | assumption | intro _ | apply keepA_ite | apply keep_next | apply keep_State_count
          | apply keep_State_setLink | apply keep_State_sendCtl | apply keep_State_takeDown | apply keep_ite)

theorem keep_execFrameControl {s0 : State} (link : Nat) (c : ControlFrame) (s : State) (hs : Keep s0 s) :
    KeepA s0 (execFrameControl link c s) := by
  unfold execFrameControl
  try dsimp only
  repeat' first
    | (with_reducible
        first
          | assumption | intro _ | apply keepA_ite | apply keep_next | apply keep_State_count
          | apply keep_State_setLink | apply keep_State_accept | apply keep_State_takeDown | apply keep_ite
          | apply keep_ite1)
    | dsimp only | split

theorem keep_State_landEnding {s0 : State} (s : State) (x o n : Nat) (e : Ending) (hs : Keep s0 s) :
    Keep s0 (State.landEnding s x o n e) := by
  unfold State.landEnding
  try dsimp only
  repeat' first
    | (with_reducible
        first
          | assumption | intro _ | apply keep_State_landed | apply keep_State_onward | apply keep_ite)

theorem keep_State_unpost {s0 : State} (s : State) (u : Nat) (hs : Keep s0 s) :
    Keep s0 (State.unpost s u) := by
  unfold State.unpost
  try dsimp only
  repeat' first
    | (with_reducible
        first
          | assumption | intro _ | apply keep_State_setCtx)

theorem keep_State_proxyDone {s0 : State} (s : State) (g : Tag) (src key : Nat) (e : Ending) (size : Nat) (hs : Keep s0 s) :
    Keep s0 (State.proxyDone s g src key e size) := by
  unfold State.proxyDone
  try dsimp only
  repeat' first
    | (with_reducible
        first
          | assumption | intro _ | apply keep_State_setInb)

theorem keep_State_loseXfer {s0 : State} (s : State) (x cause : Nat) (hs : Keep s0 s) :
    Keep s0 (State.loseXfer s x cause) := by
  unfold State.loseXfer
  try dsimp only
  repeat' first
    | (with_reducible
        first
          | assumption | intro _ | apply keep_State_log | apply keep_State_cause | apply keep_State_finishAsync
          | apply keep_State_finishPrefetch | apply keep_State_fresh | apply keep_State_kvAppend
          | apply keep_State_flagDown | apply keep_State_endXfer)
    | dsimp only | split

theorem keep_State_endRequest {s0 : State} (s : State) (g : Tag) (e : Ending) (last : Bool) (size n : Nat) (hs : Keep s0 s) :
    Keep s0 (State.endRequest s g e last size n) := by
  unfold State.endRequest
  try dsimp only
  repeat' first
    | (with_reducible
        first
          | assumption | intro _ | apply keep_State_loseXfer | apply keep_State_landEnding | apply keep_State_setXfer
          | apply keep_State_unitOutDone | apply keep_State_unpost | apply keep_State_poisonRow
          | apply keep_State_setEgress | apply keep_State_pumpArrive | apply keep_State_taint
          | apply keep_State_setParcel | apply keep_State_observe | apply keep_State_respDone
          | apply keep_State_noticeDone | apply keep_State_cmplDone | apply keep_State_proxyDone
          | apply keep_State_probeDone | apply keep_ite | apply keep_ite1)
    | simp only [keep_mk]
    | dsimp only | split

theorem keep_State_logRefused {s0 : State} (s : State) (g : Tag) (n status : Nat) (hs : Keep s0 s) :
    Keep s0 (State.logRefused s g n status) := by
  unfold State.logRefused
  try dsimp only
  repeat' first
    | (with_reducible
        first
          | assumption | intro _ | apply keep_State_log | apply keep_State_taint | apply keep_State_logLimited
          | apply keep_ite | apply keep_ite1)
    | dsimp only | split

theorem keep_State_forwardOld {s0 : State} (s : State) (g : Tag) (p : Pkt) (hs : Keep s0 s) :
    Keep s0 (State.forwardOld s g p) := by
  unfold State.forwardOld
  try dsimp only
  repeat' first
    | (with_reducible
        first
          | assumption | intro _ | apply keep_State_putOut | apply keep_ite)

theorem keep_State_creditRsp {s0 : State} (s : State) (p : Pkt) (hs : Keep s0 s) :
    Keep s0 (State.creditRsp s p) := by
  unfold State.creditRsp
  try dsimp only
  repeat' first
    | (with_reducible
        first
          | assumption | intro _ | apply keep_State_setLink | apply keep_ite)

theorem keep_State_rspIn {s0 : State} (s : State) (p : Pkt) (hs : Keep s0 s) :
    Keep s0 (State.rspIn s p) := by
  unfold State.rspIn
  try dsimp only
  repeat' first
    | (with_reducible
        first
          | assumption | intro _ | apply keep_State_creditRsp | apply keep_State_learn | apply keep_State_setTag
          | apply keep_State_count | apply keep_State_chargeIn | apply keep_State_forwardOld
          | apply keep_State_logRefused | apply keep_State_endRequest | apply keep_ite | apply keep_ite1)
    | dsimp only | split

theorem keep_State_pendingIn {s0 : State} (s : State) (p : Pkt) (hs : Keep s0 s) :
    Keep s0 (State.pendingIn s p) := by
  unfold State.pendingIn
  try dsimp only
  repeat' first
    | (with_reducible
        first
          | assumption | intro _ | apply keep_State_creditRsp | apply keep_State_setTag | apply keep_ite
          | apply keep_ite1)
    | dsimp only | split

theorem keep_execFabRsp {s0 : State} (p : Pkt) (s : State) (hs : Keep s0 s) :
    KeepA s0 (execFabRsp p s) := by
  unfold execFabRsp
  try dsimp only
  repeat' first
    | (with_reducible
        first
          | assumption | intro _ | apply keepA_ite | apply keep_next | apply keep_State_rspIn | apply keep_ite)

theorem keep_execFabPending {s0 : State} (p : Pkt) (s : State) (hs : Keep s0 s) :
    KeepA s0 (execFabPending p s) := by
  unfold execFabPending
  try dsimp only
  repeat' first
    | (with_reducible
        first
          | assumption | intro _ | apply keepA_ite | apply keep_next | apply keep_State_pendingIn | apply keep_ite)

theorem keep_execFabTargetDead {s0 : State} (node tag : Nat) (s : State) (hs : Keep s0 s) :
    KeepA s0 (execFabTargetDead node tag s) := by
  unfold execFabTargetDead
  try dsimp only
  repeat' first
    | (with_reducible
        first
          | assumption | intro _ | apply keepA_ite | apply keep_next | apply keep_State_killTag
          | apply keep_State_endRequest)

theorem keep_State_settleDead {s0 : State} (s : State) (hs : Keep s0 s) :
    Keep s0 (State.settleDead s) := by
  unfold State.settleDead
  try dsimp only
  repeat' first
    | (with_reducible
        first
          | assumption | intro _ | apply keep_State_endRequest | apply keep_State_setFab | apply keep_foldl)

theorem keep_execFabTagRelease {s0 : State} (node tag : Nat) (s : State) (hs : Keep s0 s) :
    KeepA s0 (execFabTagRelease node tag s) := by
  unfold execFabTagRelease
  try dsimp only
  repeat' first
    | (with_reducible
        first
          | assumption | intro _ | apply keepA_ite | apply keep_next | apply keep_State_setTag)

theorem keep_State_finishLoad {s0 : State} (s : State) (u : CtxId) (word : Nat) (t : FirstTurn) (d : Data) (hs : Keep s0 s) :
    Keep s0 (State.finishLoad s u word t d) := by
  unfold State.finishLoad
  try dsimp only
  repeat' first
    | (with_reducible
        first
          | assumption | intro _ | apply keep_State_finishTld | apply keep_State_finishScld
          | apply keep_State_finishSld | apply keep_State_finishAld | apply keep_State_finishTopk
          | apply keep_State_finishTga | apply keep_State_finishAtom | apply keep_State_finishTrig
          | apply keep_State_done | apply keep_ite)

theorem keep_execLoadDataReturn {s0 : State} (u : CtxId) (s : State) (hs : Keep s0 s) :
    KeepA s0 (execLoadDataReturn u s) := by
  unfold execLoadDataReturn
  try dsimp only
  repeat' first
    | (with_reducible
        first
          | assumption | intro _ | apply keepA_ite | apply keep_next | apply keep_State_load
          | apply keep_State_advance | apply keep_State_endXfer | apply keep_State_setCtx
          | apply keep_State_finishLoad | apply keep_ite | apply keep_ite1)
    | dsimp only | split

theorem keep_execAsyncComplete {s0 : State} (x : Nat) (s : State) (hs : Keep s0 s) :
    KeepA s0 (execAsyncComplete x s) := by
  unfold execAsyncComplete
  try dsimp only
  repeat' first
    | (with_reducible
        first
          | assumption | intro _ | apply keepA_ite | apply keep_next | apply keep_State_advance
          | apply keep_State_finishAsync | apply keep_State_askAppend | apply keep_State_kvAppend
          | apply keep_State_flagDown | apply keep_State_endXfer | apply keep_ite | apply keep_ite1)
    | dsimp only | split

-- ===== Sys2Proof/Machine/LiveSet.lean =====

theorem keep_State_liveList {s0 : State} (s : State) (p : Nat) (hs : Keep s0 s) :
    Keep s0 (State.liveList s p).1 := by
  unfold State.liveList
  try dsimp only
  repeat' first
    | (with_reducible
        first
          | assumption | intro _ | apply keep_State_hubRead | apply keep_ite | apply keep_ite1)

theorem keep_State_resetRegs {s0 : State} (s : State) (k d : Nat) (hs : Keep s0 s) :
    Keep s0 (State.resetRegs s k d) := by
  unfold State.resetRegs
  try dsimp only
  repeat' first
    | (with_reducible
        first
          | assumption | intro _)
    | simp only [keep_mk]

theorem keep_State_zeroDrum {s0 : State} (s : State) (k d : Nat) (hs : Keep s0 s) :
    Keep s0 (State.zeroDrum s k d) := by
  unfold State.zeroDrum
  try dsimp only
  repeat' first
    | (with_reducible
        first
          | assumption | intro _ | apply keep_State_zeroRange)

theorem keep_State_writeImage {s0 : State} (s : State) (p k : Nat) (g : KitImage) (hs : Keep s0 s) :
    Keep s0 (State.writeImage s p k g) := by
  unfold State.writeImage
  try dsimp only
  repeat' first
    | (with_reducible
        first
          | assumption | intro _ | apply keep_State_writeAll | apply keep_State_readMem | apply keep_foldl
          | apply keep_foldl1)
    | simp only [keep_mk]

theorem keep_State_imageOk {s0 : State} (s : State) (p k : Nat) (g : KitImage) (hs : Keep s0 s) :
    Keep s0 (State.imageOk s p k g).1 := by
  unfold State.imageOk
  try dsimp only
  repeat' first
    | (with_reducible
        first
          | assumption | intro _ | apply keep_State_readMem | apply keep_foldl | apply keep_foldl1)

theorem keep_State_loadImage {s0 : State} (s : State) (p k : Nat) (g : KitImage) (hs : Keep s0 s) :
    Keep s0 (State.loadImage s p k g) := by
  unfold State.loadImage
  try dsimp only
  repeat' first
    | (with_reducible
        first
          | assumption | intro _ | apply keep_State_setDrum | apply keep_State_resetRegs | apply keep_State_setRg
          | apply keep_State_zeroDrum | apply keep_State_setF | apply keep_State_setKit | apply keep_State_readMem
          | apply keep_State_setMallet | apply keep_State_writeAll | apply keep_foldl | apply keep_foldl1)

end Sys2Proof.Machine
end

