-- ==== Sys2Proof/Laws/KeepUnits.lean ====
section
/-!
SUPPORT. Sys2Proof/Laws/KeepUnits.lean: what the operations of retirement, pre-emption, checks, the pair and the event log keep.
-/
namespace Sys2Proof.Machine

open Sys2Proof (CtxId Fields Upsets ParityErrs)

-- ===== Sys2Proof/Machine/Rings.lean =====

theorem keep_State_setRingHead {s0 : State} (s : State) (r n : Nat) (hs : Keep s0 s) :
    Keep s0 (State.setRingHead s r n) := by
  unfold State.setRingHead
  try dsimp only
  repeat' first
    | (with_reducible
        first
          | assumption | intro _ | apply keep_State_setRg)

theorem keep_execRingConfigWrite {s0 : State} (i off : Nat) (w : Word) (s : State) (hs : Keep s0 s) :
    KeepA s0 (execRingConfigWrite i off w s) := by
  unfold execRingConfigWrite
  try dsimp only
  repeat' first
    | (with_reducible
        first
          | assumption | intro _ | apply keepA_ite | apply keep_next | apply keep_State_forward
          | apply keep_State_log | apply keep_State_setRg | apply keep_State_setRingHead | apply keep_ite
          | apply keep_ite1)
    | dsimp only | split

theorem keep_execRingDoorbell {s0 : State} (i off : Nat) (w : Word) (s : State) (hs : Keep s0 s) :
    KeepA s0 (execRingDoorbell i off w s) := by
  unfold execRingDoorbell
  try dsimp only
  repeat' first
    | (with_reducible
        first
          | assumption | intro _ | apply keepA_ite | apply keep_next | apply keep_State_forward
          | apply keep_State_log | apply keep_State_setRg | apply keep_ite | apply keep_ite1)
    | dsimp only | split

theorem keep_State_ringTake {s0 : State} (s : State) (r : Nat) (hs : Keep s0 s) :
    Keep s0 (State.ringTake s r) := by
  unfold State.ringTake
  try dsimp only
  repeat' first
    | (with_reducible
        first
          | assumption | intro _ | apply keep_State_setRingHead)

theorem keep_State_setJob {s0 : State} (s : State) (r : Nat) (j : RingJob) (hs : Keep s0 s) :
    Keep s0 (State.setJob s r j) := by
  unfold State.setJob
  try dsimp only
  repeat' first
    | (with_reducible
        first
          | assumption | intro _)
    | simp only [keep_mk]

theorem keep_State_beginJob {s0 : State} (s : State) (r : Nat) (hs : Keep s0 s) :
    Keep s0 (State.beginJob s r) := by
  unfold State.beginJob
  try dsimp only
  repeat' first
    | (with_reducible
        first
          | assumption | intro _ | apply keep_State_setJob)

theorem keep_State_useSnap {s0 : State} (s : State) (r g : Nat) (own : Bool) (hs : Keep s0 s) :
    Keep s0 (State.useSnap s r g own) := by
  unfold State.useSnap
  try dsimp only
  repeat' first
    | (with_reducible
        first
          | assumption | intro _ | apply keep_State_setJob)

theorem keep_State_jobOut {s0 : State} (s : State) (r : Nat) (hs : Keep s0 s) :
    Keep s0 (State.jobOut s r) := by
  unfold State.jobOut
  try dsimp only
  repeat' first
    | (with_reducible
        first
          | assumption | intro _ | apply keep_State_setJob)

theorem keep_State_endJob {s0 : State} (s : State) (r : Nat) (hold : Bool) (drop : State → Nat → State) (hs : Keep s0 s) (hdrop : ∀ t x1, Keep s0 t → Keep s0 (drop t x1)) :
    Keep s0 (State.endJob s r hold drop) := by
  unfold State.endJob
  try dsimp only
  repeat' first
    | (with_reducible
        first
          | assumption | intro _ | apply hdrop | apply keep_State_setJob | apply keep_ite)

theorem keep_State_ringFront {s0 : State} (s : State) (r : Nat) (hs : Keep s0 s) :
    Keep s0 (State.ringFront s r).1 := by
  unfold State.ringFront
  try dsimp only
  repeat' first
    | (with_reducible
        first
          | assumption | intro _ | apply keep_State_hubRead | apply keep_State_log | apply keep_State_ringTake
          | apply keep_State_setJob | apply keep_ite | apply keep_ite1)

-- ===== Sys2Proof/Machine/Search.lean =====

theorem keep_State_srcRefresh {s0 : State} (s : State) (i : Nat) (hs : Keep s0 s) :
    Keep s0 (State.srcRefresh s i) := by
  unfold State.srcRefresh
  try dsimp only
  repeat' first
    | (with_reducible
        first
          | assumption | intro _ | apply keep_State_setF)

theorem keep_State_srcReg {s0 : State} (s : State) (i g : Nat) (up : Bool) (hs : Keep s0 s) :
    Keep s0 (State.srcReg s i g up) := by
  unfold State.srcReg
  try dsimp only
  repeat' first
    | (with_reducible
        first
          | assumption | intro _ | apply keep_State_setF | apply keep_State_srcRefresh)

theorem keep_State_sqSettle {s0 : State} (s : State) (i : Nat) (hs : Keep s0 s) :
    Keep s0 (State.sqSettle s i) := by
  unfold State.sqSettle
  try dsimp only
  repeat' first
    | (with_reducible
        first
          | assumption | intro _ | apply keep_State_endJob | apply keep_State_srcReg)

theorem keep_execSrcIndexWrite {s0 : State} (i off : Nat) (w : Word) (s : State) (hs : Keep s0 s) :
    KeepA s0 (execSrcIndexWrite i off w s) := by
  unfold execSrcIndexWrite
  try dsimp only
  repeat' first
    | (with_reducible
        first
          | assumption | intro _ | apply keepA_ite | apply keep_next | apply keep_State_log | apply keep_State_setRg
          | apply keep_State_setF | apply keep_ite | apply keep_ite1)
    | dsimp only | split

theorem keep_State_srcRead {s0 : State} (s : State) (i a n : Nat) (hs : Keep s0 s) :
    Keep s0 (State.srcRead s i a n).1 := by
  unfold State.srcRead
  try dsimp only
  repeat' first
    | (with_reducible
        first
          | assumption | intro _ | apply keep_State_presentFor | apply keep_State_hubRead)

theorem keep_State_srcWrite {s0 : State} (s : State) (i a n : Nat) (d : Data) (hs : Keep s0 s) :
    Keep s0 (State.srcWrite s i a n d) := by
  unfold State.srcWrite
  try dsimp only
  repeat' first
    | (with_reducible
        first
          | assumption | intro _ | apply keep_State_presentFor | apply keep_State_writeAll)

theorem keep_State_sqComplete {s0 : State} (s : State) (i v code low : Nat) (st : SrcStat) (out : List (Nat × Nat)) (hs : Keep s0 s) :
    Keep s0 (State.sqComplete s i v code low st out) := by
  unfold State.sqComplete
  try dsimp only
  repeat' first
    | (with_reducible
        first
          | assumption | intro _ | apply keep_State_wordOf | apply keep_State_dropFetch | apply keep_State_jobOut
          | apply keep_State_unitResult)

theorem keep_State_sqRow {s0 : State} (s : State) (i op : Nat) (act : State → Nat → State) (hs : Keep s0 s) (hact : ∀ t x1, Keep s0 t → Keep s0 (act t x1)) :
    Keep s0 (State.sqRow s i op act) := by
  unfold State.sqRow
  try dsimp only
  repeat' first
    | (with_reducible
        first
          | assumption | intro _ | apply hact | apply keep_State_sqSettle | apply keep_State_ringFront
          | apply keep_State_sqComplete | apply keep_State_beginJob | apply keep_ite | apply keep_ite1)
    | dsimp only | split

theorem keep_State_srcTable {s0 : State} (s : State) (i : Nat) (q : Nat) (hs : Keep s0 s) :
    Keep s0 (State.srcTable s i q).1 := by
  unfold State.srcTable
  try dsimp only
  repeat' first
    | (with_reducible
        first
          | assumption | intro _ | apply keep_State_srcRead | apply keep_ite | apply keep_ite1 | apply keep_foldl
          | apply keep_foldl1)

theorem keep_SrcWalk_offer {s0 : State} (k : SrcWalk) (i : Nat) (tab : Nat → Nat) (w v : Nat) (hs : Keep s0 k.s) :
    Keep s0 (SrcWalk.offer k i tab w v).s := by
  unfold SrcWalk.offer
  dsimp only
  split
  · exact hs
  · split
    · exact keep_State_srcRead _ _ _ _ hs
    · exact keep_State_srcRead _ _ _ _ hs

theorem keep_State_listAt {s0 : State} (s : State) (i v g : Nat) (hs : Keep s0 s) :
    Keep s0 (State.listAt s i v g).1 := by
  unfold State.listAt
  try dsimp only
  repeat' first
    | (with_reducible
        first
          | assumption | intro _ | apply keep_State_srcRead | apply keep_ite | apply keep_ite1)

theorem keep_offers {s0 : State} (es : List Nat) (k : SrcWalk) (f : SrcWalk → Nat → SrcWalk)
    (hf : ∀ k n, Keep s0 k.s → Keep s0 (f k n).s) (hs : Keep s0 k.s) : Keep s0 (es.foldl f k).s := by
  induction es generalizing k with
  | nil => exact hs
  | cons e es ih => exact ih _ (hf _ _ hs)

theorem keep_SrcWalk_run {s0 : State} (k : SrcWalk) (i : Nat) (tab : Nat → Nat) (w g n : Nat) (hs : Keep s0 k.s) :
    Keep s0 (SrcWalk.run k i tab w g n).s := by
  induction n generalizing k with
  | zero => exact hs
  | succ n ih =>
    unfold SrcWalk.run
    split
    · exact hs
    · next v l e =>
      refine ih _ ?_
      have h := keep_State_listAt k.s i v g hs
      dsimp only
      split
      · exact h
      · refine keep_offers _ _ _ (fun k n hk => ?_) h
        split
        · exact hk
        · exact keep_SrcWalk_offer _ _ _ _ _ hk

theorem keep_State_srcReturn {s0 : State} (s : State) (i v q : Nat) (k : SrcWalk) (hs : Keep s0 k.s) :
    Keep s0 (State.srcReturn s i v q k).1 := by
  unfold State.srcReturn
  try dsimp only
  repeat' first
    | (with_reducible
        first
          | assumption | intro _ | apply keep_State_srcRead | apply keep_foldl1 | apply keep_ite1)

theorem keep_execSrcSearch {s0 : State} (i : Nat) (s : State) (hs : Keep s0 s) :
    KeepA s0 (execSrcSearch i s) := by
  unfold execSrcSearch
  try dsimp only
  repeat' first
    | (with_reducible
        first
          | assumption | intro _ | apply keepA_ite | apply keep_next | apply keep_State_sqRow
          | apply keep_State_wordOf | apply keep_State_sqComplete | apply keep_State_srcReg | apply keep_State_count
          | apply keep_State_useSnap | apply keep_State_fetchVia | apply keep_State_srcTable | apply keep_State_run
          | apply keep_State_fetchPieces | apply keep_State_srcReturn | apply keep_State_log | apply keep_SrcWalk_run
          | apply keep_SrcWalk_offer | apply keep_SrcWalk_run | apply keep_SrcWalk_offer | apply keep_ite
          | apply keep_ite1)
    | dsimp only | split

theorem keep_State_srcHeader {s0 : State} (s : State) (i v : Nat) (hs : Keep s0 s) :
    Keep s0 (State.srcHeader s i v).1 := by
  unfold State.srcHeader
  try dsimp only
  repeat' first
    | (with_reducible
        first
          | assumption | intro _ | apply keep_State_srcRead)

theorem keep_State_putHeader {s0 : State} (s : State) (i v word w : Nat) (hs : Keep s0 s) :
    Keep s0 (State.putHeader s i v word w) := by
  unfold State.putHeader
  try dsimp only
  repeat' first
    | (with_reducible
        first
          | assumption | intro _ | apply keep_State_srcWrite)

theorem keep_State_putList {s0 : State} (s : State) (i l : Nat) (d : Data) (hs : Keep s0 s) :
    Keep s0 (State.putList s i l d) := by
  unfold State.putList
  try dsimp only
  repeat' first
    | (with_reducible
        first
          | assumption | intro _ | apply keep_State_srcWrite)

theorem keep_State_putBack {s0 : State} (s : State) (i l x : Nat) (hs : Keep s0 s) :
    Keep s0 (State.putBack s i l x) := by
  unfold State.putBack
  try dsimp only
  repeat' first
    | (with_reducible
        first
          | assumption | intro _ | apply keep_State_srcWrite)

theorem keep_execSrcInsert {s0 : State} (i : Nat) (s : State) (hs : Keep s0 s) :
    KeepA s0 (execSrcInsert i s) := by
  unfold execSrcInsert
  try dsimp only
  repeat' first
    | (with_reducible
        first
          | assumption | intro _ | apply keepA_ite | apply keep_next | apply keep_State_sqRow
          | apply keep_State_srcHeader | apply keep_State_sqComplete | apply keep_State_fetchStart
          | apply keep_State_wordOf | apply keep_State_fetchVia | apply keep_State_srcWrite
          | apply keep_State_putList | apply keep_State_putBack | apply keep_State_putHeader | apply keep_ite)

theorem keep_execSrcSetlist {s0 : State} (i : Nat) (s : State) (hs : Keep s0 s) :
    KeepA s0 (execSrcSetlist i s) := by
  unfold execSrcSetlist
  try dsimp only
  repeat' first
    | (with_reducible
        first
          | assumption | intro _ | apply keepA_ite | apply keep_next | apply keep_State_sqRow
          | apply keep_State_srcHeader | apply keep_State_sqComplete | apply keep_State_fetchVia
          | apply keep_State_wordOf | apply keep_State_putList | apply keep_State_putBack
          | apply keep_State_putHeader | apply keep_ite | apply keep_ite1)
    | dsimp only | split

theorem keep_execSrcDelete {s0 : State} (i : Nat) (s : State) (hs : Keep s0 s) :
    KeepA s0 (execSrcDelete i s) := by
  unfold execSrcDelete
  try dsimp only
  repeat' first
    | (with_reducible
        first
          | assumption | intro _ | apply keepA_ite | apply keep_next | apply keep_State_sqRow
          | apply keep_State_srcHeader | apply keep_State_sqComplete | apply keep_State_putHeader | apply keep_ite)

theorem keep_execSrcCommit {s0 : State} (i : Nat) (s : State) (hs : Keep s0 s) :
    KeepA s0 (execSrcCommit i s) := by
  unfold execSrcCommit
  try dsimp only
  repeat' first
    | (with_reducible
        first
          | assumption | intro _ | apply keepA_ite | apply keep_next | apply keep_State_sqRow
          | apply keep_State_sqComplete | apply keep_State_setF | apply keep_State_srcRefresh | apply keep_ite)

theorem keep_execSrcRelease {s0 : State} (i : Nat) (s : State) (hs : Keep s0 s) :
    KeepA s0 (execSrcRelease i s) := by
  unfold execSrcRelease
  try dsimp only
  repeat' first
    | (with_reducible
        first
          | assumption | intro _ | apply keepA_ite | apply keep_next | apply keep_State_sqRow
          | apply keep_State_wordOf | apply keep_State_sqComplete | apply keep_State_srcReg | apply keep_ite)

theorem keep_State_settleOne {s0 : State} (s : State) (i v : Nat) (hs : Keep s0 s) :
    Keep s0 (State.settleOne s i v) := by
  unfold State.settleOne
  try dsimp only
  repeat' first
    | (with_reducible
        first
          | assumption | intro _ | apply keep_State_srcHeader | apply keep_State_putHeader | apply keep_ite)

theorem keep_execSrcSettle {s0 : State} (i : Nat) (s : State) (hs : Keep s0 s) :
    KeepA s0 (execSrcSettle i s) := by
  unfold execSrcSettle
  try dsimp only
  repeat' first
    | (with_reducible
        first
          | assumption | intro _ | apply keepA_ite | apply keep_next | apply keep_State_settleOne | apply keep_ite
          | apply keep_ite1 | apply keep_foldl)

-- ===== Sys2Proof/Machine/Charges.lean =====

theorem keep_State_setUsed {s0 : State} (s : State) (hs : Keep s0 s) :
    Keep s0 (State.setUsed s) := by
  unfold State.setUsed
  try dsimp only
  repeat' first
    | (with_reducible
        first
          | assumption | intro _ | apply keep_State_setF | apply keep_foldl | apply keep_foldl1)
    | dsimp only | split

-- ===== Sys2Proof/Machine/Retire.lean =====

theorem keep_State_taint {s0 : State} (s : State) (unit : Option Nat) (suspectFrom : Nat) (writers : List Nat) (hs : Keep s0 s) :
    Keep s0 (State.taint s unit suspectFrom writers) := by
  unfold State.taint
  try dsimp only
  repeat' first
    | (with_reducible
        first
          | assumption | intro _ | apply keep_State_touch | apply keep_State_poisonRange | apply keep_State_count
          | apply keep_State_taintRange | apply keep_State_log | apply keep_State_pumpTaint | apply keep_ite
          | apply keep_ite1 | apply keep_foldl | apply keep_foldl1)
    | dsimp only | split

theorem keep_State_dropObs {s0 : State} (s : State) (pick : Nat → Bool) (hs : Keep s0 s) :
    Keep s0 (State.dropObs s pick) := by
  unfold State.dropObs
  try dsimp only
  repeat' first
    | (with_reducible
        first
          | assumption | intro _ | apply keep_State_setRg | apply keep_ite | apply keep_ite1 | apply keep_foldl)

theorem keep_State_scheckAnswer {s0 : State} (s : State) (c code referee : Nat) (hs : Keep s0 s) :
    Keep s0 (State.scheckAnswer s c code referee) := by
  unfold State.scheckAnswer
  try dsimp only
  repeat' first
    | (with_reducible
        first
          | assumption | intro _ | apply keep_State_setF)

theorem keep_State_loseChecks {s0 : State} (s : State) (pick : Nat → Bool) (hs : Keep s0 s) :
    Keep s0 (State.loseChecks s pick) := by
  unfold State.loseChecks
  try dsimp only
  repeat' first
    | (with_reducible
        first
          | assumption | intro _ | apply keep_State_scheckAnswer | apply keep_State_log | apply keep_State_setInteg
          | apply keep_ite | apply keep_ite1 | apply keep_foldl)

theorem keep_State_disown {s0 : State} (s : State) (x : Nat) (hs : Keep s0 s) :
    Keep s0 (State.disown s x) := by
  unfold State.disown
  try dsimp only
  repeat' first
    | (with_reducible
        first
          | assumption | intro _ | apply keep_ite | apply keep_ite1)
    | simp only [keep_mk]

theorem keep_State_loseAny {s0 : State} (s : State) (x cause : Nat) (hs : Keep s0 s) :
    Keep s0 (State.loseAny s x cause) := by
  unfold State.loseAny
  try dsimp only
  repeat' first
    | (with_reducible
        first
          | assumption | intro _ | apply keep_State_disown | apply keep_State_log | apply keep_State_cause
          | apply keep_State_load | apply keep_State_endXfer | apply keep_State_setCtx | apply keep_State_finishLoad
          | apply keep_State_setKit | apply keep_State_poisonRow | apply keep_State_flagDown
          | apply keep_State_setXfer | apply keep_State_loseXfer | apply keep_ite | apply keep_ite1)
    | dsimp only | split

theorem keep_State_loseParcel {s0 : State} (s : State) (x : Nat) (hs : Keep s0 s) :
    Keep s0 (State.loseParcel s x) := by
  unfold State.loseParcel
  try dsimp only
  repeat' first
    | (with_reducible
        first
          | assumption | intro _ | apply keep_State_poisonPieces | apply keep_State_log | apply keep_State_setTrn
          | apply keep_State_setParcel | apply keep_ite | apply keep_ite1)
    | dsimp only | split

theorem keep_State_voidTag {s0 : State} (s : State) (key : Nat) (hs : Keep s0 s) :
    Keep s0 (State.voidTag s key) := by
  unfold State.voidTag
  try dsimp only
  repeat' first
    | (with_reducible
        first
          | assumption | intro _)
    | simp only [keep_mk]

theorem keep_State_loseRequests {s0 : State} (s : State) (k cause : Nat) (lost : Nat → Bool) (hs : Keep s0 s) :
    Keep s0 (State.loseRequests s k cause lost) := by
  unfold State.loseRequests
  try dsimp only
  repeat' first
    | (with_reducible
        first
          | assumption | intro _ | apply keep_State_loseAny | apply keep_State_cause | apply keep_State_voidTag
          | apply keep_State_unpost | apply keep_State_fresh | apply keep_State_log | apply keep_State_poisonRow
          | apply keep_ite | apply keep_ite1 | apply keep_foldl | apply keep_foldl1)
    | dsimp only | split

theorem keep_State_loseRecords {s0 : State} (s : State) (lost : Nat → RouteRec → Bool) (hs : Keep s0 s) :
    Keep s0 (State.loseRecords s lost) := by
  unfold State.loseRecords
  try dsimp only
  repeat' first
    | (with_reducible
        first
          | assumption | intro _ | apply keep_State_poisonRow | apply keep_State_setKit | apply keep_foldl)

theorem keep_State_loseCrossing {s0 : State} (s : State) (cause : Nat) (crosses : Nat → Piece → Bool) (hs : Keep s0 s) :
    Keep s0 (State.loseCrossing s cause crosses) := by
  unfold State.loseCrossing
  try dsimp only
  repeat' first
    | (with_reducible
        first
          | assumption | intro _ | apply keep_State_loseParcel | apply keep_State_loseAny | apply keep_State_cause
          | apply keep_foldl)

theorem keep_State_setStage {s0 : State} (s : State) (n : Nat) (hs : Keep s0 s) :
    Keep s0 (State.setStage s n) := by
  unfold State.setStage
  try dsimp only
  repeat' first
    | (with_reducible
        first
          | assumption | intro _ | apply keep_State_setF)

theorem keep_State_checkService {s0 : State} (s : State) (hs : Keep s0 s) :
    Keep s0 (State.checkService s) := by
  unfold State.checkService
  try dsimp only
  repeat' first
    | (with_reducible
        first
          | assumption | intro _ | apply keep_State_log | apply keep_State_stopAll | apply keep_State_setStage
          | apply keep_State_setF | apply keep_State_cause | apply keep_ite | apply keep_ite1 | apply keep_foldl
          | apply keep_foldl1)
    | simp only [keep_mk]

theorem keep_State_cfgJournal {s0 : State} (s : State) (kind slot epoch : Nat) (img : SMap (BitVec 64)) (hs : Keep s0 s) :
    Keep s0 (State.cfgJournal s kind slot epoch img) := by
  unfold State.cfgJournal
  try dsimp only
  repeat' first
    | (with_reducible
        first
          | assumption | intro _ | apply keep_State_journal | apply keep_State_writeAll)
    | simp only [keep_mk]

theorem keep_State_editEpochs {s0 : State} (s : State) (k : Nat) (hs : Keep s0 s) :
    Keep s0 (State.editEpochs s k) := by
  unfold State.editEpochs
  try dsimp only
  repeat' first
    | (with_reducible
        first
          | assumption | intro _ | apply keep_State_log | apply keep_State_cfgJournal | apply keep_State_setF
          | apply keep_ite | apply keep_ite1 | apply keep_foldl | apply keep_foldl1)
    | simp only [keep_mk]

theorem keep_State_loseHbm {s0 : State} (s : State) (k : Nat) (hs : Keep s0 s) :
    Keep s0 (State.loseHbm s k) := by
  unfold State.loseHbm
  try dsimp only
  repeat' first
    | (with_reducible
        first
          | assumption | intro _ | apply keep_State_setF | apply keep_State_log | apply keep_State_setInteg
          | apply keep_State_journal | apply keep_ite | apply keep_ite1 | apply keep_foldl)

theorem keep_State_stopKit {s0 : State} (s : State) (k : Nat) (hs : Keep s0 s) :
    Keep s0 (State.stopKit s k) := by
  unfold State.stopKit
  try dsimp only
  repeat' first
    | (with_reducible
        first
          | assumption | intro _ | apply keep_State_mapCtx | apply keep_State_flushMerge | apply keep_State_setDrum
          | apply keep_ite | apply keep_ite1 | apply keep_foldl)

theorem keep_State_retireKit {s0 : State} (s : State) (k : Nat) (hs : Keep s0 s) :
    Keep s0 (State.retireKit s k) := by
  unfold State.retireKit
  try dsimp only
  repeat' first
    | (with_reducible
        first
          | assumption | intro _ | apply keep_State_stopKit | apply keep_State_setF | apply keep_State_setKit
          | apply keep_State_editEpochs | apply keep_State_loseCrossing | apply keep_State_loseRequests
          | apply keep_State_loseRecords | apply keep_State_poisonRow | apply keep_State_loseHbm
          | apply keep_State_dropObs | apply keep_State_loseChecks | apply keep_State_setUsed | apply keep_State_log
          | apply keep_State_taint | apply keep_State_checkService | apply keep_ite | apply keep_ite1
          | apply keep_foldl | apply keep_foldl1)
    | simp only [keep_mk]
    | dsimp only | split

theorem keep_State_finishDrum {s0 : State} (s : State) (k d : Nat) (hs : Keep s0 s) :
    Keep s0 (State.finishDrum s k d) := by
  unfold State.finishDrum
  try dsimp only
  repeat' first
    | (with_reducible
        first
          | assumption | intro _ | apply keep_State_setKit | apply keep_State_setDrum | apply keep_State_resetRegs
          | apply keep_State_loseChecks | apply keep_State_log | apply keep_State_taint)
    | simp only [keep_mk]

theorem keep_State_applyDrums {s0 : State} (s : State) (k : Nat) (hs : Keep s0 s) :
    Keep s0 (State.applyDrums s k) := by
  unfold State.applyDrums
  try dsimp only
  repeat' first
    | (with_reducible
        first
          | assumption | intro _ | apply keep_State_setKit | apply keep_State_finishDrum | apply keep_State_retireKit
          | apply keep_State_setDrum | apply keep_ite | apply keep_ite1 | apply keep_foldl | apply keep_foldl1)
    | dsimp only | split

theorem keep_State_applySegs {s0 : State} (s : State) (k : Nat) (hs : Keep s0 s) :
    Keep s0 (State.applySegs s k).1 := by
  unfold State.applySegs
  try dsimp only
  repeat' first
    | (with_reducible
        first
          | assumption | intro _ | apply keep_State_retireKit | apply keep_State_setKit | apply keep_State_loseChecks
          | apply keep_State_log | apply keep_State_taint | apply keep_ite | apply keep_ite1 | apply keep_foldl
          | apply keep_foldl1)
    | simp only [keep_mk]

theorem keep_State_applyDue {s0 : State} (s : State) (k : Nat) (hs : Keep s0 s) :
    Keep s0 (State.applyDue s k) := by
  unfold State.applyDue
  try dsimp only
  repeat' first
    | (with_reducible
        first
          | assumption | intro _ | apply keep_State_applyDrums | apply keep_State_applySegs)

theorem keep_State_applyIdle {s0 : State} (s : State) (k : Nat) (hs : Keep s0 s) :
    Keep s0 (State.applyIdle s k) := by
  unfold State.applyIdle
  try dsimp only
  repeat' first
    | (with_reducible
        first
          | assumption | intro _ | apply keep_State_applyDue | apply keep_ite)

theorem keep_State_retireCodec {s0 : State} (s : State) (c : Nat) (hs : Keep s0 s) :
    Keep s0 (State.retireCodec s c) := by
  unfold State.retireCodec
  try dsimp only
  repeat' first
    | (with_reducible
        first
          | assumption | intro _ | apply keep_State_setInteg | apply keep_State_setTrn | apply keep_State_loseChecks
          | apply keep_State_log | apply keep_State_taint)
    | simp only [keep_mk]

theorem keep_State_failBridge {s0 : State} (s : State) (k b : Nat) (hs : Keep s0 s) :
    Keep s0 (State.failBridge s k b) := by
  unfold State.failBridge
  try dsimp only
  repeat' first
    | (with_reducible
        first
          | assumption | intro _ | apply keep_State_setKit | apply keep_State_log | apply keep_State_loseCrossing
          | apply keep_State_loseRequests | apply keep_State_loseRecords | apply keep_State_retireKit
          | apply keep_ite)

theorem keep_State_confirm {s0 : State} (s : State) (unit : Nat) (hs : Keep s0 s) :
    Keep s0 (State.confirm s unit) := by
  unfold State.confirm
  try dsimp only
  repeat' first
    | (with_reducible
        first
          | assumption | intro _ | apply keep_State_log | apply keep_State_count | apply keep_State_dropObs
          | apply keep_State_setKit | apply keep_State_applyIdle | apply keep_State_retireCodec
          | apply keep_State_failBridge | apply keep_ite | apply keep_ite1)
    | dsimp only | split

theorem keep_State_rebindList {s0 : State} (s : State) (p : Nat) (hs : Keep s0 s) :
    Keep s0 (State.rebindList s p).1 := by
  unfold State.rebindList
  try dsimp only
  repeat' first
    | (with_reducible
        first
          | assumption | intro _ | apply keep_State_liveList | apply keep_ite | apply keep_ite1)

theorem keep_State_rebindCopy {s0 : State} (s : State) (k n : Nat) (l : Option (List LiveEntry)) (hs : Keep s0 s) :
    Keep s0 (State.rebindCopy s k n l) := by
  unfold State.rebindCopy
  try dsimp only
  repeat' first
    | (with_reducible
        first
          | assumption | intro _ | apply keep_State_setDrum | apply keep_State_setRg | apply keep_State_setMallet
          | apply keep_State_resetRegs | apply keep_State_zeroDrum | apply keep_State_readMem
          | apply keep_State_writeAll | apply keep_foldl)

theorem keep_State_finishRebind {s0 : State} (s : State) (k n : Nat) (hs : Keep s0 s) :
    Keep s0 (State.finishRebind s k n) := by
  unfold State.finishRebind
  try dsimp only
  repeat' first
    | (with_reducible
        first
          | assumption | intro _ | apply keep_State_rebindList | apply keep_State_rebindCopy
          | apply keep_State_setDrum | apply keep_State_finishDrum | apply keep_ite)

theorem keep_execDrumRebindDone {s0 : State} (k n : Nat) (s : State) (hs : Keep s0 s) :
    KeepA s0 (execDrumRebindDone k n s) := by
  unfold execDrumRebindDone
  try dsimp only
  repeat' first
    | (with_reducible
        first
          | assumption | intro _ | apply keepA_ite | apply keep_next | apply keep_State_finishRebind
          | apply keep_State_latchDrum | apply keep_ite)

theorem keep_execBridgeLinkFail {s0 : State} (k b : Nat) (s : State) (hs : Keep s0 s) :
    KeepA s0 (execBridgeLinkFail k b s) := by
  unfold execBridgeLinkFail
  try dsimp only
  repeat' first
    | (with_reducible
        first
          | assumption | intro _ | apply keep_next | apply keep_State_failBridge)

-- ===== Sys2Proof/Machine/EventLog.lean =====

theorem keep_State_leaves {s0 : State} (s : State) (seq : Nat) (hs : Keep s0 s) :
    Keep s0 (State.leaves s seq) := by
  unfold State.leaves
  try dsimp only
  repeat' first
    | (with_reducible
        first
          | assumption | intro _ | apply keep_State_count | apply keep_ite)

theorem keep_State_spillWrite {s0 : State} (s : State) (seq v : Nat) (hs : Keep s0 s) :
    Keep s0 (State.spillWrite s seq v) := by
  unfold State.spillWrite
  try dsimp only
  repeat' first
    | (with_reducible
        first
          | assumption | intro _ | apply keep_State_writeAll | apply keep_State_leaves | apply keep_State_setRg
          | apply keep_ite)

theorem keep_State_bankWrite {s0 : State} (s : State) (seq v : Nat) (hs : Keep s0 s) :
    Keep s0 (State.bankWrite s seq v) := by
  unfold State.bankWrite
  try dsimp only
  repeat' first
    | (with_reducible
        first
          | assumption | intro _ | apply keep_State_writeAll | apply keep_State_leaves | apply keep_State_count
          | apply keep_State_setRg | apply keep_ite | apply keep_ite1 | apply keep_foldl)

theorem keep_State_evtAttn {s0 : State} (s : State) (seq : Nat) (hs : Keep s0 s) :
    Keep s0 (State.evtAttn s seq) := by
  unfold State.evtAttn
  try dsimp only
  repeat' first
    | (with_reducible
        first
          | assumption | intro _ | apply keep_State_setF | apply keep_State_cause | apply keep_ite)

theorem keep_State_acceptEv {s0 : State} (s : State) (r : EvRec) (drops : Bool) (hs : Keep s0 s) :
    Keep s0 (State.acceptEv s r drops) := by
  unfold State.acceptEv
  try dsimp only
  repeat' first
    | (with_reducible
        first
          | assumption | intro _ | apply keep_State_count | apply keep_State_spillWrite | apply keep_State_bankWrite
          | apply keep_State_setRg | apply keep_State_evtAttn | apply keep_ite | apply keep_ite1 | apply keep_foldl)

theorem keep_execEventAccept {s0 : State} (src : Nat) (s : State) (hs : Keep s0 s) :
    KeepA s0 (execEventAccept src s) := by
  unfold execEventAccept
  try dsimp only
  repeat' first
    | (with_reducible
        first
          | assumption | intro _ | apply keepA_ite | apply keep_next | apply keep_State_acceptEv | apply keep_ite
          | apply keep_ite1)
    | simp only [keep_mk]
    | dsimp only | split

theorem keep_State_heldAt {s0 : State} (s : State) (a seq : Nat) (hs : Keep s0 s) :
    Keep s0 (State.heldAt s a seq).1 := by
  unfold State.heldAt
  try dsimp only
  repeat' first
    | (with_reducible
        first
          | assumption | intro _ | apply keep_State_readMem | apply keep_ite | apply keep_ite1)

theorem keep_State_fromBanks {s0 : State} (s : State) (seq : Nat) (hs : Keep s0 s) :
    Keep s0 (State.fromBanks s seq).1 := by
  unfold State.fromBanks
  try dsimp only
  repeat' first
    | (with_reducible
        first
          | assumption | intro _ | apply keep_State_heldAt | apply keep_ite | apply keep_ite1 | apply keep_foldl
          | apply keep_foldl1)

theorem keep_execEventSpill {s0 : State} (s : State) (hs : Keep s0 s) :
    KeepA s0 (execEventSpill s) := by
  unfold execEventSpill
  try dsimp only
  repeat' first
    | (with_reducible
        first
          | assumption | intro _ | apply keepA_ite | apply keep_next | apply keep_State_fromBanks
          | apply keep_State_readMem | apply keep_State_writeAll | apply keep_State_leaves | apply keep_State_setRg
          | apply keep_ite | apply keep_ite1)
    | dsimp only | split

theorem keep_execEvtWindowLatch {s0 : State} (_i : Nat) (s : State) (hs : Keep s0 s) :
    KeepA s0 (execEvtWindowLatch _i s) := by
  unfold execEvtWindowLatch
  try dsimp only
  repeat' first
    | (with_reducible
        first
          | assumption | intro _ | apply keepA_ite | apply keep_next | apply keep_State_fromBanks
          | apply keep_State_heldAt | apply keep_State_setRg | apply keep_State_setF | apply keep_State_setB
          | apply keep_ite | apply keep_ite1 | apply keep_foldl | apply keep_foldl1)
    | simp only [keep_mk]
    | dsimp only | split

theorem keep_State_loseBank {s0 : State} (s : State) (b cause : Nat) (hs : Keep s0 s) :
    Keep s0 (State.loseBank s b cause) := by
  unfold State.loseBank
  try dsimp only
  repeat' first
    | (with_reducible
        first
          | assumption | intro _ | apply keep_State_setF | apply keep_State_log | apply keep_State_cause
          | apply keep_State_count | apply keep_State_setRg | apply keep_State_checkService | apply keep_ite)

theorem keep_execLogBankLost {s0 : State} (bank cause : Nat) (s : State) (hs : Keep s0 s) :
    KeepA s0 (execLogBankLost bank cause s) := by
  unfold execLogBankLost
  try dsimp only
  repeat' first
    | (with_reducible
        first
          | assumption | intro _ | apply keepA_ite | apply keep_next | apply keep_State_cause
          | apply keep_State_loseBank)

-- ===== Sys2Proof/Machine/HostOps.lean =====

theorem keep_State_setHost {s0 : State} (s : State) (f : HostPort → HostPort) (hs : Keep s0 s) :
    Keep s0 (State.setHost s f) := by
  unfold State.setHost
  try dsimp only
  repeat' first
    | (with_reducible
        first
          | assumption | intro _)
    | simp only [keep_mk]

theorem keep_State_dropCompl {s0 : State} (s : State) (c : HostCompl) (hs : Keep s0 s) :
    Keep s0 (State.dropCompl s c) := by
  unfold State.dropCompl
  try dsimp only
  repeat' first
    | (with_reducible
        first
          | assumption | intro _ | apply keep_State_setHost | apply keep_State_respDone | apply keep_ite)

theorem keep_State_stopQueue {s0 : State} (s : State) (q : Nat) (hs : Keep s0 s) :
    Keep s0 (State.stopQueue s q) := by
  unfold State.stopQueue
  try dsimp only
  repeat' first
    | (with_reducible
        first
          | assumption | intro _ | apply keep_State_setHost | apply keep_State_dropCompl | apply keep_foldl)

theorem keep_State_portReset {s0 : State} (s : State) (hs : Keep s0 s) :
    Keep s0 (State.portReset s) := by
  unfold State.portReset
  try dsimp only
  repeat' first
    | (with_reducible
        first
          | assumption | intro _ | apply keep_State_stopQueue | apply keep_State_setHost | apply keep_foldl
          | apply keep_foldl1)
    | simp only [keep_mk]

theorem keep_execHostPerst {s0 : State} (s : State) (hs : Keep s0 s) :
    KeepA s0 (execHostPerst s) := by
  unfold execHostPerst
  try dsimp only
  repeat' first
    | (with_reducible
        first
          | assumption | intro _ | apply keep_next | apply keep_State_portReset | apply keep_State_log)

theorem keep_execHostLinkDown {s0 : State} (s : State) (hs : Keep s0 s) :
    KeepA s0 (execHostLinkDown s) := by
  unfold execHostLinkDown
  try dsimp only
  repeat' first
    | (with_reducible
        first
          | assumption | intro _ | apply keepA_ite | apply keep_next | apply keep_State_portReset
          | apply keep_State_log)

theorem keep_execHostPortTrained {s0 : State} (s : State) (hs : Keep s0 s) :
    KeepA s0 (execHostPortTrained s) := by
  unfold execHostPortTrained
  try dsimp only
  repeat' first
    | (with_reducible
        first
          | assumption | intro _ | apply keepA_ite | apply keep_next | apply keep_State_setHost)

-- ===== Sys2Proof/Machine/Preempt.lean =====

theorem keep_State_abandonDrum {s0 : State} (s : State) (k d : Nat) (hs : Keep s0 s) :
    Keep s0 (State.abandonDrum s k d) := by
  unfold State.abandonDrum
  try dsimp only
  repeat' first
    | (with_reducible
        first
          | assumption | intro _ | apply keep_State_setInteg)

theorem keep_State_beginWith {s0 : State} (s : State) (p : Nat) (start : State → State) (hs : Keep s0 s) (hstart : ∀ t, Keep s0 t → Keep s0 (start t)) :
    Keep s0 (State.beginWith s p start) := by
  unfold State.beginWith
  try dsimp only
  repeat' first
    | (with_reducible
        first
          | assumption | intro _ | apply hstart | apply keep_State_applyDrums | apply keep_State_applySegs
          | apply keep_State_extendD | apply keep_ite | apply keep_ite1 | apply keep_foldl | apply keep_foldl1)

theorem keep_State_beginStep {s0 : State} (s : State) (p : Nat) (hs : Keep s0 s) :
    Keep s0 (State.beginStep s p) := by
  unfold State.beginStep
  try dsimp only
  repeat' first
    | (with_reducible
        first
          | assumption | intro _ | apply keep_State_beginWith | apply keep_State_startStep)

theorem keep_State_setPhase {s0 : State} (s : State) (p n : Nat) (hs : Keep s0 s) :
    Keep s0 (State.setPhase s p n) := by
  unfold State.setPhase
  try dsimp only
  repeat' first
    | (with_reducible
        first
          | assumption | intro _ | apply keep_State_setF)

theorem keep_State_setPre {s0 : State} (s : State) (p : Nat) (f : Preempt → Preempt) (hs : Keep s0 s) :
    Keep s0 (State.setPre s p f) := by
  unfold State.setPre
  try dsimp only
  repeat' first
    | (with_reducible
        first
          | assumption | intro _ | apply keep_State_setPart)

theorem keep_State_evalSave {s0 : State} (s : State) (p : Nat) (mid : Bool) (hs : Keep s0 s) :
    Keep s0 (State.evalSave s p mid).1 := by
  unfold State.evalSave
  try dsimp only
  repeat' first
    | (with_reducible
        first
          | assumption | intro _ | apply keep_State_liveList | apply keep_ite | apply keep_ite1 | apply keep_foldl
          | apply keep_foldl1)
    | dsimp only | split

theorem keep_State_preAnswer {s0 : State} (s : State) (c code bytes : Nat) (hs : Keep s0 s) :
    Keep s0 (State.preAnswer s c code bytes) := by
  unfold State.preAnswer
  try dsimp only
  repeat' first
    | (with_reducible
        first
          | assumption | intro _ | apply keep_State_setF)

theorem keep_State_preCommand {s0 : State} (s : State) (c : Nat) (w : Word) (act : State → Nat → State × Nat × Nat) (hs : Keep s0 s) (hact : ∀ t x1, Keep s0 t → Keep s0 (act t x1).1) :
    Keep s0 (State.preCommand s c w act) := by
  unfold State.preCommand
  try dsimp only
  repeat' first
    | (with_reducible
        first
          | assumption | intro _ | apply hact | apply keep_State_log | apply keep_State_preAnswer | apply keep_ite)

theorem keep_State_preRow {s0 : State} (s : State) (op c : Nat) (w : Word) (act : State → Nat → State × Nat × Nat) (hs : Keep s0 s) (hact : ∀ t x1, Keep s0 t → Keep s0 (act t x1).1) :
    Keep s0 (State.preRow s op c w act) := by
  unfold State.preRow
  try dsimp only
  repeat' first
    | (with_reducible
        first
          | assumption | intro _ | apply hact | apply keep_State_forward | apply keep_State_preCommand
          | apply keep_ite)

theorem keep_State_haltKit {s0 : State} (s : State) (k : Nat) (hs : Keep s0 s) :
    Keep s0 (State.haltKit s k) := by
  unfold State.haltKit
  try dsimp only
  repeat' first
    | (with_reducible
        first
          | assumption | intro _ | apply keep_State_abandonXfer | apply keep_State_mapCtx
          | apply keep_State_flushMerge | apply keep_State_setDrum | apply keep_foldl | apply keep_foldl1)
    | dsimp only | split

theorem keep_State_enterSaving {s0 : State} (s : State) (p : Nat) (mid : Bool) (bytes : Nat) (hs : Keep s0 s) :
    Keep s0 (State.enterSaving s p mid bytes) := by
  unfold State.enterSaving
  try dsimp only
  repeat' first
    | (with_reducible
        first
          | assumption | intro _ | apply keep_State_setStep | apply keep_State_setPhase | apply keep_State_setF
          | apply keep_State_haltKit | apply keep_State_suspendEntries | apply keep_State_setPre | apply keep_foldl)

theorem keep_execPreemptSave {s0 : State} (c : Nat) (w : Word) (s : State) (hs : Keep s0 s) :
    KeepA s0 (execPreemptSave c w s) := by
  unfold execPreemptSave
  try dsimp only
  repeat' first
    | (with_reducible
        first
          | assumption | intro _ | apply keepA_ite | apply keep_next | apply keep_State_preRow
          | apply keep_State_evalSave | apply keep_State_setPhase | apply keep_State_setF | apply keep_State_setPre
          | apply keep_State_enterSaving | apply keep_ite | apply keep_ite1)

theorem keep_State_settleBoundary {s0 : State} (s : State) (p : Nat) (hs : Keep s0 s) :
    Keep s0 (State.settleBoundary s p) := by
  unfold State.settleBoundary
  try dsimp only
  repeat' first
    | (with_reducible
        first
          | assumption | intro _ | apply keep_State_setPre | apply keep_State_evalSave | apply keep_State_enterSaving
          | apply keep_State_setPhase | apply keep_State_log | apply keep_ite)

theorem keep_execStepStart {s0 : State} (p : Nat) (s : State) (hs : Keep s0 s) :
    KeepA s0 (execStepStart p s) := by
  unfold execStepStart
  try dsimp only
  repeat' first
    | (with_reducible
        first
          | assumption | intro _ | apply keepA_ite | apply keep_next | apply keep_State_beginStep
          | apply keep_State_setPre | apply keep_State_settleBoundary)

theorem keep_execDrumStepStart {s0 : State} (k d : Nat) (s : State) (hs : Keep s0 s) :
    KeepA s0 (execDrumStepStart k d s) := by
  unfold execDrumStepStart
  try dsimp only
  repeat' first
    | (with_reducible
        first
          | assumption | intro _ | apply keepA_ite | apply keep_next | apply keep_State_abandonDrum
          | apply keep_State_latchDrum | apply keep_State_settleBoundary)

theorem keep_execPreemptDrainDone {s0 : State} (p : Nat) (s : State) (hs : Keep s0 s) :
    KeepA s0 (execPreemptDrainDone p s) := by
  unfold execPreemptDrainDone
  try dsimp only
  repeat' first
    | (with_reducible
        first
          | assumption | intro _ | apply keepA_ite | apply keep_next | apply keep_State_suspendEntries
          | apply keep_State_liveList | apply keep_State_writeImage | apply keep_State_zeroDrum
          | apply keep_State_setPre | apply keep_ite | apply keep_ite1 | apply keep_foldl | apply keep_foldl1)
    | simp only [keep_mk]

theorem keep_State_wipeKit {s0 : State} (s : State) (k : Nat) (hs : Keep s0 s) :
    Keep s0 (State.wipeKit s k) := by
  unfold State.wipeKit
  try dsimp only
  repeat' first
    | (with_reducible
        first
          | assumption | intro _ | apply keep_State_zeroDrum | apply keep_State_resetRegs | apply keep_State_setDrum
          | apply keep_State_setKit | apply keep_foldl)

theorem keep_execPreemptSaveDone {s0 : State} (p : Nat) (s : State) (hs : Keep s0 s) :
    KeepA s0 (execPreemptSaveDone p s) := by
  unfold execPreemptSaveDone
  try dsimp only
  repeat' first
    | (with_reducible
        first
          | assumption | intro _ | apply keepA_ite | apply keep_next | apply keep_State_setF | apply keep_State_log
          | apply keep_State_wipeKit | apply keep_State_setKit | apply keep_State_setPhase | apply keep_ite
          | apply keep_ite1 | apply keep_foldl)

theorem keep_State_beginReturn {s0 : State} (s : State) (p : Nat) (abandon : Bool) (hs : Keep s0 s) :
    Keep s0 (State.beginReturn s p abandon) := by
  unfold State.beginReturn
  try dsimp only
  repeat' first
    | (with_reducible
        first
          | assumption | intro _ | apply keep_State_setKit | apply keep_State_setPhase | apply keep_State_setPre
          | apply keep_foldl)

theorem keep_execPreemptReturnDone {s0 : State} (p : Nat) (s : State) (hs : Keep s0 s) :
    KeepA s0 (execPreemptReturnDone p s) := by
  unfold execPreemptReturnDone
  try dsimp only
  repeat' first
    | (with_reducible
        first
          | assumption | intro _ | apply keepA_ite | apply keep_next | apply keep_State_wipeKit
          | apply keep_State_discardPages | apply keep_State_setPhase | apply keep_ite | apply keep_ite1
          | apply keep_foldl)

theorem keep_State_imagesOk {s0 : State} (s : State) (p : Nat) (hs : Keep s0 s) :
    Keep s0 (State.imagesOk s p).1 := by
  unfold State.imagesOk
  try dsimp only
  repeat' first
    | (with_reducible
        first
          | assumption | intro _ | apply keep_State_imageOk | apply keep_foldl | apply keep_foldl1)

theorem keep_State_goBack {s0 : State} (s : State) (p : Nat) (abandon : Bool) (hs : Keep s0 s) :
    Keep s0 (State.goBack s p abandon) := by
  unfold State.goBack
  try dsimp only
  repeat' first
    | (with_reducible
        first
          | assumption | intro _ | apply keep_State_beginReturn | apply keep_State_setPhase | apply keep_State_setPre
          | apply keep_ite)

theorem keep_execPreemptRestore {s0 : State} (c : Nat) (w : Word) (s : State) (hs : Keep s0 s) :
    KeepA s0 (execPreemptRestore c w s) := by
  unfold execPreemptRestore
  try dsimp only
  repeat' first
    | (with_reducible
        first
          | assumption | intro _ | apply keepA_ite | apply keep_next | apply keep_State_preRow
          | apply keep_State_imagesOk | apply keep_State_goBack | apply keep_ite | apply keep_ite1)

theorem keep_execPreemptAbandon {s0 : State} (c : Nat) (w : Word) (s : State) (hs : Keep s0 s) :
    KeepA s0 (execPreemptAbandon c w s) := by
  unfold execPreemptAbandon
  try dsimp only
  repeat' first
    | (with_reducible
        first
          | assumption | intro _ | apply keepA_ite | apply keep_next | apply keep_State_preRow
          | apply keep_State_goBack | apply keep_ite | apply keep_ite1)

theorem keep_execPreemptWithdraw {s0 : State} (c : Nat) (w : Word) (s : State) (hs : Keep s0 s) :
    KeepA s0 (execPreemptWithdraw c w s) := by
  unfold execPreemptWithdraw
  try dsimp only
  repeat' first
    | (with_reducible
        first
          | assumption | intro _ | apply keepA_ite | apply keep_next | apply keep_State_preRow
          | apply keep_State_setPhase | apply keep_State_setPre | apply keep_ite | apply keep_ite1)

theorem keep_State_restoreKit {s0 : State} (s : State) (p k : Nat) (abandon : Bool) (hs : Keep s0 s) :
    Keep s0 (State.restoreKit s p k abandon) := by
  unfold State.restoreKit
  try dsimp only
  repeat' first
    | (with_reducible
        first
          | assumption | intro _ | apply keep_State_wipeKit | apply keep_State_setDrum | apply keep_State_loadImage
          | apply keep_State_mapCtx | apply keep_ite | apply keep_ite1 | apply keep_foldl)

theorem keep_execPreemptRestoreDone {s0 : State} (p : Nat) (s : State) (hs : Keep s0 s) :
    KeepA s0 (execPreemptRestoreDone p s) := by
  unfold execPreemptRestoreDone
  try dsimp only
  repeat' first
    | (with_reducible
        first
          | assumption | intro _ | apply keepA_ite | apply keep_next | apply keep_State_restoreKit
          | apply keep_State_setPhase | apply keep_State_setStep | apply keep_State_setPre
          | apply keep_State_lowerFloor | apply keep_State_resumeEntries | apply keep_ite | apply keep_ite1
          | apply keep_foldl | apply keep_foldl1)
    | simp only [keep_mk]

theorem keep_State_checkShort {s0 : State} (s : State) (r : Nat) (hs : Keep s0 s) :
    Keep s0 (State.checkShort s r) := by
  unfold State.checkShort
  try dsimp only
  repeat' first
    | (with_reducible
        first
          | assumption | intro _ | apply keep_State_setF | apply keep_State_log | apply keep_ite | apply keep_ite1
          | apply keep_foldl | apply keep_foldl1)
    | simp only [keep_mk]

theorem keep_State_refillPolicers {s0 : State} (s : State) (hs : Keep s0 s) :
    Keep s0 (State.refillPolicers s) := by
  unfold State.refillPolicers
  try dsimp only
  repeat' first
    | (with_reducible
        first
          | assumption | intro _ | apply keep_State_setTrn | apply keep_foldl | apply keep_foldl1)
    | dsimp only | split

theorem keep_execRegulatorWindow {s0 : State} (s : State) (hs : Keep s0 s) :
    KeepA s0 (execRegulatorWindow s) := by
  unfold execRegulatorWindow
  try dsimp only
  repeat' first
    | (with_reducible
        first
          | assumption | intro _ | apply keepA_ite | apply keep_next | apply keep_State_setF
          | apply keep_State_checkShort | apply keep_State_grantDue | apply keep_State_refillBuckets
          | apply keep_State_refillPolicers | apply keep_State_setTrn | apply keep_State_pumpOwed
          | apply keep_State_pumpTaint | apply keep_State_pumpTransit | apply keep_ite | apply keep_ite1
          | apply keep_foldl | apply keep_foldl1)
    | simp only [keep_mk]

-- ===== Sys2Proof/Machine/Checks.lean =====

theorem keep_State_scrubRead {s0 : State} (s : State) (u n : Nat) (hs : Keep s0 s) :
    Keep s0 (State.scrubRead s u n) := by
  unfold State.scrubRead
  try dsimp only
  repeat' first
    | (with_reducible
        first
          | assumption | intro _ | apply keep_State_touch | apply keep_State_touchBitmap | apply keep_ite
          | apply keep_ite1 | apply keep_foldl)

theorem keep_State_lapBegin {s0 : State} (s : State) (u : Nat) (hs : Keep s0 s) :
    Keep s0 (State.lapBegin s u) := by
  unfold State.lapBegin
  try dsimp only
  repeat' first
    | (with_reducible
        first
          | assumption | intro _ | apply keep_State_setF | apply keep_ite | apply keep_ite1)
    | simp only [keep_mk]

theorem keep_State_lapEnd {s0 : State} (s : State) (u : Nat) (hs : Keep s0 s) :
    Keep s0 (State.lapEnd s u) := by
  unfold State.lapEnd
  try dsimp only
  repeat' first
    | (with_reducible
        first
          | assumption | intro _ | apply keep_State_setF | apply keep_State_log | apply keep_State_lapBegin
          | apply keep_ite)

theorem keep_execScrubAccess {s0 : State} (u : Nat) (e : Upsets) (s : State) (hs : Keep s0 s) :
    KeepA s0 (execScrubAccess u e s) := by
  unfold execScrubAccess
  try dsimp only
  repeat' first
    | (with_reducible
        first
          | assumption | intro _ | apply keepA_ite | apply keep_next | apply keep_State_strike
          | apply keep_State_lapBegin | apply keep_State_scrubRead | apply keep_State_setInteg
          | apply keep_State_lapEnd | apply keep_ite)

theorem keep_execScrubOverdue {s0 : State} (u : Nat) (s : State) (hs : Keep s0 s) :
    KeepA s0 (execScrubOverdue u s) := by
  unfold execScrubOverdue
  try dsimp only
  repeat' first
    | (with_reducible
        first
          | assumption | intro _ | apply keepA_ite | apply keep_next | apply keep_State_setF | apply keep_State_log)

theorem keep_execMergeAgeFlush {s0 : State} (k d line : Nat) (s : State) (hs : Keep s0 s) :
    KeepA s0 (execMergeAgeFlush k d line s) := by
  unfold execMergeAgeFlush
  try dsimp only
  repeat' first
    | (with_reducible
        first
          | assumption | intro _ | apply keepA_ite | apply keep_next | apply keep_State_flushMerge)

theorem keep_State_setCheck {s0 : State} (s : State) (c : Nat) (k : SCheck) (hs : Keep s0 s) :
    Keep s0 (State.setCheck s c k) := by
  unfold State.setCheck
  try dsimp only
  repeat' first
    | (with_reducible
        first
          | assumption | intro _ | apply keep_State_setInteg)

theorem keep_execScheckRequest {s0 : State} (c : Nat) (w : Word) (s : State) (hs : Keep s0 s) :
    KeepA s0 (execScheckRequest c w s) := by
  unfold execScheckRequest
  try dsimp only
  repeat' first
    | (with_reducible
        first
          | assumption | intro _ | apply keepA_ite | apply keep_next | apply keep_State_log
          | apply keep_State_scheckAnswer | apply keep_State_setF | apply keep_State_setCheck | apply keep_ite
          | apply keep_ite1)
    | dsimp only | split

theorem keep_execScheckRun {s0 : State} (c : Nat) (s : State) (hs : Keep s0 s) :
    KeepA s0 (execScheckRun c s) := by
  unfold execScheckRun
  try dsimp only
  repeat' first
    | (with_reducible
        first
          | assumption | intro _ | apply keepA_ite | apply keep_next | apply keep_State_setCheck | apply keep_ite
          | apply keep_ite1)
    | dsimp only | split

theorem keep_execScheckForced {s0 : State} (c : Nat) (s : State) (hs : Keep s0 s) :
    KeepA s0 (execScheckForced c s) := by
  unfold execScheckForced
  try dsimp only
  repeat' first
    | (with_reducible
        first
          | assumption | intro _ | apply keepA_ite | apply keep_next | apply keep_State_setCheck
          | apply keep_State_log | apply keep_State_setKit | apply keep_State_extendD | apply keep_State_setF
          | apply keep_State_setPart | apply keep_State_run | apply keep_SrcWalk_run | apply keep_ite
          | apply keep_ite1 | apply keep_foldl | apply keep_foldl1)
    | dsimp only | split

theorem keep_State_endCheck {s0 : State} (s : State) (c code : Nat) (k : SCheck) (hs : Keep s0 s) :
    Keep s0 (State.endCheck s c code k) := by
  unfold State.endCheck
  try dsimp only
  repeat' first
    | (with_reducible
        first
          | assumption | intro _ | apply keep_State_setCheck | apply keep_State_scheckAnswer | apply keep_State_log
          | apply keep_ite)

theorem keep_State_notePass {s0 : State} (s : State) (u : Nat) (hs : Keep s0 s) :
    Keep s0 (State.notePass s u) := by
  unfold State.notePass
  try dsimp only
  repeat' first
    | (with_reducible
        first
          | assumption | intro _ | apply keep_State_setInteg | apply keep_ite)

theorem keep_State_retestPass {s0 : State} (s : State) (e : Nat) (hs : Keep s0 s) :
    Keep s0 (State.retestPass s e) := by
  unfold State.retestPass
  try dsimp only
  repeat' first
    | (with_reducible
        first
          | assumption | intro _ | apply keep_State_setRg | apply keep_State_log | apply keep_State_notePass
          | apply keep_State_setF | apply keep_ite)

theorem keep_State_retestUnresolved {s0 : State} (s : State) (e : Nat) (hs : Keep s0 s) :
    Keep s0 (State.retestUnresolved s e) := by
  unfold State.retestUnresolved
  try dsimp only
  repeat' first
    | (with_reducible
        first
          | assumption | intro _ | apply keep_State_confirm | apply keep_State_setF | apply keep_ite)

theorem keep_State_checkPass {s0 : State} (s : State) (c : Nat) (k : SCheck) (hs : Keep s0 s) :
    Keep s0 (State.checkPass s c k) := by
  unfold State.checkPass
  try dsimp only
  repeat' first
    | (with_reducible
        first
          | assumption | intro _ | apply keep_State_endCheck | apply keep_State_notePass
          | apply keep_State_retestPass)
    | dsimp only | split

theorem keep_State_checkBad {s0 : State} (s : State) (c code u : Nat) (k : SCheck) (hs : Keep s0 s) :
    Keep s0 (State.checkBad s c code u k) := by
  unfold State.checkBad
  try dsimp only
  repeat' first
    | (with_reducible
        first
          | assumption | intro _ | apply keep_State_endCheck | apply keep_State_confirm | apply keep_ite
          | apply keep_ite1 | apply keep_foldl | apply keep_foldl1)
    | simp only [keep_mk]

theorem keep_State_checkUnresolved {s0 : State} (s : State) (c : Nat) (k : SCheck) (hs : Keep s0 s) :
    Keep s0 (State.checkUnresolved s c k) := by
  unfold State.checkUnresolved
  try dsimp only
  repeat' first
    | (with_reducible
        first
          | assumption | intro _ | apply keep_State_endCheck | apply keep_State_observe
          | apply keep_State_retestUnresolved | apply keep_ite | apply keep_ite1)
    | dsimp only | split

theorem keep_execScheckEnd {s0 : State} (c : Nat) (r : CheckResult) (s : State) (hs : Keep s0 s) :
    KeepA s0 (execScheckEnd c r s) := by
  unfold execScheckEnd
  try dsimp only
  repeat' first
    | (with_reducible
        first
          | assumption | intro _ | apply keepA_ite | apply keep_next | apply keep_State_count
          | apply keep_State_checkBad | apply keep_State_checkUnresolved | apply keep_State_checkPass
          | apply keep_State_setCheck | apply keep_ite | apply keep_ite1)
    | dsimp only | split

theorem keep_execObsRetest {s0 : State} (e : Nat) (s : State) (hs : Keep s0 s) :
    KeepA s0 (execObsRetest e s) := by
  unfold execObsRetest
  try dsimp only
  repeat' first
    | (with_reducible
        first
          | assumption | intro _ | apply keepA_ite | apply keep_next | apply keep_State_queueCheck)

theorem keep_execObsAdd {s0 : State} (c : Nat) (w : Word) (s : State) (hs : Keep s0 s) :
    KeepA s0 (execObsAdd c w s) := by
  unfold execObsAdd
  try dsimp only
  repeat' first
    | (with_reducible
        first
          | assumption | intro _ | apply keepA_ite | apply keep_next | apply keep_State_observe)

theorem keep_execKitRetire {s0 : State} (k : Nat) (s : State) (hs : Keep s0 s) :
    KeepA s0 (execKitRetire k s) := by
  unfold execKitRetire
  try dsimp only
  repeat' first
    | (with_reducible
        first
          | assumption | intro _ | apply keep_next | apply keep_State_retireKit)

-- ===== Sys2Proof/Machine/Inbound.lean =====

theorem keep_State_recordOrder {s0 : State} (s : State) (p : Pkt) (old : Option Nat) (hs : Keep s0 s) :
    Keep s0 (State.recordOrder s p old) := by
  unfold State.recordOrder
  try dsimp only
  repeat' first
    | (with_reducible
        first
          | assumption | intro _)
    | simp only [keep_mk]

theorem keep_State_orderDone {s0 : State} (s : State) (r : OrderRec) (p : Pkt) (old : Option Nat) (hs : Keep s0 s) :
    Keep s0 (State.orderDone s r p old) := by
  unfold State.orderDone
  try dsimp only
  repeat' first
    | (with_reducible
        first
          | assumption | intro _ | apply keep_State_setPair | apply keep_State_diverge | apply keep_ite)

theorem keep_State_inDone {s0 : State} (s : State) (q : Inbound) (old : Option Nat) (hs : Keep s0 s) :
    Keep s0 (State.inDone s q old) := by
  unfold State.inDone
  try dsimp only
  repeat' first
    | (with_reducible
        first
          | assumption | intro _ | apply keep_State_orderDone | apply keep_State_recordOrder | apply keep_ite
          | apply keep_ite1)
    | dsimp only | split

theorem keep_State_tryIn {s0 : State} (s : State) (q : Inbound) (hs : Keep s0 s) :
    Keep s0 (State.tryIn s q) := by
  unfold State.tryIn
  try dsimp only
  repeat' first
    | (with_reducible
        first
          | assumption | intro _ | apply keep_State_perform | apply keep_State_leaveIn | apply keep_State_inDone
          | apply keep_ite)

theorem keep_State_tryLast {s0 : State} (s : State) (hs : Keep s0 s) :
    Keep s0 (State.tryLast s) := by
  unfold State.tryLast
  try dsimp only
  repeat' first
    | (with_reducible
        first
          | assumption | intro _ | apply keep_State_tryIn)
    | dsimp only | split

theorem keep_State_pumpOrders {s0 : State} (n : Nat) (s : State) (hs : Keep s0 s) :
    Keep s0 (State.pumpOrders n s) := by
  induction n generalizing s with
  | zero => exact hs
  | succ n ih =>
    unfold State.pumpOrders
    try dsimp only
    repeat' first
      | (with_reducible
          first
            | assumption | intro _ | apply ih | apply keep_State_setPair | apply keep_State_takeIn
            | apply keep_State_tryLast | apply keep_ite | apply keep_ite1)
      | dsimp only | split

theorem keep_State_follow {s0 : State} (s : State) (hs : Keep s0 s) :
    Keep s0 (State.follow s) := by
  unfold State.follow
  try dsimp only
  repeat' first
    | (with_reducible
        first
          | assumption | intro _ | apply keep_State_pumpOrders)

theorem keep_State_pumpInb {s0 : State} (s : State) (hs : Keep s0 s) :
    Keep s0 (State.pumpInb s) := by
  unfold State.pumpInb
  try dsimp only
  repeat' first
    | (with_reducible
        first
          | assumption | intro _ | apply keep_State_tryIn | apply keep_foldl | apply keep_foldl1)
    | dsimp only | split

theorem keep_State_arrival {s0 : State} (s : State) (p : Pkt) (hs : Keep s0 s) :
    Keep s0 (State.arrival s p) := by
  unfold State.arrival
  try dsimp only
  repeat' first
    | (with_reducible
        first
          | assumption | intro _ | apply keep_State_setPair | apply keep_State_follow | apply keep_State_takeIn
          | apply keep_State_tryLast | apply keep_ite)

theorem keep_execFabLoad {s0 : State} (p : Pkt) (s : State) (hs : Keep s0 s) :
    KeepA s0 (execFabLoad p s) := by
  unfold execFabLoad
  try dsimp only
  repeat' first
    | (with_reducible
        first
          | assumption | intro _ | apply keepA_ite | apply keep_next | apply keep_State_arrival | apply keep_ite)

theorem keep_execFabStore {s0 : State} (p : Pkt) (s : State) (hs : Keep s0 s) :
    KeepA s0 (execFabStore p s) := by
  unfold execFabStore
  try dsimp only
  repeat' first
    | (with_reducible
        first
          | assumption | intro _ | apply keepA_ite | apply keep_next | apply keep_State_arrival | apply keep_ite)

theorem keep_execFabStorem {s0 : State} (p : Pkt) (s : State) (hs : Keep s0 s) :
    KeepA s0 (execFabStorem p s) := by
  unfold execFabStorem
  try dsimp only
  repeat' first
    | (with_reducible
        first
          | assumption | intro _ | apply keepA_ite | apply keep_next | apply keep_State_arrival | apply keep_ite)

theorem keep_execFabPeal {s0 : State} (p : Pkt) (s : State) (hs : Keep s0 s) :
    KeepA s0 (execFabPeal p s) := by
  unfold execFabPeal
  try dsimp only
  repeat' first
    | (with_reducible
        first
          | assumption | intro _ | apply keepA_ite | apply keep_next | apply keep_State_arrival | apply keep_ite)

theorem keep_execFabAtomic {s0 : State} (p : Pkt) (s : State) (hs : Keep s0 s) :
    KeepA s0 (execFabAtomic p s) := by
  unfold execFabAtomic
  try dsimp only
  repeat' first
    | (with_reducible
        first
          | assumption | intro _ | apply keepA_ite | apply keep_next | apply keep_State_arrival | apply keep_ite)

theorem keep_execFabRed {s0 : State} (p : Pkt) (s : State) (hs : Keep s0 s) :
    KeepA s0 (execFabRed p s) := by
  unfold execFabRed
  try dsimp only
  repeat' first
    | (with_reducible
        first
          | assumption | intro _ | apply keepA_ite | apply keep_next | apply keep_State_arrival | apply keep_ite)

theorem keep_execFabFence {s0 : State} (p : Pkt) (s : State) (hs : Keep s0 s) :
    KeepA s0 (execFabFence p s) := by
  unfold execFabFence
  try dsimp only
  repeat' first
    | (with_reducible
        first
          | assumption | intro _ | apply keepA_ite | apply keep_next | apply keep_State_arrival | apply keep_ite)

theorem keep_execFabGongArrive {s0 : State} (p : Pkt) (s : State) (hs : Keep s0 s) :
    KeepA s0 (execFabGongArrive p s) := by
  unfold execFabGongArrive
  try dsimp only
  repeat' first
    | (with_reducible
        first
          | assumption | intro _ | apply keepA_ite | apply keep_next | apply keep_State_arrival | apply keep_ite)

theorem keep_execFabGongSound {s0 : State} (p : Pkt) (s : State) (hs : Keep s0 s) :
    KeepA s0 (execFabGongSound p s) := by
  unfold execFabGongSound
  try dsimp only
  repeat' first
    | (with_reducible
        first
          | assumption | intro _ | apply keepA_ite | apply keep_next | apply keep_State_arrival | apply keep_ite)

theorem keep_execFabTaint {s0 : State} (p : Pkt) (s : State) (hs : Keep s0 s) :
    KeepA s0 (execFabTaint p s) := by
  unfold execFabTaint
  try dsimp only
  repeat' first
    | (with_reducible
        first
          | assumption | intro _ | apply keepA_ite | apply keep_next | apply keep_State_arrival | apply keep_ite)

theorem keep_execFabParcel {s0 : State} (p : Pkt) (s : State) (hs : Keep s0 s) :
    KeepA s0 (execFabParcel p s) := by
  unfold execFabParcel
  try dsimp only
  repeat' first
    | (with_reducible
        first
          | assumption | intro _ | apply keepA_ite | apply keep_next | apply keep_State_arrival | apply keep_ite)

theorem keep_execFabParcelEnd {s0 : State} (p : Pkt) (s : State) (hs : Keep s0 s) :
    KeepA s0 (execFabParcelEnd p s) := by
  unfold execFabParcelEnd
  try dsimp only
  repeat' first
    | (with_reducible
        first
          | assumption | intro _ | apply keepA_ite | apply keep_next | apply keep_State_arrival | apply keep_ite)

theorem keep_execFabCparcel {s0 : State} (p : Pkt) (s : State) (hs : Keep s0 s) :
    KeepA s0 (execFabCparcel p s) := by
  unfold execFabCparcel
  try dsimp only
  repeat' first
    | (with_reducible
        first
          | assumption | intro _ | apply keepA_ite | apply keep_next | apply keep_State_arrival | apply keep_ite)

theorem keep_execFabCparcelEnd {s0 : State} (p : Pkt) (s : State) (hs : Keep s0 s) :
    KeepA s0 (execFabCparcelEnd p s) := by
  unfold execFabCparcelEnd
  try dsimp only
  repeat' first
    | (with_reducible
        first
          | assumption | intro _ | apply keepA_ite | apply keep_next | apply keep_State_arrival | apply keep_ite)

theorem keep_execCodecDecodeDone {s0 : State} (src tag : Nat) (s : State) (hs : Keep s0 s) :
    KeepA s0 (execCodecDecodeDone src tag s) := by
  unfold execCodecDecodeDone
  try dsimp only
  repeat' first
    | (with_reducible
        first
          | assumption | intro _ | apply keepA_ite | apply keep_next | apply keep_State_setInPar
          | apply keep_State_pumpInb)
    | split

theorem keep_State_pumpLoop {s0 : State} (s : State) (hs : Keep s0 s) :
    Keep s0 (State.pumpLoop s) := by
  unfold State.pumpLoop
  try dsimp only
  repeat' first
    | (with_reducible
        first
          | assumption | intro _ | apply keep_State_rspIn | apply keep_State_pendingIn | apply keep_State_arrival
          | apply keep_State_setFab | apply keep_ite | apply keep_ite1 | apply keep_foldl)

theorem keep_State_pumpFabric {s0 : State} (s : State) (hs : Keep s0 s) :
    Keep s0 (State.pumpFabric s) := by
  unfold State.pumpFabric
  try dsimp only
  repeat' first
    | (with_reducible
        first
          | assumption | intro _ | apply keep_State_settleDead | apply keep_State_pumpLoop | apply keep_State_pumpInb
          | apply keep_State_follow | apply keep_State_pumpFences | apply keep_State_pumpArrive
          | apply keep_State_pumpSounds | apply keep_State_pumpTaint | apply keep_State_pumpOwed | apply keep_foldl)

theorem keep_execOrderRecord {s0 : State} (r : OrderRec) (s : State) (hs : Keep s0 s) :
    KeepA s0 (execOrderRecord r s) := by
  unfold execOrderRecord
  try dsimp only
  repeat' first
    | (with_reducible
        first
          | assumption | intro _ | apply keepA_ite | apply keep_next | apply keep_State_setPair
          | apply keep_State_follow)

theorem keep_execOrderPacketFetch {s0 : State} (p : Pkt) (s : State) (hs : Keep s0 s) :
    KeepA s0 (execOrderPacketFetch p s) := by
  unfold execOrderPacketFetch
  try dsimp only
  repeat' first
    | (with_reducible
        first
          | assumption | intro _ | apply keepA_ite | apply keep_next | apply keep_State_setPair
          | apply keep_State_follow | apply keep_ite | apply keep_ite1)
    | dsimp only | split

-- ===== Sys2Proof/Machine/Pair.lean =====

theorem keep_State_sijHead {s0 : State} (s : State) (p : Nat) (hs : Keep s0 s) :
    Keep s0 (State.sijHead s p).1 := by
  unfold State.sijHead
  try dsimp only
  repeat' first
    | (with_reducible
        first
          | assumption | intro _ | apply keep_State_readMem)

theorem keep_State_sijList {s0 : State} (s : State) (p : Nat) (hs : Keep s0 s) :
    Keep s0 (State.sijList s p).1 := by
  unfold State.sijList
  try dsimp only
  repeat' first
    | (with_reducible
        first
          | assumption | intro _ | apply keep_State_readMem)

theorem keep_State_replayCode {s0 : State} (s : State) (p seq : Nat) (hs : Keep s0 s) :
    Keep s0 (State.replayCode s p seq).1 := by
  unfold State.replayCode
  try dsimp only
  repeat' first
    | (with_reducible
        first
          | assumption | intro _ | apply keep_State_sijHead | apply keep_State_sijList | apply keep_State_readMem
          | apply keep_ite | apply keep_ite1)

theorem keep_State_replayStep {s0 : State} (s : State) (p : Nat) (hs : Keep s0 s) :
    Keep s0 (State.replayStep s p) := by
  unfold State.replayStep
  try dsimp only
  repeat' first
    | (with_reducible
        first
          | assumption | intro _ | apply keep_State_sijHead | apply keep_State_sijList | apply keep_State_readMem
          | apply keep_State_writeAll | apply keep_State_stepEvent | apply keep_State_writeMem
          | apply keep_State_beginWith | apply keep_State_sendStart | apply keep_foldl | apply keep_foldl1)

theorem keep_execReplay {s0 : State} (c : Nat) (w : Word) (s : State) (hs : Keep s0 s) :
    KeepA s0 (execReplay c w s) := by
  unfold execReplay
  try dsimp only
  repeat' first
    | (with_reducible
        first
          | assumption | intro _ | apply keepA_ite | apply keep_next | apply keep_State_forward
          | apply keep_State_replayCode | apply keep_State_setF | apply keep_State_replayStep | apply keep_ite)

theorem keep_execCompareMessage {s0 : State} (m : CompareMsg) (s : State) (hs : Keep s0 s) :
    KeepA s0 (execCompareMessage m s) := by
  unfold execCompareMessage
  try dsimp only
  repeat' first
    | (with_reducible
        first
          | assumption | intro _ | apply keepA_ite | apply keep_next | apply keep_State_diverge
          | apply keep_State_setPair | apply keep_State_settlePair)

theorem keep_State_setResync {s0 : State} (s : State) (p : Nat) (b : Bool) (hs : Keep s0 s) :
    Keep s0 (State.setResync s p b) := by
  unfold State.setResync
  try dsimp only
  repeat' first
    | (with_reducible
        first
          | assumption | intro _ | apply keep_State_setF | apply keep_ite)

theorem keep_State_tryReplay {s0 : State} (s : State) (p : Nat) (hs : Keep s0 s) :
    Keep s0 (State.tryReplay s p) := by
  unfold State.tryReplay
  try dsimp only
  repeat' first
    | (with_reducible
        first
          | assumption | intro _ | apply keep_State_replayCode | apply keep_State_replayStep | apply keep_ite)

theorem keep_State_compareAgain {s0 : State} (s : State) (p : Nat) (hs : Keep s0 s) :
    Keep s0 (State.compareAgain s p) := by
  unfold State.compareAgain
  try dsimp only
  repeat' first
    | (with_reducible
        first
          | assumption | intro _ | apply keep_State_setPair)

theorem keep_State_leadReplays {s0 : State} (s : State) (p : Nat) (hs : Keep s0 s) :
    Keep s0 (State.leadReplays s p) := by
  unfold State.leadReplays
  try dsimp only
  repeat' first
    | (with_reducible
        first
          | assumption | intro _ | apply keep_State_setResync | apply keep_State_setPair
          | apply keep_State_releaseFree | apply keep_State_tryReplay | apply keep_ite)

theorem keep_State_promote {s0 : State} (s : State) (p : Nat) (hs : Keep s0 s) :
    Keep s0 (State.promote s p) := by
  unfold State.promote
  try dsimp only
  repeat' first
    | (with_reducible
        first
          | assumption | intro _ | apply keep_State_setRole | apply keep_State_setF | apply keep_State_setResync
          | apply keep_State_setPair | apply keep_State_releaseFree | apply keep_State_performRest
          | apply keep_State_leadReplays | apply keep_ite)

theorem keep_execPairDiagnosisDone {s0 : State} (p outcome : Nat) (s : State) (hs : Keep s0 s) :
    KeepA s0 (execPairDiagnosisDone p outcome s) := by
  unfold execPairDiagnosisDone
  try dsimp only
  repeat' first
    | (with_reducible
        first
          | assumption | intro _ | apply keepA_ite | apply keep_next | apply keep_State_setPair
          | apply keep_State_tryReplay | apply keep_State_promote | apply keep_State_leadReplays
          | apply keep_State_compareAgain)

theorem keep_execHeartbeatSend {s0 : State} (s : State) (hs : Keep s0 s) :
    KeepA s0 (execHeartbeatSend s) := by
  unfold execHeartbeatSend
  try dsimp only
  repeat' first
    | (with_reducible
        first
          | assumption | intro _ | apply keepA_ite | apply keep_next | apply keep_State_setPair | apply keep_ite
          | apply keep_ite1 | apply keep_foldl)

theorem keep_execHeartbeat {s0 : State} (link : Nat) (s : State) (hs : Keep s0 s) :
    KeepA s0 (execHeartbeat link s) := by
  unfold execHeartbeat
  try dsimp only
  repeat' first
    | (with_reducible
        first
          | assumption | intro _ | apply keepA_ite | apply keep_next | apply keep_State_setPair
          | apply keep_State_setF)

theorem keep_State_sendProbe {s0 : State} (s : State) (hs : Keep s0 s) :
    Keep s0 (State.sendProbe s) := by
  unfold State.sendProbe
  try dsimp only
  repeat' first
    | (with_reducible
        first
          | assumption | intro _ | apply keep_State_issue | apply keep_State_fresh)

theorem keep_execPairPartnerLost {s0 : State} (s : State) (hs : Keep s0 s) :
    KeepA s0 (execPairPartnerLost s) := by
  unfold execPairPartnerLost
  try dsimp only
  repeat' first
    | (with_reducible
        first
          | assumption | intro _ | apply keepA_ite | apply keep_next | apply keep_State_setF | apply keep_State_log
          | apply keep_State_setRole | apply keep_State_settlePair | apply keep_State_sendProbe
          | apply keep_State_standDown)

theorem keep_State_refuseJoin {s0 : State} (s : State) (need : Nat) (hs : Keep s0 s) :
    Keep s0 (State.refuseJoin s need) := by
  unfold State.refuseJoin
  try dsimp only
  repeat' first
    | (with_reducible
        first
          | assumption | intro _ | apply keep_State_log | apply keep_State_standDown | apply keep_ite)

theorem keep_execPairJoinPassDone {s0 : State} (p left kits : Nat) (s : State) (hs : Keep s0 s) :
    KeepA s0 (execPairJoinPassDone p left kits s) := by
  unfold execPairJoinPassDone
  try dsimp only
  repeat' first
    | (with_reducible
        first
          | assumption | intro _ | apply keepA_ite | apply keep_next | apply keep_State_refuseJoin
          | apply keep_State_setPair | apply keep_State_setResync | apply keep_State_setRole | apply keep_ite)

end Sys2Proof.Machine
end

