-- ==== Sys2Proof/Laws/KeepHub.lean ====
section
/-!
SUPPORT. Sys2Proof/Laws/KeepHub.lean: what the operations of resets, power, epochs, bring-up, the host and time keep.
-/
namespace Sys2Proof.Machine

open Sys2Proof (CtxId Fields Upsets ParityErrs)

-- ===== Sys2Proof/Machine/Reset.lean =====

theorem keep_State_coldReset {s0 : State} (s : State) (aonLost : Bool) (hs : Keep s0 s) : Keep s0 (State.coldReset s aonLost) :=
  ⟨hs.queue, fun w => cold_wf _ _ (hs.mem w)⟩

theorem keep_State_warmState {s0 : State} (s : State) (hs : Keep s0 s) :
    Keep s0 (State.warmState s) := by
  unfold State.warmState
  try dsimp only
  repeat' first
    | (with_reducible
        first
          | assumption | intro _ | apply keep_State_count | apply keep_State_journal | apply keep_foldl
          | apply keep_foldl1)
    | simp only [keep_mk]

theorem keep_State_warmReset {s0 : State} (s : State) (hs : Keep s0 s) :
    Keep s0 (State.warmReset s) := by
  unfold State.warmReset
  try dsimp only
  repeat' first
    | (with_reducible
        first
          | assumption | intro _ | apply keep_State_coldReset | apply keep_State_portReset
          | apply keep_State_warmState | apply keep_State_wipeKit | apply keep_State_log | apply keep_State_setF
          | apply keep_ite | apply keep_ite1 | apply keep_foldl)

theorem keep_execColdReset {s0 : State} (aonLost : Bool) (s : State) (hs : Keep s0 s) :
    KeepA s0 (execColdReset aonLost s) := by
  unfold execColdReset
  try dsimp only
  repeat' first
    | (with_reducible
        first
          | assumption | intro _ | apply keep_next | apply keep_State_coldReset)

theorem keep_execHubResetCold {s0 : State} (i : Nat) (w : Word) (s : State) (hs : Keep s0 s) :
    KeepA s0 (execHubResetCold i w s) := by
  unfold execHubResetCold
  try dsimp only
  repeat' first
    | (with_reducible
        first
          | assumption | intro _ | apply keepA_ite | apply keep_next | apply keep_State_coldReset | apply keep_ite)

theorem keep_execHubResetWarm {s0 : State} (i : Nat) (w : Word) (s : State) (hs : Keep s0 s) :
    KeepA s0 (execHubResetWarm i w s) := by
  unfold execHubResetWarm
  try dsimp only
  repeat' first
    | (with_reducible
        first
          | assumption | intro _ | apply keepA_ite | apply keep_next | apply keep_State_warmReset | apply keep_ite)

theorem keep_execWarmResetRequest {s0 : State} (s : State) (hs : Keep s0 s) :
    KeepA s0 (execWarmResetRequest s) := by
  unfold execWarmResetRequest
  try dsimp only
  repeat' first
    | (with_reducible
        first
          | assumption | intro _ | apply keepA_ite | apply keep_next | apply keep_State_warmReset | apply keep_ite)

theorem keep_execFixedRailOutOfTolerance {s0 : State} (s : State) (hs : Keep s0 s) :
    KeepA s0 (execFixedRailOutOfTolerance s) := by
  unfold execFixedRailOutOfTolerance
  try dsimp only
  repeat' first
    | (with_reducible
        first
          | assumption | intro _ | apply keepA_ite | apply keep_next | apply keep_State_coldReset | apply keep_ite)

theorem keep_execPowerLoss {s0 : State} (s : State) (hs : Keep s0 s) :
    KeepA s0 (execPowerLoss s) := by
  unfold execPowerLoss
  try dsimp only
  repeat' first
    | (with_reducible
        first
          | assumption | intro _ | apply keep_next | apply keep_State_coldReset)
    | simp only [keep_mk]

theorem keep_execRefclkLost {s0 : State} (s : State) (hs : Keep s0 s) :
    KeepA s0 (execRefclkLost s) := by
  unfold execRefclkLost
  try dsimp only
  repeat' first
    | (with_reducible
        first
          | assumption | intro _ | apply keepA_ite | apply keep_next | apply keep_State_log
          | apply keep_State_takeDown | apply keep_ite | apply keep_ite1 | apply keep_foldl | apply keep_foldl1)
    | simp only [keep_mk]

theorem keep_execRefclkReturn {s0 : State} (s : State) (hs : Keep s0 s) :
    KeepA s0 (execRefclkReturn s) := by
  unfold execRefclkReturn
  try dsimp only
  repeat' first
    | (with_reducible
        first
          | assumption | intro _ | apply keepA_ite | apply keep_next | apply keep_State_warmReset | apply keep_ite)

theorem keep_execResetRelease {s0 : State} (node : BitVec 16) (defaultN : Bool) (s : State) (hs : Keep s0 s) :
    KeepA s0 (execResetRelease node defaultN s) := by
  unfold execResetRelease
  try dsimp only
  repeat' first
    | (with_reducible
        first
          | assumption | intro _ | apply keepA_ite | apply keep_next | apply keep_State_setF
          | apply keep_State_setStage | apply keep_State_setB | apply keep_ite | apply keep_ite1)
    | simp only [keep_mk]

-- ===== Sys2Proof/Machine/Power.lean =====

theorem keep_State_belowFloor {s0 : State} (s : State) (k d tempo step band : Nat) (rated : Bool) (hs : Keep s0 s) :
    Keep s0 (State.belowFloor s k d tempo step band rated) := by
  unfold State.belowFloor
  try dsimp only
  repeat' first
    | (with_reducible
        first
          | assumption | intro _ | apply keep_State_setDrum | apply keep_State_setF | apply keep_State_setPart
          | apply keep_State_run | apply keep_State_log | apply keep_State_observe | apply keep_SrcWalk_run
          | apply keep_ite | apply keep_ite1)
    | dsimp only | split

theorem keep_State_readTempo {s0 : State} (s : State) (k step band : Nat) (q : Nat × Nat) (hs : Keep s0 s) :
    Keep s0 (State.readTempo s k step band q) := by
  unfold State.readTempo
  try dsimp only
  repeat' first
    | (with_reducible
        first
          | assumption | intro _ | apply keep_State_setF | apply keep_State_setDrum | apply keep_State_setPart
          | apply keep_State_run | apply keep_State_belowFloor | apply keep_SrcWalk_run | apply keep_ite
          | apply keep_ite1)
    | dsimp only | split

theorem keep_State_notePast {s0 : State} (s : State) (r : KitReading) (hs : Keep s0 s) :
    Keep s0 (State.notePast s r) := by
  unfold State.notePast
  try dsimp only
  repeat' first
    | (with_reducible
        first
          | assumption | intro _ | apply keep_State_setF | apply keep_ite | apply keep_ite1 | apply keep_foldl)

theorem keep_State_closeKit {s0 : State} (s : State) (r : KitReading) (hs : Keep s0 s) :
    Keep s0 (State.closeKit s r) := by
  unfold State.closeKit
  try dsimp only
  repeat' first
    | (with_reducible
        first
          | assumption | intro _ | apply keep_State_readTempo | apply keep_State_setF | apply keep_State_setKit
          | apply keep_ite | apply keep_ite1 | apply keep_foldl)

theorem keep_State_moveStep {s0 : State} (s : State) (watts : Nat) (r : KitReading) (hs : Keep s0 s) :
    Keep s0 (State.moveStep s watts r) := by
  unfold State.moveStep
  try dsimp only
  repeat' first
    | (with_reducible
        first
          | assumption | intro _ | apply keep_State_setF | apply keep_ite)

theorem keep_State_thermal {s0 : State} (s : State) (r : KitReading) (hs : Keep s0 s) :
    Keep s0 (State.thermal s r) := by
  unfold State.thermal
  try dsimp only
  repeat' first
    | (with_reducible
        first
          | assumption | intro _ | apply keep_State_setF | apply keep_ite)

theorem keep_State_readPower {s0 : State} (s : State) (w : WindowReading) (hs : Keep s0 s) :
    Keep s0 (State.readPower s w) := by
  unfold State.readPower
  try dsimp only
  repeat' first
    | (with_reducible
        first
          | assumption | intro _ | apply keep_State_setF | apply keep_State_count | apply keep_ite | apply keep_ite1
          | apply keep_foldl)

theorem keep_State_closePower {s0 : State} (s : State) (w : WindowReading) (hs : Keep s0 s) :
    Keep s0 (State.closePower s w) := by
  unfold State.closePower
  try dsimp only
  repeat' first
    | (with_reducible
        first
          | assumption | intro _ | apply keep_State_thermal | apply keep_State_setF | apply keep_State_moveStep
          | apply keep_State_lowerFloor | apply keep_ite | apply keep_ite1 | apply keep_foldl)

theorem keep_State_chargeTiers {s0 : State} (s : State) (hs : Keep s0 s) :
    Keep s0 (State.chargeTiers s) := by
  unfold State.chargeTiers
  try dsimp only
  repeat' first
    | (with_reducible
        first
          | assumption | intro _ | apply keep_State_acct | apply keep_foldl)

theorem keep_State_closeWindow {s0 : State} (s : State) (w : WindowReading) (first : Bool) (hs : Keep s0 s) :
    Keep s0 (State.closeWindow s w first) := by
  unfold State.closeWindow
  try dsimp only
  repeat' first
    | (with_reducible
        first
          | assumption | intro _ | apply keep_State_closeKit | apply keep_State_readPower | apply keep_State_thermal
          | apply keep_State_closePower | apply keep_State_chargeTiers | apply keep_ite | apply keep_ite1
          | apply keep_foldl)

theorem keep_execTempoWindowClose {s0 : State} (w : WindowReading) (s : State) (hs : Keep s0 s) :
    KeepA s0 (execTempoWindowClose w s) := by
  unfold execTempoWindowClose
  try dsimp only
  repeat' first
    | (with_reducible
        first
          | assumption | intro _ | apply keepA_ite | apply keep_next | apply keep_State_closeWindow
          | apply keep_State_notePast | apply keep_State_readPower | apply keep_State_chargeTiers | apply keep_ite
          | apply keep_ite1 | apply keep_foldl | apply keep_foldl1)
    | simp only [keep_mk]

theorem keep_execRailFault {s0 : State} (k : Nat) (s : State) (hs : Keep s0 s) :
    KeepA s0 (execRailFault k s) := by
  unfold execRailFault
  try dsimp only
  repeat' first
    | (with_reducible
        first
          | assumption | intro _ | apply keepA_ite | apply keep_next | apply keep_State_setF
          | apply keep_State_retireKit)

theorem keep_execThermalTrip {s0 : State} (s : State) (hs : Keep s0 s) :
    KeepA s0 (execThermalTrip s) := by
  unfold execThermalTrip
  try dsimp only
  repeat' first
    | (with_reducible
        first
          | assumption | intro _ | apply keepA_ite | apply keep_next | apply keep_State_checkService | apply keep_ite
          | apply keep_ite1)
    | simp only [keep_mk]

-- ===== Sys2Proof/Machine/Validate.lean =====

theorem keep_State_under {s0 : State} (s : State) (m : SMap (BitVec 64)) (hs : Keep s0 s) :
    Keep s0 (State.under s m) := by
  unfold State.under
  try dsimp only
  repeat' first
    | (with_reducible
        first
          | assumption | intro _)
    | simp only [keep_mk]

-- ===== Sys2Proof/Machine/EpochOps.lean =====

theorem keep_State_setCfg {s0 : State} (s : State) (f : Cfg → Cfg) (hs : Keep s0 s) :
    Keep s0 (State.setCfg s f) := by
  unfold State.setCfg
  try dsimp only
  repeat' first
    | (with_reducible
        first
          | assumption | intro _)
    | simp only [keep_mk]

theorem keep_State_setBoot {s0 : State} (s : State) (f : Boot → Boot) (hs : Keep s0 s) :
    Keep s0 (State.setBoot s f) := by
  unfold State.setBoot
  try dsimp only
  repeat' first
    | (with_reducible
        first
          | assumption | intro _)
    | simp only [keep_mk]

theorem keep_State_setCore {s0 : State} (s : State) (c : Nat) (b : Bool) (hs : Keep s0 s) :
    Keep s0 (State.setCore s c b) := by
  unfold State.setCore
  try dsimp only
  repeat' first
    | (with_reducible
        first
          | assumption | intro _ | apply keep_State_setBoot)

theorem keep_State_kickCore {s0 : State} (s : State) (c : Nat) (hs : Keep s0 s) :
    Keep s0 (State.kickCore s c) := by
  unfold State.kickCore
  try dsimp only
  repeat' first
    | (with_reducible
        first
          | assumption | intro _ | apply keep_State_setBoot)

theorem keep_State_loadCore {s0 : State} (s : State) (c : Nat) (hs : Keep s0 s) :
    Keep s0 (State.loadCore s c) := by
  unfold State.loadCore
  try dsimp only
  repeat' first
    | (with_reducible
        first
          | assumption | intro _ | apply keep_State_writeAll | apply keep_ite | apply keep_ite1)
    | dsimp only | split

theorem keep_State_restartCore {s0 : State} (s : State) (c : Nat) (hs : Keep s0 s) :
    Keep s0 (State.restartCore s c) := by
  unfold State.restartCore
  try dsimp only
  repeat' first
    | (with_reducible
        first
          | assumption | intro _ | apply keep_State_setCore | apply keep_State_setBoot | apply keep_ite)

theorem keep_State_nextRestart {s0 : State} (s : State) (n : Nat) (hs : Keep s0 s) : Keep s0 (State.nextRestart s n) := by
  induction n generalizing s with
  | zero => exact hs
  | succ n ih =>
    unfold State.nextRestart
    try dsimp only
    repeat' first
      | (with_reducible
          first
            | assumption | intro _ | apply ih | apply keep_State_loadCore | apply keep_State_restartCore | apply keep_State_setCfg
            | apply keep_ite)
      | dsimp only | split

theorem keep_State_releaseCore {s0 : State} (s : State) (c : Nat) (hs : Keep s0 s) :
    Keep s0 (State.releaseCore s c) := by
  unfold State.releaseCore
  try dsimp only
  repeat' first
    | (with_reducible
        first
          | assumption | intro _ | apply keep_State_setCore | apply keep_State_setBoot | apply keep_State_kickCore
          | apply keep_State_log | apply keep_State_setCfg | apply keep_State_nextRestart | apply keep_ite
          | apply keep_ite1)
    | dsimp only | split

theorem keep_State_watchdogWrite {s0 : State} (s : State) (c : Nat) (w : Word) (hs : Keep s0 s) :
    Keep s0 (State.watchdogWrite s c w) := by
  unfold State.watchdogWrite
  try dsimp only
  repeat' first
    | (with_reducible
        first
          | assumption | intro _ | apply keep_State_setRg | apply keep_State_kickCore | apply keep_ite)

theorem keep_execCcWatchdogKick {s0 : State} (i c : Nat) (w : Word) (s : State) (hs : Keep s0 s) :
    KeepA s0 (execCcWatchdogKick i c w s) := by
  unfold execCcWatchdogKick
  try dsimp only
  repeat' first
    | (with_reducible
        first
          | assumption | intro _ | apply keepA_ite | apply keep_next | apply keep_State_watchdogWrite)

theorem keep_execCcHang {s0 : State} (c : Nat) (s : State) (hs : Keep s0 s) :
    KeepA s0 (execCcHang c s) := by
  unfold execCcHang
  try dsimp only
  repeat' first
    | (with_reducible
        first
          | assumption | intro _ | apply keepA_ite | apply keep_next | apply keep_State_log | apply keep_State_fresh
          | apply keep_State_kickCore | apply keep_State_restartCore | apply keep_ite)

theorem keep_execCcRestart {s0 : State} (i : Nat) (w : Word) (s : State) (hs : Keep s0 s) :
    KeepA s0 (execCcRestart i w s) := by
  unfold execCcRestart
  try dsimp only
  repeat' first
    | (with_reducible
        first
          | assumption | intro _ | apply keepA_ite | apply keep_next | apply keep_State_restartCore | apply keep_ite
          | apply keep_ite1 | apply keep_foldl)

theorem keep_execCcRestarted {s0 : State} (c : Nat) (s : State) (hs : Keep s0 s) :
    KeepA s0 (execCcRestarted c s) := by
  unfold execCcRestarted
  try dsimp only
  repeat' first
    | (with_reducible
        first
          | assumption | intro _ | apply keepA_ite | apply keep_next | apply keep_State_releaseCore)

theorem keep_State_markOld {s0 : State} (s now : State) (hs : Keep s0 now) : Keep s0 (State.markOld s now) := by
  unfold State.markOld
  exact keep_State_setTrn _ _ (keep_State_setFab _ _ hs)

theorem keep_State_pairSwitch {s0 : State} (s : State) (was : Bool) (hs : Keep s0 s) :
    Keep s0 (State.pairSwitch s was) := by
  unfold State.pairSwitch
  try dsimp only
  repeat' first
    | (with_reducible
        first
          | assumption | intro _ | apply keep_State_setF | apply keep_State_setRole | apply keep_State_setPair
          | apply keep_State_settlePair | apply keep_ite)

theorem keep_State_portSwitch {s0 : State} (s : State) (old : BitVec 64) (i : Nat) (hs : Keep s0 s) :
    Keep s0 (State.portSwitch s old i) := by
  unfold State.portSwitch
  try dsimp only
  repeat' first
    | (with_reducible
        first
          | assumption | intro _ | apply keep_State_takeDown | apply keep_ite)

theorem keep_State_refillTransit {s0 : State} (s : State) (hs : Keep s0 s) :
    Keep s0 (State.refillTransit s) := by
  unfold State.refillTransit
  try dsimp only
  repeat' first
    | (with_reducible
        first
          | assumption | intro _ | apply keep_State_setTrn | apply keep_foldl | apply keep_foldl1)
    | dsimp only | split

theorem keep_State_tookValue {s0 : State} (old s : State) (off : Nat) (hs : Keep s0 s) :
    Keep s0 (State.tookValue old s off) := by
  unfold State.tookValue
  try dsimp only
  repeat' first
    | (with_reducible
        first
          | assumption | intro _ | apply keep_State_egressWritten | apply keep_State_portSwitch
          | apply keep_State_refillTransit | apply keep_State_setInteg | apply keep_State_journal
          | apply keep_State_setB | apply keep_State_setRg | apply keep_State_setF | apply keep_State_setPart
          | apply keep_State_pairSwitch)
    | dsimp only | split

theorem keep_State_takeValues {s0 : State} (s : State) (e : SMap (BitVec 64)) (hs : Keep s0 s) :
    Keep s0 (State.takeValues s e) := by
  unfold State.takeValues
  try dsimp only
  repeat' first
    | (with_reducible
        first
          | assumption | intro _ | apply keep_State_under | apply keep_State_tookValue | apply keep_State_markOld
          | apply keep_State_setUsed | apply keep_foldl)

theorem keep_State_discardOld {s0 : State} (s : State) (hs : Keep s0 s) :
    Keep s0 (State.discardOld s) := by
  unfold State.discardOld
  try dsimp only
  repeat' first
    | (with_reducible
        first
          | assumption | intro _ | apply keep_State_under | apply keep_State_discardPages | apply keep_ite
          | apply keep_ite1 | apply keep_foldl)

theorem keep_State_setNorSlot {s0 : State} (s : State) (n : Nat) (x : EpochImage) (hs : Keep s0 s) :
    Keep s0 (State.setNorSlot s n x) := by
  unfold State.setNorSlot
  try dsimp only
  repeat' first
    | (with_reducible
        first
          | assumption | intro _ | apply keep_State_setCfg)

theorem keep_State_unmark {s0 : State} (s : State) (a n : Nat) (hs : Keep s0 s) : Keep s0 (State.unmark s a n) := by
  unfold State.unmark
  exact keep_mem hs (unmark_wf _ _ _ _ _ _ _)

theorem keep_State_setSlot {s0 : State} (s : State) (n : Nat) (x : EpochImage) (hs : Keep s0 s) :
    Keep s0 (State.setSlot s n x) := by
  unfold State.setSlot
  try dsimp only
  repeat' first
    | (with_reducible
        first
          | assumption | intro _ | apply keep_State_setCfg | apply keep_State_unmark)

theorem keep_State_copyToNor {s0 : State} (s : State) (hs : Keep s0 s) :
    Keep s0 (State.copyToNor s) := by
  unfold State.copyToNor
  try dsimp only
  repeat' first
    | (with_reducible
        first
          | assumption | intro _ | apply keep_State_journal | apply keep_State_setCfg)
    | dsimp only | split

theorem keep_State_fixDurable {s0 : State} (s : State) (hs : Keep s0 s) :
    Keep s0 (State.fixDurable s) := by
  unfold State.fixDurable
  try dsimp only
  repeat' first
    | (with_reducible
        first
          | assumption | intro _ | apply keep_State_setB)

theorem keep_State_writeOwed {s0 : State} (s : State) (hs : Keep s0 s) :
    Keep s0 (State.writeOwed s) := by
  unfold State.writeOwed
  try dsimp only
  repeat' first
    | (with_reducible
        first
          | assumption | intro _ | apply keep_State_setCfg | apply keep_State_fixDurable)

-- ===== Sys2Proof/Machine/Epoch.lean =====

theorem keep_State_setCfgPhase {s0 : State} (s : State) (n : Nat) (hs : Keep s0 s) :
    Keep s0 (State.setCfgPhase s n) := by
  unfold State.setCfgPhase
  try dsimp only
  repeat' first
    | (with_reducible
        first
          | assumption | intro _ | apply keep_State_setF)

theorem keep_State_cfgAnswer {s0 : State} (s : State) (code first : Nat) (hs : Keep s0 s) :
    Keep s0 (State.cfgAnswer s code first) := by
  unfold State.cfgAnswer
  try dsimp only
  repeat' first
    | (with_reducible
        first
          | assumption | intro _ | apply keep_State_setF)

theorem keep_State_cfgInvalidated {s0 : State} (s : State) (code first : Nat) (hs : Keep s0 s) :
    Keep s0 (State.cfgInvalidated s code first) := by
  unfold State.cfgInvalidated
  try dsimp only
  repeat' first
    | (with_reducible
        first
          | assumption | intro _ | apply keep_State_log | apply keep_State_cfgAnswer)

theorem keep_State_endSession {s0 : State} (s : State) (hs : Keep s0 s) :
    Keep s0 (State.endSession s) := by
  unfold State.endSession
  try dsimp only
  repeat' first
    | (with_reducible
        first
          | assumption | intro _ | apply keep_State_setCfgPhase)
    | simp only [keep_mk]

theorem keep_State_cfgBack {s0 : State} (s : State) (hs : Keep s0 s) :
    Keep s0 (State.cfgBack s) := by
  unfold State.cfgBack
  try dsimp only
  repeat' first
    | (with_reducible
        first
          | assumption | intro _ | apply keep_State_endSession | apply keep_State_setCfgPhase
          | apply keep_State_setCfg | apply keep_ite)

theorem keep_State_cfgRow {s0 : State} (s : State) (op i : Nat) (w : Word) (act : State → State) (hs : Keep s0 s) (hact : ∀ t, Keep s0 t → Keep s0 (act t)) :
    Keep s0 (State.cfgRow s op i w act) := by
  unfold State.cfgRow
  try dsimp only
  repeat' first
    | (with_reducible
        first
          | assumption | intro _ | apply hact | apply keep_State_cfgAnswer | apply keep_State_forward
          | apply keep_ite)

theorem keep_execCfgOpen {s0 : State} (i : Nat) (w : Word) (s : State) (hs : Keep s0 s) :
    KeepA s0 (execCfgOpen i w s) := by
  unfold execCfgOpen
  try dsimp only
  repeat' first
    | (with_reducible
        first
          | assumption | intro _ | apply keepA_ite | apply keep_next | apply keep_State_cfgRow
          | apply keep_State_cfgAnswer | apply keep_State_setF | apply keep_State_setCfgPhase
          | apply keep_State_unmark | apply keep_ite | apply keep_ite1)
    | simp only [keep_mk]

theorem keep_execCfgStagedWrite {s0 : State} (i off : Nat) (w : Word) (s : State) (hs : Keep s0 s) :
    KeepA s0 (execCfgStagedWrite i off w s) := by
  unfold execCfgStagedWrite
  try dsimp only
  repeat' first
    | (with_reducible
        first
          | assumption | intro _ | apply keepA_ite | apply keep_next | apply keep_State_forward
          | apply keep_State_setCfgPhase | apply keep_State_log | apply keep_ite | apply keep_ite1)
    | simp only [keep_mk]
    | dsimp only | split

theorem keep_State_validateStaged {s0 : State} (s : State) (hs : Keep s0 s) :
    Keep s0 (State.validateStaged s).1 := by
  unfold State.validateStaged
  try dsimp only
  repeat' first
    | (with_reducible
        first
          | assumption | intro _ | apply keep_State_setCfgPhase | apply keep_State_cfgInvalidated | apply keep_ite
          | apply keep_ite1)

theorem keep_execCfgValidate {s0 : State} (i : Nat) (w : Word) (s : State) (hs : Keep s0 s) :
    KeepA s0 (execCfgValidate i w s) := by
  unfold execCfgValidate
  try dsimp only
  repeat' first
    | (with_reducible
        first
          | assumption | intro _ | apply keepA_ite | apply keep_next | apply keep_State_cfgRow
          | apply keep_State_cfgAnswer | apply keep_State_validateStaged | apply keep_ite)

theorem keep_execCfgAbandon {s0 : State} (i : Nat) (w : Word) (s : State) (hs : Keep s0 s) :
    KeepA s0 (execCfgAbandon i w s) := by
  unfold execCfgAbandon
  try dsimp only
  repeat' first
    | (with_reducible
        first
          | assumption | intro _ | apply keepA_ite | apply keep_next | apply keep_State_cfgRow
          | apply keep_State_cfgAnswer | apply keep_State_endSession | apply keep_ite)

theorem keep_State_soundGong {s0 : State} (s : State) (hs : Keep s0 s) :
    Keep s0 (State.soundGong s) := by
  unfold State.soundGong
  try dsimp only
  repeat' first
    | (with_reducible
        first
          | assumption | intro _ | apply keep_State_setCfgPhase | apply keep_State_setCfg
          | apply keep_State_takeValues)

theorem keep_State_enterHolding {s0 : State} (s : State) (hs : Keep s0 s) :
    Keep s0 (State.enterHolding s) := by
  unfold State.enterHolding
  try dsimp only
  repeat' first
    | (with_reducible
        first
          | assumption | intro _ | apply keep_State_setCfgPhase | apply keep_State_setCfg
          | apply keep_State_soundGong | apply keep_ite)

theorem keep_execCfgHoldComplete {s0 : State} (s : State) (hs : Keep s0 s) :
    KeepA s0 (execCfgHoldComplete s) := by
  unfold execCfgHoldComplete
  try dsimp only
  repeat' first
    | (with_reducible
        first
          | assumption | intro _ | apply keepA_ite | apply keep_next | apply keep_State_under
          | apply keep_State_soundGong | apply keep_State_cfgBack | apply keep_State_cfgInvalidated | apply keep_ite)

theorem keep_execCfgTimeout {s0 : State} (s : State) (hs : Keep s0 s) :
    KeepA s0 (execCfgTimeout s) := by
  unfold execCfgTimeout
  try dsimp only
  repeat' first
    | (with_reducible
        first
          | assumption | intro _ | apply keepA_ite | apply keep_next | apply keep_State_cfgBack
          | apply keep_State_log | apply keep_State_cfgAnswer)

theorem keep_execCfgCancel {s0 : State} (i : Nat) (w : Word) (s : State) (hs : Keep s0 s) :
    KeepA s0 (execCfgCancel i w s) := by
  unfold execCfgCancel
  try dsimp only
  repeat' first
    | (with_reducible
        first
          | assumption | intro _ | apply keepA_ite | apply keep_next | apply keep_State_cfgRow
          | apply keep_State_cfgAnswer | apply keep_State_cfgBack | apply keep_ite)

theorem keep_State_beginSwitch {s0 : State} (s : State) (e : SMap (BitVec 64)) (num : Nat) (rollback persist write : Bool) (us : Nat) (hs : Keep s0 s) :
    Keep s0 (State.beginSwitch s e num rollback persist write us) := by
  unfold State.beginSwitch
  try dsimp only
  repeat' first
    | (with_reducible
        first
          | assumption | intro _ | apply keep_State_setF | apply keep_State_setCfg | apply keep_State_setCfgPhase
          | apply keep_State_setNorSlot | apply keep_State_cfgJournal | apply keep_State_copyToNor
          | apply keep_State_enterHolding | apply keep_ite)

theorem keep_execCfgCommit {s0 : State} (i : Nat) (w : Word) (s : State) (hs : Keep s0 s) :
    KeepA s0 (execCfgCommit i w s) := by
  unfold execCfgCommit
  try dsimp only
  repeat' first
    | (with_reducible
        first
          | assumption | intro _ | apply keepA_ite | apply keep_next | apply keep_State_cfgRow
          | apply keep_State_cfgAnswer | apply keep_State_validateStaged | apply keep_State_beginSwitch
          | apply keep_ite | apply keep_ite1)

theorem keep_execCfgRollback {s0 : State} (i : Nat) (w : Word) (s : State) (hs : Keep s0 s) :
    KeepA s0 (execCfgRollback i w s) := by
  unfold execCfgRollback
  try dsimp only
  repeat' first
    | (with_reducible
        first
          | assumption | intro _ | apply keepA_ite | apply keep_next | apply keep_State_cfgRow
          | apply keep_State_cfgAnswer | apply keep_State_cfgInvalidated | apply keep_State_setF
          | apply keep_State_beginSwitch | apply keep_ite)

theorem keep_execCfgPersistDone {s0 : State} (ok : Bool) (s : State) (hs : Keep s0 s) :
    KeepA s0 (execCfgPersistDone ok s) := by
  unfold execCfgPersistDone
  try dsimp only
  repeat' first
    | (with_reducible
        first
          | assumption | intro _ | apply keepA_ite | apply keep_next | apply keep_State_setNorSlot
          | apply keep_State_cfgJournal | apply keep_State_copyToNor | apply keep_State_enterHolding
          | apply keep_State_cfgBack | apply keep_State_log | apply keep_State_cfgAnswer)

theorem keep_execCfgSwitchDone {s0 : State} (s : State) (hs : Keep s0 s) :
    KeepA s0 (execCfgSwitchDone s) := by
  unfold execCfgSwitchDone
  try dsimp only
  repeat' first
    | (with_reducible
        first
          | assumption | intro _ | apply keepA_ite | apply keep_next | apply keep_State_setSlot
          | apply keep_State_cfgJournal | apply keep_State_setCfg | apply keep_State_journal | apply keep_State_setF
          | apply keep_State_discardOld | apply keep_State_endSession | apply keep_State_fixDurable
          | apply keep_State_log | apply keep_State_cfgAnswer | apply keep_State_nextRestart | apply keep_ite
          | apply keep_ite1)
    | simp only [keep_mk]

theorem keep_execCfgNorSwitchWritten {s0 : State} (s : State) (hs : Keep s0 s) :
    KeepA s0 (execCfgNorSwitchWritten s) := by
  unfold execCfgNorSwitchWritten
  try dsimp only
  repeat' first
    | (with_reducible
        first
          | assumption | intro _ | apply keepA_ite | apply keep_next | apply keep_State_writeOwed)

-- ===== Sys2Proof/Machine/Boot.lean =====

theorem keep_State_releaseRb {s0 : State} (s : State) (hs : Keep s0 s) :
    Keep s0 (State.releaseRb s) := by
  unfold State.releaseRb
  try dsimp only
  repeat' first
    | (with_reducible
        first
          | assumption | intro _)
    | simp only [keep_mk]

theorem keep_State_bootFail {s0 : State} (s : State) (code : Nat) (hs : Keep s0 s) :
    Keep s0 (State.bootFail s code) := by
  unfold State.bootFail
  try dsimp only
  repeat' first
    | (with_reducible
        first
          | assumption | intro _ | apply keep_State_setStage | apply keep_State_setF | apply keep_State_cause
          | apply keep_State_releaseRb)

theorem keep_execBootRom {s0 : State} (r : RomReport) (s : State) (hs : Keep s0 s) :
    KeepA s0 (execBootRom r s) := by
  unfold execBootRom
  try dsimp only
  repeat' first
    | (with_reducible
        first
          | assumption | intro _ | apply keepA_ite | apply keep_next | apply keep_State_bootFail
          | apply keep_State_setB | apply keep_State_setBoot | apply keep_State_setStage | apply keep_ite)

theorem keep_State_takeImage {s0 : State} (s : State) (h : BootHead) (body : Nat) (hs : Keep s0 s) :
    Keep s0 (State.takeImage s h body) := by
  unfold State.takeImage
  try dsimp only
  repeat' first
    | (with_reducible
        first
          | assumption | intro _ | apply keep_State_setBoot | apply keep_State_setF)

theorem keep_execBootVerify {s0 : State} (s : State) (hs : Keep s0 s) :
    KeepA s0 (execBootVerify s) := by
  unfold execBootVerify
  try dsimp only
  repeat' first
    | (with_reducible
        first
          | assumption | intro _ | apply keepA_ite | apply keep_next | apply keep_State_log
          | apply keep_State_bootFail | apply keep_State_takeImage | apply keep_State_setF
          | apply keep_State_setStage | apply keep_ite | apply keep_ite1)
    | dsimp only | split

theorem keep_State_fixKits {s0 : State} (s : State) (hs : Keep s0 s) :
    Keep s0 (State.fixKits s) := by
  unfold State.fixKits
  try dsimp only
  repeat' first
    | (with_reducible
        first
          | assumption | intro _ | apply keep_State_setF)

theorem keep_State_outOfService {s0 : State} (s : State) (k d : Nat) (hs : Keep s0 s) :
    Keep s0 (State.outOfService s k d).1 := by
  unfold State.outOfService
  try dsimp only
  repeat' first
    | (with_reducible
        first
          | assumption | intro _ | apply keep_State_setDrum | apply keep_State_setKit | apply keep_ite
          | apply keep_ite1)
    | dsimp only | split

theorem keep_State_applyRetired {s0 : State} (s : State) (hs : Keep s0 s) :
    Keep s0 (State.applyRetired s) := by
  unfold State.applyRetired
  try dsimp only
  repeat' first
    | (with_reducible
        first
          | assumption | intro _ | apply keep_State_setKit | apply keep_State_outOfService | apply keep_ite
          | apply keep_ite1 | apply keep_foldl)

theorem keep_State_fillDrum {s0 : State} (s : State) (k d : Nat) (hs : Keep s0 s) :
    Keep s0 (State.fillDrum s k d) := by
  unfold State.fillDrum
  try dsimp only
  repeat' first
    | (with_reducible
        first
          | assumption | intro _ | apply keep_State_log | apply keep_State_setBoot | apply keep_State_outOfService
          | apply keep_State_retireKit | apply keep_ite)

theorem keep_State_fillGranules {s0 : State} (s : State) (gs : List Nat) (hs : Keep s0 s) :
    Keep s0 (State.fillGranules s gs) := by
  unfold State.fillGranules
  try dsimp only
  repeat' first
    | (with_reducible
        first
          | assumption | intro _ | apply keep_State_setBoot | apply keep_State_setRg)

theorem keep_State_fillZeros {s0 : State} (s : State) (lost : Bool) (hs : Keep s0 s) : Keep s0 (State.fillZeros s lost) := by
  unfold State.fillZeros
  have h : Keep s0 { s with mem := s.mem.cold lost } := keep_mem hs (cold_wf _ _)
  generalize ({ s with mem := s.mem.cold lost } : State) = t at h ⊢
  dsimp only
  repeat' first
    | (with_reducible
        first
          | assumption | intro _ | apply keep_State_setBoot | apply keep_State_setRg | apply keep_State_setF | apply keep_ite)
    | simp only [keep_mk]

theorem keep_State_startLog {s0 : State} (s : State) (hs : Keep s0 s) :
    Keep s0 (State.startLog s) := by
  unfold State.startLog
  try dsimp only
  repeat' first
    | (with_reducible
        first
          | assumption | intro _ | apply keep_State_acceptEv)
    | simp only [keep_mk]
    | dsimp only | split

theorem keep_execBootFill {s0 : State} (r : FillReport) (s : State) (hs : Keep s0 s) :
    KeepA s0 (execBootFill r s) := by
  unfold execBootFill
  try dsimp only
  repeat' first
    | (with_reducible
        first
          | assumption | intro _ | apply keepA_ite | apply keep_next | apply keep_State_startLog
          | apply keep_State_setStage | apply keep_State_fillZeros | apply keep_State_bootFail
          | apply keep_State_setF | apply keep_State_cause | apply keep_State_fillDrum
          | apply keep_State_applyRetired | apply keep_State_fixKits | apply keep_State_fillGranules
          | apply keep_State_loseBank | apply keep_State_setBoot | apply keep_ite | apply keep_ite1
          | apply keep_foldl)

theorem keep_execBootHbm {s0 : State} (failed : List Nat) (s : State) (hs : Keep s0 s) :
    KeepA s0 (execBootHbm failed s) := by
  unfold execBootHbm
  try dsimp only
  repeat' first
    | (with_reducible
        first
          | assumption | intro _ | apply keepA_ite | apply keep_next | apply keep_State_retireKit
          | apply keep_State_setStage | apply keep_State_bootFail | apply keep_ite | apply keep_ite1
          | apply keep_foldl)

theorem keep_execBootLink {s0 : State} (trained : List (Nat × Nat)) (s : State) (hs : Keep s0 s) :
    KeepA s0 (execBootLink trained s) := by
  unfold execBootLink
  try dsimp only
  repeat' first
    | (with_reducible
        first
          | assumption | intro _ | apply keepA_ite | apply keep_next | apply keep_State_linkTrained
          | apply keep_State_log | apply keep_State_setBoot | apply keep_State_setDrum | apply keep_State_setStage
          | apply keep_ite | apply keep_ite1 | apply keep_foldl)

theorem keep_State_calibrated {s0 : State} (s : State) (k d : Nat) (hs : Keep s0 s) :
    Keep s0 (State.calibrated s k d) := by
  unfold State.calibrated
  try dsimp only
  repeat' first
    | (with_reducible
        first
          | assumption | intro _ | apply keep_State_setDrum | apply keep_State_setF | apply keep_State_fresh
          | apply keep_State_setKit | apply keep_ite)

theorem keep_execBootTempo {s0 : State} (w : WindowReading) (s : State) (hs : Keep s0 s) :
    KeepA s0 (execBootTempo w s) := by
  unfold execBootTempo
  try dsimp only
  repeat' first
    | (with_reducible
        first
          | assumption | intro _ | apply keepA_ite | apply keep_next | apply keep_State_calibrated
          | apply keep_State_closeWindow | apply keep_State_setStage | apply keep_ite | apply keep_ite1
          | apply keep_foldl)

theorem keep_State_pickNor {s0 : State} (s : State) (hs : Keep s0 s) (q : BootPick × State) (h : s.pickNor = some q) : Keep s0 q.2 := by
  unfold State.pickNor at h
  dsimp only at h
  split at h
  · cases h
  · cases h
    dsimp only
    repeat' first
      | (with_reducible
          first
            | assumption | intro _ | apply keep_State_log | apply keep_State_cfgJournal | apply keep_State_setSlot)
      | dsimp only | split

theorem keep_State_pickEpoch {s0 : State} (s : State) (hs : Keep s0 s) : Keep s0 s.pickEpoch.2 := by
  unfold State.pickEpoch
  split
  · dsimp only
    split
    · exact keep_State_log _ _ _ _ _ _ _ hs
    · exact hs
  · split
    · next q h => exact keep_State_pickNor s hs q h
    · split
      · exact hs
      · exact keep_State_log _ _ _ _ _ _ _ hs

theorem keep_editPick {s0 : State} (q : BootPick × State) (k : Nat) (hs : Keep s0 q.2) : Keep s0 (editPick q k).2 := by
  unfold editPick
  dsimp only
  split
  · exact hs
  · dsimp only
    repeat' first
      | (with_reducible
          first
            | assumption | intro _ | apply keep_State_log | apply keep_State_cfgJournal | apply keep_State_setSlot
            | apply keep_ite)
      | dsimp only | split

theorem keep_State_bootValue {s0 : State} (old s : State) (off : Nat) (hs : Keep s0 s) :
    Keep s0 (State.bootValue old s off) := by
  unfold State.bootValue
  try dsimp only
  repeat' first
    | (with_reducible
        first
          | assumption | intro _ | apply keep_State_setEgress | apply keep_State_tookValue | apply keep_ite
          | apply keep_ite1)
    | dsimp only | split

theorem keep_State_applyEpoch {s0 : State} (s : State) (p : BootPick) (hs : Keep s0 s) :
    Keep s0 (State.applyEpoch s p) := by
  unfold State.applyEpoch
  try dsimp only
  repeat' first
    | (with_reducible
        first
          | assumption | intro _ | apply keep_State_under | apply keep_State_bootValue | apply keep_State_setUsed
          | apply keep_State_setF | apply keep_State_setCfg | apply keep_State_loseHbm | apply keep_State_fixDurable
          | apply keep_ite | apply keep_ite1 | apply keep_foldl | apply keep_foldl1)
    | simp only [keep_mk]
    | dsimp only | split

theorem keep_State_startCore {s0 : State} (s : State) (c : Nat) (hs : Keep s0 s) :
    Keep s0 (State.startCore s c) := by
  unfold State.startCore
  try dsimp only
  repeat' first
    | (with_reducible
        first
          | assumption | intro _ | apply keep_State_loadCore | apply keep_State_setCore | apply keep_State_log
          | apply keep_ite)

theorem keep_State_closeTransit {s0 : State} (s : State) (hs : Keep s0 s) :
    Keep s0 (State.closeTransit s) := by
  unfold State.closeTransit
  try dsimp only
  repeat' first
    | (with_reducible
        first
          | assumption | intro _ | apply keep_State_complete | apply keep_foldl)

theorem keep_State_bootDone {s0 : State} (s : State) (src : Nat) (hs : Keep s0 s) :
    Keep s0 (State.bootDone s src) := by
  unfold State.bootDone
  try dsimp only
  repeat' first
    | (with_reducible
        first
          | assumption | intro _ | apply keep_State_setF | apply keep_State_setBoot | apply keep_State_setStage
          | apply keep_State_log | apply keep_State_releaseRb | apply keep_State_cause | apply keep_ite)

theorem keep_foldl2 {α β : Type} {a : State} {q : α × State} {f : α × State → β → α × State} {l : List β} (h : Keep a q.2)
    (hf : ∀ t b, Keep a t.2 → Keep a (f t b).2) : Keep a (l.foldl f q).2 := by
  induction l generalizing q with
  | nil => exact h
  | cons b l ih => exact ih (hf _ _ h)

theorem keep_execBootConfig {s0 : State} (s : State) (hs : Keep s0 s) :
    KeepA s0 (execBootConfig s) := by
  unfold execBootConfig
  try dsimp only
  repeat' first
    | (with_reducible
        first
          | assumption | intro _ | apply keepA_ite | apply keep_next | apply keep_editPick
          | apply keep_State_pickEpoch | apply keep_State_applyEpoch | apply keep_State_closeTransit
          | apply keep_State_startCore | apply keep_State_bootDone | apply keep_State_pickEpoch | apply keep_editPick
          | apply keep_foldl2 | apply keep_ite | apply keep_ite1 | apply keep_foldl)

-- ===== Sys2Proof/Machine/Host.lean =====

theorem keep_execHqCfgWrite {s0 : State} (i q : Nat) (w : Word) (s : State) (hs : Keep s0 s) :
    KeepA s0 (execHqCfgWrite i q w s) := by
  unfold execHqCfgWrite
  try dsimp only
  repeat' first
    | (with_reducible
        first
          | assumption | intro _ | apply keepA_ite | apply keep_next | apply keep_State_log | apply keep_State_setRg
          | apply keep_State_stopQueue | apply keep_ite)

theorem keep_State_hostEnd {s0 : State} (s : State) (q : Nat) (c : HostCmd) (status : Nat) (payload : List Nat) (nor : Bool) (hs : Keep s0 s) :
    Keep s0 (State.hostEnd s q c status payload nor) := by
  unfold State.hostEnd
  try dsimp only
  repeat' first
    | (with_reducible
        first
          | assumption | intro _ | apply keep_State_setHost | apply keep_ite)

theorem keep_State_dmaError {s0 : State} (s : State) (q : Nat) (hs : Keep s0 s) :
    Keep s0 (State.dmaError s q) := by
  unfold State.dmaError
  try dsimp only
  repeat' first
    | (with_reducible
        first
          | assumption | intro _ | apply keep_State_log)

theorem keep_State_takeEntry {s0 : State} (s : State) (q : Nat) (e : HostEntry) (hs : Keep s0 s) :
    Keep s0 (State.takeEntry s q e) := by
  unfold State.takeEntry
  try dsimp only
  repeat' first
    | (with_reducible
        first
          | assumption | intro _ | apply keep_State_setF | apply keep_State_dmaError | apply keep_State_fresh
          | apply keep_State_hostEnd | apply keep_State_setHost | apply keep_ite)

theorem keep_execHqSqDoorbell {s0 : State} (i q : Nat) (w : Word) (es : List HostEntry) (s : State) (hs : Keep s0 s) :
    KeepA s0 (execHqSqDoorbell i q w es s) := by
  unfold execHqSqDoorbell
  try dsimp only
  repeat' first
    | (with_reducible
        first
          | assumption | intro _ | apply keepA_ite | apply keep_next | apply keep_State_log
          | apply keep_State_takeEntry | apply keep_State_setF | apply keep_ite | apply keep_ite1 | apply keep_foldl)

theorem keep_execHqCqDoorbell {s0 : State} (i q : Nat) (w : Word) (s : State) (hs : Keep s0 s) :
    KeepA s0 (execHqCqDoorbell i q w s) := by
  unfold execHqCqDoorbell
  try dsimp only
  repeat' first
    | (with_reducible
        first
          | assumption | intro _ | apply keepA_ite | apply keep_next | apply keep_State_log | apply keep_State_setF)

theorem keep_State_writeCompl {s0 : State} (s : State) (q : Nat) (c : HostCompl) (hs : Keep s0 s) :
    Keep s0 (State.writeCompl s q c) := by
  unfold State.writeCompl
  try dsimp only
  repeat' first
    | (with_reducible
        first
          | assumption | intro _ | apply keep_State_setHost | apply keep_State_setF | apply keep_State_cause
          | apply keep_State_respDone | apply keep_ite | apply keep_ite1)
    | simp only [keep_mk]

theorem keep_execHqCommandComplete {s0 : State} (q : Nat) (s : State) (hs : Keep s0 s) :
    KeepA s0 (execHqCommandComplete q s) := by
  unfold execHqCommandComplete
  try dsimp only
  repeat' first
    | (with_reducible
        first
          | assumption | intro _ | apply keepA_ite | apply keep_next | apply keep_State_logLimited
          | apply keep_State_writeCompl | apply keep_ite | apply keep_ite1)
    | dsimp only | split

theorem keep_State_hostPop {s0 : State} (s : State) (q : Nat) (hs : Keep s0 s) :
    Keep s0 (State.hostPop s q) := by
  unfold State.hostPop
  try dsimp only
  repeat' first
    | (with_reducible
        first
          | assumption | intro _ | apply keep_State_setHost)

theorem keep_execServe {s0 : State} (q : Nat) (d : HostData) (s : State) (hs : Keep s0 s) :
    KeepA s0 (execServe q d s) := by
  unfold execServe
  try dsimp only
  repeat' first
    | (with_reducible
        first
          | assumption | intro _ | apply keepA_ite | apply keep_next | apply keep_State_hostPop
          | apply keep_State_dmaError | apply keep_State_hostEnd | apply keep_State_setHost | apply keep_State_refuse
          | apply keep_State_deliver | apply keep_ite | apply keep_ite1)
    | simp only [keep_mk]
    | dsimp only | split

theorem keep_State_softWrite {s0 : State} (s : State) (a n : Nat) (d : Data) (hs : Keep s0 s) :
    Keep s0 (State.softWrite s a n d) := by
  unfold State.softWrite
  try dsimp only
  repeat' first
    | (with_reducible
        first
          | assumption | intro _ | apply keep_State_writeMem | apply keep_State_setKvState | apply keep_State_log
          | apply keep_ite | apply keep_ite1 | apply keep_foldl)

theorem keep_execHqCopy {s0 : State} (q : Nat) (d : HostData) (s : State) (hs : Keep s0 s) :
    KeepA s0 (execHqCopy q d s) := by
  unfold execHqCopy
  try dsimp only
  repeat' first
    | (with_reducible
        first
          | assumption | intro _ | apply keepA_ite | apply keep_next | apply keep_State_hostPop
          | apply keep_State_hostEnd | apply keep_State_dmaError | apply keep_State_softWrite
          | apply keep_State_flashGate | apply keep_State_readMem | apply keep_ite | apply keep_ite1)
    | simp only [keep_mk]
    | dsimp only | split

theorem keep_State_norWrite {s0 : State} (s : State) (off n v : Nat) (ok : Bool) (hs : Keep s0 s) :
    Keep s0 (State.norWrite s off n v ok) := by
  unfold State.norWrite
  try dsimp only
  repeat' first
    | (with_reducible
        first
          | assumption | intro _ | apply keep_State_setBoot | apply keep_State_fresh | apply keep_ite)

theorem keep_execInstall {s0 : State} (q : Nat) (d : HostData) (s : State) (hs : Keep s0 s) :
    KeepA s0 (execInstall q d s) := by
  unfold execInstall
  try dsimp only
  repeat' first
    | (with_reducible
        first
          | assumption | intro _ | apply keepA_ite | apply keep_next | apply keep_State_hostPop
          | apply keep_State_hostEnd | apply keep_State_dmaError | apply keep_State_norWrite | apply keep_State_log
          | apply keep_ite | apply keep_ite1)
    | dsimp only | split

theorem keep_execBootWrite {s0 : State} (q : Nat) (d : HostData) (s : State) (hs : Keep s0 s) :
    KeepA s0 (execBootWrite q d s) := by
  unfold execBootWrite
  try dsimp only
  repeat' first
    | (with_reducible
        first
          | assumption | intro _ | apply keepA_ite | apply keep_next | apply keep_State_hostPop
          | apply keep_State_hostEnd | apply keep_State_dmaError | apply keep_State_norWrite | apply keep_State_log
          | apply keep_ite | apply keep_ite1)
    | dsimp only | split

theorem keep_execRecover {s0 : State} (q : Nat) (d : HostData) (s : State) (hs : Keep s0 s) :
    KeepA s0 (execRecover q d s) := by
  unfold execRecover
  try dsimp only
  repeat' first
    | (with_reducible
        first
          | assumption | intro _ | apply keepA_ite | apply keep_next | apply keep_State_hostPop
          | apply keep_State_hostEnd | apply keep_State_dmaError | apply keep_State_takeImage
          | apply keep_State_setStage | apply keep_State_setF | apply keep_State_log | apply keep_ite
          | apply keep_ite1)
    | simp only [keep_mk]
    | dsimp only | split

theorem keep_State_answerRead {s0 : State} (s : State) (v : Nat) (ep : Bool) (hs : Keep s0 s) :
    Keep s0 (State.answerRead s v ep) := by
  unfold State.answerRead
  try dsimp only
  repeat' first
    | (with_reducible
        first
          | assumption | intro _)
    | simp only [keep_mk]

theorem keep_execHostWindowAccess {s0 : State} (a : HostAccess) (s : State) (hs : Keep s0 s) :
    KeepA s0 (execHostWindowAccess a s) := by
  unfold execHostWindowAccess
  try dsimp only
  repeat' first
    | (with_reducible
        first
          | assumption | intro _ | apply keepA_ite | apply keep_next | apply keep_State_answerRead
          | apply keep_State_log | apply keep_State_softWrite | apply keep_State_flashGate | apply keep_State_readMem
          | apply keep_ite)

-- ===== Sys2Proof/Machine/Walker.lean =====

theorem keep_State_treeRefresh {s0 : State} (s : State) (t : Nat) (hs : Keep s0 s) :
    Keep s0 (State.treeRefresh s t) := by
  unfold State.treeRefresh
  try dsimp only
  repeat' first
    | (with_reducible
        first
          | assumption | intro _ | apply keep_State_setRg)

theorem keep_State_treeReg {s0 : State} (s : State) (t g : Nat) (up : Bool) (hs : Keep s0 s) :
    Keep s0 (State.treeReg s t g up) := by
  unfold State.treeReg
  try dsimp only
  repeat' first
    | (with_reducible
        first
          | assumption | intro _ | apply keep_State_setF | apply keep_State_treeRefresh)

theorem keep_State_treeRead {s0 : State} (s : State) (a : Actor) (ad n : Nat) (hs : Keep s0 s) :
    Keep s0 (State.treeRead s a ad n).1 := by
  unfold State.treeRead
  try dsimp only
  repeat' first
    | (with_reducible
        first
          | assumption | intro _ | apply keep_State_presentFor | apply keep_State_hubRead)

theorem keep_State_treeWrite {s0 : State} (s : State) (a : Actor) (ad n v : Nat) (hs : Keep s0 s) :
    Keep s0 (State.treeWrite s a ad n v) := by
  unfold State.treeWrite
  try dsimp only
  repeat' first
    | (with_reducible
        first
          | assumption | intro _ | apply keep_State_presentFor | apply keep_State_writeMem)

theorem keep_State_chain {s0 : State} (s : State) (a : Actor) (t : Nat) (pick : Nat → Nat → Bool) (n i : Nat) (hs : Keep s0 s) :
    Keep s0 (State.chain s a t pick n i).1 := by
  induction n generalizing s i with
  | zero => exact hs
  | succ n ih =>
    unfold State.chain
    try dsimp only
    repeat' first
      | (with_reducible
          first
            | assumption | intro _ | apply keep_State_treeRead | apply ih | apply keep_State_hubRead | apply keep_ite1)

theorem keep_State_bucketFind {s0 : State} (s : State) (a : Actor) (t h : Nat) (pick : Nat → Nat → Bool) (hs : Keep s0 s) :
    Keep s0 (State.bucketFind s a t h pick).1 := by
  unfold State.bucketFind
  try dsimp only
  repeat' first
    | (with_reducible
        first
          | assumption | intro _ | apply keep_State_treeRead | apply keep_State_chain | apply keep_ite
          | apply keep_ite1)

theorem keep_State_pwComplete {s0 : State} (s : State) (w v code low word1 : Nat) (blocks : List (Nat × Nat)) (hs : Keep s0 s) :
    Keep s0 (State.pwComplete s w v code low word1 blocks) := by
  unfold State.pwComplete
  try dsimp only
  repeat' first
    | (with_reducible
        first
          | assumption | intro _ | apply keep_State_jobOut | apply keep_State_unitResult)

theorem keep_State_pwSettle {s0 : State} (s : State) (w : Nat) (hs : Keep s0 s) :
    Keep s0 (State.pwSettle s w) := by
  unfold State.pwSettle
  try dsimp only
  repeat' first
    | (with_reducible
        first
          | assumption | intro _ | apply keep_State_endJob | apply keep_State_treeReg)

theorem keep_State_pwPoison {s0 : State} (s : State) (w v a : Nat) (hs : Keep s0 s) :
    Keep s0 (State.pwPoison s w v a) := by
  unfold State.pwPoison
  try dsimp only
  repeat' first
    | (with_reducible
        first
          | assumption | intro _ | apply keep_State_log | apply keep_State_pwComplete)

theorem keep_State_pwRow {s0 : State} (s : State) (w op : Nat) (act : State → Nat → State) (hs : Keep s0 s) (hact : ∀ t x1, Keep s0 t → Keep s0 (act t x1)) :
    Keep s0 (State.pwRow s w op act) := by
  unfold State.pwRow
  try dsimp only
  repeat' first
    | (with_reducible
        first
          | assumption | intro _ | apply hact | apply keep_State_pwSettle | apply keep_State_ringFront
          | apply keep_State_pwComplete | apply keep_State_beginJob | apply keep_ite | apply keep_ite1)
    | dsimp only | split

theorem keep_State_pwBlock {s0 : State} (s : State) (a : Actor) (t g service : Nat) (q : PwPos) (tokens h : Nat) (hs : Keep s0 s) :
    Keep s0 (State.pwBlock s a t g service q tokens h).1 := by
  unfold State.pwBlock
  try dsimp only
  repeat' first
    | (with_reducible
        first
          | assumption | intro _ | apply keep_State_bucketFind)

theorem keep_State_pwWalk {s0 : State} (s : State) (a : Actor) (t g service : Nat) (tok : Nat → Nat × Bool) (tokAddr n hp : Nat) (hs : Keep s0 s) :
    Keep s0 (State.pwWalk s a t g service tok tokAddr n hp).1 := by
  unfold State.pwWalk
  try dsimp only
  repeat' first
    | (with_reducible
        first
          | assumption | intro _ | apply keep_State_pwBlock | apply keep_ite | apply keep_ite1 | apply keep_foldl
          | apply keep_foldl1)

theorem keep_execPwLookup {s0 : State} (w : Nat) (s : State) (hs : Keep s0 s) :
    KeepA s0 (execPwLookup w s) := by
  unfold execPwLookup
  try dsimp only
  repeat' first
    | (with_reducible
        first
          | assumption | intro _ | apply keepA_ite | apply keep_next | apply keep_State_pwRow
          | apply keep_State_wordOf | apply keep_State_pwComplete | apply keep_State_treeReg
          | apply keep_State_useSnap | apply keep_State_fetchVia | apply keep_State_pwWalk
          | apply keep_State_pwPoison | apply keep_State_treeWrite | apply keep_ite | apply keep_ite1
          | apply keep_foldl | apply keep_foldl1)
    | dsimp only | split

theorem keep_State_pwInsertAt {s0 : State} (s : State) (w v t new parent g h tokens : Nat) (f : Found) (hs : Keep s0 s) :
    Keep s0 (State.pwInsertAt s w v t new parent g h tokens f) := by
  unfold State.pwInsertAt
  try dsimp only
  repeat' first
    | (with_reducible
        first
          | assumption | intro _ | apply keep_State_pwPoison | apply keep_State_pwComplete | apply keep_State_hubRead
          | apply keep_State_wordOf | apply keep_State_treeWrite | apply keep_foldl | apply keep_foldl1)
    | dsimp only | split

theorem keep_execPwInsert {s0 : State} (w : Nat) (s : State) (hs : Keep s0 s) :
    KeepA s0 (execPwInsert w s) := by
  unfold execPwInsert
  try dsimp only
  repeat' first
    | (with_reducible
        first
          | assumption | intro _ | apply keepA_ite | apply keep_next | apply keep_State_pwRow
          | apply keep_State_wordOf | apply keep_State_pwComplete | apply keep_State_fetchVia
          | apply keep_State_pwPoison | apply keep_State_treeRead | apply keep_State_bucketFind
          | apply keep_State_pwInsertAt | apply keep_ite | apply keep_ite1)
    | dsimp only | split

theorem keep_State_pwNode {s0 : State} (s : State) (w v : Nat) (act : State → Nat → Nat → State) (hs : Keep s0 s) (hact : ∀ t x1 x2, Keep s0 t → Keep s0 (act t x1 x2)) :
    Keep s0 (State.pwNode s w v act) := by
  unfold State.pwNode
  try dsimp only
  repeat' first
    | (with_reducible
        first
          | assumption | intro _ | apply hact | apply keep_State_pwComplete | apply keep_State_treeRead
          | apply keep_State_pwPoison | apply keep_ite)

theorem keep_execPwDelete {s0 : State} (w : Nat) (s : State) (hs : Keep s0 s) :
    KeepA s0 (execPwDelete w s) := by
  unfold execPwDelete
  try dsimp only
  repeat' first
    | (with_reducible
        first
          | assumption | intro _ | apply keepA_ite | apply keep_next | apply keep_State_pwRow
          | apply keep_State_pwNode | apply keep_State_pwComplete | apply keep_State_treeWrite | apply keep_ite)

theorem keep_execPwCommit {s0 : State} (w : Nat) (s : State) (hs : Keep s0 s) :
    KeepA s0 (execPwCommit w s) := by
  unfold execPwCommit
  try dsimp only
  repeat' first
    | (with_reducible
        first
          | assumption | intro _ | apply keepA_ite | apply keep_next | apply keep_State_pwRow
          | apply keep_State_pwComplete | apply keep_State_setRg | apply keep_State_treeRefresh | apply keep_ite)

theorem keep_execPwUnlink {s0 : State} (w : Nat) (s : State) (hs : Keep s0 s) :
    KeepA s0 (execPwUnlink w s) := by
  unfold execPwUnlink
  try dsimp only
  repeat' first
    | (with_reducible
        first
          | assumption | intro _ | apply keepA_ite | apply keep_next | apply keep_State_pwRow
          | apply keep_State_pwNode | apply keep_State_pwComplete | apply keep_State_treeRead
          | apply keep_State_pwPoison | apply keep_State_treeWrite | apply keep_State_chain | apply keep_ite
          | apply keep_ite1)
    | dsimp only | split

theorem keep_execPwRelease {s0 : State} (w : Nat) (s : State) (hs : Keep s0 s) :
    KeepA s0 (execPwRelease w s) := by
  unfold execPwRelease
  try dsimp only
  repeat' first
    | (with_reducible
        first
          | assumption | intro _ | apply keepA_ite | apply keep_next | apply keep_State_pwRow
          | apply keep_State_wordOf | apply keep_State_pwComplete | apply keep_State_treeReg | apply keep_ite)

theorem keep_execTreeConfigWrite {s0 : State} (i off : Nat) (w : Word) (s : State) (hs : Keep s0 s) :
    KeepA s0 (execTreeConfigWrite i off w s) := by
  unfold execTreeConfigWrite
  try dsimp only
  repeat' first
    | (with_reducible
        first
          | assumption | intro _ | apply keepA_ite | apply keep_next | apply keep_State_log | apply keep_State_setRg
          | apply keep_ite | apply keep_ite1)
    | dsimp only | split

-- ===== Sys2Proof/Machine/Access.lean =====

theorem keep_State_windowWord {s0 : State} (s : State) (a : Nat) (hs : Keep s0 s) :
    Keep s0 (State.windowWord s a).1 := by
  unfold State.windowWord
  try dsimp only
  repeat' first
    | (with_reducible
        first
          | assumption | intro _ | apply keep_State_readMem)

theorem keep_State_wordOf {s0 : State} (s : State) (i : Nat) (r : RegName) (j k : Nat) (hs : Keep s0 s) :
    Keep s0 (State.wordOf s i r j k).1 := by
  unfold State.wordOf
  try dsimp only
  repeat' first
    | (with_reducible
        first
          | assumption | intro _ | apply keep_State_fresh | apply keep_State_windowWord | apply keep_ite
          | apply keep_ite1 | apply keep_foldl | apply keep_foldl1)
    | dsimp only | split

theorem keep_State_readPrep {s0 : State} (s : State) (i : Nat) (r : RegName) (j : Nat) (hs : Keep s0 s) : Keep s0 (State.readPrep s i r j) := by
  unfold State.readPrep
  have h := keep_execEvtWindowLatch i s hs
  split
  · split
    · next t e => rw [e] at h; exact h
    · exact hs
  · exact hs

theorem keep_State_readWide {s0 : State} (s : State) (i off : Nat) (hs : Keep s0 s) :
    Keep s0 (State.readWide s i off).1 := by
  unfold State.readWide
  try dsimp only
  repeat' first
    | (with_reducible
        first
          | assumption | intro _ | apply keep_State_readPrep | apply keep_State_wordOf | apply keep_State_setRg
          | apply keep_ite | apply keep_ite1)
    | dsimp only | split

theorem keep_State_readLow {s0 : State} (s : State) (i off : Nat) (hs : Keep s0 s) :
    Keep s0 (State.readLow s i off).1 := by
  unfold State.readLow
  try dsimp only
  repeat' first
    | (with_reducible
        first
          | assumption | intro _ | apply keep_State_readPrep | apply keep_State_wordOf | apply keep_State_setRg
          | apply keep_ite | apply keep_ite1)
    | simp only [keep_mk]
    | dsimp only | split

theorem keep_State_readHigh {s0 : State} (s : State) (i off : Nat) (hs : Keep s0 s) :
    Keep s0 (State.readHigh s i off).1 := by
  unfold State.readHigh
  try dsimp only
  repeat' first
    | (with_reducible
        first
          | assumption | intro _ | apply keep_State_wordOf | apply keep_ite | apply keep_ite1)
    | simp only [keep_mk]
    | dsimp only | split

theorem keep_hostRead {s0 : State} (i : Nat) (q : State × Nat × Bool) (hs : Keep s0 q.1) : Keep s0 (hostRead i q) := by
  unfold hostRead
  try dsimp only
  repeat' first
    | (with_reducible
        first
          | assumption | intro _ | apply keep_State_answerRead | apply keep_State_log | apply keep_ite)

theorem keep_execRcRead {s0 : State} (i off : Nat) (wide : Bool) (s : State) (hs : Keep s0 s) : KeepA s0 (execRcRead i off wide s) := by
  unfold execRcRead
  refine keep_next (keep_hostRead _ _ ?_)
  split
  · exact keep_State_readWide _ _ _ hs
  · exact keep_State_readLow _ _ _ hs

theorem keep_execHalfReadLatch {s0 : State} (i off : Nat) (s : State) (hs : Keep s0 s) : KeepA s0 (execHalfReadLatch i off s) := by
  unfold execHalfReadLatch
  refine keep_next (keep_hostRead _ _ ?_)
  split
  · exact keep_State_readHigh _ _ _ hs
  · exact keep_State_readLow _ _ _ hs

theorem keep_State_attnWrite {s0 : State} (s : State) (w : Word) (hs : Keep s0 s) :
    Keep s0 (State.attnWrite s w) := by
  unfold State.attnWrite
  try dsimp only
  repeat' first
    | (with_reducible
        first
          | assumption | intro _ | apply keep_State_setRg | apply keep_State_cause | apply keep_ite)

theorem keep_State_putNew {s0 : State} (s : State) (r : RegName) (j k : Nat) (w : Word) (hs : Keep s0 s) :
    Keep s0 (State.putNew s r j k w) := by
  unfold State.putNew
  try dsimp only
  repeat' first
    | (with_reducible
        first
          | assumption | intro _ | apply keep_State_setRg)

theorem keep_State_slotBadOp {s0 : State} (s : State) (c : Nat) (w : Word) (hs : Keep s0 s) :
    Keep s0 (State.slotBadOp s c w) := by
  unfold State.slotBadOp
  try dsimp only
  repeat' first
    | (with_reducible
        first
          | assumption | intro _ | apply keep_State_forward | apply keep_State_slotAnswer)

theorem keep_State_preBadWrite {s0 : State} (s : State) (c : Nat) (w : Word) (hs : Keep s0 s) :
    Keep s0 (State.preBadWrite s c w) := by
  unfold State.preBadWrite
  try dsimp only
  repeat' first
    | (with_reducible
        first
          | assumption | intro _ | apply keep_State_forward | apply keep_State_preAnswer | apply keep_State_log
          | apply keep_ite)

theorem keep_State_cfgBadWrite {s0 : State} (s : State) (i : Nat) (hs : Keep s0 s) :
    Keep s0 (State.cfgBadWrite s i) := by
  unfold State.cfgBadWrite
  try dsimp only
  repeat' first
    | (with_reducible
        first
          | assumption | intro _ | apply keep_State_cfgAnswer)

theorem keep_cfgWrite {s0 : State} (i : Nat) (w : Word) (s : State) (hs : Keep s0 s) :
    KeepA s0 (cfgWrite i w s) := by
  unfold cfgWrite
  try dsimp only
  repeat' first
    | (with_reducible
        first
          | assumption | intro _ | apply keep_next | apply keep_execCfgOpen | apply keep_execCfgValidate
          | apply keep_execCfgCommit | apply keep_execCfgAbandon | apply keep_execCfgRollback
          | apply keep_execCfgCancel | apply keep_State_cfgBadWrite)
    | dsimp only | split

theorem keep_slotWrite {s0 : State} (c : Nat) (w : Word) (s : State) (hs : Keep s0 s) :
    KeepA s0 (slotWrite c w s) := by
  unfold slotWrite
  try dsimp only
  repeat' first
    | (with_reducible
        first
          | assumption | intro _ | apply keep_next | apply keep_execSlotRemote | apply keep_execSlotPark
          | apply keep_execSlotUnpark | apply keep_execSlotSetTally | apply keep_execSlotSetTally2
          | apply keep_State_slotBadOp)
    | dsimp only | split

theorem keep_preWrite {s0 : State} (c : Nat) (w : Word) (s : State) (hs : Keep s0 s) :
    KeepA s0 (preWrite c w s) := by
  unfold preWrite
  try dsimp only
  repeat' first
    | (with_reducible
        first
          | assumption | intro _ | apply keep_next | apply keep_execPreemptSave | apply keep_execPreemptRestore
          | apply keep_execPreemptAbandon | apply keep_execPreemptWithdraw | apply keep_State_preBadWrite)
    | dsimp only | split

theorem keep_ctxWrite {s0 : State} (k d : Nat) (w : Word) (s : State) (hs : Keep s0 s) :
    KeepA s0 (ctxWrite k d w s) := by
  unfold ctxWrite
  try dsimp only
  repeat' first
    | (with_reducible
        first
          | assumption | intro _ | apply keep_next | apply keep_execRetry | apply keep_execSkip
          | apply keep_execResumeAt | apply keep_execHalt)
    | dsimp only | split

theorem keep_State_subWrite {s0 : State} (s : State) (u : Nat) (w : Word) (hs : Keep s0 s) :
    Keep s0 (State.subWrite s u w) := by
  unfold State.subWrite
  try dsimp only
  repeat' first
    | (with_reducible
        first
          | assumption | intro _ | apply keep_State_putNew | apply keep_State_fillBuckets | apply keep_ite)

theorem keep_writeReady {s0 : State} (i off : Nat) (r : RegName) (j k : Nat) (w : Word) (s : State) (hs : Keep s0 s) :
    KeepA s0 (writeReady i off r j k w s) := by
  unfold writeReady
  try dsimp only
  repeat' first
    | (with_reducible
        first
          | assumption | intro _ | apply keep_next | apply keep_execCcRestart | apply keep_State_watchdogWrite
          | apply keep_cfgWrite | apply keep_execAcctLatch | apply keep_execDiscard | apply keep_execScheckRequest
          | apply keep_execObsAdd | apply keep_execReplay | apply keep_preWrite | apply keep_execTrnSubmit
          | apply keep_execTrnAbort | apply keep_execSubPoliceWrite | apply keep_State_subWrite
          | apply keep_State_kvCmd | apply keep_slotWrite | apply keep_State_forward | apply keep_State_putNew
          | apply keep_execStepSubmit | apply keep_execEmitSubmit | apply keep_execTreeConfigWrite
          | apply keep_execRingConfigWrite | apply keep_execRingDoorbell | apply keep_execSrcIndexWrite
          | apply keep_execKvTableWrite | apply keep_execKvStageWrite | apply keep_execRouterDirWrite
          | apply keep_ctxWrite)
    | dsimp only | split

theorem keep_State_regWrite {s0 : State} (s : State) (i off : Nat) (w : Word) (hs : Keep s0 s) :
    KeepA s0 (State.regWrite s i off w) := by
  unfold State.regWrite
  try dsimp only
  repeat' first
    | (with_reducible
        first
          | assumption | intro _ | apply keepA_ite | apply keep_next | apply keep_execHubResetCold
          | apply keep_execHubResetWarm | apply keep_State_putNew | apply keep_State_fixAttn
          | apply keep_State_attnWrite | apply keep_execHqCfgWrite | apply keep_execHqSqDoorbell
          | apply keep_execHqCqDoorbell | apply keep_execCfgStagedWrite | apply keep_writeReady | apply keep_ite
          | apply keep_ite1)
    | dsimp only | split

theorem keep_execRegisterWrite {s0 : State} (i off : Nat) (w : Word) (s : State) (hs : Keep s0 s) :
    KeepA s0 (execRegisterWrite i off w s) := by
  unfold execRegisterWrite
  try dsimp only
  repeat' first
    | (with_reducible
        first
          | assumption | intro _ | apply keepA_ite | apply keep_next | apply keep_State_regWrite)

theorem keep_execForwardedWrite {s0 : State} (i off : Nat) (w : Word) (s : State) (hs : Keep s0 s) :
    KeepA s0 (execForwardedWrite i off w s) := by
  unfold execForwardedWrite
  have h := keep_State_regWrite { s with pair := { s.pair with applying := true } } i off w (by simpa only [keep_mk] using hs)
  refine keepA_ite hs ?_
  dsimp only
  split
  · next u e =>
    rw [e] at h
    exact keep_next (by simp only [keep_mk]; exact h)
  · exact h

theorem keep_execAttnRaise {s0 : State} (i : Nat) (w : Word) (s : State) (hs : Keep s0 s) :
    KeepA s0 (execAttnRaise i w s) := by
  unfold execAttnRaise
  try dsimp only
  repeat' first
    | (with_reducible
        first
          | assumption | intro _ | apply keepA_ite | apply keep_next | apply keep_State_attnWrite)

theorem keep_State_startPulse {s0 : State} (s : State) (hs : Keep s0 s) :
    Keep s0 (State.startPulse s) := by
  unfold State.startPulse
  try dsimp only
  repeat' first
    | (with_reducible
        first
          | assumption | intro _)
    | simp only [keep_mk]

theorem keep_execAttnPulseStart {s0 : State} (s : State) (hs : Keep s0 s) :
    KeepA s0 (execAttnPulseStart s) := by
  unfold execAttnPulseStart
  try dsimp only
  repeat' first
    | (with_reducible
        first
          | assumption | intro _ | apply keepA_ite | apply keep_next | apply keep_State_startPulse)

theorem keep_execAttnPulseRelease {s0 : State} (s : State) (hs : Keep s0 s) :
    KeepA s0 (execAttnPulseRelease s) := by
  unfold execAttnPulseRelease
  try dsimp only
  repeat' first
    | (with_reducible
        first
          | assumption | intro _ | apply keepA_ite | apply keep_next | apply keep_ite | apply keep_ite1)
    | simp only [keep_mk]

theorem keep_execAttnRenotify {s0 : State} (s : State) (hs : Keep s0 s) :
    KeepA s0 (execAttnRenotify s) := by
  unfold execAttnRenotify
  try dsimp only
  repeat' first
    | (with_reducible
        first
          | assumption | intro _ | apply keepA_ite | apply keep_next | apply keep_State_startPulse)

theorem keep_State_mgmtAnswer {s0 : State} (s : State) (v : Option Nat) (hs : Keep s0 s) :
    Keep s0 (State.mgmtAnswer s v) := by
  unfold State.mgmtAnswer
  try dsimp only
  repeat' first
    | (with_reducible
        first
          | assumption | intro _)
    | simp only [keep_mk]

theorem keep_State_mgmtRefuse {s0 : State} (s : State) (hs : Keep s0 s) :
    Keep s0 (State.mgmtRefuse s) := by
  unfold State.mgmtRefuse
  try dsimp only
  repeat' first
    | (with_reducible
        first
          | assumption | intro _ | apply keep_State_logLimited)

theorem keep_execMgmtTransfer {s0 : State} (m : MgmtXfer) (s : State) (hs : Keep s0 s) :
    KeepA s0 (execMgmtTransfer m s) := by
  unfold execMgmtTransfer
  try dsimp only
  repeat' first
    | (with_reducible
        first
          | assumption | intro _ | apply keepA_ite | apply keep_next | apply keep_State_mgmtAnswer
          | apply keep_State_regWrite | apply keep_State_mgmtRefuse | apply keep_State_readWide)

theorem keep_execEntdaa {s0 : State} (a : Nat) (s : State) (hs : Keep s0 s) :
    KeepA s0 (execEntdaa a s) := by
  unfold execEntdaa
  try dsimp only
  repeat' first
    | (with_reducible
        first
          | assumption | intro _ | apply keepA_ite | apply keep_next | apply keep_ite | apply keep_ite1)
    | simp only [keep_mk]

theorem keep_execSetdasa {s0 : State} (static a : Nat) (s : State) (hs : Keep s0 s) :
    KeepA s0 (execSetdasa static a s) := by
  unfold execSetdasa
  try dsimp only
  repeat' first
    | (with_reducible
        first
          | assumption | intro _ | apply keepA_ite | apply keep_next | apply keep_ite | apply keep_ite1)
    | simp only [keep_mk]

theorem keep_execRstdaa {s0 : State} (s : State) (hs : Keep s0 s) :
    KeepA s0 (execRstdaa s) := by
  unfold execRstdaa
  try dsimp only
  repeat' first
    | (with_reducible
        first
          | assumption | intro _ | apply keepA_ite | apply keep_next | apply keep_ite | apply keep_ite1)
    | simp only [keep_mk]

theorem keep_State_i3cGet {s0 : State} (s : State) (v : Nat) (hs : Keep s0 s) :
    Keep s0 (State.i3cGet s v) := by
  unfold State.i3cGet
  try dsimp only
  repeat' first
    | (with_reducible
        first
          | assumption | intro _ | apply keep_State_mgmtAnswer | apply keep_ite)

theorem keep_execGetpid {s0 : State} (s : State) (hs : Keep s0 s) :
    KeepA s0 (execGetpid s) := by
  unfold execGetpid
  try dsimp only
  repeat' first
    | (with_reducible
        first
          | assumption | intro _ | apply keep_next | apply keep_State_i3cGet)

theorem keep_execGetbcr {s0 : State} (s : State) (hs : Keep s0 s) :
    KeepA s0 (execGetbcr s) := by
  unfold execGetbcr
  try dsimp only
  repeat' first
    | (with_reducible
        first
          | assumption | intro _ | apply keep_next | apply keep_State_i3cGet)

theorem keep_execGetdcr {s0 : State} (s : State) (hs : Keep s0 s) :
    KeepA s0 (execGetdcr s) := by
  unfold execGetdcr
  try dsimp only
  repeat' first
    | (with_reducible
        first
          | assumption | intro _ | apply keep_next | apply keep_State_i3cGet)

theorem keep_execGetstatus {s0 : State} (s : State) (hs : Keep s0 s) :
    KeepA s0 (execGetstatus s) := by
  unfold execGetstatus
  try dsimp only
  repeat' first
    | (with_reducible
        first
          | assumption | intro _ | apply keep_next | apply keep_State_fresh | apply keep_State_i3cGet)

theorem keep_State_doeAnswer {s0 : State} (s : State) (d : DoeResp) (hs : Keep s0 s) :
    Keep s0 (State.doeAnswer s d) := by
  unfold State.doeAnswer
  try dsimp only
  repeat' first
    | (with_reducible
        first
          | assumption | intro _ | apply keep_ite | apply keep_ite1)
    | simp only [keep_mk]

theorem keep_State_spdm {s0 : State} (s : State) (r : SpdmReq) (d : DoeResp) (hs : Keep s0 s) :
    Keep s0 (State.spdm s r d) := by
  unfold State.spdm
  try dsimp only
  repeat' first
    | (with_reducible
        first
          | assumption | intro _ | apply keep_State_doeAnswer | apply keep_ite)

theorem keep_execDoeDiscovery {s0 : State} (_r : SpdmReq) (s : State) (hs : Keep s0 s) :
    KeepA s0 (execDoeDiscovery _r s) := by
  unfold execDoeDiscovery
  try dsimp only
  repeat' first
    | (with_reducible
        first
          | assumption | intro _ | apply keep_next | apply keep_State_doeAnswer)

theorem keep_execGetVersion {s0 : State} (_r : SpdmReq) (s : State) (hs : Keep s0 s) :
    KeepA s0 (execGetVersion _r s) := by
  unfold execGetVersion
  try dsimp only
  repeat' first
    | (with_reducible
        first
          | assumption | intro _ | apply keepA_ite | apply keep_next | apply keep_State_doeAnswer | apply keep_ite
          | apply keep_ite1)
    | simp only [keep_mk]

theorem keep_execGetCapabilities {s0 : State} (r : SpdmReq) (s : State) (hs : Keep s0 s) :
    KeepA s0 (execGetCapabilities r s) := by
  unfold execGetCapabilities
  try dsimp only
  repeat' first
    | (with_reducible
        first
          | assumption | intro _ | apply keepA_ite | apply keep_next | apply keep_State_doeAnswer | apply keep_ite
          | apply keep_ite1)
    | simp only [keep_mk]

theorem keep_execNegotiateAlgorithms {s0 : State} (r : SpdmReq) (s : State) (hs : Keep s0 s) :
    KeepA s0 (execNegotiateAlgorithms r s) := by
  unfold execNegotiateAlgorithms
  try dsimp only
  repeat' first
    | (with_reducible
        first
          | assumption | intro _ | apply keepA_ite | apply keep_next | apply keep_State_doeAnswer | apply keep_ite
          | apply keep_ite1)
    | simp only [keep_mk]

theorem keep_execGetDigests {s0 : State} (r : SpdmReq) (s : State) (hs : Keep s0 s) :
    KeepA s0 (execGetDigests r s) := by
  unfold execGetDigests
  try dsimp only
  repeat' first
    | (with_reducible
        first
          | assumption | intro _ | apply keep_next | apply keep_State_spdm)

theorem keep_execGetCertificate {s0 : State} (r : SpdmReq) (s : State) (hs : Keep s0 s) :
    KeepA s0 (execGetCertificate r s) := by
  unfold execGetCertificate
  try dsimp only
  repeat' first
    | (with_reducible
        first
          | assumption | intro _ | apply keepA_ite | apply keep_next | apply keep_State_spdm)

theorem keep_execChallenge {s0 : State} (r : SpdmReq) (s : State) (hs : Keep s0 s) :
    KeepA s0 (execChallenge r s) := by
  unfold execChallenge
  try dsimp only
  repeat' first
    | (with_reducible
        first
          | assumption | intro _ | apply keepA_ite | apply keep_next | apply keep_State_spdm | apply keep_State_fresh)

theorem keep_execGetMeasurements {s0 : State} (r : SpdmReq) (s : State) (hs : Keep s0 s) :
    KeepA s0 (execGetMeasurements r s) := by
  unfold execGetMeasurements
  try dsimp only
  repeat' first
    | (with_reducible
        first
          | assumption | intro _ | apply keepA_ite | apply keep_next | apply keep_State_fresh | apply keep_State_spdm
          | apply keep_ite)

theorem keep_State_coreAnswer {s0 : State} (s : State) (v : Nat) (trap : Option (Nat × Nat)) (hs : Keep s0 s) :
    Keep s0 (State.coreAnswer s v trap) := by
  unfold State.coreAnswer
  try dsimp only
  repeat' first
    | (with_reducible
        first
          | assumption | intro _)
    | simp only [keep_mk]

theorem keep_State_coreRead {s0 : State} (s : State) (x : CoreAccess) (v p : Nat) (hs : Keep s0 s) :
    Keep s0 (State.coreRead s x v p) := by
  unfold State.coreRead
  try dsimp only
  repeat' first
    | (with_reducible
        first
          | assumption | intro _ | apply keep_State_coreAnswer | apply keep_State_log | apply keep_ite)

theorem keep_State_coreWrite {s0 : State} (s : State) (x : CoreAccess) (o : Nat) (hs : Keep s0 s) :
    KeepA s0 (State.coreWrite s x o) := by
  unfold State.coreWrite
  try dsimp only
  repeat' first
    | (with_reducible
        first
          | assumption | intro _ | apply keepA_ite | apply keep_next | apply keep_State_regWrite
          | apply keep_State_wordOf | apply keep_ite | apply keep_ite1)
    | dsimp only | split

theorem keep_State_coreLoad {s0 : State} (s : State) (x : CoreAccess) (o : Nat) (hs : Keep s0 s) :
    Keep s0 (State.coreLoad s x o).1 := by
  unfold State.coreLoad
  try dsimp only
  repeat' first
    | (with_reducible
        first
          | assumption | intro _ | apply keep_State_readWide | apply keep_State_readLow | apply keep_State_readHigh
          | apply keep_ite | apply keep_ite1)

theorem keep_execControlCoreAccess {s0 : State} (x : CoreAccess) (s : State) (hs : Keep s0 s) :
    KeepA s0 (execControlCoreAccess x s) := by
  unfold execControlCoreAccess
  try dsimp only
  repeat' first
    | (with_reducible
        first
          | assumption | intro _ | apply keepA_ite | apply keep_next | apply keep_State_store
          | apply keep_State_coreAnswer | apply keep_State_coreWrite | apply keep_State_coreLoad
          | apply keep_State_coreRead | apply keep_State_log | apply keep_State_softWrite
          | apply keep_State_flashGate | apply keep_State_readMem | apply keep_ite)

-- ===== Sys2Proof/Machine/Tick.lean =====

theorem keep_State_chargeHs {s0 : State} (s : State) (p k d : Nat) (hs : Keep s0 s) :
    Keep s0 (State.chargeHs s p k d) := by
  unfold State.chargeHs
  try dsimp only
  repeat' first
    | (with_reducible
        first
          | assumption | intro _ | apply keep_State_acct | apply keep_foldl)

theorem keep_State_tickPart {s0 : State} (s : State) (p : Nat) (hs : Keep s0 s) :
    Keep s0 (State.tickPart s p) := by
  unfold State.tickPart
  try dsimp only
  repeat' first
    | (with_reducible
        first
          | assumption | intro _ | apply keep_State_settleBoundary | apply keep_State_setPart | apply keep_State_setF
          | apply keep_State_chargeHs | apply keep_ite | apply keep_ite1 | apply keep_foldl)

theorem keep_State_settleJobs {s0 : State} (s : State) (hs : Keep s0 s) :
    Keep s0 (State.settleJobs s) := by
  unfold State.settleJobs
  try dsimp only
  repeat' first
    | (with_reducible
        first
          | assumption | intro _ | apply keep_State_pwSettle | apply keep_State_sqSettle | apply keep_ite
          | apply keep_ite1 | apply keep_foldl)

theorem keep_State_tick {s0 : State} (s : State) (hs : Keep s0 s) :
    Keep s0 (State.tick s) := by
  unfold State.tick
  try dsimp only
  repeat' first
    | (with_reducible
        first
          | assumption | intro _ | apply keep_State_setF | apply keep_State_tickPart | apply keep_State_settlePair
          | apply keep_State_pumpFabric | apply keep_State_settleJobs | apply keep_ite | apply keep_ite1
          | apply keep_foldl)

end Sys2Proof.Machine
end

