-- ==== Sys2Proof/Laws/Leaves.lean ====
section
/-!
SUPPORT. Sys2Proof/Laws/Leaves.lean: which bytes of local memory each operation on it leaves: reads leave all of them, a write those it does not
enable, and the drum merge buffer those that its entries do not hold.
-/
namespace Sys2Proof.Machine

open Sys2Proof (CtxId Fields)

/-- The byte list is canonical and the bitmap word of byte b is readable. -/
structure Clear (b : Nat) (s : State) : Prop where
  wf : mwf (0 : BitVec 8) s.mem.cells = true
  wpb : nmem s.mem.wpbUe (b / 262144) = false

/-- From s to t byte b stays, with the kits and what makes b readable. -/
structure Leaves (b : Nat) (s t : State) : Prop where
  kits : t.kits = s.kits
  keep : Clear b s → Clear b t
  byte : Clear b s → t.mem.byteAt b = s.mem.byteAt b

/-- From s to t no merge buffer changes. -/
def SameMerge (s t : State) : Prop := ∀ k d, (t.drum k d).merge = (s.drum k d).merge

/-- From s to t no byte, no written page and no unreadable bitmap word changes. -/
structure SameCells (s t : State) : Prop where
  kits : t.kits = s.kits
  merge : SameMerge s t
  cells : t.mem.cells = s.mem.cells
  written : t.mem.written = s.mem.written
  wpb : t.mem.wpbUe = s.mem.wpbUe

theorem SameMerge.refl (s : State) : SameMerge s s := fun _ _ => rfl
theorem SameMerge.trans {a b c : State} (h : SameMerge a b) (g : SameMerge b c) : SameMerge a c := fun k d => (g k d).trans (h k d)
theorem sameMerge_of_drums {a b : State} (h : b.drums = a.drums) : SameMerge a b := fun k d => by simp only [State.drum, h]

theorem SameCells.refl (s : State) : SameCells s s := ⟨rfl, SameMerge.refl s, rfl, rfl, rfl⟩
theorem SameCells.trans {a b c : State} (h : SameCells a b) (g : SameCells b c) : SameCells a c :=
  ⟨g.1.trans h.1, h.2.trans g.2, g.3.trans h.3, g.4.trans h.4, g.5.trans h.5⟩
theorem SameCells.of_eq {a b : State} (h1 : b.kits = a.kits) (h2 : b.drums = a.drums) (h3 : b.mem = a.mem) : SameCells a b :=
  ⟨h1, sameMerge_of_drums h2, by rw [h3], by rw [h3], by rw [h3]⟩

theorem Leaves.refl (b : Nat) (s : State) : Leaves b s s := ⟨rfl, id, fun _ => rfl⟩
theorem Leaves.trans {b : Nat} {x y z : State} (h : Leaves b x y) (g : Leaves b y z) : Leaves b x z :=
  ⟨g.kits.trans h.kits, fun c => g.keep (h.keep c), fun c => (g.byte (h.keep c)).trans (h.byte c)⟩
theorem SameCells.leaves {s t : State} (h : SameCells s t) (b : Nat) : Leaves b s t :=
  ⟨h.kits, fun c => ⟨by rw [h.cells]; exact c.wf, by rw [h.wpb]; exact c.wpb⟩,
    fun _ => by unfold Mem.byteAt Mem.isWritten; rw [h.cells, h.written]⟩
theorem leaves_foldl {α : Type} {b : Nat} {f : State → α → State} (h : ∀ s x, Leaves b s (f s x)) :
    ∀ (l : List α) (s : State), Leaves b s (l.foldl f s)
  | [], s => Leaves.refl b s
  | x :: r, s => (h s x).trans (leaves_foldl h r (f s x))
theorem same_foldl {α : Type} {f : State → α → State} (h : ∀ s x, SameCells s (f s x)) :
    ∀ (l : List α) (s : State), SameCells s (l.foldl f s)
  | [], s => SameCells.refl s
  | x :: r, s => (h s x).trans (same_foldl h r (f s x))

-- ===== Operations that change no byte =====

theorem same_log (s : State) (src : Nat) (e : EvName) (l : List Nat) (p u : Option Nat) (b : Bool) : SameCells s (s.log src e l p u b) :=
  SameCells.of_eq (State.log_kits _ _ _ _ _ _ _) (State.log_drums _ _ _ _ _ _ _) (State.log_mem _ _ _ _ _ _ _)

theorem same_count (s : State) (f : Fld) (i j n : Nat) : SameCells s (s.count f i j n) := SameCells.of_eq rfl rfl rfl

theorem same_observe (s : State) (unit reason : Nat) : SameCells s (s.observe unit reason) := by
  have hq : ∀ (t : State) (k u : Nat), SameCells t (t.queueCheck k u) := fun _ _ _ => SameCells.of_eq rfl rfl rfl
  simp only [State.observe]
  split
  · exact same_log _ _ _ _ _ _ _
  · split
    · have hr : ∀ (t : State) (r : RegName) (i j : Nat) (w : BitVec 64), SameCells t (t.setRg r i j w) := fun _ _ _ _ _ => SameCells.of_eq rfl rfl rfl
      refine SameCells.trans (SameCells.trans ?_ (same_log _ _ _ _ _ _ _)) (hq _ _ _)
      iterate 4 refine SameCells.trans ?_ (hr _ _ _ _ _)
      exact hr _ _ _ _ _
    · exact (same_log _ _ _ _ _ _ _).trans (hq _ _ _)

theorem same_countCe (s : State) (a n : Nat) : SameCells s (s.countCe a n) := by
  have hd : ∀ (t : State) (k d : Nat), SameCells t (t.setDrum k d (fun r => { r with ceCount := r.ceCount + n })) := by
    intro t k d
    refine ⟨rfl, fun i j => ?_, rfl, rfl, rfl⟩
    simp only [State.drum, State.setDrum, mupd, mget_mput]
    split
    · next h => rw [h]
    · rfl
  simp only [State.countCe]
  split
  · split
    · exact ((same_count s _ _ _ _).trans (hd _ _ _)).trans (same_observe _ _ _)
    · exact (same_count s _ _ _ _).trans (hd _ _ _)
  · split
    · split
      · refine (same_count s F.INT_ECC_CE (memOf a) 0 n).trans (SameCells.trans ?_ (same_log _ _ _ _ _ _ _))
        exact SameCells.of_eq rfl rfl rfl
      · refine (same_count s F.INT_ECC_CE (memOf a) 0 n).trans ?_
        exact SameCells.of_eq rfl rfl rfl
    · exact same_count s _ _ _ _

theorem same_badSlot (s : State) (a : Nat) : SameCells s (s.badSlot a) := by
  simp only [State.badSlot]
  split
  · exact SameCells.of_eq rfl rfl rfl
  · split
    · exact SameCells.of_eq rfl rfl rfl
    · exact SameCells.refl s

theorem same_touchGranule (s : State) (unit g : Nat) : SameCells s (s.touchGranule unit g) := by
  have h0 : SameCells s (if (s.mem.ce.filter (fun w => decide (w / 4 = g))).length = 0 then s else
      { (s.countCe (32 * g) (s.mem.ce.filter (fun w => decide (w / 4 = g))).length) with
        mem := { s.mem with ce := ndelRange s.mem.ce (4 * g) 4 } }) := by
    split
    · exact SameCells.refl s
    · have := same_countCe s (32 * g) (s.mem.ce.filter (fun w => decide (w / 4 = g))).length
      exact ⟨this.kits, this.merge, rfl, rfl, rfl⟩
  simp only [State.touchGranule]
  generalize (if (s.mem.ce.filter (fun w => decide (w / 4 = g))).length = 0 then s else _) = x at *
  split
  · refine h0.trans (SameCells.trans (b := { x with mem := x.mem.mark g }) ⟨rfl, SameMerge.refl _, rfl, rfl, rfl⟩ ?_)
    exact ((same_count _ _ _ _ _).trans (same_badSlot _ _)).trans (same_log _ _ _ _ _ _ _)
  · exact h0

theorem same_touch (s : State) (unit a n : Nat) : SameCells s (s.touch unit a n) := by
  simp only [State.touch]
  exact same_foldl (f := fun s g => s.touchGranule unit g) (fun s g => same_touchGranule s unit g) _ s

theorem same_touchMap (s : State) (u : Nat) : SameCells s (s.touchMap u) := by
  have h := same_touch s (unitHub 4) (s.f F.FLS_MAP_BASE_BASE 0 0 + 8 * u) 8
  simp only [State.touchMap]
  split
  · exact (h.trans (SameCells.of_eq (b := { s.touch (unitHub 4) (s.f F.FLS_MAP_BASE_BASE 0 0 + 8 * u) 8 with
      flash := { (s.touch (unitHub 4) (s.f F.FLS_MAP_BASE_BASE 0 0 + 8 * u) 8).flash with
        badMap := nins (s.touch (unitHub 4) (s.f F.FLS_MAP_BASE_BASE 0 0 + 8 * u) 8).flash.badMap u } }) rfl rfl rfl)).trans (same_log _ _ _ _ _ _ _)
  · exact h

theorem same_present (s : State) (q : Due) : SameCells s (s.present q) := by
  simp only [State.present]
  split
  · exact SameCells.of_eq rfl rfl rfl
  · exact SameCells.of_eq rfl rfl rfl

theorem same_presentHbm (s : State) (stream xfer part : Nat) (wr : Bool) (l : List (Nat × Nat)) :
    SameCells s (s.presentHbm stream xfer part wr l) := by
  simp only [State.presentHbm]
  have h := same_foldl (f := fun s (c : Nat × Nat) => s.present
    { stream := stream, xfer := xfer, part := part, res := b2n wr, kit := c.1 / hbmKit, bytes := c.2 })
    (fun s c => same_present s _) (s.costsOf stream wr l) s
  split
  · exact ⟨h.1, h.2, h.3, h.4, h.5⟩
  · exact h

theorem same_writeGranule (s : State) (unit a n en p g : Nat) : SameCells s (s.writeGranule unit a n en p g) := by
  have hf : ∀ (l : List Nat) (m : Mem) (c : Nat → Bool) (w : Nat → Nat),
      let r := l.foldl (fun (m : Mem) i => if c i then { m with ue := ndel m.ue (w i), ce := ndel m.ce (w i) } else m) m
      r.cells = m.cells ∧ r.written = m.written ∧ r.wpbUe = m.wpbUe := by
    intro l
    induction l with
    | nil => intro m c w; exact ⟨rfl, rfl, rfl⟩
    | cons i r ih =>
      intro m c w
      have := ih (if c i then { m with ue := ndel m.ue (w i), ce := ndel m.ce (w i) } else m) c w
      rw [List.foldl_cons]
      refine ⟨this.1.trans ?_, this.2.1.trans ?_, this.2.2.trans ?_⟩ <;> split <;> rfl
  simp only [State.writeGranule]
  split
  · exact SameCells.refl s
  · split
    · exact ⟨rfl, SameMerge.refl _, rfl, rfl, rfl⟩
    · split
      · exact ⟨rfl, SameMerge.refl _, rfl, rfl, rfl⟩
      · have h0 : SameCells s (if ((List.range 4).any fun i => partWord a n en (4 * g + i)) = true then s.touchGranule unit g else s) := by
          split
          · exact same_touchGranule _ _ _
          · exact SameCells.refl s
        generalize (if ((List.range 4).any fun i => partWord a n en (4 * g + i)) = true then s.touchGranule unit g else s) = x at *
        have := hf (List.range 4) x.mem (fun i => (List.range 8).all (fun j => decide (a ≤ 8 * (4 * g + i) + j) && decide (8 * (4 * g + i) + j < a + n) && en.testBit (8 * (4 * g + i) + j - a))) (fun i => 4 * g + i)
        exact h0.trans ⟨rfl, SameMerge.refl _, this.1, this.2.1, this.2.2⟩

theorem same_dirtied (s : State) (a n : Nat) : SameCells s (s.dirtied a n) := by
  simp only [State.dirtied]
  split
  · exact SameCells.of_eq rfl rfl rfl
  · exact SameCells.refl s

-- ===== Reads and writes of one page =====

theorem nmem_nins (m : NSet) (k x : Nat) : nmem (nins m k) x = (decide (x = k) || nmem m x) := by
  have h := mem_nins m k x
  rw [← nmem_iff, ← nmem_iff] at h
  cases h1 : nmem (nins m k) x <;> cases h2 : nmem m x <;> simp_all

theorem nmem_ninsRange (m : NSet) (lo n x : Nat) : nmem (ninsRange m lo n) x = (decide (lo ≤ x ∧ x < lo + n) || nmem m x) := by
  induction n generalizing m with
  | zero => simp [ninsRange]
  | succ n ih =>
    rw [ninsRange, ih, nmem_nins]
    by_cases h : x = lo + n
    · subst h; simp
    · by_cases h2 : lo ≤ x ∧ x < lo + n
      · have h3 : lo ≤ x ∧ x < lo + (n + 1) := by omega
        simp [h2, h3]
      · have h3 : ¬ (lo ≤ x ∧ x < lo + (n + 1)) := by omega
        rw [decide_eq_false h2, decide_eq_false h3, decide_eq_false h]; rfl

theorem nmem_ndel (m : NSet) (k x : Nat) (h : nmem m x = false) : nmem (ndel m k) x = false := by
  by_contra hc
  rw [Bool.not_eq_false, nmem_iff, mem_ndel] at hc
  rw [← nmem_iff] at hc
  rw [hc.1] at h; cases h

theorem leaves_touchBitmap (b : Nat) (s : State) (a : Nat) : Leaves b s (s.touchBitmap a) := by
  unfold State.touchBitmap
  dsimp only
  split
  · next h =>
    refine Leaves.trans ?_ ((same_log _ _ _ _ _ _ _).leaves b)
    have hne : Clear b s → b / 262144 ≠ a / 262144 := by
      intro c e
      have := c.wpb
      rw [e, h.2] at this; cases this
    refine ⟨rfl, fun c => ⟨cellsWrite_wf _ _ _ _ c.wf, nmem_ndel _ _ _ c.wpb⟩, fun c => ?_⟩
    have hb := hne c
    have h1 : ¬ (262144 * (a / 262144) ≤ b ∧ b < 262144 * (a / 262144) + 262144) := by omega
    have h2 : ¬ (a / 262144 * 64 ≤ b / 4096 ∧ b / 4096 < a / 262144 * 64 + 64) := by omega
    show (Mem.byteAt _ b) = _
    unfold Mem.byteAt Mem.isWritten Mem.markRange
    dsimp only
    rw [nmem_ninsRange, mget_cellsWrite, if_neg h1, decide_eq_false h2, Bool.false_or]
  · exact Leaves.refl b s

theorem sameMerge_touchBitmap (s : State) (a : Nat) : SameMerge s (s.touchBitmap a) := by
  unfold State.touchBitmap
  dsimp only
  split
  · exact (sameMerge_of_drums rfl).trans (same_log _ _ _ _ _ _ _).merge
  · exact SameMerge.refl s

theorem leaves_readPage (b : Nat) (s : State) (unit a n : Nat) : Leaves b s (s.readPage unit a n).1 := by
  unfold State.readPage
  split
  · exact Leaves.refl b s
  · split
    · exact (same_touchMap _ _).leaves b
    · exact Leaves.refl b s
  · have h0 : Leaves b s (if s.region a = Region.hbm then s.touchBitmap a else s) := by
      split
      · exact leaves_touchBitmap _ _ _
      · exact Leaves.refl b s
    dsimp only
    generalize (if s.region a = Region.hbm then s.touchBitmap a else s) = x at *
    split
    · exact h0
    · exact h0.trans ((same_touch _ _ _ _).leaves b)

theorem leaves_foldl_fst {α β : Type} {b : Nat} {f : State × β → α → State × β} (h : ∀ q x, Leaves b q.1 (f q x).1) :
    ∀ (l : List α) (q : State × β), Leaves b q.1 (l.foldl f q).1
  | [], q => Leaves.refl b q.1
  | x :: r, q => (h q x).trans (leaves_foldl_fst h r (f q x))

/-- A read leaves every byte. -/
theorem leaves_readMem (b : Nat) (s : State) (unit a n : Nat) : Leaves b s (s.readMem unit a n).1 :=
  leaves_foldl_fst (f := fun (q : State × Data) (c : Nat × Nat) =>
    ((q.1.readPage unit c.1 c.2).1, q.2.join (s.canon a) (c.1 - s.canon a) (q.1.readPage unit c.1 c.2).2))
    (fun q c => leaves_readPage b q.1 unit c.1 c.2) _ (s, {})

theorem leaves_setDrum (b : Nat) (s : State) (k d : Nat) (g : Drum → Drum) : Leaves b s (s.setDrum k d g) :=
  ⟨rfl, fun c => ⟨c.wf, c.wpb⟩, fun _ => rfl⟩

theorem leaves_fetched (b : Nat) (s : State) (u : CtxId) : Leaves b s (s.fetched u) := by
  simp only [State.fetched, State.fetch]
  split
  · exact Leaves.refl b s
  · have h := leaves_readMem b s (unitMallet u.kit u.drum u.mallet) (s.fetchAddr u / 256 * 256) 256
    generalize s.readMem (unitMallet u.kit u.drum u.mallet) (s.fetchAddr u / 256 * 256) 256 = r at *
    exact h.trans (leaves_setDrum b r.1 _ _ _)

/-- A write of n bytes at a under the byte mask en does not enable byte b. -/
def Off (a n en b : Nat) : Prop := a ≤ b → b < a + n → en.testBit (b - a) = false

theorem leaves_fill (b : Nat) (s : State) (a : Nat) (ha : a < hbmEnd) (hw : s.mem.isWritten a = false) :
    Leaves b s { s with mem := { s.mem with cells := cellsWrite s.mem.cells (a / 4096 * 4096) 4096 0,
                                            poison := ndelRange s.mem.poison (a / 4096 * 4096 / 32) 128,
                                            ue := ndelRange s.mem.ue (a / 4096 * 4096 / 8) 512, ce := ndelRange s.mem.ce (a / 4096 * 4096 / 8) 512,
                                            written := nins s.mem.written (a / 4096) } } := by
  refine ⟨rfl, fun c => ⟨cellsWrite_wf _ _ _ _ c.wf, c.wpb⟩, fun _ => ?_⟩
  unfold Mem.byteAt Mem.isWritten at *
  dsimp only
  rw [nmem_nins, mget_cellsWrite]
  by_cases hp : b / 4096 = a / 4096
  · have hb : b < hbmEnd := by
      have : hbmEnd = 100663296 * 4096 := by decide
      omega
    rw [hp, hw, if_neg (by simp), if_pos (by omega), if_pos ⟨hb, rfl⟩, Nat.zero_div]
    rfl
  · rw [decide_eq_false hp, Bool.false_or, if_neg (show ¬ (a / 4096 * 4096 ≤ b ∧ b < a / 4096 * 4096 + 4096) by omega)]

theorem leaves_cells (b : Nat) (s : State) (a n v en : Nat) (h : Off a n en b) :
    Leaves b s { s with mem := { s.mem with cells := cellsWrite s.mem.cells a n (blend n en v (cellsRead s.mem.cells a n)) } } := by
  refine ⟨rfl, fun c => ⟨cellsWrite_wf _ _ _ _ c.wf, c.wpb⟩, fun c => ?_⟩
  have : mget (0 : BitVec 8) (cellsWrite s.mem.cells a n (blend n en v (cellsRead s.mem.cells a n))) b = mget 0 s.mem.cells b := by
    rw [mget_cellsWrite]
    split
    · next hb =>
      have e := blend_byte n en v (cellsRead s.mem.cells a n) (b - a) (by omega)
      rw [h hb.1 hb.2, if_neg (by simp), cellsRead_byte _ _ _ _ c.wf (by omega)] at e
      apply BitVec.eq_of_toNat_eq
      rw [BitVec.toNat_ofNat, show (2 : Nat) ^ 8 = 256 from rfl, e, show a + (b - a) = b by omega]
    · rfl
  unfold Mem.byteAt Mem.isWritten
  dsimp only
  rw [this]

theorem leaves_writePage (b : Nat) (s : State) (unit a n v en p : Nat) (h : Off a n en b) : Leaves b s (s.writePage unit a n v en p) := by
  unfold State.writePage
  split
  · exact Leaves.refl b s
  · exact Leaves.refl b s
  · dsimp only
    split
    · exact Leaves.refl b s
    · have h0 : Leaves b s (if s.region a = Region.hbm then s.touchBitmap a else s) := by
        split
        · exact leaves_touchBitmap _ _ _
        · exact Leaves.refl b s
      have hr : s.region a = .hbm → a < hbmEnd := by
        intro hr
        by_contra hn
        unfold State.region at hr
        rw [if_neg hn] at hr
        split at hr
        · cases hr
        · split at hr
          · split at hr
            · cases hr
            · unfold slotRegion at hr
              split at hr
              · cases hr
              · split at hr <;> cases hr
          · split at hr <;> cases hr
      generalize (if s.region a = Region.hbm then s.touchBitmap a else s) = x at *
      have h1 : Leaves b x (if s.region a = Region.hbm ∧ x.mem.isWritten a = false then
          { x with mem := { x.mem with cells := cellsWrite x.mem.cells (a / 4096 * 4096) 4096 0,
                                       poison := ndelRange x.mem.poison (a / 4096 * 4096 / 32) 128,
                                       ue := ndelRange x.mem.ue (a / 4096 * 4096 / 8) 512, ce := ndelRange x.mem.ce (a / 4096 * 4096 / 8) 512,
                                       written := nins x.mem.written (a / 4096) } } else x) := by
        split
        · next hc => exact leaves_fill b x a (hr hc.1) hc.2
        · exact Leaves.refl b x
      generalize (if s.region a = Region.hbm ∧ x.mem.isWritten a = false then _ else x) = y at *
      have h2 : Leaves b y ((List.range (granules a n)).foldl (fun s i => s.writeGranule unit a n en p (a / 32 + i)) y) :=
        leaves_foldl (fun s i => (same_writeGranule s unit a n en p (a / 32 + i)).leaves b) _ y
      generalize (List.range (granules a n)).foldl (fun s i => s.writeGranule unit a n en p (a / 32 + i)) y = z at *
      exact ((h0.trans h1).trans h2).trans ((leaves_cells b z a n v en h).trans ((same_dirtied _ _ _).leaves b))

theorem chunks_in (fuel a n : Nat) : ∀ c ∈ chunks fuel a n, a ≤ c.1 ∧ c.1 + c.2 ≤ a + n := by
  induction fuel generalizing a n with
  | zero => simp [chunks]
  | succ fuel ih =>
    intro c hc
    simp only [chunks] at hc
    split at hc
    · simp at hc
    · have := Nat.mod_lt a (show 0 < 4096 by norm_num)
      rcases List.mem_cons.1 hc with rfl | hc
      · dsimp only; omega
      · have := ih _ _ c hc; omega

theorem leaves_foldl_mem {α : Type} {b : Nat} {f : State → α → State} :
    ∀ (l : List α) (s : State), (∀ s, ∀ x ∈ l, Leaves b s (f s x)) → Leaves b s (l.foldl f s)
  | [], s, _ => Leaves.refl b s
  | x :: r, s, h => (h s x (by simp)).trans (leaves_foldl_mem r (f s x) (fun s y hy => h s y (by simp [hy])))

/-- A write leaves every byte that it does not enable. -/
theorem leaves_writeMem (b : Nat) (s : State) (unit a n v en p : Nat) (h : Off (s.canon a) n en b) : Leaves b s (s.writeMem unit a n v en p) := by
  unfold State.writeMem
  dsimp only
  refine leaves_foldl_mem _ s (fun t c hc => leaves_writePage b t unit c.1 c.2 _ _ _ ?_)
  have := chunks_in _ _ _ c hc
  intro h1 h2
  have := h (by omega) (by omega)
  rw [Nat.testBit_div_two_pow, show b - c.1 + (c.1 - s.canon a) = b - s.canon a by omega]
  exact this

-- ===== Merge buffers =====

theorem sameMerge_foldl {α : Type} {f : State → α → State} (h : ∀ s x, SameMerge s (f s x)) :
    ∀ (l : List α) (s : State), SameMerge s (l.foldl f s)
  | [], s => SameMerge.refl s
  | x :: r, s => (h s x).trans (sameMerge_foldl h r (f s x))

theorem sameMerge_readPage (s : State) (unit a n : Nat) : SameMerge s (s.readPage unit a n).1 := by
  unfold State.readPage
  split
  · exact SameMerge.refl s
  · split
    · exact (same_touchMap _ _).merge
    · exact SameMerge.refl s
  · have h0 : SameMerge s (if s.region a = Region.hbm then s.touchBitmap a else s) := by
      split
      · exact sameMerge_touchBitmap _ _
      · exact SameMerge.refl s
    dsimp only
    generalize (if s.region a = Region.hbm then s.touchBitmap a else s) = x at *
    split
    · exact h0
    · exact h0.trans (same_touch _ _ _ _).merge

theorem sameMerge_readMem (s : State) (unit a n : Nat) : SameMerge s (s.readMem unit a n).1 := by
  have : ∀ (l : List (Nat × Nat)) (q : State × Data), SameMerge q.1 (l.foldl (fun (q : State × Data) (c : Nat × Nat) =>
      ((q.1.readPage unit c.1 c.2).1, q.2.join (s.canon a) (c.1 - s.canon a) (q.1.readPage unit c.1 c.2).2)) q).1 := by
    intro l
    induction l with
    | nil => exact fun q => SameMerge.refl _
    | cons c r ih => exact fun q => (sameMerge_readPage _ _ _ _).trans (ih _)
  exact this _ (s, {})

theorem sameMerge_writePage (s : State) (unit a n v en p : Nat) : SameMerge s (s.writePage unit a n v en p) := by
  unfold State.writePage
  split
  · exact SameMerge.refl s
  · exact SameMerge.refl s
  · dsimp only
    split
    · exact SameMerge.refl s
    · have h0 : SameMerge s (if s.region a = Region.hbm then s.touchBitmap a else s) := by
        split
        · exact sameMerge_touchBitmap _ _
        · exact SameMerge.refl s
      generalize (if s.region a = Region.hbm then s.touchBitmap a else s) = x at *
      have h1 : SameMerge x (if s.region a = Region.hbm ∧ x.mem.isWritten a = false then
          { x with mem := { x.mem with cells := cellsWrite x.mem.cells (a / 4096 * 4096) 4096 0,
                                       poison := ndelRange x.mem.poison (a / 4096 * 4096 / 32) 128,
                                       ue := ndelRange x.mem.ue (a / 4096 * 4096 / 8) 512, ce := ndelRange x.mem.ce (a / 4096 * 4096 / 8) 512,
                                       written := nins x.mem.written (a / 4096) } } else x) := by
        split <;> exact SameMerge.refl _
      generalize (if s.region a = Region.hbm ∧ x.mem.isWritten a = false then _ else x) = y at *
      have h2 : SameMerge y ((List.range (granules a n)).foldl (fun s i => s.writeGranule unit a n en p (a / 32 + i)) y) :=
        sameMerge_foldl (fun s i => (same_writeGranule s unit a n en p (a / 32 + i)).merge) _ y
      generalize (List.range (granules a n)).foldl (fun s i => s.writeGranule unit a n en p (a / 32 + i)) y = z at *
      exact ((h0.trans h1).trans h2).trans (SameMerge.trans (sameMerge_of_drums rfl) (same_dirtied _ _ _).merge)

theorem sameMerge_writeMem (s : State) (unit a n v en p : Nat) : SameMerge s (s.writeMem unit a n v en p) := by
  unfold State.writeMem
  exact sameMerge_foldl (fun (t : State) (c : Nat × Nat) => sameMerge_writePage t unit c.1 c.2 _ _ _) _ s

theorem canon_of_kits {s t : State} (h : t.kits = s.kits) (a : Nat) : t.canon a = s.canon a := by
  unfold State.canon State.phys State.kit
  rw [h]

theorem canon_low (s : State) (a : Nat) (h : a < logBase) : s.canon a = a := by
  unfold State.canon
  rw [if_neg (by omega)]

theorem canon_canon (s : State) (a : Nat) : s.canon (s.canon a) = s.canon a := by
  by_cases h : logBase ≤ a ∧ a < logBase + slotsSize
  · by_cases h2 : (a - logBase) / 0x1000000 % 256 < 150
    · have e : s.canon a = slotAddr ((a - logBase) / 0x100000000) (s.phys ((a - logBase) / 0x100000000) ((a - logBase) / 0x1000000 % 256)) (a % 0x1000000) := by
        unfold State.canon
        rw [if_pos h]; dsimp only; rw [if_pos h2]
      have : logBase + slotsSize ≤ s.canon a := by
        rw [e]
        unfold slotAddr
        have : logBase + slotsSize ≤ physBase := by decide
        omega
      rw [State.canon, if_neg (by omega)]
    · have e : s.canon a = a := by
        unfold State.canon
        rw [if_pos h]; dsimp only; rw [if_neg h2]
      rw [e, e]
  · have e : s.canon a = a := by
      unfold State.canon
      rw [if_neg h]
    rw [e, e]

/-- No entry of drum (k, d)'s merge buffer holds byte b. -/
def Unheld (b k d : Nat) (s : State) : Prop := ∀ e ∈ (s.drum k d).merge, Off (s.canon (64 * e.line)) 64 e.valid b

/-- Byte b stays, and stays out of the merge buffer. -/
def LeavesU (b k d : Nat) (s t : State) : Prop := Unheld b k d s → Leaves b s t ∧ Unheld b k d t

theorem LeavesU.refl (b k d : Nat) (s : State) : LeavesU b k d s s := fun h => ⟨Leaves.refl b s, h⟩
theorem LeavesU.trans {b k d : Nat} {x y z : State} (h : LeavesU b k d x y) (g : LeavesU b k d y z) : LeavesU b k d x z :=
  fun u => ⟨(h u).1.trans (g (h u).2).1, (g (h u).2).2⟩
theorem leavesU_of {b k d : Nat} {s t : State} (h : Leaves b s t) (m : SameMerge s t) : LeavesU b k d s t := by
  refine fun u => ⟨h, fun e he => ?_⟩
  rw [m k d] at he
  rw [canon_of_kits h.kits]
  exact u e he
theorem leavesU_foldl {α : Type} {b k d : Nat} {f : State → α → State} :
    ∀ (l : List α) (s : State), (∀ s, ∀ x ∈ l, LeavesU b k d s (f s x)) → LeavesU b k d s (l.foldl f s)
  | [], s, _ => LeavesU.refl b k d s
  | x :: r, s, h => (h s x (by simp)).trans (leavesU_foldl r (f s x) (fun s y hy => h s y (by simp [hy])))

theorem drum_setDrum (s : State) (k d : Nat) (g : Drum → Drum) : (s.setDrum k d g).drum k d = g (s.drum k d) := by
  simp [State.drum, State.setDrum, mupd]

/-- A change of one merge buffer leaves byte b, and its entries leave b free. -/
theorem leavesU_setDrum (b k d : Nat) (s : State) (g : Drum → Drum)
    (h : Unheld b k d s → ∀ e ∈ (g (s.drum k d)).merge, Off (s.canon (64 * e.line)) 64 e.valid b) : LeavesU b k d s (s.setDrum k d g) := by
  refine fun u => ⟨⟨rfl, fun c => ⟨c.wf, c.wpb⟩, fun _ => rfl⟩, fun e he => ?_⟩
  rw [drum_setDrum] at he
  exact h u e he

theorem flushEntry_leaves (b : Nat) (s : State) (unit : Nat) (e : MergeEntry) (h : Off (s.canon (64 * e.line)) 64 e.valid b) :
    Leaves b s (s.flushEntry unit e) ∧ SameMerge s (s.flushEntry unit e) := by
  unfold State.flushEntry
  dsimp only
  have h1 : SameCells s (if e.ue = 0 then s else s.log (memSrc (64 * e.line)) Ev.MERGE_UE [64 * e.line] (some e.part) (some unit)) := by
    split
    · exact SameCells.refl s
    · exact same_log _ _ _ _ _ _ _
  generalize (if e.ue = 0 then s else s.log (memSrc (64 * e.line)) Ev.MERGE_UE [64 * e.line] (some e.part) (some unit)) = y at *
  have h2 : SameCells y (if e.valid = ones 64 ∨ y.mem.isWritten (64 * e.line) = false then y
      else (y.presentHbm (mergeStream unit) 0 e.part false [(64 * e.line, 64)]).touch unit (64 * e.line) 64) := by
    split
    · exact SameCells.refl y
    · exact (same_presentHbm _ _ _ _ _ _).trans (same_touch _ _ _ _)
  generalize (if e.valid = ones 64 ∨ y.mem.isWritten (64 * e.line) = false then y else _) = z at *
  have h0 := (h1.trans h2).trans (same_presentHbm z (mergeStream unit) 0 e.part true [(64 * e.line, 64)])
  generalize z.presentHbm (mergeStream unit) 0 e.part true [(64 * e.line, 64)] = x at *
  refine ⟨(h0.leaves b).trans (leaves_writeMem b x _ _ _ _ _ _ ?_), h0.merge.trans (sameMerge_writeMem _ _ _ _ _ _ _)⟩
  rw [canon_of_kits h0.kits]; exact h

theorem leavesU_flushMerge (b k d : Nat) (s : State) (pick : MergeEntry → Bool) : LeavesU b k d s (s.flushMerge k d pick) := by
  intro u
  unfold State.flushMerge
  dsimp only
  have key : ∀ (es : List MergeEntry) (x : State), (∀ e ∈ es, Off (x.canon (64 * e.line)) 64 e.valid b) →
      Leaves b x (es.foldl (fun s e => s.flushEntry (unitDrum k d) e) x) ∧ SameMerge x (es.foldl (fun s e => s.flushEntry (unitDrum k d) e) x) := by
    intro es
    induction es with
    | nil => exact fun x _ => ⟨Leaves.refl b x, SameMerge.refl x⟩
    | cons e r ih =>
      intro x hx
      have h1 := flushEntry_leaves b x (unitDrum k d) e (hx e (by simp))
      have h2 := ih (x.flushEntry (unitDrum k d) e) (fun f hf => by rw [canon_of_kits h1.1.kits]; exact hx f (by simp [hf]))
      exact ⟨h1.1.trans h2.1, h1.2.trans h2.2⟩
  have hk := key ((s.drum k d).merge.filter pick) s (fun e he => u e (List.mem_filter.1 he).1)
  generalize ((s.drum k d).merge.filter pick).foldl (fun s e => s.flushEntry (unitDrum k d) e) s = x at *
  have hx : Unheld b k d x := (leavesU_of hk.1 hk.2 u).2
  have := leavesU_setDrum b k d x (fun r => { r with merge := r.merge.filter (fun e => !pick e) }) (fun hu e he => hu e (List.mem_filter.1 he).1) hx
  exact ⟨hk.1.trans this.1, this.2⟩

theorem leavesU_writeLine (b k d : Nat) (s : State) (part unit a n v en p : Nat) (ha : a < logBase) (h : Off a n en b) :
    LeavesU b k d s (s.writeLine k d part unit a n v en p) := by
  unfold State.writeLine
  dsimp only
  split
  · next hc =>
    have h1 : LeavesU b k d s (if (s.drum k d).merge.any (fun e => decide (e.line = a / 64)) = true then s else
        (if 16 ≤ (s.drum k d).merge.length then
          match (s.drum k d).merge with
          | e :: _ => s.flushMerge k d (fun x => decide (x.line = e.line))
          | [] => s
        else s).setDrum k d (fun r => { r with merge := r.merge ++ [{ line := a / 64, part := part, since := (if 16 ≤ (s.drum k d).merge.length then
          match (s.drum k d).merge with
          | e :: _ => s.flushMerge k d (fun x => decide (x.line = e.line))
          | [] => s
        else s).time }] })) := by
      split
      · exact LeavesU.refl b k d s
      · refine LeavesU.trans (y := if 16 ≤ (s.drum k d).merge.length then
          match (s.drum k d).merge with
          | e :: _ => s.flushMerge k d (fun x => decide (x.line = e.line))
          | [] => s
          else s) ?_ (leavesU_setDrum _ _ _ _ _ ?_)
        · split
          · split
            · exact leavesU_flushMerge _ _ _ _ _
            · exact LeavesU.refl b k d s
          · exact LeavesU.refl b k d s
        · intro u e he
          rcases List.mem_append.1 he with he | he
          · exact u e he
          · rw [List.mem_singleton] at he
            subst he
            exact fun _ _ => Nat.zero_testBit _
    generalize (if (s.drum k d).merge.any (fun e => decide (e.line = a / 64)) = true then s else _) = x at *
    refine (h1.trans (leavesU_setDrum _ _ _ _ _ ?_)).trans (leavesU_flushMerge _ _ _ _ _)
    intro u e he
    obtain ⟨e0, he0, rfl⟩ := List.mem_map.1 he
    split
    · next hl =>
      have hcan : x.canon (64 * e0.line) = 64 * e0.line := canon_low x _ (by omega)
      have ho := u e0 he0
      simp only [MergeEntry.merge]
      rw [hcan] at ho ⊢
      intro g1 g2
      have ho := ho g1 g2
      rw [Nat.testBit_or, ho, Bool.false_or, Nat.testBit_mul_two_pow, Nat.testBit_mod_two_pow]
      by_cases g3 : a % 64 ≤ b - 64 * e0.line
      · by_cases g4 : b - 64 * e0.line - a % 64 < n
        · have := h (by omega) (by omega)
          rw [show b - 64 * e0.line - a % 64 = b - a by omega, this]
          simp
        · simp [g4]
      · simp [g3]
    · exact u e0 he0
  · exact leavesU_of (leaves_writeMem b s _ _ _ _ _ _ (by rw [canon_low s a ha]; exact h)) (sameMerge_writeMem _ _ _ _ _ _ _)

/-- A store of a drum leaves every byte that it does not enable and that no entry of the drum's merge buffer holds. -/
theorem leavesU_writeDrum (b k d : Nat) (s : State) (part unit a n v en p : Nat) (hn : n ≤ 4096) (h : Off (s.canon a) n en b) :
    LeavesU b k d s (s.writeDrum k d part unit a n v en p) := by
  unfold State.writeDrum
  dsimp only
  split
  · next hb =>
    generalize s.canon a = c at *
    refine leavesU_foldl _ s (fun t i hi => ?_)
    have hi := List.mem_range.1 hi
    have hlow : hbmEnd + 8192 ≤ logBase := by decide
    refine leavesU_writeLine b k d t _ _ _ _ _ _ _ (by omega) ?_
    intro g1 g2
    have := h (by omega) (by omega)
    rw [Nat.testBit_div_two_pow, show b - max c ((c / 64 + i) * 64) + (max c ((c / 64 + i) * 64) - c) = b - c by omega]
    exact this
  · exact leavesU_of (leaves_writeMem b s _ _ _ _ _ _ (by rw [canon_canon]; exact h)) (sameMerge_writeMem _ _ _ _ _ _ _)

end Sys2Proof.Machine
end

