-- ==== Sys2Proof/Laws/Rows.lean ====
section
/-!
SUPPORT. Sys2Proof/Laws/Rows.lean: what the shared frames of command rows do when their checks pass, said once: KV commands, walkers, slot
commands, admission, and requests from the fabric.
-/
namespace Sys2Proof.Machine

open Sys2Proof (CtxId Fields Word)

/-- Neither of two. -/
theorem or_neg {a b : Prop} (h1 : ¬ a) (h2 : ¬ b) : ¬ (a ∨ b) := fun h => h.elim h1 h2

/-- What takeWhile keeps satisfies the test. -/
theorem takeWhile_sat {α : Type} {p : α → Bool} {x : α} : ∀ {l : List α}, x ∈ l.takeWhile p → p x = true
  | [], h => by simp at h
  | a :: l, h => by
      rw [List.takeWhile_cons] at h
      cases hp : p a with
      | false => simp [hp] at h
      | true =>
        simp only [hp, if_true, List.mem_cons] at h
        rcases h with rfl | h
        · exact hp
        · exact takeWhile_sat h

/-- A KV command of an IDLE partition with no command held is applied and answered (R203, R204). -/
theorem kvRow_of {s : State} {c op : Nat} {w : Word} (hc : c < 8) (hw : s.canWrite c = true)
    (hd : (s.forward c .SRV_KV_CMD c 0 w).f F.SRV_KV_RESULT_DONE c 0 ≠ 0) (h4 : kvOp w.toNat = 4 → bit w.toNat 42 = false)
    (hi : ((s.forward c .SRV_KV_CMD c 0 w).setF F.SRV_KV_RESULT_DONE c 0 0).stepState
      (((s.forward c .SRV_KV_CMD c 0 w).setF F.SRV_KV_RESULT_DONE c 0 0).kvHolder w.toNat) = stIdle)
    (hh : ((s.forward c .SRV_KV_CMD c 0 w).setF F.SRV_KV_RESULT_DONE c 0 0).kv.held.any (fun h => decide (h.part =
      ((s.forward c .SRV_KV_CMD c 0 w).setF F.SRV_KV_RESULT_DONE c 0 0).kvHolder w.toNat)) = false) (ho : kvOp w.toNat = op) :
    s.kvRow op c w = ((((s.forward c .SRV_KV_CMD c 0 w).setF F.SRV_KV_RESULT_DONE c 0 0).kvApply w.toNat).1).kvAnswer c
      (((s.forward c .SRV_KV_CMD c 0 w).setF F.SRV_KV_RESULT_DONE c 0 0).kvApply w.toNat).2 := by
  have e : BitVec.ofNat 64 w.toNat = w := by simp
  simp only [State.kvRow, if_pos ho, State.kvCmd, e]
  rw [if_neg (by simp [hw]; omega), if_neg hd]
  simp only [State.kvSubmit]
  rw [if_neg (by rintro ⟨a, b⟩; simp [h4 a] at b), if_neg (by rw [hh]; simp [hi])]

/-- A walker that takes up an admissible request performs its operation (R221). -/
theorem pwRow_of {s : State} {w v op : Nat} {act : State → Nat → State} (h1 : w < 4) (h2 : s.fb F.HUB_STATUS_READY 0 0 = true)
    (h0 : s.boot.refclkLost = false) (h3 : ((s.pwSettle w).ringFront w).2 = some v) (hb : (((s.pwSettle w).ringFront w).1.ringJob w).begun = false)
    (h4 : pwBadOp v = false) (h5 : ((s.pwSettle w).ringFront w).1.treeOn (pwTree v) w = true)
    (h6 : ((s.pwSettle w).ringFront w).1.pwSpanBad v = false) (h7 : pwOp v = op) (h8 : s.owes (walkerStream w) = false) :
    s.pwRow w op act = act (((s.pwSettle w).ringFront w).1.beginJob w) v := by
  unfold State.pwRow
  rw [if_neg (by simp [h2, h8, h0]; omega)]
  dsimp only
  rw [h3]
  dsimp only
  rw [if_neg (by simp [hb]), if_neg (by simp [h4]), if_neg (by simp [h5]), if_neg (by simp [h6]), if_neg (by simp [h7])]

/-- A walker goes on with the request that it has begun. -/
theorem pwRow_again {s : State} {w v op : Nat} {act : State → Nat → State} (h1 : w < 4) (h2 : s.fb F.HUB_STATUS_READY 0 0 = true)
    (h0 : s.boot.refclkLost = false) (h3 : ((s.pwSettle w).ringFront w).2 = some v) (hb : (((s.pwSettle w).ringFront w).1.ringJob w).begun = true)
    (h7 : pwOp v = op) (h8 : s.owes (walkerStream w) = false) : s.pwRow w op act = act ((s.pwSettle w).ringFront w).1 v := by
  unfold State.pwRow
  rw [if_neg (by simp [h2, h8, h0]; omega)]
  dsimp only
  rw [h3]
  dsimp only
  rw [if_pos hb, if_pos h7]

/-- A slot whose record reads well lets the event go on (R240). -/
theorem gate_ok {s : State} {n : Nat} (h : (s.hubRead 1 (reqSlotAddr n) 128).2.p % 2 ^ (128 / 32) = 0) :
    s.slotGate n = ((s.hubRead 1 (reqSlotAddr n) 128).1, true) := by
  simp only [State.slotGate, State.slotRead]; rw [if_pos h]

/-- The head of the request queue is the next record when no cancel waits (R236). -/
theorem head_of {s : State} {p : Nat} {r : ReqRec} {rest : List ReqRec} {pick : Nat → Bool} (h1 : s.serve.canQ = [])
    (h2 : s.serve.reqQ = r :: rest) (h3 : r.part = p) (h4 : pick r.op = true) : s.headReq p pick = some r := by
  simp only [State.headReq]; rw [h1, h2]; dsimp only; rw [if_pos ⟨h3, h4⟩]

/-- A request of code 0 with a FREE slot below its limit is accepted (R236 to R238). -/
theorem admit_ok {a : State} {r : ReqRec} {n : Nat} (h1 : a.admitCode r = 0)
    (h2 : ¬ ((a.policeDebit r.sub (r.w 5 / 2 ^ 32)).f F.SRV_SUB_CFG_MAX_SLOTS r.sub 0 ≠ 0 ∧
      (a.policeDebit r.sub (r.w 5 / 2 ^ 32)).f F.SRV_SUB_CFG_SLOTS r.sub 0 = (a.policeDebit r.sub (r.w 5 / 2 ^ 32)).f F.SRV_SUB_CFG_MAX_SLOTS r.sub 0))
    (h3 : (a.policeDebit r.sub (r.w 5 / 2 ^ 32)).freeSlot r.part = some n)
    (h4 : ((a.policeDebit r.sub (r.w 5 / 2 ^ 32)).hubRead 1 (reqSlotAddr n) 128).2.p % 2 ^ (128 / 32) = 0) :
    a.admitReq r = ((a.policeDebit r.sub (r.w 5 / 2 ^ 32)).hubRead 1 (reqSlotAddr n) 128).1.accept r n := by
  simp only [State.admitReq]
  rw [if_neg (fun q => q h1), if_neg h2, h3]
  dsimp only
  rw [gate_ok h4]
  exact if_pos rfl

/-- A slot command of the right generation performs its effect and answers its code (R253). -/
theorem slotRow_of {s : State} {c op : Nat} {w : Word} {act : Nat → Nat → State → State × Nat} (hc : c < 8) (hw : s.canWrite c = true)
    (hp : ((s.forward c .SRV_SLOT_CMD c 0 w).hubRead 1 (reqSlotAddr (bits w.toNat 59 46)) 128).2.p % 2 ^ (128 / 32) = 0)
    (hg : ((s.forward c .SRV_SLOT_CMD c 0 w).hubRead 1 (reqSlotAddr (bits w.toNat 59 46)) 128).1.slGen (bits w.toNat 59 46) = bits w.toNat 45 15)
    (h0 : bits w.toNat 45 15 ≠ 0) (ho : bits w.toNat 63 60 = op) : s.slotRow op c w act =
      (act (bits w.toNat 59 46) (((s.forward c .SRV_SLOT_CMD c 0 w).hubRead 1 (reqSlotAddr (bits w.toNat 59 46)) 128).1.rg .SRV_SLOT_ARG c 0).toNat
        ((s.forward c .SRV_SLOT_CMD c 0 w).hubRead 1 (reqSlotAddr (bits w.toNat 59 46)) 128).1).1.slotAnswer c
      (act (bits w.toNat 59 46) (((s.forward c .SRV_SLOT_CMD c 0 w).hubRead 1 (reqSlotAddr (bits w.toNat 59 46)) 128).1.rg .SRV_SLOT_ARG c 0).toNat
        ((s.forward c .SRV_SLOT_CMD c 0 w).hubRead 1 (reqSlotAddr (bits w.toNat 59 46)) 128).1).2 := by
  have g : (s.forward c .SRV_SLOT_CMD c 0 w).slotGate (bits w.toNat 59 46) =
      (((s.forward c .SRV_SLOT_CMD c 0 w).hubRead 1 (reqSlotAddr (bits w.toNat 59 46)) 128).1, true) := gate_ok hp
  simp only [State.slotRow]
  rw [if_neg (by simp [hw, ho]; omega), g]
  dsimp only
  rw [if_neg (by simp), if_neg (or_neg (fun q => q hg) h0)]

/-- A request that the device takes up is performed at once and leaves (R354, R357). -/
theorem arrival_of {s t : State} {p : Pkt} (h : s.arrives p = true) (hf : (s.arrived p).perform p = (t, true)) : s.arrival p = t.departed s p := by
  simp only [State.arrives, Bool.and_eq_true, Bool.not_eq_true', decide_eq_true_eq] at h
  obtain ⟨⟨⟨⟨⟨h1, h2⟩, h3⟩, h4⟩, _⟩, h6⟩ := h
  have e : ((s.takeIn p none).fab.inb.takeWhile (fun x => decide (x.id ≠ (s.newIn p).id))).any (fun x => x.pkt.sameBlock (s.newIn p).pkt) = false := by
    rw [List.any_eq_false]
    intro x hx
    have hm := List.takeWhile_subset _ hx
    have hp := takeWhile_sat hx
    simp only [State.takeIn, State.setFab, List.mem_append, List.mem_singleton] at hm
    rcases hm with hm | rfl
    · exact List.any_eq_false.mp h6 x hm
    · simp [State.newIn] at hp
  have l : (s.takeIn p none).fab.inb.getLast? = some (s.newIn p) := by simp [State.takeIn, State.setFab, State.newIn]
  have g : (s.takeIn p none).perform (s.newIn p).pkt = (t, true) := hf
  simp only [State.arrival]
  rw [if_neg (or_neg (by simp [h1]) (or_neg h2 h3)), h4]
  simp only [Bool.false_and, Bool.false_eq_true, if_false, State.tryLast, l, State.tryIn, e, g, if_true]
  rfl

/-- A request through an open SPAN export performs its access (R272, R356). -/
theorem through_of {a : State} {p : Pkt} {n need rd wr ans : Nat} {act : State → ExpHit → Nat → State} (h : a.spanOpen p n need rd wr ans = true) :
    a.throughSpan p n need rd wr ans act = (act (a.spanGate p n need rd wr).1 (a.exportHit p.src p.addr n need)
      (a.hitPiece (a.exportHit p.src p.addr n need) n).addr, true) := by
  simp only [State.spanOpen, Bool.and_eq_true, Bool.not_eq_true', decide_eq_true_eq, Bool.or_eq_true] at h
  obtain ⟨⟨⟨⟨⟨⟨⟨⟨h0, h1⟩, h2⟩, h3⟩, h4⟩, h5⟩, h6⟩, h7⟩, h8⟩ := h
  simp only [State.throughSpan, Option.isNone_iff_eq_none.mp h0]
  rw [if_neg (fun q => q h1), if_neg (fun q => q h2)]
  simp only [State.spanKept] at h4 h5 h6 h7
  simp only [State.spanGate, State.spanKept] at h8 ⊢
  simp only [State.atHit]
  rw [h3, if_neg (by simp), h4, if_neg (by simp), if_neg (fun q => q h5), if_neg (by rcases h6 with r | r <;> simp [r]), h7, if_neg (by simp), if_pos h8]

/-- A well-formed GONG packet of a known line goes on to the line (R372). -/
theorem gongLine_of {a : State} {p : Pkt} {q : Nat × Nat} (h1 : p.size = 1) (h2 : bits p.payload 45 24 = 0) (h3 : p.payload < 2 ^ 64)
    (h4 : p.addr % 2 ^ 48 = 0) (h6 : p.payload.testBit 47 = true → gongCount p.payload = 0) (h5 : a.lineOf (gongLineId p.payload) = some q) : a.gongLine p = (a, some q) := by
  simp only [State.gongLine]
  rw [if_neg (or_neg (fun q => q h1) (or_neg (fun q => q h2) (or_neg (Nat.not_le.mpr h3) (or_neg (fun q => q h4) (fun q => q.2 (h6 q.1)))))), h5]

/-- A packet of a coded parcel that is accepted keeps its bytes (R361). -/
theorem cpacket_of {a : State} {p : Pkt} (h0 : ((a.inbOf p.src p.key).getD {}).hit = none) (h1 : p.parSized = true)
    (h4 : (a.parNow p.src p.tag).refused = 0) (h5 : (a.parNow p.src p.tag).isOpen = true ∨ a.openCount < 4096)
    (h6 : ((a.view (a.parNow p.src p.tag).old).exportHit p.src p.addr 64 rWrite).status = 0)
    (h7 : ((a.view (a.parNow p.src p.tag).old).exportHit p.src p.addr 64 rWrite).kind = 0) :
    a.parcelPacket p true = ((a.chargeIn (some (a.chargeOf p)) p.port (sizeBytes p.size)).setInPar p.src p.tag
      { a.parNow p.src p.tag with
        isOpen := true, src := p.src, tag := p.tag, addr := p.addr, rawLen := p.rawLen,
        part := ((a.view (a.parNow p.src p.tag).old).exportHit p.src p.addr 64 rWrite).part, port := p.port, coded := true,
        n := (a.parNow p.src p.tag).n + sizeBytes p.size,
        v := (a.parNow p.src p.tag).v + p.payload % 256 ^ sizeBytes p.size * 256 ^ (a.parNow p.src p.tag).n,
        p := (a.parNow p.src p.tag).p ||| (p.poison * 2 ^ ((a.parNow p.src p.tag).n / 32)),
        lastPkt := (a.chargeIn (some (a.chargeOf p)) p.port (sizeBytes p.size)).time,
        refs := if !(a.parNow p.src p.tag).isOpen then (a.chargeIn (some (a.chargeOf p)) p.port (sizeBytes p.size)).refsNow
          else (a.parNow p.src p.tag).refs }, true) := by
  have hd : (a.parNow p.src p.tag).refused ≠ parDiscard := by rw [h4]; decide
  simp only [State.parcelPacket]
  rw [if_neg hd, h1, if_neg (by simp), if_neg (fun q => q h4),
    if_neg (by rcases h5 with r | r; simp [r]; intro q; exact absurd q.2 (Nat.not_le.mpr r))]
  simp only [if_true, h0, h6, h7, ne_eq, not_true_eq_false, and_false, if_false, Bool.true_eq_false, false_and, Bool.true_or, Bool.and_true]

/-- A search command at the front of an enabled index's ring, well formed, performs its operation (R380 to R382). -/
theorem sqRow_of {s : State} {i v op : Nat} {act : State → Nat → State} (h1 : i < 16) (h2 : s.fb F.HUB_STATUS_READY 0 0 = true)
    (h0 : s.boot.refclkLost = false) (h3 : s.stepState (s.srcPart i) ≠ stSaved) (hc : s.coreRuns (s.f F.SRC_INDEX_CFG_CORE i 0) = true)
    (h4 : ((s.sqSettle i).ringFront (i + 4)).2 = some v) (h5 : s.fb F.SRC_INDEX_CFG_ENABLE i 0 = true)
    (hb : (((s.sqSettle i).ringFront (i + 4)).1.ringJob (i + 4)).begun = false)
    (h6 : s.sqBad i v = false) (h7 : s.sqSpanBad i v = false) (h8 : sqOp v = op) (h9 : 1 ≤ op) (h10 : op ≤ 6)
    (h11 : s.owes (searchStream i) = false) :
    s.sqRow i op act = act (((s.sqSettle i).ringFront (i + 4)).1.beginJob (i + 4)) v := by
  simp only [State.sqRow]
  rw [if_neg (by simp [h2, h11, h0, hc]; exact ⟨h1, h3⟩), h4]
  simp only [h8, h5, h6, h7, hb, Bool.true_eq_false, Bool.false_eq_true, if_false]
  rw [if_neg (by omega), if_neg (by simp)]

/-- An index goes on with the command that it has begun. -/
theorem sqRow_again {s : State} {i v op : Nat} {act : State → Nat → State} (h1 : i < 16) (h2 : s.fb F.HUB_STATUS_READY 0 0 = true)
    (h0 : s.boot.refclkLost = false) (h3 : s.stepState (s.srcPart i) ≠ stSaved) (hc : s.coreRuns (s.f F.SRC_INDEX_CFG_CORE i 0) = true)
    (h4 : ((s.sqSettle i).ringFront (i + 4)).2 = some v) (h5 : s.fb F.SRC_INDEX_CFG_ENABLE i 0 = true)
    (hb : (((s.sqSettle i).ringFront (i + 4)).1.ringJob (i + 4)).begun = true) (h8 : sqOp v = op) (h9 : 1 ≤ op) (h10 : op ≤ 6)
    (h11 : s.owes (searchStream i) = false) : s.sqRow i op act = act ((s.sqSettle i).ringFront (i + 4)).1 v := by
  simp only [State.sqRow]
  rw [if_neg (by simp [h2, h11, h0, hc]; exact ⟨h1, h3⟩), h4]
  simp only [h8, h5, hb, Bool.true_eq_false, if_false, if_true]
  rw [if_neg (by omega)]

/-- A pre-emption command of its operation, well formed and of no guest, by a core that may write and has its answer, performs it and answers
(R422). -/
theorem preRow_of {s : State} {op c : Nat} {w : Word} {act : State → Nat → State × Nat × Nat} (h1 : c < 8) (h2 : s.canWrite c = true)
    (h3 : F.PAR_PREEMPT_OP.of w = op) (h4 : (s.forward c .PAR_PREEMPT c 0 w).fb F.PAR_PREEMPT_RESULT_DONE c 0 = true)
    (h5 : rsvSet (RegName.fields .PAR_PREEMPT) w = false)
    (h6 : (s.forward c .PAR_PREEMPT c 0 w).fb F.PAR_CONFIG_GUEST (F.PAR_PREEMPT_PARTITION.of w) 0 = false) :
    s.preRow op c w act = (act (s.forward c .PAR_PREEMPT c 0 w) (F.PAR_PREEMPT_PARTITION.of w)).1.preAnswer c
      (act (s.forward c .PAR_PREEMPT c 0 w) (F.PAR_PREEMPT_PARTITION.of w)).2.1
      (act (s.forward c .PAR_PREEMPT c 0 w) (F.PAR_PREEMPT_PARTITION.of w)).2.2 := by
  simp only [State.preRow, State.preCommand]
  rw [if_neg (by simp [h2, h3]; omega), h4, if_neg (by simp), h5, if_neg (by simp), h6, if_neg (by simp)]

/-- A configuration command of its operation by the owner of the session, or with none open, on a device that leads performs it (R519, R520). -/
theorem cfgRow_of {s : State} {op i : Nat} {w : Word} {act : State → State} (h1 : s.canWrite i = true) (h2 : F.HUB_CFG_CMD_OP.of w = op)
    (h3 : s.follows = false ∨ s.pair.applying = true) (h4 : rsvSet (RegName.fields .HUB_CFG_CMD) w = false)
    (h5 : s.cfgPhase = cfgIdle ∨ s.f F.HUB_CFG_STATUS_OWNER 0 0 = i) : s.cfgRow op i w act = act (s.forward i .HUB_CFG_CMD 0 0 w) := by
  simp only [State.cfgRow]
  rw [if_neg (by simp [h1, h2]), if_neg (by rcases h3 with r | r <;> simp [r]), if_neg (fun q => h5.elim q.1 q.2), h4, if_neg (by simp)]

end Sys2Proof.Machine
end

