-- ==== Sys2Proof/Tests/Slice0.lean ====
section
/-!
SUPPORT. Sys2Proof/Tests/Slice0.lean: commands that well-formedness refuses, the spec's worked examples, and for every obligation with
hypotheses a theorem that shows states and operands that meet them, clause by clause.
-/
open Sys2Proof (CtxId Fields Instr ParityErrs Upsets Word ControlFrame CheckResult FlashRead FlashProg FlashSpace RomReport FillReport KitReading WindowReading HostEntry HostData HostAccess CoreOp CoreAccess MgmtXfer SpdmReq)

namespace Sys2Proof.Machine

set_option linter.unusedVariables false
set_option Elab.async false

-- ===== Commands that are not well formed =====

/-- A term for each check of Instr.wf, which the check refuses: a unit, index or byte just past its range. -/
theorem test_wf_refuses : ([.railFault 8, .ccWatchdogKick 0 8 0, .stepStart 8, .ccRestart 10 0, .cfgStagedWrite 0 (2 ^ 28) 0,
    .cfgStagedWrite 0 4 0, .halfReadLatch 0 2, .drumDone 0 156, .retry 0 150 0, .nop ⟨0, 156, 0, 0⟩ {}, .nop ⟨0, 0, 256, 0⟩ {},
    .nop ⟨0, 0, 0, 8⟩ {}, .slotFree (2 ^ 14), .kvHandoffSubmit 0 256, .kvArmedHandoffApply 0 16, .hqCommandComplete 16,
    .trnEntryActive 0 8, .linkDown 18 0, .bridgeLinkFail 0 2, .subPoliceWrite 0 4096 0, .kvTableWrite 0 0 8 0,
    .routerDirWrite 0 0 65536 0, .calibComplete 0 0 65536, .obsRetest 256, .egressHoldoffEnd 65536, .scrubOverdue 9, .pwLookup 4,
    .srcSettle 16, .logBankLost 2 0, .entdaa 128, .setdasa 0x5A 128] : List Instr).all (fun c => !c.wf) = true := by decide

/-- The terms for operands that are records: host bytes, an SQ entry, an access past BAR2, readings of a drum that no kit has, a node ID past 16
bits, a core past 7 and a misaligned management offset. -/
theorem test_wf_refuses_records : ([.install 0 { bytes := [256] }, .hqSqDoorbell 0 0 0 [{ words := [2 ^ 64] }],
    .hostWindowAccess { off := 2 ^ 32 }, .tempoWindowClose { kits := [⟨0, 0, 0, 0, [(156, 0)]⟩] }, .fabLoad { src := 65536 },
    .controlCoreAccess ⟨8, .load, 0, 8, 0⟩, .mgmtTransfer { off := 4 }, .bootHbm [8], .bootLink [(18, 0)]] : List Instr).all
    (fun c => !c.wf) = true := by decide

-- ===== Worked examples of the spec =====

/-- No row of the opcode table gives bits. -/
theorem test_no_word_spells_a_command : decodeTableWord 64 0x4140A51912000000 = none := rfl

/-- The handle after R22: node 0x002A, PT5, slot 337, generation 7. -/
theorem test_handle : handleSlot 0x002AA0A880000007 = 337 ∧ bits 0x002AA0A880000007 47 45 = 5 ∧ 0x002AA0A880000007 % 2 ^ 31 = 7 := by decide

/-- The window of K4 after R48's rules (ch. 01): 0.627 V and 84.6 °C are step 7, band 8. -/
theorem test_window : stepOf 627 = 7 ∧ bandOf 846 = 8 := by decide

/-- The tile multiply of ch. 03: A3 += T4 × T9, E4M3 by E5M2, under M2. -/
theorem test_tmac_word :
    Fields.word { fmt := 4, men := 1, msel := 2, aux := 5, rd := 3, ra := 4, rb := 9 } 0x41 = 0x4140A51912000000 := by decide

/-- Truncation and order (ch. 02): anchor 92; the two cancelling products leave −1, then 120 and −36: V = 83. -/
theorem test_truncation :
    let m := fun (e : AccElem) (a b : Nat) => e.addNum 92 (prodNum (decodeElem 4 a) (decodeElem 4 b))
    (m (m (m {} 0x3A 0x15) 0xBA 0x15) 0x3A 0x4C).v = 119 := by decide +kernel

/-- Saturation at readout (ch. 02): anchor −28; 7.5 + 1.5 − 3 is 6.0 without a flag; without the third term, 8.0 with ACC_OVF. -/
theorem test_saturation :
    let m := fun (e : AccElem) (a b : Nat) => e.addNum (-28) (prodNum (decodeElem 4 a) (decodeElem 4 b))
    let two := m (m {} 0x3A 0x4C) 0x3C 0x38
    (m two 0xBC 0x40).v = 12 * 2 ^ 123 ∧ (m two 0xBC 0x40).rdOvf = false ∧ two.rdOvf = true ∧ (two.convert (-28) 4).1 = 0x50 := by
  decide +kernel

/-- Ties to even (Table 2.9): anchor 80, readouts to BF16. -/
theorem test_ties_to_even :
    (({ v := 0x10100 } : AccElem).convert 80 7).1 = 0x3F80 ∧ (({ v := 0x10180 } : AccElem).convert 80 7).1 = 0x3F81 ∧
    (({ v := 0x10300 } : AccElem).convert 80 7).1 = 0x3F82 := by decide +kernel

/-- exp2(0.5) (ch. 02). -/
theorem test_exp2 : (vfn 0 0x3F000000).1 = 0x3FB504F3 := by decide +kernel

/-- What a property says of the next state that an outcome gives. -/
def nextIs (o : Host.Outcome State Fault Refusal) (p : State → Bool) : Bool :=
  match o with
  | .next t => p t
  | _ => false

/-- A step takes the command at the front of the queue and leaves the rest. -/
theorem test_step_takes_the_front :
    nextIs (step { State.reset with pending := [.hostPortTrained, .warmResetRequest] }) (fun t => decide (t.pending = [.warmResetRequest])) =
      true := by decide +kernel


-- ===== States for the witnesses =====

/-- s with register fields set: the field, the two indices and the value. -/
def place (s : State) (l : List (Fld × Nat × Nat × Nat)) : State := l.foldl (fun s q => s.setF q.1 q.2.1 q.2.2.1 q.2.2.2) s

/-- A context of kit 0, drum 0, mallet 0. -/
def u0 : CtxId := ⟨0, 0, 0, 0⟩

/-- A device in service whose partition 0 owns kit 0 and runs a step in which drum 0 has a running context; span 0 of the partition is
drum-relative memory of the skin with every right, span 1 is composed of another device's export, span 2 is hub SRAM. -/
def live : State :=
  { place State.reset
      [(F.HUB_STATUS_READY, 0, 0, 1), (F.PAR_CONFIG_ENABLE, 0, 0, 1), (F.PAR_CONFIG_KIT_MASK, 0, 0, 1), (F.PAR_STEP_STATUS_STATE, 0, 0, 1),
       (F.MEM_SPAN_CTL_VALID, 0, 0, 1), (F.MEM_SPAN_CTL_KIND, 0, 0, 1), (F.MEM_SPAN_CTL_RIGHTS, 0, 0, 15), (F.MEM_SPAN_CTL_LENGTH_M1, 0, 0, 0xFFFFF),
       (F.MEM_SPAN_BASE_BASE, 0, 0, 0x100000),
       (F.MEM_SPAN_CTL_VALID, 0, 1, 1), (F.MEM_SPAN_CTL_KIND, 0, 1, 3), (F.MEM_SPAN_CTL_RIGHTS, 0, 1, 15), (F.MEM_SPAN_CTL_LENGTH_M1, 0, 1, 0xFFF),
       (F.MEM_SPAN_BASE_BASE, 0, 1, 1), (F.MEM_EXTENT_TGT_NODE, 0, 0, 5),
       (F.MEM_SPAN_CTL_VALID, 0, 2, 1), (F.MEM_SPAN_CTL_RIGHTS, 0, 2, 15), (F.MEM_SPAN_CTL_LENGTH_M1, 0, 2, 0xFFFF), (F.MEM_SPAN_BASE_BASE, 0, 2, hubBase)] with
    drums := [(0, { cfg := 0x1C0000, inStep := true, kicked := true })]
    mallets := [(0, { a := (List.range 8).map (fun n => (n, Acc.opened 0)), c := [(0, { stopped := false })] })] }

/-- live with its context, its drum or its partition changed, or its scalar registers or KV-table rows set. -/
def withCtx (g : Ctx → Ctx) : State := live.setCtx u0 g
def withDrum (g : Drum → Drum) : State := live.setDrum 0 0 g
def withPart (g : Part → Part) : State := live.setPart 0 g
def withS (l : List (Nat × Nat)) : State := withCtx (fun c => { c with s := l.map (fun q => (q.1, { v := BitVec.ofNat 64 q.2 })) })
def withGong (w : BitVec 64) : State := withPart (fun p => { p with gongCfg := [(0, w)] })
/-- s with words at a local address. -/
def putWords (s : State) (a : Nat) (ws : List Nat) : State :=
  { s with mem := { s.mem with cells := cellsWrite s.mem.cells a (8 * ws.length) (ws.foldr (fun w n => w + n * 2 ^ 64) 0) } }
/-- live with no step running. -/
def idle : State := place live [(F.PAR_STEP_STATUS_STATE, 0, 0, 0)]
/-- s in which partition 0 owns slots 0 to 7, and slot 0's words 0 and 1 of the KV table are w0 and w1. -/
def withKv (s : State) (w0 w1 : Nat) : State := putWords (place s [(F.SRV_PART_SERVE_SLOT_COUNT, 0, 0, 8)]) (kvAddr 0) [w0, w1]
/-- Slot 0 is an ACTIVE sequence of kit 0 with one admitted token. -/
def kvLive : State := withKv live (2 ^ 63) (2 ^ 32)
/-- live with transfers 1 and 2, of kind k, whose data is in hand. -/
def withXfer (k : XKind) : State := { live with xfers := [(1, { kind := k, live := true }), (2, { kind := k, live := true })] }
/-- A prefetch list that runs, with the entry words given at its position. -/
def withEntry (ws : List Nat) : State :=
  putWords ((withDrum (fun d => { d with pf := { st := .running } }))) (slotAddr 0 0 0) ws
def withKit (g : Kit → Kit) : State := live.setKit 0 g
def withTime (s : State) (ns : Nat) : State := s.setRg .HUB_TIME 0 0 (BitVec.ofNat 64 ns)
/-- A tree of walker 0 in hub SRAM, and the entry ws waiting in the walker's ring. -/
def treeLive (ws : List Nat) : State :=
  putWords (place live
    [(F.SRV_PW_RING_ENABLE, 0, 0, 1), (F.SRV_PW_RING_LOG2, 0, 0, 4), (F.SRV_PW_RING_BASE, 0, 0, hubBase + 0x8000), (F.SRV_PW_DOORBELL_TAIL, 0, 0, 1),
     (F.SRV_TREE_CFG_ENABLE, 0, 0, 1), (F.SRV_TREE_CFG_LOG2_BUCKETS, 0, 0, 10), (F.SRV_TREE_CFG_NODES, 0, 0, 16),
     (F.SRV_TREE_BUCKET_BASE_BASE, 0, 0, hubBase + 0x10000), (F.SRV_TREE_NODE_BASE_BASE, 0, 0, hubBase + 0x20000)]) (hubBase + 0x8000) ws
/-- Slot 0 of partition 0 in state st, generation 1, with a limit of 100 tokens; its handle is 1. -/
def withSlot (st : Nat) : State := putWords (place live [(F.SRV_PART_SERVE_SLOT_COUNT, 0, 0, 8)]) (reqSlotAddr 0) [st * 2 ^ 60, 1, 0, 0, 0, 100]
/-- live with partition 0's requests accepted, and one of words ws at the engine. -/
def withReq (ws : List Nat) : State :=
  { place live [(F.SRV_PART_SERVE_SLOT_COUNT, 0, 0, 8), (F.SRV_SERVICE_ENABLE, 0, 0, 1), (F.SRV_SUB_CFG_ENABLE, 0, 0, 1)] with
    serve := { reqQ := [{ v := ws.foldr (fun w n => w + n * 2 ^ 64) 0 }] } }
/-- live with an entry of queue 0 of partition 0 that carries descriptor d, in the state ACTIVE, and its parcel 1. -/
def withParcel (d : Nat) (k : Parcel) : State :=
  { place live [(F.TRN_SUB_CFG_PART_MASK, 0, 0, 1), (F.CDC_PART_CFG_UNIT_MASK, 0, 0, 1)] with
    trn := { entries := [{ st := 1, desc := d }], parcels := [(1, { k with live := true })] } }
/-- live with an inbound parcel of node 0 and tag 0, for an export of span 2. -/
def withInbound (o : OpenParcel) : State :=
  { place live [(F.MEM_EXPORT_CTL_VALID, 0, 0, 1), (F.MEM_EXPORT_CTL_SPAN, 0, 0, 2), (F.MEM_EXPORT_CTL_RIGHTS, 0, 0, 15)] with
    fab := { parcels := [(0, { o with isOpen := true })] } }
/-- A coded parcel of 64 raw bytes, all of whose stream is in. -/
def codedPar : OpenParcel :=
  { coded := true, rawLen := 64, v := (buildStream {} 0 0 64 0 0).1.v, n := (buildStream {} 0 0 64 0 0).1.n }
/-- A TAINT packet that names export 0, and the state after the range is marked. -/
def taintPkt : Pkt := { op := opTaint, size := 2 }
def taintAfter : State :=
  let a := ({ withInbound {} with fab := {} }).arrived taintPkt
  let h := a.exportHit 0 0 (taintLen taintPkt) rWrite
  let b := a.setInb 0 taintPkt.key (fun x => { x with hit := some (h, {}) })
  (b.passTaint taintPkt (b.spanPieces (deviceActor h.part trnUnit) h.span h.off (taintLen taintPkt)) 0).1
/-- live with span 3 in flash and flash in service. -/
def flashLive : State :=
  place live [(F.FLS_STATUS_READY, 0, 0, 1), (F.FLS_CONFIG_ENABLE, 0, 0, 1), (F.FLS_APERTURE_VALID, 0, 0, 1), (F.MEM_SPAN_CTL_VALID, 0, 3, 1),
    (F.MEM_SPAN_CTL_RIGHTS, 0, 3, 15), (F.MEM_SPAN_CTL_LENGTH_M1, 0, 3, 0xFFFFF), (F.MEM_SPAN_BASE_BASE, 0, 3, flashBase)]
def withFab (f : Fabric) : State := { live with fab := f }
/-- A search index in hub SRAM, and the entry ws waiting in its ring. -/
def srcLive (ws : List Nat) : State :=
  putWords (place { live with boot := { resetHeld := false, coresRun := 1 } }
    [(F.SRC_RING_ENABLE, 0, 0, 1), (F.SRC_RING_LOG2, 0, 0, 4), (F.SRC_RING_BASE, 0, 0, hubBase + 0x8000), (F.SRC_DOORBELL_TAIL, 0, 0, 1),
     (F.PAR_CONFIG_ROLES, 0, 0, 2), (F.SRC_INDEX_CFG_ENABLE, 0, 0, 1), (F.SRC_INDEX_CFG_M, 0, 0, 8), (F.SRC_INDEX_SIZE_NODES, 0, 0, 16),
     (F.SRC_INDEX_SIZE_LISTS, 0, 0, 16), (F.SRC_INDEX_BASE_BASE, 0, 0, hubBase + 0x10000), (F.SRC_INDEX_BASE_BASE, 0, 1, hubBase + 0x20000),
     (F.SRC_INDEX_BASE_BASE, 0, 2, hubBase + 0x30000), (F.SRC_INDEX_BASE_BASE, 0, 3, hubBase + 0x40000), (F.SRC_INDEX_BASE_BASE, 0, 4, hubBase + 0x50000)])
    (hubBase + 0x8000) ws
/-- Index i, ready to serve, has the sound command v at the front of its ring, not begun. -/
def sqReady (s : State) (i v : Nat) : Bool :=
  let fr := (s.sqSettle i).ringFront (i + 4)
  s.fb F.HUB_STATUS_READY 0 0 && !s.boot.refclkLost && decide (s.stepState (s.srcPart i) ≠ stSaved) &&
    s.coreRuns (s.f F.SRC_INDEX_CFG_CORE i 0) && !s.owes (searchStream i) && decide (fr.2 = some v) && s.fb F.SRC_INDEX_CFG_ENABLE i 0 &&
    !(fr.1.ringJob (i + 4)).begun && !s.sqBad i v && !s.sqSpanBad i v
/-- live with a transfer that waits for codeword 7, which lies at location 0. -/
def asked : State := { live with xfers := [(1, { live := true, nand := some [(7, 0, 0, 4096)] })] }
/-- A check of two segments of kit 0 by core 0, and live with it in the course that k gives. -/
def segCheck : SCheck := { live := true, a := unitSeg 0 0, b := unitSeg 0 1 }
def withCheck (k : SCheck) : State :=
  { live with integ := { checks := [(0, { segCheck with running := k.running, refereeing := k.refereeing })] } }
/-- live in pair mode in the role given, with the register fields given. -/
def paired (role : Nat) (l : List (Fld × Nat × Nat × Nat)) : State :=
  place live ((F.HUB_PAIR_STATUS_ROLE, 0, 0, role) :: (F.HUB_PAIR_CFG_ENABLE, 0, 0, 1) :: l)
/-- s with the first granule of hub SRAM poisoned. -/
def hubPoisoned (s : State) : State := { s with mem := { s.mem with poison := [hubBase / 32] } }
/-- live out of reset, its boot done, with the register fields given. -/
def up (l : List (Fld × Nat × Nat × Nat)) : State :=
  { place live ((F.HUB_BOOT_STAGE, 0, 0, 8) :: l) with boot := { resetHeld := false, coresRun := 1 }, mgmt := { rbLow := false } }
/-- up, with the state of attention and management given. -/
def withMgmt (l : List (Fld × Nat × Nat × Nat)) (m : Mgmt) : State := { up l with mgmt := m }
/-- up with host queue 0 enabled and the command c at its front. -/
def withHost (c : HostCmd) : State :=
  { up [(F.HUB_HQ_CFG_ENABLE, 0, 0, 1), (F.HUB_HQ_CFG_SQ_LOG2, 0, 0, 4), (F.HUB_HQ_CFG_CQ_LOG2, 0, 0, 4)] with host := { taken := [(0, [c])] } }
/-- The 512 bytes of a header as a host command carries them. -/
def hdrData (v : Nat) : HostData := { bytes := (List.range 512).map (fun i => v / 256 ^ i % 256) }
/-- SHA-384 of no bytes (FIPS 180-4), and a boot header and a program header of an empty body that carry it. -/
def emptySha : Nat := 0x38b060a751ac96384cd9327eb1b1e36a21fdb71114be07434c0cc7bf63f6e1da274edebfe76f65fbd51ad2f14898b95b
def shaBytes : Nat := (List.range 48).foldl (fun w i => w * 256 + emptySha / 256 ^ i % 256) 0
def bootHdr : Nat := 0x15A525042 + 2 ^ 512 * shaBytes
def progHdr : Nat := 0x15A525047 + 2 ^ 512 * shaBytes
def bootSample : BootHead := { msg := bootHdr % 2 ^ 896, version := 0, secVersion := 0, len := 0, key := 0, digest := emptySha, sig := 0 }

-- ===== One step on a small state =====

/-- The causal mask under speculation (ch. 03): qb = kb = 128, L = 132, then L = 129. -/
theorem test_causal :
    let run := fun (l m : Nat) => nextIs (exec (.causal u0 { rb := 1, rc := 2 }) (withS [(0, 128), (1, 128), (2, l)]))
      (fun t => decide (((t.ctx u0).M 0).toNat = m))
    run 132 0xF731 = true ∧ run 129 0x1111 = true := by decide +kernel

/-- Table 8.9: the eight tiles at span offset 0x0FFF_FF00 lie in two extents. -/
theorem test_composed_span :
    let s := place State.reset
      [(F.MEM_SPAN_CTL_VALID, 3, 9, 1), (F.MEM_SPAN_CTL_KIND, 3, 9, 3), (F.MEM_SPAN_BASE_BASE, 3, 9, 200 * 2 ^ 32 + 3),
       (F.MEM_EXTENT_TGT_NODE, 200, 0, 0x31), (F.MEM_EXTENT_TGT_EXPORT, 200, 0, 4), (F.MEM_EXTENT_LEN_LEN_M1, 200, 0, 0xFFFF),
       (F.MEM_EXTENT_TGT_NODE, 201, 0, 0x32), (F.MEM_EXTENT_TGT_EXPORT, 201, 0, 4), (F.MEM_EXTENT_TGT_OFFSET, 201, 0, 0x40000000),
       (F.MEM_EXTENT_LEN_LEN_M1, 201, 0, 0xFFFF)]
    s.spanPieces (malletActor 3 u0) 9 0x0FFFFF00 512 =
      [(0, { rem := true, addr := 0x003104000FFFFF00, len := 256 }), (256, { rem := true, addr := 0x0032040040000000, len := 256 })] := by
  decide +kernel

/-- SST writes its bytes little-endian, and only them. -/
theorem test_sst :
    nextIs (exec (.sst u0 { mod := 1, rd := 3 }) (withS [(3, 0x1234)]))
      (fun t => decide (t.mem.cells = [(slotAddr 0 0 0x100000, 0x34), (slotAddr 0 0 0x100001, 0x12)])) = true := by decide +kernel

/-- SADD wraps modulo 2^64 (R112), and PC advances. -/
theorem test_sadd_wraps :
    nextIs (exec (.sadd u0 { rd := 0, ra := 1, rb := 2 }) (withS [(1, 2 ^ 64 - 1), (2, 2)]))
      (fun t => decide (((t.ctx u0).S 0).v = 1) && decide ((t.ctx u0).pc = 8)) = true := by decide +kernel

/-- A MOD value that SADD does not define faults with ILLEGAL_OP (R106): FAULT 2, and PC stays. -/
theorem test_sadd_illegal :
    nextIs (exec (.sadd u0 { mod := 2 }) live) (fun t => decide ((t.ctx u0).fault = 2) && (t.ctx u0).stopped && decide ((t.ctx u0).pc = 0)) =
      true := by decide +kernel

-- ===== What meets the hypotheses of the obligations =====

/-- The hypotheses of BranchesAndFlowComplete, clause by clause. -/
theorem witness_BranchesAndFlowComplete :
    (∃ (s : State) (u : CtxId) (f : Fields),
      s.fetches u = true ∧ f.zeroBut false false false false false false false false false = true) ∧
    (∃ (s : State) (u : CtxId) (f : Fields),
      s.fetches u = true ∧ f.zeroBut false false false false false false false false true = true) ∧
    (∃ (s : State) (u : CtxId) (f : Fields),
      let t := s.fetched u
      s.fetches u = true ∧ f.zeroBut false true false false false true false false true = true ∧ f.A < 16 ∧ f.modN < 4 ∧
      t.sp u f.A = false) ∧
    (∃ (s : State) (u : CtxId) (f : Fields),
      let t := s.fetched u
      s.fetches u = true ∧ f.zeroBut false false false false false true false false true = true ∧ f.A < 16 ∧ t.sp u f.A = false) ∧
    (∃ (s : State) (u : CtxId) (f : Fields),
      s.fetches u = true ∧ f.zeroBut false false false false false false false false false = true) ∧
    (∃ (s : State) (u : CtxId) (f : Fields),
      s.fetches u = true ∧ f.zeroBut false false false false true false false false false = true ∧ f.D < 16) ∧
    (∃ (s : State) (u : CtxId) (f : Fields),
      s.fetches u = true ∧ f.zeroBut false false false false false false false false true = true ∧ f.immN < 16) ∧
    (∃ (s : State) (u : CtxId) (f : Fields),
      let t := s.fetched u
      s.fetches u = true ∧ f.zeroBut false false false false false true false false true = true ∧ f.A < 16 ∧ f.immN < 4 ∧
      t.sp u f.A = false ∧ (t.sv u f.A).testBit 63 = true) ∧
    (∃ (s : State) (u : CtxId) (f : Fields),
      let t := s.fetched u
      s.fetches u = true ∧ f.zeroBut false false false false false true false false true = true ∧ f.A < 16 ∧ f.immN < 4 ∧
      t.sp u f.A = false ∧ t.sv u f.A < 2 ^ 14 ∧ t.ownsSlot (t.partOf u) (t.sv u f.A) = true) :=
  ⟨⟨live, u0, {}, by decide +kernel⟩,
   ⟨live, u0, {}, by decide +kernel⟩,
   ⟨live, u0, { ra := 15, mod := 3 }, by decide +kernel⟩,
   ⟨live, u0, { ra := 15 }, by decide +kernel⟩,
   ⟨live, u0, {}, by decide +kernel⟩,
   ⟨live, u0, { rd := 15 }, by decide +kernel⟩,
   ⟨live, u0, { imm := 15 }, by decide +kernel⟩,
   ⟨withS [(15, 2 ^ 63)], u0, { ra := 15, imm := 3 }, by decide +kernel⟩,
   ⟨place live [(F.SRV_PART_SERVE_SLOT_COUNT, 0, 0, 8)], u0, { imm := 3 }, by decide +kernel⟩⟩

/-- The hypotheses of ScalarInstructionsComplete, clause by clause. -/
theorem witness_ScalarInstructionsComplete :
    (∃ (s : State) (u : CtxId) (f : Fields),
      s.fetches u = true ∧ Fields.scalarLegal f 1 = true) ∧
    (∃ (s : State) (u : CtxId) (f : Fields),
      s.fetches u = true ∧ Fields.scalarLegal f 6 = true) ∧
    (∃ (s : State) (u : CtxId) (f : Fields),
      s.fetches u = true ∧ f.zeroBut false true false false true false false false true = true ∧ f.D < 16 ∧ f.modN = 0) ∧
    (∃ (s : State) (u : CtxId) (f : Fields),
      s.fetches u = true ∧ f.zeroBut false true false false true false false false true = true ∧ f.D < 16 ∧
      (f.modN = 1 ∨ f.modN = 2 ∨ (f.modN = 3 ∧ f.immN < 16))) :=
  ⟨⟨live, u0, { rd := 15, ra := 15, rb := 15 }, by decide +kernel⟩,
   ⟨live, u0, { mod := 11 }, by decide +kernel⟩,
   ⟨live, u0, {}, by decide +kernel⟩,
   ⟨live, u0, { mod := 3, imm := 15 }, by decide +kernel⟩⟩

/-- The hypotheses of AddressRegisterInstructionsComplete, clause by clause. -/
theorem witness_AddressRegisterInstructionsComplete :
    (∃ (s : State) (u : CtxId) (f : Fields),
      let t := s.fetched u
      s.fetches u = true ∧ f.zeroBut false false false false true true false false true = true ∧ f.D < 16 ∧ f.A < 16 ∧ f.immN < 64 ∧
      t.sv u f.A < 2 ^ 40) ∧
    (∃ (s : State) (u : CtxId) (f : Fields),
      s.fetches u = true ∧ f.zeroBut false false false false true true true false true = true ∧ f.D < 16 ∧ f.A < 16 ∧ f.B < 16) ∧
    (∃ (s : State) (u : CtxId) (f : Fields),
      s.fetches u = true ∧ f.zeroBut false true false false true true false false false = true ∧ f.D < 16 ∧ f.A < 16 ∧ f.modN = 0) ∧
    (∃ (s : State) (u : CtxId) (f : Fields),
      let t := s.fetched u
      s.fetches u = true ∧ f.zeroBut false true false false true true false false false = true ∧ f.D < 16 ∧ f.A < 16 ∧ f.modN = 1 ∧
      t.sv u f.A < 2 ^ 46) :=
  ⟨⟨withS [(0, 2 ^ 40 - 1)], u0, { rd := 15, imm := 63 }, by decide +kernel⟩,
   ⟨live, u0, {}, by decide +kernel⟩,
   ⟨live, u0, {}, by decide +kernel⟩,
   ⟨withS [(0, 2 ^ 46 - 1)], u0, { mod := 1 }, by decide +kernel⟩⟩

/-- The hypotheses of AccumulatorInstructionsComplete, clause by clause. -/
theorem witness_AccumulatorInstructionsComplete :
    (∃ (s : State) (u : CtxId) (f : Fields),
      s.fetches u = true ∧ f.zeroBut false false false false true false false false true = true ∧ f.D < 8 ∧ f.immN < 2 ^ 10) ∧
    (∃ (s : State) (u : CtxId) (f : Fields) (err : ParityErrs),
      let t := s.fetched u
      s.fetches u = true ∧ tmacLegal f = true ∧ (t.acc u f.D).isOpen = true ∧ (tmacTiles f).any (fun n => t.tilePending u n) = false ∧
      (t.tmacIn u f err).badNibble = none) ∧
    (∃ (s : State) (u : CtxId) (f : Fields),
      let t := s.fetched u
      s.fetches u = true ∧ f.zeroBut false false true false true true false false false = true ∧ f.D < 8 ∧ f.A < 8 ∧
      (t.acc u f.D).isOpen = true ∧ (t.acc u f.A).isOpen = true ∧ (t.acc u f.D).anchor = (t.acc u f.A).anchor) ∧
    (∃ (s : State) (u : CtxId) (f : Fields),
      let t := s.fetched u
      s.fetches u = true ∧ f.zeroBut false false false false true false false false true = true ∧ f.D < 8 ∧ f.immN < 2 ^ 10 ∧
      (t.acc u f.D).isOpen = true) ∧
    (∃ (s : State) (u : CtxId) (f : Fields),
      let t := s.fetched u
      s.fetches u = true ∧ f.zeroBut true false true false true true false false false = true ∧ f.D < 8 ∧ f.fmtN = 8 ∧
      (t.acc u f.D).isOpen = true ∧ t.tilePending u f.A = false) ∧
    (∃ (s : State) (u : CtxId) (f : Fields),
      let t := s.fetched u
      s.fetches u = true ∧ f.zeroBut true false true false true true false false true = true ∧ f.A < 8 ∧ f.fmtN ≤ 8 ∧ f.immN < 64 ∧
      16 * fmtW f.fmtN * (f.immN + 1) ≤ 512 ∧ (t.acc u f.A).isOpen = true ∧ t.tilePending u f.D = false) ∧
    (∃ (s : State) (u : CtxId) (f : Fields),
      let t := s.fetched u
      s.fetches u = true ∧ f.zeroBut true false false false true true true false true = true ∧ f.A < 8 ∧ f.B < 8 ∧ f.fmtN ≤ 6 ∧
      f.immN % 256 < 64 ∧ f.immN < 2 ^ 11 ∧ 32 * fmtW f.fmtN * (f.immN % 64 + 1) ≤ 512 ∧ (t.acc u f.A).isOpen = true ∧
      (t.acc u f.B).isOpen = true ∧ (t.acc u f.A).anchor = (t.acc u f.B).anchor ∧ t.tilePending u f.D = false) :=
  ⟨⟨live, u0, { rd := 7, imm := 1023 }, by decide +kernel⟩,
   ⟨live, u0, {}, {}, by decide +kernel⟩,
   ⟨live, u0, {}, by decide +kernel⟩,
   ⟨live, u0, { rd := 7, imm := 512 }, by decide +kernel⟩,
   ⟨live, u0, { fmt := 8 }, by decide +kernel⟩,
   ⟨live, u0, {}, by decide +kernel⟩,
   ⟨live, u0, {}, by decide +kernel⟩⟩

/-- The hypotheses of VectorInstructionsComplete, clause by clause. -/
theorem witness_VectorInstructionsComplete :
    (∃ (s : State) (u : CtxId) (f : Fields),
      let t := s.fetched u
      let second := if f.modBit 0 then [] else [f.B]
      let two := f.zeroBut true true true false true true true false false && decide (f.fmtN = 8) && decide (f.modN < 2) && (!f.modBit 0 || f.b16)
      s.fetches u = true ∧ two = true ∧ ([f.D, f.A] ++ second).any (fun n => t.tilePending u n) = false) ∧
    (∃ (s : State) (u : CtxId) (f : Fields),
      let t := s.fetched u
      let second := if f.modBit 0 then [] else [f.B]
      s.fetches u = true ∧ f.zeroBut true true true false true true true true false = true ∧ f.fmtN = 8 ∧ f.modN < 2 ∧
      (f.modBit 0 = true → f.B < 16) ∧ ([f.D, f.A, f.C] ++ second).any (fun n => t.tilePending u n) = false) ∧
    (∃ (s : State) (u : CtxId) (f : Fields),
      let t := s.fetched u
      s.fetches u = true ∧ f.zeroBut true true true false true true false false false = true ∧ f.fmtN = 8 ∧ f.modN ≤ 4 ∧
      [f.D, f.A].any (fun n => t.tilePending u n) = false) ∧
    (∃ (s : State) (u : CtxId) (f : Fields),
      let t := s.fetched u
      s.fetches u = true ∧ f.zeroBut true false true false true true true false false = true ∧ f.fmtN = 8 ∧ f.B < 16 ∧
      [f.D, f.A].any (fun n => t.tilePending u n) = false) ∧
    (∃ (s : State) (u : CtxId) (f : Fields),
      let t := s.fetched u
      s.fetches u = true ∧ f.zeroBut true false true false true true false false false = true ∧ f.A < 16 ∧ f.fmtN = 8 ∧
      [f.D].any (fun n => t.tilePending u n) = false) ∧
    (∃ (s : State) (u : CtxId) (f : Fields),
      let t := s.fetched u
      s.fetches u = true ∧ f.zeroBut true false true false true true true false false = true ∧ f.fmtN = 8 ∧
      [f.D, f.A, f.B].any (fun n => t.tilePending u n) = false) ∧
    (∃ (s : State) (u : CtxId) (f : Fields),
      let t := s.fetched u
      s.fetches u = true ∧ f.zeroBut true true true false true true false false false = true ∧ f.D < 16 ∧ f.fmtN = 8 ∧ f.modN ≤ 2 ∧
      [f.A].any (fun n => t.tilePending u n) = false) ∧
    (∃ (s : State) (u : CtxId) (f : Fields),
      let t := s.fetched u
      s.fetches u = true ∧ f.zeroBut true false true true true true false false true = true ∧ f.fmtN ≤ 8 ∧ f.auxN ≤ 8 ∧
      (f.fmtN = 8 ∨ f.auxN = 8) ∧ f.immN < 64 ∧ 16 * fmtW (vcvtNarrow f) * (f.immN + 1) ≤ 512 ∧
      [f.D, f.A].any (fun n => t.tilePending u n) = false) :=
  ⟨⟨live, u0, { fmt := 8, mod := 1, rb := 15 }, by decide +kernel⟩,
   ⟨live, u0, { fmt := 8, mod := 1 }, by decide +kernel⟩,
   ⟨live, u0, { fmt := 8, mod := 4 }, by decide +kernel⟩,
   ⟨live, u0, { fmt := 8 }, by decide +kernel⟩,
   ⟨live, u0, { fmt := 8 }, by decide +kernel⟩,
   ⟨live, u0, { fmt := 8 }, by decide +kernel⟩,
   ⟨live, u0, { fmt := 8, mod := 2 }, by decide +kernel⟩,
   ⟨live, u0, { fmt := 8 }, by decide +kernel⟩⟩

/-- The hypotheses of MaskPoisonAndDrawInstructionsComplete, clause by clause. -/
theorem witness_MaskPoisonAndDrawInstructionsComplete :
    (∃ (s : State) (u : CtxId) (f : Fields),
      let t := s.fetched u
      s.fetches u = true ∧ f.zeroBut false false false false true true false false false = true ∧ f.D < 8 ∧ f.A < 16 ∧ t.sp u f.A = false) ∧
    (∃ (s : State) (u : CtxId) (f : Fields),
      s.fetches u = true ∧ f.zeroBut false true false false true true (decide (f.modN ≠ 4)) false false = true ∧ f.D < 8 ∧ f.A < 8 ∧
      f.B < 8 ∧ f.modN ≤ 4) ∧
    (∃ (s : State) (u : CtxId) (f : Fields),
      let t := s.fetched u
      let tiles := f.A :: (if f.modBit 0 then [] else [f.B])
      s.fetches u = true ∧ f.zeroBut false true false false true true true false false = true ∧ f.D < 8 ∧ f.modN / 2 ≤ 3 ∧
      (f.modBit 0 = true → f.B < 16) ∧ tiles.any (fun n => t.tilePending u n) = false ∧
      ((t.tile u f.A).anyPoison || (if f.modBit 0 then t.sp u f.B else (t.tile u f.B).anyPoison)) = false) ∧
    (∃ (s : State) (u : CtxId) (f : Fields),
      let t := s.fetched u
      let clean := t.sp u f.A = false ∧ t.sp u f.B = false ∧ t.sp u f.C = false
      s.fetches u = true ∧ f.zeroBut false true false false true true true true false = true ∧ f.D < 8 ∧ f.A < 16 ∧ f.B < 16 ∧ f.C < 16 ∧
      f.modN < 2 ∧ clean) ∧
    (∃ (s : State) (u : CtxId) (f : Fields),
      let t := s.fetched u
      let clean := t.sp u f.A = false ∧ t.sp u f.B = false ∧ t.sp u f.C = false
      s.fetches u = true ∧ f.zeroBut false true false false true true true true false = true ∧ f.D < 16 ∧ f.A < 16 ∧ f.B < 16 ∧ f.C < 16 ∧
      f.modN < 2 ∧ clean) ∧
    (∃ (s : State) (u : CtxId) (f : Fields),
      s.fetches u = true ∧ f.zeroBut false false false false true true false false false = true ∧ f.D < 16 ∧ f.A < 8) ∧
    (∃ (s : State) (u : CtxId) (f : Fields),
      let t := s.fetched u
      s.fetches u = true ∧ f.zeroBut true false false false true true false false false = true ∧ f.D < 16 ∧ f.fmtN ≤ 6 ∧
      t.tilePending u f.A = false) ∧
    (∃ (s : State) (u : CtxId) (f : Fields),
      s.fetches u = true ∧ f.zeroBut false false false false true true true false true = true ∧ f.D < 16 ∧ f.A < 16 ∧ f.B < 16) ∧
    (∃ (s : State) (u : CtxId) (f : Fields),
      let t := s.fetched u
      let own := if f.modN = 0 then [f.A] else []
      s.fetches u = true ∧ f.zeroBut false true false false true true false false false = true ∧ f.D < 16 ∧ f.modN < 4 ∧
      classLegal f = true ∧ own.any (fun n => t.tilePending u n) = false) ∧
    (∃ (s : State) (u : CtxId) (f : Fields),
      let t := s.fetched u
      let own := if f.modN = 0 then [f.A] else []
      s.fetches u = true ∧ f.zeroBut false true false false false true false false true = true ∧ f.modN < 4 ∧ classLegal f = true ∧
      f.immN < 2 ^ pmarkBits f ∧ own.any (fun n => t.tilePending u n) = false) :=
  ⟨⟨live, u0, {}, by decide +kernel⟩,
   ⟨live, u0, {}, by decide +kernel⟩,
   ⟨live, u0, {}, by decide +kernel⟩,
   ⟨live, u0, {}, by decide +kernel⟩,
   ⟨live, u0, {}, by decide +kernel⟩,
   ⟨live, u0, {}, by decide +kernel⟩,
   ⟨live, u0, {}, by decide +kernel⟩,
   ⟨live, u0, {}, by decide +kernel⟩,
   ⟨live, u0, {}, by decide +kernel⟩,
   ⟨live, u0, {}, by decide +kernel⟩⟩

/-- The hypotheses of LoadInstructionsComplete, clause by clause. -/
theorem witness_LoadInstructionsComplete :
    (∃ (s : State) (u : CtxId) (f : Fields) (e : Upsets),
      let t := s.fetched u
      let t := (s.strike e).fetched u;
      (s.strike e).fetches u = true ∧ Fields.memLegal f 0 false = true ∧ noFault (t.memConds u f 64 64 rRead) = true ∧
      t.tilePending u f.D = false ∧ t.loadsNow u (t.memPieces u f 64) = true) ∧
    (∃ (s : State) (u : CtxId) (f : Fields),
      let t := s.fetched u
      s.fetches u = true ∧ Fields.memLegal f 0 false = true ∧ noFault (t.memConds u f 8 8 rRead) = true ∧ t.tilePending u f.D = false ∧
      t.loadsNow u (t.memPieces u f 8) = true) ∧
    (∃ (s : State) (u : CtxId) (f : Fields),
      let t := s.fetched u
      let n := Fields.scalarSize f
      s.fetches u = true ∧ Fields.memLegal f 7 false = true ∧ f.D < 16 ∧ noFault (t.memConds u f n n rRead) = true ∧
      t.loadsNow u (t.memPieces u f n) = true) ∧
    (∃ (s : State) (u : CtxId) (f : Fields),
      let t := s.fetched u
      s.fetches u = true ∧ Fields.memLegal f 1 (f.modBit 0) = true ∧ f.D < 8 ∧ noFault (t.memConds u f (aldSize f) 64 rRead) = true ∧
      (f.modBit 0 = true → (t.acc u f.D).isOpen = true) ∧ t.loadsNow u (t.memPieces u f (aldSize f)) = true) ∧
    (∃ (s : State) (u : CtxId) (f : Fields),
      let t := s.fetched u
      s.fetches u = true ∧ f.zeroBut true false true false true true true false true = true ∧ f.D < 8 ∧ f.A < 16 ∧ f.immN ≤ 60 ∧
      6 ≤ f.fmtN ∧ f.fmtN ≤ 8 ∧ (t.X u f.A).p = false ∧ (t.acc u f.D).isOpen = true ∧ t.tilePending u f.B = false ∧
      t.spanCheck (t.actor u) (t.xSpan u f.A) ((t.xOff u f.A : Int) + 256 * f.immN * tgaW f.fmtN) (1024 * tgaW f.fmtN) rRead = none ∧
      t.loadsNow u (t.tgaPieces u f) = true) :=
  ⟨⟨live, u0, {}, {}, by decide +kernel⟩,
   ⟨live, u0, {}, by decide +kernel⟩,
   ⟨live, u0, {}, by decide +kernel⟩,
   ⟨live, u0, {}, by decide +kernel⟩,
   ⟨live, u0, { fmt := 8 }, by decide +kernel⟩⟩

/-- The hypotheses of StoreInstructionsComplete, clause by clause. -/
theorem witness_StoreInstructionsComplete :
    (∃ (s : State) (u : CtxId) (f : Fields),
      let t := s.fetched u
      s.fetches u = true ∧ Fields.memLegal f 1 true = true ∧ noFault (t.memConds u f 64 64 rWrite) = true ∧ t.tilePending u f.D = false ∧
      t.storesNow u (t.memPieces u f 64) (t.tstBytes u f) = true) ∧
    (∃ (s : State) (u : CtxId) (f : Fields),
      let t := s.fetched u
      s.fetches u = true ∧ Fields.memLegal f 0 false = true ∧ noFault (t.memConds u f 8 8 rWrite) = true ∧ t.tilePending u f.D = false ∧
      t.storesNow u (t.memPieces u f 8) 255 = true) ∧
    (∃ (s : State) (u : CtxId) (f : Fields),
      let t := s.fetched u
      let n := Fields.scalarSize f
      s.fetches u = true ∧ Fields.memLegal f 3 false = true ∧ f.D < 16 ∧ noFault (t.memConds u f n n rWrite) = true ∧
      t.storesNow u (t.memPieces u f n) (ones n) = true) ∧
    (∃ (s : State) (u : CtxId) (f : Fields),
      let t := s.fetched u
      s.fetches u = true ∧ Fields.memLegal f 1 (!f.modBit 0) = true ∧ f.D < 8 ∧ f.modBit 0 = true ∧
      noFault (t.memConds u f 320 64 rWrite) = true ∧ t.storesNow u (t.memPieces u f 320) (ones 320) = true) ∧
    (∃ (s : State) (u : CtxId) (f : Fields),
      let t := s.fetched u
      s.fetches u = true ∧ Fields.memLegal f 1 (!f.modBit 0) = true ∧ f.D < 8 ∧ f.modBit 0 = false ∧
      noFault (t.memConds u f 256 64 rWrite) = true ∧ (t.acc u f.D).isOpen = true ∧ t.storesNow u (t.memPieces u f 256) (elemBytes16 (t.maskE u f % 2 ^ 16)) = true) :=
  ⟨⟨live, u0, {}, by decide +kernel⟩,
   ⟨live, u0, {}, by decide +kernel⟩,
   ⟨live, u0, {}, by decide +kernel⟩,
   ⟨live, u0, { mod := 1 }, by decide +kernel⟩,
   ⟨live, u0, {}, by decide +kernel⟩⟩

/-- The hypotheses of AsynchronousInstructionsComplete, clause by clause. -/
theorem witness_AsynchronousInstructionsComplete :
    (∃ (s : State) (u : CtxId) (f : Fields),
      let t := s.fetched u
      s.fetches u = true ∧ f.zeroBut false true false true true true (f.modBit 3) true true = true ∧ Fields.addrLegal f = true ∧
      f.modN % 8 = 0 ∧ f.C ≤ 7 ∧ f.D + f.C + 1 ≤ 32 ∧ noFault (t.memConds u f (64 * (f.C + 1)) 64 rRead) = true ∧
      (span f.D (f.C + 1)).any (fun n => t.tilePending u n) = false ∧ t.flagFull u f.auxN = false) ∧
    (∃ (s : State) (u : CtxId) (f : Fields),
      let t := s.fetched u
      let n := t.sv u f.B
      s.fetches u = true ∧ f.zeroBut false false false true true true true false false = true ∧ f.D < 16 ∧ f.A < 16 ∧ f.B < 16 ∧
      (t.X u f.A).p = false ∧ (t.X u f.D).p = false ∧ t.sp u f.B = false ∧
      t.accessFault (t.actor u) (t.xSpan u f.A) (t.xOff u f.A : Int) n 64 rRead = none ∧
      t.accessFault (t.actor u) (t.xSpan u f.D) (t.xOff u f.D : Int) n 64 rWrite = none ∧ 64 ≤ n ∧ n ≤ 0x100000 ∧ n % 64 = 0 ∧
      t.flagFull u f.auxN = false) ∧
    (∃ (s : State) (u : CtxId) (f : Fields),
      let t := s.fetched u
      s.fetches u = true ∧ f.zeroBut false false false false false false false false true = true ∧ f.immN < 2 ^ 16 ∧
      (∀ n < 16, f.immN.testBit n = true → (t.ctx u).AF n = 0)) ∧
    (∃ (s : State) (u : CtxId) (f : Fields),
      let t := s.fetched u
      s.fetches u = true ∧ f.zeroBut false false false false false false false false true = true ∧ f.immN < 64 ∧
      nmem (t.drum u.kit u.drum).flagSet f.immN = true) ∧
    (∃ (s : State) (u : CtxId) (x k word : Nat),
      let a := s.advance x;
      (s.ctx u).wait = .load x ∧ (a.xfer x).kind = .load k word ∧ a.finishable x = true) ∧
    (∃ (s : State) (x k rd n flag : Nat),
      let a := s.advance x
      a.finishable x = true ∧ (a.xfer x).kind = .aldt k rd n flag) ∧
    (∃ (s : State) (x k flag : Nat),
      let a := s.advance x
      a.finishable x = true ∧ (a.xfer x).kind = .copy k flag) ∧
    (∃ (s : State) (x k flag slot sel pos : Nat),
      let a := s.advance x
      a.finishable x = true ∧ (a.xfer x).kind = .kvapp k flag slot sel pos ∧
      (a.askAppend x (ctxOfKey k).kit slot sel pos).xferOwes x = false) :=
  ⟨⟨live, u0, {}, by decide +kernel⟩,
   ⟨withS [(1, 64)], u0, { rb := 1 }, by decide +kernel⟩,
   ⟨live, u0, {}, by decide +kernel, by decide +kernel, by decide +kernel, by intro n hn _; revert n hn; decide +kernel⟩,
   ⟨withDrum (fun d => { d with flagSet := [0] }), u0, {}, by decide +kernel⟩,
   ⟨{ withCtx (fun c => { c with wait := .load 1 }) with xfers := [(1, { kind := .load 0 0, live := true })] }, u0, 1, 0, 0, by decide +kernel⟩,
   ⟨{ live with xfers := [(1, { kind := .aldt 0 0 1 0, live := true })] }, 1, 0, 0, 1, 0, by decide +kernel⟩,
   ⟨{ live with xfers := [(1, { kind := .copy 0 0, live := true })] }, 1, 0, 0, by decide +kernel⟩,
   ⟨{ live with xfers := [(1, { kind := .kvapp 0 0 0 0 0, live := true })] }, 1, 0, 0, 0, 0, 0, by decide +kernel⟩⟩

/-- The hypotheses of FabricInstructionsComplete, clause by clause. -/
theorem witness_FabricInstructionsComplete :
    (∃ (s : State) (u : CtxId) (f : Fields),
      let t := s.fetched u
      let p := t.partOf u
      let o := t.xOff u f.A
      s.fetches u = true ∧ f.zeroBut false false true false true true false false true = true ∧ f.A < 16 ∧ f.immN < 256 ∧
      (t.X u f.A).p = false ∧ o % 64 = 0 ∧ t.tilePending u f.D = false ∧ t.fb F.FAB_PEAL_VALID f.immN 0 = false) ∧
    (∃ (s : State) (u : CtxId) (f : Fields),
      let t := s.fetched u
      let p := t.partOf u
      let o := t.xOff u f.A
      let en := wordToBytes (t.maskE u f)
      s.fetches u = true ∧ f.zeroBut false false true false true true false false true = true ∧ f.A < 16 ∧ f.immN < 256 ∧
      (t.X u f.A).p = false ∧ o % 64 = 0 ∧ t.tilePending u f.D = false ∧ t.fb F.FAB_PEAL_VALID f.immN 0 = true ∧ en = 0) ∧
    (∃ (s : State) (u : CtxId) (f : Fields),
      let t := s.fetched u
      let p := t.partOf u
      let o := t.xOff u f.A
      let en := wordToBytes (t.maskE u f)
      let a := t.f F.FAB_PEAL_FGROUP f.immN 0 * 2 ^ 48 + t.f F.FAB_PEAL_EXPORT f.immN 0 * 2 ^ 40 + o
      s.fetches u = true ∧ f.zeroBut false false true false true true false false true = true ∧ f.A < 16 ∧ f.immN < 256 ∧
      (t.X u f.A).p = false ∧ o % 64 = 0 ∧ t.tilePending u f.D = false ∧ t.fb F.FAB_PEAL_VALID f.immN 0 = true ∧ en ≠ 0 ∧
      t.canPost u a 64 = true) ∧
    (∃ (s : State) (u : CtxId) (f : Fields) (i : Nat) (pc : Piece),
      let t := s.fetched u
      let p := t.partOf u
      let sp := t.xSpan u f.A
      let o := t.xOff u f.A
      s.fetches u = true ∧ f.zeroBut false true false false true true true (decide (f.modN = 1)) false = true ∧ f.D < 16 ∧ f.A < 16 ∧
      f.B < 16 ∧ f.C < 16 ∧ f.modN ≤ 1 ∧ (t.X u f.A).p = false ∧ t.sp u f.B = false ∧ (f.modN = 1 → t.sp u f.C = false) ∧
      t.accessFault (t.actor u) sp (o : Int) 8 8 rAtomic = none ∧ t.spanPieces (t.actor u) sp o 8 = [(i, pc)] ∧ pc.rem = false ∧
      t.rmwCredit u pc.addr 8 = true) ∧
    (∃ (s : State) (u : CtxId) (f : Fields) (i : Nat) (pc : Piece),
      let t := s.fetched u
      let p := t.partOf u
      let sp := t.xSpan u f.A
      let o := t.xOff u f.A
      s.fetches u = true ∧ f.zeroBut false true false false true true true (decide (f.modN = 1)) false = true ∧ f.D < 16 ∧ f.A < 16 ∧
      f.B < 16 ∧ f.C < 16 ∧ f.modN ≤ 1 ∧ (t.X u f.A).p = false ∧ t.sp u f.B = false ∧ (f.modN = 1 → t.sp u f.C = false) ∧
      t.accessFault (t.actor u) sp (o : Int) 8 8 rAtomic = none ∧ t.spanPieces (t.actor u) sp o 8 = [(i, pc)] ∧ pc.rem = true ∧
      t.canPost u pc.addr 16 = true) ∧
    (∃ (s : State) (u : CtxId) (f : Fields),
      let t := s.fetched u
      let p := t.partOf u
      let sp := t.xSpan u f.A
      let o := t.xOff u f.A
      let e := t.maskE u f % 2 ^ 16
      s.fetches u = true ∧ f.zeroBut false true true false true true false false false = true ∧ f.A < 16 ∧ f.modN ≤ 4 ∧
      (f.modN = 0 → f.D < 8) ∧ (t.X u f.A).p = false ∧ t.accessFault (t.actor u) sp (o : Int) (redBytes f.modN) 64 rReduce = none ∧
      (f.modN = 0 → (t.acc u f.D).isOpen = true ∧ (List.range 16).any (fun n => (t.maskE u f % 2 ^ 16).testBit n && ((t.acc u f.D).el n).inv) = false) ∧
      (if f.modN = 0 then [] else [f.D]).any (fun n => t.tilePending u n) = false ∧ e = 0) ∧
    (∃ (s : State) (u : CtxId) (f : Fields) (i : Nat) (pc : Piece),
      let t := s.fetched u
      let p := t.partOf u
      let sp := t.xSpan u f.A
      let o := t.xOff u f.A
      let e := t.maskE u f % 2 ^ 16
      let n := redBytes f.modN
      s.fetches u = true ∧ f.zeroBut false true true false true true false false false = true ∧ f.A < 16 ∧ f.modN ≤ 4 ∧
      (f.modN = 0 → f.D < 8) ∧ (t.X u f.A).p = false ∧ t.accessFault (t.actor u) sp (o : Int) (redBytes f.modN) 64 rReduce = none ∧
      (f.modN = 0 → (t.acc u f.D).isOpen = true ∧ (List.range 16).any (fun n => (t.maskE u f % 2 ^ 16).testBit n && ((t.acc u f.D).el n).inv) = false) ∧
      (if f.modN = 0 then [] else [f.D]).any (fun n => t.tilePending u n) = false ∧ e ≠ 0 ∧
      t.spanPieces (t.actor u) sp o n = [(i, pc)] ∧ pc.rem = false ∧ t.rmwCredit u pc.addr n = true) ∧
    (∃ (s : State) (u : CtxId) (f : Fields),
      let t := s.fetched u
      let sp := t.xSpan u f.A
      let o := t.xOff u f.A
      let e := t.maskE u f % 2 ^ 16
      let n := redBytes f.modN
      let ps := t.spanPieces (t.actor u) sp o n
      let ks := redPackets f.modN (if f.modN = 0 then (t.acc u f.D).anchor.toNat else 0) e (t.redData u f) ps
      s.fetches u = true ∧ f.zeroBut false true true false true true false false false = true ∧ f.A < 16 ∧ f.modN ≤ 4 ∧
      (f.modN = 0 → f.D < 8) ∧ (t.X u f.A).p = false ∧ t.accessFault (t.actor u) sp (o : Int) (redBytes f.modN) 64 rReduce = none ∧
      (f.modN = 0 → (t.acc u f.D).isOpen = true ∧ (List.range 16).any (fun n => (t.maskE u f % 2 ^ 16).testBit n && ((t.acc u f.D).el n).inv) = false) ∧
      (if f.modN = 0 then [] else [f.D]).any (fun n => t.tilePending u n) = false ∧ e ≠ 0 ∧ (remoteOf ps).isEmpty = false ∧
      ks.all (fun k => t.canPost u k.addr (ks.length * n) && t.tagsFree (nodeOf k.addr) ks.length) = true) ∧
    (∃ (s : State) (u : CtxId) (f : Fields),
      let t := s.fetched u
      let p := t.partOf u
      let sp := t.xSpan u f.A
      let o := t.xOff u f.A
      let ps := t.spanPieces (t.actor u) sp o 64
      s.fetches u = true ∧ f.zeroBut false true false (f.modBit 0) false true false false true = true ∧ f.A < 16 ∧ f.modN ≤ 1 ∧
      f.immN < 8 ∧ (t.X u f.A).p = false ∧ t.accessFault (t.actor u) sp (o : Int) 64 64 rRead = none ∧
      (f.modBit 0 && t.flagFull u f.auxN) = false ∧
      (t.qOn p (f.immN % 8) && t.fb F.TRN_QUEUE_CFG_MALLET p (f.immN % 8) && t.qFull p (f.immN % 8)) = false ∧ t.loadsNow u ps = true) ∧
    (∃ (s : State) (u : CtxId) (f : Fields),
      s.fetches u = true ∧ f.zeroBut false true false false false false false false false = true ∧ f.modN ≤ 3 ∧ f.modN ≠ 3) ∧
    (∃ (s : State) (u : CtxId) (f : Fields),
      s.fetches u = true ∧ f.zeroBut false true false false false false false false false = true ∧ f.modN ≤ 3 ∧ f.modN = 3) :=
  ⟨⟨live, u0, {}, by decide +kernel⟩,
   ⟨place (withCtx (fun c => { c with m := [(0, 0)] })) [(F.FAB_PEAL_VALID, 0, 0, 1)], u0, { men := 1 }, by decide +kernel⟩,
   ⟨place live [(F.FAB_PEAL_VALID, 0, 0, 1)], u0, {}, by decide +kernel⟩,
   ⟨live, u0, {}, 0, { addr := slotAddr 0 0 0x100000, len := 8 }, by decide +kernel⟩,
   ⟨withCtx (fun c => { c with x := [(0, { span := 1 })] }), u0, {}, 0, { rem := true, addr := 5 * 2 ^ 48, len := 8 }, by decide +kernel⟩,
   ⟨withCtx (fun c => { c with m := [(0, 0)] }), u0, { men := 1 }, by decide +kernel⟩,
   ⟨live, u0, {}, 0, { addr := slotAddr 0 0 0x100000, len := 256 }, by decide +kernel⟩,
   ⟨withCtx (fun c => { c with x := [(0, { span := 1 })] }), u0, {}, by decide +kernel⟩,
   ⟨live, u0, {}, by decide +kernel⟩,
   ⟨live, u0, {}, by decide +kernel⟩,
   ⟨live, u0, { mod := 3 }, by decide +kernel⟩⟩

/-- The hypotheses of GongInstructionsComplete, clause by clause. -/
theorem witness_GongInstructionsComplete :
    (∃ (s : State) (u : CtxId) (f : Fields),
      let t := s.fetched u
      let p := t.partOf u
      let w := t.gongCfg p f.auxN
      s.fetches u = true ∧ f.zeroBut false true false true false false false false false = true ∧ gongEnabled w = true ∧ f.modN = 3 ∧
      gongEvent w = true) ∧
    (∃ (s : State) (u : CtxId) (f : Fields),
      let t := s.fetched u
      let p := t.partOf u
      let w := t.gongCfg p f.auxN
      s.fetches u = true ∧ f.zeroBut false true false true false false false false false = true ∧ gongEnabled w = true ∧ f.modN = 2) ∧
    (∃ (s : State) (u : CtxId) (f : Fields),
      let t := s.fetched u
      let p := t.partOf u
      let w := t.gongCfg p f.auxN
      s.fetches u = true ∧ f.zeroBut false true false true false false false false false = true ∧ gongEnabled w = true ∧ f.modN ≤ 1 ∧
      gongEvent w = false) ∧
    (∃ (s : State) (u : CtxId) (l : Nat) (stay : Bool),
      let p := s.partOf u;
      (s.ctx u).wait = .arrive l stay ∧ (gongFabric (s.gongCfg p l) = true → (s.ctx u).posted = 0) ∧ s.flushOwes u = false ∧ s.stepState p = stRunning) :=
  ⟨⟨withGong (F.PAR_GONG_LINE_KIND.put (F.PAR_GONG_LINE_ENABLE.put 0 1) 1), u0, { mod := 3 }, by decide +kernel⟩,
   ⟨withGong (F.PAR_GONG_LINE_ENABLE.put 0 1), u0, { mod := 2 }, by decide +kernel⟩,
   ⟨withGong (F.PAR_GONG_LINE_ENABLE.put 0 1), u0, {}, by decide +kernel⟩,
   ⟨withCtx (fun c => { c with wait := .arrive 0 false }), u0, 0, false, by decide +kernel⟩⟩

/-- The hypotheses of RouterKvAndTallyInstructionsComplete, clause by clause. -/
theorem witness_RouterKvAndTallyInstructionsComplete :
    (∃ (s : State) (u : CtxId) (f : Fields),
      let t := s.fetched u
      let p := t.partOf u
      let w := t.sv u f.C
      let ret := t.retBytes u.kit
      s.fetches u = true ∧ f.zeroBut false false false true false true true true true = true ∧ f.A < 16 ∧ f.B < 16 ∧ f.C < 16 ∧
      f.immN < 2 ^ 14 ∧ 1 ≤ rdispK f ∧ rdispK f ≤ 8 ∧ rdispE f ≤ 512 ∧ rdispK f ≤ rdispE f ∧
      noFault [when ((t.X u f.A).p || (t.X u f.B).p || t.sp u f.C) 3, t.accessFault (t.actor u) (t.xSpan u f.A) (t.xOff u f.A : Int) (4 * rdispE f) 64 rRead, t.accessFault (t.actor u) (t.xSpan u f.B) (t.xOff u f.B : Int) (t.actBytes u.kit) 64 rRead, t.accessFault (t.actor u) (t.rtr u.kit F.KIT_ROUTER_CONFIG_RET_SPAN) (w % 2 ^ 32 * ret : Int) ret 64 rReduce, when (decide (bits w 48 32 ≠ 0)) 8 w] = true ∧
      t.flagFull u f.auxN = false) ∧
    (∃ (s : State) (u : CtxId) (f : Fields) (q : InboxRec) (rest : List InboxRec),
      let t := s.fetched u
      s.fetches u = true ∧ f.zeroBut false false false false true false false false false = true ∧ f.D < 16 ∧
      (t.drum u.kit u.drum).inbox = q :: rest) ∧
    (∃ (s : State) (u : CtxId) (f : Fields),
      let t := s.fetched u
      let p := t.partOf u
      let n := t.slotArg u f.A
      let sel := t.sv u f.C
      let len := selLen sel (t.kvEB n)
      s.fetches u = true ∧ f.zeroBut false false false true true true true true true = true ∧ f.D < 16 ∧ f.A < 16 ∧ f.B < 16 ∧ f.C < 16 ∧
      1 ≤ f.immN ∧ f.immN ≤ 64 ∧
      noFault ([when ((t.X u f.D).p || t.sp u f.A || t.sp u f.B || t.sp u f.C) 3, t.accessFault (t.actor u) (t.xSpan u f.D) (t.xOff u f.D : Int) (f.immN * len) 64 rWrite, when (!t.selOk n sel false) 8 sel, when (decide (t.kvCT n < t.sv u f.B + f.immN)) 8 (t.sv u f.B)] ++ t.kvConds u f.A false 0) = true ∧
      t.flagFull u f.auxN = false) ∧
    (∃ (s : State) (u : CtxId) (f : Fields),
      let t := s.fetched u
      let p := t.partOf u
      let n := t.slotArg u f.A
      let pos := t.sv u f.B
      let sel := t.sv u f.C
      s.fetches u = true ∧ f.zeroBut false false false true true true true true false = true ∧ f.D < 16 ∧ f.A < 16 ∧ f.B < 16 ∧ f.C < 16 ∧
      noFault ([when ((t.X u f.D).p || t.sp u f.A || t.sp u f.B || t.sp u f.C) 3, t.accessFault (t.actor u) (t.xSpan u f.D) (t.xOff u f.D : Int) (t.kvEB n) 64 rRead, when (!t.selOk n sel true) 8 sel, when (decide (pos < t.kvCommitted n) || decide (t.kvL n ≤ pos)) 8 pos] ++ t.kvConds u f.A true (selLayer sel)) = true ∧
      t.flagFull u f.auxN = false) ∧
    (∃ (s : State) (u : CtxId) (f : Fields),
      let t := s.fetched u
      let p := t.partOf u
      s.fetches u = true ∧ f.zeroBut false false false false true true true false false = true ∧ f.A < 16 ∧ f.B < 16 ∧
      t.sp u f.A = false ∧ t.sp u f.B = false ∧ t.sv u f.A + 16 ≤ 2 ^ 24 ∧ t.ownsSlot p (t.slotArg u f.B) = true ∧
      t.tilePending u f.D = false ∧ t.owes (ctxStream u) = false) ∧
    (∃ (s : State) (u : CtxId) (f : Fields),
      let t := s.fetched u
      let p := t.partOf u
      s.fetches u = true ∧ f.zeroBut false false true false true true true false true = true ∧ f.D < 16 ∧ f.B < 16 ∧ 1 ≤ f.immN ∧
      f.immN ≤ 64 ∧ (t.X u f.D).p = false ∧ t.sp u f.B = false ∧
      t.accessFault (t.actor u) (t.xSpan u f.D) (t.xOff u f.D : Int) (8 * f.immN) 8 rWrite = none ∧ t.tilePending u f.A = false ∧
      t.maskE u f % 2 ^ 16 ≠ 0 ∧ t.loadsNow u (t.topkPieces u f) = true) ∧
    (∃ (s : State) (u : CtxId) (f : Fields),
      let t := s.fetched u
      let p := t.partOf u
      s.fetches u = true ∧ f.zeroBut false true false false false true true false false = true ∧ f.A < 16 ∧ f.B < 16 ∧ f.modN < 2 ∧
      t.sp u f.A = false ∧ t.sp u f.B = false ∧ t.sv u f.B < 2 ^ 24 ∧ (f.modN = 1 → t.kvShadow (t.slotArg u f.A) < 64) ∧
      t.ownsSlot p (t.slotArg u f.A) = true ∧ (f.modN = 0 → t.owes (ctxStream u) = false)) :=
  ⟨⟨live, u0, { imm := 1 }, by decide +kernel⟩,
   ⟨withDrum (fun d => { d with inbox := [{}] }), u0, {}, {}, [], by decide +kernel⟩,
   ⟨kvLive, u0, { imm := 1 }, by decide +kernel⟩,
   ⟨kvLive, u0, {}, by decide +kernel⟩,
   ⟨kvLive, u0, {}, by decide +kernel⟩,
   ⟨live, u0, { imm := 64 }, by decide +kernel⟩,
   ⟨kvLive, u0, {}, by decide +kernel⟩⟩

/-- The hypotheses of ContextActionsComplete, clause by clause. -/
theorem witness_ContextActionsComplete :
    (∃ (s : State) (k n : Nat) (w : Word),
      let u : CtxId := ⟨k, s.phys k n, F.DRM_CTX_CONTROL_MALLET.of w, F.DRM_CTX_CONTROL_CTX.of w⟩
      let act := F.DRM_CTX_CONTROL_ACTION.of w
      let may := s.fb F.HUB_STATUS_READY 0 0 = true ∧ s.kitLive k = true ∧ n < 150 ∧
          (∃ p, s.partOfKit k = some p ∧ s.stepState p = stRunning) ∧ 1 ≤ (s.ctx u).fault ∧ (s.ctx u).fault ≤ 15 ∧ (s.ctx u).halted = false
      may ∧ act = 1) ∧
    (∃ (s : State) (k n : Nat) (w : Word),
      let u : CtxId := ⟨k, s.phys k n, F.DRM_CTX_CONTROL_MALLET.of w, F.DRM_CTX_CONTROL_CTX.of w⟩
      let act := F.DRM_CTX_CONTROL_ACTION.of w
      let may := s.fb F.HUB_STATUS_READY 0 0 = true ∧ s.kitLive k = true ∧ n < 150 ∧
          (∃ p, s.partOfKit k = some p ∧ s.stepState p = stRunning) ∧ 1 ≤ (s.ctx u).fault ∧ (s.ctx u).fault ≤ 15 ∧ (s.ctx u).halted = false
      may ∧ act = 2) ∧
    (∃ (s : State) (k n : Nat) (w : Word),
      let u : CtxId := ⟨k, s.phys k n, F.DRM_CTX_CONTROL_MALLET.of w, F.DRM_CTX_CONTROL_CTX.of w⟩
      let act := F.DRM_CTX_CONTROL_ACTION.of w
      let may := s.fb F.HUB_STATUS_READY 0 0 = true ∧ s.kitLive k = true ∧ n < 150 ∧
          (∃ p, s.partOfKit k = some p ∧ s.stepState p = stRunning) ∧ 1 ≤ (s.ctx u).fault ∧ (s.ctx u).fault ≤ 15 ∧ (s.ctx u).halted = false
      may ∧ act = 3) ∧
    (∃ (s : State) (k n : Nat) (w : Word),
      let u : CtxId := ⟨k, s.phys k n, F.DRM_CTX_CONTROL_MALLET.of w, F.DRM_CTX_CONTROL_CTX.of w⟩
      let act := F.DRM_CTX_CONTROL_ACTION.of w
      let may := s.fb F.HUB_STATUS_READY 0 0 = true ∧ s.kitLive k = true ∧ n < 150 ∧
          (∃ p, s.partOfKit k = some p ∧ s.stepState p = stRunning) ∧ 1 ≤ (s.ctx u).fault ∧ (s.ctx u).fault ≤ 15 ∧ (s.ctx u).halted = false
      may ∧ act = 4) ∧
    (∃ (s : State) (k n : Nat) (w : Word),
      let u : CtxId := ⟨k, s.phys k n, F.DRM_CTX_CONTROL_MALLET.of w, F.DRM_CTX_CONTROL_CTX.of w⟩
      let may := s.fb F.HUB_STATUS_READY 0 0 = true ∧ s.kitLive k = true ∧ n < 150 ∧
          (∃ p, s.partOfKit k = some p ∧ s.stepState p = stRunning) ∧ 1 ≤ (s.ctx u).fault ∧ (s.ctx u).fault ≤ 15 ∧ (s.ctx u).halted = false
      ¬ may) :=
  ⟨⟨withCtx (fun c => { c with fault := 15 }), 0, 0, F.DRM_CTX_CONTROL_ACTION.put 0 1, by decide +kernel⟩,
   ⟨withCtx (fun c => { c with fault := 15 }), 0, 0, F.DRM_CTX_CONTROL_ACTION.put 0 2, by decide +kernel⟩,
   ⟨withCtx (fun c => { c with fault := 15 }), 0, 0, F.DRM_CTX_CONTROL_ACTION.put 0 3, by decide +kernel⟩,
   ⟨withCtx (fun c => { c with fault := 15 }), 0, 0, F.DRM_CTX_CONTROL_ACTION.put 0 4, by decide +kernel⟩,
   ⟨live, 0, 150, 0, by decide +kernel⟩⟩

/-- The hypotheses of StepCommandsComplete, clause by clause. -/
theorem witness_StepCommandsComplete :
    (∃ (s : State) (p : Nat) (w : Word),
      p < 8 ∧ s.fb F.HUB_STATUS_READY 0 0 = true ∧ s.fb F.SRV_STEP_SUBMIT_PENDING p 0 = false ∧ F.SRV_STEP_SUBMIT_COUNT.of w ≤ 4096 ∧
      bits w.toNat 30 1 = 0) ∧
    (∃ (s : State) (p : Nat),
      p < 8 ∧ s.startable p = true ∧ s.phase p = phNone) ∧
    (∃ (s : State) (p : Nat),
      p < 8 ∧ s.startable p = true ∧ s.phase p = phWaiting) ∧
    (∃ (s : State) (k d : Nat),
      s.kitLive k = true ∧ d < 156 ∧ (s.drum k d).kicked = true ∧ s.stepState ((s.partOfKit k).getD 0) = stRunning ∧
      ((s.drum k d).calibrating && (s.drum k d).forcedCalib) = false ∧ s.mustForce k d = false ∧ (s.drum k d).rebindFrom = 0 ∧
      s.checkHolds k d = false ∧ s.halted = false) ∧
    (∃ (s : State) (k n : Nat),
      s.kitLive k = true ∧ n < 150 ∧ (s.drum k (s.phys k n)).rebindFrom ≠ 0 ∧ (s.drum k (s.phys k n)).calibrating = false) ∧
    (∃ (s : State) (k d : Nat),
      s.kitLive k = true ∧ (s.drum k d).inStep = true ∧
      (s.stepState ((s.partOfKit k).getD 0) = stRunning ∨ s.stepState ((s.partOfKit k).getD 0) = stStopping) ∧
      (s.part ((s.partOfKit k).getD 0)).pre.boundary = false ∧ s.drumIsDone k d = true) ∧
    (∃ (s : State) (p : Nat),
      p < 8 ∧ (s.stepState p = stRunning ∨ s.stepState p = stStopping) ∧ s.notDone p = []) ∧
    (∃ (s : State) (p : Nat),
      p < 8 ∧ s.stepState p = stRunning ∧ s.fb F.PAR_CONFIG_MODE p 0 = false ∧
      F.PAR_STEP_WATCHDOG_DEADLINE_EN.of (s.part p).watchdog ≠ 0 ∧ (s.part p).run.missed = false ∧
      s.f F.PAR_STEP_DEADLINE_D_NS p 0 ≤ (s.part p).residentNs) ∧
    (∃ (s : State) (p : Nat),
      p < 8 ∧ s.stepState p = stRunning ∧ F.PAR_STEP_WATCHDOG_WATCHDOG_EN.of (s.part p).watchdog ≠ 0 ∧ s.watchdogDue p = true ∧
      s.notDone p ≠ []) :=
  ⟨⟨live, 0, 0, by decide +kernel⟩,
   ⟨idle.setPart 0 (fun p => { p with submitted := some (0, 0) }), 0, by decide +kernel⟩,
   ⟨place (idle.setPart 0 (fun p => { p with submitted := some (0, 0) })) [(F.PAR_PREEMPT_STATUS_PHASE, 0, 0, phWaiting)], 0, by decide +kernel⟩,
   ⟨live, 0, 0, by decide +kernel⟩,
   ⟨withDrum (fun d => { d with rebindFrom := 1 }), 0, 0, by decide +kernel⟩,
   ⟨withCtx (fun c => { c with stopped := true }), 0, 0, by decide +kernel⟩,
   ⟨withDrum (fun d => { d with inStep := false, kicked := false }), 0, by decide +kernel⟩,
   ⟨live, 0, by decide +kernel⟩,
   ⟨withPart (fun p => { p with residentNs := 10 ^ 15 }), 0, by decide +kernel⟩⟩

/-- The hypotheses of PrefetchCommandsComplete, clause by clause. -/
theorem witness_PrefetchCommandsComplete :
    (∃ (s : State) (k d : Nat),
      let t := (s.pfEntry k d).1
      let v := (s.pfEntry k d).2.v
      let a := drumActor ((t.partOfKit k).getD 0) k d
      let n := entArg v
      let dn := entDstSpan v
      s.pfRuns k d = true ∧ (s.drum k d).pf.pos + 32 ≤ 0x600000 ∧ (s.pfEntry k d).2.p = 0 ∧ bits v 63 60 = 1 ∧
      entFault [t.accessFault a (entSrcSpan v) (entSrc v : Int) n 64 rRead, t.accessFault a dn (entDst v : Int) n 64 rWrite, when (decide (n < 64) || decide (0x1000000 < n) || decide (n % 64 ≠ 0)) 8] = none ∧
      (t.drum k d).pf.inFlight < 16) ∧
    (∃ (s : State) (k d : Nat),
      let t := (s.pfEntry k d).1
      let v := (s.pfEntry k d).2.v
      let a := drumActor ((t.partOfKit k).getD 0) k d
      let n := entArg v
      let dn := entDstSpan v
      let window := decide (t.spanKind ((t.partOfKit k).getD 0) dn = 1) &&
          decide (t.spanBase ((t.partOfKit k).getD 0) dn % 0x1000000 = 0x800000)
      s.pfRuns k d = true ∧ (s.drum k d).pf.pos + 32 ≤ 0x600000 ∧ (s.pfEntry k d).2.p = 0 ∧ bits v 63 60 = 5 ∧
      entFault [t.accessFault a (entSrcSpan v) (entSrc v : Int) n 64 rRead, t.accessFault a dn (entDst v : Int) (n / 256) 64 rWrite, t.accessFault a dn (255 * 0x4000 + entDst v : Int) (n / 256) 64 rWrite, when (!window) 5, when (decide (0x4000 < entDst v + n / 256)) 7, when (decide (n = 0) || decide (n % 16384 ≠ 0)) 8] = none ∧
      (t.drum k d).pf.inFlight < 16) ∧
    (∃ (s : State) (k d : Nat),
      let t := (s.pfEntry k d).1
      let v := (s.pfEntry k d).2.v
      let n := entArg v
      s.pfRuns k d = true ∧ (s.drum k d).pf.pos + 32 ≤ 0x600000 ∧ (s.pfEntry k d).2.p = 0 ∧ bits v 63 60 = 2 ∧
      (t.drum k d).flagCnt.any (fun q => n.testBit q.1) = false) ∧
    (∃ (s : State) (k d : Nat) (ps : List (Nat × Piece)),
      let t := (s.pfEntry k d).1
      let v := (s.pfEntry k d).2.v
      let a := drumActor ((t.partOfKit k).getD 0) k d
      let n := entArg v
      let r := t.readMem (unitDrum k d) ((ps.headD (0, {})).2.addr) 8
      s.pfRuns k d = true ∧ (s.drum k d).pf.pos + 32 ≤ 0x600000 ∧ (s.pfEntry k d).2.p = 0 ∧ bits v 63 60 = 3 ∧
      entFault [t.accessFault a (entSrcSpan v) (entSrc v : Int) 8 8 rRead] = none ∧ t.spanPieces a (entSrcSpan v) (entSrc v) 8 = ps ∧
      a.readsNow ps = true ∧ r.2.p = 0 ∧ n ≤ r.2.v) ∧
    (∃ (s : State) (k d : Nat),
      let t := (s.pfEntry k d).1
      let v := (s.pfEntry k d).2.v
      let a := drumActor ((t.partOfKit k).getD 0) k d
      let b := t.advance ((t.drum k d).pf.poll - 1)
      let x := (b.drum k d).pf.poll - 1
      s.pfRuns k d = true ∧ (s.drum k d).pf.pos + 32 ≤ 0x600000 ∧ (s.pfEntry k d).2.p = 0 ∧ bits v 63 60 = 3 ∧
      entFault [t.accessFault a (entSrcSpan v) (entSrc v : Int) 8 8 rRead] = none ∧
      a.readsNow (t.spanPieces a (entSrcSpan v) (entSrc v) 8) = false ∧ (t.drum k d).pf.poll ≠ 0 ∧
      b.finishable x = true ∧ (b.xfer x).data.p = 0 ∧ entArg v ≤ (b.xfer x).data.v) ∧
    (∃ (s : State) (k d : Nat),
      let v := (s.pfEntry k d).2.v
      s.pfRuns k d = true ∧ (s.drum k d).pf.pos + 32 ≤ 0x600000 ∧ (s.pfEntry k d).2.p = 0 ∧ bits v 63 60 = 4) ∧
    (∃ (s : State) (k d : Nat),
      (s.drum k d).pf.held ≠ 0 ∧ (s.drum k d).pf.st = .ended) ∧
    (∃ (s : State) (x dk df : Nat),
      (s.xfer x).kind = .prefetch dk df ∧ (s.advance x).finishable x = true) :=
  ⟨⟨withEntry [0x1000000000000000, 0, 0, 0x40], 0, 0, by decide +kernel⟩,
   ⟨place (withEntry [0x50000c0000000000, 0, 0, 0x4000]) [(F.MEM_SPAN_CTL_VALID, 0, 3, 1), (F.MEM_SPAN_CTL_KIND, 0, 3, 1), (F.MEM_SPAN_CTL_RIGHTS, 0, 3, 15), (F.MEM_SPAN_CTL_LENGTH_M1, 0, 3, 0x3FFFFF), (F.MEM_SPAN_BASE_BASE, 0, 3, 0x800000)], 0, 0, by decide +kernel⟩,
   ⟨withEntry [0x2000000000000000, 0, 0, 0], 0, 0, by decide +kernel⟩,
   ⟨withEntry [0x3000000000000000, 0, 0, 0], 0, 0, [(0, { addr := slotAddr 0 0 0x100000, len := 8 })], by decide +kernel⟩,
   ⟨{ place ((withEntry [0x3000000000000000, 0, 0, 0]).setDrum 0 0 (fun d => { d with pf := { d.pf with poll := 2 } }))
        [(F.MEM_SPAN_CTL_KIND, 0, 0, 0), (F.MEM_SPAN_BASE_BASE, 0, 0, 0)] with
      xfers := [(1, { len := 8, live := true })] }, 0, 0, by decide +kernel⟩,
   ⟨withEntry [0x4000000000000000, 0, 0, 0], 0, 0, by decide +kernel⟩,
   ⟨withDrum (fun d => { d with pf := { held := 1 } }), 0, 0, by decide +kernel⟩,
   ⟨withXfer (.prefetch 0 0), 1, 0, 0, by decide +kernel⟩⟩

/-- The hypotheses of CalibrationAndLateWaitsComplete, clause by clause. -/
theorem witness_CalibrationAndLateWaitsComplete :
    (∃ (s : State) (u : CtxId) (df : Nat),
      (s.ctx u).wait = .drumFlag df ∧ nmem (s.drum u.kit u.drum).flagSet df = true) ∧
    (∃ (s : State) (u : CtxId) (turns df : Nat),
      let t := (s.ctx u).lateTurns + turns
      let a := ((s.setCtx u (fun c => { c with lateTurns := t })).setDrum u.kit u.drum
          (fun x => { x with lateTurns := x.lateTurns + turns })).count F.DRM_LATE_STALL_STALL_TURNS u.kit u.drum turns;
      (s.ctx u).wait = .drumFlag df ∧ nmem (s.drum u.kit u.drum).flagSet df = false ∧
      (t ≤ a.f F.DRM_LATE_THRESH_THRESH u.kit u.drum ∨ (s.drum u.kit u.drum).lateLogged = true)) ∧
    (∃ (s : State) (u : CtxId) (turns df : Nat),
      let t := (s.ctx u).lateTurns + turns
      let a := ((s.setCtx u (fun c => { c with lateTurns := t })).setDrum u.kit u.drum
          (fun x => { x with lateTurns := x.lateTurns + turns })).count F.DRM_LATE_STALL_STALL_TURNS u.kit u.drum turns;
      (s.ctx u).wait = .drumFlag df ∧ nmem (s.drum u.kit u.drum).flagSet df = false ∧
      a.f F.DRM_LATE_THRESH_THRESH u.kit u.drum < t ∧ (s.drum u.kit u.drum).lateLogged = false) ∧
    (∃ (s : State) (k d : Nat),
      s.kitLive k = true ∧ d < 156 ∧ (s.drum k d).calibrating = false ∧ 10000 ≤ s.calibAge k d ∧ s.idleGap k d = true) ∧
    (∃ (s : State) (k d : Nat),
      (s.drum k d).calibrating = true) ∧
    (∃ (s : State) (k d : Nat),
      s.kitLive k = true ∧ s.mustForce k d = true) :=
  ⟨⟨(withCtx (fun c => { c with wait := .drumFlag 0 })).setDrum 0 0 (fun d => { d with flagSet := [0] }), u0, 0, by decide +kernel⟩,
   ⟨withCtx (fun c => { c with wait := .drumFlag 0 }), u0, 0, 0, by decide +kernel⟩,
   ⟨withCtx (fun c => { c with wait := .drumFlag 0 }), u0, 2 ^ 33, 0, by decide +kernel⟩,
   ⟨withTime (withDrum (fun d => { d with inStep := false, kicked := false })) (10 ^ 10), 0, 0, by decide +kernel⟩,
   ⟨withDrum (fun d => { d with calibrating := true }), 0, 0, by decide +kernel⟩,
   ⟨withTime live (7 * 10 ^ 10), 0, 0, by decide +kernel⟩⟩

/-- The hypotheses of KvCommandsComplete, clause by clause. -/
theorem witness_KvCommandsComplete :
    (∃ (s : State) (c : Nat) (w : Word),
      let n := kvSlot w.toNat
      let x := s.forward c .SRV_KV_CMD c 0 w
      let a := x.setF F.SRV_KV_RESULT_DONE c 0 0
      let p := a.kvHolder w.toNat
      let b := (a.hubRead 1 (kvAddr n) 64).1
      let sp := b.kvSpan n
      let size := b.kvCT n * b.kvLayers n * 2 * b.kvEB n
      let act := deviceActor (kvCmdPart w.toNat) (unitHub 1)
      let addr := b.spanAddr act sp (b.kvBase n)
      c < 8 ∧ s.canWrite c = true ∧ x.f F.SRV_KV_RESULT_DONE c 0 ≠ 0 ∧ (kvOp w.toNat = 4 → bit w.toNat 42 = false) ∧
      a.stepState p = stIdle ∧ a.kv.held.any (fun h => decide (h.part = p)) = false ∧ (a.hubRead 1 (kvAddr n) 64).2.p = 0 ∧
      kvOp w.toNat = 1 ∧ a.kvState n = kvFree ∧ kvArg w.toNat ≤ b.kvCT n ∧ b.kvBase n % 4096 = 0 ∧
      b.spanCheck act sp (b.kvBase n : Int) size (rRead + rWrite) = none ∧ b.spanKind (kvCmdPart w.toNat) sp = 0 ∧
      b.kvOwner n * hbmKit ≤ addr ∧ addr + size ≤ (b.kvOwner n + 1) * hbmKit) ∧
    (∃ (s : State) (c : Nat) (w : Word),
      let n := kvSlot w.toNat
      let x := s.forward c .SRV_KV_CMD c 0 w
      let a := x.setF F.SRV_KV_RESULT_DONE c 0 0
      let p := a.kvHolder w.toNat
      let b := (a.hubRead 1 (kvAddr n) 64).1
      c < 8 ∧ s.canWrite c = true ∧ x.f F.SRV_KV_RESULT_DONE c 0 ≠ 0 ∧ (kvOp w.toNat = 4 → bit w.toNat 42 = false) ∧
      a.stepState p = stIdle ∧ a.kv.held.any (fun h => decide (h.part = p)) = false ∧ (a.hubRead 1 (kvAddr n) 64).2.p = 0 ∧
      b.kvPart n = kvCmdPart w.toNat ∧ a.kvState n = kvActive ∧ kvOp w.toNat = 2 ∧ b.kvCommitted n + kvArg w.toNat ≤ b.kvCT n) ∧
    (∃ (s : State) (c : Nat) (w : Word),
      let n := kvSlot w.toNat
      let x := s.forward c .SRV_KV_CMD c 0 w
      let a := x.setF F.SRV_KV_RESULT_DONE c 0 0
      let p := a.kvHolder w.toNat
      let b := (a.hubRead 1 (kvAddr n) 64).1
      c < 8 ∧ s.canWrite c = true ∧ x.f F.SRV_KV_RESULT_DONE c 0 ≠ 0 ∧ (kvOp w.toNat = 4 → bit w.toNat 42 = false) ∧
      a.stepState p = stIdle ∧ a.kv.held.any (fun h => decide (h.part = p)) = false ∧ (a.hubRead 1 (kvAddr n) 64).2.p = 0 ∧
      b.kvPart n = kvCmdPart w.toNat ∧ a.kvState n = kvActive ∧ kvOp w.toNat = 3 ∧ bits w.toNat 24 0 ≤ b.kvAdmitted n ∧
      bits w.toNat 31 25 ≤ b.kvShadow n) ∧
    (∃ (s : State) (c : Nat) (w : Word),
      let n := kvSlot w.toNat
      let x := s.forward c .SRV_KV_CMD c 0 w
      let a := x.setF F.SRV_KV_RESULT_DONE c 0 0
      let p := a.kvHolder w.toNat
      let b := (a.hubRead 1 (kvAddr n) 64).1
      c < 8 ∧ s.canWrite c = true ∧ x.f F.SRV_KV_RESULT_DONE c 0 ≠ 0 ∧ (kvOp w.toNat = 4 → bit w.toNat 42 = false) ∧
      a.stepState p = stIdle ∧ a.kv.held.any (fun h => decide (h.part = p)) = false ∧ (a.hubRead 1 (kvAddr n) 64).2.p = 0 ∧
      b.kvPart n = kvCmdPart w.toNat ∧ a.kvState n = kvActive ∧ kvOp w.toNat = 4 ∧ kvArg w.toNat = b.kvHanded n ∧
      b.kvHanded n < b.kvLayers n ∧ b.kv.hands.any (fun h => decide (h.slot = n) && decide (h.layer = kvArg w.toNat)) = false) ∧
    (∃ (s : State) (c : Nat) (w : Word),
      let n := kvSlot w.toNat
      let x := s.forward c .SRV_KV_CMD c 0 w
      let a := x.setF F.SRV_KV_RESULT_DONE c 0 0
      let p := a.kvHolder w.toNat
      let b := (a.hubRead 1 (kvAddr n) 64).1
      c < 8 ∧ s.canWrite c = true ∧ x.f F.SRV_KV_RESULT_DONE c 0 ≠ 0 ∧ (kvOp w.toNat = 4 → bit w.toNat 42 = false) ∧
      a.stepState p = stIdle ∧ a.kv.held.any (fun h => decide (h.part = p)) = false ∧ (a.hubRead 1 (kvAddr n) 64).2.p = 0 ∧
      b.kvPart n = kvCmdPart w.toNat ∧ a.kvState n = kvActive ∧ kvOp w.toNat = 5) ∧
    (∃ (s : State) (c : Nat) (w : Word),
      let n := kvSlot w.toNat
      let x := s.forward c .SRV_KV_CMD c 0 w
      let a := x.setF F.SRV_KV_RESULT_DONE c 0 0
      let p := a.kvHolder w.toNat
      let b := (a.hubRead 1 (kvAddr n) 64).1
      c < 8 ∧ s.canWrite c = true ∧ x.f F.SRV_KV_RESULT_DONE c 0 ≠ 0 ∧ (kvOp w.toNat = 4 → bit w.toNat 42 = false) ∧
      a.stepState p = stIdle ∧ a.kv.held.any (fun h => decide (h.part = p)) = false ∧ (a.hubRead 1 (kvAddr n) 64).2.p = 0 ∧
      kvOp w.toNat = 6 ∧ b.kvPart n = kvCmdPart w.toNat ∧ (a.kvState n = kvActive ∨ a.kvState n = kvReceiving)) ∧
    (∃ (s : State) (c : Nat) (w : Word),
      let n := kvSlot w.toNat
      let x := s.forward c .SRV_KV_CMD c 0 w
      let a := x.setF F.SRV_KV_RESULT_DONE c 0 0
      let p := a.kvHolder w.toNat
      let b := (a.hubRead 1 (kvAddr n) 64).1
      c < 8 ∧ s.canWrite c = true ∧ x.f F.SRV_KV_RESULT_DONE c 0 ≠ 0 ∧ (kvOp w.toNat = 4 → bit w.toNat 42 = false) ∧
      a.stepState p = stIdle ∧ a.kv.held.any (fun h => decide (h.part = p)) = false ∧ (a.hubRead 1 (kvAddr n) 64).2.p = 0 ∧
      kvOp w.toNat = 7 ∧ b.kvPart n = kvCmdPart w.toNat ∧ a.kvState n ≠ kvFree) :=
  ⟨⟨place (withKv idle 0 0) [(F.MEM_SPAN_CTL_KIND, 0, 0, 0), (F.MEM_SPAN_BASE_BASE, 0, 0, 0)], 0, 0x1000000000002000, by decide +kernel⟩,
   ⟨withKv idle (2 ^ 63) (2 ^ 32), 0, 0x2000000000002000, by decide +kernel⟩,
   ⟨withKv idle (2 ^ 63) (2 ^ 32), 0, 0x3000000000000001, by decide +kernel⟩,
   ⟨withKv idle (2 ^ 63) (2 ^ 32), 0, 0x4000000000000000, by decide +kernel⟩,
   ⟨withKv idle (2 ^ 63) (2 ^ 32), 0, 0x5000000000000000, by decide +kernel⟩,
   ⟨withKv idle (2 ^ 63) (2 ^ 32), 0, 0x6000000000000000, by decide +kernel⟩,
   ⟨withKv idle (2 ^ 63) (2 ^ 32), 0, 0x7000000000000000, by decide +kernel⟩⟩

/-- The hypotheses of KvEventsComplete, clause by clause. -/
theorem witness_KvEventsComplete :
    (∃ (s : State) (p : Nat) (h : KvWait),
      s.kv.held.find? (fun h => decide (h.part = p)) = some h ∧ s.stepState p = stIdle) ∧
    (∃ (s : State) (p l : Nat) (h : KvWait),
      s.kv.armed.find? (fun h => decide (h.part = p) && decide (bits h.word 41 38 = l) && decide (h.sounds < s.sounds p l)) = some h) ∧
    (∃ (s : State) (i slot word : Nat),
      s.canWrite i = true ∧ slot < 2 ^ 14 ∧ word < 5 ∧ s.kvState slot = kvFree) ∧
    (∃ (s : State) (i k : Nat),
      s.canWrite i = true ∧ s.kitLive k = true ∧ (s.kit k).pages = []) ∧
    (∃ (s : State) (k g : Nat),
      (s.page k g).live = true ∧ (s.page k g).flush = true ∧ s.owes (kvStream k) = false ∧ s.boot.refclkLost = false) ∧
    (∃ (s : State) (slot layer : Nat) (h h' : KvHand),
      let t := State.handSubmit 1024 s slot layer h.sent
      s.kv.hands.find? (fun h => decide (h.slot = slot) && decide (h.layer = layer)) = some h ∧ h.submitted = false ∧
      (s.kit (s.kvOwner slot)).pages.any (fun q => q.2.live && decide (q.2.slot = slot) && decide (q.2.layer = layer)) = false ∧
      t.kv.hands.find? (fun h => decide (h.slot = slot) && decide (h.layer = layer)) = some h' ∧ h'.submitted = true) ∧
    (∃ (s : State) (slot layer : Nat) (h : KvHand),
      s.kv.hands.find? (fun h => decide (h.slot = slot) && decide (h.layer = layer)) = some h ∧ h.submitted = true ∧ h.left = 0 ∧
      h.failed = false ∧ s.canIssue (s.kvPart slot) (s.kvDstWord slot) 8 = true) ∧
    (∃ (s : State) (slot : Nat) (c : KvClose),
      s.kv.closes.find? (fun c => decide (c.slot = slot)) = some c ∧ s.kvHanding slot = false ∧ c.left = 0) ∧
    (∃ (s : State) (slot : Nat) (c : KvClose),
      s.kv.closes.find? (fun c => decide (c.slot = slot)) = some c ∧ s.kvHanding slot = false ∧ c.left ≠ 0 ∧
      s.canIssue c.part c.addr 8 = true) ∧
    (∃ (s : State) (slot : Nat),
      slot < 2 ^ 14 ∧ s.kvState slot = kvDraining ∧
      (s.kit (s.kvOwner slot)).pages.any (fun q => q.2.live && decide (q.2.slot = slot)) = false ∧ s.kvHanding slot = false ∧
      (nmem s.kv.receivers slot = true → s.kvLayersIn slot = s.kvLayers slot ∨ s.kvClosed slot ≠ 0)) :=
  ⟨⟨{ idle with kv := { held := [{}] } }, 0, {}, by decide +kernel⟩,
   ⟨{ withPart (fun p => { p with sounds := [(0, 1)] }) with kv := { armed := [{}] } }, 0, 0, {}, by decide +kernel⟩,
   ⟨live, 0, 0, 0, by decide +kernel⟩,
   ⟨live, 0, 0, by decide +kernel⟩,
   ⟨withKit (fun k => { k with pages := [(0, { live := true, flush := true })] }), 0, 0, by decide +kernel⟩,
   ⟨{ withKv live (2 ^ 63) 0 with kv := { hands := [{}] } }, 0, 0, {}, { submitted := true }, by decide +kernel⟩,
   ⟨{ live with kv := { hands := [{ submitted := true }] } }, 0, 0, { submitted := true }, by decide +kernel⟩,
   ⟨{ live with kv := { closes := [{}] } }, 0, {}, by decide +kernel⟩,
   ⟨{ live with kv := { closes := [{ left := 1 }] } }, 0, { left := 1 }, by decide +kernel⟩,
   ⟨withKv live (3 * 2 ^ 62) 0, 0, by decide +kernel⟩⟩

/-- The hypotheses of RouterAndRingCommandsComplete, clause by clause. -/
theorem witness_RouterAndRingCommandsComplete :
    (∃ (s : State) (k : Nat) (t : RouteTok) (rest : List RouteTok),
      (s.kit k).presented = t :: rest ∧ (s.kit k).taken.length < 64 ∧ s.finishable t.scores = true ∧ s.finishable t.act = true ∧
      s.tokCancelled k t = true) ∧
    (∃ (s : State) (k : Nat) (t : RouteTok) (rest : List RouteTok),
      (s.kit k).presented = t :: rest ∧ (s.kit k).taken.length < 64 ∧ s.finishable t.scores = true ∧ s.finishable t.act = true ∧
      s.tokCancelled k t = false) ∧
    (∃ (s : State) (k : Nat) (x : RouteTaken) (rest : List RouteTaken),
      (s.kit k).taken = x :: rest ∧
      (x.sel.filter (fun q => decide (bits (s.dirWord k x.tok.layer q.1 0) 63 62 = 3) && !dirUnmapped k (s.dirWord k x.tok.layer q.1 0) &&
        decide (s.rtr k F.KIT_ROUTER_CONFIG_ENABLE ≠ 0))).any (fun q => !s.canIssue (s.partOf (ctxOfKey x.tok.u)) (bits (s.dirWord k x.tok.layer q.1 0) 31 16 * 2 ^ 48) (64 + s.actBytes k)) = false) ∧
    (∃ (s : State) (k d r : Nat) (q : RouteRec) (rest : List RouteRec),
      let rel := s.readMem (unitDrum k d) (slotAddr k d (s.drum k d).inboxBase) 8
      let n := (s.drum k d).inboxHead;
      (s.kit r).records = q :: rest ∧
      (List.range 8).find? (fun r => (s.kit r).records.head?.elim false (fun q => decide (q.kit = k ∧ q.drum = d))) = some r ∧
      (s.drum k d).inboxEn = true ∧ s.actBytes k + 64 = q.len ∧ rel.2.p = 0 ∧ (n + 2 ^ 64 - rel.2.v) % 2 ^ 64 < 2 ^ (s.drum k d).inboxLog) ∧
    (∃ (s : State) (i k e : Nat),
      RegName.KIT_ROUTER_DIR.has k e = true ∧ s.kitLive k = true ∧ s.canWrite i = true ∧
      (∀ p, s.partOfKit k = some p → s.stepState p ≠ stRunning ∧ s.stepState p ≠ stStopping)) ∧
    (∃ (s : State) (i off r : Nat) (w : Word),
      let a := s.forward i (ringCfgReg r) (ringIdx r) 0 w
      let old := a.ringCfg r
      let new := writeFields (ringCfgReg r).fields old w
      ringAt off = some (false, r) ∧ s.canWrite i = true ∧ new ≠ old ∧ (ringOn old = true → a.ringHead r = a.ringTail r) ∧
      (ringOn new = true → ringValid new = true)) ∧
    (∃ (s : State) (i off r : Nat) (w : Word),
      let a := s.forward i (ringBellReg r) (ringIdx r) 0 w
      let tail := F.SRV_PW_DOORBELL_TAIL.of w
      let n := (tail + 2 ^ 32 - a.ringHead r) % 2 ^ 32
      ringAt off = some (true, r) ∧ s.canWrite i = true ∧ n ≤ ringSlots (a.ringCfg r) ∧ a.ringWaiting r ≤ n) ∧
    (∃ (s : State) (i off t : Nat) (r : RegName),
      treeAt off = some (r, t) ∧ s.canWrite i = true ∧ s.treeBusy t = false) :=
  ⟨⟨{ withXfer .rdisp with kits := [(0, { presented := [{ word := 2 ^ 63, scores := 1, act := 2 }] })], drums := [(0, { cancel := [0] })] }, 0, { word := 2 ^ 63, scores := 1, act := 2 }, [], by decide +kernel⟩,
   ⟨{ withXfer .rdisp with kits := [(0, { presented := [{ scores := 1, act := 2 }] })], drums := [(0, { cancel := [0] })] }, 0, { scores := 1, act := 2 }, [], by decide +kernel⟩,
   ⟨withKit (fun k => { k with taken := [{}] }), 0, {}, [], by decide +kernel⟩,
   ⟨(withDrum (fun d => { d with inboxEn := true })).setKit 0 (fun k => { k with records := [{ len := 64 }] }), 0, 0, 0, { len := 64 }, [], by decide +kernel⟩,
   ⟨idle, 0, 0, 0, by decide +kernel⟩,
   ⟨live, 0, RegName.SRV_PW_RING.off 0 0, 0, F.SRV_PW_RING_ENABLE.put (F.SRV_PW_RING_LOG2.put (F.SRV_PW_RING_BASE.put 0 hubBase) 4) 1, by decide +kernel⟩,
   ⟨live, 0, RegName.SRV_PW_DOORBELL.off 0 0, 0, F.SRV_PW_DOORBELL_TAIL.put 0 1, by decide +kernel⟩,
   ⟨live, 0, RegName.SRV_TREE_CFG.off 0 0, 0, .SRV_TREE_CFG, by decide +kernel⟩⟩

/-- The hypotheses of PrefixTreeOperationsComplete, clause by clause. -/
theorem witness_PrefixTreeOperationsComplete :
    (∃ (s : State) (w v : Nat) (d : Data),
      let fr := (s.pwSettle w).ringFront w
      let a := fr.1.beginJob w
      let t := pwTree v
      let g := if wordOf v 4 = 0 then a.treeGen t else wordOf v 4
      let q := ((a.treeReg t g true).useSnap w g true).fetchVia w (pwActor w v) (wordOf v 1) (256 * pwCount v)
      let sh := xwOff (wordOf v 1) % 32
      let tok := fun b => (d.v / 256 ^ (256 * b) % 2 ^ 2048,
            (List.range 9).any (fun i => d.p.testBit ((sh + 256 * b) / 32 + i) && decide (32 * i < sh + 256 * b % 32 + 256)))
      let r := q.1.pwWalk (pwActor w v) t g (pwService v) tok (wordOf v 1 % 2 ^ 46) (pwCount v) ((q.1.rg .SRV_TREE_SALT t 0).toNat ^^^ pwService v)
      w < 4 ∧ s.fb F.HUB_STATUS_READY 0 0 = true ∧ s.owes (walkerStream w) = false ∧ s.boot.refclkLost = false ∧ fr.2 = some v ∧
      (fr.1.ringJob w).begun = false ∧ pwBadOp v = false ∧ fr.1.treeOn t w = true ∧ fr.1.pwSpanBad v = false ∧ pwOp v = 1 ∧ (a.ringJob w).snap = 0 ∧ g ≤ a.treeGen t ∧ a.treeGen t ≤ g + 63 ∧ q.2 = some d ∧ r.2.bad = none) ∧
    (∃ (s : State) (w v : Nat) (d : Data),
      let fr := (s.pwSettle w).ringFront w
      let a := fr.1.beginJob w
      let t := pwTree v
      let g := a.treeGen t + 1
      let q := a.fetchVia w (pwActor w v) (wordOf v 1) 256
      let pr := if pwCount v = 0 then (q.1, ({} : Data)) else q.1.treeRead (pwActor w v) (q.1.nodeAddr t (pwCount v)) 256
      w < 4 ∧ s.fb F.HUB_STATUS_READY 0 0 = true ∧ s.owes (walkerStream w) = false ∧ s.boot.refclkLost = false ∧ fr.2 = some v ∧
      (fr.1.ringJob w).begun = false ∧ pwBadOp v = false ∧ fr.1.treeOn t w = true ∧ fr.1.pwSpanBad v = false ∧ pwOp v = 2 ∧ wordOf v 5 ≠ 0 ∧ wordOf v 5 < a.treeNodes t ∧ (pwCount v ≠ 0 → pwCount v < a.treeNodes t) ∧
      q.2 = some d ∧ d.p = 0 ∧ pr.2.p = 0 ∧ (pwCount v ≠ 0 → ndVisible pr.2.v g = true)) ∧
    (∃ (s : State) (w v : Nat),
      let fr := (s.pwSettle w).ringFront w
      let a := fr.1.beginJob w
      let t := pwTree v
      let x := (a.treeRead (pwActor w v) (a.nodeAddr t (pwCount v)) 256).2.v
      w < 4 ∧ s.fb F.HUB_STATUS_READY 0 0 = true ∧ s.owes (walkerStream w) = false ∧ s.boot.refclkLost = false ∧ fr.2 = some v ∧
      (fr.1.ringJob w).begun = false ∧ pwBadOp v = false ∧ fr.1.treeOn t w = true ∧ fr.1.pwSpanBad v = false ∧ pwCount v ≠ 0 ∧ pwCount v < a.treeNodes t ∧ (a.treeRead (pwActor w v) (a.nodeAddr t (pwCount v)) 256).2.p = 0 ∧
      pwOp v = 3 ∧ ndDelete x = 2 ^ 64 - 1) ∧
    (∃ (s : State) (w v : Nat),
      let fr := (s.pwSettle w).ringFront w
      let a := fr.1.beginJob w
      let t := pwTree v
      let b := (a.treeRead (pwActor w v) (a.nodeAddr t (pwCount v)) 256).1
      let x := (a.treeRead (pwActor w v) (a.nodeAddr t (pwCount v)) 256).2.v
      w < 4 ∧ s.fb F.HUB_STATUS_READY 0 0 = true ∧ s.owes (walkerStream w) = false ∧ s.boot.refclkLost = false ∧ fr.2 = some v ∧
      (fr.1.ringJob w).begun = false ∧ pwBadOp v = false ∧ fr.1.treeOn t w = true ∧ fr.1.pwSpanBad v = false ∧ pwCount v ≠ 0 ∧ pwCount v < a.treeNodes t ∧ (a.treeRead (pwActor w v) (a.nodeAddr t (pwCount v)) 256).2.p = 0 ∧
      pwOp v = 5 ∧ ndDelete x ≠ 2 ^ 64 - 1 ∧ ndDelete x ≤ b.treeGen t ∧ ndDelete x ≤ b.treeOldest t ∧
      (b.treeRead (pwActor w v) (b.bucketAddr t (ndHash x)) 4).2.p = 0 ∧ (b.treeRead (pwActor w v) (b.bucketAddr t (ndHash x)) 4).2.v = pwCount v) ∧
    (∃ (s : State) (w v : Nat),
      let fr := (s.pwSettle w).ringFront w
      let a := fr.1.beginJob w
      let t := pwTree v
      w < 4 ∧ s.fb F.HUB_STATUS_READY 0 0 = true ∧ s.owes (walkerStream w) = false ∧ s.boot.refclkLost = false ∧ fr.2 = some v ∧
      (fr.1.ringJob w).begun = false ∧ pwBadOp v = false ∧ fr.1.treeOn t w = true ∧ fr.1.pwSpanBad v = false ∧ pwOp v = 4 ∧ a.treeQ t (a.treeGen t + 1) = 0) ∧
    (∃ (s : State) (w v : Nat),
      let fr := (s.pwSettle w).ringFront w
      let a := fr.1.beginJob w
      let t := pwTree v
      w < 4 ∧ s.fb F.HUB_STATUS_READY 0 0 = true ∧ s.owes (walkerStream w) = false ∧ s.boot.refclkLost = false ∧ fr.2 = some v ∧
      (fr.1.ringJob w).begun = false ∧ pwBadOp v = false ∧ fr.1.treeOn t w = true ∧ fr.1.pwSpanBad v = false ∧ pwOp v = 6 ∧ wordOf v 4 ≤ a.treeGen t ∧ a.treeGen t ≤ wordOf v 4 + 63 ∧ a.treeQ t (wordOf v 4) ≠ 0) :=
  ⟨⟨treeLive [0x1000000000000001, 0x20000000000, 0x20000001000, 0x20000002000, 0, 0, 0, 0], 0, 0x20000002000000002000000100000000200000000001000000000000001, {}, by decide +kernel⟩,
   ⟨treeLive [0x2000000000000000, 0x20000000000, 0x20000001000, 0x20000002000, 0, 1, 0, 0], 0, 0x100000000000000000000020000002000000002000000100000000200000000002000000000000000, {}, by decide +kernel⟩,
   ⟨putWords (treeLive [0x3000000000000001, 0x20000000000, 0x20000001000, 0x20000002000, 0, 0, 0, 0]) (hubBase + 0x20100) [0, 0, 0, 0, 0xFFFFFFFFFFFFFFFF], 0, 0x20000002000000002000000100000000200000000003000000000000001, by decide +kernel⟩,
   ⟨putWords (putWords (treeLive [0x5000000000000001, 0x20000000000, 0x20000001000, 0x20000002000, 0, 0, 0, 0]) (hubBase + 0x20100) [0, 0, 0, 0, 0]) (hubBase + 0x10000) [1], 0, 0x20000002000000002000000100000000200000000005000000000000001, by decide +kernel⟩,
   ⟨treeLive [0x4000000000000000, 0x20000000000, 0x20000001000, 0x20000002000, 0, 0, 0, 0], 0, 0x20000002000000002000000100000000200000000004000000000000000, by decide +kernel⟩,
   ⟨place (treeLive [0x6000000000000000, 0x20000000000, 0x20000001000, 0x20000002000, 0, 0, 0, 0]) [(F.SRV_TREE_QCOUNT_COUNT, 0, 0, 1)], 0, 0x20000002000000002000000100000000200000000006000000000000000, by decide +kernel⟩⟩

/-- The hypotheses of ServingRequestsComplete, clause by clause. -/
theorem witness_ServingRequestsComplete :
    (∃ (s : State) (p n : Nat) (r : ReqRec) (rest : List ReqRec),
      let a := s.setServe (fun v => { v with reqQ := v.reqQ.tail })
      let b := a.policeDebit r.sub (r.w 5 / 2 ^ 32)
      s.serve.canQ = [] ∧ s.serve.reqQ = r :: rest ∧ r.part = p ∧ a.admitCode r = 0 ∧
      ¬ (b.f F.SRV_SUB_CFG_MAX_SLOTS r.sub 0 ≠ 0 ∧ b.f F.SRV_SUB_CFG_SLOTS r.sub 0 = b.f F.SRV_SUB_CFG_MAX_SLOTS r.sub 0) ∧
      b.freeSlot r.part = some n ∧ (b.hubRead 1 (reqSlotAddr n) 128).2.p = 0 ∧ r.op ≠ 3 ∧ r.op ≠ 5) ∧
    (∃ (s : State) (p n : Nat) (r : ReqRec) (rest : List ReqRec),
      let a := s.setServe (fun v => { v with reqQ := v.reqQ.tail })
      let b := a.policeDebit r.sub (r.w 5 / 2 ^ 32)
      s.serve.canQ = [] ∧ s.serve.reqQ = r :: rest ∧ r.part = p ∧ a.admitCode r = 0 ∧
      ¬ (b.f F.SRV_SUB_CFG_MAX_SLOTS r.sub 0 ≠ 0 ∧ b.f F.SRV_SUB_CFG_SLOTS r.sub 0 = b.f F.SRV_SUB_CFG_MAX_SLOTS r.sub 0) ∧
      b.freeSlot r.part = some n ∧ (b.hubRead 1 (reqSlotAddr n) 128).2.p = 0 ∧ r.op = 3) ∧
    (∃ (s : State) (p : Nat) (r : ReqRec) (rest : List ReqRec),
      let a := s.setServe (fun v => { v with reqQ := v.reqQ.tail })
      s.serve.canQ = [] ∧ s.serve.reqQ = r :: rest ∧ r.part = p ∧ r.op = 5 ∧ r.p = 0 ∧ a.foreign (some p) (r.w 1) = false ∧
      (a.hubRead 1 (reqSlotAddr (handleSlot (r.w 1))) 128).2.p = 0 ∧
      (a.hubRead 1 (reqSlotAddr (handleSlot (r.w 1))) 128).1.stale (some p) (r.w 1) = false) ∧
    (∃ (s : State) (p : Nat) (r : ReqRec) (rest : List ReqRec),
      let a := s.setServe (fun v => { v with canQ := rest })
      let n := handleSlot (r.w 1)
      let b := (a.hubRead 1 (reqSlotAddr n) 128).1
      s.serve.canQ = r :: rest ∧ r.part = p ∧ r.p = 0 ∧ a.foreign (some p) (r.w 1) = false ∧ (a.hubRead 1 (reqSlotAddr n) 128).2.p = 0 ∧
      b.stale (some p) (r.w 1) = false ∧
      r.op = 2 ∧ b.slState n = slRemote) ∧
    (∃ (s : State) (p : Nat) (r : ReqRec) (rest : List ReqRec),
      let a := s.setServe (fun v => { v with canQ := rest })
      let n := handleSlot (r.w 1)
      let b := (a.hubRead 1 (reqSlotAddr n) 128).1
      s.serve.canQ = r :: rest ∧ r.part = p ∧ r.p = 0 ∧ a.foreign (some p) (r.w 1) = false ∧ (a.hubRead 1 (reqSlotAddr n) 128).2.p = 0 ∧
      b.stale (some p) (r.w 1) = false ∧
      r.op = 2 ∧ b.slState n ≠ slRemote ∧ b.slState n ≠ slFree ∧ b.slState n ≠ slClosing ∧ b.slState n ≠ slCancelling) ∧
    (∃ (s : State) (p : Nat) (r : ReqRec) (rest : List ReqRec),
      let a := s.setServe (fun v => { v with canQ := rest })
      let n := handleSlot (r.w 1)
      let b := (a.hubRead 1 (reqSlotAddr n) 128).1
      s.serve.canQ = r :: rest ∧ r.part = p ∧ r.p = 0 ∧ a.foreign (some p) (r.w 1) = false ∧ (a.hubRead 1 (reqSlotAddr n) 128).2.p = 0 ∧
      b.stale (some p) (r.w 1) = false ∧
      r.op = 4 ∧ b.slState n = slRemote ∧ bits (r.w 0) 55 48 = 0) :=
  ⟨⟨withReq [0x1000000000000000, 0, 0, 0, 0, 0x100000001, 0, 0x3f800000, 0x3f80000000000000, 0x400000], 0, 0, { v := 0x4000003f80000000000000000000003f8000000000000000000000000000010000000100000000000000000000000000000000000000000000000000000000000000001000000000000000 }, [], by decide +kernel⟩,
   ⟨withReq [0x3000000000000000, 0, 0, 0, 0, 0x100000001, 0, 0x3f800000, 0x3f80000000000000, 0x400000], 0, 0, { v := 0x4000003f80000000000000000000003f8000000000000000000000000000010000000100000000000000000000000000000000000000000000000000000000000000003000000000000000 }, [], by decide +kernel⟩,
   ⟨{ withSlot 2 with serve := { reqQ := [{ v := 0x15000000000000000 }] } }, 0, { v := 0x15000000000000000 }, [], by decide +kernel⟩,
   ⟨{ withSlot 5 with serve := { canQ := [{ v := 0x12000000000000000 }] } }, 0, { v := 0x12000000000000000 }, [], by decide +kernel⟩,
   ⟨{ withSlot 2 with serve := { canQ := [{ v := 0x12000000000000000 }] } }, 0, { v := 0x12000000000000000 }, [], by decide +kernel⟩,
   ⟨{ withSlot 5 with serve := { canQ := [{ v := 0x14000000000000000 }] } }, 0, { v := 0x14000000000000000 }, [], by decide +kernel⟩⟩

/-- The hypotheses of SlotCommandsComplete, clause by clause. -/
theorem witness_SlotCommandsComplete :
    (∃ (s : State) (c : Nat) (w : Word),
      let n := bits w.toNat 59 46
      let a := s.forward c .SRV_SLOT_CMD c 0 w
      let b := (a.hubRead 1 (reqSlotAddr n) 128).1
      c < 8 ∧ s.canWrite c = true ∧ (a.hubRead 1 (reqSlotAddr n) 128).2.p = 0 ∧ b.slGen n = bits w.toNat 45 15 ∧ bits w.toNat 45 15 ≠ 0 ∧
      bits w.toNat 63 60 = 1 ∧ (b.slState n = slPrefill ∨ b.slState n = slDecode)) ∧
    (∃ (s : State) (c : Nat) (w : Word),
      let n := bits w.toNat 59 46
      let a := s.forward c .SRV_SLOT_CMD c 0 w
      let b := (a.hubRead 1 (reqSlotAddr n) 128).1
      c < 8 ∧ s.canWrite c = true ∧ (a.hubRead 1 (reqSlotAddr n) 128).2.p = 0 ∧ b.slGen n = bits w.toNat 45 15 ∧ bits w.toNat 45 15 ≠ 0 ∧
      bits w.toNat 63 60 = 2 ∧ (b.slState n = slQueued ∨ b.slState n = slPrefill ∨ b.slState n = slDecode)) ∧
    (∃ (s : State) (c : Nat) (w : Word),
      let n := bits w.toNat 59 46
      let a := s.forward c .SRV_SLOT_CMD c 0 w
      let b := (a.hubRead 1 (reqSlotAddr n) 128).1
      c < 8 ∧ s.canWrite c = true ∧ (a.hubRead 1 (reqSlotAddr n) 128).2.p = 0 ∧ b.slGen n = bits w.toNat 45 15 ∧ bits w.toNat 45 15 ≠ 0 ∧
      bits w.toNat 63 60 = 3 ∧ b.slState n = slParked) ∧
    (∃ (s : State) (c : Nat) (w : Word),
      let n := bits w.toNat 59 46
      let a := s.forward c .SRV_SLOT_CMD c 0 w
      let b := (a.hubRead 1 (reqSlotAddr n) 128).1
      let arg := (b.rg .SRV_SLOT_ARG c 0).toNat
      c < 8 ∧ s.canWrite c = true ∧ (a.hubRead 1 (reqSlotAddr n) 128).2.p = 0 ∧ b.slGen n = bits w.toNat 45 15 ∧ bits w.toNat 45 15 ≠ 0 ∧
      (b.slState n = slQueued ∨ b.slState n = slParked) ∧ arg % 64 = 0 ∧ bits w.toNat 63 60 = 4) ∧
    (∃ (s : State) (c : Nat) (w : Word),
      let n := bits w.toNat 59 46
      let a := s.forward c .SRV_SLOT_CMD c 0 w
      let b := (a.hubRead 1 (reqSlotAddr n) 128).1
      let arg := (b.rg .SRV_SLOT_ARG c 0).toNat
      c < 8 ∧ s.canWrite c = true ∧ (a.hubRead 1 (reqSlotAddr n) 128).2.p = 0 ∧ b.slGen n = bits w.toNat 45 15 ∧ bits w.toNat 45 15 ≠ 0 ∧
      (b.slState n = slQueued ∨ b.slState n = slParked) ∧ arg % 64 = 0 ∧ bits w.toNat 63 60 = 5 ∧ 12 ≤ bits w.toNat 14 10 ∧
      bits w.toNat 14 10 ≤ 24) :=
  ⟨⟨withSlot 2, 0, 0x1000000000008000, by decide +kernel⟩,
   ⟨withSlot 1, 0, 0x2000000000008000, by decide +kernel⟩,
   ⟨withSlot 4, 0, 0x3000000000008000, by decide +kernel⟩,
   ⟨withSlot 1, 0, 0x4000000000008000, by decide +kernel⟩,
   ⟨withSlot 4, 0, 0x500000000000b000, by decide +kernel⟩⟩

/-- The hypotheses of ResponsesAndEmitListsComplete, clause by clause. -/
theorem witness_ResponsesAndEmitListsComplete :
    (∃ (z : State) (slot : Nat) (r : Resp) (rest : List Resp),
      let s := z.pumpOwed
      let p := s.slPartField slot
      let seq := s.slSeq slot
      let addr := s.slotW slot 3 + 64 * (seq % 2 ^ bits (s.slotW slot 9) 24 20)
      let g := (s.hubRead 1 (reqSlotAddr slot) 128).1
      let home := if g.slWork slot then g.slotW slot 15 else g.handleOf slot
      let v := respRecord 3 r.code g.serveNode seq home (g.slotW slot 2) r.index r.token (g.slotW slot 5 / 2 ^ 32) r.generated g.time
      let a := (g.putSlotW slot 1 (setBits (g.slotW slot 1) 32 32 ((seq + 1) % 2 ^ 32))).setSlotX slot
          (fun x => { x with queue := rest, flight := 3, sent := (addr, v) })
      let b := a.count F.SRV_TOKENS_OUT_COUNT 0 0 1
      slot < 2 ^ 14 ∧ (s.slotX slot).queue = r :: rest ∧ (s.slotX slot).flight = 0 ∧ (s.slotX slot).hostQ = 0 ∧ r.kind = 3 ∧
      s.compares p = false ∧ s.canIssue p addr 64 = true ∧ r.code ≠ 0x10 ∧ (s.hubRead 1 (reqSlotAddr slot) 128).2.p = 0 ∧
      b.compares p = false) ∧
    (∃ (s : State) (slot : Nat),
      slot < 2 ^ 14 ∧ (s.slState slot = slClosing ∨ s.slState slot = slCancelling) ∧ (s.slotX slot).termDone = true ∧
      (s.slotX slot).flight = 0 ∧ (s.slotX slot).awaiting = false ∧ s.kvState slot = kvFree ∧
      (s.hubRead 1 (reqSlotAddr slot) 128).2.p = 0) ∧
    (∃ (s : State) (i u : Nat),
      s.canWrite i = true ∧ RegName.SRV_SUB_POLICE.has u 0 = true) ∧
    (∃ (s : State) (p : Nat),
      p < 8 ∧ s.fb F.HUB_STATUS_READY 0 0 = true ∧ s.fb F.SRV_EMIT_SUBMIT_PENDING p 0 = false) ∧
    (∃ (s : State) (p : Nat),
      let j := mget {} s.serve.emits p
      let at_ := hubBase + j.list + 16 * j.next
      let r := s.hubRead 1 at_ 16
      let n := handleSlot (wordOf r.2.v 0)
      let x := (r.1.hubRead 1 (reqSlotAddr n) 128).1.emitApply n (wordOf r.2.v 1)
      s.fb F.SRV_EMIT_SUBMIT_PENDING p 0 = true ∧ j.next + 1 < j.count ∧ r.2.p = 0 ∧ emitFormOk (wordOf r.2.v 1) = true ∧
      r.1.foreign none (wordOf r.2.v 0) = false ∧ (s.slotX n).queue.length < 64 ∧ (r.1.hubRead 1 (reqSlotAddr n) 128).2.p = 0 ∧
      (r.1.hubRead 1 (reqSlotAddr n) 128).1.stale none (wordOf r.2.v 0) = false ∧ x.2 = 0) :=
  ⟨⟨{ live with serve := { slots := [(0, { queue := [{ kind := 3 }] })] } }, 0, { kind := 3 }, [], by decide +kernel⟩,
   ⟨{ withSlot 6 with serve := { slots := [(0, { termDone := true })] } }, 0, by decide +kernel⟩,
   ⟨live, 0, 0, by decide +kernel⟩,
   ⟨live, 0, by decide +kernel⟩,
   ⟨{ putWords (place (withSlot 2) [(F.SRV_EMIT_SUBMIT_PENDING, 0, 0, 1)]) (hubBase + 0x800000) [1, 0] with serve := { emits := [(0, { list := 0x800000, count := 2 })] } }, 0, by decide +kernel⟩⟩

/-- The hypotheses of TransitSubmissionComplete, clause by clause. -/
theorem witness_TransitSubmissionComplete :
    (∃ (s : State) (c : Nat) (w : Word),
      let a := s.forward c .TRN_SUBMIT c 0 w
      let p := bits w.toNat 63 61
      let q := bits w.toNat 60 58
      let d := bits w.toNat 47 0
      let r := a.readMem trnUnit d 64
      c < 8 ∧ s.canWrite c = true ∧ s.fb F.TRN_SUBMIT_RESULT_DONE c 0 = true ∧ a.qOn p q = true ∧ a.qFull p q = false ∧ d % 64 = 0 ∧
      (a.region (a.canon d) = .hbm ∨ a.region (a.canon d) = .hub) ∧ r.2.p = 0 ∧ r.1.tdCheck p r.2.v = 0) ∧
    (∃ (s : State) (c : Nat) (w : Word) (e : TrnEntry),
      let a := s.forward c .TRN_ABORT c 0 w
      c < 8 ∧ s.canWrite c = true ∧ a.entry (bits w.toNat 63 61) (bits w.toNat 60 58) (w.toNat % 2 ^ 32) = some e) ∧
    (∃ (s : State) (p q : Nat) (e : TrnEntry),
      let es := s.trn.entries.filter (fun e => decide (e.part = p) && decide (e.queue = q))
      es.find? (fun e => decide (e.st = 0)) = some e ∧ (s.preempted p = false ∨ s.flagBehind e = true) ∧
      (∀ x : TrnEntry, x ∈ es.takeWhile (fun x => decide (x.st ≠ 0)) → x.st = 4 ∨ (tdOrder e.desc = false ∧ (x.st = 1 ∨ x.st = 2) ∧ s.allIssued x = true))) ∧
    (∃ (s : State) (x : Nat),
      (s.parcel x).live = true ∧ (s.parcel x).stage = .wheel ∧ (s.parcel x).release ≤ s.time ∧
      s.trn.parcels.any (fun q => decide (q.2.stage = .wheel) && decide (q.2.release = (s.parcel x).release) && decide (q.2.rank < (s.parcel x).rank)) = false) ∧
    (∃ (s : State) (slot layer : Nat) (h t : KvHand),
      let a := State.handSubmit 1024 s slot layer h.sent
      s.kv.hands.find? (fun h => decide (h.slot = slot) && decide (h.layer = layer)) = some h ∧ h.submitted = false ∧
      (s.kit (s.kvOwner slot)).pages.any (fun q => q.2.live && decide (q.2.slot = slot) && decide (q.2.layer = layer)) = false ∧
      a.kv.hands.find? (fun h => decide (h.slot = slot) && decide (h.layer = layer)) = some t ∧ t.submitted = true) :=
  ⟨⟨putWords (place live [(F.TRN_QUEUE_CFG_ENABLE, 0, 0, 1), (F.TRN_QUEUE_CFG_LOG2_DEPTH, 0, 0, 4), (F.TRN_SUB_CFG_PART_MASK, 0, 0, 1)]) (hubBase + 0x1000) [0x1000000000000001, 0x20000000000, 0x20000004000], 0, BitVec.ofNat 64 (hubBase + 0x1000), by decide +kernel⟩,
   ⟨{ live with trn := { entries := [{}] } }, 0, 0, {}, by decide +kernel⟩,
   ⟨{ live with trn := { entries := [{}] } }, 0, 0, {}, by decide +kernel, by decide +kernel, by decide +kernel⟩,
   ⟨{ live with trn := { parcels := [(1, { live := true, stage := .wheel })] } }, 1, by decide +kernel⟩,
   ⟨{ withKv live (2 ^ 63) 0 with kv := { hands := [{}] } }, 0, 0, {}, { submitted := true }, by decide +kernel⟩⟩

/-- The hypotheses of TransitParcelsComplete, clause by clause. -/
theorem witness_TransitParcelsComplete :
    (∃ (s : State) (x : Nat) (e : TrnEntry),
      s.entry (s.parcel x).part (s.parcel x).queue (s.parcel x).seq = some e ∧ s.startableParcel x (s.parcel x) e = true ∧
      (s.parcel x).begun = true) ∧
    (∃ (s : State) (x : Nat) (e : TrnEntry) (h : DrrHead),
      let k := s.parcel x
      let o := s.outputOf e.desc k
      let c := s.choose o
      let r := if tdDstG e.desc then s.parcelData x e.desc else (s, true)
      let m := r.1.parcel x
      let a := (r.1.setTrn (fun t => { t with deficit := c.2.1, turn := mput 0 t.turn (o * 4 + c.2.2) (h.service + 1) })).startPiece x e.desc
      s.entry (s.parcel x).part (s.parcel x).queue (s.parcel x).seq = some e ∧ s.startableParcel x (s.parcel x) e = true ∧
      (s.parcel x).begun = false ∧ (s.parcel x).stage ≠ .codecWait ∧ c.1 = some h ∧ h.parcel = x ∧
      s.tdSpans k.part e.desc k.off (k.off + k.len / 64) = none ∧
      (s.tdToFlash k.part e.desc && s.fb F.FLS_STATUS_WRITE_LOCK 0 0) = false ∧ r.2 = true ∧
      (tdDstG e.desc && decide (m.compared = 0) && r.1.compares m.part) = false ∧ (a.parcel x).begun = true) ∧
    (∃ (s : State) (x : Nat),
      let d := ((s.entry (s.parcel x).part (s.parcel x).queue (s.parcel x).seq).getD {}).desc;
      (s.parcel x).live = true ∧ (s.parcel x).stage = .flight ∧ s.halted = false ∧ tdDstG d = true ∧ (s.parcel x).outcome = some 0) ∧
    (∃ (s : State) (x : Nat),
      let d := ((s.entry (s.parcel x).part (s.parcel x).queue (s.parcel x).seq).getD {}).desc
      let a := (s.parcelData x d).1
      let k := a.parcel x;
      (s.parcel x).live = true ∧ (s.parcel x).stage = .flight ∧ s.halted = false ∧ tdDstG d = false ∧ (s.parcel x).outcome = none ∧
      (s.parcelData x d).2 = true ∧ (a.dstPieces d k).any (fun q => q.2.inFlash) = false ∧
      (a.dstPieces d k).all (fun q => !q.2.rem) = true) ∧
    (∃ (s : State) (x code : Nat) (e : TrnEntry),
      (s.parcel x).live = true ∧ s.entry (s.parcel x).part (s.parcel x).queue (s.parcel x).seq = some e ∧
      (s.parcel x).outcome = some code ∧ code ≠ 0 ∧ code ≠ 256) ∧
    (∃ (s : State) (x : Nat) (e : TrnEntry),
      let a := (s.setParcel x { s.parcel x with outcome := none }).count F.TRN_RX_FULL_COUNT 0 0 1
      let r := a.parcelTag x e.desc;
      (s.parcel x).live = true ∧ s.entry (s.parcel x).part (s.parcel x).queue (s.parcel x).seq = some e ∧
      (s.parcel x).outcome = some 256 ∧ (s.parcel x).stage = .flight ∧ 1000 + (s.parcel x).outcomeAt ≤ s.time ∧
      (s.freeTag (nodeOf (tdDst e.desc))).isNone = false ∧
      s.fenced (nodeOf (tdDst e.desc)) (parcelAddr e.desc (s.parcel x)) = false ∧ r.2 = true) ∧
    (∃ (s : State) (src tag : Nat),
      (s.inPar src tag).isOpen = true ∧ (s.inPar src tag).closed = false ∧ (s.inPar src tag).lastPkt + s.deadBound ≤ s.time) :=
  ⟨⟨withParcel 0x2000000400000000200000000001000000000000001 { len := 128, wire := 128, started := 64 }, 1, { st := 1, desc := 0x2000000400000000200000000001000000000000001 }, by decide +kernel⟩,
   ⟨withParcel 0x2000000400000000200000000001000000000000001 { len := 64, wire := 64 }, 1, { st := 1, desc := 0x2000000400000000200000000001000000000000001 }, { parcel := 1, bytes := 64 }, by decide +kernel⟩,
   ⟨withParcel 0x500000000000000000200000000001008000000000001 { stage := .flight, outcome := some 0 }, 1, by decide +kernel⟩,
   ⟨withParcel 0x2000000400000000200000000001000000000000001 { len := 64, wire := 64, stage := .flight }, 1, by decide +kernel⟩,
   ⟨withParcel 0x500000000000000000200000000001008000000000001 { outcome := some 1 }, 1, 1, { st := 1, desc := 0x500000000000000000200000000001008000000000001 }, by decide +kernel⟩,
   ⟨withTime (place (withParcel 0x500000000000000000200000000001008000000000001 { len := 64, wire := 64, stage := .flight, outcome := some 256 }) [(F.FAB_EGRESS_VALID, 5, 0, 1), (F.FAB_EGRESS_STATE, 5, 0, 1)]) 1000, 1, { st := 1, desc := 0x500000000000000000200000000001008000000000001 }, by decide +kernel⟩,
   ⟨withTime (withInbound {}) (10 ^ 12), 0, 0, by decide +kernel⟩⟩

/-- The hypotheses of CodecParcelsComplete, clause by clause. -/
theorem witness_CodecParcelsComplete :
    (∃ (s : State) (x u : Nat),
      (s.parcel x).live = true ∧ (s.parcel x).stage = .codecWait ∧ s.freeEncoder (s.parcel x).part = some u ∧
      s.trn.parcels.any (fun q => decide (q.2.stage = .codecWait) && decide (q.2.rank < (s.parcel x).rank) && (s.freeEncoder q.2.part).isSome) = false) ∧
    (∃ (s : State) (x : Nat) (raw rf : Data),
      let k := s.parcel x
      let d := ((s.entry k.part k.queue k.seq).getD {}).desc
      let a := trnActor k.part
      let r := s.fetchPieces (parcelKey x 0) a (s.srcPieces d k) k.len (xwSpan (tdSrc d)) (xwOff (tdSrc d)) (tdSub d + 1)
      let ref := if tdCodec d = 1 then
            r.1.fetchPieces (parcelKey x 1) { a with stream := ownStream } (r.1.tdPieces k.part (tdRef d) false (64 * k.off) k.len) k.len (xwSpan (tdRef d)) (xwOff (tdRef d)) (tdSub d + 1)
          else (r.1, some {});
      (s.parcel x).live = true ∧ (s.parcel x).stage = .coding ∧ r.2 = some raw ∧ ref.2 = some rf) ∧
    (∃ (s : State) (src tag b u : Nat),
      let o := s.inPar src tag
      o.isOpen = true ∧ o.coded = true ∧ o.waitingBlock = some b ∧ s.freeDecoder o.part = some u) ∧
    (∃ (s : State) (src tag b : Nat),
      let o := s.inPar src tag
      o.isOpen = true ∧ o.laneBlock = some b) ∧
    (∃ (s : State) (p : Pkt) (z : Reply),
      let o := s.inPar p.src p.tag
      let t := if o.reply.isSome then s else s.finishDecode p.src p.tag
      o.closed = true ∧ o.refused = 0 ∧ (List.range o.blocks).all (fun b => nmem o.decoded b) = true ∧ (t.inPar p.src p.tag).reply = some z) ∧
    (∃ (s : State) (src tag : Nat) (rd : Data),
      let o := s.inPar src tag
      let w := s.view o.old
      let len := min 65536 (hdrRawLen o.v)
      let ref := mget 0 o.refs (hdrRefId o.v)
      let rs := F.CDC_REF_SPAN.of ref
      let act := { deviceActor (F.CDC_REF_PARTITION.of ref) trnUnit with transit := true, stream := ownStream }
      let bs := o.refBlocks
      let refOk := fun (b : Nat) => decide (F.CDC_REF_VALID.of ref = 1) && decide (F.CDC_REF_PARTITION.of ref = o.part) &&
        (w.spanCheck act rs ((hdrRefOff o.v + 4096 * b : Nat) : Int) 4096 rRead).isNone
      let ps := bs.flatMap (fun b => (w.spanPieces act rs (hdrRefOff o.v + 4096 * b) 4096).map (fun q => (4096 * b + q.1, q.2)))
      let sub := s.f F.MEM_EXPORT_CTL_CHARGE (o.addr / 2 ^ 40 % 256) 0 + 1
      let r := if !bs.isEmpty && bs.all refOk then s.fetchPieces (inParKey src tag) act ps 65536 rs (hdrRefOff o.v) sub else (s, some {})
      let d := decodeStream o.v o.n o.rawLen refOk (fun b => (rd.v / 256 ^ (4096 * b) % 256 ^ 4096, rd.p / 2 ^ (128 * b) % 2 ^ 128))
      let h := w.exportHit src o.addr len rWrite
      let dst := w.spanPieces (deviceActor o.part trnUnit) h.span h.off len
      let q := r.1.newXfer
        { part := o.part, unit := o.unitOf 0, dst := dst, len := len, buf := cellsOf 0 d.v len, bufP := ninsMask [] 0 d.p (granules 0 len),
          stored := true, sub := sub, stream := ownStream }
      let x := if o.store = 0 then q.2 else o.store - 1
      let c := if o.store = 0 then (q.1.advance q.2).setInPar src tag { o with store := q.2 + 1 } else r.1.advance (o.store - 1)
      o.p = 0 ∧ r.2 = some rd ∧ d.reason = 0 ∧ d.badRef = [] ∧ h.status = 0 ∧ h.kind = 0 ∧ c.finishable x = true ∧
      (localOf dst).any (fun z => r.1.asleep z.1) = false) :=
  ⟨⟨withParcel 0 { stage := .codecWait }, 1, 0, by decide +kernel⟩,
   ⟨withParcel 0x500000000000000000200000000001808000000000001 { stage := .coding, len := 64 }, 1, {}, {}, by decide +kernel⟩,
   ⟨withInbound codedPar, 0, 0, 0, 0, by decide +kernel⟩,
   ⟨withInbound { codedPar with units := [(0, 1)] }, 0, 0, 0, by decide +kernel⟩,
   ⟨withInbound { codedPar with closed := true, decoded := [0] }, {}, {}, by decide +kernel⟩,
   ⟨withInbound codedPar, 0, 0, {}, by decide +kernel⟩⟩

/-- The hypotheses of FabricDataRequestsComplete, clause by clause. -/
theorem witness_FabricDataRequestsComplete :
    (∃ (s : State) (p : Pkt),
      let a := s.arrived p
      let n := sizeBytes p.size
      s.arrives p = true ∧ p.op = opLoad ∧ p.sized = true ∧ a.spanOpen p n rRead 1 0 n = true) ∧
    (∃ (s : State) (p : Pkt),
      let a := s.arrived p
      let n := sizeBytes p.size
      s.arrives p = true ∧ p.op = opStore ∧ p.sized = true ∧ a.spanOpen p n rWrite 0 1 0 = true) ∧
    (∃ (s : State) (p : Pkt),
      let a := s.arrived p
      let n := sizeBytes p.size
      let hit := fun (n need : Nat) => a.exportHit p.src p.addr n need
      s.arrives p = true ∧ p.op = opStore ∧ p.size = 5 ∧ p.addr % 128 = 0 ∧ (hit n rWrite).status = 0 ∧ (hit n rWrite).kind = 1) ∧
    (∃ (s : State) (p : Pkt),
      let a := s.arrived p
      let n := sizeBytes p.size
      s.arrives p = true ∧ p.op = opStorem ∧ p.sized = true ∧ a.spanOpen p n rWrite 0 1 0 = true) ∧
    (∃ (s : State) (p : Pkt),
      let a := s.arrived p
      let n := sizeBytes p.size
      s.arrives p = true ∧ p.op = opPeal ∧ p.size = 4 ∧ p.addr % 64 = 0 ∧ a.spanOpen p n rWrite 0 1 0 = true) ∧
    (∃ (s : State) (p : Pkt),
      let a := s.arrived p
      s.arrives p = true ∧ p.op = opAtomic ∧ (p.size = 1 ∨ p.size = 2) ∧ p.addr % 8 = 0 ∧ a.spanOpen p 8 rAtomic 1 1 8 = true) ∧
    (∃ (s : State) (p : Pkt),
      let a := s.arrived p
      let n := sizeBytes p.size
      s.arrives p = true ∧ p.op = opRed ∧ redForm p ≤ 4 ∧ bits p.red 28 26 = 0 ∧ (redForm p ≠ 0 → redAnchor p = 0) ∧
      p.size = (if redForm p = 0 then 6 else 4) ∧ p.addr % n = 0 ∧ a.spanOpen p n rReduce 1 1 0 = true ∧
      (redForm p = 0 → a.fb F.FAB_EXPORT_RED_CHECK p.exp 0 = true → a.f F.FAB_EXPORT_RED_ANCHOR p.exp 0 = redAnchor p)) :=
  ⟨⟨{ withInbound {} with fab := {} }, { op := opLoad, size := 6 }, by decide +kernel⟩,
   ⟨{ withInbound {} with fab := {} }, { op := opStore, size := 1 }, by decide +kernel⟩,
   ⟨{ place (withInbound {}) [(F.MEM_EXPORT_CTL_KIND, 0, 0, 1), (F.SRV_PART_SERVE_ADMIT_EN, 0, 0, 1)] with fab := {} }, { op := opStore, size := 5 }, by decide +kernel⟩,
   ⟨{ withInbound {} with fab := {} }, { op := opStorem, size := 4 }, by decide +kernel⟩,
   ⟨{ withInbound {} with fab := {} }, { op := opPeal, size := 4 }, by decide +kernel⟩,
   ⟨{ withInbound {} with fab := {} }, { op := opAtomic, size := 2 }, by decide +kernel⟩,
   ⟨{ withInbound {} with fab := {} }, { op := opRed, size := 6 }, by decide +kernel⟩⟩

/-- The hypotheses of FabricControlRequestsComplete, clause by clause. -/
theorem witness_FabricControlRequestsComplete :
    (∃ (s : State) (p : Pkt),
      s.arrives p = true ∧ p.op = opFence ∧ p.size = 0 ∧ s.fab.inb.any (fun q => decide (q.pkt.src = p.src)) = false) ∧
    (∃ (s : State) (p : Pkt) (q l : Nat),
      let a := s.arrived p
      s.arrives p = true ∧ p.op = opGong ∧ p.size = 1 ∧ bits p.payload 45 24 = 0 ∧ p.payload < 2 ^ 64 ∧ p.addr % 2 ^ 48 = 0 ∧
      a.lineOf (gongLineId p.payload) = some (q, l) ∧ p.payload.testBit 47 = false ∧ a.countsLine q l = true ∧
      gongPhase p.payload = a.f F.PAR_GONG_LINE_PHASE q l) ∧
    (∃ (s : State) (p : Pkt) (q l : Nat),
      let a := s.arrived p
      s.arrives p = true ∧ p.op = opGong ∧ p.size = 1 ∧ bits p.payload 45 24 = 0 ∧ p.payload < 2 ^ 64 ∧ p.addr % 2 ^ 48 = 0 ∧
      a.lineOf (gongLineId p.payload) = some (q, l) ∧ p.payload.testBit 47 = true ∧ gongCount p.payload = 0) ∧
    (∃ (s : State) (p : Pkt) (c : State),
      let a := s.arrived p
      let n := taintLen p
      let h := if (a.exportHit p.src (taintAddr p) n rWrite).status = ansRights then a.exportHit p.src (taintAddr p) n rReduce
        else a.exportHit p.src (taintAddr p) n rWrite
      let b := a.setInb p.src p.key (fun x => { x with hit := some (h, {}) })
      s.arrives p = true ∧ p.op = opTaint ∧ p.size = 2 ∧ bits (p.payload / 2 ^ 64) 42 32 = 0 ∧ taintAddr p % 32 = 0 ∧
      p.payload < 2 ^ 128 ∧ a.follows1 p = false ∧ h.status = 0 ∧ h.kind = 0 ∧
      b.passTaint p (b.spanPieces (deviceActor h.part trnUnit) h.span h.off n) (taintSeq p) = (c, true)) ∧
    (∃ (s : State) (p : Pkt),
      let a := s.arrived p
      let o := a.parNow p.src p.tag
      let n := sizeBytes p.size
      let v := a.view o.old
      let h := v.exportHit p.src (p.addr + o.n) n rWrite
      let pc := v.hitPiece h n
      s.arrives p = true ∧ p.parSized = true ∧ o.refused = 0 ∧ (o.isOpen = true ∨ a.openCount < 4096) ∧
      p.op = opParcel ∧ h.status = 0 ∧ h.kind = 0 ∧ pc.rem = false ∧ a.asleep pc.addr = false ∧
      a.inCredit p h.part pc.addr n 0 1 0 = true) ∧
    (∃ (s : State) (p : Pkt),
      let a := s.arrived p
      let o := a.parNow p.src p.tag
      let g := (a.view o.old).exportHit p.src p.addr 64 rWrite
      s.arrives p = true ∧ p.parSized = true ∧ o.refused = 0 ∧ (o.isOpen = true ∨ a.openCount < 4096) ∧
      p.op = opCparcel ∧ g.status = 0 ∧ g.kind = 0) ∧
    (∃ (s : State) (p : Pkt),
      let a := s.arrived p
      let o := a.parNow p.src p.tag
      let n := sizeBytes p.size
      let g := (a.view o.old).exportHit p.src p.addr 64 rWrite
      let c := a.chargeIn (some (a.chargeOf p)) p.port n
      let x : OpenParcel :=
        { o with isOpen := true, src := p.src, tag := p.tag, addr := p.addr, rawLen := p.rawLen, part := g.part, port := p.port, coded := true,
                 n := o.n + n, v := o.v + p.payload % 256 ^ n * 256 ^ o.n, p := o.p ||| (p.poison * 2 ^ (o.n / 32)), lastPkt := c.time,
                 refs := if !o.isOpen then c.refsNow else o.refs }
      s.arrives p = true ∧ p.parSized = true ∧ o.refused = 0 ∧ (o.isOpen = true ∨ a.openCount < 4096) ∧
      p.op = opCparcelEnd ∧ g.status = 0 ∧ g.kind = 0 ∧ (a.inPar p.src p.tag).closed = false ∧
      (List.range x.blocks).all (fun b => nmem x.decoded b) = false) ∧
    (∃ (s : State) (p : Pkt) (b : State),
      let a := s.arrived p
      let o := { b.inPar p.src p.tag with closed := true }
      let c := b.setInPar p.src p.tag o
      let w := c.view o.old
      let h := w.exportHit p.src p.addr o.n rWrite
      s.arrives p = true ∧ p.op = opParcelEnd ∧ (a.inPar p.src p.tag).closed = false ∧ a.parcelPacket p false = (b, true) ∧
      (b.inPar p.src p.tag).refused = 0 ∧
      (w.spanPieces (deviceActor o.part trnUnit) h.span h.off o.n).all (fun q => !q.2.rem) = true) ∧
    (∃ (s : State) (r : OrderRec),
      s.follows = true ∧ s.pair.orders.any (fun q => decide (q.num = r.num)) = false) ∧
    (∃ (s : State) (p : Pkt) (r : OrderRec),
      s.follows = true ∧ s.toPair p = true ∧
      s.pair.orders.find? (fun r => decide (r.node = p.src) && decide (r.tag = p.tag) && s.lacksPacket r) = some r ∧
      mget 0 s.pair.orderAt r.num + 2000 ≤ s.time + 1) ∧
    (∃ (s : State) (src tag : Nat) (q : Inbound) (port : Nat),
      let a := s.setInb src q.pkt.key (fun x => { x with pendingAt := s.time })
      s.inbDue src tag (fun q => decide (1000 + q.pendingAt ≤ s.time) && q.pkt.answered) = some q ∧
      (a.sends = true ∨ q.pkt.port = portLoop) ∧ src ≠ 0xFFFF ∧ a.backPort q.pkt = some port) ∧
    (∃ (s : State) (src tag : Nat) (q : Inbound),
      let o := s.inPar src tag
      let parcel := fun (q : Inbound) => decide (opParcel ≤ q.pkt.op) && decide (q.pkt.op ≤ opCparcelEnd)
      s.inbDue src tag (fun q => decide (1000000 + q.time ≤ s.time) && !q.begun && !(parcel q && (decide (o.store ≠ 0) || o.reply.isSome))) = some q ∧
      parcel q = false) :=
  ⟨⟨live, { op := opFence }, by decide +kernel⟩,
   ⟨withGong (F.PAR_GONG_LINE_SCOPE.put (F.PAR_GONG_LINE_ENABLE.put 0 1) 1), { op := opGong, size := 1 }, 0, 0, by decide +kernel⟩,
   ⟨withGong (F.PAR_GONG_LINE_SCOPE.put (F.PAR_GONG_LINE_ENABLE.put 0 1) 1), { op := opGong, size := 1, payload := 3 * 2 ^ 46 }, 0, 0, by decide +kernel⟩,
   ⟨{ withInbound {} with fab := {} }, taintPkt, taintAfter, by decide +kernel⟩,
   ⟨{ withInbound {} with fab := {} }, { op := opParcel, size := 6 }, by decide +kernel⟩,
   ⟨{ withInbound {} with fab := {} }, { op := opCparcel, size := 6 }, by decide +kernel⟩,
   ⟨{ withInbound {} with fab := {} }, { op := opCparcelEnd, size := 6 }, by decide +kernel⟩,
   ⟨{ withInbound {} with fab := {} }, { op := opParcelEnd, size := 4 }, ((State.arrived ({ withInbound {} with fab := {} }) { op := opParcelEnd, size := 4 }).parcelPacket { op := opParcelEnd, size := 4 } false).1, by decide +kernel⟩,
   ⟨place live [(F.HUB_PAIR_STATUS_ROLE, 0, 0, 3)], {}, by decide +kernel⟩,
   ⟨{ withTime (place live [(F.HUB_PAIR_STATUS_ROLE, 0, 0, 1), (F.HUB_PAIR_CFG_ENABLE, 0, 0, 1), (F.HUB_PAIR_CFG_PAIR_NODE, 0, 0, 7)]) 2000 with pair := { orders := [{}] } }, { addr := 7 * 2 ^ 48 }, {}, by decide +kernel⟩,
   ⟨withTime (withFab { inb := [{}] }) 1000, 0, 0, {}, portLoop, by decide +kernel⟩,
   ⟨withTime (withFab { inb := [{}] }) 1000000, 0, 0, {}, by decide +kernel⟩⟩

/-- The hypotheses of FabricAnswersComplete, clause by clause. -/
theorem witness_FabricAnswersComplete :
    (∃ (s : State) (p : Pkt) (n : Nat),
      let a := (s.creditRsp p).learn p.src p.port
      let g := a.tag n p.tag
      p.op = opRsp ∧ p.dst = s.node ∧ p.port ≠ portLoop ∧ p.status = 0 ∧ a.answerTag p.src p.tag = some n ∧ g.st = .out) ∧
    (∃ (s : State) (p : Pkt) (n : Nat),
      let a := s.creditRsp p
      p.op = opPending ∧ p.dst = s.node ∧ a.answerTag p.src p.tag = some n ∧ (a.tag n p.tag).st = .out) ∧
    (∃ (s : State) (node tag : Nat),
      (s.tag node tag).st = .out ∧ (s.tag node tag).time + s.deadBound ≤ s.time ∧ (∀ p l, (s.tag node tag).issuer ≠ .gong p l)) ∧
    (∃ (s : State) (node tag : Nat),
      (s.tag node tag).st = .quarantined ∧ 1500000 + (s.tag node tag).time ≤ s.time) ∧
    (∃ (s : State) (u : CtxId) (x v word : Nat),
      (s.ctx u).wait = .load x ∧ ((s.advance x).xfer x).kind = .load v word ∧ (s.advance x).finishable x = true) ∧
    (∃ (s : State) (x u flag d n : Nat),
      (s.advance x).finishable x = true ∧ ((s.advance x).xfer x).kind = .aldt u d n flag) ∧
    (∃ (s : State) (x u flag : Nat),
      (s.advance x).finishable x = true ∧ ((s.advance x).xfer x).kind = .copy u flag) ∧
    (∃ (s : State) (x u flag : Nat),
      (s.advance x).finishable x = true ∧ ((s.advance x).xfer x).kind = .kvrd u flag) ∧
    (∃ (s : State) (x u flag slot sel pos : Nat),
      (s.advance x).finishable x = true ∧ ((s.advance x).xfer x).kind = .kvapp u flag slot sel pos ∧
      ((s.advance x).askAppend x (ctxOfKey u).kit slot sel pos).xferOwes x = false) :=
  ⟨⟨withFab { tags := [(0, { st := .out })] }, { op := opRsp }, 0, by decide +kernel⟩,
   ⟨withFab { tags := [(0, { st := .out })] }, { op := opPending }, 0, by decide +kernel⟩,
   ⟨withTime (withFab { tags := [(0, { st := .out })] }) (10 ^ 12), 0, 0, by decide +kernel, by decide +kernel, fun p l h => by have h2 : Issuer.taint = .gong p l := h; cases h2⟩,
   ⟨withTime (withFab { tags := [(0, { st := .quarantined })] }) 1500000, 0, 0, by decide +kernel⟩,
   ⟨(withXfer (.load 0 0)).setCtx u0 (fun c => { c with wait := .load 1 }), u0, 1, 0, 0, by decide +kernel⟩,
   ⟨withXfer (.aldt 0 0 1 0), 1, 0, 0, 0, 1, by decide +kernel⟩,
   ⟨withXfer (.copy 0 0), 1, 0, 0, by decide +kernel⟩,
   ⟨withXfer (.kvrd 0 0), 1, 0, 0, by decide +kernel⟩,
   ⟨withXfer (.kvapp 0 0 0 0 0), 1, 0, 0, 0, 0, 0, by decide +kernel⟩⟩

/-- The hypotheses of LinksAndEgressComplete, clause by clause. -/
theorem witness_LinksAndEgressComplete :
    (∃ (cause : Nat),
      (cause = 1 ∨ cause = 5)) ∧
    (∃ (s : State) (link width : Nat),
      s.canTrain link width = true) ∧
    (∃ (s : State) (link f : Nat),
      let e := (s.link link).expected
      s.linkUp link = true ∧ f < 2 ^ 24 ∧ (s.link link).expected < 2 ^ 24 ∧ f = e) ∧
    (∃ (s : State) (link f : Nat),
      let e := (s.link link).expected
      s.linkUp link = true ∧ f < 2 ^ 24 ∧ (s.link link).expected < 2 ^ 24 ∧ f < e ∧ e ≤ f + 2048) ∧
    (∃ (s : State) (link f : Nat),
      let e := (s.link link).expected
      s.linkUp link = true ∧ f < 2 ^ 24 ∧ (s.link link).expected < 2 ^ 24 ∧ (s.link link).badFrom = none ∧ e < f ∧ f + 2048 < e + 2 ^ 24) ∧
    (∃ (s : State) (link f : Nat),
      s.linkUp link = true ∧ f < 2 ^ 24 ∧ (s.link link).expected < 2 ^ 24 ∧ (s.link link).badFrom = none) ∧
    (∃ (s : State) (link : Nat) (c : ControlFrame),
      s.linkUp link = true ∧ c.retry = none) ∧
    (∃ (s : State) (link : Nat) (c : ControlFrame) (n : Nat),
      let a := (s.count F.FAB_FEC_CORRECTED_COUNT link 0 c.corrected).setLink link (fun l =>
          { (l.accept c.accepted) with useReq := l.useReq - c.req, useRsp := l.useRsp - c.rsp, useCtl := l.useCtl - c.ctl })
      s.linkUp link = true ∧ c.retry = some n ∧ (a.link link).resends = []) ∧
    (∃ (s : State) (n : Nat),
      s.f F.FAB_EGRESS_STATE n 0 = egHold ∧ (s.egress n).holdEnd ≤ s.time ∧ (s.egress n).writePending = false ∧
      (s.egress n).downPending = false ∧ (s.egress n).heldAlt = none ∧ s.fb F.FAB_EGRESS_LEARNED_ALT_VALID n 0 = false) :=
  ⟨⟨5, by decide +kernel⟩,
   ⟨live, 0, 2, by decide +kernel⟩,
   ⟨place (withFab { links := [(0, { expected := 1 })] }) [(F.FAB_PORT_STATUS_UP, 0, 0, 1)], 0, 1, by decide +kernel⟩,
   ⟨place (withFab { links := [(0, { expected := 2048 })] }) [(F.FAB_PORT_STATUS_UP, 0, 0, 1)], 0, 0, by decide +kernel⟩,
   ⟨place (withFab { links := [(0, { expected := 1 })] }) [(F.FAB_PORT_STATUS_UP, 0, 0, 1)], 0, 2, by decide +kernel⟩,
   ⟨place (withFab { links := [(0, { expected := 1 })] }) [(F.FAB_PORT_STATUS_UP, 0, 0, 1)], 0, 1, by decide +kernel⟩,
   ⟨place (withFab { links := [(0, { expected := 0 })] }) [(F.FAB_PORT_STATUS_UP, 0, 0, 1)], 0, {}, by decide +kernel⟩,
   ⟨place (withFab { links := [(0, { expected := 0 })] }) [(F.FAB_PORT_STATUS_UP, 0, 0, 1)], 0, { retry := some 5 }, 5, by decide +kernel⟩,
   ⟨place live [(F.FAB_EGRESS_STATE, 0, 0, 1)], 0, by decide +kernel⟩⟩

/-- The hypotheses of FlashAndPageCommandsComplete, clause by clause. -/
theorem witness_FlashAndPageCommandsComplete :
    (∃ (s : State) (r : FlashRead) (l : Nat),
      s.askedAt r.codeword = some l ∧ decide (r.soft = some false) = false ∧ r.retries ≤ 1) ∧
    (∃ (s : State) (r : FlashRead) (l : Nat),
      s.askedAt r.codeword = some l ∧ decide (r.soft = some false) = false ∧ 2 ≤ r.retries ∧ r.retries ≤ 3) ∧
    (∃ (s : State) (r : FlashRead) (l : Nat),
      s.askedAt r.codeword = some l ∧ decide (r.soft = some false) = false ∧ 4 ≤ r.retries ∧ r.retries ≤ 7) ∧
    (∃ (s : State) (r : FlashRead) (l : Nat),
      s.askedAt r.codeword = some l ∧ decide (r.soft = some false) = true ∧ r.retries ≤ 1) ∧
    (∃ (s : State) (r : FlashRead) (l : Nat),
      s.askedAt r.codeword = some l ∧ decide (r.soft = some false) = true ∧ 2 ≤ r.retries ∧ r.retries ≤ 7) ∧
    (∃ (s : State) (r : FlashProg),
      let d := ((s.entry (s.parcel r.parcel).part (s.parcel r.parcel).queue (s.parcel r.parcel).seq).getD {}).desc;
      (s.parcel r.parcel).live = true ∧ (s.parcel r.parcel).stage = .flight ∧ (s.parcel r.parcel).programmed = false ∧
      s.flash.gives r.block = true ∧ s.fb F.FLS_STATUS_READY 0 0 = true ∧ s.boot.refclkLost = false ∧ s.tdToFlash (s.parcel r.parcel).part d = true ∧
      r.ok = false) ∧
    (∃ (s : State) (r : FlashProg) (o b : Nat) (pc : Piece) (rest : List (Nat × Piece)),
      let d := ((s.entry (s.parcel r.parcel).part (s.parcel r.parcel).queue (s.parcel r.parcel).seq).getD {}).desc
      let a := (s.parcelData r.parcel d).1
      let k := a.parcel r.parcel;
      (s.parcel r.parcel).live = true ∧ (s.parcel r.parcel).stage = .flight ∧ (s.parcel r.parcel).programmed = false ∧
      s.flash.gives r.block = true ∧ s.fb F.FLS_STATUS_READY 0 0 = true ∧ s.boot.refclkLost = false ∧ s.tdToFlash (s.parcel r.parcel).part d = true ∧
      r.ok = true ∧ (s.parcelData r.parcel d).2 = true ∧ a.dstPieces d k = (o, pc) :: rest ∧ a.flashByte pc.addr = some b) ∧
    (∃ (s : State) (block : Nat),
      (s.block block).retired = false ∧ s.flash.liveIn block = [] ∧
      s.flash.reloc.any (fun r => decide (r.src = block) || decide (r.dst = block)) = false ∧
      s.xfers.any (fun q => (q.2.nand.getD []).any (fun e => decide ((mget {} s.flash.locs e.2.1).block = block))) = false) ∧
    (∃ (s : State) (r : FlashSpace),
      blockChannel r.victim = r.channel ∧ s.flash.locs.any (fun q => decide (q.2.block = r.victim) && !q.2.live) = true ∧
      (s.block r.victim).retired = false ∧ s.flash.reloc.any (fun q => decide (q.src = r.victim) || decide (q.dst = r.victim)) = false) ∧
    (∃ (s : State) (r : FlashSpace),
      s.flash.locs.any (fun q => decide (q.2.block = r.victim) && !q.2.live) = false) ∧
    (∃ (s : State) (src dst : Nat),
      src ≠ dst ∧ (s.flash.queue.contains src || s.wearCold src) = true ∧ s.flash.unitsIn dst = 0 ∧ s.flash.gives dst = true ∧
      s.flash.reloc.any (fun r => decide (r.src = src) || decide (r.dst = dst) || decide (r.dst = src)) = false) ∧
    (∃ (s : State) (src : Nat) (r : Reloc),
      s.flash.reloc.find? (fun r => decide (r.src = src) && decide (r.phase = .begun)) = some r ∧ s.fb F.FLS_STATUS_READY 0 0 = false) ∧
    (∃ (s : State) (src : Nat) (r : Reloc),
      s.flash.reloc.find? (fun r => decide (r.src = src) && decide (r.phase = .begun)) = some r ∧ s.fb F.FLS_STATUS_READY 0 0 = true ∧
      s.boot.refclkLost = false) ∧
    (∃ (s : State),
      s.fb F.FLS_STATUS_READY 0 0 = true ∧ s.boot.refclkLost = false) ∧
    (∃ (s : State),
      s.fb F.FLS_CONFIG_ENABLE 0 0 = true ∧ s.fb F.FLS_STATUS_READY 0 0 = false ∧ s.mapHome = true) ∧
    (∃ (s : State) (c : Nat) (w : Word),
      let p := bits w.toNat 39 12
      let n := bits w.toNat 63 40 + 1
      c < 8 ∧ s.canWrite c = true ∧ s.fb F.MEM_DISCARD_RESULT_DONE c 0 = true ∧ s.discardOk p n = true) ∧
    (∃ (s : State) (c : Nat),
      c < 8 ∧ s.fb F.MEM_DISCARD_RESULT_DONE c 0 = false ∧ s.boot.refclkLost = false) ∧
    (∃ (s : State) (c : Nat),
      c < 8 ∧ s.canWrite c = true) :=
  ⟨⟨asked, { codeword := 7, retries := 1 }, 0, by decide +kernel⟩,
   ⟨asked, { codeword := 7, retries := 2 }, 0, by decide +kernel⟩,
   ⟨asked, { codeword := 7, retries := 7, soft := some true }, 0, by decide +kernel⟩,
   ⟨asked, { codeword := 7, soft := some false }, 0, by decide +kernel⟩,
   ⟨asked, { codeword := 7, retries := 7, soft := some false }, 0, by decide +kernel⟩,
   ⟨{ flashLive with trn := { entries := [{ st := 1, desc := 0x3000000000000000200000000001000000000000001 }], parcels := [(1, { live := true, stage := .flight, len := 64 })] } }, { parcel := 1, block := 0, ok := false }, by decide +kernel⟩,
   ⟨{ flashLive with trn := { entries := [{ st := 1, desc := 0x3000000000000000200000000001000000000000001 }], parcels := [(1, { live := true, stage := .flight, len := 64 })] } }, { parcel := 1, block := 0 }, 0, flashBase % 0x100000000, { addr := flashBase, len := 64 }, [], by decide +kernel⟩,
   ⟨live, 0, by decide +kernel⟩,
   ⟨{ live with flash := { locs := [(0, {})] } }, { channel := 0, victim := 0 }, by decide +kernel⟩,
   ⟨live, { channel := 0, victim := 0 }, by decide +kernel⟩,
   ⟨{ live with flash := { queue := [0] } }, 0, 1, by decide +kernel⟩,
   ⟨{ live with flash := { reloc := [{ phase := .begun }] } }, 0, { phase := .begun }, by decide +kernel⟩,
   ⟨{ flashLive with flash := { reloc := [{ phase := .begun }] } }, 0, { phase := .begun }, by decide +kernel⟩,
   ⟨flashLive, by decide +kernel⟩,
   ⟨place live [(F.FLS_CONFIG_ENABLE, 0, 0, 1)], by decide +kernel⟩,
   ⟨live, 0, 0, by decide +kernel⟩,
   ⟨place live [(F.MEM_DISCARD_RESULT_DONE, 0, 0, 0)], 0, by decide +kernel⟩,
   ⟨live, 0, by decide +kernel⟩⟩

/-- The hypotheses of SearchCommandsComplete, clause by clause. -/
theorem witness_SearchCommandsComplete :
    (∃ (s : State) (i off n j : Nat) (r : RegName),
      srcAt off = some (r, n, j) ∧ s.canWrite i = true ∧ s.srcBusy n = false) ∧
    (∃ (s : State) (i v : Nat) (d : Data) (n : Nat),
      let fr := (s.sqSettle i).ringFront (i + 4)
      let a := fr.1.beginJob (i + 4)
      let own := decide (wordOf v 5 = 0) || sqHold v
      let b := ((if own then a.srcReg i n true else a).count F.SRC_QUERIES_COUNT i 0 1).useSnap (i + 4) n own
      let q := b.fetchVia (srcKey i 0) (b.sqActor i) (wordOf v 1) (b.sqSourceLen i v)
      let t := q.1.srcTable i d.v
      let codes := t.2.2.toArray
      let tab := fun n => (codes.getD n (0, false)).1
      let k := ((SrcWalk.mk t.1 [] [] {}).offer i tab (sqW v) (if t.1.srcNodes i ≤ t.1.srcEntry i then srcEmpty else t.1.srcEntry i)).run i tab
            (sqW v) n (sqEmax v)
      let ps := t.1.srcVectors i v k
      let r := k.s.srcReturn i v d.v k
      i < 16 ∧ sqReady s i v = true ∧ sqOp v = 1 ∧ (a.ringJob (i + 4)).snap = 0 ∧ a.srcServed i = true ∧
      wordOf v 5 = 0 ∧ n = a.srcGen i ∧
      q.2 = some d ∧ d.p = 0 ∧ t.2.1 = false ∧ t.2.2.any Prod.snd = false ∧
      (b.fetchPieces (srcKey i 1) (t.1.sqActor i) ps (2 * t.1.srcD i * ps.length) 0 0
        (t.1.f F.MEM_PART_CHARGE_SUBSCRIBER (t.1.srcPart i) 0 + 1)).2.isSome = true ∧ r.2.1.poisoned = 0) ∧
    (∃ (s : State) (i v : Nat) (d : Data) (n : Nat),
      let fr := (s.sqSettle i).ringFront (i + 4)
      let a := fr.1.beginJob (i + 4)
      let own := decide (wordOf v 5 = 0) || sqHold v
      let b := ((if own then a.srcReg i n true else a).count F.SRC_QUERIES_COUNT i 0 1).useSnap (i + 4) n own
      let q := b.fetchVia (srcKey i 0) (b.sqActor i) (wordOf v 1) (b.sqSourceLen i v)
      let t := q.1.srcTable i d.v
      let codes := t.2.2.toArray
      let tab := fun n => (codes.getD n (0, false)).1
      let k := ((SrcWalk.mk t.1 [] [] {}).offer i tab (sqW v) (if t.1.srcNodes i ≤ t.1.srcEntry i then srcEmpty else t.1.srcEntry i)).run i tab
            (sqW v) n (sqEmax v)
      let ps := t.1.srcVectors i v k
      let r := k.s.srcReturn i v d.v k
      i < 16 ∧ sqReady s i v = true ∧ sqOp v = 1 ∧ (a.ringJob (i + 4)).snap = 0 ∧ a.srcServed i = true ∧
      wordOf v 5 = n ∧ n ≠ 0 ∧ n < 2 ^ 32 ∧ srcAge (a.srcGen i) n ≤ 63 ∧ a.srcHeld i n = true ∧
      q.2 = some d ∧ d.p = 0 ∧ t.2.1 = false ∧ t.2.2.any Prod.snd = false ∧
      (b.fetchPieces (srcKey i 1) (t.1.sqActor i) ps (2 * t.1.srcD i * ps.length) 0 0
        (t.1.f F.MEM_PART_CHARGE_SUBSCRIBER (t.1.srcPart i) 0 + 1)).2.isSome = true ∧ r.2.1.poisoned = 0) ∧
    (∃ (s : State) (i v : Nat),
      let a := ((s.sqSettle i).ringFront (i + 4)).1.beginJob (i + 4)
      let h := a.srcHeader i (sqId v)
      let del := h.2.2.1 / 2 ^ 32
      let act := a.sqActor i
      let b := (h.1.fetchStart (srcKey i 0) act (wordOf v 1) (a.srcM i)).fetchStart (srcKey i 1) act (wordOf v 4) (4 * a.srcDg i)
      i < 16 ∧ sqReady s i v = true ∧ sqOp v = 2 ∧ h.2.2.2 = false ∧ del = 0 ∧
      sqList v < a.srcLists i ∧
      (b.fetchReady (srcKey i 0) act (wordOf v 1) (b.srcM i) && b.fetchReady (srcKey i 1) act (wordOf v 4) (4 * b.srcDg i)) = true) ∧
    (∃ (s : State) (i v : Nat) (lst : Data),
      let a := ((s.sqSettle i).ringFront (i + 4)).1.beginJob (i + 4)
      let g := srcNext (a.srcGen i)
      let h := a.srcHeader i (sqId v)
      let del := h.2.2.1 / 2 ^ 32
      let r := h.1.fetchVia (srcKey i 1) (a.sqActor i) (wordOf v 4) (4 * a.srcDg i)
      i < 16 ∧ sqReady s i v = true ∧ sqOp v = 3 ∧ h.2.2.2 = false ∧
      del = srcEmpty ∧ h.2.1 / 2 ^ 32 ≠ g ∧ srcLe (h.2.1 / 2 ^ 32) (a.srcOldest i) = true ∧ sqList v ≠ h.2.1 % 2 ^ 32 ∧ r.2 = some lst) ∧
    (∃ (s : State) (i v : Nat),
      let a := ((s.sqSettle i).ringFront (i + 4)).1.beginJob (i + 4)
      let h := a.srcHeader i (sqId v)
      let del := h.2.2.1 / 2 ^ 32
      i < 16 ∧ sqReady s i v = true ∧ sqOp v = 4 ∧ h.2.2.2 = false ∧
      del = srcEmpty ∧ sqId v ≠ a.srcEntry i) ∧
    (∃ (s : State) (i v : Nat),
      let a := ((s.sqSettle i).ringFront (i + 4)).1.beginJob (i + 4)
      let g := srcNext (a.srcGen i)
      i < 16 ∧ sqReady s i v = true ∧ sqOp v = 5 ∧ a.srcQ i g = 0 ∧
      (a.srcListed i).any (fun n => (a.srcUnsettled i n).any (fun x => srcLe x g && decide (2 ^ 30 ≤ srcAge g x))) = false) ∧
    (∃ (s : State) (i v : Nat),
      let a := ((s.sqSettle i).ringFront (i + 4)).1.beginJob (i + 4)
      i < 16 ∧ sqReady s i v = true ∧ sqOp v = 6 ∧ a.srcHeld i (wordOf v 5) = true) ∧
    (∃ (s : State) (i : Nat),
      i < 16 ∧ s.fb F.SRC_INDEX_CFG_ENABLE i 0 = true ∧ s.boot.refclkLost = false ∧ s.coreRuns (s.f F.SRC_INDEX_CFG_CORE i 0) = true) :=
  ⟨⟨live, 0, RegName.SRC_INDEX_CFG.off 0 0, 0, 0, .SRC_INDEX_CFG, by decide +kernel⟩,
   ⟨place (srcLive [0x1000000000000001, 0x20000000000, 0x20000001000, 0x20000002000, 0x20000003000, 0, 0, 0]) [(F.SRC_INDEX_CFG_M, 0, 0, 0)], 0, 0x200000030000000020000002000000002000000100000000200000000001000000000000001, {}, 1, by decide +kernel⟩,
   ⟨place (srcLive [0x1000000000000001, 0x20000000000, 0x20000001000, 0x20000002000, 0x20000003000, 1, 0, 0]) [(F.SRC_INDEX_CFG_M, 0, 0, 0), (F.SRC_INDEX_GEN_CURRENT, 0, 0, 1), (F.SRC_INDEX_QCOUNT_COUNT, 0, 1, 1)], 0, 0x100000200000030000000020000002000000002000000100000000200000000001000000000000001, {}, 1, by decide +kernel⟩,
   ⟨srcLive [0x2000000000000000, 0x20000000000, 0x20000001000, 0x20000002000, 0x20000003000, 0, 0, 0], 0, 0x200000030000000020000002000000002000000100000000200000000002000000000000000, by decide +kernel⟩,
   ⟨putWords (srcLive [0x3000000000000000, 0x20000000000, 0x20000001000, 0x20000002000, 0x20000003000, 0, 0x100000000, 0]) (hubBase + 0x20000) [0, 0xFFFFFFFF00000000], 0, 0x100000000000000000000000000000200000030000000020000002000000002000000100000000200000000003000000000000000, {}, by decide +kernel⟩,
   ⟨place (putWords (srcLive [0x4000000000000000, 0x20000000000, 0x20000001000, 0x20000002000, 0x20000003000, 0, 0, 0]) (hubBase + 0x20000) [0, 0xFFFFFFFF00000000]) [(F.SRC_INDEX_CFG_ENTRY, 0, 0, 1)], 0, 0x200000030000000020000002000000002000000100000000200000000004000000000000000, by decide +kernel⟩,
   ⟨srcLive [0x5000000000000000, 0x20000000000, 0x20000001000, 0x20000002000, 0x20000003000, 0, 0, 0], 0, 0x200000030000000020000002000000002000000100000000200000000005000000000000000, by decide +kernel⟩,
   ⟨place (srcLive [0x6000000000000000, 0x20000000000, 0x20000001000, 0x20000002000, 0x20000003000, 1, 0, 0]) [(F.SRC_INDEX_GEN_CURRENT, 0, 0, 1), (F.SRC_INDEX_QCOUNT_COUNT, 0, 1, 1)], 0, 0x100000200000030000000020000002000000002000000100000000200000000006000000000000000, by decide +kernel⟩,
   ⟨srcLive [], 0, by decide +kernel⟩⟩

/-- The hypotheses of PreemptionCommandsComplete, clause by clause. -/
theorem witness_PreemptionCommandsComplete :
    (∃ (s : State) (c : Nat) (w : Word),
      let a := s.forward c .PAR_PREEMPT c 0 w
      let p := F.PAR_PREEMPT_PARTITION.of w
      let mid := decide (a.stepState p = stRunning)
      let v := (a.evalSave p mid).2
      c < 8 ∧ s.canWrite c = true ∧ a.fb F.PAR_PREEMPT_RESULT_DONE c 0 = true ∧ rsvSet (RegName.fields .PAR_PREEMPT) w = false ∧
      a.fb F.PAR_CONFIG_GUEST p 0 = false ∧ F.PAR_PREEMPT_OP.of w = 1 ∧ F.PAR_PREEMPT_LEND.of w = 0 ∧ a.phase p = phNone ∧
      a.fb F.PAR_CONFIG_ENABLE p 0 = true ∧ a.isHeld p = false ∧ v.code = preOk ∧ a.stepState p ≠ stRunning) ∧
    (∃ (s : State) (c : Nat) (w : Word),
      let a := s.forward c .PAR_PREEMPT c 0 w
      let p := F.PAR_PREEMPT_PARTITION.of w
      let mid := decide (a.stepState p = stRunning)
      let v := (a.evalSave p mid).2
      c < 8 ∧ s.canWrite c = true ∧ a.fb F.PAR_PREEMPT_RESULT_DONE c 0 = true ∧ rsvSet (RegName.fields .PAR_PREEMPT) w = false ∧
      a.fb F.PAR_CONFIG_GUEST p 0 = false ∧ F.PAR_PREEMPT_OP.of w = 1 ∧ F.PAR_PREEMPT_LEND.of w = 0 ∧ a.phase p = phNone ∧
      a.fb F.PAR_CONFIG_ENABLE p 0 = true ∧ a.isHeld p = false ∧ v.code = preOk ∧ a.stepState p = stRunning) ∧
    (∃ (s : State) (c : Nat) (w : Word),
      let a := s.forward c .PAR_PREEMPT c 0 w
      let p := F.PAR_PREEMPT_PARTITION.of w
      c < 8 ∧ s.canWrite c = true ∧ a.fb F.PAR_PREEMPT_RESULT_DONE c 0 = true ∧ rsvSet (RegName.fields .PAR_PREEMPT) w = false ∧
      a.fb F.PAR_CONFIG_GUEST p 0 = false ∧ F.PAR_PREEMPT_OP.of w = 2 ∧ a.returnable p = true ∧
      a.fb F.PAR_PREEMPT_STATUS_KIT_LOST p 0 = false ∧ (a.imagesOk p).2 = true) ∧
    (∃ (s : State) (c : Nat) (w : Word),
      let a := s.forward c .PAR_PREEMPT c 0 w
      let p := F.PAR_PREEMPT_PARTITION.of w
      c < 8 ∧ s.canWrite c = true ∧ a.fb F.PAR_PREEMPT_RESULT_DONE c 0 = true ∧ rsvSet (RegName.fields .PAR_PREEMPT) w = false ∧
      a.fb F.PAR_CONFIG_GUEST p 0 = false ∧ F.PAR_PREEMPT_OP.of w = 3 ∧ a.returnable p = true) ∧
    (∃ (s : State) (c : Nat) (w : Word),
      let a := s.forward c .PAR_PREEMPT c 0 w
      let p := F.PAR_PREEMPT_PARTITION.of w
      c < 8 ∧ s.canWrite c = true ∧ a.fb F.PAR_PREEMPT_RESULT_DONE c 0 = true ∧ rsvSet (RegName.fields .PAR_PREEMPT) w = false ∧
      a.fb F.PAR_CONFIG_GUEST p 0 = false ∧ F.PAR_PREEMPT_OP.of w = 4 ∧ a.phase p = phWaiting) ∧
    (∃ (s : State) (p : Nat),
      p < 8 ∧ s.phase p = phSaving ∧ (s.part p).pre.imaged = false ∧
      (∀ k, k ∈ s.ownKits p → (s.suspendEntries p).kitDrained k = true ∧ (s.suspendEntries p).parcelOnSlots k = false)) ∧
    (∃ (s : State) (p : Nat),
      p < 8 ∧ s.phase p = phSaving ∧ (s.part p).pre.imaged = true ∧ (s.part p).pre.lend = false) ∧
    (∃ (s : State) (p : Nat),
      p < 8 ∧ s.phase p = phSaving ∧ (s.part p).pre.imaged = true ∧ (s.part p).pre.lend = true) ∧
    (∃ (s : State) (p : Nat),
      p < 8 ∧ s.phase p = phReturning ∧ (∀ k, k ∈ s.ownKits p → s.kitDrained k = true)) ∧
    (∃ (s : State) (p : Nat) (b : State),
      let a := (s.ownKits p).foldl (fun t k => t.restoreKit p k (s.part p).pre.abandon) s
      b = { a with saves := a.saves.filter (fun q => decide (q.1 / 8 ≠ p)) } ∧ p < 8 ∧ s.phase p = phRestoring) :=
  ⟨⟨place idle [(F.PAR_SAVE_VALID, 0, 0, 1), (F.PAR_SAVE_LENGTH, 0, 0, 0xFFFF)], 0, F.PAR_PREEMPT_OP.put 0 1, by decide +kernel⟩,
   ⟨place live [(F.PAR_SAVE_VALID, 0, 0, 1), (F.PAR_SAVE_LENGTH, 0, 0, 0xFFFF)], 0, F.PAR_PREEMPT_OP.put 0 1, by decide +kernel⟩,
   ⟨place live [(F.PAR_PREEMPT_STATUS_PHASE, 0, 0, 3), (F.PAR_CONFIG_KIT_MASK, 0, 0, 0)], 0, F.PAR_PREEMPT_OP.put 0 2, by decide +kernel⟩,
   ⟨place live [(F.PAR_PREEMPT_STATUS_PHASE, 0, 0, 3)], 0, F.PAR_PREEMPT_OP.put 0 3, by decide +kernel⟩,
   ⟨place live [(F.PAR_PREEMPT_STATUS_PHASE, 0, 0, 1)], 0, F.PAR_PREEMPT_OP.put 0 4, by decide +kernel⟩,
   ⟨place live [(F.PAR_PREEMPT_STATUS_PHASE, 0, 0, 2)], 0, by decide +kernel⟩,
   ⟨(place live [(F.PAR_PREEMPT_STATUS_PHASE, 0, 0, 2)]).setPart 0 (fun p => { p with pre := { imaged := true } }), 0, by decide +kernel⟩,
   ⟨(place live [(F.PAR_PREEMPT_STATUS_PHASE, 0, 0, 2)]).setPart 0 (fun p => { p with pre := { imaged := true, lend := true } }), 0, by decide +kernel⟩,
   ⟨place live [(F.PAR_PREEMPT_STATUS_PHASE, 0, 0, 5)], 0, by decide +kernel⟩,
   ⟨place live [(F.PAR_PREEMPT_STATUS_PHASE, 0, 0, 6)], 0, _, rfl, by decide +kernel⟩⟩

/-- The hypotheses of RegulatorAndRetirementComplete, clause by clause. -/
theorem witness_RegulatorAndRetirementComplete :
    (∃ (y z b : State),
      let s := (List.range 8).foldl (fun s p => (List.range 7).foldl (fun s r =>
          s.setF F.PAR_REG_STAT_LAST p r (min (2 ^ 32 - 1) (s.regLast p r))) s) z
      z = { y with boot := { y.boot with regWindow := y.time / 1000 } } ∧ b = { s with used := [] } ∧ y.boot.regWindow < y.time / 1000) ∧
    (∃ (s : State) (k : Nat),
      s.kitLive k = true) ∧
    (∃ (s : State) (k b : Nat),
      s.kitLive k = true ∧ b < 2 ∧ nmem (s.kit k).bridgeDown b = false) ∧
    (∃ (s : State) (k : Nat),
      s.kitLive k = true ∧ s.power.gone = false ∧ s.boot.resetHeld = false) ∧
    (∃ (s : State) (k d line : Nat),
      s.boot.refclkLost = false ∧
      (s.drum k d).merge.any (fun e => decide (e.line = line) && decide (e.since + s.mergeAge k d ≤ s.time)) = true) :=
  ⟨⟨withTime live 1000, _, _, rfl, rfl, by decide +kernel⟩,
   ⟨live, 0, by decide +kernel⟩,
   ⟨live, 0, 0, by decide +kernel⟩,
   ⟨{ live with boot := { resetHeld := false } }, 0, by decide +kernel⟩,
   ⟨withTime (withDrum (fun d => { d with merge := [{}] })) (10 ^ 9), 0, 0, 0, by decide +kernel⟩⟩

/-- The hypotheses of ScrubAndSoundChecksComplete, clause by clause. -/
theorem witness_ScrubAndSoundChecksComplete :
    (∃ (s : State) (u : Nat),
      u < 9 ∧ s.fb F.INT_SCRUB_CFG_ENABLE u 0 = true ∧ (u < 8 → s.kitLive u = true ∧ s.boot.refclkLost = false) ∧
      s.scrubUsed u < max 1 (s.f F.INT_SCRUB_CFG_RATE u 0)) ∧
    (∃ (s : State) (u : Nat),
      u < 9 ∧ s.fb F.INT_SCRUB_STATUS_RUNNING u 0 = true ∧ s.fb F.INT_SCRUB_STATUS_OVERDUE u 0 = false ∧
      3600000 * max 1 (s.f F.INT_SCRUB_CFG_OVERDUE_H u 0) ≤ s.lapMs u) ∧
    (∃ (s : State) (c b : Nat) (w : Word),
      let a := F.INT_SCHECK_UNIT.of w
      let good := fun (u : Nat) => unitExists u = true ∧ s.unitRetired u = false ∧ unitKind u = F.INT_SCHECK_KIND.of w ∧ s.underTest u = false
      c < 8 ∧ s.fb F.HUB_STATUS_READY 0 0 = true ∧ s.fb F.INT_SCHECK_RESULT_DONE c 0 = true ∧ F.INT_SCHECK_PARTNER.of w = b ∧
      b ≠ 0xFFFFFF ∧ good a ∧ good b ∧ a ≠ b) ∧
    (∃ (s : State) (c b : Nat) (w : Word),
      let a := F.INT_SCHECK_UNIT.of w
      let good := fun (u : Nat) => unitExists u = true ∧ s.unitRetired u = false ∧ unitKind u = F.INT_SCHECK_KIND.of w ∧ s.underTest u = false
      c < 8 ∧ s.fb F.HUB_STATUS_READY 0 0 = true ∧ s.fb F.INT_SCHECK_RESULT_DONE c 0 = true ∧ F.INT_SCHECK_PARTNER.of w = 0xFFFFFF ∧
      s.autoPartner a [a] = some b ∧ good a ∧ good b ∧ a ≠ b) ∧
    (∃ (s : State) (c : Nat) (k : SCheck),
      s.withPartner (s.check c) = some k ∧ k.live = true ∧ k.running = false ∧ k.tests.all (fun u => s.inGap u && !s.underTest u) = true) ∧
    (∃ (s : State) (c : Nat) (k : SCheck),
      let n := s.f F.INT_OBS_CFG_FORCE_S 0 0
      s.withPartner (s.check c) = some k ∧ k.live = true ∧ k.running = false ∧ unitKind k.a ≠ 4 ∧
      k.since + (if 10 ≤ n ∧ n ≤ 600 then n else 600) * 1000000000 ≤ s.time ∧
      (∀ u ∈ k.tests, s.underTest u = false ∧ (unitKind u = 3 → s.codecBusy (bits u 20 18) = false)) ∧
      (∀ u ∈ k.tests, unitKind u < 2 → let x := s.drum (unitKit u) (unitNum u)
        x.inStep = false ∧ x.calibrating = false ∧ x.rebindFrom = 0 ∧ s.mustForce (unitKit u) (unitNum u) = false) ∧
      unitKind k.a = 3) ∧
    (∃ (s : State) (c : Nat) (k : SCheck),
      let n := s.f F.INT_OBS_CFG_FORCE_S 0 0
      s.withPartner (s.check c) = some k ∧ k.live = true ∧ k.running = false ∧ unitKind k.a ≠ 4 ∧
      k.since + (if 10 ≤ n ∧ n ≤ 600 then n else 600) * 1000000000 ≤ s.time ∧
      (∀ u ∈ k.tests, s.underTest u = false ∧ (unitKind u = 3 → s.codecBusy (bits u 20 18) = false)) ∧
      (∀ u ∈ k.tests, unitKind u < 2 → let x := s.drum (unitKit u) (unitNum u)
        x.inStep = false ∧ x.calibrating = false ∧ x.rebindFrom = 0 ∧ s.mustForce (unitKit u) (unitNum u) = false) ∧
      unitKind k.a ≠ 3 ∧ s.heldKits k ≠ [] ∧ (∀ q ∈ s.heldKits k, (s.kit q).forcedCalib = false ∧ (List.range 156).any (s.mustForce q) = false)) ∧
    (∃ (s : State) (c : Nat) (r : CheckResult),
      let k := s.check c
      k.live = true ∧ k.running = true ∧ k.refereeing = false ∧ r.agree = true) ∧
    (∃ (s : State) (c v : Nat) (r : CheckResult),
      let k := s.check c
      let b := (s.count F.INT_CHECKS_COUNT 0 0 1).setCheck c { k with running := false, forced := false }
      k.live = true ∧ k.running = true ∧ k.refereeing = false ∧ r.agree = false ∧ b.autoPartner k.a [k.a, k.b] = some v) ∧
    (∃ (s : State) (c : Nat) (r : CheckResult),
      let k := s.check c
      let b := (s.count F.INT_CHECKS_COUNT 0 0 1).setCheck c { k with running := false, forced := false }
      k.live = true ∧ k.running = true ∧ k.refereeing = false ∧ r.agree = false ∧ b.autoPartner k.a [k.a, k.b] = none) ∧
    (∃ (s : State) (c : Nat) (r : CheckResult),
      let k := s.check c
      k.live = true ∧ k.running = true ∧ k.refereeing = true ∧ r.refA = true ∧ r.refB = false) ∧
    (∃ (s : State) (c : Nat) (r : CheckResult),
      let k := s.check c
      k.live = true ∧ k.running = true ∧ k.refereeing = true ∧ r.refA = false ∧ r.refB = true) ∧
    (∃ (s : State) (c : Nat) (r : CheckResult),
      let k := s.check c
      k.live = true ∧ k.running = true ∧ k.refereeing = true ∧ r.refA = r.refB) ∧
    (∃ (s : State) (e : Nat),
      let n := s.f F.INT_OBS_CFG_PERIOD_S 0 0
      e < 256 ∧ s.fb F.INT_OBS_VALID e 0 = true ∧ (s.check (8 + e)).live = false ∧
      mget 0 s.integ.retests e + 1000000000 * (if 1 ≤ n ∧ n ≤ 600 then n else 600) ≤ s.time + 1) ∧
    (∃ (s : State) (c : Nat) (w : Word),
      c < 8 ∧ s.fb F.HUB_STATUS_READY 0 0 = true ∧ (F.INT_OBS_ADD_REASON.of w = 1 ∨ F.INT_OBS_ADD_REASON.of w = 2) ∧
      unitExists (F.INT_OBS_ADD_UNIT.of w) = true ∧ s.unitRetired (F.INT_OBS_ADD_UNIT.of w) = false) :=
  ⟨⟨live, 0, by decide +kernel⟩,
   ⟨withTime (place live [(F.INT_SCRUB_STATUS_RUNNING, 0, 0, 1)]) (10 ^ 18), 0, by decide +kernel⟩,
   ⟨live, 0, 4, F.INT_SCHECK_PARTNER.put 0 4, by decide +kernel⟩,
   ⟨live, 0, unitMallet 0 150 0, F.INT_SCHECK_PARTNER.put 0 0xFFFFFF, by decide +kernel⟩,
   ⟨withCheck {}, 0, segCheck, by decide +kernel⟩,
   ⟨withTime ({ live with integ := { checks := [(0, { live := true, a := unitCodec 0, b := unitCodec 1 })] } }) (6 * 10 ^ 11), 0, { live := true, a := unitCodec 0, b := unitCodec 1 }, by decide +kernel⟩,
   ⟨withTime (place (withCheck {}) [(F.INT_OBS_CFG_FORCE_S, 0, 0, 10)]) (10 ^ 10), 0, segCheck, by decide +kernel⟩,
   ⟨withCheck { running := true }, 0, {}, by decide +kernel⟩,
   ⟨withCheck { running := true }, 0, unitSeg 0 2, { agree := false }, by decide +kernel⟩,
   ⟨{ live with integ := { checks := [(0, { live := true, a := unitCodec 0, b := unitCodec 1, running := true })],
                           retired := [2, 3, 4, 5, 6, 7].map unitCodec } }, 0, { agree := false }, by decide +kernel⟩,
   ⟨withCheck { running := true, refereeing := true }, 0, { refA := true }, by decide +kernel⟩,
   ⟨withCheck { running := true, refereeing := true }, 0, { refB := true }, by decide +kernel⟩,
   ⟨withCheck { running := true, refereeing := true }, 0, {}, by decide +kernel⟩,
   ⟨withTime (place live [(F.INT_OBS_VALID, 0, 0, 1)]) (6 * 10 ^ 11), 0, by decide +kernel⟩,
   ⟨live, 0, F.INT_OBS_ADD_REASON.put 0 2, by decide +kernel⟩⟩

/-- The hypotheses of PairModeComplete, clause by clause. -/
theorem witness_PairModeComplete :
    (∃ (s : State) (c : Nat),
      c < 8 ∧ s.fb F.HUB_STATUS_READY 0 0 = true) ∧
    (∃ (s : State) (off j k : Nat),
      s.follows = true ∧ s.alive = true ∧ s.regOf off = some (.EVT_READ, j, k)) ∧
    (∃ (s : State) (m : CompareMsg),
      s.compares m.part = true ∧ m.part < 8 ∧ 1 ≤ m.kind ∧ m.kind ≤ 4) ∧
    (∃ (s : State) (m : CompareMsg),
      s.compares m.part = true ∧ m.part < 8 ∧ m.kind = 5) ∧
    (∃ (s : State) (p : Nat),
      let a := s.setPair (fun x => { x with diverged := ndel x.diverged p, ownBad := ndel x.ownBad p })
      p < 8 ∧ s.diagnosed p = true ∧ a.role = roleAlone) ∧
    (∃ (s : State) (p outcome : Nat),
      let a := s.setPair (fun x => { x with diverged := ndel x.diverged p, ownBad := ndel x.ownBad p })
      let lead := decide (a.role = roleLead)
      let leadBad := if lead then nmem s.pair.ownBad p else decide (outcome = 1)
      let shadowBad := if lead then decide (outcome = 1) else nmem s.pair.ownBad p
      let full := if lead then a.pair.partnerFull else decide (a.role = roleFull)
      p < 8 ∧ s.diagnosed p = true ∧ a.role ≠ roleAlone ∧ leadBad = true ∧ shadowBad = false ∧ full = true) ∧
    (∃ (s : State) (p outcome : Nat),
      let a := s.setPair (fun x => { x with diverged := ndel x.diverged p, ownBad := ndel x.ownBad p })
      let lead := decide (a.role = roleLead)
      let leadBad := if lead then nmem s.pair.ownBad p else decide (outcome = 1)
      let shadowBad := if lead then decide (outcome = 1) else nmem s.pair.ownBad p
      let full := if lead then a.pair.partnerFull else decide (a.role = roleFull)
      p < 8 ∧ s.diagnosed p = true ∧ a.role ≠ roleAlone ∧ leadBad = true ∧ (shadowBad = true ∨ full = false)) ∧
    (∃ (s : State) (p outcome : Nat),
      let a := s.setPair (fun x => { x with diverged := ndel x.diverged p, ownBad := ndel x.ownBad p })
      let lead := decide (a.role = roleLead)
      let leadBad := if lead then nmem s.pair.ownBad p else decide (outcome = 1)
      let shadowBad := if lead then decide (outcome = 1) else nmem s.pair.ownBad p
      let full := if lead then a.pair.partnerFull else decide (a.role = roleFull)
      p < 8 ∧ s.diagnosed p = true ∧ a.role ≠ roleAlone ∧ leadBad = false ∧ (shadowBad = true ∨ nmem a.pair.runs p = true)) ∧
    (∃ (s : State) (p outcome : Nat),
      let a := s.setPair (fun x => { x with diverged := ndel x.diverged p, ownBad := ndel x.ownBad p })
      let lead := decide (a.role = roleLead)
      let leadBad := if lead then nmem s.pair.ownBad p else decide (outcome = 1)
      let shadowBad := if lead then decide (outcome = 1) else nmem s.pair.ownBad p
      let full := if lead then a.pair.partnerFull else decide (a.role = roleFull)
      p < 8 ∧ s.diagnosed p = true ∧ a.role ≠ roleAlone ∧ leadBad = false ∧ shadowBad = false ∧ nmem a.pair.runs p = false) ∧
    (∃ (s : State),
      s.paired = true) ∧
    (∃ (s : State) (link : Nat),
      s.paired = true ∧ s.role ≠ roleAlone ∧ (link = 16 ∨ link = 17) ∧ s.linkUp link = true) ∧
    (∃ (s : State),
      s.paired = true ∧ s.fb F.HUB_PAIR_STATUS_PARTNER_UP 0 0 = true ∧ s.role ≠ roleAlone ∧ mget 0 s.pair.beats 16 + 10000 ≤ s.time + 1 ∧
      mget 0 s.pair.beats 17 + 10000 ≤ s.time + 1 ∧ s.role = roleLead) ∧
    (∃ (s : State),
      s.paired = true ∧ s.fb F.HUB_PAIR_STATUS_PARTNER_UP 0 0 = true ∧ s.role ≠ roleAlone ∧ mget 0 s.pair.beats 16 + 10000 ≤ s.time + 1 ∧
      mget 0 s.pair.beats 17 + 10000 ≤ s.time + 1 ∧ s.role = roleFull) ∧
    (∃ (s : State),
      s.paired = true ∧ s.fb F.HUB_PAIR_STATUS_PARTNER_UP 0 0 = true ∧ s.role ≠ roleAlone ∧ mget 0 s.pair.beats 16 + 10000 ≤ s.time + 1 ∧
      mget 0 s.pair.beats 17 + 10000 ≤ s.time + 1 ∧ s.role ≠ roleLead ∧ s.role ≠ roleFull) ∧
    (∃ (s : State) (p left kits : Nat),
      let lead := decide (s.role = roleLead)
      let need := if lead then s.kitUnion else kits
      s.paired = true ∧ p < 8 ∧ s.role ≠ roleAlone ∧ bit (s.f F.HUB_PAIR_STATUS_RESYNC 0 0) p = true ∧
      need &&& (if lead then kits else bitField 8 (fun k => s.kitLive k)) = need ∧ 0x4000000 ≤ left) ∧
    (∃ (s : State) (p left kits : Nat),
      let lead := decide (s.role = roleLead)
      let need := if lead then s.kitUnion else kits
      s.paired = true ∧ p < 8 ∧ s.role ≠ roleAlone ∧ bit (s.f F.HUB_PAIR_STATUS_RESYNC 0 0) p = true ∧
      need &&& (if lead then kits else bitField 8 (fun k => s.kitLive k)) = need ∧ left < 0x4000000 ∧ lead = true ∧ s.stepState p ≠ stIdle) ∧
    (∃ (s : State) (p left kits : Nat),
      let lead := decide (s.role = roleLead)
      let need := if lead then s.kitUnion else kits
      s.paired = true ∧ p < 8 ∧ s.role ≠ roleAlone ∧ bit (s.f F.HUB_PAIR_STATUS_RESYNC 0 0) p = true ∧
      need &&& (if lead then kits else bitField 8 (fun k => s.kitLive k)) = need ∧ left < 0x4000000 ∧ (lead = false ∨ s.stepState p = stIdle)) :=
  ⟨⟨live, 0, by decide +kernel⟩,
   ⟨place (up []) [(F.HUB_PAIR_STATUS_ROLE, 0, 0, 3)], RegName.EVT_READ.off 0 0, 0, 0, by decide +kernel⟩,
   ⟨place live [(F.HUB_PAIR_STATUS_ROLE, 0, 0, 2), (F.HUB_PAIR_CFG_ENABLE, 0, 0, 1)], {}, by decide +kernel⟩,
   ⟨place live [(F.HUB_PAIR_STATUS_ROLE, 0, 0, 4), (F.HUB_PAIR_CFG_ENABLE, 0, 0, 1)], { kind := 5 }, by decide +kernel⟩,
   ⟨{ idle with pair := { diverged := [0] } }, 0, by decide +kernel⟩,
   ⟨{ paired roleLead [(F.PAR_STEP_STATUS_STATE, 0, 0, 0)] with pair := { diverged := [0], ownBad := [0], partnerFull := true } }, 0, 2, by decide +kernel⟩,
   ⟨{ paired roleLead [(F.PAR_STEP_STATUS_STATE, 0, 0, 0)] with pair := { diverged := [0], ownBad := [0] } }, 0, 2, by decide +kernel⟩,
   ⟨{ paired roleLead [(F.PAR_STEP_STATUS_STATE, 0, 0, 0)] with pair := { diverged := [0] } }, 0, 1, by decide +kernel⟩,
   ⟨{ paired roleLead [(F.PAR_STEP_STATUS_STATE, 0, 0, 0)] with pair := { diverged := [0] } }, 0, 0, by decide +kernel⟩,
   ⟨paired roleAlone [], by decide +kernel⟩,
   ⟨paired roleJoining [(F.FAB_PORT_STATUS_UP, 17, 0, 1)], 17, by decide +kernel⟩,
   ⟨withTime (paired roleLead [(F.HUB_PAIR_STATUS_PARTNER_UP, 0, 0, 1)]) 9999, by decide +kernel⟩,
   ⟨withTime (paired roleFull [(F.HUB_PAIR_STATUS_PARTNER_UP, 0, 0, 1)]) 9999, by decide +kernel⟩,
   ⟨withTime (paired roleJoining [(F.HUB_PAIR_STATUS_PARTNER_UP, 0, 0, 1)]) 9999, by decide +kernel⟩,
   ⟨paired roleJoining [(F.HUB_PAIR_STATUS_RESYNC, 0, 0, 1)], 0, 0x4000000, 1, by decide +kernel⟩,
   ⟨paired roleLead [(F.HUB_PAIR_STATUS_RESYNC, 0, 0, 1)], 0, 0x3FFFFFF, 255, by decide +kernel⟩,
   ⟨paired roleJoining [(F.HUB_PAIR_STATUS_RESYNC, 0, 0, 1)], 0, 0x3FFFFFF, 1, by decide +kernel⟩⟩

/-- The hypotheses of EventLogAndCoresComplete, clause by clause. -/
theorem witness_EventLogAndCoresComplete :
    (∃ (s : State) (src : Nat) (r : EvRec) (rest : List EvRec) (a : State),
      a = { s with ev := { s.ev with
        queues := mput [] s.ev.queues src rest, drops := ndel s.ev.drops src, last := src + 1, free := s.time + 10 * r.records } } ∧
      mget [] s.ev.queues src = r :: rest ∧ s.ev.running = true ∧ s.ev.next = some src ∧ s.ev.free ≤ s.time) ∧
    (∃ (s : State) (b v : Nat),
      let r := s.fromBanks s.spillPtr
      let a := r.1.writeAll evtUnit (r.1.spillAddr s.spillPtr) 64 { v := v, p := 0 }
      s.spilling = true ∧ s.banksLost = false ∧ s.spillPtr < s.evtHead ∧
      s.asleep (s.spillAddr s.spillPtr) = false ∧ (s.fromBanks s.spillPtr).2 = some (b, v) ∧
      a.spillSlots ≥ s.spillPtr) ∧
    (∃ (s : State) (b v : Nat),
      (s.fromBanks (s.rg .EVT_READ 0 0).toNat).2 = some (b, v)) ∧
    (∃ (s : State) (bank cause : Nat),
      bank < 2 ∧ (cause = 3 ∨ (cause = 2 ∧ 16 ≤ (if bank = 0 then s.ev.bad0 else s.ev.bad1).length))) ∧
    (∃ (s : State) (i c : Nat) (w : Word),
      c < 8 ∧ s.canWrite i = true ∧ F.HUB_CC_WATCHDOG_KICK.of w = 1) ∧
    (∃ (s : State) (c : Nat),
      s.coreRuns c = true ∧ s.fb F.HUB_CC_WATCHDOG_ENABLE c 0 = true ∧ mget 0 s.boot.kicks c - 1 + s.watchdogNs c ≤ s.time) ∧
    (∃ (s : State) (i : Nat),
      s.canWrite i = true) ∧
    (∃ (s : State) (c : Nat),
      nmem s.boot.restarting c = true) :=
  ⟨⟨{ live with ev := { queues := [(0, [{}])], running := true } }, 0, {}, [], _, rfl, by decide +kernel⟩,
   ⟨putWords ((place live [(F.EVT_STATUS_SPILL_ACTIVE, 0, 0, 1), (F.EVT_SPILL_CFG_SIZE, 0, 0, 1)]).setRg .EVT_HEAD 0 0 2) (bankAddr 0 1) [1], 0, 1, by decide +kernel⟩,
   ⟨putWords live (bankAddr 0 1) [1], 0, 1, by decide +kernel⟩,
   ⟨live, 1, 3, by decide +kernel⟩,
   ⟨live, 0, 0, F.HUB_CC_WATCHDOG_KICK.put 0 1, by decide +kernel⟩,
   ⟨withTime (up [(F.HUB_CC_WATCHDOG_ENABLE, 0, 0, 1)]) (10 ^ 12), 0, by decide +kernel⟩,
   ⟨live, 0, by decide +kernel⟩,
   ⟨{ live with boot := { restarting := [0] } }, 0, by decide +kernel⟩⟩

/-- The hypotheses of ResetPowerAndPortComplete, clause by clause. -/
theorem witness_ResetPowerAndPortComplete :
    (∃ (s : State) (i : Nat) (w : Word),
      s.resetWord i w 2 = true) ∧
    (∃ (s : State) (i : Nat) (w : Word),
      s.resetWord i w 1 = true) ∧
    (∃ (s : State),
      s.power.gone = false) ∧
    (∃ (s : State),
      s.power.gone = false ∧ s.boot.resetHeld = false) ∧
    (∃ (s a : State),
      a = { s with boot := { s.boot with refclkLost := true } } ∧ s.power.gone = false ∧ s.boot.resetHeld = false ∧
      s.boot.refclkLost = false) ∧
    (∃ (s a : State),
      a = { s with power := { s.power with tripped := true, thermTripLow := true }, boot := { s.boot with coresRun := 0 } } ∧
      s.power.gone = false) ∧
    (∃ (s a : State),
      a = { s with boot := { s.boot with tempoWindow := s.time / 1000000 } } ∧ s.power.gone = false ∧ s.boot.resetHeld = false ∧
      s.boot.tempoWindow < s.time / 1000000 ∧ a.tempoRuns = true) ∧
    (∃ (s a : State),
      a = { s with boot := { s.boot with tempoWindow := s.time / 1000000 } } ∧ s.power.gone = false ∧ s.boot.resetHeld = false ∧
      s.boot.tempoWindow < s.time / 1000000 ∧ a.tempoRuns = false) ∧
    (∃ (s : State) (node : BitVec 16) (n : Bool) (a : State),
      a = { s with boot := { s.boot with resetHeld := false, warmHeld := false, releasedAt := s.time, nodeStrap := node, defaultN := n } } ∧
      s.power.gone = false ∧ s.boot.resetHeld = true) ∧
    (∃ (s a : State),
      a = { s with boot := { s.boot with warmHeld := false, releasedAt := s.time } } ∧ s.power.gone = false ∧ s.boot.resetHeld = false ∧
      s.boot.warmHeld = true) ∧
    (∃ (s : State),
      s.power.gone = false ∧ s.boot.resetHeld = false) ∧
    (∃ (s : State),
      s.boot.refclkLost = true) ∧
    (∃ (s : State),
      s.host.trained = true) :=
  ⟨⟨up [], 9, F.HUB_RESET_KEY.put (F.HUB_RESET_KIND.put 0 2) 0xD7C2, by decide +kernel⟩,
   ⟨up [], 9, F.HUB_RESET_KEY.put (F.HUB_RESET_KIND.put 0 1) 0xD7C2, by decide +kernel⟩,
   ⟨live, by decide +kernel⟩,
   ⟨up [], by decide +kernel⟩,
   ⟨up [], _, rfl, by decide +kernel⟩,
   ⟨live, _, rfl, by decide +kernel⟩,
   ⟨withTime (up []) 1000000, _, rfl, by decide +kernel⟩,
   ⟨withTime { live with boot := { resetHeld := false } } 1000000, _, rfl, by decide +kernel⟩,
   ⟨live, 0, false, _, rfl, by decide +kernel⟩,
   ⟨{ live with boot := { resetHeld := false, warmHeld := true } }, _, rfl, by decide +kernel⟩,
   ⟨up [], by decide +kernel⟩,
   ⟨{ live with boot := { refclkLost := true } }, by decide +kernel⟩,
   ⟨{ live with host := { trained := true } }, by decide +kernel⟩⟩

/-- The hypotheses of ConfigurationEpochsComplete, clause by clause. -/
theorem witness_ConfigurationEpochsComplete :
    (∃ (s : State) (i : Nat) (w : Word) (b : State),
      let a := s.forward i .HUB_CFG_CMD 0 0 w
      b = { a with staged := a.epochNow } ∧ s.canWrite i = true ∧ s.follows = false ∧ rsvSet (RegName.fields .HUB_CFG_CMD) w = false ∧
      (s.cfgPhase = cfgIdle ∨ s.f F.HUB_CFG_STATUS_OWNER 0 0 = i) ∧ F.HUB_CFG_CMD_OP.of w = 1 ∧ a.cfgPhase = cfgIdle) ∧
    (∃ (s : State) (i : Nat) (w : Word),
      let a := s.forward i .HUB_CFG_CMD 0 0 w
      s.canWrite i = true ∧ s.follows = false ∧ rsvSet (RegName.fields .HUB_CFG_CMD) w = false ∧
      (s.cfgPhase = cfgIdle ∨ s.f F.HUB_CFG_STATUS_OWNER 0 0 = i) ∧ F.HUB_CFG_CMD_OP.of w = 2 ∧ a.cfgStaging = true ∧
      a.validateStaged.2 = true) ∧
    (∃ (s : State) (i : Nat) (w : Word),
      let a := s.forward i .HUB_CFG_CMD 0 0 w
      s.canWrite i = true ∧ s.follows = false ∧ rsvSet (RegName.fields .HUB_CFG_CMD) w = false ∧
      (s.cfgPhase = cfgIdle ∨ s.f F.HUB_CFG_STATUS_OWNER 0 0 = i) ∧ F.HUB_CFG_CMD_OP.of w = 3 ∧ a.cfgStaging = true ∧
      a.cfgPhase = cfgValidated) ∧
    (∃ (s : State) (i : Nat) (w : Word),
      let a := s.forward i .HUB_CFG_CMD 0 0 w
      s.canWrite i = true ∧ s.follows = false ∧ rsvSet (RegName.fields .HUB_CFG_CMD) w = false ∧
      (s.cfgPhase = cfgIdle ∨ s.f F.HUB_CFG_STATUS_OWNER 0 0 = i) ∧ F.HUB_CFG_CMD_OP.of w = 4 ∧ a.cfgStaging = true) ∧
    (∃ (s : State) (i : Nat) (w : Word),
      let a := s.forward i .HUB_CFG_CMD 0 0 w
      s.canWrite i = true ∧ s.follows = false ∧ rsvSet (RegName.fields .HUB_CFG_CMD) w = false ∧
      (s.cfgPhase = cfgIdle ∨ s.f F.HUB_CFG_STATUS_OWNER 0 0 = i) ∧ F.HUB_CFG_CMD_OP.of w = 5 ∧ a.cfgPhase = cfgIdle ∧
      a.fb F.HUB_CFG_STATUS_PREV_VALID 0 0 = true ∧ (a.validateEpoch a.previous false).1 = cfgOk) ∧
    (∃ (s : State) (i : Nat) (w : Word),
      let a := s.forward i .HUB_CFG_CMD 0 0 w
      s.canWrite i = true ∧ s.follows = false ∧ rsvSet (RegName.fields .HUB_CFG_CMD) w = false ∧
      (s.cfgPhase = cfgIdle ∨ s.f F.HUB_CFG_STATUS_OWNER 0 0 = i) ∧ F.HUB_CFG_CMD_OP.of w = 6 ∧ a.cfgPhase = cfgHolding) ∧
    (∃ (s : State) (i off j k : Nat) (r : RegName) (w : Word) (b : State),
      let a := s.forward i r j k w
      b = { a with staged := storePut a.staged r j k (mixCfg r.fields (storeGet a.staged r j k) w) } ∧ regAt off = some (r, j, k) ∧
      r.info.epoch = true ∧ s.canWrite i = true ∧ s.cfgStaging = true ∧ s.f F.HUB_CFG_STATUS_OWNER 0 0 = i ∧ s.follows = false) ∧
    (∃ (s : State),
      s.cfgPhase = cfgPersisting) ∧
    (∃ (s : State),
      s.cfgPhase = cfgHolding ∧ s.allHeld = true ∧ (s.under (takeEpoch s.regs s.cfg.target)).badQuotas = []) ∧
    (∃ (s : State),
      s.cfgPhase = cfgHolding ∧ s.cfg.limitAt ≤ s.time) ∧
    (∃ (s d : State),
      let n := s.otherSlot
      let a := (s.setSlot n { num := s.cfg.targetNum, regs := s.epochNow, ok := true }).cfgJournal 3 n s.cfg.targetNum s.epochNow
      let b := (a.setF F.HUB_CFG_PREVIOUS_NUMBER 0 0 (a.f F.HUB_CFG_STATUS_CURRENT 0 0)).setF F.HUB_CFG_STATUS_PREV_VALID 0 0 1
      let c := (b.setF F.HUB_CFG_STATUS_CURRENT 0 0 s.cfg.targetNum).setCfg (fun c => { c with curSlot := n })
      d = { c with previous := epochOf c.cfg.old } ∧ s.cfgPhase = cfgSwitching ∧ s.switchDrained = true ∧ s.cfg.isRollback = false ∧
      s.cfg.persist = false) ∧
    (∃ (s : State),
      s.cfg.norOwed.isEmpty = false) :=
  ⟨⟨place live [(F.HUB_CFG_STATUS_PHASE, 0, 0, 0)], 0, F.HUB_CFG_CMD_OP.put 0 1, _, rfl, by decide +kernel⟩,
   ⟨place live [(F.HUB_CFG_STATUS_PHASE, 0, 0, 1)], 0, F.HUB_CFG_CMD_OP.put 0 2, by decide +kernel⟩,
   ⟨place live [(F.HUB_CFG_STATUS_PHASE, 0, 0, 2)], 0, F.HUB_CFG_CMD_OP.put 0 3, by decide +kernel⟩,
   ⟨place live [(F.HUB_CFG_STATUS_PHASE, 0, 0, 1)], 0, F.HUB_CFG_CMD_OP.put 0 4, by decide +kernel⟩,
   ⟨place live [(F.HUB_CFG_STATUS_PHASE, 0, 0, 0), (F.HUB_CFG_STATUS_PREV_VALID, 0, 0, 1)], 0, F.HUB_CFG_CMD_OP.put 0 5, by decide +kernel⟩,
   ⟨place live [(F.HUB_CFG_STATUS_PHASE, 0, 0, 4)], 0, F.HUB_CFG_CMD_OP.put 0 6, by decide +kernel⟩,
   ⟨place live [(F.HUB_CFG_STATUS_PHASE, 0, 0, 1)], 0, RegName.PAR_CONFIG.off 0 0, 0, 0, .PAR_CONFIG, 0, _, rfl, by decide +kernel⟩,
   ⟨place live [(F.HUB_CFG_STATUS_PHASE, 0, 0, 3)], by decide +kernel⟩,
   ⟨place live [(F.HUB_CFG_STATUS_PHASE, 0, 0, 4)], by decide +kernel⟩,
   ⟨place live [(F.HUB_CFG_STATUS_PHASE, 0, 0, 4)], by decide +kernel⟩,
   ⟨place live [(F.HUB_CFG_STATUS_PHASE, 0, 0, 5)], _, rfl, by decide +kernel⟩,
   ⟨{ live with cfg := { norOwed := [{}] } }, by decide +kernel⟩⟩

/-- The hypotheses of BootStagesComplete, clause by clause. -/
theorem witness_BootStagesComplete :
    (∃ (s : State) (r : RomReport),
      s.stage = 1 ∧ r.selfOk = false) ∧
    (∃ (s : State) (r : RomReport),
      s.stage = 1 ∧ r.selfOk = true ∧ r.refclk = true ∧ r.norOk = true ∧ norLeast ≤ s.boot.norSize ∧ s.isWarm = true) ∧
    (∃ (s : State),
      s.stage = 3 ∧ s.isWarm = true) ∧
    (∃ (s : State) (r : FillReport),
      s.stage = 3 ∧ s.isWarm = false ∧ r.other = false ∧ r.bank0 = false ∧ r.bank1 = false) ∧
    (∃ (s : State) (failed : List Nat),
      let a := failed.foldl (fun s k => s.retireKit k) s
      s.stage = 4 ∧ (List.range 8).any (fun k => a.kitLive k && !(a.activeDrums k).isEmpty) = true) ∧
    (∃ (s : State),
      s.stage = 5) ∧
    (∃ (s : State),
      s.stage = 6) ∧
    (∃ (s : State),
      s.stage = 7) :=
  ⟨⟨place live [(F.HUB_BOOT_STAGE, 0, 0, 1)], { selfOk := false }, by decide +kernel⟩,
   ⟨place live [(F.HUB_BOOT_STAGE, 0, 0, 1), (F.HUB_BOOT_WARM, 0, 0, 1)], {}, by decide +kernel⟩,
   ⟨place live [(F.HUB_BOOT_STAGE, 0, 0, 3), (F.HUB_BOOT_WARM, 0, 0, 1)], by decide +kernel⟩,
   ⟨place live [(F.HUB_BOOT_STAGE, 0, 0, 3)], {}, by decide +kernel⟩,
   ⟨place live [(F.HUB_BOOT_STAGE, 0, 0, 4)], [], by decide +kernel⟩,
   ⟨place live [(F.HUB_BOOT_STAGE, 0, 0, 5)], by decide +kernel⟩,
   ⟨place live [(F.HUB_BOOT_STAGE, 0, 0, 6)], by decide +kernel⟩,
   ⟨place live [(F.HUB_BOOT_STAGE, 0, 0, 7)], by decide +kernel⟩⟩

/-- The hypotheses of HostQueuesComplete, clause by clause. -/
theorem witness_HostQueuesComplete :
    (∃ (s : State) (i q : Nat) (w : Word),
      let old := s.rg .HUB_HQ_CFG q 0
      let new := writeFields (RegName.fields .HUB_HQ_CFG) old w
      s.canQueue i q = true ∧ F.HUB_HQ_CFG_ENABLE.of old = 0 ∧ F.HUB_HQ_CFG_ENABLE.of new = 0) ∧
    (∃ (s : State) (i q : Nat) (w : Word),
      let old := s.rg .HUB_HQ_CFG q 0
      let new := writeFields (RegName.fields .HUB_HQ_CFG) old w
      s.canQueue i q = true ∧ F.HUB_HQ_CFG_ENABLE.of old = 0 ∧ F.HUB_HQ_CFG_ENABLE.of new ≠ 0) ∧
    (∃ (s : State) (i q : Nat) (w : Word),
      let n := diff16 (F.HUB_HQ_SQ_TAIL_TAIL.of w) (s.f F.HUB_HQ_STATUS_SQ_HEAD q 0)
      s.canQueue i q = true ∧ s.hqOn q = true ∧ n ≤ 2 ^ s.f F.HUB_HQ_CFG_SQ_LOG2 q 0) ∧
    (∃ (s : State) (i q : Nat) (w : Word),
      s.canQueue i q = true ∧ s.hqOn q = true ∧
      diff16 (F.HUB_HQ_CQ_HEAD_HEAD.of w) (s.f F.HUB_HQ_CQ_HEAD_HEAD q 0) ≤ diff16 (s.f F.HUB_HQ_STATUS_CQ_TAIL q 0) (s.f F.HUB_HQ_CQ_HEAD_HEAD q 0)) ∧
    (∃ (s : State) (q : Nat) (c : HostCmd) (d : HostData),
      let a := s.hostPop q
      let r : ReqRec := { v := hostVal d 128, p := 0, part := a.f F.HUB_HQ_CFG_PARTITION q 0, src := .host q a.host.nextNum }
      s.hostFront q c.opc = some c ∧ c.bad = false ∧ s.follows = false ∧ d.dmaError = false ∧ c.opc = 1 ∧ c.drop = false ∧ c.arg0 = 0 ∧
      c.arg1 = 0 ∧ hostMask d 128 = 0 ∧ (r.op = 1 ∨ r.op = 2 ∨ r.op = 5) ∧ r.w 3 = 0 ∧ a.follows = false ∧
      a.fb F.HUB_STATUS_READY 0 0 = true) ∧
    (∃ (s : State) (q : Nat) (c : HostCmd) (d : HostData),
      let n := c.arg1
      s.hostFront q c.opc = some c ∧ c.bad = false ∧ s.follows = false ∧ d.dmaError = false ∧ c.opc = 2 ∧ 64 ≤ n ∧ n ≤ 0x4000000 ∧
      n % 64 = 0 ∧ c.data % 64 = 0 ∧ c.arg0 % 64 = 0 ∧ s.fb F.HUB_STATUS_READY 0 0 = true ∧ s.reserves c.arg0 n = false ∧
      s.asleep (s.canon c.arg0) = false ∧ c.dir = 0) ∧
    (∃ (s : State) (q : Nat) (c : HostCmd) (d : HostData) (t : State),
      let n := c.arg1
      let g := s.flashGate (hqKey q) 4097 c.arg0 n
      let r := (g.1.hostPop q).readMem noUnit c.arg0 n
      t = { r.1 with out := { r.1.out with host := r.1.out.host ++ hostWrites c.data r.2 n } } ∧ s.hostFront q c.opc = some c ∧
      c.bad = false ∧ s.follows = false ∧ d.dmaError = false ∧ c.opc = 2 ∧ 64 ≤ n ∧ n ≤ 0x4000000 ∧ n % 64 = 0 ∧ c.data % 64 = 0 ∧
      c.arg0 % 64 = 0 ∧ s.fb F.HUB_STATUS_READY 0 0 = true ∧ s.reserves c.arg0 n = false ∧ s.asleep (s.canon c.arg0) = false ∧ c.dir ≠ 0 ∧
      g.2 = true) ∧
    (∃ (s : State) (q : Nat) (c : HostCmd) (d : HostData) (h : ProgHead) (m : Nat),
      let a := s.hostPop q
      let n := c.arg1
      let t := a.norWrite (entryOff c.arg0) n (hostVal d n) true
      s.hostFront q c.opc = some c ∧ c.bad = false ∧ s.follows = false ∧ d.dmaError = false ∧ a.follows = false ∧
      a.fb F.HUB_STATUS_READY 0 0 = true ∧ a.host.norBusy = false ∧ hostMask d n = 0 ∧ d.norOk = true ∧ 512 ≤ n ∧ c.opc = 3 ∧
      c.arg0 < 256 ∧ n ≤ 0x80000 ∧ c.arg0 < a.storeEntries ∧ a.entryInUse c.arg0 = false ∧ t.program c.arg0 = some (h, m)) ∧
    (∃ (s : State) (q : Nat) (c : HostCompl),
      s.hqOn q = true ∧ nextCompl (mget [] s.host.waiting q) false = some c ∧
      diff16 (s.f F.HUB_HQ_STATUS_CQ_TAIL q 0) (s.f F.HUB_HQ_CQ_HEAD_HEAD q 0) ≠ 2 ^ s.f F.HUB_HQ_CFG_CQ_LOG2 q 0) :=
  ⟨⟨live, 0, 0, 0, by decide +kernel⟩,
   ⟨live, 0, 0, F.HUB_HQ_CFG_ENABLE.put 0 1, by decide +kernel⟩,
   ⟨withHost {}, 0, 0, 16, by decide +kernel⟩,
   ⟨withHost {}, 0, 0, 0, by decide +kernel⟩,
   ⟨withHost { opc := 1 }, 0, { opc := 1 }, { bytes := [0, 0, 0, 0, 0, 0, 0, 16] }, by decide +kernel⟩,
   ⟨withHost { opc := 2, arg0 := hubBase, arg1 := 64 }, 0, { opc := 2, arg0 := hubBase, arg1 := 64 }, {}, by decide +kernel⟩,
   ⟨withHost { opc := 2, dir := 1, arg0 := hubBase, arg1 := 64 }, 0, { opc := 2, dir := 1, arg0 := hubBase, arg1 := 64 }, {}, _, rfl, by decide +kernel⟩,
   ⟨withHost { opc := 3, arg1 := 512 }, 0, { opc := 3, arg1 := 512 }, hdrData progHdr, { len := 0, entry := 0, digest := emptySha }, 0, by decide +kernel⟩,
   ⟨{ withHost {} with host := { waiting := [(0, [{}])] } }, 0, {}, by decide +kernel⟩⟩

/-- The hypotheses of AttentionAndManagementComplete, clause by clause. -/
theorem witness_AttentionAndManagementComplete :
    (∃ (s : State) (i : Nat) (w : Word),
      s.alive = true ∧ i ≤ 8 ∧ F.HUB_ATTN_CFG_RAISE.of w = 1) ∧
    (∃ (s t : State),
      t = { s with mgmt := { s.mgmt with inPulse := true, pulseStart := s.time, pulseDue := false } } ∧
      s.fb F.HUB_STATUS_ATTN 0 0 = true ∧ s.mgmt.rbLow = false ∧ s.mgmt.inPulse = false ∧ s.pulseSpaced = true ∧ s.mgmt.pulseDue = true) ∧
    (∃ (s t : State),
      t = { s with mgmt := { s.mgmt with inPulse := true, pulseStart := s.time, pulseDue := false } } ∧
      s.fb F.HUB_STATUS_ATTN 0 0 = true ∧ s.mgmt.rbLow = false ∧ s.mgmt.inPulse = false ∧ s.pulseSpaced = true ∧ s.mgmt.pulseDue = false ∧
      s.f F.HUB_ATTN_CFG_RENOTIFY_MS 0 0 ≠ 0 ∧ s.mgmt.pulseStart + 1000000 * s.f F.HUB_ATTN_CFG_RENOTIFY_MS 0 0 ≤ s.time) ∧
    (∃ (s t : State),
      t = { s with mgmt := { s.mgmt with inPulse := false, released := s.time + 1 } } ∧ s.mgmt.inPulse = true ∧
      2000 + s.mgmt.pulseStart ≤ s.time) ∧
    (∃ (s : State) (m : MgmtXfer) (r : RegName) (j k : Nat),
      s.mgmtUp = true ∧ m.write = false ∧ m.smbus = s.mgmt.dynAddr.isNone ∧ m.pecOk = true ∧ s.regOf m.off = some (r, j, k) ∧
      mgmtReads r = true) ∧
    (∃ (s : State) (a : Nat) (t : State),
      t = { s with mgmt := { s.mgmt with dynAddr := some a } } ∧ s.mgmtUp = true ∧ a < 128 ∧ s.mgmt.dynAddr = none) ∧
    (∃ (s t : State),
      t = { s with mgmt := { s.mgmt with dynAddr := none } } ∧ s.mgmtUp = true) ∧
    (∃ (s : State),
      s.mgmtUp = true ∧ s.mgmt.dynAddr.isSome = true) ∧
    (∃ (s : State),
      s.mgmtUp = true) ∧
    (∃ (s t : State),
      t = { s with mgmt := { s.mgmt with spdmVersion := 0, spdmCaps := false, spdmAlgs := false } } ∧ s.mgmtUp = true) ∧
    (∃ (s : State) (r : SpdmReq) (u : State),
      u = { s with mgmt := { s.mgmt with spdmVersion := r.version, spdmCaps := true } } ∧ s.mgmtUp = true ∧
      (r.version = 0x12 ∨ r.version = 0x13)) ∧
    (∃ (s : State) (r : SpdmReq) (v : State),
      v = { s with mgmt := { s.mgmt with spdmAlgs := true } } ∧ s.mgmtUp = true ∧ s.mgmt.spdmCaps = true ∧ r.version = s.mgmt.spdmVersion) ∧
    (∃ (s : State) (r : SpdmReq),
      s.mgmtUp = true ∧ s.mgmt.spdmAlgs = true ∧ r.version = s.mgmt.spdmVersion) ∧
    (∃ (s : State) (r : SpdmReq),
      s.mgmtUp = true ∧ s.mgmt.spdmAlgs = true ∧ r.version = s.mgmt.spdmVersion ∧ r.param1 = 0) ∧
    (∃ (s : State) (r : SpdmReq),
      s.mgmtUp = true ∧ s.mgmt.spdmAlgs = true ∧ r.version = s.mgmt.spdmVersion ∧ r.param1 % 2 = 0 ∧ r.param2 = 0) ∧
    (∃ (s : State) (r : SpdmReq),
      s.mgmtUp = true ∧ s.mgmt.spdmAlgs = true ∧ r.version = s.mgmt.spdmVersion ∧ r.param1 % 2 = 0 ∧ 1 ≤ r.param2 ∧ r.param2 ≤ 12) :=
  ⟨⟨up [], 8, F.HUB_ATTN_CFG_RAISE.put 0 1, by decide +kernel⟩,
   ⟨withMgmt [(F.HUB_STATUS_ATTN, 0, 0, 1)] { rbLow := false, pulseDue := true }, _, rfl, by decide +kernel⟩,
   ⟨withTime (withMgmt [(F.HUB_STATUS_ATTN, 0, 0, 1), (F.HUB_ATTN_CFG_RENOTIFY_MS, 0, 0, 1)] { rbLow := false }) 1000000, _, rfl, by decide +kernel⟩,
   ⟨withTime (withMgmt [] { inPulse := true }) 2000, _, rfl, by decide +kernel⟩,
   ⟨up [], { off := RegName.HUB_STATUS.off 0 0, smbus := true }, .HUB_STATUS, 0, 0, by decide +kernel⟩,
   ⟨up [], 127, _, rfl, by decide +kernel⟩,
   ⟨up [], _, rfl, by decide +kernel⟩,
   ⟨withMgmt [] { dynAddr := some 1 }, by decide +kernel⟩,
   ⟨up [], by decide +kernel⟩,
   ⟨up [], _, rfl, by decide +kernel⟩,
   ⟨up [], {}, _, rfl, by decide +kernel⟩,
   ⟨withMgmt [] { spdmVersion := 0x13, spdmCaps := true, spdmAlgs := true }, {}, _, rfl, by decide +kernel⟩,
   ⟨withMgmt [] { spdmVersion := 0x13, spdmCaps := true, spdmAlgs := true }, {}, by decide +kernel⟩,
   ⟨withMgmt [] { spdmVersion := 0x13, spdmCaps := true, spdmAlgs := true }, {}, by decide +kernel⟩,
   ⟨withMgmt [] { spdmVersion := 0x13, spdmCaps := true, spdmAlgs := true }, {}, by decide +kernel⟩,
   ⟨withMgmt [] { spdmVersion := 0x13, spdmCaps := true, spdmAlgs := true }, { param2 := 12 }, by decide +kernel⟩⟩

/-- The hypotheses of RegisterAccessComplete, clause by clause. -/
theorem witness_RegisterAccessComplete :
    (∃ (s : State) (i off j k : Nat) (r : RegName),
      let q := (s.readPrep i r j).wordOf i r j k
      s.regOf off = some (r, j, k) ∧ s.answers i r j = true ∧ q.2.2 = false) ∧
    (∃ (s : State) (i off j k : Nat) (r : RegName) (b : State),
      let q := (s.readPrep i r j).wordOf i r j k
      let a := q.1.setRg r j k (clearRc r.fields (q.1.rg r j k))
      b = { a with latchHi := mput 0 a.latchHi (r.off j k) (q.2.1 / 2 ^ 32 + 1) } ∧ s.regOf off = some (r, j, k) ∧
      s.answers i r j = true ∧ q.2.2 = false ∧ isCounter r = true ∧ off % 8 = 0) ∧
    (∃ (s : State) (i off j k : Nat) (r : RegName) (v : Nat) (b : State),
      b = { s with latchHi := mput 0 s.latchHi (r.off j k) 0 } ∧ s.regOf off = some (r, j, k) ∧ s.answers i r j = true ∧ off % 8 = 0 ∧
      mget 0 s.latchHi (r.off j k) = v + 1) ∧
    (∃ (s : State) (i off j k : Nat),
      i ≤ 8 ∧ s.alive = true ∧ s.regOf off = some (.HUB_STATUS, j, k)) ∧
    (∃ (s : State) (i off j k : Nat),
      i ≤ 8 ∧ s.alive = true ∧ s.regOf off = some (.EVT_READ, j, k)) ∧
    (∃ (s : State) (i off j k : Nat),
      i ≤ 8 ∧ s.alive = true ∧ s.regOf off = some (.PWR_CAP, j, k)) ∧
    (∃ (s : State) (i off j k : Nat),
      i ≤ 8 ∧ s.alive = true ∧ s.canWrite i = true ∧ s.regOf off = some (.INT_SCHECK_SEED, j, k)) ∧
    (∃ (s : State) (i off j k : Nat),
      i ≤ 8 ∧ s.alive = true ∧ s.canWrite i = true ∧ s.regOf off = some (.MEM_ACCT_LATCH, j, k)) ∧
    (∃ (s : State) (i off j k : Nat),
      i ≤ 8 ∧ s.alive = true ∧ s.canWrite i = true ∧ s.regOf off = some (.MEM_DISCARD, j, k)) ∧
    (∃ (s : State) (i off j k : Nat),
      i ≤ 8 ∧ s.alive = true ∧ s.canWrite i = true ∧ s.regOf off = some (.TRN_SUBMIT, j, k)) ∧
    (∃ (s : State) (i off j k : Nat),
      i ≤ 8 ∧ s.alive = true ∧ s.canWrite i = true ∧ s.regOf off = some (.TRN_ABORT, j, k)) ∧
    (∃ (s : State) (i off j k : Nat),
      i ≤ 8 ∧ s.alive = true ∧ s.canWrite i = true ∧ s.regOf off = some (.INT_SCHECK, j, k)) ∧
    (∃ (s : State) (i off j k : Nat),
      i ≤ 8 ∧ s.alive = true ∧ s.canWrite i = true ∧ s.regOf off = some (.INT_OBS_ADD, j, k)) ∧
    (∃ (s : State) (i off j k : Nat),
      i ≤ 8 ∧ s.alive = true ∧ s.canWrite i = true ∧ s.regOf off = some (.PAR_REPLAY, j, k)) ∧
    (∃ (s : State) (a : HostAccess),
      let addr := 2 ^ 32 * s.f F.HUB_HOST_WINDOW_BASE 0 0 + a.off
      let g := s.flashGate hostKey 4097 addr a.size
      let r := g.1.readMem noUnit addr a.size
      1 ≤ a.size ∧ a.off + a.size ≤ 2 ^ 32 ∧ s.fb F.HUB_STATUS_READY 0 0 = true ∧ s.fb F.HUB_HOST_WINDOW_ENABLE 0 0 = true ∧
      s.reserves addr a.size = false ∧ s.asleep (s.canon addr) = false ∧ a.write = true) ∧
    (∃ (s : State) (a : HostAccess),
      let addr := 2 ^ 32 * s.f F.HUB_HOST_WINDOW_BASE 0 0 + a.off
      let g := s.flashGate hostKey 4097 addr a.size
      let r := g.1.readMem noUnit addr a.size
      1 ≤ a.size ∧ a.off + a.size ≤ 2 ^ 32 ∧ s.fb F.HUB_STATUS_READY 0 0 = true ∧ s.fb F.HUB_HOST_WINDOW_ENABLE 0 0 = true ∧
      s.reserves addr a.size = false ∧ s.asleep (s.canon addr) = false ∧ a.write = false ∧ g.2 = true ∧ r.2.p = 0) ∧
    (∃ (s : State) (a : HostAccess),
      let addr := 2 ^ 32 * s.f F.HUB_HOST_WINDOW_BASE 0 0 + a.off
      let g := s.flashGate hostKey 4097 addr a.size
      let r := g.1.readMem noUnit addr a.size
      1 ≤ a.size ∧ a.off + a.size ≤ 2 ^ 32 ∧ s.fb F.HUB_STATUS_READY 0 0 = true ∧ s.fb F.HUB_HOST_WINDOW_ENABLE 0 0 = true ∧
      s.reserves addr a.size = false ∧ s.asleep (s.canon addr) = false ∧ a.write = false ∧ g.2 = true ∧ r.2.p ≠ 0) ∧
    (∃ (s : State) (x : CoreAccess),
      let g := s.flashGate (2 ^ 59 + 1 + x.core) 4097 x.addr x.size
      let r := g.1.readMem noUnit x.addr x.size
      s.coreRuns x.core = true ∧ 1 ≤ x.size ∧ ¬ (coreControl ≤ x.addr ∧ x.addr < 2 * coreControl) ∧ s.reserves x.addr x.size = false ∧
      s.asleep (s.canon x.addr) = false ∧ x.op = .store) ∧
    (∃ (s : State) (x : CoreAccess),
      let g := s.flashGate (2 ^ 59 + 1 + x.core) 4097 x.addr x.size
      let r := g.1.readMem noUnit x.addr x.size
      s.coreRuns x.core = true ∧ 1 ≤ x.size ∧ ¬ (coreControl ≤ x.addr ∧ x.addr < 2 * coreControl) ∧ s.reserves x.addr x.size = false ∧
      s.asleep (s.canon x.addr) = false ∧ x.op = .load ∧ g.2 = true ∧ r.2.p = 0) ∧
    (∃ (s : State) (x : CoreAccess),
      let g := s.flashGate (2 ^ 59 + 1 + x.core) 4097 x.addr x.size
      let r := g.1.readMem noUnit x.addr x.size
      s.coreRuns x.core = true ∧ 1 ≤ x.size ∧ ¬ (coreControl ≤ x.addr ∧ x.addr < 2 * coreControl) ∧ s.reserves x.addr x.size = false ∧
      s.asleep (s.canon x.addr) = false ∧ x.op = .fetch ∧ g.2 = true ∧ r.2.p = 0) ∧
    (∃ (s : State) (x : CoreAccess),
      let g := s.flashGate (2 ^ 59 + 1 + x.core) 4097 x.addr x.size
      let r := g.1.readMem noUnit x.addr x.size
      s.coreRuns x.core = true ∧ 1 ≤ x.size ∧ ¬ (coreControl ≤ x.addr ∧ x.addr < 2 * coreControl) ∧ s.reserves x.addr x.size = false ∧
      s.asleep (s.canon x.addr) = false ∧ x.op = .amo ∧ g.2 = true ∧ r.2.p = 0) ∧
    (∃ (s : State) (x : CoreAccess),
      let g := s.flashGate (2 ^ 59 + 1 + x.core) 4097 x.addr x.size
      let r := g.1.readMem noUnit x.addr x.size
      s.coreRuns x.core = true ∧ 1 ≤ x.size ∧ ¬ (coreControl ≤ x.addr ∧ x.addr < 2 * coreControl) ∧ s.reserves x.addr x.size = false ∧
      s.asleep (s.canon x.addr) = false ∧ x.op ≠ .store ∧ g.2 = true ∧ r.2.p ≠ 0) :=
  ⟨⟨up [], 0, RegName.HUB_STATUS.off 0 0, 0, 0, .HUB_STATUS, by decide +kernel⟩,
   ⟨up [], 0, RegName.SRV_TOKENS_OUT.off 0 0, 0, 0, .SRV_TOKENS_OUT, _, rfl, by decide +kernel⟩,
   ⟨{ up [] with latchHi := [(RegName.SRV_TOKENS_OUT.off 0 0, 1)] }, 0, RegName.SRV_TOKENS_OUT.off 0 0, 0, 0, .SRV_TOKENS_OUT, 0, _, rfl, by decide +kernel⟩,
   ⟨up [], 0, RegName.HUB_STATUS.off 0 0, 0, 0, by decide +kernel⟩,
   ⟨up [], 0, RegName.EVT_READ.off 0 0, 0, 0, by decide +kernel⟩,
   ⟨up [], 0, RegName.PWR_CAP.off 0 0, 0, 0, by decide +kernel⟩,
   ⟨up [], 0, RegName.INT_SCHECK_SEED.off 0 0, 0, 0, by decide +kernel⟩,
   ⟨up [], 0, RegName.MEM_ACCT_LATCH.off 0 0, 0, 0, by decide +kernel⟩,
   ⟨up [], 0, RegName.MEM_DISCARD.off 0 0, 0, 0, by decide +kernel⟩,
   ⟨up [], 0, RegName.TRN_SUBMIT.off 0 0, 0, 0, by decide +kernel⟩,
   ⟨up [], 0, RegName.TRN_ABORT.off 0 0, 0, 0, by decide +kernel⟩,
   ⟨up [], 0, RegName.INT_SCHECK.off 0 0, 0, 0, by decide +kernel⟩,
   ⟨up [], 0, RegName.INT_OBS_ADD.off 0 0, 0, 0, by decide +kernel⟩,
   ⟨up [], 0, RegName.PAR_REPLAY.off 0 0, 0, 0, by decide +kernel⟩,
   ⟨up [(F.HUB_HOST_WINDOW_ENABLE, 0, 0, 1)], { write := true }, by decide +kernel⟩,
   ⟨up [(F.HUB_HOST_WINDOW_ENABLE, 0, 0, 1)], {}, by decide +kernel⟩,
   ⟨hubPoisoned (up [(F.HUB_HOST_WINDOW_ENABLE, 0, 0, 1), (F.HUB_HOST_WINDOW_BASE, 0, 0, hubBase / 2 ^ 32)]), { off := hubBase % 2 ^ 32 }, by decide +kernel⟩,
   ⟨up [], { core := 0, op := .store, addr := 0 }, by decide +kernel⟩,
   ⟨up [], { core := 0, op := .load, addr := 0 }, by decide +kernel⟩,
   ⟨up [], { core := 0, op := .fetch, addr := 0 }, by decide +kernel⟩,
   ⟨up [], { core := 0, op := .amo, addr := 0 }, by decide +kernel⟩,
   ⟨hubPoisoned (up []), { core := 0, op := .load, addr := hubBase }, by decide +kernel⟩⟩

/-- The hypotheses of ScalarStoresReachMemory, clause by clause. -/
theorem witness_ScalarStoresReachMemory :
    (∃ (s : State) (u : CtxId) (f : Fields) (pc : Piece),
      let t := s.fetched u
      let n := Fields.scalarSize f
      s.fetches u = true ∧ Fields.memLegal f 3 false = true ∧ f.D < 16 ∧ Memory.wf s.mem = true ∧
      noFault (t.memConds u f n n rWrite) = true ∧ t.storesNow u (t.memPieces u f n) (ones n) = true ∧ t.memPieces u f n = [(0, pc)] ∧
      pc.rem = false ∧ (t.region (t.canon pc.addr) = .skin ∨ t.region (t.canon pc.addr) = .scratch ∨ t.region (t.canon pc.addr) = .hub) ∧
      t.canon pc.addr % 4096 + n ≤ 4096) :=
  ⟨live, u0, {}, { addr := slotAddr 0 0 0x100000, len := 1 }, by decide +kernel⟩

/-- The hypotheses of SumsOfTermsAreExact, clause by clause. -/
theorem witness_SumsOfTermsAreExact :
    (∃ (ts : List Int),
      let sum := (ts.map term127).sum;
      -2 ^ 143 ≤ sum ∧ sum < 2 ^ 143) ∧
    (∃ (ts : List Int),
      ts.length ≤ 65536) :=
  ⟨⟨[2 ^ 127, -5], by decide +kernel⟩,
   ⟨[2 ^ 127, -5], by decide +kernel⟩⟩

/-- The hypotheses of CombiningAccumulators, clause by clause. -/
theorem witness_CombiningAccumulators :
    (∃ (s : State) (u : CtxId) (f : Fields),
      s.fetches u = true ∧ f.zeroBut false false true false true true false false false = true ∧ f.D < 8 ∧ f.A < 8 ∧
      (s.acc u f.D).isOpen = true ∧ (s.acc u f.A).isOpen = true ∧ (s.acc u f.D).anchor = (s.acc u f.A).anchor) ∧
    (∃ (s : State) (u : CtxId) (f : Fields),
      s.fetches u = true ∧ f.zeroBut false false true false true true false false false = true ∧ f.D < 8 ∧ f.A < 8 ∧
      (s.acc u f.D).isOpen = true ∧ (s.acc u f.A).isOpen = true ∧ (s.acc u f.D).anchor ≠ (s.acc u f.A).anchor) :=
  ⟨⟨live, u0, {}, by decide +kernel⟩,
   ⟨live.setAcc u0 0 (Acc.opened 5), u0, { ra := 1 }, by decide +kernel⟩⟩

/-- The hypotheses of ReanchoringIsExact, clause by clause. -/
theorem witness_ReanchoringIsExact :
    (∃ (s : State) (u : CtxId) (f : Fields),
      s.fetches u = true ∧ f.zeroBut false false false false true false false false true = true ∧ f.D < 8 ∧ f.immN < 2 ^ 10 ∧
      (s.acc u f.D).isOpen = true) :=
  ⟨live, u0, {}, by decide +kernel⟩

/-- The hypotheses of ScalarArithmeticWraps, clause by clause. -/
theorem witness_ScalarArithmeticWraps :
    (∃ (s : State) (u : CtxId) (f : Fields),
      s.fetches u = true ∧ Fields.scalarLegal f 1 = true) ∧
    (∃ (s : State) (u : CtxId) (f : Fields),
      s.fetches u = true ∧ 2 ≤ f.modN) ∧
    (∃ (s : State) (u : CtxId) (f : Fields),
      s.fetches u = true ∧ Fields.scalarLegal f 6 = true) :=
  ⟨⟨live, u0, {}, by decide +kernel⟩,
   ⟨live, u0, { mod := 2 }, by decide +kernel⟩,
   ⟨live, u0, {}, by decide +kernel⟩⟩

/-- Clause 3 of BootStagesComplete, for a header that the device's keys verify (the spec gives no key). -/
theorem witness_bootVerify :
    let s : State := { place live [(F.HUB_BOOT_STAGE, 0, 0, 2)] with boot := { tries := [0], nor := cellsWrite [] 0 512 bootHdr } }
    s.headOk bootSample = true →
    s.stage = 2 ∧
      s.boot.tries.find? (fun n => (s.bootSlot n).any (fun h => decide (sha384 (s.bootBody n h) h.len = h.digest))) = some 0 ∧
      s.boot.tries.head? = some 0 ∧ s.bootSlot 0 = some bootSample := by
  intro s hok
  have hs : s.bootSlot 0 = some bootSample := by
    have h1 : bootHead (cellsRead s.boot.nor (bootOff 0) 512) = some bootSample := by decide +kernel
    unfold State.bootSlot
    rw [h1]
    simp [Option.filter, hok]
  have hb : sha384 (s.bootBody 0 bootSample) bootSample.len = bootSample.digest := by decide +kernel
  refine ⟨by decide +kernel, ?_, rfl, hs⟩
  show List.find? _ [0] = _
  simp [hs, hb]

/-- Clause 9 of HostQueuesComplete, likewise. -/
theorem witness_bootWrite :
    let c : HostCmd := { opc := 4, arg1 := 512 }
    let s := withHost c
    let t := (s.hostPop 0).norWrite (bootOff 1) 512 (hostVal (hdrData bootHdr) 512) true
    t.headOk bootSample = true →
    (s.hostFront 0 c.opc = some c ∧ s.follows = false ∧ (s.hostPop 0).follows = false ∧ (s.hostPop 0).fb F.HUB_STATUS_READY 0 0 = true ∧
      (s.hostPop 0).host.norBusy = false ∧ hostMask (hdrData bootHdr) 512 = 0 ∧ 1 - (s.hostPop 0).f F.HUB_BOOT_SLOT 0 0 = 1) ∧
      t.bootImage 1 = some bootSample := by
  intro c s t hok
  have h1 : bootHead (cellsRead t.boot.nor (bootOff 1) 512) = some bootSample := by decide +kernel
  have hs : t.bootSlot 1 = some bootSample := by
    unfold State.bootSlot
    rw [h1]
    simp [Option.filter, hok]
  have hb : sha384 (t.bootBody 1 bootSample) bootSample.len = bootSample.digest := by decide +kernel
  refine ⟨by decide +kernel, ?_⟩
  unfold State.bootImage
  rw [hs]
  simp [Option.filter, hb]

/-- Clause 10 of HostQueuesComplete, likewise. -/
theorem witness_recover :
    let c : HostCmd := { opc := 5, arg1 := 512 }
    let s : State := { withHost c with regs := (place (withHost c) [(F.HUB_BOOT_STAGE, 0, 0, 9), (F.HUB_BOOT_FAIL, 0, 0, 4)]).regs }
    let a := s.hostPop 0
    let v := hostVal (hdrData bootHdr) 512
    a.headOk bootSample = true →
    (s.hostFront 0 c.opc = some c ∧ s.follows = false ∧ a.stage = stageFailed ∧ a.f F.HUB_BOOT_FAIL 0 0 = 4 ∧ a.follows = false ∧
      a.host.norBusy = false ∧ hostMask (hdrData bootHdr) 512 = 0) ∧ (bootHead (v % 2 ^ 4096)).filter a.headOk = some bootSample ∧
      sha384 (v / 2 ^ 4096 % 256 ^ bootSample.len) bootSample.len = bootSample.digest := by
  intro c s a v hok
  have h1 : bootHead (v % 2 ^ 4096) = some bootSample := by decide +kernel
  refine ⟨by decide +kernel, ?_, by decide +kernel⟩
  rw [h1]
  simp [Option.filter, hok]

/-- Clause 14 of AttentionAndManagementComplete, for a certificate chain that is not empty. -/
theorem witness_getCertificate (hc : 0 < Sys2Proof.Config.certificateBytes) :
    ∃ (s : State) (r : SpdmReq), (s.mgmtUp = true ∧ s.mgmt.spdmAlgs = true ∧ r.version = s.mgmt.spdmVersion ∧ r.param1 = 0) ∧
      r.offset < Sys2Proof.Config.certificateBytes :=
  ⟨withMgmt [] { spdmVersion := 0x13, spdmCaps := true, spdmAlgs := true }, {}, by decide +kernel, hc⟩

/-- The hypotheses of StepRunsTheFrontCommand, clause by clause. -/
theorem witness_StepRunsTheFrontCommand :
    (∃ (s : State) (c : Instr) (rest : List Instr), s.pending = c :: rest) ∧ (∃ s : State, s.pending = []) ∧
    (∃ s : State, s.pending = [] ∧ (s.power.gone = true ∨ s.boot.resetHeld = true)) ∧
    (∃ s : State, s.pending = [] ∧ s.power.gone = false ∧ s.boot.resetHeld = false ∧
      ∀ p < 8, s.stepState p ≠ stRunning ∧ s.stepState p ≠ stStopping ∧ (s.part p).pre.boundary = false) :=
  ⟨⟨{ live with pending := [.hostPortTrained] }, .hostPortTrained, [], rfl⟩, ⟨live, rfl⟩, ⟨live, by decide +kernel⟩,
   ⟨up [(F.PAR_STEP_STATUS_STATE, 0, 0, 0)], by decide +kernel⟩⟩

/-- The hypotheses of StepsKeepMemoryCanonical: a step that runs a command. -/
theorem witness_StepsKeepMemoryCanonical : ∃ s t : State, Memory.wf s.mem = true ∧ step s = .next t :=
  ⟨{ up [] with pending := [.hostPortTrained] }, _, by decide +kernel, rfl⟩

/-- The hypotheses of RegisterFieldsFollowAccessCodes, one field for each access code, and a bit of no field. -/
theorem witness_RegisterFieldsFollowAccessCodes :
    (∃ r : RegName, ∃ f ∈ r.fields, f.acc = .rw) ∧ (∃ r : RegName, ∃ f ∈ r.fields, f.acc = .w1c) ∧
    (∃ r : RegName, ∃ f ∈ r.fields, f.acc = .w1s) ∧ (∃ r : RegName, ∃ f ∈ r.fields, f.acc = .ro ∨ f.acc = .rc) ∧
    (∃ r : RegName, ∃ f ∈ r.fields, f.acc ≠ .wo ∧ f.acc ≠ .rc) ∧ (∃ r : RegName, ∃ f ∈ r.fields, f.acc = .wo) ∧
    (∃ r : RegName, ∃ f ∈ r.fields, f.acc = .rc) ∧
    (∃ (r : RegName) (n : Nat), (∃ f, f ∈ r.fields) ∧ ∀ g ∈ r.fields, n < g.lo ∨ g.lo + g.width ≤ n) :=
  ⟨⟨.PAR_CONFIG, F.PAR_CONFIG_ENABLE, by decide⟩, ⟨.HUB_STATUS, F.HUB_STATUS_CAUSE_EVENT, by decide⟩,
   ⟨.SEC_DEFAULT_LOCK, F.SEC_DEFAULT_LOCK_LOCKED, by decide⟩, ⟨.HUB_STATUS, F.HUB_STATUS_READY, by decide⟩,
   ⟨.PAR_CONFIG, F.PAR_CONFIG_ENABLE, by decide⟩, ⟨.HUB_RESET, F.HUB_RESET_KEY, by decide⟩,
   ⟨.FAB_FRAME_RESENT, F.FAB_FRAME_RESENT_COUNT, by decide⟩, ⟨.HUB_STATUS, 60, ⟨F.HUB_STATUS_READY, by decide⟩, by decide⟩⟩

/-- The hypotheses of RegistersAtReset. -/
theorem witness_RegistersAtReset : ∃ r : RegName, r ≠ .HUB_FLOOR_TABLE ∧ ∃ f, f ∈ r.fields :=
  ⟨.PAR_CONFIG, by decide, F.PAR_CONFIG_ENABLE, by decide⟩

/-- The hypotheses of FetchLeavesTheMachine. -/
theorem witness_FetchLeavesTheMachine :
    ∃ (s : State) (b : Nat), Memory.wf s.mem = true ∧ nmem s.mem.wpbUe (b / 262144) = false := ⟨live, 2 ^ 48 - 1, by decide +kernel⟩

/-- The hypotheses of RegisterInstructionsFrame: LOOP, which writes S0, and every clause's own condition. -/
theorem witness_RegisterInstructionsFrame :
    ∃ (s t : State) (u w : CtxId) (f : Fields) (b n : Nat), exec (.loop u f) s = .next t ∧ (s.fetches u = true ∧ Memory.wf s.mem = true ∧
      nmem s.mem.wpbUe (b / 262144) = false) ∧
      (malletKey w.kit w.drum w.mallet ≠ malletKey u.kit u.drum u.mallet ∨ w.ctx ≠ u.ctx) ∧ some f.A ≠ some n ∧
      (none : Option Nat) ≠ some n ∧ Instr.loop u f ≠ .cswclr u f :=
  ⟨live, _, u0, ⟨0, 0, 0, 1⟩, {}, 0, 1, rfl, by decide +kernel, by decide, by decide, by decide, by intro h; cases h⟩

/-- The hypotheses of StoresLeaveOtherBytes: a byte just below the 64 that TST writes. -/
theorem witness_StoresLeaveOtherBytes :
    ∃ (s t : State) (u : CtxId) (f : Fields) (b : Nat), (s.fetches u = true ∧ Memory.wf s.mem = true ∧
      nmem s.mem.wpbUe (b / 262144) = false ∧
      (∀ e ∈ (s.drum u.kit u.drum).merge, s.canon (64 * e.line) ≤ b → b < s.canon (64 * e.line) + 64 →
        e.valid.testBit (b - s.canon (64 * e.line)) = false) ∧
      (∀ q ∈ (s.fetched u).memPieces u f 64, q.2.rem = false → b < s.canon q.2.addr ∨ s.canon q.2.addr + q.2.len ≤ b)) ∧
      exec (.tst u f) s = .next t :=
  ⟨live, _, u0, {}, slotAddr 0 0 0x100000 - 1, by decide +kernel, rfl⟩

/-- The hypotheses of ZeroProductsAndSpecialProducts, clause by clause. -/
theorem witness_ZeroProductsAndSpecialProducts :
    (∃ a b : Sys2Proof.Machine.Num, isZeroNum a = true ∨ isZeroNum b = true) ∧ (∃ a : Sys2Proof.Machine.Num, isZeroNum a = true) ∧
    (∃ a b : Sys2Proof.Machine.Num, isZeroNum a = false ∧ isZeroNum b = false ∧
      (a = .nan ∨ b = .nan ∨ (∃ n, a = .inf n) ∨ ∃ n, b = .inf n)) ∧
    (∃ a : Sys2Proof.Machine.Num, isZeroNum a = false) ∧
    (∃ (q : TmacIn) (i j : Nat), 0 < q.K ∧ ∀ k < q.K, isZeroNum (q.aVal i k) = true ∨ isZeroNum (q.bVal k j) = true) ∧
    (∃ (q : TmacIn) (i j k : Nat), k < q.K ∧ isZeroNum (q.aVal i k) = false ∧ isZeroNum (q.bVal k j) = false ∧
      (q.aVal i k = .nan ∨ q.bVal k j = .nan ∨ (∃ n, q.aVal i k = .inf n) ∨ ∃ n, q.bVal k j = .inf n)) :=
  ⟨⟨.fin true 0 0, .nan, .inl rfl⟩, ⟨.fin false 0 0, rfl⟩, ⟨.fin false 1 0, .inf true, rfl, rfl, .inr (.inr (.inr ⟨true, rfl⟩))⟩,
   ⟨.nan, rfl⟩, ⟨{ a := {}, b0 := {}, b1 := {}, md := {}, fa := 2, fb := 2, sparse := false }, 0, 0, by decide +kernel⟩,
   ⟨{ a := { data := 1, scale := 0xFF }, b0 := { data := 1 }, b1 := {}, md := {}, fa := 2, fb := 2, sparse := false }, 0, 0, 0,
    by decide +kernel, by decide +kernel, by decide +kernel, .inl (by decide +kernel)⟩⟩

/-- The hypotheses of ColdResetClearsTheBitmaps: each way to a cold reset, and a warm reset. -/
theorem witness_ColdResetClearsTheBitmaps :
    (∃ (s t : State) (lost : Bool), exec (.coldReset lost) s = .next t) ∧
    (∃ (s t : State) (i : Nat) (w : Word), s.resetWord i w 2 = true ∧ exec (.hubResetCold i w) s = .next t) ∧
    (∃ s t : State, s.power.gone = false ∧ exec .fixedRailOutOfTolerance s = .next t) ∧
    (∃ (s t : State) (i : Nat) (w : Word), s.resetWord i w 1 = true ∧ s.boot.fillDone = true ∧ exec (.hubResetWarm i w) s = .next t) ∧
    (∃ a n : Nat, a + n ≤ hbmEnd) ∧ ∃ g : Nat, 32 * g < hbmEnd :=
  ⟨⟨live, _, true, rfl⟩, ⟨up [], _, 9, F.HUB_RESET_KEY.put (F.HUB_RESET_KIND.put 0 2) 0xD7C2, by decide +kernel, rfl⟩,
   ⟨live, _, by decide +kernel, rfl⟩,
   ⟨{ up [] with boot := { resetHeld := false, fillDone := true } }, _, 9, F.HUB_RESET_KEY.put (F.HUB_RESET_KIND.put 0 1) 0xD7C2,
    by decide +kernel, rfl, rfl⟩,
   ⟨hbmEnd - 1, 1, by decide +kernel⟩, ⟨hbmEnd / 32 - 1, by decide +kernel⟩⟩

end Sys2Proof.Machine
end

/-!
Reads and writes of registers, the host window and the accesses of control cores (R12, R14, R441, R535): what each read
answers and what each write reaches, a lemma for each case, and O43 from them.
-/
namespace Sys2Proof.Machine

open Sys2Proof (Word HostAccess CoreAccess)

-- ===== Reads (R12, R14) =====

section Reads

variable {s : State} {i off j k : Nat} {r : RegName}

@[simp] theorem hostRead_unpoisoned (i : Nat) (t : State) (v : Nat) : hostRead i (t, v, false) = t.answerRead v false := rfl

theorem readWide_of_answers (hreg : s.regOf off = some (r, j, k)) (hans : s.answers i r j = true) :
    s.readWide i off =
      let q := (s.readPrep i r j).wordOf i r j k
      (q.1.setRg r j k (clearRc r.fields (q.1.rg r j k)), q.2) := by
  simp [State.readWide, hreg, hans]

theorem readLow_of_counter (hreg : s.regOf off = some (r, j, k)) (hans : s.answers i r j = true) (hcnt : isCounter r = true) :
    s.readLow i off =
      let q := (s.readPrep i r j).wordOf i r j k
      let a := q.1.setRg r j k (clearRc r.fields (q.1.rg r j k))
      ({ a with latchHi := mput 0 a.latchHi (r.off j k) (q.2.1 / 2 ^ 32 + 1) }, q.2.1 % 2 ^ 32, q.2.2) := by
  simp [State.readLow, hreg, hans, hcnt, State.setRg]

theorem readHigh_of_latched {v : Nat} (hreg : s.regOf off = some (r, j, k)) (hans : s.answers i r j = true)
    (hlatch : mget 0 s.latchHi (r.off j k) = v + 1) :
    s.readHigh i off = ({ s with latchHi := mput 0 s.latchHi (r.off j k) 0 }, v, false) := by
  simp [State.readHigh, hreg, hans, hlatch]

theorem execRcRead_wide (hreg : s.regOf off = some (r, j, k)) (hans : s.answers i r j = true)
    (hclean : ((s.readPrep i r j).wordOf i r j k).2.2 = false) :
    let q := (s.readPrep i r j).wordOf i r j k
    execRcRead i off true s = .next ((q.1.setRg r j k (clearRc r.fields (q.1.rg r j k))).answerRead q.2.1 false) := by
  simp [execRcRead, readWide_of_answers hreg hans, hostRead, hclean]

/-- A read at an offset that is a multiple of 8 is one of the low half. -/
theorem execHalfReadLatch_low (hreg : s.regOf off = some (r, j, k)) (hans : s.answers i r j = true) (hcnt : isCounter r = true)
    (halign : off % 8 = 0) (hclean : ((s.readPrep i r j).wordOf i r j k).2.2 = false) :
    let q := (s.readPrep i r j).wordOf i r j k
    let a := q.1.setRg r j k (clearRc r.fields (q.1.rg r j k))
    execHalfReadLatch i off s =
      .next (({ a with latchHi := mput 0 a.latchHi (r.off j k) (q.2.1 / 2 ^ 32 + 1) } : State).answerRead (q.2.1 % 2 ^ 32) false) := by
  simp [execHalfReadLatch, halign, readLow_of_counter hreg hans hcnt, hostRead, hclean]

/-- A read 4 above such an offset is one of the high half. -/
theorem execHalfReadLatch_high {v : Nat} (hreg : s.regOf off = some (r, j, k)) (hans : s.answers i r j = true)
    (halign : off % 8 = 0) (hlatch : mget 0 s.latchHi (r.off j k) = v + 1) :
    execHalfReadLatch i (off + 4) s =
      .next (({ s with latchHi := mput 0 s.latchHi (r.off j k) 0 } : State).answerRead v false) := by
  have hhigh : (off + 4) % 8 = 4 := by omega
  simp [execHalfReadLatch, hhigh, readHigh_of_latched hreg hans hlatch]

end Reads

-- ===== Writes (R12) =====

/-- A register whose writes wait for ready and change no epoch (R514, R516, R517): it is none of the status set, of the queue
registers or of the epoch's. -/
def writesFromReady (r : RegName) : Bool :=
  match r with
  | .HUB_RESET | .HUB_STATUS | .HUB_ATTN_CFG | .EVT_READ | .PWR_CAP | .PWR_STATUS | .PWR_KIT => false
  | .HUB_HQ_CFG | .HUB_HQ_SQ_TAIL | .HUB_HQ_CQ_HEAD | .HUB_HQ_SQ_BASE | .HUB_HQ_CQ_BASE => false
  | r => !r.info.epoch

section Writes

variable {s : State} {i off j k : Nat} {r : RegName} {w : Word}

theorem putNew_of_ne_pwrCap (s : State) (j k : Nat) (w : Word) (hne : r ≠ .PWR_CAP) :
    s.putNew r j k w = s.setRg r j k (writeFields r.fields (s.rg r j k) w) := by
  simp [State.putNew, newWord, hne]

theorem putNew_pwrCap (s : State) (j k : Nat) (w : Word) :
    s.putNew .PWR_CAP j k w =
      let v := writeFields (RegName.fields .PWR_CAP) (s.rg .PWR_CAP j k) w
      s.setRg .PWR_CAP j k (F.PWR_CAP_CAP_W.put v (max 300 (min 1800 (F.PWR_CAP_CAP_W.of v)))) := by
  simp [State.putNew, newWord]

theorem execRegisterWrite_of_le (hi : i ≤ 8) : execRegisterWrite i off w s = s.regWrite i off w := if_pos hi

theorem regWrite_hubStatus (hlive : s.alive = true) (hreg : s.regOf off = some (.HUB_STATUS, j, k)) :
    s.regWrite i off w = .next (s.putNew .HUB_STATUS j k w).fixAttn := by
  simp [State.regWrite, hreg, hlive]

theorem regWrite_evtRead (hlive : s.alive = true) (hreg : s.regOf off = some (.EVT_READ, j, k)) :
    s.regWrite i off w = .next (s.putNew .EVT_READ j k w) := by
  simp [State.regWrite, hreg, hlive]

theorem regWrite_pwrCap (hlive : s.alive = true) (hreg : s.regOf off = some (.PWR_CAP, j, k)) :
    s.regWrite i off w = .next (s.putNew .PWR_CAP j k w) := by
  simp [State.regWrite, hreg, hlive]

/-- The one dispatch behind every write that waits for ready. -/
theorem regWrite_eq_writeReady (hlive : s.alive = true) (hcan : s.canWrite i = true) (hreg : s.regOf off = some (r, j, k))
    (hr : writesFromReady r = true) : s.regWrite i off w = writeReady i (r.off j k) r j k w s := by
  have hepoch : r.info.epoch = false := by
    unfold writesFromReady at hr
    split at hr <;> simp_all
  simp only [State.regWrite, hreg, hlive, hcan, hepoch, Bool.true_eq_false, Bool.false_eq_true, if_false]
  unfold writesFromReady at hr
  split <;> simp_all

end Writes

-- ===== The host window (R531, R535) =====

section Window

variable {s : State} {a : HostAccess}

/-- The local address that a host access reaches. -/
def State.windowAddr (s : State) (a : HostAccess) : Nat := 2 ^ 32 * s.f F.HUB_HOST_WINDOW_BASE 0 0 + a.off

/-- The host access lies in an enabled window, and on memory that is neither reserved nor in self-refresh. -/
structure WindowAdmits (s : State) (a : HostAccess) : Prop where
  size_pos : 1 ≤ a.size
  fits : a.off + a.size ≤ 2 ^ 32
  ready : s.fb F.HUB_STATUS_READY 0 0 = true
  enabled : s.fb F.HUB_HOST_WINDOW_ENABLE 0 0 = true
  unreserved : s.reserves (s.windowAddr a) a.size = false
  awake : s.asleep (s.canon (s.windowAddr a)) = false

theorem execHostWindowAccess_write (h : WindowAdmits s a) (hw : a.write = true) :
    execHostWindowAccess a s =
      .next (s.softWrite (s.windowAddr a) a.size { v := a.data, p := if a.ep then ones (granules (s.windowAddr a) a.size) else 0 }) := by
  obtain ⟨hsize, hfits, hready, henabled, hfree, hawake⟩ := h
  have hpos : a.size ≠ 0 := by omega
  have hin : ¬ 4294967296 < a.off + a.size := by omega
  unfold execHostWindowAccess
  rw [← State.windowAddr]
  simp [hin, hpos, hready, henabled, hfree, hawake, hw]

/-- A read whose flash has been read answers the bytes; a poisoned one logs HOST_POISON and sets EP. -/
theorem execHostWindowAccess_read (h : WindowAdmits s a) (hw : a.write = false)
    (hgate : (s.flashGate hostKey 4097 (s.windowAddr a) a.size).2 = true) :
    let r := (s.flashGate hostKey 4097 (s.windowAddr a) a.size).1.readMem noUnit (s.windowAddr a) a.size
    let bad := decide (r.2.p ≠ 0)
    execHostWindowAccess a s =
      .next ((if bad then r.1.log (srcHub 9) Ev.HOST_POISON else r.1).answerRead (r.2.v % 256 ^ a.size) bad) := by
  obtain ⟨hsize, hfits, hready, henabled, hfree, hawake⟩ := h
  have hpos : a.size ≠ 0 := by omega
  have hin : ¬ 4294967296 < a.off + a.size := by omega
  unfold execHostWindowAccess
  rw [← State.windowAddr]
  simp [hin, hpos, hready, henabled, hfree, hawake, hw, hgate]

theorem execHostWindowAccess_read_clean (h : WindowAdmits s a) (hw : a.write = false)
    (hgate : (s.flashGate hostKey 4097 (s.windowAddr a) a.size).2 = true)
    (hp : ((s.flashGate hostKey 4097 (s.windowAddr a) a.size).1.readMem noUnit (s.windowAddr a) a.size).2.p = 0) :
    let r := (s.flashGate hostKey 4097 (s.windowAddr a) a.size).1.readMem noUnit (s.windowAddr a) a.size
    execHostWindowAccess a s = .next (r.1.answerRead (r.2.v % 256 ^ a.size) false) := by
  simp [execHostWindowAccess_read h hw hgate, hp]

theorem execHostWindowAccess_read_poisoned (h : WindowAdmits s a) (hw : a.write = false)
    (hgate : (s.flashGate hostKey 4097 (s.windowAddr a) a.size).2 = true)
    (hp : ((s.flashGate hostKey 4097 (s.windowAddr a) a.size).1.readMem noUnit (s.windowAddr a) a.size).2.p ≠ 0) :
    let r := (s.flashGate hostKey 4097 (s.windowAddr a) a.size).1.readMem noUnit (s.windowAddr a) a.size
    execHostWindowAccess a s = .next ((r.1.log (srcHub 9) Ev.HOST_POISON).answerRead (r.2.v % 256 ^ a.size) true) := by
  simp [execHostWindowAccess_read h hw hgate, hp]

end Window

-- ===== Control cores (R261, R441) =====

section Cores

variable {s : State} {x : CoreAccess}

/-- The access of a running core lies outside the control space, and on memory that is neither reserved nor in self-refresh. -/
structure CoreAdmits (s : State) (x : CoreAccess) : Prop where
  runs : s.coreRuns x.core = true
  size_pos : 1 ≤ x.size
  outside_control : ¬ (coreControl ≤ x.addr ∧ x.addr < 2 * coreControl)
  unreserved : s.reserves x.addr x.size = false
  awake : s.asleep (s.canon x.addr) = false

@[simp] theorem coreRead_clean (t : State) (x : CoreAccess) (v : Nat) : t.coreRead x v 0 = t.coreAnswer v none := if_pos rfl

theorem coreRead_poisoned (t : State) (x : CoreAccess) (v : Nat) {p : Nat} (hp : p ≠ 0) :
    t.coreRead x v p = (t.log (srcCore x.core) Ev.CC_POISON [] none (some (unitCore x.core))).coreAnswer 0
      (some (trapCause x.op, trapAddr x.addr x.size p)) := if_neg hp

theorem execControlCoreAccess_store (h : CoreAdmits s x) (hop : x.op = .store) :
    execControlCoreAccess x s = .next ((s.softWrite x.addr x.size { v := x.data, p := 0 }).coreAnswer 0 none) := by
  obtain ⟨hruns, hsize, houtside, hfree, hawake⟩ := h
  have hpos : x.size ≠ 0 := by omega
  simp [execControlCoreAccess, hruns, hpos, houtside, hfree, hawake, hop]

/-- A load, fetch or AMO whose flash has been read ends its read, and an AMO writes when no granule was poisoned. -/
theorem execControlCoreAccess_read (h : CoreAdmits s x) (hop : x.op ≠ .store)
    (hgate : (s.flashGate (2 ^ 59 + 1 + x.core) 4097 x.addr x.size).2 = true) :
    let r := (s.flashGate (2 ^ 59 + 1 + x.core) 4097 x.addr x.size).1.readMem noUnit x.addr x.size
    let t := r.1.coreRead x (r.2.v % 256 ^ x.size) r.2.p
    execControlCoreAccess x s =
      .next (if x.op = .amo ∧ r.2.p = 0 then t.softWrite x.addr x.size { v := x.data, p := 0 } else t) := by
  obtain ⟨hruns, hsize, houtside, hfree, hawake⟩ := h
  have hpos : x.size ≠ 0 := by omega
  simp [execControlCoreAccess, hruns, hpos, houtside, hfree, hawake, hop, hgate, -Nat.reducePow]

end Cores

-- ===== The obligation =====

/-- Settles O43, from the case of each read, write and access above. -/
theorem registerAccessComplete : Obligations.RegisterAccessComplete := by
  unfold Obligations.RegisterAccessComplete
  refine ⟨?reads, ?writes, ?window, ?cores⟩
  case reads =>
    intro s i off j k r hreg hans
    refine ⟨execRcRead_wide hreg hans, ?_, ?_⟩
    · rintro _ hclean hcnt halign rfl
      exact execHalfReadLatch_low hreg hans hcnt halign hclean
    · rintro v _ halign hlatch rfl
      exact execHalfReadLatch_high hreg hans halign hlatch
  case writes =>
    intro s i off j k w hi hlive
    rw [exec_registerWrite, execRegisterWrite_of_le hi]
    refine ⟨fun hreg => ?_, fun hreg => ?_, fun hreg => ?_, fun hcan => ?_⟩
    · rw [regWrite_hubStatus hlive hreg, putNew_of_ne_pwrCap s j k w (by decide)]
    · rw [regWrite_evtRead hlive hreg, putNew_of_ne_pwrCap s j k w (by decide)]
    · rw [regWrite_pwrCap hlive hreg, putNew_pwrCap]
    · have hdispatch : ∀ {r : RegName}, writesFromReady r = true → s.regOf off = some (r, j, k) →
          s.regWrite i off w = writeReady i (r.off j k) r j k w s :=
        fun hr hreg => regWrite_eq_writeReady hlive hcan hreg hr
      refine ⟨fun hreg => ?seed, hdispatch rfl, hdispatch rfl, hdispatch rfl, hdispatch rfl, hdispatch rfl, hdispatch rfl,
        hdispatch rfl⟩
      case seed =>
        rw [← putNew_of_ne_pwrCap s j k w (by decide)]
        exact hdispatch rfl hreg
  case window =>
    intro s a hsize hfits hready henabled addr g r hfree hawake
    have h : WindowAdmits s a := ⟨hsize, hfits, hready, henabled, hfree, hawake⟩
    exact ⟨execHostWindowAccess_write h, execHostWindowAccess_read_clean h, execHostWindowAccess_read_poisoned h⟩
  case cores =>
    intro s x hruns hsize houtside hfree hawake g r
    have h : CoreAdmits s x := ⟨hruns, hsize, houtside, hfree, hawake⟩
    refine ⟨execControlCoreAccess_store h, fun hop hgate hp => ?_, fun hop hgate hp => ?_, fun hop hgate hp => ?_⟩
    · have hstore : x.op ≠ .store := by rcases hop with hop | hop <;> simp [hop]
      have hamo : x.op ≠ .amo := by rcases hop with hop | hop <;> simp [hop]
      exact (execControlCoreAccess_read h hstore hgate).trans (by rw [if_neg (fun c => hamo c.1), hp, coreRead_clean])
    · exact (execControlCoreAccess_read h (by simp [hop]) hgate).trans (by rw [if_pos ⟨hop, hp⟩, hp, coreRead_clean])
    · exact (execControlCoreAccess_read h hop hgate).trans (by rw [if_neg (fun c => hp c.2), coreRead_poisoned _ _ _ hp])

end Sys2Proof.Machine

/-!
Products, sums, combining and re-anchoring on exact accumulators (02_arithmetic.md: R62, R63, R71, R72, R76, R77): what one
product and one term add, their folds over a multiply and over a list of terms, and O54 to O57 from them.
-/
namespace Sys2Proof.Machine

open Sys2Proof (CtxId Fields)

-- ===== Products (R62, R63) =====

theorem isZeroNum_iff {a : Num} : isZeroNum a = true ↔ ∃ s x, a = .fin s 0 x := by
  refine ⟨fun h => ?_, by rintro ⟨s, x, rfl⟩; rfl⟩
  match a, h with
  | .fin s 0 x, _ => exact ⟨s, x, rfl⟩

/-- An infinity or a NaN: an operand that makes a product without a zero operand set INV (R63). -/
def Num.isSpecial (a : Num) : Bool := match a with | .fin .. => false | _ => true

theorem Num.isSpecial_iff {a : Num} : a.isSpecial = true ↔ a = .nan ∨ ∃ n, a = .inf n := by
  cases a <;> simp [Num.isSpecial]

/-- The disjunction in which O54 says that either operand is special. -/
theorem Num.isSpecial_or_iff {a b : Num} :
    (a.isSpecial = true ∨ b.isSpecial = true) ↔ a = .nan ∨ b = .nan ∨ (∃ n, a = .inf n) ∨ ∃ n, b = .inf n := by
  rw [Num.isSpecial_iff, Num.isSpecial_iff]
  tauto

@[simp] theorem scaled_255 (a : Num) : scaled a 255 = .nan := rfl

theorem prodNum_of_zero {a b : Num} (h : isZeroNum a = true ∨ isZeroNum b = true) : prodNum a b = .fin false 0 0 := by
  rcases h with h | h <;> obtain ⟨s, x, rfl⟩ := isZeroNum_iff.mp h
  · rfl
  · rcases a with ⟨_, _ | _, _⟩ | _ | _ <;> rfl

theorem prodNum_of_special {a b : Num} (ha : isZeroNum a = false) (hb : isZeroNum b = false)
    (h : a.isSpecial = true ∨ b.isSpecial = true) : prodNum a b = .nan := by
  unfold prodNum
  split
  · cases ha
  · cases hb
  · rcases h with h | h <;> cases h
  · rfl

theorem AccElem.addNum_zeroProduct (e : AccElem) (A : Int) {a b : Num} (h : isZeroNum a = true ∨ isZeroNum b = true) :
    e.addNum A (prodNum a b) = e := by
  rw [prodNum_of_zero h]
  rfl

theorem AccElem.addNum_specialProduct (e : AccElem) (A : Int) {a b : Num} (ha : isZeroNum a = false) (hb : isZeroNum b = false)
    (h : a.isSpecial = true ∨ b.isSpecial = true) : e.addNum A (prodNum a b) = { e with inv := true } := by
  rw [prodNum_of_special ha hb h]
  rfl

-- ===== Terms (R71, R72) =====

/-- A term that is replaced as it is added, which sets OVF (R71). -/
def termReplaced (t : Int) : Bool := decide (2 ^ 127 ≤ t) || decide (t ≤ -2 ^ 127)

theorem AccElem.addTerm_eq (e : AccElem) (t : Int) :
    e.addTerm t = { e with v := e.v + BitVec.ofInt 144 (term127 t), ovf := e.ovf || termReplaced t } := by
  have hgt : lim127 < t ↔ 2 ^ 127 ≤ t := by unfold lim127; omega
  have hlt : t < -lim127 ↔ t ≤ -2 ^ 127 := by unfold lim127; omega
  simp only [AccElem.addTerm, term127, termReplaced, hgt, hlt]
  split_ifs with hhi hlo
  · simp only [hhi, lim127, decide_true, Bool.true_or, Bool.or_true]
  · simp only [hlo, lim127, decide_true, Bool.or_true]
  · simp only [hhi, hlo, decide_false, Bool.or_false]

theorem abs_term127_le (t : Int) : |term127 t| ≤ 2 ^ 127 - 1 := by
  rw [abs_le]
  unfold term127
  split_ifs <;> omega

theorem AccElem.foldl_addTerm_v (ts : List Int) (e : AccElem) :
    (ts.foldl AccElem.addTerm e).v = e.v + BitVec.ofInt 144 (ts.map term127).sum := by
  induction ts generalizing e with
  | nil => simp
  | cons t ts ih => simp [ih, AccElem.addTerm_eq, BitVec.ofInt_add, BitVec.add_assoc]

theorem AccElem.foldl_addTerm_ovf (ts : List Int) (e : AccElem) : (ts.foldl AccElem.addTerm e).ovf = (e.ovf || ts.any termReplaced) := by
  induction ts generalizing e with
  | nil => simp
  | cons t ts ih => simp [ih, AccElem.addTerm_eq, Bool.or_assoc]

/-- A sum of n terms as they are added is at most n times the largest (R72). -/
theorem abs_sum_term127_le (ts : List Int) : |(ts.map term127).sum| ≤ ts.length * (2 ^ 127 - 1) := by
  induction ts with
  | nil => simp
  | cons t ts ih =>
    have hsum := abs_add_le (term127 t) (ts.map term127).sum
    have ht := abs_term127_le t
    simp only [List.map_cons, List.sum_cons, List.length_cons]
    push_cast
    omega

/-- A signed number of 144 bits is its own low 144 bits. -/
theorem toInt_ofInt_144 {z : Int} (hlo : -2 ^ 143 ≤ z) (hhi : z < 2 ^ 143) : (BitVec.ofInt 144 z).toInt = z :=
  BitVec.toInt_ofInt_eq_self (by decide) hlo hhi

/-- A newly opened accumulator holds clear elements (R69). -/
@[simp] theorem Acc.el_opened (A : BitVec 10) (n : Nat) : (Acc.opened A).el n = {} := rfl

-- ===== A whole multiply (R58) =====

theorem AccElem.inv_addNum {e : AccElem} (A : Int) (n : Num) (h : e.inv = true) : (e.addNum A n).inv = true := by
  unfold AccElem.addNum
  split
  · rfl
  · rfl
  · split
    · exact h
    · rw [AccElem.addTerm_eq]
      exact h

/-- The products of output element (i, j) over the positions ks of K are added in order. -/
def TmacIn.addProducts (q : TmacIn) (A : Int) (i j : Nat) (ks : List Nat) (e : AccElem) : AccElem :=
  ks.foldl (fun e k => e.addNum A (prodNum (q.aVal i k) (q.bVal k j))) e

/-- POISON aside, the output element is what its products leave. -/
theorem TmacIn.elemOut_eq (q : TmacIn) (A : Int) (i j : Nat) (e : AccElem) :
    q.elemOut A i j e = { q.addProducts A i j (List.range q.K) e with poison := (q.elemOut A i j e).poison } := rfl

theorem TmacIn.addProducts_of_zeros {q : TmacIn} {i j : Nat} {ks : List Nat} (A : Int) (e : AccElem)
    (h : ∀ k ∈ ks, isZeroNum (q.aVal i k) = true ∨ isZeroNum (q.bVal k j) = true) : q.addProducts A i j ks e = e := by
  induction ks with
  | nil => rfl
  | cons k ks ih =>
    rw [TmacIn.addProducts, List.foldl_cons, AccElem.addNum_zeroProduct e A (h k List.mem_cons_self)]
    exact ih (fun k' hk' => h k' (List.mem_cons_of_mem k hk'))

/-- INV is sticky over the products. -/
theorem TmacIn.inv_addProducts {q : TmacIn} {i j : Nat} {e : AccElem} (A : Int) (ks : List Nat) (h : e.inv = true) :
    (q.addProducts A i j ks e).inv = true :=
  List.foldlRecOn (motive := fun e : AccElem => e.inv = true) ks _ h (fun _ hinv _ _ => AccElem.inv_addNum A _ hinv)

theorem TmacIn.inv_addProducts_of_special {q : TmacIn} {i j k : Nat} {ks : List Nat} (A : Int) (e : AccElem) (hk : k ∈ ks)
    (ha : isZeroNum (q.aVal i k) = false) (hb : isZeroNum (q.bVal k j) = false)
    (h : (q.aVal i k).isSpecial = true ∨ (q.bVal k j).isSpecial = true) : (q.addProducts A i j ks e).inv = true := by
  obtain ⟨before, after, rfl⟩ := List.append_of_mem hk
  rw [TmacIn.addProducts, List.foldl_append, List.foldl_cons, AccElem.addNum_specialProduct _ A ha hb h]
  exact TmacIn.inv_addProducts A after rfl

-- ===== Combining (R76) =====

theorem Acc.el_comb (a b : Acc) (mask n : Nat) (hn : n < 16) :
    (a.comb b mask).el n =
      if bit mask n = true then
        ⟨(a.el n).v + (b.el n).v, (a.el n).poison || (b.el n).poison, (a.el n).inv || (b.el n).inv, (a.el n).ovf || (b.el n).ovf⟩
      else a.el n :=
  Acc.el_mapEnabled a mask n _ hn

@[simp] theorem Acc.anchor_comb (a b : Acc) (mask : Nat) : (a.comb b mask).anchor = a.anchor := Acc.anchor_mapEnabled a mask _

theorem notOpen_of_isOpen {s : State} {u : CtxId} {n : Nat} (h : (s.acc u n).isOpen = true) : s.notOpen u n = none := by
  simp [State.notOpen, when, h]

section Instructions

variable {s : State} {u : CtxId} {f : Fields}

theorem d8_of_lt (h : f.D < 8) : f.d8 = true := decide_eq_true h

theorem a8_of_lt (h : f.A < 8) : f.a8 = true := decide_eq_true h

section Acomb

variable (hfetch : s.fetches u = true) (hlegal : f.zeroBut false false true false true true false false false = true)
  (hD : f.D < 8) (hA : f.A < 8) (hopenD : (s.acc u f.D).isOpen = true) (hopenA : (s.acc u f.A).isOpen = true)

include hfetch hlegal hD hA hopenD hopenA

theorem execAcomb_of_sameAnchor (hanchor : (s.acc u f.D).anchor = (s.acc u f.A).anchor) :
    execAcomb u f s = .next
      (((s.fetched u).setAcc u f.D ((s.acc u f.D).comb (s.acc u f.A) ((s.fetched u).maskE u f))).done u) := by
  rw [execAcomb, State.run1, run_of_fetches hfetch]
  · simp
  · simp [hlegal, d8_of_lt hD, a8_of_lt hA]
  · simp [notOpen_of_isOpen, hopenD, hopenA, hanchor, when, noFault]

theorem execAcomb_of_anchorMismatch (hanchor : (s.acc u f.D).anchor ≠ (s.acc u f.A).anchor) :
    execAcomb u f s = .next ((s.fetched u).faults u (Fields.word f 0x42) (0xD, 0)) := by
  rw [execAcomb, State.run1, run_of_fault hfetch]
  · simp [hlegal, d8_of_lt hD, a8_of_lt hA]
  · simp [notOpen_of_isOpen, hopenD, hopenA, hanchor, when, lowest]

end Acomb

theorem execAreanc_of_open (hfetch : s.fetches u = true) (hlegal : f.zeroBut false false false false true false false false true = true)
    (hD : f.D < 8) (himm : f.immN < 2 ^ 10) (hopen : (s.acc u f.D).isOpen = true) :
    execAreanc u f s = .next
      (((s.fetched u).setAcc u f.D ((s.acc u f.D).reanchor (BitVec.ofNat 10 f.immN))).done u) := by
  rw [execAreanc, State.run1, run_of_fetches hfetch]
  · simp
  · simpa [hlegal, d8_of_lt hD] using himm
  · simp [notOpen_of_isOpen, hopen, noFault]

end Instructions

-- ===== Re-anchoring (R77) =====

section Reanchor

variable (e : AccElem) {k : Int}

@[simp] theorem AccElem.poison_reanchor (k : Int) : (e.reanchor k).poison = e.poison := by
  unfold AccElem.reanchor
  dsimp only
  split_ifs <;> rfl

@[simp] theorem AccElem.inv_reanchor (k : Int) : (e.reanchor k).inv = e.inv := by
  unfold AccElem.reanchor
  dsimp only
  split_ifs <;> rfl

/-- A shift right leaves a number of 144 bits within them, so it is exact. -/
theorem AccElem.reanchor_right (hk : k < 0) :
    (e.reanchor k).v.toInt = ⌊(e.v.toInt : ℚ) / 2 ^ (-k).toNat⌋ ∧ (e.reanchor k).ovf = e.ovf := by
  have hfloor : ⌊(e.v.toInt : ℚ) / 2 ^ (-k).toNat⌋ = e.v.toInt / 2 ^ (-k).toNat := by
    exact_mod_cast Rat.floor_intCast_div_natCast e.v.toInt (2 ^ (-k).toNat)
  have hlo : -2 ^ 143 ≤ e.v.toInt := e.v.le_toInt
  have hhi : e.v.toInt < 2 ^ 143 := e.v.toInt_lt
  have hpos : (0 : Int) < 2 ^ (-k).toNat := by positivity
  have hqlo : -2 ^ 143 ≤ e.v.toInt / 2 ^ (-k).toNat := by
    rw [Int.le_ediv_iff_mul_le hpos]
    nlinarith
  have hqhi : e.v.toInt / 2 ^ (-k).toNat < 2 ^ 143 := by
    rw [Int.ediv_lt_iff_lt_mul hpos]
    nlinarith
  rw [hfloor, AccElem.reanchor, if_pos hk]
  exact ⟨toInt_ofInt_144 hqlo hqhi, rfl⟩

theorem AccElem.reanchor_left_exact (hk : 0 ≤ k) (hlo : -2 ^ 143 ≤ e.v.toInt * 2 ^ k.toNat) (hhi : e.v.toInt * 2 ^ k.toNat < 2 ^ 143) :
    (e.reanchor k).v.toInt = e.v.toInt * 2 ^ k.toNat ∧ (e.reanchor k).ovf = e.ovf := by
  rw [AccElem.reanchor, if_neg (by omega), if_neg (by omega), if_neg (by push_cast; omega)]
  exact ⟨toInt_ofInt_144 hlo hhi, rfl⟩

theorem AccElem.reanchor_left_high (hk : 0 ≤ k) (h : 2 ^ 143 ≤ e.v.toInt * 2 ^ k.toNat) :
    (e.reanchor k).v.toInt = 2 ^ 143 - 1 ∧ (e.reanchor k).ovf = true := by
  rw [AccElem.reanchor, if_neg (by omega), if_pos (by omega)]
  exact ⟨toInt_ofInt_144 (by decide) (by decide), rfl⟩

theorem AccElem.reanchor_left_low (hk : 0 ≤ k) (h : e.v.toInt * 2 ^ k.toNat < -2 ^ 143) :
    (e.reanchor k).v.toInt = -(2 ^ 143 - 1) ∧ (e.reanchor k).ovf = true := by
  rw [AccElem.reanchor, if_neg (by omega), if_neg (by omega), if_pos (by push_cast; omega)]
  exact ⟨toInt_ofInt_144 (by decide) (by decide), rfl⟩

end Reanchor

-- ===== The obligations =====

/-- Settles O54, from the two values that a product with a zero or a special operand has, and their folds over a multiply. -/
theorem zeroProductsAndSpecialProducts : Obligations.ZeroProductsAndSpecialProducts := by
  unfold Obligations.ZeroProductsAndSpecialProducts
  refine ⟨fun e A a b => e.addNum_zeroProduct A, fun e A a b ha => ?zeroScaled, fun e A a b ha hb h => ?special,
    fun e A a b ha => ?specialScaled, fun q A i j e h => ?zeros, fun q A i j k e hk ha hb h => ?anySpecial⟩
  case zeroScaled => exact ⟨e.addNum_zeroProduct A (.inl ha), e.addNum_zeroProduct A (.inr ha)⟩
  case special => exact e.addNum_specialProduct A ha hb (Num.isSpecial_or_iff.mpr h)
  case specialScaled =>
    exact ⟨e.addNum_specialProduct A ha rfl (.inr rfl), e.addNum_specialProduct A rfl ha (.inl rfl)⟩
  case zeros =>
    have hsum : q.addProducts A i j (List.range q.K) e = e :=
      TmacIn.addProducts_of_zeros A e (fun k hk => h k (List.mem_range.mp hk))
    rw [TmacIn.elemOut_eq, hsum]
    exact ⟨rfl, rfl, rfl⟩
  case anySpecial =>
    rw [TmacIn.elemOut_eq]
    exact TmacIn.inv_addProducts_of_special A e (List.mem_range.mpr hk) ha hb (Num.isSpecial_or_iff.mpr h)

/-- Settles O55: each term is at most 2^127 − 1, so that 2^16 of them stay below 2^143. -/
theorem sumsOfTermsAreExact : Obligations.SumsOfTermsAreExact := by
  unfold Obligations.SumsOfTermsAreExact
  refine ⟨fun e t => ?one, fun A n ts => ?list⟩
  case one => simp [AccElem.addTerm_eq, termReplaced, Bool.or_assoc]
  case list =>
    intro e sum
    have hv : e.v = BitVec.ofInt 144 sum := by simp [e, sum, AccElem.foldl_addTerm_v]
    have hovf : e.ovf = ts.any termReplaced := by simp [e, AccElem.foldl_addTerm_ovf]
    refine ⟨hv, hovf, fun hlo hhi => ?_, fun hlen => ?_⟩
    · rw [hv, toInt_ofInt_144 hlo hhi]
    · have hsum : |sum| ≤ ts.length * (2 ^ 127 - 1) := abs_sum_term127_le ts
      rw [abs_le] at hsum
      omega

/-- Settles O56, from what ACOMB does with equal and with unequal anchors. -/
theorem combiningAccumulators : Obligations.CombiningAccumulators := by
  unfold Obligations.CombiningAccumulators
  intro s u f hfetch hlegal hD hA hopenD hopenA
  refine ⟨fun hanchor => ⟨_, execAcomb_of_sameAnchor hfetch hlegal hD hA hopenD hopenA hanchor, ?same⟩,
    fun hanchor => ⟨_, execAcomb_of_anchorMismatch hfetch hlegal hD hA hopenD hopenA hanchor, ?mismatch⟩⟩
  case same =>
    refine ⟨by simp, fun k hk => by simp [hk], fun n hn hbit => ?_, fun n hn hbit => ?_⟩ <;>
      simp [Acc.el_comb, hn, hbit]
  case mismatch => simp

/-- Settles O57, element by element, from each of the four results of a shift. -/
theorem reanchoringIsExact : Obligations.ReanchoringIsExact := by
  unfold Obligations.ReanchoringIsExact
  intro s u f hfetch hlegal hD himm hopen
  refine ⟨_, execAreanc_of_open hfetch hlegal hD himm hopen, by simp [Acc.reanchor], fun n hn => ?_⟩
  have hel := Acc.el_reanchor (s.acc u f.D) (BitVec.ofNat 10 f.immN) n hn
  simp only [State.acc_done, State.acc_setAcc, if_true, hel]
  exact ⟨AccElem.poison_reanchor _ _, AccElem.inv_reanchor _ _, AccElem.reanchor_right _, fun hk =>
    ⟨AccElem.reanchor_left_exact _ hk, AccElem.reanchor_left_high _ hk, AccElem.reanchor_left_low _ hk⟩⟩

end Sys2Proof.Machine

/-!
Scalar arithmetic (03_zmi_instruction_set.md: R112): what an instruction of opcodes 0x10 to 0x1B leaves of its context, with an admitted
and with a reserved encoding, the operations modulo 2^64 as arithmetic, and O58 from them.
-/
namespace Sys2Proof.Machine

open Sys2Proof (CtxId Fields)

section Scalar

variable {s : State} {u : CtxId} {f : Fields}

-- ===== Registers and operands =====

@[simp] theorem State.S_fetched (s : State) (u : CtxId) (n : Nat) : (s.fetched u).S u n = s.S u n := by
  simp [State.S]

@[simp] theorem State.opB_fetched (s : State) (u : CtxId) (f : Fields) : (s.fetched u).opB u f = s.opB u f := by
  simp [State.opB]

/-- An instruction that completes leaves the scalar registers. -/
theorem State.S_done (s : State) (u : CtxId) (k : Nat) : ((s.done u).ctx u).S k = (s.ctx u).S k := by
  rw [State.ctx_done]
  rfl

/-- MOD[0] selects sext(IMM). -/
theorem State.opB_v (s : State) (u : CtxId) (f : Fields) :
    (s.opB u f).v = if f.modBit 0 then BitVec.ofInt 64 f.simm else ((s.ctx u).S f.B).v :=
  apply_ite SReg.v _ _ _

-- ===== One instruction =====

/-- MOD[3:1] names none of an instruction's n conditions. -/
theorem Fields.scalarLegal_of_reserved {n : Nat} (h : n ≤ f.modN / 2) : Fields.scalarLegal f n = false := by
  simp [Fields.scalarLegal, h]

variable {op n : Nat} {g : BitVec 64 → BitVec 64 → BitVec 64}

theorem scalar_of_legal (hfetch : s.fetches u = true) (hlegal : Fields.scalarLegal f n = true) :
    s.scalar u f op n g =
      ((s.fetched u).putS u f.D (g (s.S u f.A).v (s.opB u f).v) (s.sp u f.A || (s.opB u f).p)).done u := by
  rw [State.scalar, State.run1, run_of_fetches hfetch hlegal rfl]
  simp [State.sp]

theorem scalar_of_reserved (hfetch : s.fetches u = true) (hmod : n ≤ f.modN / 2) :
    s.scalar u f op n g = (s.fetched u).faults u (Fields.word f op) (2, 0) := by
  have hfetch' : (s.issuing u = true ∧ s.fetchBad u = false) ∧ (s.fetch u).2 = false := by simpa [State.fetches] using hfetch
  obtain ⟨⟨hissuing, hbad⟩, -⟩ := hfetch'
  rw [State.scalar, State.run1, Fields.scalarLegal_of_reserved hmod, run_of_illegal hissuing hbad]

/-- The result goes to S[rd] and to no other scalar register. -/
theorem S_scalar_of_legal (hfetch : s.fetches u = true) (hlegal : Fields.scalarLegal f n = true) :
    (((s.scalar u f op n g).ctx u).S f.D).v = g (s.S u f.A).v (s.opB u f).v ∧
      ∀ k, k ≠ f.D → ((s.scalar u f op n g).ctx u).S k = (s.ctx u).S k := by
  have hS : ∀ k, ((s.scalar u f op n g).ctx u).S k =
      if k = f.D then ⟨g (s.S u f.A).v (s.opB u f).v, s.sp u f.A || (s.opB u f).p⟩ else (s.ctx u).S k := by
    intro k
    rw [scalar_of_legal hfetch hlegal, State.S_done, State.ctx_putS, Ctx.S_setS, State.ctx_fetched]
  exact ⟨by rw [hS, if_pos rfl], fun k hk => by rw [hS, if_neg hk]⟩

/-- A reserved encoding faults with code 2 and writes no scalar register. -/
theorem ctx_scalar_of_reserved (hfetch : s.fetches u = true) (hmod : n ≤ f.modN / 2) :
    (s.scalar u f op n g).ctx u = { s.ctx u with fault := 2, stopped := true, wait := .none } := by
  rw [scalar_of_reserved hfetch hmod, State.ctx_faults, State.ctx_fetched]

end Scalar

-- ===== Results as arithmetic =====

section Results

variable {w : Nat} (a b : BitVec w)

theorem add_eq_ofNat : a + b = BitVec.ofNat w (a.toNat + b.toNat) := by
  simp [BitVec.ofNat_add]

theorem sub_eq_ofInt : a - b = BitVec.ofInt w (a.toNat - b.toNat) := by
  simp [Int.sub_eq_add_neg, BitVec.ofInt_add, BitVec.ofInt_neg, BitVec.sub_eq_add_neg]

theorem mul_eq_ofNat : a * b = BitVec.ofNat w (a.toNat * b.toNat) := by
  simp [BitVec.ofNat_mul]

theorem shiftLeft_eq_ofNat (k : Nat) : a <<< k = BitVec.ofNat w (a.toNat * 2 ^ k) := by
  apply BitVec.eq_of_toNat_eq
  simp [Nat.shiftLeft_eq]

theorem ushiftRight_eq_ofNat (k : Nat) : a >>> k = BitVec.ofNat w (a.toNat / 2 ^ k) := by
  rw [← Nat.shiftRight_eq_div_pow, ← BitVec.toNat_ushiftRight, BitVec.ofNat_toNat, BitVec.setWidth_eq]

theorem sshiftRight_eq_ofInt (k : Nat) : a.sshiftRight k = BitVec.ofInt w (a.toInt / 2 ^ k) := by
  rw [← BitVec.ofInt_toInt (x := a.sshiftRight k), BitVec.toInt_sshiftRight, Int.shiftRight_eq_div_pow]
  norm_cast

theorem ite_slt_eq_min : (if a.slt b then a else b) = BitVec.ofInt w (min a.toInt b.toInt) := by
  split_ifs with h <;> rw [BitVec.slt_iff_toInt_lt] at h
  · rw [min_eq_left h.le, BitVec.ofInt_toInt]
  · rw [min_eq_right (not_lt.mp h), BitVec.ofInt_toInt]

theorem ite_slt_eq_max : (if a.slt b then b else a) = BitVec.ofInt w (max a.toInt b.toInt) := by
  split_ifs with h <;> rw [BitVec.slt_iff_toInt_lt] at h
  · rw [max_eq_right h.le, BitVec.ofInt_toInt]
  · rw [max_eq_left (not_lt.mp h), BitVec.ofInt_toInt]

end Results

-- ===== The obligation =====

/-- Settles O58: each of the eleven is State.scalar with one operation, whose result is the arithmetic of R112. -/
theorem scalarArithmeticWraps : Obligations.ScalarArithmeticWraps := by
  unfold Obligations.ScalarArithmeticWraps
  intro s u f hfetch a b plain
  have hb : (s.opB u f).v = b := State.opB_v s u f
  have hplain : ∀ p ∈ plain, ∃ op g, exec p.1 s = .next (s.scalar u f op 1 g) ∧ g a b = p.2 := by
    simp only [plain, List.forall_mem_cons]
    exact ⟨⟨_, _, rfl, add_eq_ofNat a b⟩, ⟨_, _, rfl, sub_eq_ofInt a b⟩, ⟨_, _, rfl, mul_eq_ofNat a b⟩,
      ⟨_, _, rfl, rfl⟩, ⟨_, _, rfl, rfl⟩, ⟨_, _, rfl, rfl⟩, ⟨_, _, rfl, shiftLeft_eq_ofNat a _⟩,
      ⟨_, _, rfl, ushiftRight_eq_ofNat a _⟩, ⟨_, _, rfl, sshiftRight_eq_ofInt a _⟩, ⟨_, _, rfl, ite_slt_eq_min a b⟩,
      ⟨_, _, rfl, ite_slt_eq_max a b⟩, List.forall_mem_nil _⟩
  refine ⟨fun p hp => ?elevenPlain, fun hlegal => ⟨_, rfl, ?scmp⟩⟩
  case elevenPlain =>
    obtain ⟨op, g, hexec, hval⟩ := hplain p hp
    refine ⟨fun hlegal => ⟨_, hexec, ?legal⟩, fun hmod => ⟨_, hexec, ?reserved⟩⟩
    case legal =>
      rw [← hval, ← hb]
      exact S_scalar_of_legal hfetch hlegal
    case reserved =>
      rw [ctx_scalar_of_reserved hfetch (by omega)]
      exact ⟨rfl, rfl, fun n => rfl⟩
  case scmp =>
    rw [← hb]
    exact (S_scalar_of_legal hfetch hlegal).1

end Sys2Proof.Machine

/-!
HBM across the two kinds of reset (R278, R282, R506): nothing of it reads as written after a cold reset, and nothing of it changes in a warm one;
O59 from them.
-/
namespace Sys2Proof.Machine

open Sys2Proof (Word)

-- ===== Reads of unwritten HBM (R278) =====

section Unwritten

variable {s : State} {a n : Nat}

theorem chunks_lt (fuel a n : Nat) : ∀ c ∈ chunks fuel a n, c.1 < a + n := by
  induction fuel generalizing a n with
  | zero => simp [chunks]
  | succ fuel ih =>
    intro c hc
    simp only [chunks] at hc
    split at hc
    · simp at hc
    · rcases List.mem_cons.1 hc with rfl | hc
      · dsimp only; omega
      · have := ih _ _ c hc; omega

/-- An HBM address is reserved when its kit is retired, and HBM otherwise. -/
theorem region_of_lt_hbmEnd (s : State) (ha : a < hbmEnd) : s.region a = .reserved ∨ s.region a = .hbm := by
  rw [State.region, if_pos ha]
  split
  · exact .inl rfl
  · exact .inr rfl

theorem touchBitmap_of_readable (hwpb : nmem s.mem.wpbUe (a / 262144) = false) : s.touchBitmap a = s := by
  simp [State.touchBitmap, hwpb]

theorem readPage_hbm_unwritten (unit n : Nat) (ha : a < hbmEnd) (hpage : s.mem.isWritten a = false)
    (hwpb : nmem s.mem.wpbUe (a / 262144) = false) : s.readPage unit a n = (s, {}) := by
  rcases region_of_lt_hbmEnd s ha with hr | hr
  · simp [State.readPage, hr]
  · simp [State.readPage, hr, touchBitmap_of_readable hwpb, hpage]

/-- With no page written and every bitmap word readable, a read within HBM answers zero bytes without a mark and changes nothing. -/
theorem readMem_hbm_unwritten (unit : Nat) (han : a + n ≤ hbmEnd) (hwritten : s.mem.written = []) (hwpb : s.mem.wpbUe = []) :
    s.readMem unit a n = (s, {}) := by
  have hlow : hbmEnd < logBase := by decide
  simp only [State.readMem, canon_low s a (by omega)]
  refine List.foldlRecOn (motive := fun q : State × Data => q = (s, {})) _ _ rfl ?step
  rintro _ rfl c hc
  have hread : s.readPage unit c.1 c.2 = (s, {}) :=
    readPage_hbm_unwritten unit c.2 ((chunks_lt _ a n c hc).trans_le han) (by simp [Mem.isWritten, hwritten, nmem]) (by simp [hwpb, nmem])
  simp [hread, Data.join]

end Unwritten

-- ===== Cold reset (R282) =====

section Cold

variable {s : State} {lost : Bool}

@[simp] theorem Mem.written_cold (m : Mem) (lost : Bool) : (m.cold lost).written = [] := by cases lost <;> rfl

@[simp] theorem Mem.wpbUe_cold (m : Mem) (lost : Bool) : (m.cold lost).wpbUe = [] := by cases lost <;> rfl

@[simp] theorem mem_coldReset (s : State) (lost : Bool) : (s.coldReset lost).mem = s.mem.cold lost := rfl

/-- COLD_RESET, an accepted HUB_RESET with KIND = COLD, and a rail out of tolerance are the same reset of the device. -/
theorem exec_cold_eq_coldReset {c : Instr} {i : Nat} {w : Word}
    (hc : c = .coldReset lost ∨ (c = .hubResetCold i w ∧ s.resetWord i w 2 = true) ∨ (c = .fixedRailOutOfTolerance ∧ s.power.gone = false)) :
    ∃ aonLost, exec c s = .next (s.coldReset aonLost) := by
  rcases hc with rfl | ⟨rfl, hword⟩ | ⟨rfl, hgone⟩
  · exact ⟨_, rfl⟩
  · exact ⟨false, by simp [execHubResetCold, hword]⟩
  · exact ⟨false, by simp [execFixedRailOutOfTolerance, hgone]⟩

end Cold

-- ===== What leaves HBM as it is =====

/-- From memory m to m' no written page, no byte and no granule's mark of HBM changes. -/
structure SameHbm (m m' : Mem) : Prop where
  written : m'.written = m.written
  byte : ∀ a < hbmEnd, m'.byteAt a = m.byteAt a
  marks : ∀ g, 32 * g < hbmEnd → nmem m'.poison g = nmem m.poison g

theorem SameHbm.refl (m : Mem) : SameHbm m m := ⟨rfl, fun _ _ => rfl, fun _ _ => rfl⟩

theorem SameHbm.trans {m m' m'' : Mem} (h : SameHbm m m') (h' : SameHbm m' m'') : SameHbm m m'' :=
  ⟨h'.written.trans h.written, fun a ha => (h'.byte a ha).trans (h.byte a ha), fun g hg => (h'.marks g hg).trans (h.marks g hg)⟩

theorem sameHbm_foldl {α : Type} {f : State → α → State} (h : ∀ s x, SameHbm s.mem (f s x).mem) (l : List α) (s : State) :
    SameHbm s.mem (l.foldl f s).mem :=
  List.foldlRecOn (motive := fun t : State => SameHbm s.mem t.mem) l f (.refl _) (fun t ht x _ => ht.trans (h t x))

theorem nmem_ndelRange_of_lt {m : NSet} {lo n k : Nat} (h : k < lo) : nmem (ndelRange m lo n) k = nmem m k := by
  rw [Bool.eq_iff_iff, nmem_iff, nmem_iff, ndelRange, List.mem_filter]
  simp [h]

/-- Zeros written above HBM leave it. -/
theorem sameHbm_zeroRange (s : State) {a : Nat} (n : Nat) (ha : hbmEnd ≤ a) : SameHbm s.mem (s.zeroRange a n).mem := by
  refine ⟨rfl, fun b hb => ?byte, fun g hg => nmem_ndelRange_of_lt ?mark⟩
  case byte =>
    have hcell : mget 0 (s.zeroRange a n).mem.cells b = mget 0 s.mem.cells b :=
      (mget_filter_key 0 s.mem.cells (fun k => decide (k < a) || decide (a + n ≤ k)) b).trans (if_pos (by simp [hb.trans_le ha]))
    rw [Mem.byteAt, hcell]
    rfl
  case mark =>
    rw [hbmEnd] at hg ha
    omega

theorem hbmEnd_le_slotAddr (k d o : Nat) : hbmEnd ≤ slotAddr k d o := by
  rw [hbmEnd, slotAddr, physBase]
  omega

theorem sameHbm_zeroDrum (s : State) (k d : Nat) : SameHbm s.mem (s.zeroDrum k d).mem :=
  (sameHbm_zeroRange s _ (hbmEnd_le_slotAddr k d 0)).trans (sameHbm_zeroRange _ _ (hbmEnd_le_slotAddr k d _))

@[simp] theorem mem_resetRegs (s : State) (k d : Nat) : (s.resetRegs k d).mem = s.mem := rfl

/-- The wipe of a kit reaches skin and scratch alone (R425). -/
theorem sameHbm_wipeKit (s : State) (k : Nat) : SameHbm s.mem (s.wipeKit k).mem := by
  unfold State.wipeKit
  extract_lets x
  rw [State.setKit_mem]
  refine sameHbm_foldl (fun t d => ?_) _ s
  rw [State.setDrum_mem, mem_resetRegs]
  exact sameHbm_zeroDrum t k d

-- ===== Warm reset (R282, R506) =====

@[simp] theorem mem_warmState (s : State) : s.warmState.mem = s.mem := by
  unfold State.warmState
  extract_lets lost t
  have ht : t.mem = s.mem := State.count_mem s _ _ _ _
  clear_value t
  exact ht

/-- Of memory, a warm reset after the fill changes no more than the wipe of pre-empted jobs' kits does (R428). -/
theorem sameHbm_warmReset {s : State} (hfill : s.boot.fillDone = true) : SameHbm s.mem s.warmReset.mem := by
  rw [State.warmReset, if_neg (by simp [hfill])]
  extract_lets hosts kits asserted wiped logged
  have hasserted : asserted.mem = s.mem := (mem_warmState _).trans (mem_portReset s)
  have hwiped : SameHbm asserted.mem wiped.mem := sameHbm_foldl (fun t p => sameHbm_foldl sameHbm_wipeKit (kits p) t) hosts asserted
  have hlogged : logged.mem = wiped.mem := mem_foldl _ (fun t p => by split <;> simp) hosts wiped
  rw [State.setF_mem, hlogged, ← hasserted]
  exact hwiped

theorem exec_hubResetWarm_of_resetWord {s : State} {i : Nat} {w : Word} (hword : s.resetWord i w 1 = true) :
    exec (.hubResetWarm i w) s = .next s.warmReset := by
  simp [execHubResetWarm, hword]

-- ===== The obligation =====

/-- Settles O59: a cold reset leaves no page written, so that every read of HBM is one of unwritten pages, and a warm one leaves HBM as it is. -/
theorem coldResetClearsTheBitmaps : Obligations.ColdResetClearsTheBitmaps := by
  unfold Obligations.ColdResetClearsTheBitmaps
  refine ⟨fun s t c lost i w hc hexec => ?cold, fun s t i w hword hfill hexec => ?warm⟩
  case cold =>
    obtain ⟨aonLost, hcold⟩ := exec_cold_eq_coldReset hc
    obtain rfl : s.coldReset aonLost = t := by simpa [hcold] using hexec
    exact ⟨by simp, fun unit a n han => by rw [readMem_hbm_unwritten unit han (by simp) (by simp)]⟩
  case warm =>
    obtain rfl : s.warmReset = t := by simpa [exec_hubResetWarm_of_resetWord hword] using hexec
    obtain ⟨hwritten, hbyte, hmarks⟩ := sameHbm_warmReset hfill
    exact ⟨hwritten, hbyte, hmarks⟩

end Sys2Proof.Machine

/-!
Every command is carried out (O47), and every command and every nanosecond of time keeps the queue and the canonical form of local memory
(O46): the outcome of each command is a next state, and that state is kept in the sense of Laws/Keep.
-/
namespace Sys2Proof.Machine

open Sys2Proof (CtxId Instr Word CoreAccess)

-- ===== Every command answers a next state =====

/-- The outcome is a next state, neither a fault nor a refusal. -/
def IsNext (o : Answer) : Prop := ∃ t, o = .next t

theorem isNext_next (t : State) : IsNext (.next t) := ⟨t, rfl⟩

theorem isNext_ite {c : Prop} [Decidable c] {x y : Answer} (hx : IsNext x) (hy : IsNext y) : IsNext (if c then x else y) := by
  split <;> assumption

/-- Commands that write a register, and with it give the command that the register has of its own. -/
def writesRegister : Instr → Bool
  | .registerWrite .. | .forwardedWrite .. | .mgmtTransfer .. | .controlCoreAccess .. => true
  | _ => false

/-- Every other command is one next state, or guards and matches around next states. -/
theorem isNext_command (c : Instr) (s : State) (hc : writesRegister c = false) : IsNext (exec c s) := by
  cases c
  all_goals first | exact isNext_next _ | simp only [exec, execRefclkLost, execRailFault, execThermalTrip, execBootRom, execBootVerify, execBootFill, execBootHbm, execBootLink, execBootTempo,
      execBootConfig, execTempoWindowClose, execRegulatorWindow, execLoadDataReturn, execAsyncComplete, execGongArrivalCounted,
      execStepSubmit, execStepStart, execDrumStepStart, execDrumRebindDone, execDrumDone, execStepDone, execStepDeadlineMissed,
      execStepWatchdog, execPrefetchTransferDone, execPrefetchListStart, execLatePrefetch, execCalibStart, execCalibComplete,
      execTempoCalibForced, execRouterTakeToken, execRouterDispatch, execInboxRecordWritten, execRouterDirWrite, execKvTableWrite,
      execKvStageWrite, execKvHeldApply, execKvArmedHandoffApply, execKvPageFlushDone, execKvHandoffSubmit, execKvHandoffLayerDone,
      execKvHandoffClose, execKvDrainDone, execTreeConfigWrite, execRingDoorbell, execRingConfigWrite, execSubmit, execAttach, execCancel,
      execNotice, execQuery, execSubPoliceWrite, execEmitSubmit, execEmitEntryApply, execResponseIssue, execSlotFree, execDiscard,
      execDiscardDone, execAcctLatch, execFlashReadDone, execFlashProgramDone, execFlashEraseDone, execFlashRelocateStart,
      execFlashRelocateCopied, execFlashMapCheckpoint, execFlashMapLoad, execTrnSubmit, execTrnAbort, execTrnEntryActive,
      execTrnWheelRelease, execTrnParcelStart, execTrnParcelAck, execTrnParcelFail, execTrnParcelIncomplete, execTrnParcelReissue,
      execCodecEncodeStart, execCodecEncodeDone, execCodecDecodeStart, execCodecDecodeDone, execFrameReceive, execFrameControl,
      execLinkDown, execFabPendingSend, execFabReqAbandoned, execFabTargetDead, execFabTagRelease, execEgressHoldoffEnd, execSrcIndexWrite,
      execSrcSettle, execPreemptDrainDone, execPreemptSaveDone, execPreemptReturnDone, execPreemptRestoreDone, execScrubAccess,
      execScrubOverdue, execMergeAgeFlush, execScheckRequest, execScheckRun, execScheckEnd, execScheckForced, execObsRetest, execObsAdd,
      execReplay, execOrderRecord, execOrderPacketFetch, execCompareMessage, execPairDiagnosisDone, execHeartbeatSend, execHeartbeat,
      execPairPartnerLost, execPairJoinPassDone, execCcWatchdogKick, execCcHang, execCcRestart, execEventAccept, execEventSpill,
      execLogBankLost, execCfgStagedWrite, execCfgPersistDone, execCfgHoldComplete, execCfgTimeout, execCfgSwitchDone,
      execCfgNorSwitchWritten, execHqCfgWrite, execHqSqDoorbell, execHqCqDoorbell, execServe, execHqCopy, execInstall, execBootWrite,
      execRecover, execHqCommandComplete, execHostWindowAccess, execHostLinkDown, execAttnRaise, execAttnPulseStart, execAttnPulseRelease,
      execAttnRenotify, execEntdaa, execSetdasa, execRstdaa, execGetVersion, execGetCapabilities, execNegotiateAlgorithms, execChallenge,
      execGetMeasurements, execResetRelease, execCcRestarted, execHostPortTrained]
  case registerWrite | forwardedWrite | mgmtTransfer | controlCoreAccess => cases hc
  all_goals (repeat' (with_reducible first | exact isNext_next _ | refine isNext_ite ?_ ?_ | split))

-- ===== Writes of registers =====

theorem isNext_cfgWrite (i : Nat) (w : Word) (s : State) : IsNext (cfgWrite i w s) := by
  unfold cfgWrite
  split
  · exact isNext_command (.cfgOpen i w) s rfl
  · exact isNext_command (.cfgValidate i w) s rfl
  · exact isNext_command (.cfgCommit i w) s rfl
  · exact isNext_command (.cfgAbandon i w) s rfl
  · exact isNext_command (.cfgRollback i w) s rfl
  · exact isNext_command (.cfgCancel i w) s rfl
  · exact isNext_next _

theorem isNext_slotWrite (c : Nat) (w : Word) (s : State) : IsNext (slotWrite c w s) := by
  unfold slotWrite
  split
  · exact isNext_command (.slotRemote c w) s rfl
  · exact isNext_command (.slotPark c w) s rfl
  · exact isNext_command (.slotUnpark c w) s rfl
  · exact isNext_command (.slotSetTally c w) s rfl
  · exact isNext_command (.slotSetTally2 c w) s rfl
  · exact isNext_next _

theorem isNext_preWrite (c : Nat) (w : Word) (s : State) : IsNext (preWrite c w s) := by
  unfold preWrite
  split
  · exact isNext_command (.preemptSave c w) s rfl
  · exact isNext_command (.preemptRestore c w) s rfl
  · exact isNext_command (.preemptAbandon c w) s rfl
  · exact isNext_command (.preemptWithdraw c w) s rfl
  · exact isNext_next _

theorem isNext_ctxWrite (k d : Nat) (w : Word) (s : State) : IsNext (ctxWrite k d w s) := by
  unfold ctxWrite
  split
  · exact isNext_command (.retry k _ w) s rfl
  · exact isNext_command (.skip k _ w) s rfl
  · exact isNext_command (.resumeAt k _ w) s rfl
  · exact isNext_command (.halt k _ w) s rfl
  · exact isNext_next _

theorem isNext_writeReady (i off : Nat) (r : RegName) (j k : Nat) (w : Word) (s : State) : IsNext (writeReady i off r j k w s) := by
  unfold writeReady
  split
  · exact isNext_command (.ccRestart i w) s rfl
  · exact isNext_next _
  · exact isNext_cfgWrite i w s
  · exact isNext_command (.acctLatch j w) s rfl
  · exact isNext_command (.discard j w) s rfl
  · exact isNext_command (.scheckRequest j w) s rfl
  · exact isNext_command (.obsAdd j w) s rfl
  · exact isNext_command (.replay j w) s rfl
  · exact isNext_preWrite j w s
  · exact isNext_command (.trnSubmit j w) s rfl
  · exact isNext_command (.trnAbort j w) s rfl
  · exact isNext_command (.subPoliceWrite i j w) s rfl
  · exact isNext_next _
  · exact isNext_next _
  · exact isNext_slotWrite j w s
  · exact isNext_next _
  · exact isNext_command (.stepSubmit j w) s rfl
  · exact isNext_command (.emitSubmit j w) s rfl
  iterate 4 exact isNext_command (.treeConfigWrite i off w) s rfl
  iterate 2 exact isNext_command (.ringConfigWrite i off w) s rfl
  iterate 2 exact isNext_command (.ringDoorbell i off w) s rfl
  iterate 4 exact isNext_command (.srcIndexWrite i off w) s rfl
  · exact isNext_command (.kvTableWrite i j k w) s rfl
  · exact isNext_next _
  · exact isNext_command (.kvStageWrite i j w) s rfl
  · exact isNext_command (.routerDirWrite i j k w) s rfl
  · exact isNext_ctxWrite j k w s
  · exact isNext_next _

theorem isNext_regWrite (s : State) (i off : Nat) (w : Word) : IsNext (s.regWrite i off w) := by
  unfold State.regWrite
  split
  · exact isNext_next s
  · refine isNext_ite (isNext_next s) ?_
    split
    · exact isNext_ite (isNext_command (.hubResetCold i w) s rfl) (isNext_command (.hubResetWarm i w) s rfl)
    iterate 6 exact isNext_next _
    · exact isNext_command (.hqCfgWrite i _ w) s rfl
    · exact isNext_command (.hqSqDoorbell i _ w []) s rfl
    · exact isNext_command (.hqCqDoorbell i _ w) s rfl
    iterate 2 exact isNext_next _
    · exact isNext_ite (isNext_next s) (isNext_ite (isNext_command (.cfgStagedWrite i _ w) s rfl) (isNext_writeReady ..))

theorem isNext_coreWrite (s : State) (x : CoreAccess) (o : Nat) : IsNext (s.coreWrite x o) := by
  unfold State.coreWrite
  refine isNext_ite (isNext_regWrite ..) (isNext_ite ?_ (isNext_next s))
  split
  · exact isNext_next s
  · exact isNext_ite (isNext_next s) (isNext_regWrite ..)

/-- A write of a register ends in the register's own command, or in the register. -/
theorem isNext_exec (c : Instr) (s : State) : IsNext (exec c s) := by
  cases hc : writesRegister c
  case false => exact isNext_command c s hc
  case true =>
    cases c <;> cases hc
    case registerWrite i off w => exact isNext_ite (isNext_regWrite ..) (isNext_next s)
    case forwardedWrite i off w =>
      refine isNext_ite (isNext_next s) ?_
      obtain ⟨u, hu⟩ := isNext_regWrite { s with pair := { s.pair with applying := true } } i off w
      simp only [hu]
      exact isNext_next _
    case mgmtTransfer m =>
      refine isNext_ite (isNext_next _) (isNext_ite ?_ ?_)
      · exact isNext_ite (isNext_regWrite ..) (isNext_next _)
      · exact isNext_ite (isNext_next _) (isNext_next _)
    case controlCoreAccess x =>
      refine isNext_ite (isNext_next s) (isNext_ite ?_ (isNext_ite (isNext_next _) (isNext_ite (isNext_next _) ?_)))
      · exact isNext_ite (isNext_coreWrite ..) (isNext_ite (isNext_coreWrite ..) (isNext_next _))
      · exact isNext_ite (isNext_next _) (isNext_next _)

-- ===== Every command keeps the queue and canonical memory =====

theorem keepA_exec : ∀ (c : Instr) (s : State), KeepA s (exec c s)
  | .coldReset aonLost, s => keep_execColdReset aonLost s (Keep.refl s)
  | .hubResetCold i w, s => keep_execHubResetCold i w s (Keep.refl s)
  | .hubResetWarm i w, s => keep_execHubResetWarm i w s (Keep.refl s)
  | .warmResetRequest, s => keep_execWarmResetRequest s (Keep.refl s)
  | .refclkLost, s => keep_execRefclkLost s (Keep.refl s)
  | .refclkReturn, s => keep_execRefclkReturn s (Keep.refl s)
  | .powerLoss, s => keep_execPowerLoss s (Keep.refl s)
  | .railFault k, s => keep_execRailFault k s (Keep.refl s)
  | .fixedRailOutOfTolerance, s => keep_execFixedRailOutOfTolerance s (Keep.refl s)
  | .thermalTrip, s => keep_execThermalTrip s (Keep.refl s)
  | .bootRom r, s => keep_execBootRom r s (Keep.refl s)
  | .bootVerify, s => keep_execBootVerify s (Keep.refl s)
  | .bootFill r, s => keep_execBootFill r s (Keep.refl s)
  | .bootHbm failed, s => keep_execBootHbm failed s (Keep.refl s)
  | .bootLink trained, s => keep_execBootLink trained s (Keep.refl s)
  | .bootTempo w, s => keep_execBootTempo w s (Keep.refl s)
  | .bootConfig, s => keep_execBootConfig s (Keep.refl s)
  | .tempoWindowClose w, s => keep_execTempoWindowClose w s (Keep.refl s)
  | .regulatorWindow, s => keep_execRegulatorWindow s (Keep.refl s)
  | .bridgeLinkFail k b, s => keep_execBridgeLinkFail k b s (Keep.refl s)
  | .nop u f, s => keep_execNop u f s (Keep.refl s)
  | .br u f, s => keep_execBr u f s (Keep.refl s)
  | .brc u f, s => keep_execBrc u f s (Keep.refl s)
  | .loop u f, s => keep_execLoop u f s (Keep.refl s)
  | .stop u f, s => keep_execStop u f s (Keep.refl s)
  | .cswrd u f, s => keep_execCswrd u f s (Keep.refl s)
  | .cswclr u f, s => keep_execCswclr u f s (Keep.refl s)
  | .sbind u f, s => keep_execSbind u f s (Keep.refl s)
  | .sadd u f, s => keep_execSadd u f s (Keep.refl s)
  | .ssub u f, s => keep_execSsub u f s (Keep.refl s)
  | .smul u f, s => keep_execSmul u f s (Keep.refl s)
  | .sand u f, s => keep_execSand u f s (Keep.refl s)
  | .sor u f, s => keep_execSor u f s (Keep.refl s)
  | .sxor u f, s => keep_execSxor u f s (Keep.refl s)
  | .sshl u f, s => keep_execSshl u f s (Keep.refl s)
  | .sshr u f, s => keep_execSshr u f s (Keep.refl s)
  | .ssar u f, s => keep_execSsar u f s (Keep.refl s)
  | .smin u f, s => keep_execSmin u f s (Keep.refl s)
  | .smax u f, s => keep_execSmax u f s (Keep.refl s)
  | .scmp u f, s => keep_execScmp u f s (Keep.refl s)
  | .smovi u f, s => keep_execSmovi u f s (Keep.refl s)
  | .xset u f, s => keep_execXset u f s (Keep.refl s)
  | .xadd u f, s => keep_execXadd u f s (Keep.refl s)
  | .xmov u f, s => keep_execXmov u f s (Keep.refl s)
  | .tld u f e, s => keep_execTld u f e s (Keep.refl s)
  | .tst u f, s => keep_execTst u f s (Keep.refl s)
  | .scld u f, s => keep_execScld u f s (Keep.refl s)
  | .scst u f, s => keep_execScst u f s (Keep.refl s)
  | .sld u f, s => keep_execSld u f s (Keep.refl s)
  | .sst u f, s => keep_execSst u f s (Keep.refl s)
  | .ald u f, s => keep_execAld u f s (Keep.refl s)
  | .ast u f, s => keep_execAst u f s (Keep.refl s)
  | .aldt u f, s => keep_execAldt u f s (Keep.refl s)
  | .acpy u f, s => keep_execAcpy u f s (Keep.refl s)
  | .waitf u f, s => keep_execWaitf u f s (Keep.refl s)
  | .waitd u f, s => keep_execWaitd u f s (Keep.refl s)
  | .loadDataReturn u, s => keep_execLoadDataReturn u s (Keep.refl s)
  | .asyncComplete x, s => keep_execAsyncComplete x s (Keep.refl s)
  | .aopen u f, s => keep_execAopen u f s (Keep.refl s)
  | .tmac u f e, s => keep_execTmac u f e s (Keep.refl s)
  | .acomb u f, s => keep_execAcomb u f s (Keep.refl s)
  | .areanc u f, s => keep_execAreanc u f s (Keep.refl s)
  | .aadd u f, s => keep_execAadd u f s (Keep.refl s)
  | .acvt u f, s => keep_execAcvt u f s (Keep.refl s)
  | .acvtmx u f, s => keep_execAcvtmx u f s (Keep.refl s)
  | .vadd u f, s => keep_execVadd u f s (Keep.refl s)
  | .vsub u f, s => keep_execVsub u f s (Keep.refl s)
  | .vmul u f, s => keep_execVmul u f s (Keep.refl s)
  | .vfma u f, s => keep_execVfma u f s (Keep.refl s)
  | .vmin u f, s => keep_execVmin u f s (Keep.refl s)
  | .vmax u f, s => keep_execVmax u f s (Keep.refl s)
  | .vfn u f, s => keep_execVfn u f s (Keep.refl s)
  | .vsmx u f, s => keep_execVsmx u f s (Keep.refl s)
  | .vcvt u f, s => keep_execVcvt u f s (Keep.refl s)
  | .vred u f, s => keep_execVred u f s (Keep.refl s)
  | .vbc u f, s => keep_execVbc u f s (Keep.refl s)
  | .vsel u f, s => keep_execVsel u f s (Keep.refl s)
  | .mset u f, s => keep_execMset u f s (Keep.refl s)
  | .mop u f, s => keep_execMop u f s (Keep.refl s)
  | .mcmp u f, s => keep_execMcmp u f s (Keep.refl s)
  | .causal u f, s => keep_execCausal u f s (Keep.refl s)
  | .causalb u f, s => keep_execCausalb u f s (Keep.refl s)
  | .mpop u f, s => keep_execMpop u f s (Keep.refl s)
  | .spchk u f, s => keep_execSpchk u f s (Keep.refl s)
  | .rdisp u f, s => keep_execRdisp u f s (Keep.refl s)
  | .rrecv u f, s => keep_execRrecv u f s (Keep.refl s)
  | .kvrd u f, s => keep_execKvrd u f s (Keep.refl s)
  | .kvapp u f, s => keep_execKvapp u f s (Keep.refl s)
  | .tpen u f, s => keep_execTpen u f s (Keep.refl s)
  | .topk u f, s => keep_execTopk u f s (Keep.refl s)
  | .draw u f, s => keep_execDraw u f s (Keep.refl s)
  | .tinc u f, s => keep_execTinc u f s (Keep.refl s)
  | .tga u f, s => keep_execTga u f s (Keep.refl s)
  | .gong u f, s => keep_execGong u f s (Keep.refl s)
  | .gongArrivalCounted u, s => keep_execGongArrivalCounted u s (Keep.refl s)
  | .peal u f, s => keep_execPeal u f s (Keep.refl s)
  | .atom u f, s => keep_execAtom u f s (Keep.refl s)
  | .red u f, s => keep_execRed u f s (Keep.refl s)
  | .trig u f, s => keep_execTrig u f s (Keep.refl s)
  | .ptest u f, s => keep_execPtest u f s (Keep.refl s)
  | .pmark u f, s => keep_execPmark u f s (Keep.refl s)
  | .fence u f, s => keep_execFence u f s (Keep.refl s)
  | .retry k n w, s => keep_execRetry k n w s (Keep.refl s)
  | .skip k n w, s => keep_execSkip k n w s (Keep.refl s)
  | .resumeAt k n w, s => keep_execResumeAt k n w s (Keep.refl s)
  | .halt k n w, s => keep_execHalt k n w s (Keep.refl s)
  | .stepSubmit p w, s => keep_execStepSubmit p w s (Keep.refl s)
  | .stepStart p, s => keep_execStepStart p s (Keep.refl s)
  | .drumStepStart k d, s => keep_execDrumStepStart k d s (Keep.refl s)
  | .drumRebindDone k n, s => keep_execDrumRebindDone k n s (Keep.refl s)
  | .drumDone k d, s => keep_execDrumDone k d s (Keep.refl s)
  | .stepDone p, s => keep_execStepDone p s (Keep.refl s)
  | .stepDeadlineMissed p, s => keep_execStepDeadlineMissed p s (Keep.refl s)
  | .stepWatchdog p, s => keep_execStepWatchdog p s (Keep.refl s)
  | .prefetchCopy k d, s => keep_execPrefetchCopy k d s (Keep.refl s)
  | .prefetchScatter k d, s => keep_execPrefetchScatter k d s (Keep.refl s)
  | .prefetchClear k d, s => keep_execPrefetchClear k d s (Keep.refl s)
  | .prefetchWaitw k d, s => keep_execPrefetchWaitw k d s (Keep.refl s)
  | .prefetchEnd k d, s => keep_execPrefetchEnd k d s (Keep.refl s)
  | .prefetchTransferDone x, s => keep_execPrefetchTransferDone x s (Keep.refl s)
  | .prefetchListStart k d, s => keep_execPrefetchListStart k d s (Keep.refl s)
  | .latePrefetch u turns, s => keep_execLatePrefetch u turns s (Keep.refl s)
  | .calibStart k d, s => keep_execCalibStart k d s (Keep.refl s)
  | .calibComplete k d ratio, s => keep_execCalibComplete k d ratio s (Keep.refl s)
  | .tempoCalibForced k d, s => keep_execTempoCalibForced k d s (Keep.refl s)
  | .routerTakeToken k, s => keep_execRouterTakeToken k s (Keep.refl s)
  | .routerDispatch k, s => keep_execRouterDispatch k s (Keep.refl s)
  | .inboxRecordWritten k d, s => keep_execInboxRecordWritten k d s (Keep.refl s)
  | .routerDirWrite i k e w, s => keep_execRouterDirWrite i k e w s (Keep.refl s)
  | .kvTableWrite i slot word w, s => keep_execKvTableWrite i slot word w s (Keep.refl s)
  | .kvStageWrite i k w, s => keep_execKvStageWrite i k w s (Keep.refl s)
  | .kvReserve c w, s => keep_execKvReserve c w s (Keep.refl s)
  | .kvAdmit c w, s => keep_execKvAdmit c w s (Keep.refl s)
  | .kvCommit c w, s => keep_execKvCommit c w s (Keep.refl s)
  | .kvHandoff c w, s => keep_execKvHandoff c w s (Keep.refl s)
  | .kvFlush c w, s => keep_execKvFlush c w s (Keep.refl s)
  | .kvRelease c w, s => keep_execKvRelease c w s (Keep.refl s)
  | .kvForceFree c w, s => keep_execKvForceFree c w s (Keep.refl s)
  | .kvHeldApply p, s => keep_execKvHeldApply p s (Keep.refl s)
  | .kvArmedHandoffApply p l, s => keep_execKvArmedHandoffApply p l s (Keep.refl s)
  | .kvPageFlushDone k page, s => keep_execKvPageFlushDone k page s (Keep.refl s)
  | .kvHandoffSubmit slot layer, s => keep_execKvHandoffSubmit slot layer s (Keep.refl s)
  | .kvHandoffLayerDone slot layer, s => keep_execKvHandoffLayerDone slot layer s (Keep.refl s)
  | .kvHandoffClose slot, s => keep_execKvHandoffClose slot s (Keep.refl s)
  | .kvDrainDone slot, s => keep_execKvDrainDone slot s (Keep.refl s)
  | .treeConfigWrite i off w, s => keep_execTreeConfigWrite i off w s (Keep.refl s)
  | .ringDoorbell i off w, s => keep_execRingDoorbell i off w s (Keep.refl s)
  | .ringConfigWrite i off w, s => keep_execRingConfigWrite i off w s (Keep.refl s)
  | .pwLookup w, s => keep_execPwLookup w s (Keep.refl s)
  | .pwInsert w, s => keep_execPwInsert w s (Keep.refl s)
  | .pwDelete w, s => keep_execPwDelete w s (Keep.refl s)
  | .pwCommit w, s => keep_execPwCommit w s (Keep.refl s)
  | .pwUnlink w, s => keep_execPwUnlink w s (Keep.refl s)
  | .pwRelease w, s => keep_execPwRelease w s (Keep.refl s)
  | .submit p, s => keep_execSubmit p s (Keep.refl s)
  | .attach p, s => keep_execAttach p s (Keep.refl s)
  | .cancel p, s => keep_execCancel p s (Keep.refl s)
  | .notice p, s => keep_execNotice p s (Keep.refl s)
  | .query p, s => keep_execQuery p s (Keep.refl s)
  | .subPoliceWrite i sub w, s => keep_execSubPoliceWrite i sub w s (Keep.refl s)
  | .slotRemote c w, s => keep_execSlotRemote c w s (Keep.refl s)
  | .slotPark c w, s => keep_execSlotPark c w s (Keep.refl s)
  | .slotUnpark c w, s => keep_execSlotUnpark c w s (Keep.refl s)
  | .slotSetTally c w, s => keep_execSlotSetTally c w s (Keep.refl s)
  | .slotSetTally2 c w, s => keep_execSlotSetTally2 c w s (Keep.refl s)
  | .emitSubmit p w, s => keep_execEmitSubmit p w s (Keep.refl s)
  | .emitEntryApply p, s => keep_execEmitEntryApply p s (Keep.refl s)
  | .responseIssue slot, s => keep_execResponseIssue slot s (Keep.refl s)
  | .slotFree slot, s => keep_execSlotFree slot s (Keep.refl s)
  | .discard c w, s => keep_execDiscard c w s (Keep.refl s)
  | .discardDone c, s => keep_execDiscardDone c s (Keep.refl s)
  | .acctLatch c w, s => keep_execAcctLatch c w s (Keep.refl s)
  | .flashReadDone r, s => keep_execFlashReadDone r s (Keep.refl s)
  | .flashProgramDone r, s => keep_execFlashProgramDone r s (Keep.refl s)
  | .flashEraseDone block ok, s => keep_execFlashEraseDone block ok s (Keep.refl s)
  | .flashReclaim r, s => keep_execFlashReclaim r s (Keep.refl s)
  | .flashRelocateStart src dst, s => keep_execFlashRelocateStart src dst s (Keep.refl s)
  | .flashRelocateCopied src, s => keep_execFlashRelocateCopied src s (Keep.refl s)
  | .flashMapCheckpoint, s => keep_execFlashMapCheckpoint s (Keep.refl s)
  | .flashMapLoad, s => keep_execFlashMapLoad s (Keep.refl s)
  | .trnSubmit c w, s => keep_execTrnSubmit c w s (Keep.refl s)
  | .trnAbort c w, s => keep_execTrnAbort c w s (Keep.refl s)
  | .trnEntryActive p q, s => keep_execTrnEntryActive p q s (Keep.refl s)
  | .trnWheelRelease x, s => keep_execTrnWheelRelease x s (Keep.refl s)
  | .trnFarScan, s => keep_execTrnFarScan s (Keep.refl s)
  | .trnParcelStart x, s => keep_execTrnParcelStart x s (Keep.refl s)
  | .trnParcelAck x, s => keep_execTrnParcelAck x s (Keep.refl s)
  | .trnParcelFail x code, s => keep_execTrnParcelFail x code s (Keep.refl s)
  | .trnParcelIncomplete src tag, s => keep_execTrnParcelIncomplete src tag s (Keep.refl s)
  | .trnParcelReissue x, s => keep_execTrnParcelReissue x s (Keep.refl s)
  | .codecEncodeStart x, s => keep_execCodecEncodeStart x s (Keep.refl s)
  | .codecEncodeDone x, s => keep_execCodecEncodeDone x s (Keep.refl s)
  | .codecDecodeStart src tag, s => keep_execCodecDecodeStart src tag s (Keep.refl s)
  | .codecDecodeDone src tag, s => keep_execCodecDecodeDone src tag s (Keep.refl s)
  | .frameReceive link f corrected bad, s => keep_execFrameReceive link f corrected bad s (Keep.refl s)
  | .frameControl link c, s => keep_execFrameControl link c s (Keep.refl s)
  | .linkDown link cause, s => keep_execLinkDown link cause s (Keep.refl s)
  | .linkTrained link width, s => keep_execLinkTrained link width s (Keep.refl s)
  | .fabLoad p, s => keep_execFabLoad p s (Keep.refl s)
  | .fabStore p, s => keep_execFabStore p s (Keep.refl s)
  | .fabStorem p, s => keep_execFabStorem p s (Keep.refl s)
  | .fabPeal p, s => keep_execFabPeal p s (Keep.refl s)
  | .fabAtomic p, s => keep_execFabAtomic p s (Keep.refl s)
  | .fabRed p, s => keep_execFabRed p s (Keep.refl s)
  | .fabFence p, s => keep_execFabFence p s (Keep.refl s)
  | .fabGongArrive p, s => keep_execFabGongArrive p s (Keep.refl s)
  | .fabGongSound p, s => keep_execFabGongSound p s (Keep.refl s)
  | .fabTaint p, s => keep_execFabTaint p s (Keep.refl s)
  | .fabParcel p, s => keep_execFabParcel p s (Keep.refl s)
  | .fabParcelEnd p, s => keep_execFabParcelEnd p s (Keep.refl s)
  | .fabCparcel p, s => keep_execFabCparcel p s (Keep.refl s)
  | .fabCparcelEnd p, s => keep_execFabCparcelEnd p s (Keep.refl s)
  | .fabRsp p, s => keep_execFabRsp p s (Keep.refl s)
  | .fabPending p, s => keep_execFabPending p s (Keep.refl s)
  | .fabPendingSend src tag, s => keep_execFabPendingSend src tag s (Keep.refl s)
  | .fabReqAbandoned src tag, s => keep_execFabReqAbandoned src tag s (Keep.refl s)
  | .fabTargetDead node tag, s => keep_execFabTargetDead node tag s (Keep.refl s)
  | .fabTagRelease node tag, s => keep_execFabTagRelease node tag s (Keep.refl s)
  | .egressHoldoffEnd n, s => keep_execEgressHoldoffEnd n s (Keep.refl s)
  | .srcIndexWrite i off w, s => keep_execSrcIndexWrite i off w s (Keep.refl s)
  | .srcSearch i, s => keep_execSrcSearch i s (Keep.refl s)
  | .srcInsert i, s => keep_execSrcInsert i s (Keep.refl s)
  | .srcSetlist i, s => keep_execSrcSetlist i s (Keep.refl s)
  | .srcDelete i, s => keep_execSrcDelete i s (Keep.refl s)
  | .srcCommit i, s => keep_execSrcCommit i s (Keep.refl s)
  | .srcRelease i, s => keep_execSrcRelease i s (Keep.refl s)
  | .srcSettle i, s => keep_execSrcSettle i s (Keep.refl s)
  | .preemptSave c w, s => keep_execPreemptSave c w s (Keep.refl s)
  | .preemptRestore c w, s => keep_execPreemptRestore c w s (Keep.refl s)
  | .preemptAbandon c w, s => keep_execPreemptAbandon c w s (Keep.refl s)
  | .preemptWithdraw c w, s => keep_execPreemptWithdraw c w s (Keep.refl s)
  | .preemptDrainDone p, s => keep_execPreemptDrainDone p s (Keep.refl s)
  | .preemptSaveDone p, s => keep_execPreemptSaveDone p s (Keep.refl s)
  | .preemptReturnDone p, s => keep_execPreemptReturnDone p s (Keep.refl s)
  | .preemptRestoreDone p, s => keep_execPreemptRestoreDone p s (Keep.refl s)
  | .scrubAccess u e, s => keep_execScrubAccess u e s (Keep.refl s)
  | .scrubOverdue u, s => keep_execScrubOverdue u s (Keep.refl s)
  | .mergeAgeFlush k d line, s => keep_execMergeAgeFlush k d line s (Keep.refl s)
  | .scheckRequest c w, s => keep_execScheckRequest c w s (Keep.refl s)
  | .scheckRun c, s => keep_execScheckRun c s (Keep.refl s)
  | .scheckEnd c r, s => keep_execScheckEnd c r s (Keep.refl s)
  | .scheckForced c, s => keep_execScheckForced c s (Keep.refl s)
  | .obsRetest e, s => keep_execObsRetest e s (Keep.refl s)
  | .obsAdd c w, s => keep_execObsAdd c w s (Keep.refl s)
  | .kitRetire k, s => keep_execKitRetire k s (Keep.refl s)
  | .replay c w, s => keep_execReplay c w s (Keep.refl s)
  | .orderRecord r, s => keep_execOrderRecord r s (Keep.refl s)
  | .orderPacketFetch p, s => keep_execOrderPacketFetch p s (Keep.refl s)
  | .forwardedWrite i off w, s => keep_execForwardedWrite i off w s (Keep.refl s)
  | .compareMessage m, s => keep_execCompareMessage m s (Keep.refl s)
  | .pairDiagnosisDone p outcome, s => keep_execPairDiagnosisDone p outcome s (Keep.refl s)
  | .heartbeatSend, s => keep_execHeartbeatSend s (Keep.refl s)
  | .heartbeat link, s => keep_execHeartbeat link s (Keep.refl s)
  | .pairPartnerLost, s => keep_execPairPartnerLost s (Keep.refl s)
  | .pairJoinPassDone p left kits, s => keep_execPairJoinPassDone p left kits s (Keep.refl s)
  | .ccWatchdogKick i c w, s => keep_execCcWatchdogKick i c w s (Keep.refl s)
  | .ccHang c, s => keep_execCcHang c s (Keep.refl s)
  | .ccRestart i w, s => keep_execCcRestart i w s (Keep.refl s)
  | .eventAccept src, s => keep_execEventAccept src s (Keep.refl s)
  | .eventSpill, s => keep_execEventSpill s (Keep.refl s)
  | .evtWindowLatch i, s => keep_execEvtWindowLatch i s (Keep.refl s)
  | .logBankLost bank cause, s => keep_execLogBankLost bank cause s (Keep.refl s)
  | .cfgOpen i w, s => keep_execCfgOpen i w s (Keep.refl s)
  | .cfgStagedWrite i off w, s => keep_execCfgStagedWrite i off w s (Keep.refl s)
  | .cfgValidate i w, s => keep_execCfgValidate i w s (Keep.refl s)
  | .cfgCommit i w, s => keep_execCfgCommit i w s (Keep.refl s)
  | .cfgAbandon i w, s => keep_execCfgAbandon i w s (Keep.refl s)
  | .cfgRollback i w, s => keep_execCfgRollback i w s (Keep.refl s)
  | .cfgCancel i w, s => keep_execCfgCancel i w s (Keep.refl s)
  | .cfgPersistDone ok, s => keep_execCfgPersistDone ok s (Keep.refl s)
  | .cfgHoldComplete, s => keep_execCfgHoldComplete s (Keep.refl s)
  | .cfgTimeout, s => keep_execCfgTimeout s (Keep.refl s)
  | .cfgSwitchDone, s => keep_execCfgSwitchDone s (Keep.refl s)
  | .cfgNorSwitchWritten, s => keep_execCfgNorSwitchWritten s (Keep.refl s)
  | .hqCfgWrite i q w, s => keep_execHqCfgWrite i q w s (Keep.refl s)
  | .hqSqDoorbell i q w es, s => keep_execHqSqDoorbell i q w es s (Keep.refl s)
  | .hqCqDoorbell i q w, s => keep_execHqCqDoorbell i q w s (Keep.refl s)
  | .serve q d, s => keep_execServe q d s (Keep.refl s)
  | .hqCopy q d, s => keep_execHqCopy q d s (Keep.refl s)
  | .install q d, s => keep_execInstall q d s (Keep.refl s)
  | .bootWrite q d, s => keep_execBootWrite q d s (Keep.refl s)
  | .recover q d, s => keep_execRecover q d s (Keep.refl s)
  | .hqCommandComplete q, s => keep_execHqCommandComplete q s (Keep.refl s)
  | .hostWindowAccess a, s => keep_execHostWindowAccess a s (Keep.refl s)
  | .hostPerst, s => keep_execHostPerst s (Keep.refl s)
  | .hostLinkDown, s => keep_execHostLinkDown s (Keep.refl s)
  | .attnRaise i w, s => keep_execAttnRaise i w s (Keep.refl s)
  | .attnPulseStart, s => keep_execAttnPulseStart s (Keep.refl s)
  | .attnPulseRelease, s => keep_execAttnPulseRelease s (Keep.refl s)
  | .attnRenotify, s => keep_execAttnRenotify s (Keep.refl s)
  | .mgmtTransfer m, s => keep_execMgmtTransfer m s (Keep.refl s)
  | .entdaa a, s => keep_execEntdaa a s (Keep.refl s)
  | .setdasa static a, s => keep_execSetdasa static a s (Keep.refl s)
  | .rstdaa, s => keep_execRstdaa s (Keep.refl s)
  | .getpid, s => keep_execGetpid s (Keep.refl s)
  | .getbcr, s => keep_execGetbcr s (Keep.refl s)
  | .getdcr, s => keep_execGetdcr s (Keep.refl s)
  | .getstatus, s => keep_execGetstatus s (Keep.refl s)
  | .doeDiscovery r, s => keep_execDoeDiscovery r s (Keep.refl s)
  | .getVersion r, s => keep_execGetVersion r s (Keep.refl s)
  | .getCapabilities r, s => keep_execGetCapabilities r s (Keep.refl s)
  | .negotiateAlgorithms r, s => keep_execNegotiateAlgorithms r s (Keep.refl s)
  | .getDigests r, s => keep_execGetDigests r s (Keep.refl s)
  | .getCertificate r, s => keep_execGetCertificate r s (Keep.refl s)
  | .challenge r, s => keep_execChallenge r s (Keep.refl s)
  | .getMeasurements r, s => keep_execGetMeasurements r s (Keep.refl s)
  | .rcRead i off wide, s => keep_execRcRead i off wide s (Keep.refl s)
  | .halfReadLatch i off, s => keep_execHalfReadLatch i off s (Keep.refl s)
  | .registerWrite i off w, s => keep_execRegisterWrite i off w s (Keep.refl s)
  | .resetRelease node defaultN, s => keep_execResetRelease node defaultN s (Keep.refl s)
  | .ccRestarted c, s => keep_execCcRestarted c s (Keep.refl s)
  | .hostPortTrained, s => keep_execHostPortTrained s (Keep.refl s)
  | .controlCoreAccess a, s => keep_execControlCoreAccess a s (Keep.refl s)

/-- The state that a command answers. -/
theorem keep_of_exec {c : Instr} {s t : State} (h : exec c s = .next t) : Keep s t := by
  have hkeep := keepA_exec c s
  rwa [h] at hkeep

-- ===== The obligations =====

/-- Settles O47: the outcome is a next state, and Keep holds of it. -/
theorem commandsAreCarriedOut : Obligations.CommandsAreCarriedOut := by
  unfold Obligations.CommandsAreCarriedOut
  intro c s
  obtain ⟨t, ht⟩ := isNext_exec c s
  exact ⟨t, ht, (keep_of_exec ht).queue⟩

/-- Settles O46: with the queue empty by what a nanosecond keeps, otherwise by what the front command keeps. -/
theorem stepsKeepMemoryCanonical : Obligations.StepsKeepMemoryCanonical := by
  unfold Obligations.StepsKeepMemoryCanonical
  intro s t hwf hstep
  unfold step at hstep
  split at hstep
  · cases hstep
    exact (keep_State_tick s (Keep.refl s)).mem hwf
  · exact (keep_of_exec hstep).mem hwf

end Sys2Proof.Machine

/-!
Registers by their access codes and at reset, and the memory of the reset state (R12, R13, R504): one induction over a register's fields says
what a write, a read and a clearing read leave of each, and O48, O49 and O45 follow.
-/
namespace Sys2Proof.Machine

-- ===== Fields of a word (R12) =====

theorem Fld.of_lt (f : Fld) (w : BitVec 64) : f.of w < 2 ^ f.width := Nat.mod_lt _ (Nat.two_pow_pos _)

theorem Fld.of_zero (f : Fld) : f.of 0#64 = 0 := by simp [Fld.of]

theorem Fld.apart_comm (f g : Fld) : f.apart g = g.apart f := Bool.or_comm _ _

theorem Fld.of_put_apart {f g : Fld} (w : BitVec 64) (v : Nat) (h : g.apart f = true) : f.of (g.put w v) = f.of w := by
  have h' : g.lo + g.width ≤ f.lo ∨ f.lo + f.width ≤ g.lo := by simpa [Fld.apart] using h
  exact Fld.of_put_ne f g w v h'.symm

/-- A bit outside a field keeps its value when the field is written. -/
theorem Fld.getLsbD_put_outside {g : Fld} {n : Nat} (w : BitVec 64) (v : Nat) (h : n < g.lo ∨ g.lo + g.width ≤ n) :
    (g.put w v).getLsbD n = w.getLsbD n := by
  have hout : ¬ (g.lo ≤ n ∧ n < g.lo + g.width) := by omega
  by_cases hn : n < 64
  · rw [Fld.put, BitVec.getLsbD_ofNat, testBit_setBits, if_neg hout, decide_eq_true hn, Bool.true_and]
    rfl
  · rw [BitVec.getLsbD_of_ge _ _ (by omega), BitVec.getLsbD_of_ge _ _ (by omega)]

/-- Fields that lie in a word of 64 bits and share no bit. -/
structure FieldsApart (fs : List Fld) : Prop where
  apart : fs.Pairwise (fun f g => f.apart g = true)
  inWord : ∀ f ∈ fs, f.lo + f.width ≤ 64

theorem FieldsApart.tail {g : Fld} {fs : List Fld} (h : FieldsApart (g :: fs)) : FieldsApart fs :=
  ⟨(List.pairwise_cons.mp h.apart).2, fun f hf => h.inWord f (List.mem_cons_of_mem g hf)⟩

/-- The word h fs is the word base in which each field f of fs has the value v f: it is put there, or stands there already. -/
structure PutsFields (h : List Fld → BitVec 64) (base : BitVec 64) (v : Fld → Nat) : Prop where
  nil : h [] = base
  cons : ∀ g fs, h (g :: fs) = g.put (h fs) (v g) ∨ h (g :: fs) = h fs ∧ v g = g.of base
  fits : ∀ g, v g < 2 ^ g.width

section PutsFields

variable {h : List Fld → BitVec 64} {base : BitVec 64} {v : Fld → Nat} {fs : List Fld}

theorem PutsFields.of_apart (hp : PutsFields h base v) {f : Fld} (hf : ∀ g ∈ fs, g.apart f = true) : f.of (h fs) = f.of base := by
  induction fs with
  | nil => rw [hp.nil]
  | cons g fs ih =>
    have hrest := ih (fun x hx => hf x (List.mem_cons_of_mem g hx))
    rcases hp.cons g fs with hput | ⟨hskip, -⟩
    · rw [hput, Fld.of_put_apart _ _ (hf g List.mem_cons_self), hrest]
    · rw [hskip, hrest]

theorem PutsFields.of_mem (hp : PutsFields h base v) (hfs : FieldsApart fs) {f : Fld} (hf : f ∈ fs) : f.of (h fs) = v f := by
  induction fs with
  | nil => cases hf
  | cons g fs ih =>
    obtain ⟨hhead, -⟩ := List.pairwise_cons.mp hfs.apart
    rcases hp.cons g fs with hput | ⟨hskip, hstands⟩ <;> rcases List.mem_cons.mp hf with rfl | hmem
    · rw [hput, Fld.of_put _ _ _ (hfs.inWord f hf), Nat.mod_eq_of_lt (hp.fits f)]
    · rw [hput, Fld.of_put_apart _ _ (hhead f hmem), ih hfs.tail hmem]
    · rw [hskip, hp.of_apart (fun x hx => by rw [Fld.apart_comm]; exact hhead x hx), hstands]
    · rw [hskip, ih hfs.tail hmem]

theorem PutsFields.getLsbD_outside (hp : PutsFields h base v) {n : Nat} (hn : ∀ g ∈ fs, n < g.lo ∨ g.lo + g.width ≤ n) :
    (h fs).getLsbD n = base.getLsbD n := by
  induction fs with
  | nil => rw [hp.nil]
  | cons g fs ih =>
    have hrest := ih (fun x hx => hn x (List.mem_cons_of_mem g hx))
    rcases hp.cons g fs with hput | ⟨hskip, -⟩
    · rw [hput, Fld.getLsbD_put_outside _ _ (hn g List.mem_cons_self), hrest]
    · rw [hskip, hrest]

end PutsFields

/-- The value of a field after a software write (R12). -/
def Fld.written (f : Fld) (old w : BitVec 64) : Nat :=
  match f.acc with
  | .rw => f.of w
  | .w1c => f.of old &&& (2 ^ f.width - 1 - f.of w)
  | .w1s => f.of old ||| f.of w
  | _ => f.of old

/-- The value of a field in a read (R12). -/
def Fld.shown (f : Fld) (w : BitVec 64) : Nat := if f.acc = .wo then 0 else f.of w

/-- The value of a field after a read that clears (R14). -/
def Fld.cleared (f : Fld) (w : BitVec 64) : Nat := if f.acc = .rc then 0 else f.of w

theorem putsFields_writeFields (old w : BitVec 64) : PutsFields (fun fs => writeFields fs old w) old (fun f => f.written old w) where
  nil := rfl
  cons g fs := by cases hacc : g.acc <;> simp [writeFields, Fld.written, hacc]
  fits g := by
    unfold Fld.written
    split
    · exact g.of_lt w
    · exact Nat.and_lt_two_pow _ (by have := Nat.two_pow_pos g.width; omega)
    · exact Nat.or_lt_two_pow (g.of_lt old) (g.of_lt w)
    · exact g.of_lt old

theorem putsFields_readFields (w : BitVec 64) : PutsFields (fun fs => readFields fs w) 0 (fun f => f.shown w) where
  nil := rfl
  cons g fs := by cases hacc : g.acc <;> simp [readFields, Fld.shown, hacc, Fld.of_zero]
  fits g := by
    unfold Fld.shown
    split
    · exact Nat.two_pow_pos _
    · exact g.of_lt w

theorem putsFields_clearRc (w : BitVec 64) : PutsFields (fun fs => clearRc fs w) w (fun f => f.cleared w) where
  nil := rfl
  cons g fs := by cases hacc : g.acc <;> simp [clearRc, Fld.cleared, hacc]
  fits g := by
    unfold Fld.cleared
    split
    · exact Nat.two_pow_pos _
    · exact g.of_lt w

/-- A one written to a W1C field clears its bit. -/
theorem testBit_w1c (f : Fld) (old w : BitVec 64) (n : Nat) :
    (f.of old &&& (2 ^ f.width - 1 - f.of w)).testBit n = ((f.of old).testBit n && !(f.of w).testBit n) := by
  rw [Nat.testBit_and, show 2 ^ f.width - 1 - f.of w = 2 ^ f.width - (f.of w + 1) by omega, Nat.testBit_two_pow_sub_succ (f.of_lt w)]
  by_cases hn : n < f.width
  · simp [hn]
  · have hzero : (f.of old).testBit n = false :=
      Nat.testBit_lt_two_pow ((f.of_lt old).trans_le (Nat.pow_le_pow_right (by omega) (by omega)))
    simp [hzero]

-- ===== The register tables =====

/-- Every field names its register and is at least one bit wide, and the fields of a register share no bit of its word. -/
theorem fields_table (r : RegName) :
    r.fields.Pairwise (fun f g => f.apart g = true) ∧ ∀ f ∈ r.fields, f.reg = r ∧ 0 < f.width ∧ f.lo + f.width ≤ 64 := by
  cases r <;> decide

theorem fieldsApart (r : RegName) : FieldsApart r.fields :=
  ⟨(fields_table r).1, fun f hf => ((fields_table r).2 f hf).2.2⟩

/-- In the reset word of its register each field has the reset value of its table. -/
theorem of_fieldsReset (r : RegName) : ∀ f ∈ r.fields, f.of (BitVec.ofNat 64 (fieldsReset r.fields)) = f.reset := by
  cases r <;> decide

@[simp] theorem rg_reset (r : RegName) (i j : Nat) : State.reset.rg r i j = r.resetWord i j := rfl

-- ===== The obligations =====

/-- Settles O48, from the three words that PutsFields describes. -/
theorem registerFieldsFollowAccessCodes : Obligations.RegisterFieldsFollowAccessCodes := by
  unfold Obligations.RegisterFieldsFollowAccessCodes
  intro r
  refine ⟨(fields_table r).1, fun f hf => ?_⟩
  obtain ⟨hreg, hwidth, hword⟩ := (fields_table r).2 f hf
  refine ⟨hreg, hwidth, hword, fun old w => ?_⟩
  have hwrite : f.of (writeFields r.fields old w) = f.written old w := (putsFields_writeFields old w).of_mem (fieldsApart r) hf
  have hread : f.of (readFields r.fields old) = f.shown old := (putsFields_readFields old).of_mem (fieldsApart r) hf
  have hclear : f.of (clearRc r.fields old) = f.cleared old := (putsFields_clearRc old).of_mem (fieldsApart r) hf
  rw [hwrite, hread, hclear]
  refine ⟨fun hrw => ?_, fun hw1c n => ?_, fun hw1s n => ?_, fun hkeep => ?_, fun hnwo => if_neg hnwo, fun hwo => if_pos hwo,
    fun hrc => if_pos hrc, fun hnrc => if_neg hnrc, fun n hn => ⟨?_, ?_⟩⟩
  · simp [Fld.written, hrw]
  · simp only [Fld.written, hw1c, testBit_w1c]
  · simp [Fld.written, hw1s]
  · rcases hkeep with hro | hrc
    · simp [Fld.written, hro]
    · simp [Fld.written, hrc]
  · have := (putsFields_readFields old).getLsbD_outside hn
    simpa using this
  · exact (putsFields_writeFields old w).getLsbD_outside hn

/-- Settles O49: nothing is listed at reset, so that every register reads its reset word. -/
theorem registersAtReset : Obligations.RegistersAtReset := by
  unfold Obligations.RegistersAtReset
  refine ⟨fun r i j hne f hf => ?_, fun n _ => ?_⟩
  · rw [State.f, ((fields_table r).2 f hf).1, rg_reset, RegName.resetWord, if_neg hne, of_fieldsReset r f hf]
  · rw [rg_reset, RegName.resetWord, if_pos rfl]

/-- Settles O45: the memory of the reset state lists nothing. -/
theorem resetMemoryIsCanonical : Obligations.ResetMemoryIsCanonical := by
  unfold Obligations.ResetMemoryIsCanonical
  refine ⟨by decide, fun a => ?_, fun a => rfl, fun g => rfl, rfl, rfl, rfl⟩
  unfold Mem.byteAt
  split <;> rfl

end Sys2Proof.Machine

/-!
What a fetch and the register instructions leave (R102, R144; O50, O51), and what a step does (O44).
-/
namespace Sys2Proof.Machine

open Sys2Proof (CtxId Fields Instr)

-- ===== The step (O44) =====

theorem foldl_fixed {α β : Type} {f : β → α → β} {b : β} {l : List α} (h : ∀ x ∈ l, f b x = b) : l.foldl f b = b := by
  induction l with
  | nil => rfl
  | cons x l ih =>
    rw [List.foldl_cons, h x List.mem_cons_self]
    exact ih (fun y hy => h y (List.mem_cons_of_mem x hy))

@[simp] theorem part_setF (s : State) (f : Fld) (i j v q : Nat) : (s.setF f i j v).part q = s.part q := rfl

/-- The step state of a partition lies apart from HUB_TIME. -/
@[simp] theorem stepState_setTime (s : State) (v p : Nat) : (s.setF F.HUB_TIME_NS 0 0 v).stepState p = s.stepState p := by
  refine State.f_setF_off s F.PAR_STEP_STATUS_STATE F.HUB_TIME_NS 0 0 p 0 v ?_
  simp only [RegName.off, RegName.info, F.PAR_STEP_STATUS_STATE, F.HUB_TIME_NS]
  omega

/-- A partition with no step in hand and no save to evaluate spends a nanosecond unchanged. -/
theorem tickPart_idle {s : State} {p : Nat} (hrun : s.stepState p ≠ stRunning) (hstop : s.stepState p ≠ stStopping)
    (hboundary : (s.part p).pre.boundary = false) : s.tickPart p = s := by
  have hsettle : s.settleBoundary p = s := if_pos (.inl hboundary)
  simp [State.tickPart, hsettle, hrun, hstop]

theorem tick_halted {s : State} (h : s.power.gone = true ∨ s.boot.resetHeld = true) : s.tick = s :=
  if_pos (by simpa using h)

theorem tick_idle {s : State} (hgone : s.power.gone = false) (hheld : s.boot.resetHeld = false)
    (hidle : ∀ p < 8, s.stepState p ≠ stRunning ∧ s.stepState p ≠ stStopping ∧ (s.part p).pre.boundary = false) :
    s.tick = ((s.setF F.HUB_TIME_NS 0 0 (s.time + 1)).settlePair.pumpFabric).settleJobs := by
  have hparts : (List.range 8).foldl (fun s p => s.tickPart p) (s.setF F.HUB_TIME_NS 0 0 (s.time + 1)) =
      s.setF F.HUB_TIME_NS 0 0 (s.time + 1) :=
    foldl_fixed (fun p hp => by
      obtain ⟨hrun, hstop, hboundary⟩ := hidle p (List.mem_range.mp hp)
      exact tickPart_idle (by simpa using hrun) (by simpa using hstop) (by simpa using hboundary))
  simp only [State.tick, hgone, hheld, Bool.or_self, Bool.false_eq_true, if_false, hparts]

theorem step_of_empty {s : State} (h : s.pending = []) : step s = .next s.tick := by
  unfold step
  rw [h]

/-- Settles O44: the queue decides between the front command and a nanosecond, and the partitions' steps what the nanosecond does. -/
theorem stepRunsTheFrontCommand : Obligations.StepRunsTheFrontCommand := by
  unfold Obligations.StepRunsTheFrontCommand
  refine ⟨fun s c rest h => ?front, fun s h => step_of_empty h, fun s h hstill => ?still, fun s h hgone hheld hidle => ?idle⟩
  case front =>
    unfold step
    rw [h]
  case still => rw [step_of_empty h, tick_halted hstill]
  case idle => rw [step_of_empty h, tick_idle hgone hheld hidle]

-- ===== The fetch (O50) =====

/-- Canonical memory with a readable bitmap word. -/
theorem clear_of_wf {s : State} {b : Nat} (hwf : Memory.wf s.mem = true) (hwpb : nmem s.mem.wpbUe (b / 262144) = false) : Clear b s :=
  ⟨((memory_wf_iff _).mp hwf).1, hwpb⟩

/-- Settles O50, from what reading memory never changes and the bytes that a read leaves. -/
theorem fetchLeavesTheMachine : Obligations.FetchLeavesTheMachine := by
  unfold Obligations.FetchLeavesTheMachine
  intro s u
  have h := still_fetched s u
  exact ⟨h.mallets, h.kits, h.parts, h.fab, h.xfers, h.pair, h.pending,
    fun b hwf hwpb => (leaves_fetched b s u).byte (clear_of_wf hwf hwpb)⟩

-- ===== Register instructions (O51) =====

/-- From c to d a context keeps every register but S[sd] and X[xd], and its status flags if keep holds. -/
structure CtxKeeps (sd xd : Option Nat) (keep : Prop) (c d : Ctx) : Prop where
  S : ∀ n, sd ≠ some n → d.S n = c.S n
  X : ∀ n, xd ≠ some n → d.X n = c.X n
  m : d.m = c.m
  af : d.af = c.af
  bind : d.bind = c.bind
  rot : d.rot = c.rot
  posted : d.posted = c.posted
  flags : keep → d.accOvf = c.accOvf ∧ d.accInv = c.accInv ∧ d.cnvOvf = c.cnvOvf ∧ d.vecInv = c.vecInv

/-- From s to t nothing of the machine changes but context u, which keeps what CtxKeeps says, and what is logged and counted. -/
structure RegisterFrame (u : CtxId) (sd xd : Option Nat) (keep : Prop) (s t : State) : Prop where
  bytes : ∀ b, Leaves b s t
  kits : t.kits = s.kits
  parts : t.parts = s.parts
  fab : t.fab = s.fab
  xfers : t.xfers = s.xfers
  pair : t.pair = s.pair
  pending : t.pending = s.pending
  others : ∀ w : CtxId, malletKey w.kit w.drum w.mallet ≠ malletKey u.kit u.drum u.mallet ∨ w.ctx ≠ u.ctx → t.ctx w = s.ctx w
  tiles : ∀ (w : CtxId) (n : Nat), t.tile w n = s.tile w n
  accs : ∀ (w : CtxId) (n : Nat), t.acc w n = s.acc w n
  own : CtxKeeps sd xd keep (s.ctx u) (t.ctx u)

section Frame

variable {u : CtxId} {sd xd : Option Nat} {keep : Prop} {s t x : State} {f : Fields}

theorem CtxKeeps.refl (c : Ctx) : CtxKeeps sd xd keep c c :=
  ⟨fun _ _ => rfl, fun _ _ => rfl, rfl, rfl, rfl, rfl, rfl, fun _ => ⟨rfl, rfl, rfl, rfl⟩⟩

theorem CtxKeeps.trans {a b c : Ctx} (h : CtxKeeps sd xd keep a b) (g : CtxKeeps sd xd keep b c) : CtxKeeps sd xd keep a c where
  S n hn := (g.S n hn).trans (h.S n hn)
  X n hn := (g.X n hn).trans (h.X n hn)
  m := g.m.trans h.m
  af := g.af.trans h.af
  bind := g.bind.trans h.bind
  rot := g.rot.trans h.rot
  posted := g.posted.trans h.posted
  flags hk := by
    obtain ⟨a1, a2, a3, a4⟩ := h.flags hk
    obtain ⟨b1, b2, b3, b4⟩ := g.flags hk
    exact ⟨b1.trans a1, b2.trans a2, b3.trans a3, b4.trans a4⟩

theorem RegisterFrame.refl (s : State) : RegisterFrame u sd xd keep s s :=
  ⟨fun b => Leaves.refl b s, rfl, rfl, rfl, rfl, rfl, rfl, fun _ _ => rfl, fun _ _ => rfl, fun _ _ => rfl, CtxKeeps.refl _⟩

theorem RegisterFrame.trans (h : RegisterFrame u sd xd keep s t) (g : RegisterFrame u sd xd keep t x) :
    RegisterFrame u sd xd keep s x where
  bytes b := (h.bytes b).trans (g.bytes b)
  kits := g.kits.trans h.kits
  parts := g.parts.trans h.parts
  fab := g.fab.trans h.fab
  xfers := g.xfers.trans h.xfers
  pair := g.pair.trans h.pair
  pending := g.pending.trans h.pending
  others w hw := (g.others w hw).trans (h.others w hw)
  tiles w n := (g.tiles w n).trans (h.tiles w n)
  accs w n := (g.accs w n).trans (h.accs w n)
  own := h.own.trans g.own

/-- Tiles are read from mallets. -/
theorem State.tile_of_mallets {a b : State} (h : b.mallets = a.mallets) (w : CtxId) (n : Nat) : b.tile w n = a.tile w n := by
  simp only [State.tile, State.mallet, h]

/-- What leaves the mallets and every byte leaves the contexts too. -/
theorem RegisterFrame.of_still (h : Still s t) (hb : ∀ b, Leaves b s t) : RegisterFrame u sd xd keep s t where
  bytes := hb
  kits := h.kits
  parts := h.parts
  fab := h.fab
  xfers := h.xfers
  pair := h.pair
  pending := h.pending
  others w _ := State.ctx_of_mallets h.mallets w
  tiles w n := State.tile_of_mallets h.mallets w n
  accs w n := State.acc_of_mallets h.mallets w n
  own := by
    rw [State.ctx_of_mallets h.mallets u]
    exact CtxKeeps.refl _

theorem RegisterFrame.setCtx (s : State) (g : Ctx → Ctx) (h : CtxKeeps sd xd keep (s.ctx u) (g (s.ctx u))) :
    RegisterFrame u sd xd keep s (s.setCtx u g) where
  bytes b := (SameCells.of_eq (State.setCtx_kits ..) (State.setCtx_drums ..) (State.setCtx_mem ..)).leaves b
  kits := rfl
  parts := rfl
  fab := rfl
  xfers := rfl
  pair := rfl
  pending := rfl
  others w hw := State.ctx_setCtx_ne s u w g hw
  tiles w n := State.tile_setCtx_any s u w g n
  accs w n := State.acc_setCtx_any s u w g n
  own := by rwa [State.ctx_setCtx]

theorem RegisterFrame.fetched (s : State) (u : CtxId) : RegisterFrame u sd xd keep s (s.fetched u) :=
  .of_still (still_fetched s u) (fun b => leaves_fetched b s u)

theorem RegisterFrame.faults (s : State) (u : CtxId) (word : Nat) (q : Nat × Nat) :
    RegisterFrame u sd xd keep s (s.faults u word q) := by
  have hctx : RegisterFrame u sd xd keep s (s.setCtx u (fun c => { c with fault := q.1, stopped := true, wait := .none })) :=
    .setCtx s _ ⟨fun _ _ => rfl, fun _ _ => rfl, rfl, rfl, rfl, rfl, rfl, fun _ => ⟨rfl, rfl, rfl, rfl⟩⟩
  exact hctx.trans (.of_still (still_pushEv _ _ _)
    (fun b => (SameCells.of_eq (State.pushEv_kits ..) (State.pushEv_drums ..) (State.pushEv_mem ..)).leaves b))

theorem RegisterFrame.done (s : State) (u : CtxId) : RegisterFrame u sd xd keep s (s.done u) :=
  .setCtx s _ ⟨fun _ _ => rfl, fun _ _ => rfl, rfl, rfl, rfl, rfl, rfl, fun _ => ⟨rfl, rfl, rfl, rfl⟩⟩

theorem RegisterFrame.branch (s : State) (u : CtxId) (f : Fields) : RegisterFrame u sd xd keep s (s.branch u f) :=
  .setCtx s _ ⟨fun _ _ => rfl, fun _ _ => rfl, rfl, rfl, rfl, rfl, rfl, fun _ => ⟨rfl, rfl, rfl, rfl⟩⟩

theorem RegisterFrame.putS (s : State) (u : CtxId) (n : Nat) (v : BitVec 64) (p : Bool) :
    RegisterFrame u (some n) xd keep s (s.putS u n v p) :=
  .setCtx s _ ⟨fun k hk => by rw [Ctx.S_setS, if_neg (fun e : k = n => hk (by rw [e]))], fun _ _ => rfl, rfl, rfl, rfl, rfl, rfl,
    fun _ => ⟨rfl, rfl, rfl, rfl⟩⟩

theorem Ctx.X_setX (c : Ctx) (n k : Nat) (r : XReg) : (c.setX n r).X k = if k = n then r else c.X k := by
  simp [Ctx.X, Ctx.setX]

theorem RegisterFrame.putX (s : State) (u : CtxId) (n : Nat) (r : XReg) : RegisterFrame u sd (some n) keep s (s.putX u n r) :=
  .setCtx s _ ⟨fun _ _ => rfl, fun k hk => by rw [Ctx.X_setX, if_neg (fun e : k = n => hk (by rw [e]))], rfl, rfl, rfl, rfl, rfl,
    fun _ => ⟨rfl, rfl, rfl, rfl⟩⟩

/-- An instruction on every path: not issued, faulted, or its effect after the fetch. -/
theorem RegisterFrame.run {op : Nat} {legal : Bool} {conds : State → List (Option (Nat × Nat))} {effect : State → State}
    (h : ∀ t, RegisterFrame u sd xd keep t (effect t)) (s : State) : RegisterFrame u sd xd keep s (s.run u f op legal conds effect) := by
  rcases run_cases s (u := u) (f := f) (op := op) (legal := legal) (conds := conds) (effect := effect) with
    e | ⟨w, q, e⟩ | ⟨w, q, e⟩ | e <;> rw [e]
  · exact .refl s
  · exact .faults s u w q
  · exact (RegisterFrame.fetched s u).trans (.faults _ u w q)
  · exact (RegisterFrame.fetched s u).trans (h _)

theorem RegisterFrame.run1 {op : Nat} {legal : Bool} {conds : State → List (Option (Nat × Nat))} {effect : State → State}
    (h : ∀ t, RegisterFrame u sd xd keep t (effect t)) (s : State) : RegisterFrame u sd xd keep s (s.run1 u f op legal conds effect) :=
  .run (fun t => (h t).trans (.done _ u)) s

theorem RegisterFrame.scalar {op n : Nat} {g : BitVec 64 → BitVec 64 → BitVec 64} (s : State) :
    RegisterFrame u (some f.D) xd keep s (s.scalar u f op n g) := .run1 (fun t => .putS t u f.D _ _) s

theorem RegisterFrame.ite {c : Prop} [Decidable c] {y : State} (hx : RegisterFrame u sd xd keep s x) (hy : RegisterFrame u sd xd keep s y) :
    RegisterFrame u sd xd keep s (if c then x else y) := by
  split <;> assumption

/-- A frame holds of the state that a command answers. -/
def FrameA (u : CtxId) (sd xd : Option Nat) (keep : Prop) (s : State) (o : Answer) : Prop := ∃ t, o = .next t ∧ RegisterFrame u sd xd keep s t

theorem frameA_next (h : RegisterFrame u sd xd keep s t) : FrameA u sd xd keep s (.next t) := ⟨t, rfl, h⟩

theorem frameA_brc (u : CtxId) (f : Fields) (s : State) : FrameA u none none True s (exec (.brc u f) s) :=
  frameA_next (.run (fun t => .ite (.branch t u f) (.done t u)) s)

theorem frameA_loop (u : CtxId) (f : Fields) (s : State) : FrameA u (some f.A) none True s (exec (.loop u f) s) :=
  frameA_next (.run (fun t => (RegisterFrame.putS t u f.A _ _).trans (.ite (.branch _ u f) (.done _ u))) s)

/-- CSWCLR clears status flags and nothing else of its context. -/
theorem frameA_cswclr (u : CtxId) (f : Fields) (s : State) : FrameA u none none False s (exec (.cswclr u f) s) :=
  frameA_next (.run1 (fun t => .setCtx t _ ⟨fun _ _ => rfl, fun _ _ => rfl, rfl, rfl, rfl, rfl, rfl, False.elim⟩) s)

/-- XMOV writes S[rd] with MOD 0 and X[rd] with MOD 1. -/
theorem frameA_xmov (u : CtxId) (f : Fields) (s : State) :
    FrameA u (if f.modN = 0 then some f.D else none) (if f.modN = 0 then none else some f.D) True s (exec (.xmov u f) s) := by
  refine frameA_next (.run1 (fun t => ?_) s)
  split
  · exact .putS t u f.D _ _
  · exact .putX t u f.D _

end Frame

/-- Settles O51: each of the instructions writes at most its destination in its own context, on every path. -/
theorem registerInstructionsFrame : Obligations.RegisterInstructionsFrame := by
  unfold Obligations.RegisterInstructionsFrame
  intro s t u f sd list p hp hexec
  have hlist : ∀ p ∈ list, ∃ keep, FrameA u p.2.1 p.2.2 keep s (exec p.1 s) ∧ (p.1 ≠ .cswclr u f → keep) := by
    have yes : ∀ {c : Prop}, c → True := fun _ => trivial
    have scalar : ∀ {op n g}, FrameA u sd none True s (.next (s.scalar u f op n g)) := frameA_next (.scalar s)
    simp only [list, List.forall_mem_cons]
    exact ⟨⟨True, frameA_next (.run1 (fun t => .refl t) s), yes⟩, ⟨True, frameA_next (.run (fun t => .branch t u f) s), yes⟩,
      ⟨True, frameA_brc u f s, yes⟩, ⟨True, frameA_loop u f s, yes⟩, ⟨True, frameA_next (.run1 (fun t => .putS t u f.D _ _) s), yes⟩,
      ⟨False, frameA_cswclr u f s, fun h => h rfl⟩, ⟨True, scalar, yes⟩, ⟨True, scalar, yes⟩, ⟨True, scalar, yes⟩, ⟨True, scalar, yes⟩,
      ⟨True, scalar, yes⟩, ⟨True, scalar, yes⟩, ⟨True, scalar, yes⟩, ⟨True, scalar, yes⟩, ⟨True, scalar, yes⟩, ⟨True, scalar, yes⟩,
      ⟨True, scalar, yes⟩, ⟨True, scalar, yes⟩, ⟨True, frameA_next (.run1 (fun t => .putS t u f.D _ _) s), yes⟩,
      ⟨True, frameA_next (.run1 (fun t => .putX t u f.D _) s), yes⟩, ⟨True, frameA_next (.run1 (fun t => .putX t u f.D _) s), yes⟩,
      ⟨True, frameA_xmov u f s, yes⟩, List.forall_mem_nil _⟩
  obtain ⟨keep, ⟨x, hx, h⟩, hkeep⟩ := hlist p hp
  obtain rfl : x = t := by simpa [hx] using hexec
  exact ⟨fun b hwf hwpb => (h.bytes b).byte (clear_of_wf hwf hwpb), h.kits, h.parts, h.fab, h.xfers, h.pair, h.pending, h.others,
    fun w n => ⟨h.tiles w n, h.accs w n⟩, h.own.S, h.own.X, h.own.m, h.own.af, h.own.bind, h.own.rot, h.own.posted,
    fun hc => h.own.flags (hkeep hc)⟩

end Sys2Proof.Machine

/-!
Stores of a context (R116, R283, R435): the bytes that TST, SCST, SST and AST leave on every path (O52), and the bytes that an SST to skin,
scratch or hub SRAM writes (O53).
-/
namespace Sys2Proof.Machine

open Sys2Proof (CtxId Fields Instr)

-- ===== What sends and journals leave =====

/-- From s to t no byte and no merge buffer changes: memory, kits and drums stay. -/
structure SameStore (s t : State) : Prop where
  mem : t.mem = s.mem
  kits : t.kits = s.kits
  drums : t.drums = s.drums

section SameStore

variable {s t x : State}

theorem SameStore.refl (s : State) : SameStore s s := ⟨rfl, rfl, rfl⟩

theorem SameStore.trans (h : SameStore s t) (g : SameStore t x) : SameStore s x :=
  ⟨g.mem.trans h.mem, g.kits.trans h.kits, g.drums.trans h.drums⟩

theorem SameStore.ite {c : Prop} [Decidable c] (hx : SameStore s x) (ht : SameStore s t) : SameStore s (if c then x else t) := by
  split <;> assumption

theorem SameStore.cells (h : SameStore s t) : SameCells s t := .of_eq h.kits h.drums h.mem

theorem SameStore.leavesU (h : SameStore s t) (b k d : Nat) : LeavesU b k d s t := leavesU_of (h.cells.leaves b) h.cells.merge

theorem sameStore_setCtx (s : State) (u : CtxId) (g : Ctx → Ctx) : SameStore s (s.setCtx u g) := ⟨rfl, rfl, rfl⟩

theorem sameStore_setF (s : State) (f : Fld) (i j v : Nat) : SameStore s (s.setF f i j v) := ⟨rfl, rfl, rfl⟩

theorem sameStore_setTag (s : State) (n t : Nat) (g : Tag) : SameStore s (s.setTag n t g) := ⟨rfl, rfl, rfl⟩

theorem sameStore_log (s : State) (src : Nat) (e : EvName) (l : List Nat) (p u : Option Nat) (b : Bool) : SameStore s (s.log src e l p u b) :=
  ⟨State.log_mem .., State.log_kits .., State.log_drums ..⟩

theorem sameStore_faults (s : State) (u : CtxId) (word : Nat) (q : Nat × Nat) : SameStore s (s.faults u word q) :=
  (sameStore_setCtx s u _).trans ⟨State.pushEv_mem .., State.pushEv_kits .., State.pushEv_drums ..⟩

theorem sameStore_logLimited (s : State) (key interval src : Nat) (e : EvName) (l : List Nat) (p u : Option Nat) :
    SameStore s (s.logLimited key interval src e l p u) := by
  unfold State.logLimited
  exact .ite (.refl s) ((sameStore_log s src e l p u false).trans ⟨rfl, rfl, rfl⟩)

theorem sameStore_acct (s : State) (sub i a n : Nat) : SameStore s (s.acct sub i a n) := by
  unfold State.acct
  exact .ite ⟨rfl, rfl, rfl⟩ ⟨rfl, rfl, rfl⟩

theorem sameStore_chargeOut (s : State) (part : Nat) (sub : Option Nat) (port n : Nat) : SameStore s (s.chargeOut part sub port n) := by
  have hcredit : SameStore s (if part = noPart then s else s.regCharge part (s.portRes port) 0 (n + 16)) :=
    .ite (.refl s) ⟨rfl, rfl, rfl⟩
  unfold State.chargeOut
  refine .ite (.refl s) ?_
  cases sub with
  | none => exact hcredit
  | some sub => exact hcredit.trans (sameStore_acct ..)

theorem sameStore_putOut (s : State) (p : Pkt) : SameStore s (s.putOut p) := by
  unfold State.putOut
  exact .ite ⟨rfl, rfl, rfl⟩ (.ite ⟨rfl, rfl, rfl⟩ ⟨rfl, rfl, rfl⟩)

theorem sameStore_selfAnswer (s : State) (p : Pkt) : SameStore s (s.selfAnswer p) := by
  unfold State.selfAnswer
  refine SameStore.trans (t := if decide (p.op = opAtomic) = true then s.fresh else s) (.ite ⟨rfl, rfl, rfl⟩ (.refl s)) ⟨rfl, rfl, rfl⟩

theorem sameStore_emit (s : State) (part : Nat) (seg : Option CtxId) (p : Pkt) : SameStore s (s.emit part seg p) := by
  unfold State.emit
  refine .ite (sameStore_putOut s p) ?_
  split
  · exact .ite (sameStore_putOut s p) (sameStore_selfAnswer s p)
  · split
    · exact (SameStore.ite (.refl s) (sameStore_log ..)).trans (sameStore_selfAnswer ..)
    · exact .ite ⟨rfl, rfl, rfl⟩ (.ite ((sameStore_putOut s p).trans ⟨rfl, rfl, rfl⟩) (sameStore_selfAnswer s p))

theorem sameStore_killTag (s : State) (n t : Nat) : SameStore s (s.killTag n t) := by
  have hcount : ∀ (x : State) (k i q : Nat) (e : EvName) (l : List Nat) (p : Option Nat) (f : Fld),
      SameStore x ((x.logLimited k i q e l p).count f 0 0 1) :=
    fun x k i q e l p f => (sameStore_logLimited x k i q e l p none).trans (sameStore_setF ..)
  unfold State.killTag
  dsimp only
  split
  · exact ((sameStore_setTag ..).trans (hcount ..)).trans (sameStore_log ..)
  · exact (sameStore_setTag ..).trans (hcount ..)

theorem sameStore_noRoute (s : State) (n t : Nat) : SameStore s (s.noRoute n t) :=
  ((sameStore_log ..).trans (sameStore_killTag ..)).trans ⟨rfl, rfl, rfl⟩

theorem sameStore_issue (s : State) (part : Nat) (sub : Option Nat) (iss : Issuer) (seg : Option CtxId) (answers : Nat) (q : Pkt) (draws : Bool) :
    SameStore s (s.issue part sub iss seg answers q draws) := by
  unfold State.issue
  dsimp only
  split
  · exact .refl s
  · refine .ite ⟨rfl, rfl, rfl⟩ ?_
    split
    · exact (sameStore_setTag ..).trans (sameStore_noRoute ..)
    · exact ((sameStore_setTag ..).trans (sameStore_chargeOut ..)).trans (sameStore_emit ..)

theorem sameStore_post (s : State) (u : CtxId) (span answers : Nat) (q : Pkt) : SameStore s (s.post u span answers q) := by
  unfold State.post
  exact (sameStore_setCtx s u _).trans (sameStore_issue ..)

theorem sameStore_postPiece (s : State) (u : CtxId) (span : Nat) (pc : Piece) (v en p : Nat) : SameStore s (s.postPiece u span pc v en p) := by
  unfold State.postPiece
  exact .ite (sameStore_post ..) (.ite (sameStore_post ..) (sameStore_post ..))

theorem sameStore_integ (s : State) (x : Integ) : SameStore s { s with integ := x } := ⟨rfl, rfl, rfl⟩

theorem sameStore_journalRoom (fuel : Nat) (s : State) : SameStore s (State.journalRoom fuel s) := by
  induction fuel generalizing s with
  | zero => exact .refl s
  | succ fuel ih =>
    simp only [State.journalRoom]
    refine .ite (.refl s) ?_
    split
    · exact .refl s
    · refine .ite (sameStore_integ s _) (.ite ?_ (.ite ?_ ?_))
      · exact (sameStore_integ s _).trans (ih _)
      · exact (sameStore_integ s _).trans (ih _)
      · exact (sameStore_log ..).trans (sameStore_integ _ _)

theorem sameStore_journal (s : State) (p writer : Nat) (global : Bool) (addr n : Nat) : SameStore s (s.journal p writer global addr n) := by
  unfold State.journal
  split
  · exact .refl s
  · exact (sameStore_journalRoom _ s).trans (sameStore_integ _ _)

theorem sameStore_journalDrum (s : State) (p k d addr n : Nat) : SameStore s (s.journalDrum p k d addr n) := by
  unfold State.journalDrum
  exact .ite (.refl s) (sameStore_journal ..)

theorem sameStore_journalRemote (s : State) (u : CtxId) (addr n : Nat) : SameStore s (s.journalRemote u addr n) := by
  unfold State.journalRemote
  exact .ite (.refl s) (sameStore_journal ..)

theorem sameStore_deferCtx (s : State) (u : CtxId) (wr : Bool) : SameStore s (s.deferCtx u wr) := by
  unfold State.deferCtx
  exact (SameStore.ite (.refl s) (sameStore_setF ..)).trans (sameStore_setCtx ..)

theorem sameStore_waits (s : State) (u : CtxId) (w : Wait) : SameStore s (s.waits u w) := sameStore_setCtx s u _

theorem sameStore_done (s : State) (u : CtxId) : SameStore s (s.done u) := sameStore_setCtx s u _

theorem sameStore_readoutFlags (s : State) (u : CtxId) (a : Acc) (e : Nat) : SameStore s (s.readoutFlags u a e) := sameStore_setCtx s u _

end SameStore

-- ===== Stores (O52) =====

section Stores

variable {b : Nat}

/-- Byte b lies outside the local pieces. -/
def OffPieces (b : Nat) (s : State) (ps : List (Nat × Piece)) : Prop :=
  ∀ q ∈ ps, q.2.rem = false → q.2.len ≤ 4096 ∧ (b < s.canon q.2.addr ∨ s.canon q.2.addr + q.2.len ≤ b)

theorem mem_cutPieces_local {fuel : Nat} {ps : List (Nat × Piece)} {q : Nat × Piece} (hq : q ∈ cutPieces fuel ps) (hloc : q.2.rem = false) :
    q ∈ ps := by
  induction fuel generalizing ps with
  | zero => simp [cutPieces] at hq
  | succ fuel ih =>
    cases ps with
    | nil => simp [cutPieces] at hq
    | cons p r =>
      obtain ⟨o, pc⟩ := p
      simp only [cutPieces] at hq
      split at hq
      · rcases List.mem_cons.1 hq with rfl | hq
        · exact List.mem_cons_self
        · exact List.mem_cons_of_mem _ (ih hq)
      · next hrem =>
        have hremote : pc.rem = true := by
          cases h : pc.rem
          · simp [h] at hrem
          · rfl
        split at hq
        · rcases List.mem_cons.1 hq with rfl | hq
          · exact List.mem_cons_self
          · exact List.mem_cons_of_mem _ (ih hq)
        · rcases List.mem_cons.1 hq with rfl | hq
          · exact absurd hloc (by simp [hremote])
          · rcases List.mem_cons.1 (ih hq) with rfl | hq
            · exact absurd hloc (by simp [hremote])
            · exact List.mem_cons_of_mem _ hq

theorem extentPieces_rem {s : State} {k x c o size r : Nat} {q : Nat × Piece} (hq : q ∈ s.extentPieces k x c o size r) : q.2.rem = true := by
  induction k generalizing x c o size r with
  | zero => simp [State.extentPieces] at hq
  | succ k ih =>
    simp only [State.extentPieces] at hq
    split at hq
    · simp at hq
    · split at hq
      · exact ih hq
      · rcases List.mem_cons.1 hq with rfl | hq
        · rfl
        · exact ih hq

theorem len_memPieces_local {s : State} {u : CtxId} {f : Fields} {n : Nat} {q : Nat × Piece} (hq : q ∈ s.memPieces u f n)
    (hloc : q.2.rem = false) : q.2.len = n := by
  unfold State.memPieces State.spanPieces at hq
  split at hq
  · exact absurd (extentPieces_rem hq) (by simp [hloc])
  · obtain rfl := List.mem_singleton.1 hq
    rfl

theorem leavesU_storePiece (s : State) (u : CtxId) (span : Nat) (q : Nat × Piece) (v en p : Nat)
    (h : q.2.rem = false → q.2.len ≤ 4096 ∧ (b < s.canon q.2.addr ∨ s.canon q.2.addr + q.2.len ≤ b)) :
    LeavesU b u.kit u.drum s (if en % 2 ^ q.2.len = 0 then s
      else if q.2.rem then (s.postPiece u span q.2 v en p).journalRemote u q.2.addr q.2.len
      else (s.writeDrum u.kit u.drum (s.partOf u) (unitMallet u.kit u.drum u.mallet) q.2.addr q.2.len v en p).journalDrum
        (s.partOf u) u.kit u.drum q.2.addr q.2.len) := by
  split
  · exact .refl _ _ _ s
  · split
    · exact ((sameStore_postPiece ..).trans (sameStore_journalRemote ..)).leavesU _ _ _
    · next hrem =>
      obtain ⟨hlen, hoff⟩ := h (by simpa using hrem)
      exact (leavesU_writeDrum _ _ _ s _ _ _ _ _ _ _ hlen (fun hlo hhi => by omega)).trans ((sameStore_journalDrum ..).leavesU _ _ _)

theorem leavesU_storePieces (s : State) (u : CtxId) (span : Nat) (ps : List (Nat × Piece)) (v en p : Nat) (h : OffPieces b s ps) :
    LeavesU b u.kit u.drum s (s.storePieces u span ps v en p) := by
  unfold State.storePieces
  induction ps generalizing s with
  | nil => exact .refl _ _ _ s
  | cons q r ih =>
    intro hheld
    have hpiece := leavesU_storePiece s u span q (v / 256 ^ q.1) (en / 2 ^ q.1) (p / 2 ^ (q.1 / 32)) (h q List.mem_cons_self)
    refine (hpiece.trans (ih _ fun z hz => ?_)) hheld
    rw [canon_of_kits (hpiece hheld).1.kits]
    exact h z (List.mem_cons_of_mem _ hz)

theorem leavesU_store (s : State) (u : CtxId) (span : Nat) (ps : List (Nat × Piece)) (v en p : Nat) {fin : State → State}
    (hfin : ∀ x, SameStore x (fin x)) (h : OffPieces b s ps) : LeavesU b u.kit u.drum s (s.store u span ps v en p fin) := by
  unfold State.store
  dsimp only
  split
  · exact (sameStore_waits s u .tag).leavesU _ _ _
  · split
    · have hcharge := same_presentHbm s (ctxStream u) 0 (s.partOf u) true (s.storeRanges u ps en)
      refine (leavesU_of (hcharge.leaves b) hcharge.merge).trans (.trans (leavesU_storePieces _ u span _ v en p fun q hq hloc => ?_)
        ((hfin _).leavesU _ _ _))
      rw [canon_of_kits hcharge.kits]
      exact h q (mem_cutPieces_local hq hloc) hloc
    · exact (sameStore_deferCtx s u true).leavesU _ _ _

theorem SameMerge.of_setDrum {s : State} {k d : Nat} {g : Drum → Drum} (h : ∀ x, (g x).merge = x.merge) : SameMerge s (s.setDrum k d g) := by
  intro k' d'
  by_cases hkey : drumKey k' d' = drumKey k d
  · simp [State.drum, State.setDrum, mupd, hkey, h]
  · rw [State.drum_setDrum_ne (h := hkey)]

theorem sameMerge_fetched (s : State) (u : CtxId) : SameMerge s (s.fetched u) := by
  unfold State.fetched State.fetch
  dsimp only
  split
  · exact .refl s
  · exact SameMerge.trans (sameMerge_readMem _ _ _ _) (SameMerge.of_setDrum fun _ => rfl)

/-- Whatever a store instruction does after the fetch is LeavesU; a refused or faulted one changes no byte. -/
theorem leavesU_run {u : CtxId} {f : Fields} {op : Nat} {legal : Bool} {conds : State → List (Option (Nat × Nat))} {effect : State → State}
    (s : State) (heffect : LeavesU b u.kit u.drum (s.fetched u) (effect (s.fetched u))) :
    LeavesU b u.kit u.drum s (s.run u f op legal conds effect) := by
  have hfetched := leavesU_of (k := u.kit) (d := u.drum) (leaves_fetched b s u) (sameMerge_fetched s u)
  rcases run_cases (s := s) (u := u) (f := f) (op := op) (legal := legal) (conds := conds) (effect := effect) with
    h | ⟨w, q, h⟩ | ⟨w, q, h⟩ | h <;> rw [h]
  · exact .refl _ _ _ s
  · exact (sameStore_faults s u w q).leavesU _ _ _
  · exact hfetched.trans ((sameStore_faults _ u w q).leavesU _ _ _)
  · exact hfetched.trans heffect

theorem leavesU_onTiles {u : CtxId} {ts : List Nat} {k : State → State} (s : State) (hk : LeavesU b u.kit u.drum s (k s)) :
    LeavesU b u.kit u.drum s (s.onTiles u ts k) := by
  unfold State.onTiles
  split
  · exact (sameStore_waits s u .tile).leavesU _ _ _
  · exact hk

end Stores

theorem scalarSize_le (f : Fields) : Fields.scalarSize f ≤ 8 := by
  have hlog : f.modN % 4 ≤ 3 := by omega
  exact (Nat.pow_le_pow_right (by decide) hlog).trans (by decide)

theorem astSize_le (f : Fields) : astSize f ≤ 320 := by
  unfold astSize
  split <;> omega

/-- Settles O52, from what one store leaves (leavesU_store), after the fetch and on every other path. -/
theorem storesLeaveOtherBytes : Obligations.StoresLeaveOtherBytes := by
  unfold Obligations.StoresLeaveOtherBytes
  intro s t u f b hwf hwpb hheld p hp hoff hexec
  suffices hleaves : ∀ x, exec p.1 s = .next x → LeavesU b u.kit u.drum s x from
    ((hleaves t hexec) fun e he => hheld e he).1.byte (clear_of_wf hwf hwpb)
  have hpieces : p.2 ≤ 4096 → OffPieces b (s.fetched u) ((s.fetched u).memPieces u f p.2) := fun hsize q hq hloc =>
    have hlen := len_memPieces_local hq hloc
    ⟨by omega, by have := hoff q hq hloc; rwa [canon_of_kits (leaves_fetched b s u).kits]⟩
  intro x hx
  simp only [List.mem_cons, List.not_mem_nil, or_false] at hp
  rcases hp with rfl | rfl | rfl | rfl
  case inl =>
    cases hx
    exact leavesU_run s (leavesU_onTiles _ (leavesU_store _ _ _ _ _ _ _ (sameStore_done · u) (hpieces (by norm_num))))
  case inr.inl =>
    cases hx
    exact leavesU_run s (leavesU_onTiles _ (leavesU_store _ _ _ _ _ _ _ (sameStore_done · u) (hpieces (by norm_num))))
  case inr.inr.inl =>
    cases hx
    have := scalarSize_le f
    exact leavesU_run s (leavesU_store _ _ _ _ _ _ _ (sameStore_done · u) (hpieces (by dsimp only; omega)))
  case inr.inr.inr =>
    cases hx
    have := astSize_le f
    have hps := hpieces (by dsimp only; omega)
    refine leavesU_run s ?_
    dsimp only
    cases hmod : f.modBit 0 <;> simp only [astSize, hmod] at hps
    case true => exact leavesU_store _ _ _ _ _ _ _ (sameStore_done · u) hps
    case false => exact leavesU_store _ _ _ _ _ _ _ (fun x => (sameStore_readoutFlags x u _ _).trans (sameStore_done _ u)) hps

-- ===== The bytes of a scalar store (O53) =====

theorem region_of_kits {s t : State} (h : t.kits = s.kits) (a : Nat) : t.region a = s.region a := by
  unfold State.region State.kit
  rw [h]

theorem dirtied_mem (s : State) (a n : Nat) : (s.dirtied a n).mem = s.mem := by
  unfold State.dirtied
  split <;> rfl

/-- Skin, scratch and hub SRAM, which have no written-page bitmap. -/
def Region.isSram : Region → Bool
  | .skin | .scratch | .hub => true
  | _ => false

theorem hbmEnd_le_of_isSram {s : State} {a : Nat} (h : (s.region a).isSram = true) : hbmEnd ≤ a := by
  by_contra hlow
  unfold State.region at h
  rw [if_pos (by omega)] at h
  split at h <;> simp [Region.isSram] at h

theorem byteAt_of_hbmEnd_le {m : Mem} {a : Nat} (h : hbmEnd ≤ a) : m.byteAt a = mget 0 m.cells a := by
  unfold Mem.byteAt
  rw [if_neg (by omega)]

theorem ones_mod_ne_zero {n : Nat} (h : 0 < n) : ones n % 2 ^ n ≠ 0 := by
  have : 1 < 2 ^ n := Nat.one_lt_two_pow h.ne'
  unfold ones
  rw [Nat.mod_eq_of_lt (by omega)]
  omega

theorem ones_testBit {n i : Nat} (h : i < n) : (ones n).testBit i = true := by
  unfold ones
  simp [Nat.testBit_two_pow_sub_one, h]

/-- A whole page write to SRAM: byte i of the value at byte i of the place. -/
theorem byteAt_writePage {s : State} {unit a n v p i : Nat} (hsram : (s.region a).isSram = true) (hi : i < n) :
    (s.writePage unit a n v (ones n) p).mem.byteAt (a + i) = BitVec.ofNat 8 (v / 256 ^ i) := by
  have hlow := hbmEnd_le_of_isSram hsram
  rw [byteAt_of_hbmEnd_le (by omega)]
  have hne : ones n % 2 ^ n ≠ 0 := ones_mod_ne_zero (by omega)
  have hbyte : ∀ l, mget (0 : BitVec 8) (cellsWrite l a n (blend n (ones n) v (cellsRead l a n))) (a + i) = BitVec.ofNat 8 (v / 256 ^ i) := by
    intro l
    rw [mget_cellsWrite, if_pos (by omega), Nat.add_sub_cancel_left]
    apply BitVec.eq_of_toNat_eq
    simpa [ones_testBit hi] using blend_byte n (ones n) v (cellsRead l a n) i hi
  unfold State.writePage
  cases hregion : s.region a <;> simp only [hregion, Region.isSram, Bool.false_eq_true] at hsram
  all_goals
    simp only [hne, if_false, dirtied_mem]
    exact hbyte _

theorem chunks_one {fuel a n : Nat} (hn : 0 < n) (hpage : a % 4096 + n ≤ 4096) : chunks (fuel + 2) a n = [(a, n)] := by
  have hl : min n (4096 - a % 4096) = n := by omega
  simp [chunks, hn.ne', hl]

theorem byteAt_writeDrum {s : State} {k d part unit a n v p i : Nat} (hsram : (s.region (s.canon a)).isSram = true)
    (hpage : s.canon a % 4096 + n ≤ 4096) (hi : i < n) :
    (s.writeDrum k d part unit a n v (ones n) p).mem.byteAt (s.canon a + i) = BitVec.ofNat 8 (v / 256 ^ i) := by
  have hlow := hbmEnd_le_of_isSram hsram
  unfold State.writeDrum
  dsimp only
  rw [if_neg (by omega)]
  unfold State.writeMem
  dsimp only
  rw [canon_canon, chunks_one (by omega) hpage]
  simp only [List.foldl_cons, List.foldl_nil, Nat.sub_self, pow_zero, Nat.div_one]
  exact byteAt_writePage hsram hi

/-- Settles O53: the store has one local piece, whose page write (byteAt_writePage) puts byte i of S[rd] at byte i. -/
theorem scalarStoresReachMemory : Obligations.ScalarStoresReachMemory := by
  unfold Obligations.ScalarStoresReachMemory
  intro s u f pc hfetch hlegal hD _ t n hfault hnow hps hloc hregion hpage
  have hlegal' : (Fields.memLegal f 3 false && f.d16) = true := by simpa [Fields.d16, hlegal, Fields.D] using hD
  have hn : 0 < n := Nat.two_pow_pos _
  have hlen : pc.len = n := len_memPieces_local (q := (0, pc)) (hps ▸ List.mem_singleton.2 rfl) hloc
  refine ⟨_, congrArg Host.Outcome.next ((run_of_fetches hfetch hlegal' hfault).trans (store_of_storesNow hnow)), fun i hi => ?_⟩
  have hsram : (t.region (t.canon pc.addr)).isSram = true := by rcases hregion with h | h | h <;> rw [h] <;> rfl
  change ((t.stored u (t.xSpan u f.A) (t.memPieces u f n) (t.sv u f.D % 256 ^ n) (ones n) (b2n (t.sp u f.D))).done u).mem.byteAt
    (t.canon pc.addr + i) = _
  rw [(sameStore_done _ u).mem, State.stored, hps, show cutPieces 8 [(0, pc)] = [(0, pc)] by simp [cutPieces, hloc], State.storePieces]
  have hkits : (t.ctxCharge u true (t.storeRanges u [(0, pc)] (ones n))).kits = t.kits := (same_presentHbm ..).kits
  generalize t.ctxCharge u true (t.storeRanges u [(0, pc)] (ones n)) = x at hkits
  have hcanon := canon_of_kits hkits pc.addr
  simp only [List.foldl_cons, List.foldl_nil, pow_zero, Nat.div_one, Nat.zero_div, hlen, hloc, ones_mod_ne_zero hn, if_false, Bool.false_eq_true,
    mem_journalDrum]
  rw [← hcanon, byteAt_writeDrum (by rw [hcanon, region_of_kits hkits]; exact hsram) (by rw [hcanon]; exact hpage) hi]
  apply BitVec.eq_of_toNat_eq
  have hpow : 256 ^ (i + 1) ∣ 256 ^ n := pow_dvd_pow _ hi
  rw [BitVec.toNat_ofNat, BitVec.toNat_ofNat, show (2 : Nat) ^ 8 = 256 from rfl, ← Nat.mod_mul_right_div_self,
    ← Nat.mod_mul_right_div_self, ← pow_succ, Nat.mod_mod_of_dvd _ hpow]
  rfl

end Sys2Proof.Machine

/-!
Control, scalar, address-register, accumulator, vector, mask, memory and asynchronous instructions complete with the effects of Tables 3.6 to
3.14 (O1 to O9): each is the effect on the state that the fetch leaves, since the encoding is legal and no condition holds.
-/
namespace Sys2Proof.Machine

open Sys2Proof (CtxId Fields Instr)

-- ===== An instruction that meets no condition =====

section Completes

variable {s : State} {u : CtxId} {f : Fields} {op : Nat} {legal : Bool} {conds : State → List (Option (Nat × Nat))} {effect : State → State}

theorem next_run (hfetch : s.fetches u = true) (hlegal : legal = true) (hconds : noFault (conds (s.fetched u)) = true) :
    Host.Outcome.next (φ := Fault) (ρ := Refusal) (s.run u f op legal conds effect) = .next (effect (s.fetched u)) :=
  congrArg Host.Outcome.next (run_of_fetches hfetch hlegal hconds)

theorem next_run1 (hfetch : s.fetches u = true) (hlegal : legal = true) (hconds : noFault (conds (s.fetched u)) = true) :
    Host.Outcome.next (φ := Fault) (ρ := Refusal) (s.run1 u f op legal conds effect) = .next ((effect (s.fetched u)).done u) :=
  next_run hfetch hlegal hconds

theorem next_scalar {n : Nat} {g : BitVec 64 → BitVec 64 → BitVec 64} (hfetch : s.fetches u = true) (hlegal : Fields.scalarLegal f n = true) :
    Host.Outcome.next (φ := Fault) (ρ := Refusal) (s.scalar u f op n g) =
      .next (((s.fetched u).putS u f.D (g ((s.fetched u).S u f.A).v ((s.fetched u).opB u f).v)
        ((s.fetched u).sp u f.A || ((s.fetched u).opB u f).p)).done u) :=
  next_run1 hfetch hlegal rfl

/-- An instruction whose tiles are not pending happens. -/
theorem next_tiles {ts : List Nat} {k : State → State} (hfetch : s.fetches u = true) (hlegal : legal = true)
    (hconds : noFault (conds (s.fetched u)) = true) (hfree : ts.any (fun n => (s.fetched u).tilePending u n) = false) :
    Host.Outcome.next (φ := Fault) (ρ := Refusal) (s.run u f op legal conds (fun s => s.onTiles u ts k)) = .next (k (s.fetched u)) :=
  (next_run hfetch hlegal hconds).trans (congrArg Host.Outcome.next (onTiles_free hfree))

@[simp] theorem when_false (c i : Nat) : when false c i = none := rfl

@[simp] theorem noFault_nil : noFault [] = true := rfl

@[simp] theorem noFault_cons (q : Option (Nat × Nat)) (l : List (Option (Nat × Nat))) : noFault (q :: l) = (q.isNone && noFault l) := rfl

theorem noFault_append (l m : List (Option (Nat × Nat))) : noFault (l ++ m) = (noFault l && noFault m) := List.all_append

end Completes

section Encoding

variable (f : Fields)

@[simp] theorem Fields.d16_eq : f.d16 = decide (f.D < 16) := rfl
@[simp] theorem Fields.a16_eq : f.a16 = decide (f.A < 16) := rfl
@[simp] theorem Fields.b16_eq : f.b16 = decide (f.B < 16) := rfl
@[simp] theorem Fields.c16_eq : f.c16 = decide (f.C < 16) := rfl
@[simp] theorem Fields.d8_eq : f.d8 = decide (f.D < 8) := rfl
@[simp] theorem Fields.a8_eq : f.a8 = decide (f.A < 8) := rfl
@[simp] theorem Fields.b8_eq : f.b8 = decide (f.B < 8) := rfl

end Encoding

-- ===== Control instructions (O1) =====

/-- Settles O1, instruction by instruction. -/
theorem branchesAndFlowComplete : Obligations.BranchesAndFlowComplete := by
  unfold Obligations.BranchesAndFlowComplete
  intro s u f hfetch
  dsimp only
  refine ⟨fun hz => next_run1 hfetch hz rfl, fun hz => next_run hfetch hz rfl, fun hz hA hmod hp => ?brc, fun hz hA hp => ?loop,
    fun hz => next_run1 hfetch hz rfl, fun hz hD => ?cswrd, fun hz himm => ?cswclr, fun hz hA himm hp hbit => ?unbind,
    fun hz hA himm hp hslot hown => ?bind⟩
  case brc => exact next_run hfetch (by simp [hz, hA, hmod]) (by simp [hp])
  case loop => exact next_run hfetch (by simp [hz, hA]) (by simp [hp])
  case cswrd => exact next_run1 hfetch (by simp [hz, hD]) rfl
  case cswclr => exact next_run1 hfetch (by simp [hz, himm]) rfl
  case unbind =>
    refine (next_run1 hfetch (by simp [hz, hA, himm]) (by simp [hp, hbit])).trans ?_
    simp [hbit]
  case bind =>
    have hhigh : ((s.fetched u).sv u f.A).testBit 63 = false := Nat.testBit_lt_two_pow (hslot.trans (by norm_num))
    have hmod : (s.fetched u).sv u f.A % 2 ^ 14 = (s.fetched u).sv u f.A := Nat.mod_eq_of_lt hslot
    have hdiv : (s.fetched u).sv u f.A / 2 ^ 14 = 0 := Nat.div_eq_of_lt hslot
    refine (next_run1 hfetch (by simp [hz, hA, himm]) ?_).trans ?_
    · dsimp only
      rw [hmod, hdiv]
      simp [hp, hown]
    · dsimp only
      rw [hmod]
      simp [hhigh]

-- ===== Scalar instructions (O2) =====

/-- Settles O2, instruction by instruction. -/
theorem scalarInstructionsComplete : Obligations.ScalarInstructionsComplete := by
  unfold Obligations.ScalarInstructionsComplete
  intro s u f hfetch
  dsimp only
  refine ⟨fun hlegal => ?_, fun hlegal => next_scalar hfetch hlegal, fun hz hD hmod => ?whole, fun hz hD hmod => ?part⟩
  · refine ⟨?_, ?_, ?_, ?_, ?_, ?_, ?_, ?_, ?_, ?_, ?_⟩ <;> exact next_scalar hfetch hlegal
  case whole =>
    refine (next_run1 hfetch (by simp [hz, hD, hmod]) rfl).trans ?_
    simp [smoviVal, hmod]
  case part =>
    refine (next_run1 hfetch ?_ rfl).trans ?_
    · rcases hmod with hmod | hmod | ⟨hmod, himm⟩ <;> simp [*]
    · rcases hmod with hmod | hmod | ⟨hmod, himm⟩ <;> simp [smoviVal, hmod, State.sv]

-- ===== Address registers (O3) =====

/-- Settles O3, instruction by instruction. -/
theorem addressRegisterInstructionsComplete : Obligations.AddressRegisterInstructionsComplete := by
  unfold Obligations.AddressRegisterInstructionsComplete
  intro s u f hfetch
  dsimp only
  refine ⟨fun hz hD hA himm hv => ?_, fun hz hD hA hB => ?_, fun hz hD hA hmod => ?_, fun hz hD hA hmod hv => ?_⟩
  · exact next_run1 hfetch (by simp [hz, hD, hA, himm]) (by simp_all)
  · exact next_run1 hfetch (by simp [hz, hD, hA, hB]) rfl
  · refine (next_run1 hfetch (by simp [hz, hD, hA, hmod]) (by simp [hmod])).trans ?_
    simp [hmod]
  · refine (next_run1 hfetch (by simp [hz, hD, hA, hmod]) (by simp_all)).trans ?_
    simp [hmod]

-- ===== Accumulators (O4) =====

/-- Settles O4, instruction by instruction. -/
theorem accumulatorInstructionsComplete : Obligations.AccumulatorInstructionsComplete := by
  unfold Obligations.AccumulatorInstructionsComplete
  intro s u f hfetch
  dsimp only
  refine ⟨fun hz hD himm => ?aopen, fun err hlegal hopen hfree hnibble => ?tmac, fun hz hD hA hopenD hopenA hanchor => ?acomb,
    fun hz hD himm hopen => ?areanc, fun hz hD hfmt hopen hfree => ?aadd, fun hz hA hfmt himm hfit hopen hfree => ?acvt,
    fun hz hA hB hfmt hpos himm hfit hopenA hopenB hanchor hfree => ?acvtmx⟩
  case aopen => exact next_run1 hfetch (by simp_all) rfl
  case tmac => exact next_tiles hfetch hlegal (by simp [notOpen_of_isOpen hopen, hnibble]) hfree
  case acomb => exact next_run1 hfetch (by simp [hz, hD, hA]) (by simp_all [notOpen_of_isOpen])
  case areanc => exact next_run1 hfetch (by simp_all) (by simp [notOpen_of_isOpen hopen])
  case aadd => exact next_tiles hfetch (by simp [hz, hD, hfmt]) (by simp [notOpen_of_isOpen hopen]) (by simp [hfree])
  case acvt => exact next_tiles hfetch (by simp [hz, hA, hfmt, himm, hfit]) (by simp [notOpen_of_isOpen hopen]) (by simp [hfree])
  case acvtmx =>
    refine (next_tiles hfetch (by simp_all) (by simp_all [notOpen_of_isOpen]) (by simp [hfree])).trans ?_
    dsimp only
    generalize mxScale (mxMax ((List.range 32).map (mxElem ((s.fetched u).acc u f.A) ((s.fetched u).acc u f.B))))
      ((s.fetched u).acc u f.A).A f.fmtN = sc
    cases sc <;> rfl

-- ===== Vectors (O5) =====

/-- Settles O5, instruction by instruction. -/
theorem vectorInstructionsComplete : Obligations.VectorInstructionsComplete := by
  unfold Obligations.VectorInstructionsComplete
  intro s u f hfetch
  dsimp only
  refine ⟨fun hlegal hfree => ?two, fun hz hfmt hmod hB hfree => ?vfma, fun hz hfmt hmod hfree => ?vfn, fun hz hfmt hB hfree => ?vsmx,
    fun hz hA hfmt hfree => ?vbc, fun hz hfmt hfree => ?vsel, fun hz hD hfmt hmod hfree => ?vred,
    fun hz hfmt haux hone himm hfit hfree => ?vcvt⟩
  case two => refine ⟨?_, ?_, ?_, ?_, ?_⟩ <;> exact next_tiles hfetch hlegal rfl hfree
  case vfma =>
    refine next_tiles hfetch ?_ rfl hfree
    cases hbit : f.modBit 0 <;> simp_all
  case vfn => exact next_tiles hfetch (by simp [hz, hfmt, hmod]) rfl hfree
  case vsmx => exact next_tiles hfetch (by simp [hz, hfmt, hB]) rfl hfree
  case vbc => exact next_tiles hfetch (by simp [hz, hA, hfmt]) rfl hfree
  case vsel => exact next_tiles hfetch (by simp [hz, hfmt]) rfl hfree
  case vred => exact next_tiles hfetch (by simp [hz, hD, hfmt, hmod]) rfl hfree
  case vcvt => exact next_tiles hfetch (by simp [hz, hfmt, haux, hone, himm, hfit]) rfl hfree

-- ===== Masks, poison and draws (O6) =====

/-- Settles O6, instruction by instruction. -/
theorem maskPoisonAndDrawInstructionsComplete : Obligations.MaskPoisonAndDrawInstructionsComplete := by
  unfold Obligations.MaskPoisonAndDrawInstructionsComplete
  intro s u f hfetch
  dsimp only
  refine ⟨fun hz hD hA hp => ?mset, fun hz hD hA hB hmod => ?mop, fun hz hD hmod hB hfree hp => ?mcmp,
    fun hz hD hA hB hC hmod ⟨hpA, hpB, hpC⟩ => ?causal, fun hz hD hA hB hC hmod ⟨hpA, hpB, hpC⟩ => ?causalb, fun hz hD hA => ?mpop,
    fun hz hD hfmt hfree => ?spchk, fun hz hD hA hB => ?draw, fun hz hD hmod hclass hfree => ?ptest,
    fun hz hmod hclass himm hfree => ?pmark⟩
  case mset => exact next_run1 hfetch (by simp [hz, hD, hA]) (by simp [hp])
  case mop => exact next_run1 hfetch (by simp_all) rfl
  case mcmp =>
    refine next_tiles hfetch ?_ ?_ hfree
    · cases hbit : f.modBit 0 <;> simp_all
    · rw [hfree, hp]
      rfl
  case causal => exact next_run1 hfetch (by simp [hz, hD, hA, hB, hC, hmod]) (by simp [hpA, hpB, hpC])
  case causalb => exact next_run1 hfetch (by simp [hz, hD, hA, hB, hC, hmod]) (by simp [hpA, hpB, hpC])
  case mpop => exact next_run1 hfetch (by simp [hz, hD, hA]) rfl
  case spchk => exact next_tiles hfetch (by simp [hz, hD, hfmt]) rfl (by simp [hfree])
  case draw => exact next_run1 hfetch (by simp [hz, hD, hA, hB]) rfl
  case ptest => exact next_tiles hfetch (by simp [hz, hD, hmod, hclass]) rfl hfree
  case pmark => exact next_tiles hfetch (by simp [hz, hmod, hclass, himm]) rfl hfree

-- ===== Loads (O7) =====

/-- Settles O7, instruction by instruction: the load reads its local pieces now. -/
theorem loadInstructionsComplete : Obligations.LoadInstructionsComplete := by
  unfold Obligations.LoadInstructionsComplete
  intro s u f
  dsimp only
  refine ⟨fun e hfetch hlegal hfault hfree hnow => ?tld, fun hfetch hlegal hfault hfree hnow => ?scld,
    fun hfetch hlegal hD hfault hnow => ?sld, fun hfetch hlegal hD hfault hopen hnow => ?ald,
    fun hfetch hz hD hA himm hlow hhigh hp hopen hfree hcheck hnow => ?tga⟩
  case tld => exact (next_tiles hfetch hlegal hfault (by simp [hfree])).trans (congrArg Host.Outcome.next (load_of_loadsNow hnow))
  case scld => exact (next_tiles hfetch hlegal hfault (by simp [hfree])).trans (congrArg Host.Outcome.next (load_of_loadsNow hnow))
  case sld => exact (next_run hfetch (by simp [hlegal, hD]) hfault).trans (congrArg Host.Outcome.next (load_of_loadsNow hnow))
  case ald =>
    refine (next_run hfetch (by simp [hlegal, hD]) ?_).trans (congrArg Host.Outcome.next (load_of_loadsNow hnow))
    cases hbit : f.modBit 0 <;> simp_all [noFault_append]
  case tga =>
    refine (next_tiles hfetch (by simp [hz, hD, hA, himm, hlow, hhigh]) ?_ (by simp [hfree])).trans
      (congrArg Host.Outcome.next (load_of_loadsNow hnow))
    dsimp only
    rw [hcheck]
    simp [hp, notOpen_of_isOpen hopen]

-- ===== Stores (O8) =====

/-- Settles O8, instruction by instruction: the store is sent now. -/
theorem storeInstructionsComplete : Obligations.StoreInstructionsComplete := by
  unfold Obligations.StoreInstructionsComplete
  intro s u f hfetch
  dsimp only
  refine ⟨fun hlegal hfault hfree hnow => ?tst, fun hlegal hfault hfree hnow => ?scst, fun hlegal hD hfault hnow => ?sst,
    fun hlegal hD hbit hfault hnow => ?image, fun hlegal hD hbit hfault hopen hnow => ?elements⟩
  case tst => exact (next_tiles hfetch hlegal hfault (by simp [hfree])).trans (congrArg Host.Outcome.next (store_of_storesNow hnow))
  case scst => exact (next_tiles hfetch hlegal hfault (by simp [hfree])).trans (congrArg Host.Outcome.next (store_of_storesNow hnow))
  case sst => exact (next_run hfetch (by simp [hlegal, hD]) hfault).trans (congrArg Host.Outcome.next (store_of_storesNow hnow))
  case image =>
    refine (next_run hfetch (by simp [hlegal, hD]) ?_).trans ?_
    · simp_all [noFault_append, astSize]
    · dsimp only
      rw [if_pos hbit, store_of_storesNow hnow]
  case elements =>
    refine (next_run hfetch (by simp [hlegal, hD]) ?_).trans ?_
    · simp_all [noFault_append, astSize]
    · dsimp only
      rw [if_neg (by simp [hbit]), store_of_storesNow hnow]

-- ===== Asynchronous instructions and returns (O9) =====

/-- Settles O9, clause by clause. -/
theorem asynchronousInstructionsComplete : Obligations.AsynchronousInstructionsComplete := by
  unfold Obligations.AsynchronousInstructionsComplete
  refine ⟨fun s u f hfetch => ⟨?aldt, ?acpy, ?waitf, ?waitd⟩, ?loaded, ?async⟩
  case aldt =>
    intro hz haddr hmod hC hroom hfault hfree hfull
    refine (next_tiles hfetch (by simp [hz, haddr, hmod, hC, hroom]) hfault hfree).trans ?_
    rw [if_neg (by simp [hfull])]
  case acpy =>
    dsimp only
    intro hz hD hA hB hpA hpD hpB hread hwrite hlow hhigh halign hfull
    refine (next_run hfetch (by simp [hz, hD, hA, hB]) ?_).trans ?_
    · simp [hpA, hpD, hpB, hread, hwrite, Nat.not_lt.mpr hlow, Nat.not_lt.mpr hhigh, halign]
    · dsimp only
      rw [if_neg (by simp [hfull])]
  case waitf =>
    intro hz himm hclear
    refine (next_run hfetch (by simp_all) rfl).trans ?_
    rw [if_pos]
    simp only [List.all_eq_true, List.mem_range, Bool.or_eq_true, Bool.not_eq_true', decide_eq_true_eq]
    intro n hn
    cases hbit : f.immN.testBit n
    · exact .inl rfl
    · exact .inr (hclear n hn hbit)
  case waitd =>
    intro hz himm hset
    refine (next_run hfetch (by simp [hz, himm]) rfl).trans ?_
    rw [if_pos hset]
  case loaded =>
    intro s u x k word hwait
    dsimp only
    intro hkind hready
    rw [exec_loadDataReturn, execLoadDataReturn, hwait]
    dsimp only
    rw [hkind]
    dsimp only
    rw [if_neg (by simp [hready])]
  case async =>
    intro s x k rd n flag slot sel pos
    dsimp only
    intro hready
    have hwait : ¬ (s.advance x).finishable x = false := by simp [hready]
    refine ⟨fun hkind => ?_, fun hkind => ?_, fun hkind howes => ?_⟩ <;>
      simp only [exec_asyncComplete, execAsyncComplete, if_neg hwait, hkind]
    case refine_1 => simp only [State.finishAsync, hkind]
    case refine_2 => simp only [State.finishAsync, hkind]
    case refine_3 => rw [if_neg (by simp [howes])]

end Sys2Proof.Machine

/-!
Fabric, gong, router, KV and tally instructions complete with the effects of Tables 3.12 to 3.14 (O10 to O12), and the actions on a faulted
context act on it alone (O13).
-/
namespace Sys2Proof.Machine

open Sys2Proof (CtxId Fields Instr)

-- ===== Fabric instructions (O10) =====

/-- Settles O10, instruction by instruction. -/
theorem fabricInstructionsComplete : Obligations.FabricInstructionsComplete := by
  unfold Obligations.FabricInstructionsComplete
  intro s u f hfetch
  dsimp only
  refine ⟨fun hz hA himm hp halign hfree => ?peal, fun hz hD hA hB hC hmod hpA hpB hpC haccess i pc hps => ?atom,
    fun hz hA hmod hD hp haccess hacc hfree => ?red, fun hz hA hmod himm hp haccess hfull hqueue hnow => ?trig, fun hz hmod => ?fence⟩
  case peal =>
    have hrun : exec (.peal u f) s = _ := next_tiles hfetch (by simp [hz, hA, himm]) (by simp [hp, halign]) (by simp [hfree])
    refine ⟨fun hinvalid => ?_, fun hvalid hnone => ?_, fun hvalid hsome hpost => ?_⟩
    · refine hrun.trans ?_
      rw [if_pos hinvalid]
    · refine hrun.trans ?_
      rw [if_neg (by simp [hvalid]), if_pos hnone]
    · refine hrun.trans ?_
      rw [if_neg (by simp [hvalid]), if_neg hsome, if_pos hpost]
  case atom =>
    have hrun : exec (.atom u f) s = _ := next_run hfetch (by simp [hz, hD, hA, hB, hC, hmod])
      (by by_cases hcas : f.modN = 1 <;> simp_all)
    refine ⟨fun hloc hcredit => ?_, fun hrem hpost => ?_⟩ <;> simp only [hps] at hrun
    · rw [if_neg (by simp [hloc]), if_neg (by simp [hcredit])] at hrun
      exact hrun
    · rw [if_pos hrem, if_pos hpost] at hrun
      exact ⟨_, _, hrun, congrArg Ctx.wait (State.ctx_setCtx ..)⟩
  case red =>
    have hrun : exec (.red u f) s = _ := next_tiles hfetch (by by_cases hacc : f.modN = 0 <;> simp_all)
      (by by_cases hform : f.modN = 0
          · obtain ⟨hopen, hinv⟩ := hacc hform
            have hopen' : (s.acc u f.D).isOpen = true := by simpa using hopen
            dsimp only
            rw [hinv]
            simp [hp, haccess, hopen']
          · simp_all) hfree
    refine ⟨fun hnone => ?_, fun i pc hsome hps hloc hcredit => ?_, fun hsome hrem hroom => ?_⟩ <;> refine hrun.trans ?_ <;> dsimp only
    · rw [if_pos hnone]
    · rw [if_neg hsome, hps, if_pos (by simp [remoteOf, hloc])]
      dsimp only
      rw [if_neg (by simp [hcredit])]
    · rw [if_neg hsome, if_neg (by simp [hrem]), if_pos hroom]
  case trig =>
    refine (next_run hfetch (by simp [hz, hA, hmod, himm]) (by simp [hp, haccess])).trans ?_
    rw [if_neg (by simp [hfull]), if_neg (by simp [hqueue]), load_of_loadsNow hnow]
  case fence =>
    have hrun : exec (.fence u f) s = _ := next_run hfetch (by simp [hz, hmod]) rfl
    refine ⟨fun hmod' => ?_, fun hmod' => ?_⟩ <;> refine hrun.trans ?_ <;> dsimp only
    · rw [if_neg hmod']
      simp [hmod']
    · rw [if_pos hmod']
      generalize (if f.modN = 0 then s.fetched u else (s.fetched u).flushMerge u.kit u.drum fun _ => true).closeSegment u = y
      cases howes : y.flushOwes u <;> simp [hmod']

-- ===== Gongs (O11) =====

/-- Settles O11: the three modes, and the arrival. -/
theorem gongInstructionsComplete : Obligations.GongInstructionsComplete := by
  unfold Obligations.GongInstructionsComplete
  constructor
  case left =>
    intro s u f hfetch
    dsimp only
    intro hz henabled
    refine ⟨fun hmod hevent => ?_, fun hmod => ?_, fun hmod hbarrier => ?_⟩
    · refine (next_run hfetch (by simp [hz, hmod]) (by simp [henabled, hevent, hmod])).trans ?_
      rw [if_pos hmod]
    · refine (next_run hfetch (by simp [hz, hmod]) (by simp [henabled, hmod])).trans ?_
      rw [if_neg (by omega), if_pos hmod]
    · have hring : f.modN ≠ 3 := by omega
      refine (next_run hfetch (by simp [hz]; omega) (by simp [henabled, hbarrier, hring])).trans ?_
      rw [if_neg hring, if_neg (by omega)]
  case right =>
    intro s u l stay hwait
    dsimp only
    intro hposted howes hrunning
    rw [exec_gongArrivalCounted, execGongArrivalCounted, hwait]
    dsimp only
    rw [if_neg]
    · by_cases hnow : (s.contextArrives u (s.partOf u) l).2 = s.sounds (s.partOf u) l <;> simp [hnow]
    · cases hfabric : gongFabric (s.gongCfg (s.partOf u) l) <;> simp_all

-- ===== Router, KV and tally instructions (O12) =====

/-- Settles O12, instruction by instruction. -/
theorem routerKvAndTallyInstructionsComplete : Obligations.RouterKvAndTallyInstructionsComplete := by
  unfold Obligations.RouterKvAndTallyInstructionsComplete
  intro s u f hfetch
  dsimp only
  refine ⟨fun hz hA hB hC himm hk hk8 he hke hfault hfull => ?rdisp, fun hz hD q rest hinbox => ?rrecv,
    fun hz hD hA hB hC hlow hhigh hfault hfull => ?kvrd, fun hz hD hA hB hC hfault hfull => ?kvapp,
    fun hz hA hB hpA hpB hv hown hfree howes => ?tpen, fun hz hD hB hlow hhigh hpD hpB haccess hfree hmask hnow => ?topk,
    fun hz hA hB hmod hpA hpB hv hshadow hown howes => ?tinc⟩
  case rdisp =>
    refine (next_run hfetch (by simp_all) hfault).trans ?_
    rw [if_neg (by simp [hfull])]
  case rrecv =>
    refine (next_run hfetch (by simp [hz, hD]) rfl).trans ?_
    dsimp only
    rw [hinbox]
  case kvrd =>
    refine (next_run hfetch (by simp [hz, hD, hA, hB, hC, hlow, hhigh]) hfault).trans ?_
    dsimp only
    rw [if_neg (by simp [hfull])]
  case kvapp =>
    refine (next_run hfetch (by simp [hz, hD, hA, hB, hC]) hfault).trans ?_
    dsimp only
    rw [if_neg (by simp [hfull])]
  case tpen =>
    refine (next_tiles hfetch (by simp [hz, hA, hB]) ?_ (by simp [hfree])).trans ?_
    · have hids : ¬ 0x1000000 < (s.fetched u).sv u f.A + 16 := Nat.not_lt.mpr hv
      simp [hpA, hpB, hids, hown]
    · rw [if_neg (by simp [howes])]
  case topk =>
    refine (next_tiles hfetch (by simp [hz, hD, hB, hlow, hhigh]) (by simp [hpD, hpB, haccess]) (by simp [hfree])).trans ?_
    rw [if_neg hmask, load_of_loadsNow hnow]
  case tinc =>
    refine (next_run hfetch (by simp [hz, hA, hB, hmod]) ?_).trans ?_
    · have hroom : (decide (f.modN = 1) && decide (64 ≤ (s.fetched u).kvShadow ((s.fetched u).slotArg u f.A))) = false := by
        by_cases hpush : f.modN = 1 <;> simp_all
      have hid : ¬ 0x1000000 ≤ (s.fetched u).sv u f.B := Nat.not_le.mpr hv
      simp [hpA, hpB, hid, hroom, hown]
    · dsimp only
      rw [if_neg fun h => by simp [howes h.1] at h]

-- ===== Actions on a faulted context (O13) =====

section Actions

variable {s : State} {k n : Nat} {w : Word}

/-- An action may act: the kit's step runs, and the context that w names has a fault of 1 to 15 and is not halted. -/
def State.mayAct (s : State) (k n : Nat) (w : Word) : Prop :=
  let u : CtxId := ⟨k, s.phys k n, F.DRM_CTX_CONTROL_MALLET.of w, F.DRM_CTX_CONTROL_CTX.of w⟩
  s.fb F.HUB_STATUS_READY 0 0 = true ∧ s.kitLive k = true ∧ n < 150 ∧
    (∃ p, s.partOfKit k = some p ∧ s.stepState p = stRunning) ∧ 1 ≤ (s.ctx u).fault ∧ (s.ctx u).fault ≤ 15 ∧ (s.ctx u).halted = false

theorem ctxAction_of_mayAct {act : Nat} {g : Ctx → Ctx} (h : s.mayAct k n w) (hact : F.DRM_CTX_CONTROL_ACTION.of w = act) :
    s.ctxAction k n w act g = s.setCtx ⟨k, s.phys k n, F.DRM_CTX_CONTROL_MALLET.of w, F.DRM_CTX_CONTROL_CTX.of w⟩ g := by
  obtain ⟨hready, hlive, hn, ⟨p, hpart, hrun⟩, hlow, hhigh, hhalted⟩ := h
  unfold State.ctxAction
  rw [if_pos]
  simp [hready, hlive, hn, hpart, hrun, hlow, hhigh, hhalted, hact]

theorem ctxAction_of_not_mayAct {act : Nat} {g : Ctx → Ctx} (h : ¬ s.mayAct k n w) : s.ctxAction k n w act g = s := by
  unfold State.ctxAction
  rw [if_neg]
  intro hall
  apply h
  simp only [Bool.and_eq_true, decide_eq_true_eq, Bool.not_eq_true'] at hall
  obtain ⟨⟨⟨⟨⟨⟨⟨hready, hlive⟩, hn⟩, -⟩, hrun⟩, hlow⟩, hhigh⟩, hhalted⟩ := hall
  refine ⟨hready, hlive, hn, ?_, hlow, hhigh, hhalted⟩
  split at hrun
  · next p hpart => exact ⟨p, hpart, by simpa using hrun⟩
  · cases hrun

end Actions

/-- Settles O13, from when an action acts. -/
theorem contextActionsComplete : Obligations.ContextActionsComplete := by
  unfold Obligations.ContextActionsComplete
  intro s k n w u act may
  refine ⟨fun hmay hact => ?_, fun hmay hact => ?_, fun hmay hact => ?_, fun hmay hact => ?_, fun hmay => ⟨?_, ?_, ?_, ?_⟩⟩
  iterate 4 exact congrArg Host.Outcome.next (ctxAction_of_mayAct hmay hact)
  iterate 4 exact congrArg Host.Outcome.next (ctxAction_of_not_mayAct hmay)

end Sys2Proof.Machine

/-!
The prefetch sequencer (O15), KV commands (O17), routers, rings and trees of shared openings (O19, O20), and the serving engine (O21 to O23).
-/
namespace Sys2Proof.Machine

open Sys2Proof (CtxId Fields Instr Word)

-- ===== The prefetch sequencer (O15) =====

section Prefetch

variable {s : State} {k d kind : Nat}

/-- A running sequencer whose entry of the named kind is read whole acts on it. -/
theorem pfRow_of_kind {act : State → Nat → State} (hruns : s.pfRuns k d = true) (hpos : (s.drum k d).pf.pos + 32 ≤ 0x600000)
    (hclean : (s.pfEntry k d).2.p = 0) (hkind : bits (s.pfEntry k d).2.v 63 60 = kind) (hlow : kind ≠ 0) (hhigh : kind ≤ 5) :
    s.pfRow k d kind act = act (s.pfEntry k d).1 (s.pfEntry k d).2.v := by
  unfold State.pfRow
  rw [if_neg (by simp [hruns]), if_neg (by omega)]
  dsimp only
  rw [if_neg (by simp [hclean]), if_neg (by omega), if_neg (by simp [hkind])]

end Prefetch

/-- Settles O15, entry by entry. -/
theorem prefetchCommandsComplete : Obligations.PrefetchCommandsComplete := by
  unfold Obligations.PrefetchCommandsComplete
  refine ⟨fun s k d hruns hpos hclean => ?entries, fun s k d hheld hended => ?start, fun s x dk df hkind hready => ?transfer⟩
  case entries =>
    dsimp only
    refine ⟨fun hkind hfault hroom => ?copy, fun hkind hfault hroom => ?scatter, fun hkind hflags => ?clear,
      fun hkind hfault ps hps hnow hclean' hle => ?now, fun hkind hfault hlater hpoll hready hclean' hle => ?later, fun hkind => ?last⟩ <;>
      refine congrArg Host.Outcome.next ((pfRow_of_kind hruns hpos hclean hkind (by decide) (by decide)).trans ?_)
    case copy =>
      dsimp only
      rw [hfault]
      dsimp only
      rw [if_neg (by omega)]
    case scatter =>
      dsimp only
      rw [hfault]
      dsimp only
      rw [if_neg (by omega)]
    case clear =>
      dsimp only
      rw [if_neg (by simp [hflags])]
    case now =>
      dsimp only
      rw [hfault]
      dsimp only
      rw [hps, if_pos hnow, if_neg (not_not.mpr hclean'), if_pos hle]
    case later =>
      dsimp only
      rw [hfault]
      dsimp only
      rw [if_neg (by simp [hlater]), if_pos hpoll, if_pos hready, if_neg (by simp [hclean']), if_pos hle]
    case last => rfl
  case start =>
    rw [exec_prefetchListStart, execPrefetchListStart]
    dsimp only
    rw [if_neg (by simp [hheld, hended])]
  case transfer =>
    rw [exec_prefetchTransferDone, execPrefetchTransferDone, hkind]
    dsimp only
    rw [if_pos hready]

-- ===== KV commands (O17) =====

/-- Settles O17, from the row of a KV command (kvRow_of) and what each operation applies. -/
theorem kvCommandsComplete : Obligations.KvCommandsComplete := by
  unfold Obligations.KvCommandsComplete
  intro s c w hc hw
  dsimp only
  intro hdone harm hidle hheld hclean
  have hrow := fun op => kvRow_of (op := op) hc hw hdone harm hidle hheld
  generalize (s.forward c .SRV_KV_CMD c 0 w).setF F.SRV_KV_RESULT_DONE c 0 0 = a at hrow hclean ⊢
  refine ⟨fun hop hfree harg hbase hcheck hkind hlow hhigh => ?reserve, fun hpart hactive => ⟨fun hop hfit => ?accepted, fun hop hadm htok => ?commit,
    fun hop hnext hlayer hhands => ?handoff, fun hop => ?flush⟩, fun hop hpart hst => ?release, fun hop hpart hst => ?free⟩ <;>
    refine congrArg Host.Outcome.next ((hrow _ hop).trans ?_)
  case reserve =>
    have happly : a.kvApply w.toNat = (a.hubRead 1 (kvAddr (kvSlot w.toNat)) 64).1.kvReserve w.toNat := by
      simp [State.kvApply, hclean, hop, hfree]
    rw [happly, State.kvReserve]
    dsimp only
    rw [if_neg (by omega), if_neg (by simp [hbase, hcheck, hkind, hlow, hhigh])]
  case accepted => simp [State.kvApply, hclean, hop, hactive, hpart, Nat.not_lt.mpr hfit]
  case commit => simp [State.kvApply, hclean, hop, hactive, hpart, Nat.not_lt.mpr hadm, Nat.not_lt.mpr htok]
  case handoff => simp [State.kvApply, hclean, hop, hactive, hpart, hnext, Nat.not_le.mpr hlayer, hnext ▸ hhands]
  case flush => simp [State.kvApply, hclean, hop, hactive, hpart]
  case release => rcases hst with hst | hst <;> simp [State.kvApply, hclean, hop, hst, hpart]
  case free => simp [State.kvApply, hclean, hop, hst, hpart]

-- ===== Routers, rings and trees (O19) =====

/-- A record for the inbox is written when the inbox has a free record. -/
theorem writeInbox_of_room {s : State} {k d : Nat} {q : RouteRec}
    (hclean : (s.readMem (unitDrum k d) (slotAddr k d (s.drum k d).inboxBase) 8).2.p = 0)
    (hroom : ((s.drum k d).inboxHead + 2 ^ 64 - (s.readMem (unitDrum k d) (slotAddr k d (s.drum k d).inboxBase) 8).2.v) % 2 ^ 64 <
      2 ^ (s.drum k d).inboxLog) :
    s.writeInbox k d q =
      let off := (s.drum k d).inboxNext q.len
      let a := ((s.readMem (unitDrum k d) (slotAddr k d (s.drum k d).inboxBase) 8).1.writeAll (unitDrum k d) (slotAddr k d off) q.len
        { v := q.v, p := q.p }).setDrum k d
        (fun x => { x with inboxHead := ((s.drum k d).inboxHead + 1) % 2 ^ 64, inbox := x.inbox ++ [{ q.entry with off := off }] })
      (a.setF F.DRM_INBOX_PENDING k d (a.f F.DRM_INBOX_PENDING k d + 1), some true) := by
  unfold State.writeInbox
  dsimp only
  rw [if_neg (not_not.mpr hclean), if_neg (Nat.not_le.mpr hroom)]

/-- Settles O19, clause by clause. -/
theorem routerAndRingCommandsComplete : Obligations.RouterAndRingCommandsComplete := by
  unfold Obligations.RouterAndRingCommandsComplete
  refine ⟨?take, ?dispatch, ?inbox, ?directory, ?config, ?bell, ?tree⟩
  case take =>
    intro s k t rest hpresented hroom hscores hact
    have hready : ¬ (64 ≤ (s.kit k).taken.length ∨ s.finishable t.scores = false ∨ s.finishable t.act = false) := by
      simp [hscores, hact, hroom]
    refine ⟨fun hgone => ?_, fun hkept => ?_⟩ <;> rw [exec_routerTakeToken, execRouterTakeToken, hpresented] <;> dsimp only <;> rw [if_neg hready]
    · rw [if_pos hgone, if_pos hgone]
    · simp only [hkept, Bool.false_eq_true, if_false]
  case dispatch =>
    intro s k x rest htaken hissue
    rw [exec_routerDispatch, execRouterDispatch, htaken]
    dsimp only
    rw [if_neg (ne_true_of_eq_false hissue)]
  case inbox =>
    intro s k d r q rest hrecords hfind hen hlen
    dsimp only
    intro hclean hroom
    have hfirst : ∀ g : Nat → Bool, (∀ i, g i = (s.kit i).records.head?.elim false (fun q => decide (q.kit = k ∧ q.drum = d))) →
        (List.range 8).find? g = some r := fun g hg => funext hg ▸ hfind
    rw [exec_inboxRecordWritten, execInboxRecordWritten, hfirst _ fun i => by cases (s.kit i).records <;> rfl]
    dsimp only
    rw [hrecords]
    dsimp only
    rw [if_neg (by simp [hen]), if_neg (not_not.mpr hlen), writeInbox_of_room hclean hroom]
    rfl
  case directory =>
    intro s i k e w hhas hlive hwrite hidle
    rw [exec_routerDirWrite, execRouterDirWrite, if_neg (by simp [hhas, hlive, hwrite])]
    dsimp only
    split
    · next p hpart =>
      obtain ⟨hrun, hstop⟩ := hidle p hpart
      rw [if_neg (by simp [hrun, hstop])]
    · rfl
  case config =>
    intro s i off r w hring hwrite
    dsimp only
    intro hnew hempty hvalid
    rw [exec_ringConfigWrite, execRingConfigWrite, hring]
    dsimp only
    generalize s.forward i (ringCfgReg r) (ringIdx r) 0 w = a at hnew hempty hvalid ⊢
    generalize writeFields (ringCfgReg r).fields (a.ringCfg r) w = new at hnew hvalid ⊢
    have hbusy : (ringOn (a.ringCfg r) && decide (a.ringHead r ≠ a.ringTail r)) = false := by
      cases hon : ringOn (a.ringCfg r)
      · rfl
      · simp [hempty hon]
    have hbad : (ringOn new && !ringValid new) = false := by
      cases hon : ringOn new
      · rfl
      · simp [hvalid hon]
    simp only [hwrite, Bool.true_eq_false, if_false, hnew, hbusy, hbad, Bool.false_eq_true]
  case bell =>
    intro s i off r w hring hwrite
    dsimp only
    intro hfit hwaiting
    rw [exec_ringDoorbell, execRingDoorbell, hring]
    dsimp only
    rw [if_neg (by simp [hwrite]), if_neg (by omega)]
  case tree =>
    intro s i off t r w htree hwrite hidle
    rw [exec_treeConfigWrite, execTreeConfigWrite, htree]
    dsimp only
    rw [if_neg (by simp [hwrite]), if_neg (by simp [hidle])]

-- ===== Prefix trees (O20) =====

/-- Settles O20, operation by operation, on what the walker takes up (pwRow_of). -/
theorem prefixTreeOperationsComplete : Obligations.PrefixTreeOperationsComplete := by
  unfold Obligations.PrefixTreeOperationsComplete
  intro s w v hw hready howes hclk
  dsimp only
  intro hfront hfresh hop hon hspan
  have hrow := fun op act h => pwRow_of (op := op) (act := act) hw hready hclk hfront hfresh hop hon hspan h howes
  generalize ((s.pwSettle w).ringFront w).1.beginJob w = a at hrow ⊢
  refine ⟨fun hop hsnap d hlow hhigh hdata hbad => ?lookup, fun hop d hnew hnode hparent hdata hclean hclean' hvisible => ?insert,
    fun hne hnode hclean => ⟨fun hop hlive => ?delete, fun hop hdead hgen hold hclean' hhead => ?unlink⟩, fun hop hfree => ?commit,
    fun hop hlow hhigh hheld => ?release⟩ <;> refine congrArg Host.Outcome.next ((hrow _ _ hop).trans ?_)
  case lookup =>
    dsimp only
    rw [hsnap, if_neg (not_not.mpr rfl), if_neg (by omega), if_pos rfl]
    rw [hdata]
    dsimp only
    rw [hbad]
  case insert =>
    dsimp only
    rw [if_neg (by omega), hdata]
    dsimp only
    rw [if_neg (not_not.mpr hclean), if_neg (not_not.mpr hclean'), if_neg fun h => by simp [hvisible h.1] at h]
  case delete =>
    unfold State.pwNode
    dsimp only
    rw [if_neg (by omega), if_neg (not_not.mpr hclean), if_neg (not_not.mpr hlive)]
  case unlink =>
    unfold State.pwNode
    dsimp only
    rw [if_neg (by omega), if_neg (not_not.mpr hclean), if_neg hdead, if_neg (by omega), if_neg (not_not.mpr hclean'), if_pos hhead]
  case commit =>
    dsimp only
    rw [if_neg (not_not.mpr hfree)]
  case release =>
    dsimp only
    rw [if_neg (by omega)]

-- ===== Serving requests (O21) =====

theorem mod_of_eq_zero {p m : Nat} (h : p = 0) : p % m = 0 := h ▸ Nat.zero_mod m

/-- A handle of this device whose slot's record reads well and whose generation is live finds its slot. -/
theorem findHandle_of_live {s : State} {p : Option Nat} {h : Nat} (hours : s.foreign p h = false)
    (hclean : (s.hubRead 1 (reqSlotAddr (handleSlot h)) 128).2.p = 0)
    (hlive : (s.hubRead 1 (reqSlotAddr (handleSlot h)) 128).1.stale p h = false) :
    s.findHandle p h = ((s.hubRead 1 (reqSlotAddr (handleSlot h)) 128).1, .slot) := by
  simp [State.findHandle, hours, gate_ok (mod_of_eq_zero hclean), hlive]

/-- Settles O21, record by record. -/
theorem servingRequestsComplete : Obligations.ServingRequestsComplete := by
  unfold Obligations.ServingRequestsComplete
  refine ⟨fun s p n r rest hcan hreq hpart => ⟨fun hcode hlimit hslot hclean => ⟨fun hattach hquery => ?submit, fun hop => ?attach⟩,
    fun hop hp hours hclean hlive => ?query⟩, fun s p r rest hcan hpart hp hours hclean hlive => ⟨fun hop hst => ?forward,
    fun hop hremote hfree hclosing hcancelling => ?cancel, fun hop hst hcode => ?notice⟩⟩
  case submit =>
    rw [exec_submit, execSubmit, head_of hcan hreq hpart (by simp [hattach, hquery])]
    exact congrArg Host.Outcome.next (admit_ok hcode hlimit hslot (mod_of_eq_zero hclean))
  case attach =>
    rw [exec_attach, execAttach, head_of hcan hreq hpart (by simp [hop])]
    exact congrArg Host.Outcome.next (admit_ok hcode hlimit hslot (mod_of_eq_zero hclean))
  case query =>
    rw [exec_query, execQuery, head_of hcan hreq hpart (by simp [hop])]
    dsimp only
    rw [if_neg (not_not.mpr hp), findHandle_of_live hours hclean hlive]
  case forward =>
    rw [exec_cancel, execCancel, hcan]
    dsimp only
    rw [if_neg (by simp [hpart, hop]), if_neg (not_not.mpr hp), findHandle_of_live hours hclean hlive]
    dsimp only
    rw [hst, if_neg (by decide), if_neg (by decide), if_neg (by decide), if_pos rfl]
  case cancel =>
    rw [exec_cancel, execCancel, hcan]
    dsimp only
    rw [if_neg (by simp [hpart, hop]), if_neg (not_not.mpr hp), findHandle_of_live hours hclean hlive]
    dsimp only
    rw [if_neg hfree, if_neg hclosing, if_neg hcancelling, if_neg hremote]
  case notice =>
    refine ⟨4 + 2 * (Sys2Proof.Config.freeValue ((s.setServe (fun v => { v with canQ := rest })).hubRead 1
      (reqSlotAddr (handleSlot (r.w 1))) 128).1.freeCtr % 2), by omega, ?_⟩
    rw [exec_notice, execNotice, hcan]
    dsimp only
    rw [if_neg (by simp [hpart, hop]), if_neg (not_not.mpr hp), findHandle_of_live hours hclean hlive]
    dsimp only
    rw [if_pos ⟨hst, hcode⟩]

-- ===== Slot commands (O22) =====

/-- Settles O22, from the row of a slot command (slotRow_of). -/
theorem slotCommandsComplete : Obligations.SlotCommandsComplete := by
  unfold Obligations.SlotCommandsComplete
  intro s c w hc hw
  dsimp only
  intro hclean hgen hne
  have hrow := fun op act h => slotRow_of (op := op) (act := act) hc hw (mod_of_eq_zero hclean) hgen hne h
  refine ⟨fun hop hst => ?remote, fun hop hst => ?park, fun hop hst => ?unpark, fun hst halign => ⟨fun hop => ?tally, fun hop hlow hhigh => ?tally2⟩⟩ <;>
    refine congrArg Host.Outcome.next ((hrow _ _ hop).trans ?_)
  case remote =>
    dsimp only
    rw [if_neg (by rcases hst with h | h <;> rw [h] <;> decide), if_pos hst]
  case park =>
    dsimp only
    rw [if_pos hst]
  case unpark => rw [if_pos hst]
  case tally => rw [if_neg fun h => hst.elim h.1 h.2, if_neg (not_not.mpr halign)]
  case tally2 =>
    dsimp only
    rw [if_neg fun h => hst.elim h.1 h.2, if_neg (by omega)]

-- ===== Responses and emit lists (O23) =====

/-- Settles O23, clause by clause. -/
theorem responsesAndEmitListsComplete : Obligations.ResponsesAndEmitListsComplete := by
  unfold Obligations.ResponsesAndEmitListsComplete
  refine ⟨?issue, ?free, ?police, ?submit, ?apply⟩
  case issue =>
    intro z slot r rest hslot
    dsimp only
    intro hqueue hflight hhost hkind hcompare hissue hcode hclean hcompare'
    rw [exec_responseIssue, execResponseIssue]
    generalize z.pumpOwed = s at *
    have hgate : s.slotGate slot = ((s.hubRead 1 (reqSlotAddr slot) 128).1, true) := gate_ok (mod_of_eq_zero hclean)
    have hroom : ¬ 2 ^ 14 ≤ slot := Nat.not_le.mpr hslot
    simp only [hqueue, hkind, hgate, hhost, hcode, hflight, hcompare, hissue, hroom, hcompare', Nat.reduceEqDiff, decide_false, Bool.false_and,
      Bool.and_false, Bool.false_eq_true, Bool.true_eq_false, if_false, if_true, ne_eq, not_true_eq_false, or_false, and_false]
  case free =>
    intro s slot hslot hst hterm hflight hawait hkv hclean
    rw [exec_slotFree, execSlotFree]
    have hread : s.slotRead slot 32 = ((s.hubRead 1 (reqSlotAddr slot) 128).1, true) := by simp [State.slotRead, hclean]
    dsimp only
    rw [if_neg (by simp [hterm, hflight, hawait, hkv]; exact ⟨hslot, fun h => hst.resolve_left h⟩), hread]
    rfl
  case police =>
    intro s i u w hwrite hhas
    rw [exec_subPoliceWrite, execSubPoliceWrite, if_neg (by simp [hwrite, hhas])]
  case submit =>
    intro s p w hp hready hpending
    rw [exec_emitSubmit, execEmitSubmit, if_neg (by simp [hp, hready]), if_neg (by simp [hpending])]
  case apply =>
    intro s p hpending
    dsimp only
    intro hmore hclean hform hours hroom hclean' hlive hok
    rw [exec_emitEntryApply, execEmitEntryApply]
    dsimp only
    have hfull : (decide (64 ≤ (s.slotX (handleSlot (wordOf (s.hubRead 1 (hubBase + (mget {} s.serve.emits p).list +
        16 * (mget {} s.serve.emits p).next) 16).2.v 0))).queue.length)) = false := decide_eq_false (by omega)
    rw [if_neg (by simp [hpending]; omega), if_neg (not_not.mpr hclean), if_neg (by simp [hform]), hfull, if_neg (by simp),
      findHandle_of_live hours hclean' hlive]
    dsimp only
    rw [hok, if_neg (by omega), if_neg (by omega), if_neg (by omega)]

end Sys2Proof.Machine

/-!
Transit entries, parcels and the delta codec (O24 to O26).
-/
namespace Sys2Proof.Machine

open Sys2Proof (CtxId Fields Instr Word)

-- ===== Transit submission (O24) =====

/-- Settles O24, clause by clause. -/
theorem transitSubmissionComplete : Obligations.TransitSubmissionComplete := by
  unfold Obligations.TransitSubmissionComplete
  refine ⟨?submit, ?abort, ?active, ?wheel, fun s => rfl, ?handoff⟩
  case submit =>
    intro s c w hc hwrite hdone
    dsimp only
    intro hon hfull halign hregion hclean hcheck
    rw [exec_trnSubmit, execTrnSubmit, if_neg (by simp [hc, hwrite]), if_neg (by simp [hdone])]
    dsimp only
    rw [if_neg (by simp [hon]), if_neg (by simp [hfull]), if_neg (by simp [halign]; exact fun h => hregion.resolve_left h),
      if_neg (not_not.mpr hclean), if_neg (not_not.mpr hcheck)]
  case abort =>
    intro s c w e hc hwrite
    dsimp only
    intro hentry
    rw [exec_trnAbort, execTrnAbort, if_neg (by simp [hc, hwrite])]
    dsimp only
    rw [hentry]
  case active =>
    intro s p q e
    dsimp only
    intro hfirst hruns hbefore
    rw [exec_trnEntryActive, execTrnEntryActive]
    dsimp only
    rw [hfirst]
    dsimp only
    rw [if_neg]
    have hall : ((s.trn.entries.filter (fun e => decide (e.part = p) && decide (e.queue = q))).takeWhile (fun x => decide (x.st ≠ 0))).all
        (fun x => decide (x.st = 4) || (!tdOrder e.desc && (decide (x.st = 1) || decide (x.st = 2)) && s.allIssued x)) = true := by
      rw [List.all_eq_true]
      intro x hx
      rcases hbefore x hx with h | ⟨horder, hst | hst, hissued⟩ <;> simp [*]
    rw [hall]
    rcases hruns with h | h <;> simp [h]
  case wheel =>
    intro s x hlive hstage htime hbehind
    rw [exec_trnWheelRelease, execTrnWheelRelease]
    rw [hbehind, if_neg (by simp [hlive, hstage]; omega)]
  case handoff =>
    intro s slot layer h t hfind hwaits hpages
    dsimp only
    intro hfind' hdone
    rw [exec_kvHandoffSubmit, execKvHandoffSubmit, hfind]
    dsimp only
    rw [hpages, if_neg (by simp [hwaits]), hfind']
    dsimp only
    rw [if_neg (by simp [hdone])]

-- ===== Parcels (O25) =====

/-- Settles O25, clause by clause. -/
theorem transitParcelsComplete : Obligations.TransitParcelsComplete := by
  unfold Obligations.TransitParcelsComplete
  refine ⟨?start, ?ack, ?fail, ?reissue, ?incomplete⟩
  case start =>
    intro s x e hentry hstartable
    rw [exec_trnParcelStart, execTrnParcelStart]
    dsimp only
    rw [hentry]
    dsimp only
    rw [if_neg (by simp [hstartable])]
    refine ⟨fun hbegun => if_pos hbegun, fun h hfresh hstage hchoose hmine hspans hlock hdata hcompare hbegun => ?_⟩
    rw [if_neg (by simp [hfresh]), hchoose]
    dsimp only
    rw [if_neg (not_not.mpr hmine), hspans]
    dsimp only
    rw [if_neg (ne_true_of_eq_false hlock), if_neg hstage, if_neg (by simp [hdata]), if_neg (ne_true_of_eq_false hcompare), if_pos hbegun]
  case ack =>
    intro s x hlive hstage hhalted
    rw [exec_trnParcelAck, execTrnParcelAck]
    dsimp only
    rw [if_neg (by simp [hlive, hstage, hhalted])]
    refine ⟨fun hremote hout => ?_, fun hlocal hout hdata hflash hhere => ?_⟩
    · rw [if_pos hremote, if_pos hout]
    · rw [if_neg (by simp [hlocal]), if_neg (by simp [hout]), if_neg (by simp [hdata]), if_neg (ne_true_of_eq_false hflash), if_pos hhere]
  case fail =>
    intro s x code e hlive hentry hout hcode hagain
    rw [exec_trnParcelFail, execTrnParcelFail]
    rw [hentry, hout]
    dsimp only
    rw [if_neg (by simp [hlive, hcode, hagain])]
  case reissue =>
    intro s x e hlive hentry hout hstage htime htag hfence
    dsimp only
    intro hr
    rw [exec_trnParcelReissue, execTrnParcelReissue]
    dsimp only
    rw [hentry]
    dsimp only
    rw [if_neg (by simp [hlive, hout, hstage, htag, hfence]; omega)]
    simp only [hr, if_true, Bool.true_and]
  case incomplete =>
    intro s src tag hopen hclosed htime
    rw [exec_trnParcelIncomplete, execTrnParcelIncomplete]
    rw [if_neg (by simp [hopen, hclosed]; omega)]

end Sys2Proof.Machine

/-!
Delta codec: the last clause of O26 leaves out the journal. A decoded parcel's blocks are journaled where the journal is on, so the state in which
its answer is known is not the one that O26 names.
-/
namespace Sys2Proof.Machine

open Sys2Proof (CtxId Fields Instr Word)

/-- A coded parcel of 64 raw bytes, all of whose stream is in, that an entry for span 2 (hub SRAM) lets in. -/
def decodedParcel : OpenParcel :=
  { isOpen := true, coded := true, rawLen := 64, v := (buildStream {} 0 0 64 0 0).1.v, n := (buildStream {} 0 0 64 0 0).1.n }

/-- The device that holds it, with its journal on. -/
def journaling : State :=
  { [(F.HUB_STATUS_READY, 0, 0, 1), (F.MEM_SPAN_CTL_VALID, 0, 2, 1), (F.MEM_SPAN_CTL_RIGHTS, 0, 2, 15), (F.MEM_SPAN_CTL_LENGTH_M1, 0, 2, 0xFFFF),
     (F.MEM_SPAN_BASE_BASE, 0, 2, hubBase), (F.MEM_EXPORT_CTL_VALID, 0, 0, 1), (F.MEM_EXPORT_CTL_SPAN, 0, 0, 2), (F.MEM_EXPORT_CTL_RIGHTS, 0, 0, 15),
     (F.INT_JOURNAL_ENABLE, 0, 0, 1)].foldl (fun s q => s.setF q.1 q.2.1 q.2.2.1 q.2.2.2) State.reset with
    fab := { parcels := [(0, decodedParcel)] } }

/-- Refutes O26: when the journal is on, the decoded blocks' journal entry stands in the state that finishDecode answers (R456), and not in the
state that the last clause names. -/
theorem not_codecParcelsComplete : ¬ Obligations.CodecParcelsComplete := by
  unfold Obligations.CodecParcelsComplete
  rintro ⟨-, -, -, -, -, hdecode⟩
  have heq := hdecode journaling 0 0 {} (by decide +kernel) (by decide +kernel) (by decide +kernel) (by decide +kernel) (by decide +kernel)
    (by decide +kernel) (by decide +kernel) (by decide +kernel)
  have hlen := congrArg (fun t => t.integ.journal.length) heq
  revert hlen
  decide +kernel

end Sys2Proof.Machine

/-!
Requests from the fabric (O27, O28), answers (O29), and the links (O30).
-/
namespace Sys2Proof.Machine

open Sys2Proof (CtxId Fields Instr Word)

-- ===== Data requests (O27) =====

section Requests

variable {s t a : State} {p : Pkt}

/-- A packet of a fabric row whose operation it is, performed at once, leaves. -/
theorem next_arrival {c : Prop} [Decidable c] (hop : c) (harrives : s.arrives p = true) (hdone : (s.arrived p).perform p = (t, true)) :
    Host.Outcome.next (φ := Fault) (ρ := Refusal) (if c then s.arrival p else s) = .next (t.departed s p) := by
  rw [if_pos hop, arrival_of harrives hdone]

theorem hit_of_spanOpen {n need rd wr ans : Nat} (h : a.spanOpen p n need rd wr ans = true) :
    (a.exportHit p.src p.addr n need).status = 0 ∧ (a.exportHit p.src p.addr n need).kind = 0 := by
  simp only [State.spanOpen, Bool.and_eq_true, decide_eq_true_eq] at h
  obtain ⟨⟨⟨⟨⟨⟨⟨⟨-, hstatus⟩, hkind⟩, -⟩, -⟩, -⟩, -⟩, -⟩, -⟩ := h
  exact ⟨hstatus, hkind⟩

theorem perform_load (h : p.op = opLoad) : a.perform p = a.performLoad p := by rw [State.perform, if_pos h]

theorem perform_store (h : p.op = opStore) : a.perform p = a.performStore p := by simp [State.perform, h, opLoad, opStore]

theorem perform_storem (h : p.op = opStorem) : a.perform p = a.performStorem p := by simp [State.perform, h, opLoad, opStore, opStorem]

theorem perform_peal (h : p.op = opPeal) : a.perform p = a.performPeal p := by simp [State.perform, h, opLoad, opStore, opStorem, opPeal]

theorem perform_atomic (h : p.op = opAtomic) : a.perform p = a.performAtomic p := by
  simp [State.perform, h, opLoad, opStore, opStorem, opPeal, opAtomic]

theorem perform_red (h : p.op = opRed) : a.perform p = a.performRed p := by
  simp [State.perform, h, opLoad, opStore, opStorem, opPeal, opAtomic, opRed]

theorem perform_fence (h : p.op = opFence) : a.perform p = a.performFence p := by
  simp [State.perform, h, opLoad, opStore, opStorem, opPeal, opAtomic, opRed, opFence]

theorem perform_gong (h : p.op = opGong) : a.perform p = if p.payload.testBit 47 then a.performSound p else a.performArrive p := by
  simp [State.perform, h, opLoad, opStore, opStorem, opPeal, opAtomic, opRed, opFence, opGong]

theorem perform_taint (h : p.op = opTaint) : a.perform p = a.performTaint p := by
  simp [State.perform, h, opLoad, opStore, opStorem, opPeal, opAtomic, opRed, opFence, opGong, opTaint]

theorem perform_parcel (h : p.op = opParcel) : a.perform p = a.parcelPacket p false := by
  simp [State.perform, h, opLoad, opStore, opStorem, opPeal, opAtomic, opRed, opFence, opGong, opTaint, opRecord, opParcel]

theorem perform_parcelEnd (h : p.op = opParcelEnd) : a.perform p = a.parcelEnd p := by
  simp [State.perform, h, opLoad, opStore, opStorem, opPeal, opAtomic, opRed, opFence, opGong, opTaint, opRecord, opParcel, opParcelEnd]

theorem perform_cparcel (h : p.op = opCparcel) : a.perform p = a.parcelPacket p true := by
  simp [State.perform, h, opLoad, opStore, opStorem, opPeal, opAtomic, opRed, opFence, opGong, opTaint, opRecord, opParcel, opParcelEnd, opCparcel]

theorem perform_cparcelEnd (h : p.op = opCparcelEnd) : a.perform p = a.cparcelEnd p := by
  simp [State.perform, h, opLoad, opStore, opStorem, opPeal, opAtomic, opRed, opFence, opGong, opTaint, opRecord, opParcel, opParcelEnd, opCparcel,
    opCparcelEnd]

theorem inPar_setInPar (src tag : Nat) (o : OpenParcel) : (a.setInPar src tag o).inPar src tag = o := by
  simp [State.inPar, State.setInPar, State.setFab]

/-- A packet that the device takes up is the one that its requester and key name. -/
theorem inbOf_arrived (h : s.arrives p = true) : (s.arrived p).inbOf p.src p.key = some (s.newIn p) := by
  simp only [State.arrives, Bool.and_eq_true, Option.isNone_iff_eq_none] at h
  obtain ⟨⟨-, hnone⟩, -⟩ := h
  have hfind : s.fab.inb.find? (fun q => q.is p.src p.key) = none := hnone
  have his : (s.newIn p).is p.src p.key = true := by simp [Inbound.is, State.newIn]
  calc (s.arrived p).inbOf p.src p.key = (s.fab.inb ++ [s.newIn p]).find? (fun q => q.is p.src p.key) := rfl
    _ = some (s.newIn p) := by simp [hfind, his]

/-- A packet that the device takes up and cannot finish waits with what it has done. -/
theorem arrival_kept (h : s.arrives p = true) (hdone : (s.arrived p).perform p = (t, false)) : s.arrival p = t := by
  simp only [State.arrives, Bool.and_eq_true, Bool.not_eq_true', decide_eq_true_eq] at h
  obtain ⟨⟨⟨⟨⟨hready, hnode⟩, hdst⟩, hpair⟩, -⟩, hblock⟩ := h
  have hfirst : ((s.takeIn p none).fab.inb.takeWhile (fun x => decide (x.id ≠ (s.newIn p).id))).any
      (fun x => x.pkt.sameBlock (s.newIn p).pkt) = false := by
    rw [List.any_eq_false]
    intro x hx
    have hmem := List.takeWhile_subset _ hx
    have hid := List.mem_takeWhile_imp hx
    simp only [State.takeIn, State.setFab, List.mem_append, List.mem_singleton] at hmem
    rcases hmem with hmem | rfl
    · exact List.any_eq_false.mp hblock x hmem
    · simp [State.newIn] at hid
  have hlast : (s.takeIn p none).fab.inb.getLast? = some (s.newIn p) := by simp [State.takeIn, State.setFab, State.newIn]
  have hnew : (s.takeIn p none).perform (s.newIn p).pkt = (t, false) := hdone
  rw [State.arrival, if_neg (by simp [hready, hnode, hdst]), hpair]
  simp only [Bool.false_and, Bool.false_eq_true, if_false, State.tryLast, hlast, State.tryIn, hfirst, hnew]

/-- With no earlier request of its requester waiting, a packet that the device takes up waits for none. -/
theorem follows1_arrived (h : s.fab.inb.any (fun q => decide (q.pkt.src = p.src)) = false) : (s.arrived p).follows1 p = false := by
  rw [State.follows1, List.any_eq_false]
  intro x hx
  have hmem := List.takeWhile_subset _ hx
  have his := List.mem_takeWhile_imp hx
  simp only [State.arrived, State.takeIn, State.setFab, List.mem_append, List.mem_singleton] at hmem
  rcases hmem with hmem | rfl
  · exact List.any_eq_false.mp h x hmem
  · simp [Inbound.is] at his

end Requests

/-- Settles O27, operation by operation. -/
theorem fabricDataRequestsComplete : Obligations.FabricDataRequestsComplete := by
  unfold Obligations.FabricDataRequestsComplete
  intro s p harrives
  dsimp only
  refine ⟨fun hop hsized hopen => ?load, fun hop hsized hopen => ?store, fun hop hsize halign hstatus hkind => ?accepted,
    fun hop hsized hopen => ?storem, fun hop hsize halign hopen => ?peal, fun hop hsize halign hopen => ?atomic,
    fun hop hform hreserved hanchor hsize halign hopen hcheck => ?red⟩
  case load =>
    refine next_arrival (.inl hop) harrives ?_
    rw [perform_load hop, State.performLoad]
    dsimp only
    rw [if_neg (by simp [hsized]), through_of hopen]
  case store =>
    refine next_arrival (.inl hop) harrives ?_
    rw [perform_store hop, State.performStore]
    dsimp only
    rw [if_neg (by simp [(hit_of_spanOpen hopen).2]), if_neg (by simp [hsized]), State.storeSpan, through_of hopen]
  case accepted =>
    refine next_arrival (.inl hop) harrives ?_
    rw [perform_store hop, State.performStore]
    dsimp only
    rw [if_pos ⟨hstatus, hkind⟩, if_neg (by simp [hsize, halign])]
    rfl
  case storem =>
    refine next_arrival hop harrives ?_
    rw [perform_storem hop, State.performStorem, if_neg (by simp [hsized]), State.storeSpan, through_of hopen]
  case peal =>
    refine next_arrival hop harrives ?_
    rw [perform_peal hop, State.performPeal, if_neg (by simp [hsize, halign]), State.storeSpan, through_of hopen]
  case atomic =>
    refine next_arrival hop harrives ?_
    rw [perform_atomic hop, State.performAtomic]
    dsimp only
    rw [if_neg (by omega), if_neg (by simp [(hit_of_spanOpen hopen).2]), through_of hopen]
  case red =>
    refine next_arrival hop harrives ?_
    rw [perform_red hop, State.performRed]
    dsimp only
    rw [if_neg, if_neg, through_of hopen]
    · rintro ⟨-, -, hform0, hon, hne⟩
      exact hne (hcheck hform0 hon)
    · rintro (h | h | ⟨h, h'⟩ | h | h)
      · omega
      · exact h hreserved
      · exact h' (hanchor h)
      · exact h hsize
      · exact h halign

-- ===== Control requests (O28) =====

section Control

variable {a b : State} {p : Pkt}

/-- A parcel's packet whose bytes are taken closes the parcel when it is its last. -/
theorem lastPacket_of {coded : Bool} (hopen : (a.inPar p.src p.tag).closed = false) (htaken : a.parcelPacket p coded = (b, true))
    (hsound : (b.inPar p.src p.tag).refused = 0) :
    a.lastPacket p coded = (b.setInPar p.src p.tag { b.inPar p.src p.tag with closed := true }, true) := by
  rw [State.lastPacket, if_neg (ne_true_of_eq_false hopen), htaken]
  exact if_neg (by simp [hsound])

/-- A packet of an uncoded parcel that is accepted, and lands in ready local memory, writes its bytes. -/
theorem parcelPacket_of {h : ExpHit} {pc : Piece} {n : Nat} {o : OpenParcel} (hnew : ((a.inbOf p.src p.key).getD {}).hit = none)
    (ho : a.parNow p.src p.tag = o) (hn : sizeBytes p.size = n) (hh : (a.view o.old).exportHit p.src (p.addr + o.n) n rWrite = h)
    (hpc : (a.view o.old).hitPiece h n = pc) (hsized : p.parSized = true) (hsound : o.refused = 0)
    (hroom : o.isOpen = true ∨ a.openCount < 4096) (hstatus : h.status = 0) (hkind : h.kind = 0) (hlocal : pc.rem = false)
    (hawake : a.asleep pc.addr = false) (hcredit : a.inCredit p h.part pc.addr n 0 1 0 = true) :
    a.parcelPacket p false =
      (((a.inCharge p h.part pc.addr n 0 1).writeMem p.inUnit pc.addr n p.payload (ones n) p.poison).setInPar p.src p.tag
        { o with isOpen := true, src := p.src, tag := p.tag, addr := p.addr, rawLen := p.rawLen, part := h.part, port := p.port, coded := false,
                 n := o.n + n, v := 0, p := 0,
                 lastPkt := ((a.inCharge p h.part pc.addr n 0 1).writeMem p.inUnit pc.addr n p.payload (ones n) p.poison).time }, true) := by
  rw [State.parcelPacket]
  dsimp only
  rw [ho, hn, if_neg (by simp [hsound, parDiscard]), if_neg (by simp [hsized]), if_neg (not_not.mpr hsound),
    if_neg (by rintro ⟨hclosed, hfull⟩; rcases hroom with hopen | hroom; · simp [hclosed] at hopen
               · omega), hnew]
  simp [hh, hpc, hstatus, hkind, hlocal, hawake, hcredit]

/-- The last packet of a coded parcel closes it, and waits for its blocks. -/
theorem cparcelEnd_waits {x : OpenParcel} (hopen : (a.inPar p.src p.tag).closed = false)
    (htaken : a.parcelPacket p true = (b.setInPar p.src p.tag x, true)) (hsound : x.refused = 0)
    (hblocks : (List.range x.blocks).all (fun n => nmem x.decoded n) = false) :
    a.cparcelEnd p = ((b.setInPar p.src p.tag x).setInPar p.src p.tag { x with closed := true }, false) := by
  rw [State.cparcelEnd, lastPacket_of hopen htaken (by rwa [inPar_setInPar]), inPar_setInPar]
  dsimp only
  rw [if_neg (by simp), inPar_setInPar, if_neg (not_not.mpr hsound)]
  exact if_pos hblocks

/-- A TAINT whose turn it is, and whose remote pieces have answered, is logged, counted and answered. -/
theorem performTaint_of {q : Inbound} {h : ExpHit} {c : State} (hin : a.inbOf p.src p.key = some q) (hnew : q.hit = none) (hreply : q.reply = none)
    (hh : (if (a.exportHit p.src (taintAddr p) (taintLen p) rWrite).status = ansRights then a.exportHit p.src (taintAddr p) (taintLen p) rReduce
      else a.exportHit p.src (taintAddr p) (taintLen p) rWrite) = h)
    (hsize : p.size = 2) (hreserved : bits (p.payload / 2 ^ 64) 42 32 = 0) (halign : taintAddr p % 32 = 0) (hlen : p.payload < 2 ^ 128)
    (hfirst : a.follows1 p = false) (hstatus : h.status = 0) (hkind : h.kind = 0)
    (hpass : (a.setInb p.src p.key (fun x => { x with hit := some (h, {}) })).passTaint p
      ((a.setInb p.src p.key (fun x => { x with hit := some (h, {}) })).spanPieces (deviceActor h.part trnUnit) h.span h.off (taintLen p))
      (taintSeq p) = (c, true)) :
    a.performTaint p = ((((c.log (srcPort p.port) Ev.TAINT_RECEIVED [p.src, taintSeq p, taintAddr p, taintLen p] (some h.part)
      (some p.inUnit)).count F.FAB_TAINT_IN_COUNT 0 0 1).answer p ansOk), true) := by
  rw [State.performTaint]
  dsimp only
  rw [hin, Option.getD_some, hnew, hreply, hh, if_neg (ne_true_of_eq_false hfirst), if_neg (by omega), if_neg (not_not.mpr hstatus),
    if_neg (not_not.mpr hkind), hpass]
  exact if_neg (by simp)

end Control

/-- Settles O28, packet by packet. -/
theorem fabricControlRequestsComplete : Obligations.FabricControlRequestsComplete := by
  unfold Obligations.FabricControlRequestsComplete
  refine ⟨?packets, ?orderRecord, ?orderPacket, ?waiting⟩
  case packets =>
    intro s p harrives
    have hin := inbOf_arrived harrives
    dsimp only
    refine ⟨fun hop hsize hfirst => ?fence,
      fun q l hop hsize hreserved hlen haddr hline => ⟨fun harrive hcounts hphase => ?arrive, fun hsound hcount => ?sound⟩,
      fun hop hsize hreserved halign hlen hfirst c hstatus hkind hpass => ?taint, fun hsized hsound hroom => ?parcels,
      fun b hop hopen htaken hsound hlocal => ?parcelEnd⟩
    case fence =>
      refine next_arrival hop harrives ?_
      rw [perform_fence hop, State.performFence, if_neg (not_not.mpr hsize), if_neg (ne_true_of_eq_false (follows1_arrived hfirst))]
    case arrive =>
      refine next_arrival ⟨hop, by simp [Pkt.isSound, harrive]⟩ harrives ?_
      rw [perform_gong hop, if_neg (ne_true_of_eq_false harrive), State.performArrive,
        gongLine_of hsize hreserved hlen haddr (fun hsound => absurd hsound (ne_true_of_eq_false harrive)) hline]
      dsimp only
      rw [if_neg (by simp [hcounts]), if_neg (not_not.mpr hphase)]
    case sound =>
      refine next_arrival (by simp [Pkt.isSound, hsound, hop]) harrives ?_
      rw [perform_gong hop, if_pos hsound, State.performSound, gongLine_of hsize hreserved hlen haddr (fun _ => hcount) hline]
    case taint =>
      refine next_arrival hop harrives ?_
      rw [perform_taint hop]
      exact performTaint_of hin rfl rfl rfl hsize hreserved halign hlen hfirst hstatus hkind hpass
    case parcels =>
      have hnew : (((s.arrived p).inbOf p.src p.key).getD {}).hit = none := by simp [hin, State.newIn]
      refine ⟨fun hop hstatus hkind hlocal hawake hcredit => ?parcel, fun hop hstatus hkind => ?cparcel,
        fun hop hstatus hkind hopen hblocks => ?cparcelEnd⟩
      case parcel =>
        refine next_arrival hop harrives ?_
        rw [perform_parcel hop]
        exact parcelPacket_of hnew rfl rfl rfl rfl hsized hsound hroom hstatus hkind hlocal hawake hcredit
      case cparcel =>
        refine next_arrival hop harrives ?_
        rw [perform_cparcel hop]
        exact cpacket_of hnew hsized hsound hroom hstatus hkind
      case cparcelEnd =>
        rw [exec_fabCparcelEnd, execFabCparcelEnd, if_pos hop]
        refine congrArg Host.Outcome.next (arrival_kept harrives ?_)
        rw [perform_cparcelEnd hop]
        exact cparcelEnd_waits hopen (cpacket_of hnew hsized hsound hroom hstatus hkind) hsound hblocks
    case parcelEnd =>
      refine next_arrival hop harrives ?_
      rw [perform_parcelEnd hop, State.parcelEnd, lastPacket_of hopen htaken hsound]
      dsimp only
      rw [if_neg (by simp), inPar_setInPar, if_neg (not_not.mpr hsound), if_pos hlocal]
  case orderRecord =>
    intro s r hfollows hnew
    rw [exec_orderRecord, execOrderRecord, if_neg (by simp [hfollows, hnew])]
  case orderPacket =>
    intro s p r hfollows hpair hfind hdue
    rw [exec_orderPacketFetch, execOrderPacketFetch, hfind]
    dsimp only
    rw [if_neg (by simp [hfollows, hpair]; omega)]
  case waiting =>
    refine fun s src tag q => ⟨fun port hdue => ?pending, ?abandoned⟩
    case pending =>
      dsimp only
      intro hsends hsrc hport
      rw [exec_fabPendingSend, execFabPendingSend, hdue]
      dsimp only
      rw [if_neg, if_neg hsrc, hport]
      rintro ⟨hmute, hloop⟩
      rcases hsends with hsends | hsends
      · simp [hmute] at hsends
      · exact hloop hsends
    case abandoned =>
      dsimp only
      intro hdue hparcel
      rw [exec_fabReqAbandoned, execFabReqAbandoned]
      dsimp only
      rw [hdue]
      dsimp only
      rw [if_pos hparcel]

end Sys2Proof.Machine

/-!
Answers from the fabric (O29) and the links (O30).
-/
namespace Sys2Proof.Machine

open Sys2Proof (CtxId Fields Instr Word)

-- ===== Answers (O29) =====

section Answers

variable {s : State} {p : Pkt} {x : Nat}

/-- A credit that comes back changes no register. -/
theorem node_creditRsp : (s.creditRsp p).node = s.node := by
  rw [State.creditRsp]
  split <;> rfl

/-- An asynchronous load, copy or KV read whose data is in hand lands it. -/
theorem asyncComplete_of (hdone : (s.advance x).finishable x = true)
    (hkind : ∀ k flag slot sel pos, ((s.advance x).xfer x).kind ≠ .kvapp k flag slot sel pos) :
    exec (.asyncComplete x) s = .next ((s.advance x).finishAsync x ((s.advance x).xfer x).data) := by
  rw [exec_asyncComplete, execAsyncComplete]
  dsimp only
  rw [if_neg (by simp [hdone]), State.finishAsync]
  cases hx : ((s.advance x).xfer x).kind with
  | kvapp k flag slot sel pos => exact absurd hx (hkind k flag slot sel pos)
  | _ => rfl

end Answers

/-- Settles O29, answer by answer. -/
theorem fabricAnswersComplete : Obligations.FabricAnswersComplete := by
  unfold Obligations.FabricAnswersComplete
  refine ⟨?answer, ?pending, ?dead, ?release, ?load, ?async⟩
  case answer =>
    intro s p n hop hdst hport hstatus
    dsimp only
    intro htag hout
    rw [exec_fabRsp, execFabRsp, if_pos hop, State.rspIn]
    dsimp only
    rw [node_creditRsp, if_neg (not_not.mpr hdst), if_neg hport, htag]
    dsimp only
    rw [if_neg (by simp [hout]), if_pos hstatus, hstatus]
  case pending =>
    intro s p n hop hdst
    dsimp only
    intro htag hout
    rw [exec_fabPending, execFabPending, if_pos hop, State.pendingIn]
    dsimp only
    rw [node_creditRsp, if_neg (not_not.mpr hdst), htag]
    exact congrArg Host.Outcome.next (if_pos hout)
  case dead =>
    intro s node tag hout hdue hgong
    rw [exec_fabTargetDead, execFabTargetDead]
    dsimp only
    rw [if_neg (by simp [hout]; omega), State.killTag]
    cases hissuer : (s.tag node tag).issuer with
    | gong q l => exact absurd hissuer (hgong q l)
    | _ => rfl
  case release =>
    intro s node tag hquarantined hdue
    rw [exec_fabTagRelease, execFabTagRelease]
    rw [if_neg (by simp [hquarantined]; omega)]
  case load =>
    intro s u x v word hwait
    dsimp only
    intro hkind hdone
    rw [exec_loadDataReturn, execLoadDataReturn, hwait]
    dsimp only
    rw [hkind]
    dsimp only
    rw [if_neg (by simp [hdone])]
  case async =>
    intro s x u flag
    dsimp only
    refine fun hdone => ⟨fun d n hkind => ?aldt, fun hkind => ?copy, fun slot sel pos hkind howes => ?kvapp⟩
    case aldt =>
      rw [asyncComplete_of hdone (by simp [hkind]), State.finishAsync]
      rw [hkind]
    case copy =>
      rcases hkind with hkind | hkind <;>
      · rw [asyncComplete_of hdone (by simp [hkind]), State.finishAsync]
        rw [hkind]
    case kvapp =>
      rw [exec_asyncComplete, execAsyncComplete]
      dsimp only
      rw [if_neg (by simp [hdone]), hkind]
      dsimp only
      rw [if_neg (by simp [howes])]

/-- Settles O30: sequence numbers stay below 2^24, so the window of 2,048 is a plain difference of two of them. -/
theorem linksAndEgressComplete : Obligations.LinksAndEgressComplete := by
  unfold Obligations.LinksAndEgressComplete
  refine ⟨?down, ?trained, ?frame, ?control, ?egress⟩
  case down =>
    intro s link cause hcause
    exact if_pos hcause
  case trained =>
    intro s link width htrain
    rw [exec_linkTrained, execLinkTrained, if_pos htrain]
  case frame =>
    intro s link f n hup hf he
    dsimp only
    have hmod : f % 2 ^ 24 = f := Nat.mod_eq_of_lt hf
    refine ⟨fun hnext => ?next, fun hbehind hnear => ?behind, fun hnone hahead hfar => ?ahead, fun hnone => ?bad⟩
    all_goals
      rw [exec_frameReceive, execFrameReceive]
      dsimp only
      rw [if_neg (by simp [hup])]
    case next => rw [if_neg (by simp), hmod, if_pos hnext]
    case behind => rw [if_neg (by simp), hmod, if_neg (by omega), if_pos (by omega)]
    case ahead => rw [if_neg (by simp), hmod, if_neg (by omega), if_neg (by omega), if_neg (by simp [hnone])]
    case bad => rw [if_pos rfl, if_neg (by simp [hnone])]
  case control =>
    intro s link c hup
    dsimp only
    refine ⟨fun hretry => ?_, fun n hretry hresends => ?_⟩
    all_goals
      rw [exec_frameControl, execFrameControl, if_neg (by simp [hup])]
      dsimp only
      rw [hretry]
    dsimp only
    rw [if_neg (by simp [hresends, Link.resent])]
    rfl
  case egress =>
    intro s n hhold hend hwrite hdown hheld halt
    rw [exec_egressHoldoffEnd, execEgressHoldoffEnd]
    dsimp only
    rw [if_neg (by simp [hhold]; omega), if_neg (by simp [hwrite]), if_neg (by simp [hdown])]
    simp [halt, hheld]

end Sys2Proof.Machine

/-!
Flash media operations, page discards and the account latch (O31).
-/
namespace Sys2Proof.Machine

open Sys2Proof (CtxId Fields Instr Word)

-- ===== The copies of a relocation =====

/-- What the copy of one live unit does to the flash and to the list of copies. -/
def copyUnit (dst : Nat) (q : Flash × List (Nat × Nat)) (o : Nat × FlashLoc) : Flash × List (Nat × Nat) :=
  let l := o.1
  let bad := (List.range 16).foldl (fun m i => m + (if nmem q.1.badCodewords (l * 16 + i) then ones 128 * 2 ^ (128 * i) else 0)) 0
  let f := q.1.place o.2.unit dst o.2.seq (cellsRead q.1.cells (65536 * l) 65536) (nmask q.1.poison (2048 * l) 2048 ||| bad)
  ({ f with locs := mupd {} f.locs q.1.nextLoc (fun x => { x with live := false }) }, q.2 ++ [(l, q.1.nextLoc)])

section Copies

variable {dst : Nat} {q : Flash × List (Nat × Nat)} (us : List (Nat × FlashLoc))

theorem copyUnits_reloc : (us.foldl (copyUnit dst) q).1.reloc = q.1.reloc := by
  induction us generalizing q with
  | nil => rfl
  | cons o us ih => exact ih

theorem copyUnits_map : (us.foldl (copyUnit dst) q).1.map = q.1.map := by
  induction us generalizing q with
  | nil => rfl
  | cons o us ih => exact ih

theorem copyUnits_queue : (us.foldl (copyUnit dst) q).1.queue = q.1.queue := by
  induction us generalizing q with
  | nil => rfl
  | cons o us ih => exact ih

/-- The copies stand in the order of the units that they copy. -/
theorem copyUnits_sources : (us.foldl (copyUnit dst) q).2.map Prod.fst = q.2.map Prod.fst ++ us.map Prod.fst := by
  induction us generalizing q with
  | nil => simp
  | cons o us ih => simp [ih, copyUnit]

end Copies

-- ===== The relocation's start =====

/-- A block that may be relocated copies its live units one by one. -/
theorem flashRelocateStart_of {s : State} {src dst : Nat} (hne : src ≠ dst) (hdue : (s.flash.queue.contains src || s.wearCold src) = true)
    (hempty : s.flash.unitsIn dst = 0) (hgives : s.flash.gives dst = true)
    (hidle : s.flash.reloc.any (fun r => decide (r.src = src) || decide (r.dst = dst) || decide (r.dst = src)) = false) :
    exec (.flashRelocateStart src dst) s = .next ((s.setFlash (fun _ => { ((s.flash.liveIn src).foldl (copyUnit dst) (s.flash, [])).1 with
      reloc := ((s.flash.liveIn src).foldl (copyUnit dst) (s.flash, [])).1.reloc ++ [{
        src := src, dst := dst, phase := .begun, copies := ((s.flash.liveIn src).foldl (copyUnit dst) (s.flash, [])).2 }] })).countReads src
      (16 * ((s.flash.liveIn src).foldl (copyUnit dst) (s.flash, [])).2.length)) := by
  rw [exec_flashRelocateStart, execFlashRelocateStart, if_neg]
  · rfl
  · rintro (h | h | h | h | h)
    · exact hne h
    · exact ne_true_of_eq_false h hdue
    · exact h hempty
    · exact ne_true_of_eq_false h hgives
    · exact ne_true_of_eq_false hidle h

/-- Settles O31, operation by operation. -/
theorem flashAndPageCommandsComplete : Obligations.FlashAndPageCommandsComplete := by
  unfold Obligations.FlashAndPageCommandsComplete
  refine ⟨?read, ?program, ?erase, ?reclaim, ?start, ?copied, ?checkpoint, ?load, ?discard, ?discardDone, ?latch⟩
  case read =>
    intro s r l hasked
    dsimp only
    refine ⟨fun hgood hlow => ?_, fun hgood hlow hhigh => ?_, fun hgood hlow hhigh => ?_, fun hbad hhigh => ?_, fun hbad hlow hhigh => ?_⟩
    all_goals
      rw [exec_flashReadDone, execFlashReadDone, hasked]
      dsimp only
      rw [if_neg (by omega)]
    · rw [hgood, if_neg (show ¬ 1 < r.retries by omega), if_neg Bool.false_ne_true, if_neg (by simp; omega)]
    · rw [hgood, if_pos (show 1 < r.retries by omega), if_neg Bool.false_ne_true, if_neg (by simp; omega)]
    · rw [hgood, if_pos (show 1 < r.retries by omega), if_neg Bool.false_ne_true, if_pos (by simp; omega)]
    · rw [hbad, if_neg (show ¬ 1 < r.retries by omega), if_pos rfl, if_pos (Bool.true_or _)]
    · rw [hbad, if_pos (show 1 < r.retries by omega), if_pos rfl, if_pos (Bool.true_or _)]
  case program =>
    intro s r hlive hflight hnew hgives hready hclock
    dsimp only
    intro hflash
    have hguard : ¬ ((s.parcel r.parcel).live = false ∨ (s.parcel r.parcel).stage ≠ .flight ∨ (s.parcel r.parcel).programmed = true ∨
        s.tdToFlash (s.parcel r.parcel).part ((s.entry (s.parcel r.parcel).part (s.parcel r.parcel).queue (s.parcel r.parcel).seq).getD {}).desc = false ∨
        s.flash.gives r.block = false ∨ s.fb F.FLS_STATUS_READY 0 0 = false ∨ s.boot.refclkLost = true) := by
      simp [hlive, hflight, hnew, hflash, hgives, hready, hclock]
    refine ⟨fun hbad => ?_, fun o b pc rest hok hdata hdst hbyte => ?_⟩
    all_goals
      rw [exec_flashProgramDone, execFlashProgramDone]
      dsimp only
      rw [if_neg hguard]
    · rw [if_pos hbad]
    · rw [if_neg (by simp [hok]), if_neg (by simp [hdata]), hdst]
      dsimp only
      rw [hbyte]
  case erase =>
    intro s block hlive hempty hidle hunread
    have hguard : ¬ ((s.block block).retired = true ∨ s.flash.liveIn block ≠ [] ∨
        s.flash.reloc.any (fun r => decide (r.src = block) || decide (r.dst = block)) = true ∨
        s.xfers.any (fun q => (q.2.nand.getD []).any (fun e => decide ((mget {} s.flash.locs e.2.1).block = block))) = true) :=
      or_neg (ne_true_of_eq_false hlive) (or_neg (not_not.mpr hempty) (or_neg (ne_true_of_eq_false hidle) (ne_true_of_eq_false hunread)))
    refine ⟨?_, ?_⟩
    all_goals rw [exec_flashEraseDone, execFlashEraseDone, if_neg hguard]
    · exact if_pos rfl
    · exact if_neg (by simp)
  case reclaim =>
    intro s r
    dsimp only
    refine ⟨fun hchannel hdead hlive hidle => ?_, fun hnone => ?_⟩
    all_goals
      rw [exec_flashReclaim, execFlashReclaim]
    · rw [if_pos (And.intro hchannel ⟨hdead, hlive, hidle⟩)]
    · rw [if_neg (c := blockChannel r.victim = r.channel ∧ _ ∧ _) (fun ⟨_, hdead, _⟩ => ne_true_of_eq_false hnone hdead)]
  case start =>
    intro s src dst hne hdue hempty hgives hidle
    refine ⟨((s.flash.liveIn src).foldl (copyUnit dst) (s.flash, [])).1, ((s.flash.liveIn src).foldl (copyUnit dst) (s.flash, [])).2,
      (flashRelocateStart_of hne hdue hempty hgives hidle).trans ?_, ?_, copyUnits_map _, copyUnits_queue _⟩
    · rw [copyUnits_reloc]
    · exact copyUnits_sources (q := (s.flash, [])) _
  case copied =>
    intro s src r hfind
    dsimp only
    refine ⟨fun hstopped => ?_, fun hready hclock => ?_⟩
    all_goals
      rw [exec_flashRelocateCopied, execFlashRelocateCopied, hfind]
      refine congrArg Host.Outcome.next ?_
    · exact if_neg (ne_true_of_eq_false (congrArg (· && !s.boot.refclkLost) hstopped))
    · exact if_pos (Bool.and_eq_true_iff.mpr ⟨hready, by simpa using hclock⟩)
  case checkpoint =>
    intro s hready hclock
    rw [exec_flashMapCheckpoint, execFlashMapCheckpoint, if_neg (by simp [hready, hclock])]
  case load =>
    intro s henabled hstopped hhome
    rw [exec_flashMapLoad, execFlashMapLoad, if_neg (by simp [henabled, hstopped, hhome])]
    rfl
  case discard =>
    intro s c w hc hwrite hdone
    dsimp only
    intro hsound
    refine ⟨Config.freeValue s.freeCtr % (bits w.toNat 63 40 + 1 + 1), Nat.lt_succ_iff.mp (Nat.mod_lt _ (Nat.succ_pos _)), _, ?_, rfl⟩
    rw [exec_discard, execDiscard, if_neg (by simp [hwrite]; omega), if_neg (by simp [hdone])]
    dsimp only
    rw [if_neg (by simp [hsound])]
  case discardDone =>
    intro s c hc hwaits hclock
    rw [exec_discardDone, execDiscardDone, if_neg (by simp [hwaits, hclock]; omega)]
  case latch =>
    intro s c w hc hwrite
    rw [exec_acctLatch, execAcctLatch, if_neg (by simp [hwrite]; omega)]

end Sys2Proof.Machine

/-!
The nearest-neighbour index (O32) and pre-emption (O33).
-/
namespace Sys2Proof.Machine

open Sys2Proof (CtxId Fields Instr Word)

/-- No generation bears the number that marks a live node. -/
theorem srcNext_ne_srcEmpty (g : Nat) : srcNext g ≠ srcEmpty := by
  rw [srcNext, srcEmpty]
  split <;> omega

/-- Settles O32, command by command. -/
theorem searchCommandsComplete : Obligations.SearchCommandsComplete := by
  unfold Obligations.SearchCommandsComplete
  refine ⟨?write, ?commands, ?settle⟩
  case write =>
    intro s i off n j r w hat hwrite hidle
    rw [exec_srcIndexWrite, execSrcIndexWrite, hat]
    dsimp only
    rw [if_neg (by simp [hwrite]), if_neg (ne_true_of_eq_false hidle)]
  case commands =>
    intro s i v hi hready hclock hsaved hruns hsettled hfront henabled hnew hgood hspans
    have hrow := fun (op : Nat) (act : State → Nat → State) (hop : sqOp v = op) (hlow : 1 ≤ op) (hhigh : op ≤ 6) =>
      sqRow_of (act := act) hi hready hclock hsaved hruns hfront henabled hnew hgood hspans hop hlow hhigh hsettled
    generalize ((s.sqSettle i).ringFront (i + 4)).1.beginJob (i + 4) = a at hrow ⊢
    dsimp only
    refine ⟨?search, ?insert, ?setlist, ?delete, ?commit, ?release⟩
    case search =>
      intro d n hop hheld hserved hgen hquery hclean hnodes hcodes hvectors hsound
      refine congrArg Host.Outcome.next ((hrow _ _ hop (by omega) (by omega)).trans ?_)
      have hn : (if wordOf v 5 = 0 then a.srcGen i else wordOf v 5) = n := by
        rcases hgen with ⟨harg, hn⟩ | ⟨harg, hn, -⟩
        · rw [if_pos harg, hn]
        · rw [if_neg (by omega), harg]
      dsimp only
      rw [hheld, if_neg (not_not.mpr rfl), hn, if_neg, if_neg (by simp [hserved]), if_neg (not_not.mpr rfl), hquery]
      · dsimp only
        rw [if_neg (not_not.mpr hclean), if_neg (ne_true_of_eq_false hnodes), if_neg (ne_true_of_eq_false hcodes),
          if_neg (by rw [Option.isNone_eq_false_iff.mpr hvectors]; exact Bool.false_ne_true), hsound, if_pos rfl, if_pos rfl]
      · rintro ⟨-, hne, hold⟩
        rcases hgen with ⟨harg, -⟩ | ⟨harg, -, hlt, hage, hheld⟩
        · exact hne harg
        · rw [harg] at hold
          rcases hold with hbig | hfar | hfree
          · omega
          · omega
          · exact ne_true_of_eq_false hfree hheld
    case insert =>
      intro hop hlive hdel hlists hdata
      refine congrArg Host.Outcome.next ((hrow _ _ hop (by omega) (by omega)).trans ?_)
      dsimp only
      rw [if_neg (fun hsame => absurd (hdel.symm.trans hsame.2.2) (by decide)),
        if_neg (or_neg (ne_true_of_eq_false hlive) (or_neg (fun hused => hused.1 hdel) (Nat.not_le.mpr hlists))), if_neg (by simp [hdata])]
    case setlist =>
      intro lst hop hlive hdel hgen hold hlist hdata
      refine congrArg Host.Outcome.next ((hrow _ _ hop (by omega) (by omega)).trans ?_)
      dsimp only
      rw [if_neg (or_neg (ne_true_of_eq_false hlive) (not_not.mpr hdel)),
        if_neg (fun hrefused => hrefused.2.elim (ne_true_of_eq_false · hold) hlist), hdata]
      exact if_neg hgen
    case delete =>
      intro hop hlive hdel hentry
      refine congrArg Host.Outcome.next ((hrow _ _ hop (by omega) (by omega)).trans ?_)
      dsimp only
      rw [if_neg (fun hsame => srcNext_ne_srcEmpty _ (hsame.2.symm.trans hdel)), if_neg (or_neg (ne_true_of_eq_false hlive) (not_not.mpr hdel)),
        if_neg hentry]
    case commit =>
      intro hop hfree hnear
      refine congrArg Host.Outcome.next ((hrow _ _ hop (by omega) (by omega)).trans ?_)
      dsimp only
      rw [if_neg (or_neg (not_not.mpr hfree) (ne_true_of_eq_false hnear))]
    case release =>
      intro hop hheld
      refine congrArg Host.Outcome.next ((hrow _ _ hop (by omega) (by omega)).trans ?_)
      dsimp only
      rw [if_neg (by simp [hheld])]
  case settle =>
    intro s i hi henabled hclock hruns
    rw [exec_srcSettle, execSrcSettle, if_neg (by simp [henabled, hclock, hruns]; omega)]

/-- Settles O33, command by command and phase by phase. -/
theorem preemptionCommandsComplete : Obligations.PreemptionCommandsComplete := by
  unfold Obligations.PreemptionCommandsComplete
  refine ⟨?commands, ?phases⟩
  case commands =>
    intro s c w hc hwrite a p hdone hreserved hguest
    have hrow := fun (op : Nat) (act : State → Nat → State × Nat × Nat) (hop : F.PAR_PREEMPT_OP.of w = op) =>
      preRow_of (act := act) hc hwrite hop hdone hreserved hguest
    refine ⟨fun hop hlend hphase henabled hfree => ?save, fun hop hreturnable hkits himages => ?restore, fun hop hreturnable => ?abandon,
      fun hop hphase => ?withdraw⟩
    case save =>
      have hguard : ¬ (a.phase p ≠ phNone ∨ a.fb F.PAR_CONFIG_ENABLE p 0 = false ∨ a.isHeld p = true ∨
          (decide (F.PAR_PREEMPT_LEND.of w = 1) && !(a.fb F.PAR_CONFIG_ENABLE (F.PAR_PREEMPT_GUEST.of w) 0 &&
            a.fb F.PAR_CONFIG_GUEST (F.PAR_PREEMPT_GUEST.of w) 0 && decide (a.f F.PAR_CONFIG_HOST (F.PAR_PREEMPT_GUEST.of w) 0 = p) &&
            decide (a.stepState (F.PAR_PREEMPT_GUEST.of w) = stIdle))) = true) :=
        or_neg (not_not.mpr hphase) (or_neg (by simp [henabled]) (or_neg (by simp [hfree]) (by simp [hlend])))
      dsimp only
      refine fun hfits => ⟨fun hstopped => ?_, fun hrunning => ?_⟩
      all_goals
        refine congrArg Host.Outcome.next ((hrow _ _ hop).trans ?_)
        dsimp only
        rw [if_neg hguard, if_neg (fun hbad => hbad.1 hfits)]
      · rw [if_pos (decide_eq_false hstopped), hlend]
        rfl
      · rw [if_neg (fun hstopped => of_decide_eq_false hstopped hrunning), if_pos hfits, hlend]
        rfl
    case restore =>
      refine congrArg Host.Outcome.next ((hrow _ _ hop).trans ?_)
      dsimp only
      rw [if_neg (ne_false_of_eq_true hreturnable), if_neg (ne_true_of_eq_false hkits), if_pos himages]
    case abandon =>
      refine congrArg Host.Outcome.next ((hrow _ _ hop).trans ?_)
      rw [if_pos hreturnable]
    case withdraw =>
      refine congrArg Host.Outcome.next ((hrow _ _ hop).trans ?_)
      rw [if_pos hphase]
  case phases =>
    refine fun s p hp => ⟨fun hphase himaged hdrained => ?drain, fun hphase himaged => ⟨fun hlend => ?saved, fun hlend => ?lent⟩,
      fun hphase hdrained => ?returned, fun hphase => ?restored⟩
    case drain =>
      have hready : (s.ownKits p).any (fun k => !(s.suspendEntries p).kitDrained k || (s.suspendEntries p).parcelOnSlots k) = false := by
        simpa [Bool.or_eq_false_iff] using hdrained
      rw [exec_preemptDrainDone, execPreemptDrainDone]
      dsimp only
      rw [if_neg (by simp [hphase, himaged]; omega), if_neg (ne_true_of_eq_false hready)]
    case saved =>
      rw [exec_preemptSaveDone, execPreemptSaveDone]
      dsimp only
      rw [if_neg (by simp [hphase, himaged]; omega), if_neg (ne_true_of_eq_false hlend)]
    case lent =>
      rw [exec_preemptSaveDone, execPreemptSaveDone]
      dsimp only
      rw [if_neg (by simp [hphase, himaged]; omega), if_pos hlend]
    case returned =>
      have hready : (s.ownKits p).any (fun k => !s.kitDrained k) = false := by simpa using hdrained
      rw [exec_preemptReturnDone, execPreemptReturnDone]
      dsimp only
      rw [if_neg (or_neg (by omega) (or_neg (not_not.mpr hphase) (ne_true_of_eq_false hready)))]
    case restored =>
      intro a b hb
      rw [exec_preemptRestoreDone, execPreemptRestoreDone, hb]
      exact if_neg (or_neg (by omega) (not_not.mpr hphase))

end Sys2Proof.Machine

/-!
The integrity unit: regulator window and retirement (O34), scrubbers, sound checks and observation list (O35).
-/
namespace Sys2Proof.Machine

open Sys2Proof (CtxId Fields Instr Word)

/-- Settles O34. -/
theorem regulatorAndRetirementComplete : Obligations.RegulatorAndRetirementComplete := by
  unfold Obligations.RegulatorAndRetirementComplete
  refine ⟨?window, fun _ _ _ => rfl, fun _ _ _ _ _ _ => rfl, ?rail, ?merge⟩
  case window =>
    rintro y z hdue rfl s b rfl
    rw [exec_regulatorWindow, execRegulatorWindow]
    exact if_neg (Nat.not_le.mpr hdue)
  case rail =>
    intro s k hlive hpower hheld
    rw [exec_railFault, execRailFault, if_neg (by simp [hlive, hpower, hheld])]
  case merge =>
    intro s k d line hclock hdue
    rw [exec_mergeAgeFlush, execMergeAgeFlush, if_pos ⟨hdue, hclock⟩]

-- ===== Sound checks (O35) =====

/-- A request for two distinct sound units that no test holds starts waiting. -/
theorem scheckRequest_of {s : State} {c b : Nat} {w : Word} (hc : c < 8) (hready : s.fb F.HUB_STATUS_READY 0 0 = true)
    (hdone : s.fb F.INT_SCHECK_RESULT_DONE c 0 = true)
    (hpick : (if F.INT_SCHECK_PARTNER.of w = 0xFFFFFF then s.autoPartner (F.INT_SCHECK_UNIT.of w) [F.INT_SCHECK_UNIT.of w]
      else some (F.INT_SCHECK_PARTNER.of w)) = some b)
    (hgood : ∀ u, u = F.INT_SCHECK_UNIT.of w ∨ u = b →
      unitExists u = true ∧ s.unitRetired u = false ∧ unitKind u = F.INT_SCHECK_KIND.of w ∧ s.underTest u = false)
    (hne : F.INT_SCHECK_UNIT.of w ≠ b) :
    exec (.scheckRequest c w) s = .next ((s.setF F.INT_SCHECK_RESULT_DONE c 0 0).setCheck c
      { live := true, a := F.INT_SCHECK_UNIT.of w, b := b, seed := (s.rg .INT_SCHECK_SEED c 0).toNat, since := s.time }) := by
  have hbad : ∀ u, u = F.INT_SCHECK_UNIT.of w ∨ u = b →
      (!unitExists u || s.unitRetired u || decide (unitKind u ≠ F.INT_SCHECK_KIND.of w)) = false := by
    intro u hu
    obtain ⟨hexists, hlive, hkind, -⟩ := hgood u hu
    simp [hexists, hlive, hkind]
  obtain ⟨-, -, -, hfreeA⟩ := hgood _ (.inl rfl)
  obtain ⟨-, -, -, hfreeB⟩ := hgood _ (.inr rfl)
  rw [exec_scheckRequest, execScheckRequest, if_neg (by simp [hready]; omega), if_neg (by simp [hdone])]
  simp only [decide_eq_true_eq, hpick, hbad _ (.inl rfl)]
  rw [hbad _ (.inr rfl), if_neg (by simp [hne]), if_neg (by simp [hfreeA, hfreeB])]

/-- Settles O35, step by step of a check. -/
theorem scrubAndSoundChecksComplete : Obligations.ScrubAndSoundChecksComplete := by
  unfold Obligations.ScrubAndSoundChecksComplete
  refine ⟨?scrub, ?overdue, ?request, ?run, ?forced, ?done, ?retest, ?add⟩
  case scrub =>
    intro s u e hu henabled hkit hrate
    rw [exec_scrubAccess, execScrubAccess]
    refine if_neg (or_neg (by omega) (or_neg (by simp [henabled]) (or_neg ?_ (by omega))))
    rintro ⟨hu, hout⟩
    simp [hkit hu] at hout
  case overdue =>
    intro s u hu hrunning hnew hlate
    rw [exec_scrubOverdue, execScrubOverdue]
    rw [if_neg (by simp [hrunning, hnew]; omega)]
  case request =>
    intro s c b w hc hready hdone
    dsimp only
    intro hpick hgoodA hgoodB hne
    refine scheckRequest_of hc hready hdone hpick ?_ hne
    rintro u (rfl | rfl)
    · exact hgoodA
    · exact hgoodB
  case run =>
    intro s c k hpartner hlive hidle hgap
    rw [exec_scheckRun, execScheckRun]
    rw [hpartner]
    dsimp only
    rw [if_neg (or_neg (by simp [hlive]) (or_neg (by simp [hidle]) (by simp [hgap])))]
  case forced =>
    intro s c k
    dsimp only
    intro hpartner hlive hidle hkind hdue hfree hdrums
    have hunits : k.tests.all (fun u => !s.underTest u && (decide (unitKind u ≠ 3) || !s.codecBusy (bits u 20 18))) = true := by
      rw [List.all_eq_true]
      intro u hu
      obtain ⟨htest, hcodec⟩ := hfree u hu
      by_cases hkind : unitKind u = 3 <;> simp [htest, hkind, hcodec]
    have hready : k.tests.all (fun u => decide (2 ≤ unitKind u) ||
        (!(s.drum (unitKit u) (unitNum u)).inStep && !(s.drum (unitKit u) (unitNum u)).calibrating &&
          decide ((s.drum (unitKit u) (unitNum u)).rebindFrom = 0) && !s.mustForce (unitKit u) (unitNum u))) = true := by
      rw [List.all_eq_true]
      intro u hu
      by_cases hkind : unitKind u < 2
      · simp [hdrums u hu hkind]
      · simp [Nat.not_lt.mp hkind]
    refine ⟨fun hcodec => ?_, fun hother hkits hsafe => ?_⟩
    all_goals
      rw [exec_scheckForced, execScheckForced]
      dsimp only
      rw [hpartner]
      dsimp only
      rw [if_neg (or_neg (by simp [hlive]) (or_neg (by simp [hidle]) (or_neg (by omega) (or_neg (ne_false_of_eq_true hunits)
        (or_neg (ne_false_of_eq_true hready) hkind)))))]
    · rw [if_pos hcodec]
    · rw [if_neg hother, if_neg]
      rintro (hnone | hbusy)
      · exact hkits hnone
      · obtain ⟨q, hq, hbusy⟩ := List.any_eq_true.mp hbusy
        simp [hsafe q hq] at hbusy
  case done =>
    intro s c r hlive hrunning
    dsimp only
    refine ⟨fun hfirst hagree => ?_, fun v hfirst hdiffer hpick => ?_, fun hfirst hdiffer hpick => ?_, fun hreferee hA hB => ?_,
      fun hreferee hA hB => ?_, fun hreferee hsame => ?_⟩
    all_goals
      rw [exec_scheckEnd, execScheckEnd]
      dsimp only
      rw [if_neg (by simp [hlive, hrunning])]
    · rw [if_neg (by simp [hfirst]), if_pos hagree]
    · rw [if_neg (by simp [hfirst]), if_neg (by simp [hdiffer]), hpick]
    · rw [if_neg (by simp [hfirst]), if_neg (by simp [hdiffer]), hpick]
    · rw [if_pos hreferee, if_pos ⟨hA, hB⟩]
    · rw [if_pos hreferee, if_neg (by simp [hA]), if_pos ⟨hB, hA⟩]
    · rw [if_pos hreferee, if_neg (by simp [hsame]), if_neg (by simp [hsame])]
  case retest =>
    intro s e he hvalid hidle
    dsimp only
    intro hdue
    rw [exec_obsRetest, execObsRetest]
    rw [if_neg (or_neg (by omega) (or_neg (by simp [hvalid]) (or_neg (by simp [hidle]) (Nat.not_lt.mpr hdue))))]
  case add =>
    intro s c w hc hready hreason hexists hlive
    rw [exec_obsAdd, execObsAdd]
    rw [if_neg (by simp [hready, hexists, hlive]; omega)]

end Sys2Proof.Machine

/-!
The event log and the control cores (O37), resets and power (O38).
-/
namespace Sys2Proof.Machine

open Sys2Proof (CtxId Fields Instr Word)

/-- Settles O37. -/
theorem eventLogAndCoresComplete : Obligations.EventLogAndCoresComplete := by
  unfold Obligations.EventLogAndCoresComplete
  refine ⟨?accept, ?spill, ?window, ?lost, ?kick, ?hang, ?restart, ?restarted⟩
  case accept =>
    rintro s src r rest hqueue hrunning hturn hfree a rfl
    rw [exec_eventAccept, execEventAccept, hqueue]
    exact if_neg (by simp [hrunning, hturn]; omega)
  case spill =>
    intro s b v hspilling hbanks hleft hawake hbank
    dsimp only
    intro hroom
    rw [exec_eventSpill, execEventSpill]
    dsimp only
    rw [if_neg (by simp [hspilling, hbanks, hawake]; omega), hbank]
    dsimp only
    rw [if_neg (Nat.not_lt.mpr hroom)]
  case window =>
    intro s i b v hbank
    refine ⟨_, rfl, ?_⟩
    rw [hbank]
    exact ⟨rfl, rfl, rfl, rfl⟩
  case lost =>
    intro s bank cause hbank hcause
    rw [exec_logBankLost, execLogBankLost]
    rw [if_neg (by rcases hcause with h | ⟨h, hfull⟩ <;> omega)]
  case kick =>
    intro s i c w hc hwrite hkick
    rw [exec_ccWatchdogKick, execCcWatchdogKick, if_neg (by simp [hwrite, hkick]; omega)]
  case hang =>
    intro s c hruns henabled hlate
    refine ⟨Config.freeValue s.freeCtr % 2 ^ 64, Nat.mod_lt _ (by decide), ?_⟩
    rw [exec_ccHang, execCcHang, if_neg (by simp [hruns, henabled]; omega)]
  case restart =>
    intro s i w hwrite
    rw [exec_ccRestart, execCcRestart, if_neg (by simp [hwrite])]
  case restarted =>
    intro s c hwaits
    exact if_pos hwaits

/-- Settles O38. -/
theorem resetPowerAndPortComplete : Obligations.ResetPowerAndPortComplete := by
  unfold Obligations.ResetPowerAndPortComplete
  refine ⟨fun _ _ => rfl, fun s i w => ⟨fun hword => ?cold, fun hword => ?warm⟩, fun s hpower => ⟨?rail, fun hheld => ?request,
    fun hheld hclock a ha => ?clockLost, fun a ha => ?trip, fun w a hheld hdue ha => ⟨fun hruns => ?tempo, fun hstopped => ?readings⟩,
    fun node n a hheld ha => ?releaseCold, fun node n a hheld hwarm ha => ?releaseWarm, fun hheld => ?trained⟩, fun s hclock => ?clockReturn,
    fun s => ⟨_, rfl, rfl, rfl, rfl, rfl, rfl⟩, fun _ => rfl, fun s htrained => ?linkDown⟩
  case cold => rw [exec_hubResetCold, execHubResetCold, if_pos hword]
  case warm => rw [exec_hubResetWarm, execHubResetWarm, if_pos hword]
  case rail => rw [exec_fixedRailOutOfTolerance, execFixedRailOutOfTolerance, if_neg (by simp [hpower])]
  case request => rw [exec_warmResetRequest, execWarmResetRequest, if_neg (by simp [hpower, hheld])]
  case clockLost =>
    subst ha
    rw [exec_refclkLost, execRefclkLost, if_neg (by simp [hpower, hheld, hclock])]
  case trip =>
    subst ha
    rw [exec_thermalTrip, execThermalTrip, if_neg (by simp [hpower])]
  case tempo =>
    subst ha
    rw [exec_tempoWindowClose, execTempoWindowClose, if_neg (by simp [hpower, hheld]; omega)]
    exact if_pos hruns
  case readings =>
    subst ha
    rw [exec_tempoWindowClose, execTempoWindowClose, if_neg (by simp [hpower, hheld]; omega)]
    exact if_neg (ne_true_of_eq_false hstopped)
  case releaseCold =>
    subst ha
    rw [exec_resetRelease, execResetRelease, if_neg (by simp [hpower, hheld]), hheld]
    rfl
  case releaseWarm =>
    subst ha
    rw [exec_resetRelease, execResetRelease, if_neg (by simp [hpower, hwarm])]
    dsimp only
    rw [hheld]
    rfl
  case trained => rw [exec_hostPortTrained, execHostPortTrained, if_neg (by simp [hpower, hheld])]
  case clockReturn => rw [exec_refclkReturn, execRefclkReturn, if_pos hclock]
  case linkDown => rw [exec_hostLinkDown, execHostLinkDown, if_neg (by simp [htrained])]

end Sys2Proof.Machine

/-!
Configuration epochs (O39) and the stages of boot (O40).
-/
namespace Sys2Proof.Machine

open Sys2Proof (CtxId Fields Instr Word)

/-- Settles O39, command by command and phase by phase. -/
theorem configurationEpochsComplete : Obligations.ConfigurationEpochsComplete := by
  unfold Obligations.ConfigurationEpochsComplete
  refine ⟨?commands, ?staged, ?persisted, ?holding, ?switched, ?written⟩
  case commands =>
    intro s i w hwrite hleads hreserved howner
    have hrow := fun (op : Nat) (act : State → State) (hop : F.HUB_CFG_CMD_OP.of w = op) =>
      cfgRow_of (act := act) hwrite hop (.inl hleads) hreserved howner
    dsimp only
    refine ⟨fun b hop hidle hb => ?_, fun hop hstaging hgood => ?_, fun hop hstaging hvalid => ?_, fun hop hstaging => ?_,
      fun hop hidle hprevious hgood => ?_, fun hop hholding => ?_⟩
    all_goals refine congrArg Host.Outcome.next ((hrow _ _ hop).trans ?_)
    · subst hb
      exact if_neg (not_not.mpr hidle)
    · rw [if_neg (by simp [hstaging])]
      exact if_pos hgood
    · rw [if_neg (by simp [hstaging]), if_pos hvalid]
      exact if_pos rfl
    · exact if_neg (by simp [hstaging])
    · rw [if_neg (not_not.mpr hidle), if_neg (by simp [hprevious])]
      exact if_neg (not_not.mpr hgood)
    · exact if_neg (not_not.mpr hholding)
  case staged =>
    rintro s i off j k r w hat hepoch hwrite hstaging howner hleads a b rfl
    rw [exec_cfgStagedWrite, execCfgStagedWrite, hat]
    dsimp only
    rw [if_neg (by simp [hepoch, hwrite]), if_pos (by simp [hstaging, howner, hleads])]
  case persisted =>
    intro s hphase
    refine ⟨?_, ?_⟩
    all_goals rw [exec_cfgPersistDone, execCfgPersistDone, if_neg (not_not.mpr hphase)]
    · exact if_pos rfl
    · exact if_neg Bool.false_ne_true
  case holding =>
    refine fun s hphase => ⟨fun hheld hquotas => ?_, fun hlate => ?_⟩
    · rw [exec_cfgHoldComplete, execCfgHoldComplete, if_neg (by simp [hphase, hheld])]
      dsimp only
      rw [hquotas]
      exact congrArg Host.Outcome.next (if_pos rfl)
    · rw [exec_cfgTimeout, execCfgTimeout, if_neg (by simp [hphase]; omega)]
  case switched =>
    intro s hphase hdrained hforward hvolatile
    dsimp only
    rintro d rfl
    rw [exec_cfgSwitchDone, execCfgSwitchDone, if_neg (by simp [hphase, hdrained])]
    dsimp only
    rw [hforward, hvolatile]
    simp only [Bool.false_eq_true, if_false]
  case written =>
    intro s howed
    rw [exec_cfgNorSwitchWritten, execCfgNorSwitchWritten, if_neg (by simp [howed])]

/-- Settles O40, stage by stage. -/
theorem bootStagesComplete : Obligations.BootStagesComplete := by
  unfold Obligations.BootStagesComplete
  refine ⟨fun s r hstage => ⟨fun hself => ?romFails, fun hself hclock hnor hsize hwarm => ?rom⟩, fun s n h hstage hpick hfirst hhead => ?verify,
    fun s r hstage => ⟨fun hwarm => ?fillWarm, fun hcold hother hbank0 hbank1 => ?fillCold⟩, fun s failed hstage => ?hbm,
    fun s trained hstage => ?link, fun s w hstage => ?tempo, fun s hstage => ?config⟩
  case romFails => rw [exec_bootRom, execBootRom, if_neg (not_not.mpr hstage), if_pos hself]
  case rom =>
    rw [exec_bootRom, execBootRom, if_neg (not_not.mpr hstage), if_neg (by simp [hself]), if_neg (by simp [hclock]),
      if_neg (or_neg (by simp [hnor]) (Nat.not_lt.mpr hsize)), if_pos hwarm]
  case verify =>
    rw [exec_bootVerify, execBootVerify, if_neg (not_not.mpr hstage)]
    dsimp only
    rw [hpick]
    dsimp only
    rw [hhead, if_pos (.inl hfirst.symm)]
  case fillWarm => rw [exec_bootFill, execBootFill, if_neg (not_not.mpr hstage), if_pos hwarm]
  case fillCold =>
    rw [exec_bootFill, execBootFill, if_neg (not_not.mpr hstage), if_neg (by simp [hcold])]
    dsimp only
    rw [hother, hbank0, hbank1]
    rfl
  case hbm =>
    intro a hlive
    rw [exec_bootHbm, execBootHbm, if_neg (not_not.mpr hstage)]
    exact congrArg Host.Outcome.next (if_pos hlive)
  case link => rw [exec_bootLink, execBootLink, if_neg (not_not.mpr hstage)]
  case tempo => rw [exec_bootTempo, execBootTempo, if_neg (not_not.mpr hstage)]
  case config => rw [exec_bootConfig, execBootConfig, if_neg (not_not.mpr hstage)]

end Sys2Proof.Machine

/-!
Host queues and the five host commands (O41), attention pulses and the management bus (O42).
-/
namespace Sys2Proof.Machine

open Sys2Proof (CtxId Fields Instr Word)

/-- A command in good form that the device admits passes the checks that come before its effect. -/
theorem hostCheck_of {s : State} {c : HostCmd} {form admitted : Bool} (hgood : c.bad = false) (hleads : s.follows = false)
    (hform : form = true) (hadmitted : admitted = true) : s.hostCheck c form admitted = 0 := by
  simp [State.hostCheck, hgood, hleads, hform, hadmitted]

/-- Settles O41, command by command. -/
theorem hostQueuesComplete : Obligations.HostQueuesComplete := by
  unfold Obligations.HostQueuesComplete
  refine ⟨?config, ?submit, ?complete, ?commands, ?written⟩
  case config =>
    intro s i q w hqueue
    dsimp only
    refine fun hoff => ⟨fun hstays => ?_, fun hstarts => ?_⟩
    all_goals
      rw [exec_hqCfgWrite, execHqCfgWrite, if_neg (by simp [hqueue])]
      dsimp only
      rw [hoff, if_neg (by simp)]
    · rw [if_pos hstays, if_neg (by simp)]
    · rw [if_neg hstarts, if_neg (by simp)]
  case submit =>
    intro s i q w es hqueue hon
    dsimp only
    intro hroom
    rw [exec_hqSqDoorbell, execHqSqDoorbell, if_neg (by simp [hqueue, hon])]
    exact if_neg (Nat.not_lt.mpr hroom)
  case complete =>
    intro s i q w hqueue hon hwithin
    rw [exec_hqCqDoorbell, execHqCqDoorbell, if_neg (by simp [hqueue, hon])]
    exact if_neg (Nat.not_lt.mpr hwithin)
  case commands =>
    intro s q c d hfront hgood hleads hdma
    dsimp only
    refine ⟨fun hopc hkept harg0 harg1 hclean hop hreserved hleads hready => ?serve,
      fun hopc hlow hhigh hlen hdata harg hready hfree hawake => ⟨fun hdir => ?copyIn, fun t hdir hflash ht => ?copyOut⟩,
      fun hleads hready hidle hclean hnor hlow => ⟨fun h m hopc hentry hhigh hstore hunused hprogram => ?install,
        fun h hopc harg hhigh himage => ?bootWrite⟩,
      fun h hopc hq harg hlow hhigh hstage hfail hleads hidle hclean hhead hdigest t ht => ?recover⟩
    case serve =>
      rw [hopc] at hfront
      rw [exec_serve, execServe, hfront]
      dsimp only
      rw [hclean, hostCheck_of hgood hleads (by rw [harg0, harg1]; rcases hop with hop | hop | hop <;> simp [hop, hreserved]) hready, if_neg (not_not.mpr rfl),
        if_neg (by simp [hdma]), if_neg (not_not.mpr rfl), hkept]
      simp only [Bool.false_eq_true, if_false]
    case copyIn =>
      rw [hopc] at hfront
      rw [exec_hqCopy, execHqCopy, hfront]
      dsimp only
      rw [hostCheck_of hgood hleads (by simp [hlow, hhigh, hlen, hdata, harg]) hready, if_neg (not_not.mpr rfl),
        if_neg (by simp [hfree]), if_neg (by simp [hawake]), if_pos hdir, if_neg (by simp [hdma])]
    case copyOut =>
      subst ht
      rw [hopc] at hfront
      rw [exec_hqCopy, execHqCopy, hfront]
      dsimp only
      rw [hostCheck_of hgood hleads (by simp [hlow, hhigh, hlen, hdata, harg]) hready, if_neg (not_not.mpr rfl),
        if_neg (by simp [hfree]), if_neg (by simp [hawake]), if_neg hdir, if_neg (by simp [hflash])]
    case install =>
      rw [hopc] at hfront
      rw [exec_install, execInstall, hfront]
      dsimp only
      rw [hostCheck_of hgood hleads (by simp [hentry, hlow, hhigh]) hready, if_neg (not_not.mpr rfl), if_neg (Nat.not_le.mpr hstore),
        if_neg (by simp [hidle]), if_neg (by simp [hunused]), if_neg (by simp [hdma]), if_neg (not_not.mpr hclean), hprogram]
      dsimp only
      rw [if_pos hnor]
    case bootWrite =>
      rw [hopc] at hfront
      rw [exec_bootWrite, execBootWrite, hfront]
      dsimp only
      rw [hostCheck_of hgood hleads (by simp [harg, hlow, hhigh]) hready, if_neg (not_not.mpr rfl),
        if_neg (by simp [hidle]), if_neg (by simp [hdma]), if_neg (not_not.mpr hclean), himage]
      dsimp only
      rw [if_pos hnor]
    case recover =>
      subst ht
      rw [hopc] at hfront
      rw [exec_recover, execRecover, hfront]
      dsimp only
      rw [hostCheck_of hgood hleads (by simp [harg, hlow, hhigh]) (by simp [hq ▸ hstage, hq ▸ hfail, hq]), if_neg (not_not.mpr rfl),
        if_neg (by simp [hidle]), if_neg (by simp [hdma]), if_neg (not_not.mpr hclean), hhead]
      dsimp only
      rw [if_neg (not_not.mpr hdigest)]
  case written =>
    intro s q c hon hnext hroom
    rw [exec_hqCommandComplete, execHqCommandComplete, if_neg (by simp [hon]), hnext]
    exact if_neg hroom

-- ===== Attention and management (O42) =====

/-- After the negotiation, a request of the version agreed is answered as its operation says. -/
theorem spdm_of {s : State} {r : SpdmReq} {a : DoeResp} (halgs : s.mgmt.spdmAlgs = true)
    (hversion : r.version = s.mgmt.spdmVersion) : s.spdm r a = s.doeAnswer a := by
  simp [State.spdm, halgs, hversion]

/-- Settles O42. -/
theorem attentionAndManagementComplete : Obligations.AttentionAndManagementComplete := by
  unfold Obligations.AttentionAndManagementComplete
  refine ⟨?raise, ?pulse, ?release, ?management⟩
  case raise =>
    intro s i w halive hi hraise
    rw [exec_attnRaise, execAttnRaise, if_neg (by simp [halive, hraise]; omega)]
    exact congrArg Host.Outcome.next (if_pos hraise)
  case pulse =>
    rintro s t hattn hhigh hidle hspaced rfl
    refine ⟨fun hdue => ?_, fun hnone hms hlate => ?_⟩
    · rw [exec_attnPulseStart, execAttnPulseStart, if_pos (by simp [hattn, hhigh, hidle, hspaced, hdue])]
      rfl
    · rw [exec_attnRenotify, execAttnRenotify]
      dsimp only
      rw [if_pos (by simp [hattn, hhigh, hidle, hspaced, hnone, hms, hlate])]
      rfl
  case release =>
    rintro s t hpulse hlate rfl
    rw [exec_attnPulseRelease, execAttnPulseRelease, if_pos (by simp [hpulse, hlate])]
  case management =>
    intro s hup
    refine ⟨fun m r j k hread hbus hpec hreg hmay => ?transfer, fun a t ha hnone ht => ⟨?entdaa, ?setdasa⟩, fun t ht => ?rstdaa,
      fun hassigned => ⟨?pid, ?bcr, ?dcr, ?status⟩, fun r t u v => ⟨rfl, fun ht => ?version, fun hversion hu => ?capabilities,
      fun hcaps hversion hv => ?algorithms, fun halgs hversion => ⟨?digests, fun hparam hoffset => ?certificate, fun hparam => ?challenge,
      fun hparam => ⟨fun hall => ?count, fun hlow hhigh => ?measurement⟩⟩⟩⟩
    case transfer =>
      rw [exec_mgmtTransfer, execMgmtTransfer, if_neg (by cases hd : s.mgmt.dynAddr <;> simp [hup, hpec, hbus, hd])]
      dsimp only
      rw [if_neg (by simp [hread]), if_pos (by simp [hreg, hmay])]
    case entdaa =>
      subst ht
      rw [exec_entdaa, execEntdaa, if_pos (by simp [hup, hnone, ha])]
    case setdasa =>
      subst ht
      rw [exec_setdasa, execSetdasa, if_pos (by simp [hup, hnone, ha])]
    case rstdaa =>
      subst ht
      exact if_pos hup
    case pid => exact congrArg Host.Outcome.next (if_pos (by simp [hup, hassigned]))
    case bcr => exact congrArg Host.Outcome.next (if_pos (by simp [hup, hassigned]))
    case dcr => exact congrArg Host.Outcome.next (if_pos (by simp [hup, hassigned]))
    case status => exact ⟨_, congrArg Host.Outcome.next (if_pos (Bool.and_eq_true_iff.mpr ⟨hup, hassigned⟩))⟩
    case version =>
      subst ht
      exact if_neg (by simp [hup])
    case capabilities =>
      subst hu
      rw [exec_getCapabilities, execGetCapabilities, if_neg (by simp [hup]), if_neg (by omega)]
    case algorithms =>
      subst hv
      rw [exec_negotiateAlgorithms, execNegotiateAlgorithms, if_neg (by simp [hup]), if_neg (by simp [hcaps]), if_neg (not_not.mpr hversion)]
    case digests => exact congrArg Host.Outcome.next (spdm_of halgs hversion)
    case certificate =>
      rw [exec_getCertificate, execGetCertificate]
      dsimp only
      rw [spdm_of halgs hversion, if_neg (by simp [hparam]; omega)]
    case challenge =>
      refine ⟨BitVec.ofNat 384 (if r.param2 = 0 then 0 else Config.freeValue s.freeCtr), Config.attestSign (s.freeCtr + 1), ?_⟩
      rw [exec_challenge, execChallenge, if_neg (not_not.mpr hparam)]
      exact congrArg Host.Outcome.next (spdm_of halgs hversion)
    case count =>
      rw [exec_getMeasurements, execGetMeasurements]
      rw [if_pos hall, if_neg (by omega), if_neg (by omega), spdm_of halgs hversion]
    case measurement =>
      rw [exec_getMeasurements, execGetMeasurements]
      rw [if_neg (show ¬ r.param2 = 0 by omega), if_neg (show ¬ r.param2 = 0xFF by omega), if_neg (show ¬ 12 < r.param2 by omega),
        if_neg (show ¬ r.param1 % 2 = 1 by omega), if_neg (show ¬ r.param1 % 2 = 1 by omega), spdm_of halgs hversion]

end Sys2Proof.Machine
